-- ==== Sys2Proof/Word.lean ====
section
/-! DEFINITION. The 32-bit dword of the registers and records (R9), the byte, and their plainest bit-field arithmetic
(bit 0 is the least significant, R8). -/

namespace Sys2Proof

/-- A dword (R9). -/
abbrev Word := BitVec 32

/-- A byte. -/
abbrev Byte := BitVec 8

/-- The field NAME[hi:lo] of a dword, as a number (R9). -/
def Word.fld (w : Word) (hi lo : Nat) : Nat := (w.toNat >>> lo) % 2 ^ (hi - lo + 1)

/-- The bit NAME[n] of a dword (R9). -/
def Word.bit (w : Word) (n : Nat) : Bool := (w.toNat >>> n) % 2 == 1

/-- A number placed in the field [hi:lo] of an otherwise zero dword. -/
def Word.mk (hi lo v : Nat) : Word := BitVec.ofNat 32 ((v % 2 ^ (hi - lo + 1)) <<< lo)

/-- The dword with field [hi:lo] replaced by `v`. -/
def Word.put (w : Word) (hi lo v : Nat) : Word :=
  let m : Word := BitVec.ofNat 32 ((2 ^ (hi - lo + 1) - 1) <<< lo)
  (w &&& ~~~m) ||| Word.mk hi lo v

/-- A truth value as the dword bit `n`. -/
def Word.flag (n : Nat) (b : Bool) : Word := if b then Word.mk n n 1 else 0#32

/-- A natural number as a dword. -/
def Word.ofN (n : Nat) : Word := BitVec.ofNat 32 n

/-- Byte `i` (0-3) of a dword, little-endian (R8). -/
def Word.byte (w : Word) (i : Nat) : Byte := BitVec.ofNat 8 (w.toNat >>> (8 * i))

/-- The number spelt by bytes, little-endian (R8). -/
def leNat : List Byte → Nat
  | [] => 0
  | b :: r => b.toNat + 256 * leNat r

end Sys2Proof
end

