-- ==== Sys2Proof/Types.lean ====
section
/-! DEFINITION. The named alternatives that commands carry: who makes a register access, what a read of host memory
brought back, how a USB transaction ended, what a device or hub reported. -/

namespace Sys2Proof

/-- The blocks of R52, by register-name prefix. -/
inductive Blk where
  | hst | imu | hdma | rng | ten | ldr | prg | pwr | lnk | frm | fif | rdma
  | wsc | core | cic | mbx | snw | nvs | mon | mnt | tmb
  deriving DecidableEq, Repr

/-- Who makes a register access: the manager window, a tenant through the instance window, the loader window (R46),
an engine core through the engine region's map (R416, R418), or the SMBus target (R551). -/
inductive Origin where
  | manager
  | tenant
  | loader
  | core (c : Fin 16)
  | smbus
  deriving DecidableEq, Repr

/-- How a read of host memory ended (R208, R211), with the bytes it brought. -/
inductive ReadRes where
  | ok (bytes : List Byte)
  | poison (bytes : List Byte)
  | ur
  | ca
  | timeout
  | malformed
  deriving DecidableEq, Repr

/-- Why a read failed (R208). -/
inductive RdErr where
  | ur | ca | timeout | malformed
  deriving DecidableEq, Repr

/-- How a read of whole dwords of host memory ended (R208, R211). -/
inductive DwRes where
  | ok (dws : List Word)
  | poison
  | fail (e : RdErr)
  deriving DecidableEq, Repr

/-- How a scan read of returned entries ended (R612): the OWN bits read, or as `DwRes`. -/
inductive ScanRes where
  | ok (owns : List Bool)
  | poison
  | fail (e : RdErr)
  deriving DecidableEq, Repr

/-- The speeds of a port or device (R139). -/
inductive Speed where
  | none | low | full | high
  deriving DecidableEq, Repr

/-- The data PIDs of USB 2.0 that an IN packet can carry. -/
inductive Pid where
  | data0 | data1 | data2 | mdata
  deriving DecidableEq, Repr

/-- How a transaction ended, as the link cell reports it (R144, R229, R304). `data` is an IN reply; what became of
its bytes was settled by IN_PACKET (R235). -/
inductive Outcome where
  | ack | nyet | nak | stall
  | noReply | corrupt
  | data
  | sent
  | underrun
  | poison
  | err
  deriving DecidableEq, Repr

/-- How a control request that firmware issued ended (R271): completed with the bytes of its data stage, or failed. -/
inductive ReqRes where
  | ok (bytes : List Byte)
  | stall
  | failed
  deriving DecidableEq, Repr

/-- One change reported by a hub for one of its ports (R295, R296, R312, R316), with the port status read. -/
inductive HubChange where
  | connection (connected : Bool)
  | reset (connected enabled : Bool) (speed : Speed)
  | overCurrent
  | enable (enabled : Bool)
  | suspend
  deriving DecidableEq, Repr

/-- The values of the Scale Status usage that R350 and R351 tell apart. -/
inductive ScaleStatus where
  | stable | inMotion | zero | under | over | fault | calibrate | rezero
  deriving DecidableEq, Repr

/-- A scale report with its usages located (R350): status, Weight Unit, Data Scaling, Data Weight. -/
structure ScaleReport where
  st : ScaleStatus
  unit : Byte
  exp : Int
  v : Int
  poison : Bool
  deriving DecidableEq, Repr

/-- A point-of-sale scanner report with its usages located (R347): decoded data, Symbology Identifiers 2 and 3, and
Decode Data Continued. -/
structure PosReport where
  decoded : List Byte
  sym2 : Byte
  sym3 : Byte
  cont : Bool
  poison : Bool
  deriving DecidableEq, Repr

/-- The wake-latch sources of R516. -/
inductive WakeSrc where
  | line (region : Fin 8)
  | oc (region : Fin 8)
  | delay
  | cicCore (c : Fin 16)
  | cicEdge (src : Fin 512)
  | mbxGo (j : Fin 32)
  | tmbGo
  | classD
  | hostWrite
  | marigold (dom : Fin 34)
  deriving DecidableEq, Repr

/-- The kinds of error a storage cell can show (R558). -/
inductive CellErr where
  | single
  | multi
  deriving DecidableEq, Repr

/-- What the PCIe link delivered wrongly (R567). -/
inductive PcieErr where
  | receiver | badTlp | badDllp | replayTimeout | replayRollover
  | malformedTlp | poisonedWrite | unexpectedCompletion
  deriving DecidableEq, Repr

/-- The four activities of R524. -/
inductive Activity where
  | wear | cal | scrub | tel
  deriving DecidableEq, Repr

end Sys2Proof
end

