-- ==== Sys2Proof/Syntax.lean ====
section
/-! DEFINITION. The commands the LF128 takes, one constructor per row of spec/opcode_table.json, in the table's order.
Identifiers range as R16 gives them; `tier` is a TIERPOS (R289); `idx` of a Decust command is the MCQ index under
which MCQ_TAKE copied it on chip (R369). -/

namespace Sys2Proof

/-- A command (a row of the table): a register access, a protocol operation, an event on a pin or on the bus, or the
moment at which one of the block's own operations ends. -/
inductive Instr where
  -- register accesses, NV store, staged registers
  | registerWrite (org : Origin) (off : Fin 67108864) (val : Word)
  | accessError (org : Origin) (off : Fin 67108864) (isRead : Bool)
  | unsupportedRequest (org : Origin) (off : Fin 67108864) (isRead : Bool)
  | nvWrite (org : Origin) (j : Fin 1024) (val : Word)
  | nvWriteAccept
  | nvWriteDurable
  | stagedWrite (org : Origin) (off : Fin 67108864) (val : Word)
  | discard (org : Origin) (page : Fin 8192)
  | tenCommit (gen : Fin 65536)
  | discardAll
  | commitPoint
  | errorInject (org : Origin) (page : Fin 8192) (val : Word)
  | imageWrite (off : Nat) (data : List (Option Byte))
  -- frame engine
  | paceEvaluation (region : Fin 8) (pace : Fin 256)
  | paceThrWrite (region : Fin 8) (val : Word)
  | frameStart (port : Fin 128)
  | transactionEnd (port : Fin 128) (out : Outcome) (x : Nat)
  | inPacket (port : Fin 128) (data : List Byte) (pid : Pid) (good : Bool)
  | busBabble (port : Fin 128)
  -- rings
  | dbWake (inst : Fin 4096) (ring : Fin 16)
  | dbEnable (inst : Fin 4096) (ring : Fin 16)
  | dbDisable (inst : Fin 4096) (ring : Fin 16)
  | dbClearHalt (inst : Fin 4096) (ring : Fin 16) (epid : Fin 32)
  | dbCmp (inst : Fin 4096) (c : Fin 4)
  | dbEvt (inst : Fin 4096)
  | rngViewDisable
  | descriptorFetch (inst : Fin 4096) (ring : Fin 16) (rd : DwRes)
  | contextFetch (inst : Fin 4096) (ring : Fin 32) (rd : DwRes)
  | dispatch (inst : Fin 4096) (ring : Fin 16) (entry : Fin 32768)
  | transferTimeout (inst : Fin 4096) (ring : Fin 16) (entry : Fin 32768)
  | flushingReadDone (inst : Fin 4096) (ok : Bool)
  | modIntervalExpiry (inst : Fin 4096) (ring : Fin 32)
  | entryScanRead (inst : Fin 4096) (ring : Fin 32) (rd : ScanRes)
  | eventDelivery
  | spqWalk
  -- DMA
  | dmaBurstStart (eng : Fin 9) (ch : Fin 32)
  | dmaReadCompletion (eng : Fin 9) (ch : Fin 32) (rd : ReadRes)
  | dmaBurstEnd (eng : Fin 9) (ch : Fin 32)
  | dmaAgeing (eng : Fin 9) (ch : Fin 32)
  | channelRestart (org : Origin) (eng : Fin 9) (ch : Fin 32)
  | firmwareDmaStart (core : Fin 16) (ch : Fin 8)
  | dcqCiWrite (core : Fin 16) (val : Word)
  | pasidEnableChange (en : Bool)
  -- root ports
  | powerOn (port : Fin 128)
  | powerOff (port : Fin 128)
  | resetCmd (port : Fin 128)
  | disableCmd (port : Fin 128)
  | vbusStaggerStep (region : Fin 8)
  | hpwrStaggerStep
  | powerGoodWaitEnd (port : Fin 128)
  | connect (port : Fin 128) (speed : Speed)
  | debounceEnd (port : Fin 128)
  | disconnect (port : Fin 128)
  | enumStart
  | resetSignalEnd (port : Fin 128) (chirp : Bool)
  | resetRecoveryEnd (port : Fin 128) (connected : Bool)
  | slotGrant
  | enumRequestComplete (port : Fin 128) (tier : Word) (res : ReqRes)
  | enumRequestTimeout (port : Fin 128) (tier : Word)
  | setAddressRecoveryEnd (port : Fin 128) (tier : Word)
  | portMeasurement (port : Fin 128) (c5 ch : Fin 1024)
  | ocHardTrip (port : Fin 128)
  | ocRetryExpiry (port : Fin 128)
  | ocRetryClear (port : Fin 128)
  | testModeSelect (port : Fin 128) (sel : Fin 8)
  | testModeClear (port : Fin 128)
  | testClearEnd (port : Fin 128)
  -- hubs, suspend
  | hubRequestComplete (port : Fin 128) (tier : Word) (res : ReqRes)
  | hubPowerGoodEnd (port : Fin 128) (tier : Word)
  | hubStatusChange (port : Fin 128) (tier : Word) (hubPort : Fin 32) (chg : HubChange)
  | hubPortDebounceEnd (port : Fin 128) (tier : Word) (connected : Bool)
  | hubResetTimeout (port : Fin 128) (tier : Word)
  | hubResetRecoveryEnd (port : Fin 128) (tier : Word)
  | portSuspendReq (port : Fin 128) (rwakeEn : Bool)
  | portResumeReq (port : Fin 128) (rwakeEn : Bool)
  | suspendEntryEnd (port : Fin 128) (tier : Word)
  | resumeSignalEnd (port : Fin 128)
  | resumeRecoveryEnd (port : Fin 128) (tier : Word)
  | hubResumeTimeout (port : Fin 128) (tier : Word)
  | remoteWake (port : Fin 128) (tier : Word)
  -- personalities
  | scanKbdReport (slot : Fin 8193) (rep : List Byte) (poison : Bool)
  | scanPosReport (slot : Fin 8193) (rep : PosReport)
  | scanGapExpiry (slot : Fin 8193)
  | scaleReport (slot : Fin 8193) (rep : ScaleReport)
  | scaleStabilityExpiry (slot : Fin 8193) (timer : Nat)
  | printerStatusBlock (slot : Fin 8193) (blk : List Byte) (poison : Bool)
  | printerStatusPoll (slot : Fin 8193)
  | printerOutNotice (slot : Fin 8193)
  | powerChangeNotice (slot : Fin 8193)
  | printerIdleExpiry (slot : Fin 8193)
  | drawerSenseReport (slot : Fin 8193) (rep : List Byte) (poison : Bool)
  | drawerSenseExpiry (slot : Fin 8193)
  | kick (slot : Fin 8193) (tag : Fin 65536) (pulseMs : Fin 65536)
  | kickGapExpiry (slot : Fin 8193)
  | pulseExpiry (slot : Fin 8193)
  | openWaitExpiry (slot : Fin 8193)
  | clear (slot : Fin 8193) (tag : Fin 65536)
  | text (slot : Fin 8193) (tag : Fin 65536) (line col : Fin 256) (chars : List Byte)
  | bright (slot : Fin 8193) (tag : Fin 65536) (level : Fin 256)
  | keyboardReport (slot : Fin 8193) (rep : List Byte) (poison : Bool)
  | personalityRequestComplete (slot : Fin 8193) (res : ReqRes)
  -- Decust commands
  | mcqTake (rd : DwRes)
  | hello (idx : Fin 65536)
  | createInstance (idx : Fin 65536)
  | destroyInstance (idx : Fin 65536)
  | resetInstance (idx : Fin 65536)
  | vivelAgree (idx : Fin 65536)
  | createRing (idx : Fin 65536)
  | destroyRing (idx : Fin 65536)
  | assignDevice (idx : Fin 65536)
  | unassignDevice (idx : Fin 65536)
  | selectConfig (idx : Fin 65536)
  | openEndpoint (idx : Fin 65536)
  | closeEndpoint (idx : Fin 65536)
  | normalise (idx : Fin 65536) (hid : ReqRes)
  | unbind (idx : Fin 65536)
  | sealDevice (idx : Fin 65536)
  | loadParams (idx : Fin 65536) (rd : ReadRes)
  | portCmd (idx : Fin 65536)
  | suspend (idx : Fin 65536)
  | resume (idx : Fin 65536)
  | deviceReset (idx : Fin 65536)
  | bindQueue (idx : Fin 65536)
  | commit (idx : Fin 65536)
  | meqCiWrite (val : Word)
  | mcqEnable (en : Bool)
  | meqEnable (en : Bool)
  | mgrRestart
  -- mailboxes, messages
  | tmbPost (inst : Fin 4096) (org : Origin) (len : Fin 32)
  | tmbFree (inst : Fin 4096) (org : Origin)
  | tmbDnLockAcquire (inst : Fin 4096) (org : Origin)
  | tmbDnLockRelease (inst : Fin 4096) (org : Origin)
  | vivelHello (inst : Fin 4096)
  | msgUnmask (inst : Fin 4096) (e : Fin 4)
  | msixUnmask (vec : Fin 64)
  | mbxPost (j : Fin 32) (master : Fin 20) (len : Fin 32)
  | mbxFree (j : Fin 32) (master : Fin 20)
  | mbxLockAcquire (j : Fin 32) (master : Fin 20)
  | mbxLockRelease (j : Fin 32) (master : Fin 20)
  -- Hollyhock and cores
  | itemDispatch
  | itemEnd (core : Fin 16)
  | watchdogExpiry (core : Fin 16)
  | coreReset (core : Fin 16)
  | coreReloadEnd (core : Fin 16) (poisoned : Bool)
  | allStoppedExpiry
  | delayTick (list : Fin 4)
  | deviceContextFetch (slot : Fin 8193)
  -- CIC
  | cicSourceAssert (src : Fin 512)
  | cicClaim (org : Origin) (c : Fin 16)
  | cicFclaim (org : Origin) (c : Fin 16)
  | cicComplete (org : Origin) (c : Fin 16) (src : Fin 512)
  | cicFcomplete (org : Origin) (c : Fin 16) (src : Fin 512)
  | cicSwi (org : Origin) (target : Fin 16)
  | cicPendClear (org : Origin) (src : Fin 512)
  -- boot, loader
  | powerOnResetEnd (compat testen : Bool)
  | vinFail (kept : List Bool)
  | perstAssert
  | perstDeassert
  | loaderWindowReady
  | ldrGo (val : Word)
  | ldqCopy (entry : List Word) (rd : ReadRes)
  | ldqGo (entry : List Word)
  | verificationEnd (ms : Fin 256) (sramErr : Bool)
  | managerReady (ms : Fin 65536)
  | fwFail (code : Fin 256) (ms : Fin 65536)
  | fwTimeout
  -- power domains
  | domainRequest (org : Origin) (dom : Fin 64) (st : Fin 4)
  | quiesceDrainEnd (dom : Fin 34)
  | drainTimeout (dom : Fin 34)
  | domainTransitionEnd (dom : Fin 34)
  | wakeLatch (src : WakeSrc)
  | d3hotEntry
  | d0Entry
  | railpgGood
  | railpgLoss
  -- Marigold, telemetry
  | marigoldUnitStart
  | wearMigrationEnd (j : Fin 1024) (badSpares : Fin 65)
  | telDue
  | telUnitEnd (samples : List Nat)
  | tlqCiWrite (val : Word)
  | scrubLineDue (mem : Fin 17)
  | scrubUnitEnd (mem : Fin 17) (corrected multi : Fin 9)
  | scrubPeriodEnd (mem : Fin 17)
  | calPeriodExpiry (region : Fin 8)
  | calStepEnd (port : Fin 128) (atEnd : Bool)
  | calDeferExpiry (port : Fin 128)
  | fullCalibrationEnd (region : Fin 8)
  | tbMfRead (org : Origin)
  -- SMBus
  | smbPtr (write : Option Word) (pecOk : Option Bool)
  | smbData (write : Option Word) (pecOk : Option Bool)
  | smbBurst
  | smbSummary
  | smbTimeout
  | alertResponse
  -- resets
  | functionReset
  | regionReset (region : Fin 8)
  | portUnitReset (port : Fin 128)
  -- test access port
  | extest
  | idcode
  | samplePreload (balls : List Bool)
  | clamp
  | highz
  | bypass
  | tapReset
  -- faults, sources, reads
  | cellFault (page : Fin 8192) (err : CellErr) (detail : Fin 65536) (addr : Nat)
  | cicSourceRelease (src : Fin 512)
  | pcieReceiveError (err : PcieErr)
  | registerRead (org : Origin) (off : Fin 67108864)
  deriving DecidableEq, Repr

end Sys2Proof
end

