-- ==== Sys2Proof/Machine/Crypto.lean ====
section
/-! DEFINITION. SHA-384 and ECDSA P-384, the standards that R481 names for the signatures of a Guerit image. Their constants and
equations come from FIPS 180-4 and FIPS 186-4, which the spec refers to and does not repeat (PRESUMED, log 36). -/

namespace Sys2Proof.Machine

/-! ## SHA-384 -/

/-- A word of SHA-384. -/
abbrev W64 := BitVec 64

/-- The number spelt by bytes, big-endian. -/
def beNat (bs : List Byte) : Nat := bs.foldl (fun a b => a * 256 + b.toNat) 0

/-- `n` bytes of a number, big-endian. -/
def beBytes : Nat → Nat → List Byte
  | 0, _ => []
  | n + 1, v => BitVec.ofNat 8 (v / 256 ^ n) :: beBytes n v

/-- The `n` words that a number spells, the first in its highest bits. -/
def wordsOf (n v : Nat) : List W64 := (List.range n).map fun i => BitVec.ofNat 64 (v / 2 ^ (64 * (n - 1 - i)))

/-- The 80 round constants, five to a row. -/
def shaK : List W64 := [
  0x428a2f98d728ae227137449123ef65cdb5c0fbcfec4d3b2fe9b5dba58189dbbc3956c25bf348b538,
  0x59f111f1b605d019923f82a4af194f9bab1c5ed5da6d8118d807aa98a303024212835b0145706fbe,
  0x243185be4ee4b28c550c7dc3d5ffb4e272be5d74f27b896f80deb1fe3b1696b19bdc06a725c71235,
  0xc19bf174cf692694e49b69c19ef14ad2efbe4786384f25e30fc19dc68b8cd5b5240ca1cc77ac9c65,
  0x2de92c6f592b02754a7484aa6ea6e4835cb0a9dcbd41fbd476f988da831153b5983e5152ee66dfab,
  0xa831c66d2db43210b00327c898fb213fbf597fc7beef0ee4c6e00bf33da88fc2d5a79147930aa725,
  0x06ca6351e003826f142929670a0e6e7027b70a8546d22ffc2e1b21385c26c9264d2c6dfc5ac42aed,
  0x53380d139d95b3df650a73548baf63de766a0abb3c77b2a881c2c92e47edaee692722c851482353b,
  0xa2bfe8a14cf10364a81a664bbc423001c24b8b70d0f89791c76c51a30654be30d192e819d6ef5218,
  0xd69906245565a910f40e35855771202a106aa07032bbd1b819a4c116b8d2d0c81e376c085141ab53,
  0x2748774cdf8eeb9934b0bcb5e19b48a8391c0cb3c5c95a634ed8aa4ae3418acb5b9cca4f7763e373,
  0x682e6ff3d6b2b8a3748f82ee5defb2fc78a5636f43172f6084c87814a1f0ab728cc702081a6439ec,
  0x90befffa23631e28a4506cebde82bde9bef9a3f7b2c67915c67178f2e372532bca273eceea26619c,
  0xd186b8c721c0c207eada7dd6cde0eb1ef57d4f7fee6ed17806f067aa72176fba0a637dc5a2c898a6,
  0x113f9804bef90dae1b710b35131c471b28db77f523047d8432caab7b40c724933c9ebe0a15c9bebc,
  0x431d67c49c100d4c4cc5d4becb3e42b6597f299cfc657e2a5fcb6fab3ad6faec6c44198c4a475817].flatMap (wordsOf 5)

/-- The initial hash value, four words to a row. -/
def shaInit : List W64 := [
  0xcbbb9d5dc1059ed8629a292a367cd5079159015a3070dd17152fecd8f70e5939,
  0x67332667ffc00b318eb44a8768581511db0c2e0d64f98fa747b5481dbefa4fa4].flatMap (wordsOf 4)

/-- What a message is padded with to whole blocks of 128 bytes: a 1 bit, zeros, and its length in bits as 16 bytes. -/
def shaTail (len : Nat) : List Byte := 0x80 :: (List.replicate ((239 - len % 128) % 128) 0 ++ beBytes 16 (8 * len))

/-- A word shifted right by `k` (not at all where `k` is 0), combined with its rotations by `rs`. -/
def mixed (k : Nat) (rs : List Nat) (x : W64) : W64 :=
  rs.foldl (fun a r => a ^^^ x.rotateRight r) (if k = 0 then 0 else x >>> k)

/-- A block in progress: the sixteen schedule words from the round's own on, and the eight working variables. -/
structure ShaRun where
  win : List W64
  var : List W64
  deriving DecidableEq, Repr

/-- Working variable `i`. -/
def ShaRun.v (r : ShaRun) (i : Nat) : W64 := r.var.getD i 0

/-- What a round with constant `k` adds to the fourth variable. -/
def ShaRun.gain (r : ShaRun) (k : W64) : W64 :=
  [r.v 7, mixed 0 [14, 18, 41] (r.v 4), r.v 6 ^^^ (r.v 4 &&& (r.v 5 ^^^ r.v 6)), k, r.win.headD 0].foldl (· + ·) 0

/-- What it adds to that for the new first variable. -/
def ShaRun.more (r : ShaRun) : W64 := mixed 0 [28, 34, 39] (r.v 0) + ((r.v 0 &&& (r.v 1 ||| r.v 2)) ||| (r.v 1 &&& r.v 2))

/-- The schedule word that enters behind the sixteen. -/
def ShaRun.next (r : ShaRun) : W64 :=
  r.win.headD 0 + r.win.getD 9 0 + mixed 7 [1, 8] (r.win.getD 1 0) + mixed 6 [19, 61] (r.win.getD 14 0)

/-- One round. -/
def ShaRun.round (r : ShaRun) (k : W64) : ShaRun :=
  { win := r.win.tail ++ [r.next],
    var := (r.gain k + r.more) :: (r.var.take 3 ++ (r.v 3 + r.gain k) :: (r.var.drop 4).take 3) }

/-- The hash value after one block. -/
def shaBlock (h : List W64) (bs : List Byte) : List W64 :=
  List.zipWith (· + ·) h (shaK.foldl ShaRun.round { win := wordsOf 16 (beNat bs), var := h }).var

/-- The hash value after `n` blocks. -/
def shaBlocks : Nat → List W64 → List Byte → List W64
  | 0, h, _ => h
  | n + 1, h, bs => shaBlocks n (shaBlock h (bs.take 128)) (bs.drop 128)

/-- The SHA-384 digest of a message, 48 bytes. -/
def sha384 (bs : List Byte) : List Byte :=
  let all := bs ++ shaTail bs.length
  ((shaBlocks (all.length / 128) shaInit all).take 6).flatMap fun w => beBytes 8 w.toNat

/-! ## P-384 -/

/-- The field prime. -/
def p384 : Nat := 2 ^ 384 - 2 ^ 128 - 2 ^ 96 + 2 ^ 32 - 1
/-- The order of the base point. -/
def n384 : Nat := 0xFFFFFFFFFFFFFFFFFFFFFFFFFFFFFFFFFFFFFFFFFFFFFFFFC7634D81F4372DDF581A0DB248B0A77AECEC196ACCC52973
/-- The curve's coefficient b; a is -3. -/
def b384 : Nat := 0xB3312FA7E23EE7E4988E056BE3F82D19181D9C6EFE8141120314088F5013875AC656398D8A2ED19D2A85C8EDD3EC2AEF
/-- The base point. -/
def g384 : Nat × Nat :=
  (0xAA87CA22BE8B05378EB1C71EF320AD746E1D3B628BA79B9859F741E082542A385502F25DBF55296C3A545E3872760AB7,
   0x3617DE4A96262C6F5D9E98BF9292DC29F8F41DBD289A147CE9DA3113B5F0B8C00A60B1CE1D7E819D7A431D7C90EA0E5F)

/-- `a` to the power `e` modulo `m`, over `k` bits of `e`. -/
def powMod (m a : Nat) : Nat → Nat → Nat
  | 0, _ => 1 % m
  | k + 1, e =>
    let r := powMod (m) (a * a % m) k (e / 2)
    if e % 2 = 1 then r * a % m else r

/-- The inverse modulo a prime of 384 bits. -/
def invMod (m a : Nat) : Nat := powMod m (a % m) 384 (m - 2)

/-- The sum of two points; `none` is the point at infinity. -/
def ecAdd : Option (Nat × Nat) → Option (Nat × Nat) → Option (Nat × Nat)
  | none, q => q
  | p, none => p
  | some (x1, y1), some (x2, y2) =>
    if x1 = x2 ∧ (y1 + y2) % p384 = 0 then none
    else
      let l := if x1 = x2 then (3 * x1 * x1 + (p384 - 3)) * invMod p384 (2 * y1) % p384
        else (y2 + p384 - y1) * invMod p384 (x2 + p384 - x1) % p384
      let x3 := (l * l + 2 * p384 - x1 - x2) % p384
      some (x3, (l * (x1 + p384 - x3) + p384 - y1) % p384)

/-- A multiple of a point, over `k` bits of the factor. -/
def ecMul (p : Option (Nat × Nat)) : Nat → Nat → Option (Nat × Nat)
  | 0, _ => none
  | k + 1, e =>
    let r := ecMul p k (e / 2)
    let d := ecAdd r r
    if e % 2 = 1 then ecAdd d p else d

/-- Whether a point lies on the curve. -/
def onCurve (q : Nat × Nat) : Bool :=
  decide (q.1 < p384) && decide (q.2 < p384) &&
    (q.2 * q.2 % p384 == (q.1 * q.1 * q.1 + (p384 - 3) * q.1 + b384) % p384)

/-- Whether (r, s) is an ECDSA signature of a digest under the public key `q`. -/
def ecdsaOk (q : Nat × Nat) (digest : List Byte) (r s : Nat) : Bool :=
  if !onCurve q || decide (r = 0) || decide (n384 ≤ r) || decide (s = 0) || decide (n384 ≤ s) then false
  else
    let w := invMod n384 s
    match ecAdd (ecMul (some g384) 384 (beNat digest * w % n384)) (ecMul (some q) 384 (r * w % n384)) with
    | some (x, _) => x % n384 == r
    | none => false

end Sys2Proof.Machine
end

