-- ==== Sys2Proof/Config.lean ====
section
/-! DEFINITION. What the spec leaves open, as constants without a body: no proof can see their values. -/

namespace Sys2Proof.Config

/-- A byte of the image area that nothing has written since its contents last became not defined (R474); `epoch`
counts those occasions. -/
opaque freeByte (epoch addr : Nat) : Byte

/-- The character or code point that keymap `map` gives the key with a HID usage under a modifier byte; 0: none
(R344, R345, R361 name the keymaps; the spec holds no table of them). -/
opaque keyChar (map : Nat) (usage mods : Byte) : Nat

/-- Whether the part is a WLF128-C; otherwise it is a WLF128-I (R1). -/
opaque commercial : Bool

/-- The `n`th free dword drawn. -/
opaque freeWord (n : Nat) : Word

/-- The Welotte public key held in the boot sequencer (R481): its two coordinates on P-384. The spec gives no value. -/
opaque welotteKey : Nat × Nat

end Sys2Proof.Config
end

