-- ==== Sys2Proof/Machine/FMap.lean ====
section
/-! DEFINITION. The one sparse table every indexed piece of state is held in: a list of (key, value) pairs, keys
strictly rising, no pair equal to what an unlisted key reads as. Equal tables are equal lists. -/

namespace Sys2Proof.Machine

/-- A sparse table from numbers (ports, slots, instances, register offsets, ...) to values. -/
abbrev FMap (α : Type) := List (Nat × α)

namespace FMap

/-- The value at key `k`; an unlisted key reads as `d`. -/
def get {α : Type} (d : α) (k : Nat) : FMap α → α
  | [] => d
  | (j, v) :: r => if j = k then v else get d k r

/-- The table without key `k`. -/
def del {α : Type} (k : Nat) : FMap α → FMap α
  | [] => []
  | (j, v) :: r => if j = k then del k r else (j, v) :: del k r

/-- The pair `(k, v)` placed before the first larger key. -/
def ins {α : Type} (k : Nat) (v : α) : FMap α → FMap α
  | [] => [(k, v)]
  | (j, w) :: r => if k < j then (k, v) :: (j, w) :: r else (j, w) :: ins k v r

/-- The table with `v` at key `k`; writing the value of an unlisted key removes the pair. -/
def put {α : Type} [DecidableEq α] (d : α) (k : Nat) (v : α) (m : FMap α) : FMap α :=
  if v = d then del k m else ins k v (del k m)

/-- The table with the value at `k` changed by `f`. -/
def upd {α : Type} [DecidableEq α] (d : α) (k : Nat) (f : α → α) (m : FMap α) : FMap α :=
  put d k (f (get d k m)) m

/-- The canonical form: keys strictly rising, no pair equal to what its key reads as unlisted. -/
def canon {α : Type} [DecidableEq α] (d : Nat → α) : FMap α → Bool
  | [] => true
  | (k, v) :: r => decide (v ≠ d k) && r.all (fun p => decide (k < p.1)) && canon d r

/-- Keys strictly rising. -/
def rising {α : Type} : FMap α → Bool
  | [] => true
  | (k, _) :: r => r.all (fun p => decide (k < p.1)) && rising r

/-- Writes of a run of consecutive keys, lowest first. -/
def putAll {α : Type} [DecidableEq α] (d : α) (k : Nat) : List α → FMap α → FMap α
  | [], m => m
  | v :: r, m => putAll d (k + 1) r (put d k v m)

end FMap

end Sys2Proof.Machine
end

