-- ==== Sys2Proof/Machine/Parts/Chip.lean ====
section
/-! DEFINITION. Plain data of the parts every block shares: event records, what leaves the chip, the NV store, the
boot loader, the power domains, Marigold, the SMBus target and the test access port. -/

namespace Sys2Proof.Machine

/-- An event record of R110 before it is laid out in dwords; `rw` is RWAKE_SEEN. -/
structure Ev where
  ty : Nat := 0
  rw : Bool := false
  lost : Bool := false
  mf : Nat := 0
  us : Nat := 0
  slot : Nat := 0
  port : Nat := 0
  epid : Nat := 0
  p : List Word := []
  deriving DecidableEq, Repr

/-- What a port's link cell puts on the bus. -/
inductive Bus where
  | sof (frame : Nat)
  | keepAlive
  | token (pid addr ep : Nat)
  | split (start : Bool) (hubAddr hubPort : Nat)
  | data (pid : Pid) (bytes : List Byte)
  | ack
  | idleItem
  | reset
  | chirpReply
  | resumeK
  | lsEop
  | pattern (sel : Nat)
  deriving DecidableEq, Repr

/-- AER severities as R567 reports them. -/
inductive Sev where
  | cor | nonFatal | fatal
  deriving DecidableEq, Repr

/-- AER errors of R567. -/
inductive Aer where
  | receiver | badTlp | badDllp | replayTimeout | replayRollover
  | correctedInternal | unsupportedRequest | poisonedTlp | completionTimeout | unexpectedCompletion
  | malformedTlp | uncorrectableInternal
  deriving DecidableEq, Repr

/-- The PASID TLP prefix of a request issued for an instance (R203): its PASID, Privileged Mode Requested and Execute
Requested, which are always 0. -/
structure Pfx where
  inst : Nat
  pasid : Nat
  pmr : Bool := false
  er : Bool := false
  deriving DecidableEq, Repr

/-- What leaves the chip. The latest stands first in `Sys.out`. -/
inductive Out where
  /-- A read completion (R11). -/
  | cpl (org : Origin) (off : Nat) (val : Word)
  /-- Unsupported Request to a window, TERR to a core (R48, R418). -/
  | ur (org : Origin) (off : Nat) (isRead : Bool)
  /-- A memory write, one TLP, with its PASID prefix. -/
  | mem (pfx : Option Pfx) (ro poison : Bool) (addr : Nat) (bytes : List Byte)
  /-- A message of an instance: a 4-byte write that carries its PASID (R409). -/
  | msg (pfx : Pfx) (addr : Nat) (data : Word)
  /-- A memory read, one TLP; `len = 0` is the zero-length flushing read (R118). -/
  | rd (pfx : Option Pfx) (addr len : Nat)
  /-- A manager MSI-X message (R372). -/
  | msix (vec : Nat)
  /-- A PM_PME message (R517). -/
  | pme
  | aer (e : Aer) (sev : Sev)
  | bus (port : Nat) (b : Bus)
  /-- Bytes the SMBus target returns (R550). -/
  | smb (bytes : List Byte)
  | smbNak
  /-- The register the test access port selects (R589), as its bits with cell 0 first. -/
  | tdo (bits : List Bool)
  deriving DecidableEq, Repr

/-- A held or buffered NV write; `once`: it is durable when it is accepted, as R76 judged it where it arrived (a migration holds
it). -/
structure NvW where
  reg : Nat
  val : Word
  once : Bool := false
  deriving DecidableEq, Repr

/-- The persistent register store (R73-R79, R534-R537): durable values (`0` unlisted; register 284 ships as 0x6A and
is kept as an offset of it in `Nvs`), COUNT, spare in use plus one, the cells' THRESHOLD flags, spares taken so far,
migrations ended, the accepted writes not yet durable, the held writes, and the registers whose migration has been requested
and has not ended (R534, R535). -/
structure NvStore where
  val : FMap Word := []
  cnt : FMap Nat := []
  spare : FMap Nat := []
  warned : FMap Bool := []
  taken : Nat := 0
  migrated : Nat := 0
  bufs : List NvW := []
  held : List NvW := []
  want : List Nat := []
  deriving DecidableEq, Repr

/-- Boot phases (R470). -/
inductive Phase where
  | notReady | loading | verifying | starting | ready
  deriving DecidableEq, Repr

/-- The loader (R470-R495). `hash` is the owner key hash in force at the last LDR_GO; `go` is the unfinished LDQ GO
entry's index. -/
structure Loader where
  phase : Phase := .notReady
  result : Nat := 0
  ownerChecked : Bool := false
  ownerLock : Bool := false
  fwCode : Nat := 0
  image : Word := 0
  build : Word := 0
  verifyMs : Nat := 0
  startMs : Nat := 0
  hash : List Word := []
  go : Bool := false
  acceptedAt : Nat := 0
  deriving DecidableEq, Repr

/-- The shared SRAM (R416, R419): cells with strictly rising offsets. `zero`: unlisted bytes read 0 (after
acceptance, R484), and no cell holds 0; otherwise they are not defined (R474), and `epoch` says since when. -/
structure Sram where
  cells : List (Nat × Byte) := []
  zero : Bool := false
  epoch : Nat := 0
  /-- Offsets of poisoned 64-bit words, divided by 8 (R420). -/
  poison : List Nat := []
  deriving DecidableEq, Repr

/-- Power-domain states (R502). -/
inductive DomSt where
  | off | ret | on
  deriving DecidableEq, Repr

/-- A domain's transition in progress (R508): waiting for children to go down or a parent to come up, QUIESCE,
COMMIT, or exit. -/
inductive Trans where
  | none
  | waitChild (t : DomSt)
  | quiesce (t : DomSt)
  | commit (t : DomSt)
  | waitParent
  | exit
  deriving DecidableEq, Repr

/-- One power domain (R502-R517). `wake` is a wake held under R515. -/
structure Dom where
  st : DomSt := .off
  trans : Trans := .none
  target : Option (DomSt × Nat) := none
  byWake : Bool := false
  wake : Bool := false
  src : Nat := 0
  reqs : Nat := 0
  wakes : Nat := 0
  refused : Nat := 0
  aborted : Nat := 0
  refuser : Word := 0
  rsn : Word := 0
  deriving DecidableEq, Repr

/-- One maintenance unit (R524): WEAR of a register, a CAL step on a port, a SCRUB line of a memory, a TEL sample with
its due millisecond and the thresholds in force then (R540: LIM, CRIT and CTL registers). -/
inductive MUnit where
  | wear (reg : Nat)
  | cal (port : Nat)
  | scrub (mem line : Nat)
  | tel (dueMs : Nat) (lim crit : List Word) (ctl : Word)
  deriving DecidableEq, Repr

/-- A waiting unit and since when it waits, in microseconds; `counted`: it has counted in CAL_DEFER. -/
structure MWait where
  u : MUnit
  since : Nat
  counted : Bool := false
  deriving DecidableEq, Repr

/-- A TLQ record: KIND, SEQ, WINDOW, MF, SAMPLES and the body bytes from offset 16 (R547, R548). -/
structure TlRec where
  kind : Nat
  seq : Nat
  win : Nat
  mf : Nat
  samples : Nat
  body : List Byte
  deriving DecidableEq, Repr

/-- The activity counts of a telemetry window (R548). -/
structure TelCnt where
  scrubLines : Nat := 0
  scrubCorr : Nat := 0
  scrubUnc : Nat := 0
  calSteps : Nat := 0
  calDefer : Nat := 0
  nvWrites : Nat := 0
  migrs : Nat := 0
  deriving DecidableEq, Repr

/-- Marigold and the monitors (R524-R557). `cond` lists the conditions entered: 3m above HIGH, 3m + 1 below LOW,
3m + 2 above CRIT. -/
structure Mari where
  wait : List MWait := []
  run : List MUnit := []
  /-- The next line of each memory's pass; a pass that has ended within its period; a pass that outlasted its period. -/
  scrubLine : FMap Nat := []
  scrubDone : FMap Bool := []
  scrubLate : FMap Bool := []
  /-- The sample plus one of temperature monitor n at region n's last pass. -/
  calLast : FMap Nat := []
  /-- Steps left of a port's tracking pass. -/
  calLeft : FMap Nat := []
  /-- Regions whose full calibration has not ended since PHYn left OFF (R531). -/
  uncal : FMap Bool := []
  /-- The next due millisecond. -/
  telNext : Nat := 1
  sample : FMap Nat := []
  /-- The last temperatures that the thermal trip's comparators saw (R542, R560). -/
  temps : List Nat := []
  valid : FMap Bool := []
  cond : FMap Bool := []
  tripped : Bool := false
  everTrip : Bool := false
  /-- The open window, its start and length in milliseconds, its samples, and each monitor's extremes, sum and count. -/
  win : Nat := 0
  winStart : Nat := 0
  winLen : Nat := 1000
  nSamples : Nat := 0
  mins : FMap Int := []
  maxs : FMap Int := []
  sums : FMap Int := []
  cnts : FMap Nat := []
  cnt : TelCnt := {}
  /-- Counts and free spares as they stood at the end of the window that is being closed, and the next window's length. -/
  snap : Option (TelCnt × Nat × Nat) := none
  everUnc : Bool := false
  seq : Nat := 0
  lostPend : Bool := false
  tlq : List TlRec := []
  deriving DecidableEq, Repr

/-- A Block Read of `n` dwords that stretches SCL (R551): the dwords read so far, and the NV register whose next `left` writes it
waits for; `waited`: the present dword has had its wait. -/
structure SmbRun where
  n : Nat
  got : List Word := []
  reg : Nat := 0
  left : Nat := 0
  waited : Bool := false
  deriving DecidableEq, Repr

/-- The SMBus target (R549-R553). -/
structure Smb where
  ptr : Nat := 0x00A00000
  alert : Bool := false
  run : Option SmbRun := none
  deriving DecidableEq, Repr

/-- Instructions of the test access port (R589). -/
inductive JIns where
  | extest | idcode | sample | clamp | highz | bypass
  deriving DecidableEq, Repr

/-- The test access port: instruction register, boundary register (422 cells, cell 0 first), bypass bit, and whether a
boundary test has the port regions powered (R589-R591). -/
structure Jtag where
  ir : JIns := .idcode
  bound : List Bool := []
  bypass : Bool := false
  test : Bool := false
  acting : Bool := false
  deriving DecidableEq, Repr

/-- The pins Snowdrop reads and drives, and the function's host-visible mode bits. -/
structure Pins where
  /-- The COMPAT pin as sampled at power-on reset (R472). -/
  compat : Bool := false
  perst : Bool := true
  railen : Bool := false
  railpg : Bool := false
  needPerst : Bool := false
  d3hot : Bool := false
  pasidEn : Bool := false
  pmeEn : Bool := false
  pmeStatus : Bool := false
  /-- Enable Relaxed Ordering (R205). -/
  roEn : Bool := true
  /-- Device Control: Max_Payload_Size and Max_Read_Request_Size in PCIe encoding, Extended Tag Field Enable (R202). -/
  mps : Nat := 0
  mrrs : Nat := 2
  extTag : Bool := false
  aerCor : Nat := 0
  aerUnc : Nat := 0
  /-- The bases in the base address registers 0, 2 and 4, each with the one above it (R46). -/
  bar0 : Nat := 0
  bar2 : Nat := 0
  bar4 : Nat := 0
  deriving DecidableEq, Repr

/-- The first quarantine or chip fault (R563), the quarantined regions and the resets in progress (R571). -/
structure Contain where
  valid : Bool := false
  code : Nat := 0
  region : Nat := 0
  chip : Bool := false
  detail : Nat := 0
  blkId : Word := 0
  mf : Nat := 0
  quar : FMap Bool := []
  halted : FMap Bool := []
  chipFault : Bool := false
  resetting : FMap Bool := []
  deriving DecidableEq, Repr

end Sys2Proof.Machine
end

