-- ==== Sys2Proof/Machine/Parts/Rings.lean ====
section
/-! DEFINITION. Plain data of the rings, transfers, instances, mailboxes and manager queues (R86-R138, R363-R415). -/

namespace Sys2Proof.Machine

/-- Ring states (R128). -/
inductive RingSt where
  | none | disabled | running | stopping | halted | paused | orphaned
  deriving DecidableEq, Repr

/-- A taken entry (R102): index, its eight dwords as read, and whether it has been dispatched. -/
structure Taken where
  idx : Nat
  dws : List Word
  disp : Bool := false
  /-- Its place in the order in which the ring's entries were taken. -/
  seq : Nat := 0
  /-- The status with which the entry completes at its dispatch: NOT_ASSIGNED where its endpoint was not open when it was
  taken or has closed since (R94, R389), BW_REFUSED where its periodic entry has left (R179); 0: none. -/
  refuse : Nat := 0
  deriving DecidableEq, Repr

/-- A completion record waiting for its ring entry (R106), with the transfer's writebacks still to issue. -/
structure CRec where
  xid : Nat
  status : Nat
  sring : Nat
  entry : Nat
  slot : Nat
  epid : Nat
  bytes : Nat
  mf : Nat
  us : Nat
  ioc : Bool
  entries : List (Nat × Word)
  inst : Nat
  own : Bool
  seq : Nat
  /-- Its place in the order in which transfers finished (R120, R125). -/
  fseq : Nat
  deriving DecidableEq, Repr

/-- One ring context (R90) with the ring unit's working state. -/
structure Ring where
  st : RingSt := .none
  log2 : Nat := 4
  base : Nat := 0
  head : Nat := 0
  fetch : Nat := 0
  wpos : Nat := 0
  slot : Nat := 0
  cmp : Nat := 0
  msg : Nat := 0
  msgEn : Bool := false
  mod : Nat := 0
  replayEnd : Nat := 0
  replay : Bool := false
  /-- Entries of the replay span still to read (R134). -/
  replayLeft : Nat := 0
  nextSpill : Nat := 0
  nextDeliver : Nat := 0
  taken : List Taken := []
  nseq : Nat := 0
  /-- The first entry, in ring order, that was taken and then discarded since the last ENABLE (R132). -/
  disc : Option Nat := none
  /-- STOPPING ends in HALTED (R95). -/
  toHalt : Bool := false
  /-- An entry read with OWN = 0 has stopped fetching (R102). -/
  stopped : Bool := false
  enableRec : Bool := false
  /-- An entry finished other than OK or SHORT since the points of R122. -/
  bad : Bool := false
  /-- Entries known free from WPOS on (R612). -/
  known : Nat := 0
  scanning : Bool := false
  waiting : List CRec := []
  modRun : Bool := false
  modDue : Bool := false
  /-- The next completion record carries RWAKE_SEEN (R313). -/
  rwSeen : Bool := false
  /-- The ring is to be destroyed when its last begun transfer has finished (R613). -/
  destroying : Bool := false
  /-- RNG_VIEW_CTL.DISABLE reads 1 until the ring has left STOPPING (R138). -/
  viewDis : Bool := false
  deriving DecidableEq, Repr

/-- Stages of a control transfer; the others are always in `data`. -/
inductive Stage where
  | setup | data | status
  deriving DecidableEq, Repr

/-- Split progress (R298-R306): not begun, start-split accepted and complete-splits due from a microframe index. -/
structure SplitSt where
  pending : Bool := false
  /-- The words of RX space that a begun IN split holds, with one packet-list entry; 0: none (R303). -/
  rsv : Nat := 0
  due : Nat := 0
  cmask : Nat := 0
  piece : Nat := 0
  /-- Bytes of the pieces that have come back with MDATA (R304). -/
  acc : List Byte := []
  deriving DecidableEq, Repr

/-- The device of a control transfer that the chip issues (R145): address, speed, hub above it, its position, and endpoint
0's maximum packet size, toggle and PING state; `own`: who issued it, as `CReq` has it; `free`: no command reports its end. -/
structure CDev where
  addr : Nat := 0
  speed : Speed := .none
  hub : Nat := 0
  hubPort : Nat := 0
  tier : Nat := 0
  mps : Nat := 8
  tog : Bool := false
  ping : Bool := false
  own : Nat := 0
  free : Bool := false
  tries : Nat := 0
  deriving DecidableEq, Repr

/-- A doorbell (R101). -/
inductive DbOp where
  | wake | enable | disable
  | clearHalt (e : Nat)
  | returned
  deriving DecidableEq, Repr

/-- One dispatched transfer. `inst = none` for the chip's own (hub status and normalised endpoints keep their
instance). -/
structure Xfer where
  id : Nat := 0
  inst : Option Nat := none
  ring : Nat := 0
  seq : Nat := 0
  /-- The bound completion ring, kept on chip (R91). -/
  cmp : Nat := 0
  first : Nat := 0
  last : Nat := 0
  entries : List (Nat × Word) := []
  port : Nat := 0
  slot : Nat := 0
  epid : Nat := 0
  /-- The descriptor TYPE (R92): 1 bulk or interrupt, 2 control, 3 isochronous, 4 no data. -/
  ty : Nat := 1
  segs : List (Nat × Nat) := []
  total : Nat := 0
  ioc : Bool := false
  zlp : Bool := false
  setup : List Byte := []
  startMf : Nat := 0
  asap : Bool := false
  dispMf : Nat := 0
  own : Bool := true
  held : Bool := false
  begun : Bool := false
  stage : Stage := .data
  filled : Nat := 0
  zlpDone : Bool := false
  moved : Nat := 0
  recvd : Nat := 0
  drained : Nat := 0
  strikes : Nat := 0
  cut : Option Nat := none
  readFail : Bool := false
  poison : Bool := false
  overrun : Bool := false
  short : Bool := false
  rxDone : Bool := false
  split : SplitSt := {}
  /-- Finished: its status waits for the last payload write, the flushing read or the record (R117). -/
  fin : Option Nat := none
  finMf : Nat := 0
  finUs : Nat := 0
  /-- Its place in the order in which transfers finished (R120). -/
  fseq : Nat := 0
  lastAddr : Nat := 0
  wrote : Bool := false
  flush : Nat := 0
  silent : Bool := false
  /-- Normalised or hub-status endpoint: a transfer is always dispatched (R294, R330); `total` is then its MPS. -/
  always : Bool := false
  rsv : Nat := 0
  /-- A control transfer that the chip issues, its device, and the bytes of its OUT data stage (R145, R189). -/
  chip : Option CDev := none
  chipData : List Byte := []
  deriving DecidableEq, Repr

/-- A mailbox channel (R394, R458). -/
structure Chan where
  go : Bool := false
  revoked : Bool := false
  len : Nat := 0
  sender : Nat := 0
  data : FMap Word := []
  /-- Its event is raised again once MEQ is enabled (R398). -/
  again : Bool := false
  deriving DecidableEq, Repr

/-- A message-store entry (R408). -/
structure MsgEnt where
  lo : Word := 0
  hi : Word := 0
  data : Word := 0
  mask : Bool := true
  pend : Bool := false
  sent : Nat := 0
  deriving DecidableEq, Repr

/-- Instance states (R363). -/
inductive InstSt where
  | free | created | running | resetting | destroying
  deriving DecidableEq, Repr

/-- One instance with its mailbox and message store. -/
structure Inst where
  st : InstSt := .free
  pasid : Nat := 0
  pool : Bool := false
  cls : Nat := 0
  maxSub : Nat := 0
  maxCmp : Nat := 0
  vivMaxMaj : Nat := 0
  vivMaxMin : Nat := 0
  vivMaj : Nat := 0
  vivMin : Nat := 0
  ownUsed : Nat := 0
  sharedUsed : Nat := 0
  exhausted : Bool := false
  /-- Which end of exhaustion, chip-wide, was its own last (R126). -/
  exhEnd : Nat := 0
  lostPend : Bool := false
  evLost : Bool := false
  msgs : FMap MsgEnt := []
  up : Chan := {}
  dn : Chan := {}
  lock : Nat := 0
  vec : Nat := 0
  agent : Bool := false
  /-- A flushing read is outstanding (R118). -/
  flushing : Bool := false
  deriving DecidableEq, Repr

/-- An event waiting to be delivered to an instance's event ring (R113), or held in SPQ with its sequence number. -/
structure Spill where
  inst : Nat
  seq : Nat
  ev : Ev
  /-- Its instance has been reset or destroyed since (R380). -/
  dead : Bool := false
  deriving DecidableEq, Repr

/-- What a Decust command in progress waits for: its start, a commit that runs, its own commit, the bursts of an instance,
a power grant of a port, a request to a slot's device, RESUME_DONE or the suspension of a port, the re-presentation of a
slot, the last transfer of a ring, the end of a request to a hub for one of its ports, or the VBUS of a root port. -/
inductive CWait where
  | taken
  | commitFree
  | commitDone
  | bursts (inst : Nat)
  | grant (port : Nat)
  | request (slot : Nat)
  | resumed (port tier : Nat)
  | suspended (port tier : Nat)
  | represent (slot : Nat)
  | ringDone (inst ring : Nat)
  | portReq (port tier : Nat)
  | powered (port : Nat)
  deriving DecidableEq, Repr

/-- A Decust command in progress (R369): its place in the order of taking, MCQ index, entry as copied on chip, what it waits
for, the result dwords gathered so far, and the failures of its request. -/
structure DCmd where
  seq : Nat := 0
  idx : Nat
  dws : List Word
  wait : CWait := .taken
  res : List Word := []
  tries : Nat := 0
  deriving DecidableEq, Repr

/-- An entry waiting for MEQ: an event, or a response with its eight dwords (R367). -/
inductive MEnt where
  | event (ev : Ev) (vec : Option Nat)
  | resp (dws : List Word)
  deriving DecidableEq, Repr

/-- The Decust unit: version agreed, commands in progress in the order of taking, on-chip lists (R366-R373, R400); `again`:
the events of posted UP messages are owed at the next MEQ enable (R398). -/
structure Decust where
  maj : Nat := 0
  min : Nat := 0
  nseq : Nat := 0
  again : Bool := false
  cmds : List DCmd := []
  events : List MEnt := []
  resps : List MEnt := []
  lost : Bool := false
  restart : Bool := false
  deriving DecidableEq, Repr

/-- A captured staged register: shadow offset in the manager window, value, ports that have not applied it (R83). -/
structure CapReg where
  off : Nat
  val : Word
  left : List Nat
  deriving DecidableEq, Repr

end Sys2Proof.Machine
end

