-- ==== Sys2Proof/Machine/Parts/Usb.lean ====
section
/-! DEFINITION. Plain data of the USB side: the frame engine and periodic tables (R139-R185), DMA channels
(R186-R218), staging FIFOs (R219-R244), root ports, power, enumeration, hubs and device slots (R245-R321). -/

namespace Sys2Proof.Machine

/-- Pace states (R29). -/
inductive PaceSt where
  | normal | shed | stopped
  deriving DecidableEq, Repr

/-- A region's pace (R29, R185): last PACE, PACE_EFF and state, with the previous boundary's, which a period that begins
at the last boundary uses (R150, R173). -/
structure RegPace where
  pace : Nat := 0
  eff : Nat := 0
  st : PaceSt := .normal
  prevEff : Nat := 1
  prevSt : PaceSt := .normal
  at_ : Nat := 0
  deriving DecidableEq, Repr

/-- The TT reservation of a split periodic entry (R300, R301): TT hub slot, TT number, Pf, phase and TT_END. -/
structure TtRes where
  hub : Nat := 0
  tt : Nat := 0
  pf : Nat := 1
  phi : Nat := 0
  ttEnd : Nat := 0
  deriving DecidableEq, Repr

/-- A periodic table entry (R158). -/
structure PtEnt where
  valid : Bool := false
  kind : Nat := 0
  dirIn : Bool := false
  mult : Nat := 1
  plog2 : Nat := 0
  phase : Nat := 0
  slot : Nat := 0
  epid : Nat := 0
  smask : Nat := 0
  charge : Nat := 0
  mps : Nat := 0
  cmask : Nat := 0
  inst : Nat := 0
  chip : Bool := false
  tt : Option TtRes := none
  /-- Of an entry that has left: the transfers that finish under it (R179). -/
  xs : List Nat := []
  deriving DecidableEq, Repr

/-- Whether an entry is served by split transactions (R298, R301): it holds a place in a TT's ledger. The chip's entry of a
full-speed hub behind a TT is one though its KIND reads 0 (R294). -/
def PtEnt.split (e : PtEnt) : Bool := decide (2 ≤ e.kind) || e.tt.isSome

/-- Both copies of a port's periodic table (R157); the entries that have left while a begun transfer finishes under them
(R179); and the endpoints whose entries leave both copies at the port's next period start (R389). -/
structure PTab where
  act : FMap PtEnt := []
  sh : FMap PtEnt := []
  old : FMap PtEnt := []
  leave : List (Nat × Nat) := []
  deriving DecidableEq, Repr

/-- What a transaction on the wire belongs to: step 2, 4 or 3 of R145. -/
inductive TxKind where
  | periodic | service | chip
  deriving DecidableEq, Repr

/-- The form of a transaction on the wire. -/
inductive TxForm where
  | in_ | out | ping | setup | statusIn | statusOut | ssplit | csplit
  deriving DecidableEq, Repr

/-- The transaction on the wire (R144): transfer, form, TX packet number, transactions of the opportunity left, the
queue or priority level that was charged. -/
structure CurTx where
  xid : Nat := 0
  kind : TxKind := .service
  form : TxForm := .in_
  pkt : Nat := 0
  left : Nat := 0
  /-- Transactions of the whole opportunity. -/
  cnt : Nat := 1
  inDone : Bool := false
  babble : Bool := false
  /-- Of a high-speed isochronous IN opportunity: one more than the number of the data PID that the transaction must bring, none at
  its first, and that of the packet it has brought (R235). -/
  exp : Option Nat := none
  got : Nat := 0
  deriving DecidableEq, Repr

/-- A port's frame state (R139-R145, R167-R170). -/
structure PFrame where
  sof : Bool := false
  /-- The time of the last (micro)frame start plus one. -/
  at_ : Nat := 0
  n : Nat := 0
  mf : Nat := 0
  x : Nat := 0
  prep : Nat := 0
  pace : PaceSt := .normal
  speed : Speed := .none
  due : List Nat := []
  csp : List Nat := []
  cur : Option CurTx := none
  per : Nat := 0
  lastEnd : Nat := 0
  lastPer : Nat := 0
  skipped : Bool := false
  naked : List Nat := []
  ended : Bool := false
  searching : Bool := false
  tried : List Nat := []
  ptr : Nat := 0
  visit : Nat := 0
  visiting : Bool := false
  lvlEp : FMap Nat := []
  cspOrder : List Nat := []
  /-- Endpoint keys whose class-D refusal this (micro)frame has counted. -/
  noD : List Nat := []
  /-- Ends of exhaustion so far at the last (micro)frame start (R126). -/
  rel : Nat := 0
  deriving DecidableEq, Repr

/-- TX packet states (R227). -/
inductive TxSt where
  | filling | ready | sending | done | dropped
  deriving DecidableEq, Repr

/-- A TX packet (R226). `num` is its place in the order of creation; its list entry is `num mod 64`. -/
structure TxPkt where
  num : Nat := 0
  slot : Nat := 0
  epid : Nat := 0
  xid : Nat := 0
  pos : Nat := 0
  start : Nat := 0
  len : Nat := 0
  data : List Byte := []
  setup : Bool := false
  last : Bool := false
  /-- Words whose parity fails, counted from the packet's first (R220, R234). -/
  bad : List Nat := []
  stuff0 : Nat := 0
  stuff1 : Nat := 0
  st : TxSt := .filling
  deriving DecidableEq, Repr

/-- RX packet states (R244). -/
inductive RxSt where
  | committed | draining | done
  deriving DecidableEq, Repr

/-- An RX packet (R235) with the transfer for which it was received and the FRAME_STAMP of its transaction. -/
structure RxPkt where
  num : Nat := 0
  slot : Nat := 0
  epid : Nat := 0
  xid : Nat := 0
  start : Nat := 0
  data : List Byte := []
  pid : Nat := 0
  /-- Words whose parity fails, counted from the packet's first (R220, R238). -/
  bad : List Nat := []
  /-- A word of it has been delivered with the poison tag. -/
  told : Bool := false
  st : RxSt := .committed
  drained : Nat := 0
  endsXfer : Bool := false
  mf : Nat := 0
  us : Nat := 0
  /-- Granules of the report pool that its bytes go to (R190, R419). -/
  grans : List Nat := []
  deriving DecidableEq, Repr

/-- A port's staging FIFO pair (R219-R244). Positions count words modulo 2,048. -/
structure Fifo where
  tx : List TxPkt := []
  rx : List RxPkt := []
  txNum : Nat := 0
  rxNum : Nat := 0
  txWp : Nat := 0
  txRlp : Nat := 0
  rxWp : Nat := 0
  rxRlp : Nat := 0
  /-- RP of both FIFOs, the consumer's next word, and the TX FIFO's mark (R222, R228). -/
  txRp : Nat := 0
  rxRp : Nat := 0
  mark : Nat := 0
  /-- Words in the skid chains (R219, R221). -/
  txSkid : Nat := 0
  rxSkid : Nat := 0
  gate : Bool := false
  urgent : Bool := false
  /-- The age of the packet at RLP, and that packet's number (R232). -/
  age : Nat := 0
  ageOf : Nat := 0
  rxRsvW : Nat := 0
  rxRsvE : Nat := 0
  deriving DecidableEq, Repr

/-- Channel states (R218). -/
inductive ChSt where
  | idle | active | preempted | retry | halted | waitDcq
  deriving DecidableEq, Repr

/-- What a host DMA channel of the groups FETCH, RECORD and QUEUE carries (R188): a descriptor read or entry scan of a ring,
a ring context read, an instance's flushing read, an MCQ entry read, or an image read. -/
inductive HUse where
  | none
  | desc (k : Nat)
  | scan (k : Nat)
  | ctx (k : Nat)
  | flush (i : Nat)
  | mcq
  | image
  | params
  deriving DecidableEq, Repr

/-- A DMA channel with its burst (R187, R218). `bst`: bytes of the transfer moved before this burst; `req`: bytes of the
burst asked for from the host; `buf`: bytes in the channel buffer that have not moved on, each with its poison (R195, R196);
`link`: the burst uses the host link. -/
structure Chan2 where
  st : ChSt := .idle
  kind : Nat := 0
  prio : Nat := 0
  aged : Bool := false
  retries : Nat := 0
  port : Nat := 0
  toHost : Bool := false
  inst : Option Nat := none
  xid : Nat := 0
  pkt : Nat := 0
  addr : Nat := 0
  laddr : Nat := 0
  len : Nat := 0
  bytes : Nat := 0
  total : Nat := 0
  tag : Nat := 0
  poison : Bool := false
  err : Word := 0
  setup : Bool := false
  slot : Nat := 0
  epid : Nat := 0
  use : HUse := .none
  bst : Nat := 0
  req : Nat := 0
  buf : List (Byte × Bool) := []
  link : Bool := true
  /-- Lengths of the burst's outstanding read requests, the first issued first (R196, R202, R209). -/
  outst : List Nat := []
  /-- The packet that a fill creates with its first byte, as sampled (R191, R226). -/
  tpl : TxPkt := {}
  /-- Bytes that a fill has without a host read (R189); or the records of a command endpoint as they have come (R337). -/
  data : List (Byte × Bool) := []
  /-- Granules of the report pool for a command endpoint's records (R337, R438). -/
  grans : List Nat := []
  deriving DecidableEq, Repr

/-- Root port states (R245). -/
inductive PortSt where
  | off | powered | debounce | queued | resetting | enabled | suspended | disabled | ocWait | ocLatched | test
  deriving DecidableEq, Repr

/-- Suspend states (R319). -/
inductive SuspSt where
  | active | suspending | suspended | resuming
  deriving DecidableEq, Repr

/-- A root port (R245-R287, R319). Reservations are in mA; `prof` is the profile in force (R248); `hold` is the held
suspend request (R314), `wakeRun` a remote wake's resume, `wakePend` the position plus one of a wake seen in RETENTION
(R315), or of one whose RWAKE has still to be sent (R313), `linePend` and `ocPend` the connect or disconnect and the fault seen there (R250, R516), `faultAt` the last tree fault plus
one (R316). -/
structure Port where
  st : PortSt := .off
  speed : Speed := .none
  conn : Bool := false
  slot : Nat := 0
  vbus : Bool := false
  hpwr : Bool := false
  pg : Bool := false
  prof : Word := 0
  res5 : Nat := 0
  resH : Nat := 0
  retry : Nat := 0
  run5 : Nat := 0
  runH : Nat := 0
  i5 : Nat := 0
  ih : Nat := 0
  susp : SuspSt := .active
  hold : Nat := 0
  rwEn : Bool := true
  rwSeen : Bool := false
  wakeRun : Bool := false
  wakePend : Nat := 0
  linePend : Nat := 0
  ocPend : Bool := false
  resMf : Nat := 0
  test : Nat := 0
  testClr : Bool := false
  step : Nat := 0
  attempt : Nat := 0
  slotWait : Bool := false
  cause : Nat := 0
  addr : Nat := 0
  config : Nat := 0
  faultAt : Nat := 0
  /-- When the last event changed the state, plus one, its rank, and what it found: the state, whether VBUSEN or HPWREN was high, and
  the runs of soft overcurrent (R247). -/
  evAt : Nat := 0
  evRank : Nat := 0
  evWas : PortSt := .off
  evPow : Bool := false
  evRun5 : Nat := 0
  evRunH : Nat := 0
  /-- The place of the device's debounce in the attach order (R264). -/
  attKey : Nat := 0
  /-- When the K of `wakePend` was qualified (R320). -/
  wakeMf : Nat := 0
  wakeUs : Nat := 0
  deriving DecidableEq, Repr

/-- Request kinds of the power ledger (R282). -/
inductive PwKind where
  | base | config | high
  deriving DecidableEq, Repr

/-- A pending power request (R259): port, increase in mA, kind, and the LIMIT and AVAIL with which it was denied. -/
structure PwReq where
  port : Nat
  amount : Nat
  kind : PwKind
  lim : Nat
  avail : Nat
  deriving DecidableEq, Repr

/-- The power ledger's pending lists by rail (0: 5 V, 1: 12 V, 2: 24 V), the granted enables that wait for their stagger
step, and whether a spacing runs (R256-R261). -/
structure Power where
  pend : FMap (List PwReq) := []
  stag5 : FMap (List Nat) := []
  stag5Run : FMap Bool := []
  stagH : List Nat := []
  stagHRun : Bool := false
  deriving DecidableEq, Repr

/-- How far a waiting or running enumeration is. -/
inductive EnSt where
  | queued | running | slotWait | powerWait | baseWait
  deriving DecidableEq, Repr

/-- One device being enumerated or re-presented (R264-R276, R292-R295). `order` places its debounce in the attach order;
`first`: ahead of every enumeration that has not started; `sub`: how far its step is. -/
structure Enum where
  port : Nat := 0
  tier : Nat := 0
  st : EnSt := .queued
  order : Nat := 0
  first : Bool := false
  place : Bool := false
  step : Nat := 1
  attempt : Nat := 1
  tries : Nat := 0
  sub : Nat := 0
  slot : Nat := 0
  addr : Nat := 0
  speed : Speed := .none
  hub : Nat := 0
  hubPort : Nat := 0
  represent : Bool := false
  dev : List Byte := []
  cfgs : List (List Byte) := []
  cfg : Nat := 0
  cfgDenied : Bool := false
  hubDesc : List Byte := []
  deriving DecidableEq, Repr

/-- What a control request to a hub is for: a step of the hub's own enumeration, a port's reset, suspend or resume, or
CLEAR_TT_BUFFER for an endpoint (R292, R295, R306, R310, R311). -/
inductive HReqK where
  | step
  | portReset (hp : Nat)
  | portSuspend (hp : Nat)
  | portResume (hp : Nat)
  | clearTt (slot epid : Nat)
  deriving DecidableEq, Repr

/-- A control request to a hub, with the failures it has had. -/
structure HReq where
  kind : HReqK
  setup : List Byte
  tries : Nat := 0
  deriving DecidableEq, Repr

/-- A hub's downstream port as hub handling sees it (R292-R297, R311, R316). `told`: C_PORT_SUSPEND has come, or while
SUSPENDING, SET_FEATURE(PORT_SUSPEND) has been asked for (R310); `ocDue`: the
time of the overcurrent retry plus one; `upAt`: when its power was last switched on. -/
structure HubPort where
  powered : Bool := false
  conn : Bool := false
  enabled : Bool := false
  deb : Bool := false
  slot : Nat := 0
  retry : Nat := 0
  latched : Bool := false
  disabled : Bool := false
  susp : SuspSt := .active
  hold : Nat := 0
  rwEn : Bool := true
  wakeRun : Bool := false
  rwSeen : Bool := false
  faultAt : Nat := 0
  resetting : Bool := false
  told : Bool := false
  ocDue : Nat := 0
  upAt : Nat := 0
  attKey : Nat := 0
  deriving DecidableEq, Repr

/-- What the chip keeps of a hub (R290-R294); `reqs` are its control requests, the one issued first. -/
structure Hub where
  nports : Nat := 0
  ttThink : Nat := 8
  multi : Bool := false
  selfPow : Bool := false
  pgMs : Nat := 0
  ports : FMap HubPort := []
  reqs : List HReq := []
  deriving DecidableEq, Repr

/-- Endpoint modes (R322). -/
inductive EpMode where
  | raw | normalised | sealed
  deriving DecidableEq, Repr

/-- Endpoint types of USB 2.0. -/
inductive EpTy where
  | control | isoch | bulk | interrupt
  deriving DecidableEq, Repr

/-- An endpoint context (R421). `active`: served, from the frame start or boundary after its opening (R388); `closing`: a staged
close (R389); `ping`: next addressed with PING (R171); `ttClear`: CLEAR_TT_BUFFER outstanding (R306). -/
structure Ep where
  open_ : Bool := false
  active : Bool := false
  closing : Bool := false
  mode : EpMode := .raw
  ty : EpTy := .bulk
  mps : Nat := 0
  mult : Nat := 1
  plog2 : Nat := 0
  tog : Bool := false
  queue : Nat := 0
  prio : Nat := 0
  halted : Bool := false
  ping : Bool := false
  ttClear : Bool := false
  cmd : Bool := false
  chip : Bool := false
  deriving DecidableEq, Repr

end Sys2Proof.Machine
end

