-- ==== Sys2Proof/Machine/Parts/Engine.lean ====
section
/-! DEFINITION. Plain data of the engine region: personalities (R322-R362), device slots, Hollyhock, cores, delay
lists and the CIC (R416-R469). -/

namespace Sys2Proof.Machine

/-- Scanner state (R345-R348): the previous report's keys, the latest characters before a scan with their times, whether a
scan has begun, its characters (prefix and suffix included), the time of its first, its symbology identifiers, and the due
time of the gap timer. Times are in microseconds. -/
structure Scan where
  prev : List Byte := []
  recent : List (Byte × Nat) := []
  active : Bool := false
  data : List Byte := []
  start : Nat := 0
  sym : List Byte := []
  gap : Nat := 0
  deriving DecidableEq, Repr

/-- Scale states (R351). -/
inductive ScaleSt where
  | bad | stable | zero | moving | light
  deriving DecidableEq, Repr

/-- A scale's candidate: the value that began the run, the latest report, its timer (from 1; 0: it has run out) and due time
in microseconds. -/
structure ScaleCand where
  v : Int
  last : ScaleReport
  timer : Nat
  due : Nat
  deriving DecidableEq, Repr

/-- Scale state (R351). -/
structure Scale where
  st : ScaleSt := .bad
  cand : Option ScaleCand := none
  shown : Int := 0
  seq : Nat := 0
  timer : Nat := 0
  deriving DecidableEq, Repr

/-- Printer state (R352-R355): the status word, PAPER_OUT by source, whether the first complete status is still to be sent,
which sources have been read, the job count, the idle timer and its wait for a healthy printer. -/
structure Printer where
  status : Nat := 0
  pollOut : Bool := false
  blkOut : Bool := false
  first : Bool := true
  pollSeen : Bool := false
  blkSeen : Bool := false
  job : Nat := 0
  idleDue : Bool := false
  idleWait : Bool := false
  deriving DecidableEq, Repr

/-- The steps of a running KICK (R357). -/
inductive KickSt where
  | none | gap | openReq | pulse | release | releaseOwed
  deriving DecidableEq, Repr

/-- Drawer state (R356-R358). -/
structure Drawer where
  acc : Option Bool := none
  cand : Option Bool := none
  openAt : Option Nat := none
  kick : KickSt := .none
  tag : Nat := 0
  pulse : Nat := 0
  waitOpen : Bool := false
  failed : Bool := false
  next : Option (Nat × Nat) := none
  lastPulse : Option Nat := none
  deriving DecidableEq, Repr

/-- A display command waiting or in progress (R359, R360): OP, TAG, LINE or LEVEL, COL, characters. -/
structure DispCmd where
  op : Nat
  tag : Nat
  a : Nat := 0
  col : Nat := 0
  chars : List Byte := []
  deriving DecidableEq, Repr

/-- What a personality's outstanding request is for (R324, R325). -/
inductive PReq where
  | report | protocol | idle | poll | kickOpen | kickRelease | display
  deriving DecidableEq, Repr

/-- A device's personality binding and its state (R323). `pages` are the usage pages of its HID interfaces as read at its binding, by
interface (R324); `inEpid` is the endpoint of its latest report; `params` the PARAMS
bytes in force (R342); `req` its control requests, the one issued first, and `tries` that one's failures. -/
structure Pers where
  /-- When each timer that runs is due, plus one, by `Delay.tag` (R332). -/
  timers : FMap Nat := []
  /-- While a binding reads report descriptors: the interface being read, and what the interfaces read so far use (R324). -/
  rdIface : Nat := 0
  rdPages : List (Nat × Nat) := []
  code : Nat := 0
  entry : Nat := 0xFFFF
  prio : Nat := 0
  iface : Nat := 0
  pages : List (Nat × Nat) := []
  inEpid : Nat := 0
  cmdEpid : Nat := 0
  params : List Byte := []
  scan : Scan := {}
  scale : Scale := {}
  prn : Printer := {}
  drw : Drawer := {}
  disp : List DispCmd := []
  keys : List Byte := []
  mods : Nat := 0
  req : List PReq := []
  tries : Nat := 0
  deriving DecidableEq, Repr

/-- A device slot: the device context of R421 with its endpoints, hub record and personality. `served`: ENUM_DONE has been
sent; `away`: reset, and not re-presented yet (R276). -/
structure Slot where
  used : Bool := false
  served : Bool := false
  away : Bool := false
  port : Nat := 0
  tier : Nat := 0
  addr : Nat := 0
  speed : Speed := .none
  hub : Nat := 0
  hubPort : Nat := 0
  dev : List Byte := []
  cfgs : List (List Byte) := []
  config : Nat := 0
  cfgDenied : Bool := false
  inst : Option Nat := none
  isSealed : Bool := false
  eps : FMap Ep := []
  isHub : Bool := false
  hubRec : Hub := {}
  pers : Pers := {}
  /-- The OUT-completion notices not yet handled: their sum, whether there is one, whether power has changed, and when the latest
  notice came (R439). -/
  notice : Nat := 0
  outNotice : Bool := false
  pwrNotice : Bool := false
  noteAt : Nat := 0
  deriving DecidableEq, Repr

/-- What an item is of the kinds that R429 lists: a normalised report, a hub status-change report, a command record, a notice, a timer
expiry, or the result of a control transfer. All of them are of class D. -/
inductive ItemK where
  | report | hubReport | record | notice | expiry | result
  deriving DecidableEq, Repr

/-- An item in Hollyhock (R429). `region = none`: an internal item; `gran`: how many granules of the report pool were reserved for
it, `grans`: those that hold its data (R419); `notice`: the notice item of its slot (R439). -/
structure Item where
  flow : Nat := 0
  what : ItemK := .result
  grans : List Nat := []
  prio : Nat := 0
  seq : Nat := 0
  region : Option Nat := none
  gran : Nat := 0
  data : List Byte := []
  epid : Nat := 0
  mf : Nat := 0
  us : Nat := 0
  poison : Bool := false
  notice : Bool := false
  deriving DecidableEq, Repr

/-- Core states (R423). -/
inductive CoreSt where
  | off | starting | idle | running | draining | resetting | halted
  deriving DecidableEq, Repr

/-- One engine core (R423-R436, R452-R456, R467). `slots` are its prefetched items, oldest first; `nvec` and
`fvec` the vector addresses of its latest deliveries. -/
structure Core where
  st : CoreSt := .off
  cur : Option Item := none
  slots : List Item := []
  nsrc : Option Nat := none
  nclaimed : Bool := false
  nvec : Nat := 0
  fsrc : Option Nat := none
  fclaimed : Bool := false
  fvec : Nat := 0
  outUsed : Nat := 0
  cause : Nat := 0
  deriving DecidableEq, Repr

/-- A delay-list item (R443): due tick, flow, priority, insertion order, and which of its flow's timers it is. -/
structure Delay where
  due : Nat
  flow : Nat
  prio : Nat
  seq : Nat
  list : Nat
  tag : Nat := 0
  deriving DecidableEq, Repr

/-- A control request of firmware: who issues it (0 enumeration, 1 hub handling, 2 a personality, 3 a Decust command), the position
of its device, its SETUP packet and OUT data; `free`: no command reports its end. -/
structure CReq where
  own : Nat
  port : Nat
  tier : Nat
  setup : List Byte
  data : List Byte
  free : Bool := false
  tries : Nat := 0
  deriving DecidableEq, Repr

/-- Hollyhock (R429-R446): items with a tracker, the flow-overflow list, delay lists and the late list, class-D
reservations by region, granules in use, expiries that wait for an entry, the owners and positions whose control request holds a
result entry, and the control requests that wait for one. -/
structure Holly where
  items : List Item := []
  ovf : List Item := []
  seq : Nat := 0
  delays : List Delay := []
  late : List Delay := []
  expired : List Delay := []
  rsv : FMap Nat := []
  gran : Nat := 0
  ctl : List (Nat × Nat × Nat) := []
  ctlWait : List CReq := []
  rot : Nat := 15
  lateCnt : Nat := 0
  deriving DecidableEq, Repr

/-- A CIC source (R448-R456): accepted level, pending bit, edge latch, the core and class it is in service on. -/
structure CSrc where
  /-- The accepted level. -/
  lvl : Bool := false
  pend : Bool := false
  latch : Bool := false
  /-- The input, when it last changed, and whether what is outside this model drives it (R449). -/
  inp : Bool := false
  since : Nat := 0
  ext : Bool := false
  insv : Option (Nat × Bool) := none
  deriving DecidableEq, Repr

/-- The CIC: sources and the core last chosen in each class (R452). -/
structure Cic where
  src : FMap CSrc := []
  rotN : Nat := 15
  rotF : Nat := 15
  deriving DecidableEq, Repr

/-- An internal mailbox channel (R458-R463): receiver, lock, and a notification to raise when the receiver leaves
reset. -/
structure Mbx where
  recv : Nat := 0
  lock : Nat := 0
  ch : Chan := {}
  again : Bool := false
  deriving DecidableEq, Repr

end Sys2Proof.Machine
end

