-- ==== Sys2Proof/Machine/RegTable.lean ====
section
/-! DEFINITION. The block-specific registers of every register page (the field tables of R138, R185, R218, R244,
R285, R287, R319, R410, R413, R415, R466-R469, R495, R522, R523, R554-R557, R574-R576): place, reset value, and
which bits are RW, W1C, W1S and RC (R11).  The common header (R57-R69) is in Machine/Regs.lean. -/

namespace Sys2Proof.Machine

/-- One register, or an array of `cnt` registers `stride` bytes apart, of a block: page, offset, reset value and the
bits of each access type (R11); `ranges` lists the RW fields `(hi, lo, min, max)` whose description gives a range
that R614 enforces. -/
structure RegDesc where
  name : String
  page : Nat
  off : Nat
  cnt : Nat
  stride : Nat
  reset : Nat
  rw : Nat
  w1c : Nat
  w1s : Nat
  rc : Nat
  ranges : List (Nat × Nat × Nat × Nat)
  deriving DecidableEq, Repr

def regsOf_hst : List RegDesc := [
  ⟨"HST_ERR_SUM", 0, 0x040, 1, 0x4, 0x00000000, 0x00000000, 0x00000000, 0x00000000, 0x00000000, []⟩,
  ⟨"HST_ERR_BLK", 0, 0x044, 1, 0x4, 0x00000000, 0x00000000, 0x00000000, 0x00000000, 0x00000000, []⟩,
  ⟨"HST_ERR_TMB", 0, 0x048, 1, 0x4, 0x00000000, 0x00000000, 0x00000000, 0x00000000, 0x00000000, []⟩,
  ⟨"HST_ERR_CTL", 0, 0x04c, 1, 0x4, 0x00000000, 0x0000033f, 0x00000000, 0x00000000, 0x00000000, []⟩]

def regsOf_imu : List RegDesc := [
  ⟨"HST_IMU_STAT", 0, 0x040, 1, 0x4, 0x00000000, 0x00000000, 0x00000000, 0x00000000, 0x00000000, []⟩,
  ⟨"HST_IMU_CNT", 0, 0x044, 1, 0x4, 0x00000000, 0x00000000, 0x00000000, 0x00000000, 0xffffffff, []⟩,
  ⟨"HST_IMU_SEL", 0, 0x048, 1, 0x4, 0x00000000, 0x00030fff, 0x00000000, 0x00000000, 0x00000000, []⟩,
  ⟨"HST_IMU_VIEW", 0, 0x04c, 1, 0x4, 0x00000001, 0x00000000, 0x00000000, 0x00000000, 0x00000000, []⟩]

def regsOf_hdma : List RegDesc := [
  ⟨"DMA_CHj_CTL", 0, 0x040, 8, 0x40, 0x00000000, 0x00000003, 0x00000000, 0x00000010, 0x00000000, []⟩,
  ⟨"DMA_CHj_CTL", 1, 0x040, 8, 0x40, 0x00000000, 0x00000003, 0x00000000, 0x00000010, 0x00000000, []⟩,
  ⟨"DMA_CHj_CTL", 2, 0x040, 8, 0x40, 0x00000000, 0x00000003, 0x00000000, 0x00000010, 0x00000000, []⟩,
  ⟨"DMA_CHj_CTL", 3, 0x040, 8, 0x40, 0x00000000, 0x0000ff43, 0x00000000, 0x00000030, 0x00000000, []⟩,
  ⟨"DMA_CHj_STAT", 0, 0x044, 8, 0x40, 0x00000000, 0x00000000, 0x00000000, 0x00000000, 0x00000000, []⟩,
  ⟨"DMA_CHj_STAT", 1, 0x044, 8, 0x40, 0x00000000, 0x00000000, 0x00000000, 0x00000000, 0x00000000, []⟩,
  ⟨"DMA_CHj_STAT", 2, 0x044, 8, 0x40, 0x00000000, 0x00000000, 0x00000000, 0x00000000, 0x00000000, []⟩,
  ⟨"DMA_CHj_STAT", 3, 0x044, 8, 0x40, 0x00000000, 0x00000000, 0x00000000, 0x00000000, 0x00000000, []⟩,
  ⟨"DMA_CHj_HADDR_LO", 0, 0x048, 8, 0x40, 0x00000000, 0x00000000, 0x00000000, 0x00000000, 0x00000000, []⟩,
  ⟨"DMA_CHj_HADDR_LO", 1, 0x048, 8, 0x40, 0x00000000, 0x00000000, 0x00000000, 0x00000000, 0x00000000, []⟩,
  ⟨"DMA_CHj_HADDR_LO", 2, 0x048, 8, 0x40, 0x00000000, 0x00000000, 0x00000000, 0x00000000, 0x00000000, []⟩,
  ⟨"DMA_CHj_HADDR_LO", 3, 0x048, 8, 0x40, 0x00000000, 0xffffffff, 0x00000000, 0x00000000, 0x00000000, []⟩,
  ⟨"DMA_CHj_HADDR_HI", 0, 0x04c, 8, 0x40, 0x00000000, 0x00000000, 0x00000000, 0x00000000, 0x00000000, []⟩,
  ⟨"DMA_CHj_HADDR_HI", 1, 0x04c, 8, 0x40, 0x00000000, 0x00000000, 0x00000000, 0x00000000, 0x00000000, []⟩,
  ⟨"DMA_CHj_HADDR_HI", 2, 0x04c, 8, 0x40, 0x00000000, 0x00000000, 0x00000000, 0x00000000, 0x00000000, []⟩,
  ⟨"DMA_CHj_HADDR_HI", 3, 0x04c, 8, 0x40, 0x00000000, 0xffffffff, 0x00000000, 0x00000000, 0x00000000, []⟩,
  ⟨"DMA_CHj_LADDR", 0, 0x050, 8, 0x40, 0x00000000, 0x00000000, 0x00000000, 0x00000000, 0x00000000, []⟩,
  ⟨"DMA_CHj_LADDR", 1, 0x050, 8, 0x40, 0x00000000, 0x00000000, 0x00000000, 0x00000000, 0x00000000, []⟩,
  ⟨"DMA_CHj_LADDR", 2, 0x050, 8, 0x40, 0x00000000, 0x00000000, 0x00000000, 0x00000000, 0x00000000, []⟩,
  ⟨"DMA_CHj_LADDR", 3, 0x050, 8, 0x40, 0x00000000, 0x0fffffff, 0x00000000, 0x00000000, 0x00000000, []⟩,
  ⟨"DMA_CHj_LEN", 0, 0x054, 8, 0x40, 0x00000000, 0x00000000, 0x00000000, 0x00000000, 0x00000000, []⟩,
  ⟨"DMA_CHj_LEN", 1, 0x054, 8, 0x40, 0x00000000, 0x00000000, 0x00000000, 0x00000000, 0x00000000, []⟩,
  ⟨"DMA_CHj_LEN", 2, 0x054, 8, 0x40, 0x00000000, 0x00000000, 0x00000000, 0x00000000, 0x00000000, []⟩,
  ⟨"DMA_CHj_LEN", 3, 0x054, 8, 0x40, 0x00000000, 0x00ffffff, 0x00000000, 0x00000000, 0x00000000, []⟩,
  ⟨"DMA_CHj_BYTES", 0, 0x058, 8, 0x40, 0x00000000, 0x00000000, 0x00000000, 0x00000000, 0x00000000, []⟩,
  ⟨"DMA_CHj_BYTES", 1, 0x058, 8, 0x40, 0x00000000, 0x00000000, 0x00000000, 0x00000000, 0x00000000, []⟩,
  ⟨"DMA_CHj_BYTES", 2, 0x058, 8, 0x40, 0x00000000, 0x00000000, 0x00000000, 0x00000000, 0x00000000, []⟩,
  ⟨"DMA_CHj_BYTES", 3, 0x058, 8, 0x40, 0x00000000, 0x00000000, 0x00000000, 0x00000000, 0x00000000, []⟩,
  ⟨"DMA_CHj_ERR", 0, 0x05c, 8, 0x40, 0x00000000, 0x00000000, 0x00000000, 0x00000000, 0x00000000, []⟩,
  ⟨"DMA_CHj_ERR", 1, 0x05c, 8, 0x40, 0x00000000, 0x00000000, 0x00000000, 0x00000000, 0x00000000, []⟩,
  ⟨"DMA_CHj_ERR", 2, 0x05c, 8, 0x40, 0x00000000, 0x00000000, 0x00000000, 0x00000000, 0x00000000, []⟩,
  ⟨"DMA_CHj_ERR", 3, 0x05c, 8, 0x40, 0x00000000, 0x00000000, 0x00000000, 0x00000000, 0x00000000, []⟩,
  ⟨"DMA_ENG_CTL", 0, 0x240, 1, 0x4, 0x00002013, 0x00000017, 0x00000000, 0x00000000, 0x00000000, []⟩,
  ⟨"DMA_HALT_CNT", 0, 0x248, 1, 0x4, 0x00000000, 0x00000000, 0x00000000, 0x00000000, 0x0000ffff, []⟩,
  ⟨"DMA_DCQ_BASE", 3, 0x250, 1, 0x4, 0x04000000, 0x0f7ff000, 0x00000000, 0x00000000, 0x00000000, [(27, 24, 4, 10)]⟩,
  ⟨"DMA_DCQ_PI", 3, 0x254, 1, 0x4, 0x00000000, 0x00000000, 0x00000000, 0x00000000, 0x00000000, []⟩,
  ⟨"DMA_DCQ_CI", 3, 0x258, 1, 0x4, 0x00000000, 0x0001ffff, 0x00000000, 0x00000000, 0x00000000, []⟩]

def regsOf_rng : List RegDesc := [
  ⟨"RNG_CTX_BASE_LO", 0, 0x040, 1, 0x4, 0x00000000, 0xfffff000, 0x00000000, 0x00000000, 0x00000000, []⟩,
  ⟨"RNG_CTX_BASE_HI", 0, 0x044, 1, 0x4, 0x00000000, 0xffffffff, 0x00000000, 0x00000000, 0x00000000, []⟩,
  ⟨"RNG_CTL", 0, 0x048, 1, 0x4, 0x00000001, 0x00000001, 0x00000000, 0x00000000, 0x00000000, []⟩,
  ⟨"RNG_HOLD_STAT", 0, 0x04c, 1, 0x4, 0x00000800, 0x00000000, 0x00000000, 0x00000000, 0x00000000, []⟩,
  ⟨"RNG_SPQ_BASE_LO", 0, 0x050, 1, 0x4, 0x00000000, 0xfffff000, 0x00000000, 0x00000000, 0x00000000, []⟩,
  ⟨"RNG_SPQ_BASE_HI", 0, 0x054, 1, 0x4, 0x00000000, 0xffffffff, 0x00000000, 0x00000000, 0x00000000, []⟩,
  ⟨"RNG_SPQ_SIZE", 0, 0x058, 1, 0x4, 0x00000004, 0x8000001f, 0x00000000, 0x00000000, 0x00000000, [(4, 0, 4, 16)]⟩,
  ⟨"RNG_SPQ_PI", 0, 0x05c, 1, 0x4, 0x00000000, 0x00000000, 0x00000000, 0x00000000, 0x00000000, []⟩,
  ⟨"RNG_SPQ_CI", 0, 0x060, 1, 0x4, 0x00000000, 0x00000000, 0x00000000, 0x00000000, 0x00000000, []⟩,
  ⟨"RNG_SPQ_DROP", 0, 0x064, 1, 0x4, 0x00000000, 0x00000000, 0x00000000, 0x00000000, 0x0fffffff, []⟩,
  ⟨"RNG_CACHE_MISS", 0, 0x068, 1, 0x4, 0x00000000, 0x00000000, 0x00000000, 0x00000000, 0xffffffff, []⟩,
  ⟨"RNG_HOLD_CLASSc", 1, 0x040, 16, 0x4, 0x00000080, 0x00000fff, 0x00000000, 0x00000000, 0x00000000, [(11, 0, 0, 2048)]⟩,
  ⟨"RNG_SPQ_LIMIT", 1, 0x080, 1, 0x4, 0x00000040, 0x00000fff, 0x00000000, 0x00000000, 0x00000000, []⟩,
  ⟨"RNG_VIEW_SEL", 2, 0x040, 1, 0x4, 0x00000000, 0x0fff001f, 0x00000000, 0x00000000, 0x00000000, [(4, 0, 0, 20)]⟩,
  ⟨"RNG_VIEW_STAT", 2, 0x044, 1, 0x4, 0x00000000, 0x00000000, 0x00000000, 0x00000000, 0x00000000, []⟩,
  ⟨"RNG_VIEW_CTL", 2, 0x048, 1, 0x4, 0x00000000, 0x00000000, 0x00000000, 0x00000001, 0x00000000, []⟩]

def regsOf_ten : List RegDesc := [
  ⟨"TEN_COMMIT", 0, 0x040, 1, 0x4, 0x00000000, 0x00000000, 0x00000000, 0x00000000, 0x00000000, []⟩,
  ⟨"TEN_COMMIT_STAT", 0, 0x044, 1, 0x4, 0x00000000, 0x00000000, 0x00000000, 0x00000000, 0x00000000, []⟩,
  ⟨"TEN_COMMIT_MF", 0, 0x048, 1, 0x4, 0x00000000, 0x00000000, 0x00000000, 0x00000000, 0x00000000, []⟩,
  ⟨"TEN_COMMIT_REFUSE", 0, 0x04c, 1, 0x4, 0x00000000, 0x00000000, 0x80000000, 0x00000000, 0x00000000, []⟩,
  ⟨"TEN_MCQ_BASE_LO", 0, 0x050, 1, 0x4, 0x00000000, 0xfffff000, 0x00000000, 0x00000000, 0x00000000, []⟩,
  ⟨"TEN_MCQ_BASE_HI", 0, 0x054, 1, 0x4, 0x00000000, 0xffffffff, 0x00000000, 0x00000000, 0x00000000, []⟩,
  ⟨"TEN_MCQ_SIZE", 0, 0x058, 1, 0x4, 0x00000004, 0x8000001f, 0x00000000, 0x00000000, 0x00000000, [(4, 0, 4, 16)]⟩,
  ⟨"TEN_MCQ_PI", 0, 0x05c, 1, 0x4, 0x00000000, 0x0001ffff, 0x00000000, 0x00000000, 0x00000000, []⟩,
  ⟨"TEN_MCQ_CI", 0, 0x060, 1, 0x4, 0x00000000, 0x00000000, 0x00000000, 0x00000000, 0x00000000, []⟩,
  ⟨"TEN_MEQ_BASE_LO", 0, 0x064, 1, 0x4, 0x00000000, 0xfffff000, 0x00000000, 0x00000000, 0x00000000, []⟩,
  ⟨"TEN_MEQ_BASE_HI", 0, 0x068, 1, 0x4, 0x00000000, 0xffffffff, 0x00000000, 0x00000000, 0x00000000, []⟩,
  ⟨"TEN_MEQ_SIZE", 0, 0x06c, 1, 0x4, 0x00000004, 0x80003f1f, 0x00000000, 0x00000000, 0x00000000, [(4, 0, 4, 16)]⟩,
  ⟨"TEN_MEQ_PI", 0, 0x070, 1, 0x4, 0x00000000, 0x00000000, 0x00000000, 0x00000000, 0x00000000, []⟩,
  ⟨"TEN_MEQ_CI", 0, 0x074, 1, 0x4, 0x00000000, 0x0001ffff, 0x00000000, 0x00000000, 0x00000000, []⟩,
  ⟨"TEN_CTL", 0, 0x078, 1, 0x4, 0x00000000, 0x00000000, 0x00000000, 0x00000001, 0x00000000, []⟩,
  ⟨"TEN_MEQ_DROP", 0, 0x07c, 1, 0x4, 0x00000000, 0x00000000, 0x00000000, 0x00000000, 0x0000ffff, []⟩,
  ⟨"TEN_INST_CNT", 0, 0x080, 1, 0x4, 0x00000000, 0x00000000, 0x00000000, 0x00000000, 0xffff0000, []⟩,
  ⟨"TEN_VIEW_SEL", 1, 0x040, 1, 0x4, 0x00000000, 0x00000fff, 0x00000000, 0x00000000, 0x00000000, []⟩,
  ⟨"TEN_VIEW_STAT", 1, 0x044, 1, 0x4, 0x00000000, 0x00000000, 0x00000000, 0x00000000, 0x00000000, []⟩,
  ⟨"TEN_VIEW_PASID", 1, 0x048, 1, 0x4, 0x00000000, 0x00000000, 0x00000000, 0x00000000, 0x00000000, []⟩,
  ⟨"TEN_VIEW_RES", 1, 0x04c, 1, 0x4, 0x00000000, 0x00000000, 0x00000000, 0x00000000, 0x00000000, []⟩]

def regsOf_ldr : List RegDesc := [
  ⟨"LDR_GO", 0, 0x040, 1, 0x4, 0x00000000, 0x00000000, 0x00000000, 0x00000000, 0x00000000, []⟩,
  ⟨"LDR_STAT", 0, 0x044, 1, 0x4, 0x00000000, 0x00000000, 0x00000000, 0x00000000, 0x00000000, []⟩,
  ⟨"LDR_CTL", 0, 0x048, 1, 0x4, 0x00000000, 0x0000013f, 0x00000000, 0x00000000, 0x00000000, []⟩,
  ⟨"LDR_IMAGE", 0, 0x04c, 1, 0x4, 0x00000000, 0x00000000, 0x00000000, 0x00000000, 0x00000000, []⟩,
  ⟨"LDR_BUILD", 0, 0x050, 1, 0x4, 0x00000000, 0x00000000, 0x00000000, 0x00000000, 0x00000000, []⟩,
  ⟨"LDR_TIME", 0, 0x054, 1, 0x4, 0x00000000, 0x00000000, 0x00000000, 0x00000000, 0x00000000, []⟩,
  ⟨"LDR_CNT", 0, 0x058, 1, 0x4, 0x00000000, 0x00000000, 0x00000000, 0x00000000, 0x0000ffff, []⟩,
  ⟨"LDR_LDQ_BASE_LO", 0, 0x060, 1, 0x4, 0x00000000, 0xfffff000, 0x00000000, 0x00000000, 0x00000000, []⟩,
  ⟨"LDR_LDQ_BASE_HI", 0, 0x064, 1, 0x4, 0x00000000, 0xffffffff, 0x00000000, 0x00000000, 0x00000000, []⟩,
  ⟨"LDR_LDQ_SIZE", 0, 0x068, 1, 0x4, 0x00000004, 0x8000001f, 0x00000000, 0x00000000, 0x00000000, [(4, 0, 4, 16)]⟩,
  ⟨"LDR_LDQ_PI", 0, 0x06c, 1, 0x4, 0x00000000, 0x0001ffff, 0x00000000, 0x00000000, 0x00000000, []⟩,
  ⟨"LDR_LDQ_CI", 0, 0x070, 1, 0x4, 0x00000000, 0x00000000, 0x00000000, 0x00000000, 0x00000000, []⟩]

def regsOf_prg : List RegDesc := [
  ⟨"PRG_AGG_SUM", 0, 0x040, 1, 0x4, 0x00000000, 0x00000000, 0x00000000, 0x00000000, 0x00000000, []⟩,
  ⟨"PRG_AGG_PORT", 0, 0x044, 1, 0x4, 0x00000000, 0x00000000, 0x00000000, 0x00000000, 0x00000000, []⟩,
  ⟨"PRG_QUAR", 0, 0x048, 1, 0x4, 0x00000000, 0x00000000, 0x00000000, 0x00000000, 0x00000000, []⟩,
  ⟨"PRG_PORT_RST", 0, 0x04c, 1, 0x4, 0x00000000, 0x00000000, 0x00000000, 0x0000ffff, 0x00000000, []⟩]

def regsOf_pwr : List RegDesc := [
  ⟨"PRG_PWR_CTL", 0, 0x040, 1, 0x4, 0x00111414, 0x001fffff, 0x00000000, 0x00000000, 0x00000000, [(15, 8, 10, 255)]⟩,
  ⟨"PRG_PWR_SCALE", 0, 0x044, 1, 0x4, 0x28000a00, 0xffffffff, 0x00000000, 0x00000000, 0x00000000, []⟩,
  ⟨"PRG_PWR_REGION", 0, 0x048, 1, 0x4, 0x00000000, 0x00000000, 0x00000000, 0x00000000, 0x00000000, []⟩,
  ⟨"PRG_RAIL_USE5", 0, 0x04c, 1, 0x4, 0x00000000, 0x00000000, 0x00000000, 0x00000000, 0x00000000, []⟩,
  ⟨"PRG_RAIL_USE12", 0, 0x050, 1, 0x4, 0x00000000, 0x00000000, 0x00000000, 0x00000000, 0x00000000, []⟩,
  ⟨"PRG_RAIL_USE24", 0, 0x054, 1, 0x4, 0x00000000, 0x00000000, 0x00000000, 0x00000000, 0x00000000, []⟩,
  ⟨"PRG_STORE_USE", 0, 0x058, 1, 0x4, 0x00000000, 0x00000000, 0x00000000, 0x00000000, 0x00000000, []⟩,
  ⟨"PRG_PWRk", 0, 0x080, 16, 0x4, 0x00000000, 0x00000000, 0x00000000, 0x00000000, 0x00000000, []⟩,
  ⟨"PRG_IMEASk", 0, 0x0c0, 16, 0x4, 0x00000000, 0x00000000, 0x00000000, 0x00000000, 0x00000000, []⟩,
  ⟨"PRG_OCk", 0, 0x100, 16, 0x4, 0x00000000, 0x00000000, 0x00000000, 0x00000000, 0x00ffffff, []⟩]

def regsOf_lnk : List RegDesc := [
  ⟨"PRG_PORT_STAT", 0, 0x040, 1, 0x4, 0x00000000, 0x00000000, 0x00000000, 0x00000000, 0x00000000, []⟩,
  ⟨"PRG_PORT_CHG", 0, 0x044, 1, 0x4, 0x00000000, 0x00000000, 0x0000001f, 0x00000000, 0x00000000, []⟩,
  ⟨"PRG_PORT_CMD", 0, 0x048, 1, 0x4, 0x00000000, 0x00000000, 0x00000000, 0x00000000, 0x00000000, []⟩,
  ⟨"PRG_PORT_TEST", 0, 0x04c, 1, 0x4, 0x00000000, 0x00000007, 0x00000000, 0x00000000, 0x00000000, []⟩,
  ⟨"PRG_PORT_ENUM", 0, 0x050, 1, 0x4, 0x00000000, 0x00000000, 0x00000000, 0x00000000, 0x00000000, []⟩,
  ⟨"PRG_PORT_CNT", 0, 0x054, 1, 0x4, 0x00000000, 0x00000000, 0x00000000, 0x00000000, 0xffffffff, []⟩,
  ⟨"PRG_PORT_SUSP", 0, 0x058, 1, 0x4, 0x00000004, 0x00000004, 0x00000000, 0x00000000, 0x00ff0000, []⟩,
  ⟨"PRG_TREE_STAT", 0, 0x05c, 1, 0x4, 0x00000000, 0x00000000, 0x00000000, 0x00000000, 0xff000000, []⟩]

def regsOf_frm : List RegDesc := [
  ⟨"FRM_PACE_THR", 0, 0x040, 1, 0x4, 0x00002848, 0x0000ffff, 0x00000000, 0x00000000, 0x00000000, []⟩,
  ⟨"FRM_PACE_STAT", 0, 0x044, 1, 0x4, 0x00000000, 0x00000000, 0x00000000, 0x00000000, 0x00000000, []⟩,
  ⟨"FRM_PT_SEL", 0, 0x048, 1, 0x4, 0x00000000, 0x0003ff1f, 0x00000000, 0x00000000, 0x00000000, []⟩,
  ⟨"FRM_PT_DATAd", 0, 0x04c, 4, 0x4, 0x00000000, 0x00000000, 0x00000000, 0x00000000, 0x00000000, []⟩,
  ⟨"FRM_PT_ROWSEL", 0, 0x05c, 1, 0x4, 0x00000000, 0x0000ff1f, 0x00000000, 0x00000000, 0x00000000, []⟩,
  ⟨"FRM_PT_ROW", 0, 0x060, 1, 0x4, 0x00000000, 0x00000000, 0x00000000, 0x00000000, 0x00000000, []⟩,
  ⟨"FRM_PACE_CNT", 0, 0x064, 1, 0x4, 0x00000000, 0x00000000, 0x00000000, 0x00000000, 0xffffffff, []⟩,
  ⟨"FRM_PT_COUNT", 0, 0x068, 1, 0x4, 0x00000000, 0x00000000, 0x00000000, 0x00000000, 0x00000000, []⟩,
  ⟨"FRM_PORT_CFGk", 0, 0x080, 16, 0x4, 0x00000000, 0x00000007, 0x00000000, 0x00000000, 0x00000000, []⟩,
  ⟨"FRM_PORT_STATk", 0, 0x0c0, 16, 0x4, 0x00000000, 0x00000000, 0x00000000, 0x00000000, 0x00000000, []⟩,
  ⟨"FRM_SKIP_CNTk", 0, 0x100, 16, 0x4, 0x00000000, 0x00000000, 0x00000000, 0x00000000, 0xffffffff, []⟩,
  ⟨"FRM_QCFGq", 1, 0x040, 496, 0x4, 0x00000100, 0xffff3fff, 0x00000000, 0x00000000, 0x00000000, []⟩,
  ⟨"FRM_QCFGq", 2, 0x040, 496, 0x4, 0x00000100, 0xffff3fff, 0x00000000, 0x00000000, 0x00000000, []⟩,
  ⟨"FRM_QCFGq", 3, 0x040, 32, 0x4, 0x00000100, 0xffff3fff, 0x00000000, 0x00000000, 0x00000000, []⟩,
  ⟨"FRM_SVC", 3, 0x0c0, 1, 0x4, 0x00000000, 0x00000001, 0x00000000, 0x00000000, 0x00000000, []⟩]

def regsOf_fif : List RegDesc := [
  ⟨"FIF_TX_WM", 0, 0x040, 1, 0x4, 0x03000200, 0x07ff07ff, 0x00000000, 0x00000000, 0x00000000, []⟩,
  ⟨"FIF_RX_WM", 0, 0x044, 1, 0x4, 0x02000080, 0x07ff07ff, 0x00000000, 0x00000000, 0x00000000, []⟩,
  ⟨"FIF_TX_LIMIT", 0, 0x048, 1, 0x4, 0x00020200, 0x000f07ff, 0x00000000, 0x00000000, 0x00000000, [(10, 0, 64, 1024)]⟩,
  ⟨"FIF_TX_STAT", 0, 0x04c, 1, 0x4, 0x00000000, 0x00000000, 0x00000000, 0x00000000, 0x00000000, []⟩,
  ⟨"FIF_RX_STAT", 0, 0x050, 1, 0x4, 0x00000000, 0x00000000, 0x00000000, 0x00000000, 0x00000000, []⟩,
  ⟨"FIF_TX_PTR", 0, 0x054, 1, 0x4, 0x00000000, 0x00000000, 0x00000000, 0x00000000, 0x00000000, []⟩,
  ⟨"FIF_RX_PTR", 0, 0x058, 1, 0x4, 0x00000000, 0x00000000, 0x00000000, 0x00000000, 0x00000000, []⟩,
  ⟨"FIF_TX_CNT", 0, 0x05c, 1, 0x4, 0x00000000, 0x00000000, 0x00000000, 0x00000000, 0xffffffff, []⟩,
  ⟨"FIF_RX_CNT", 0, 0x060, 1, 0x4, 0x00000000, 0x00000000, 0x00000000, 0x00000000, 0xffffffff, []⟩,
  ⟨"FIF_PKT_SEL", 0, 0x064, 1, 0x4, 0x00000000, 0x00003f01, 0x00000000, 0x00000000, 0x00000000, []⟩,
  ⟨"FIF_PKT_DATA0", 0, 0x068, 1, 0x4, 0x00000000, 0x00000000, 0x00000000, 0x00000000, 0x00000000, []⟩,
  ⟨"FIF_PKT_DATA1", 0, 0x06c, 1, 0x4, 0x00000000, 0x00000000, 0x00000000, 0x00000000, 0x00000000, []⟩,
  ⟨"FIF_PKT_DATA2", 0, 0x070, 1, 0x4, 0x00000000, 0x00000000, 0x00000000, 0x00000000, 0x00000000, []⟩]

def regsOf_rdma : List RegDesc := [
  ⟨"DMA_CHj_CTL", 0, 0x040, 8, 0x40, 0x00000000, 0x00000000, 0x00000000, 0x00000010, 0x00000000, []⟩,
  ⟨"DMA_CHj_STAT", 0, 0x044, 8, 0x40, 0x00000000, 0x00000000, 0x00000000, 0x00000000, 0x00000000, []⟩,
  ⟨"DMA_CHj_HADDR_LO", 0, 0x048, 8, 0x40, 0x00000000, 0x00000000, 0x00000000, 0x00000000, 0x00000000, []⟩,
  ⟨"DMA_CHj_HADDR_HI", 0, 0x04c, 8, 0x40, 0x00000000, 0x00000000, 0x00000000, 0x00000000, 0x00000000, []⟩,
  ⟨"DMA_CHj_LADDR", 0, 0x050, 8, 0x40, 0x00000000, 0x00000000, 0x00000000, 0x00000000, 0x00000000, []⟩,
  ⟨"DMA_CHj_LEN", 0, 0x054, 8, 0x40, 0x00000000, 0x00000000, 0x00000000, 0x00000000, 0x00000000, []⟩,
  ⟨"DMA_CHj_BYTES", 0, 0x058, 8, 0x40, 0x00000000, 0x00000000, 0x00000000, 0x00000000, 0x00000000, []⟩,
  ⟨"DMA_CHj_ERR", 0, 0x05c, 8, 0x40, 0x00000000, 0x00000000, 0x00000000, 0x00000000, 0x00000000, []⟩,
  ⟨"DMA_ENG_CTL", 0, 0x240, 1, 0x4, 0x00002013, 0x00000017, 0x00000000, 0x00000000, 0x00000000, []⟩,
  ⟨"DMA_KIND_PRIO", 0, 0x244, 1, 0x4, 0x00000390, 0x000003ff, 0x00000000, 0x00000000, 0x00000000, []⟩,
  ⟨"DMA_HALT_CNT", 0, 0x248, 1, 0x4, 0x00000000, 0x00000000, 0x00000000, 0x00000000, 0x0000ffff, []⟩]

def regsOf_wsc : List RegDesc := [
  ⟨"WSC_CTL", 0, 0x040, 1, 0x4, 0x00000200, 0x00001fff, 0x00000000, 0x00000000, 0x00000000, [(12, 0, 64, 4096)]⟩,
  ⟨"WSC_QSTAT", 0, 0x044, 1, 0x4, 0x00000000, 0x00000000, 0x00000000, 0x00000000, 0x00000000, []⟩,
  ⟨"WSC_FLOWSTAT", 0, 0x048, 1, 0x4, 0x00000000, 0x00000000, 0x00000000, 0x00000000, 0x00000000, []⟩,
  ⟨"WSC_WDOG", 0, 0x04c, 1, 0x4, 0x000003e8, 0x0000ffff, 0x00000000, 0x00000000, 0x00000000, []⟩,
  ⟨"WSC_DQUOTAn", 0, 0x050, 8, 0x4, 0x000001c0, 0x00000fff, 0x00000000, 0x00000000, 0x00000000, []⟩,
  ⟨"WSC_DLYj", 0, 0x070, 4, 0x4, 0x0000000a, 0x000007ff, 0x00000000, 0x00000000, 0x00000000, [(10, 0, 1, 1024)]⟩,
  ⟨"WSC_DLY_STAT", 0, 0x080, 1, 0x4, 0x00000000, 0x00000000, 0x00000000, 0x00000000, 0xffff0000, []⟩,
  ⟨"WSC_DCX_STAT", 0, 0x084, 1, 0x4, 0x00000000, 0x00000000, 0x00000000, 0x00000000, 0x00000000, []⟩,
  ⟨"WSC_CNT", 0, 0x088, 1, 0x4, 0x00000000, 0x00000000, 0x00000000, 0x00000000, 0xffffffff, []⟩,
  ⟨"WSC_LVLl", 1, 0x040, 16, 0x4, 0x00000000, 0x00000000, 0x00000000, 0x00000000, 0x00000000, []⟩]

def regsOf_core : List RegDesc := [
  ⟨"WSC_CORE_CTL", 0, 0x040, 1, 0x4, 0x00000002, 0x0000000e, 0x00000000, 0x00000001, 0x00000000, []⟩,
  ⟨"WSC_CORE_STAT", 0, 0x044, 1, 0x4, 0x00102000, 0x00000000, 0x00000000, 0x00000000, 0x00000000, []⟩,
  ⟨"WSC_CORE_ITEM", 0, 0x048, 1, 0x4, 0x00000000, 0x00000000, 0x00000000, 0x00000000, 0x00000000, []⟩,
  ⟨"WSC_CORE_VBASE", 0, 0x04c, 1, 0x4, 0x00000000, 0x0fffe000, 0x00000000, 0x00000000, 0x00000000, []⟩,
  ⟨"WSC_CORE_CNT", 0, 0x050, 1, 0x4, 0x00000000, 0x00000000, 0x00000000, 0x00000000, 0xffffffff, []⟩]

def regsOf_cic : List RegDesc := [
  ⟨"CIC_CLAIMc", 0, 0x080, 16, 0x4, 0x000001ff, 0x00000000, 0x00000000, 0x00000000, 0x000001ff, []⟩,
  ⟨"CIC_COMPLETEc", 0, 0x0c0, 16, 0x4, 0x00000000, 0x00000000, 0x00000000, 0x00000000, 0x00000000, []⟩,
  ⟨"CIC_PENDw", 0, 0x100, 16, 0x4, 0x00000000, 0x00000000, 0xffffffff, 0x00000000, 0x00000000, []⟩,
  ⟨"CIC_INSVw", 0, 0x140, 16, 0x4, 0x00000000, 0x00000000, 0x00000000, 0x00000000, 0x00000000, []⟩,
  ⟨"CIC_SWI", 0, 0x180, 1, 0x4, 0x00000000, 0x00000000, 0x00000000, 0x00000000, 0x00000000, []⟩,
  ⟨"CIC_SPUR_CNT", 0, 0x184, 1, 0x4, 0x00000000, 0x00000000, 0x00000000, 0x00000000, 0x0000ffff, []⟩,
  ⟨"CIC_FCLAIMc", 1, 0x080, 16, 0x4, 0x000001ff, 0x00000000, 0x00000000, 0x00000000, 0x000001ff, []⟩,
  ⟨"CIC_FCOMPLETEc", 1, 0x0c0, 16, 0x4, 0x00000000, 0x00000000, 0x00000000, 0x00000000, 0x00000000, []⟩,
  ⟨"CIC_SRCs", 2, 0x040, 256, 0x4, 0xffff0000, 0xffff0fff, 0x00000000, 0x00000000, 0x00000000, []⟩,
  ⟨"CIC_SRCs", 3, 0x040, 256, 0x4, 0xffff0000, 0xffff0fff, 0x00000000, 0x00000000, 0x00000000, []⟩,
  ⟨"CIC_LATCHw", 2, 0x440, 16, 0x4, 0x00000000, 0x00000000, 0x00000000, 0x00000000, 0x00000000, []⟩]

def regsOf_mbx : List RegDesc := [
  ⟨"MBX_CTLj", 0, 0x040, 4, 0x100, 0x00000000, 0x000001f0, 0x00000002, 0x00000001, 0x00000000, []⟩,
  ⟨"MBX_CTLj", 1, 0x040, 4, 0x100, 0x00000000, 0x000001f0, 0x00000002, 0x00000001, 0x00000000, []⟩,
  ⟨"MBX_CTLj", 2, 0x040, 4, 0x100, 0x00000000, 0x000001f0, 0x00000002, 0x00000001, 0x00000000, []⟩,
  ⟨"MBX_CTLj", 3, 0x040, 4, 0x100, 0x00000000, 0x000001f0, 0x00000002, 0x00000001, 0x00000000, []⟩,
  ⟨"MBX_CTLj", 4, 0x040, 4, 0x100, 0x00000000, 0x000001f0, 0x00000002, 0x00000001, 0x00000000, []⟩,
  ⟨"MBX_CTLj", 5, 0x040, 4, 0x100, 0x00000000, 0x000001f0, 0x00000002, 0x00000001, 0x00000000, []⟩,
  ⟨"MBX_CTLj", 6, 0x040, 4, 0x100, 0x00000000, 0x000001f0, 0x00000002, 0x00000001, 0x00000000, []⟩,
  ⟨"MBX_CTLj", 7, 0x040, 4, 0x100, 0x00000000, 0x000001f0, 0x00000002, 0x00000001, 0x00000000, []⟩,
  ⟨"MBX_LOCKj", 0, 0x044, 4, 0x100, 0x00000000, 0x0000001f, 0x00000000, 0x00000000, 0x00000000, []⟩,
  ⟨"MBX_LOCKj", 1, 0x044, 4, 0x100, 0x00000000, 0x0000001f, 0x00000000, 0x00000000, 0x00000000, []⟩,
  ⟨"MBX_LOCKj", 2, 0x044, 4, 0x100, 0x00000000, 0x0000001f, 0x00000000, 0x00000000, 0x00000000, []⟩,
  ⟨"MBX_LOCKj", 3, 0x044, 4, 0x100, 0x00000000, 0x0000001f, 0x00000000, 0x00000000, 0x00000000, []⟩,
  ⟨"MBX_LOCKj", 4, 0x044, 4, 0x100, 0x00000000, 0x0000001f, 0x00000000, 0x00000000, 0x00000000, []⟩,
  ⟨"MBX_LOCKj", 5, 0x044, 4, 0x100, 0x00000000, 0x0000001f, 0x00000000, 0x00000000, 0x00000000, []⟩,
  ⟨"MBX_LOCKj", 6, 0x044, 4, 0x100, 0x00000000, 0x0000001f, 0x00000000, 0x00000000, 0x00000000, []⟩,
  ⟨"MBX_LOCKj", 7, 0x044, 4, 0x100, 0x00000000, 0x0000001f, 0x00000000, 0x00000000, 0x00000000, []⟩,
  ⟨"MBX_CFGj", 0, 0x048, 4, 0x100, 0x00000000, 0x0000001f, 0x00000000, 0x00000000, 0x00000000, [(4, 0, 0, 19)]⟩,
  ⟨"MBX_CFGj", 1, 0x048, 4, 0x100, 0x00000000, 0x0000001f, 0x00000000, 0x00000000, 0x00000000, [(4, 0, 0, 19)]⟩,
  ⟨"MBX_CFGj", 2, 0x048, 4, 0x100, 0x00000000, 0x0000001f, 0x00000000, 0x00000000, 0x00000000, [(4, 0, 0, 19)]⟩,
  ⟨"MBX_CFGj", 3, 0x048, 4, 0x100, 0x00000000, 0x0000001f, 0x00000000, 0x00000000, 0x00000000, [(4, 0, 0, 19)]⟩,
  ⟨"MBX_CFGj", 4, 0x048, 4, 0x100, 0x00000000, 0x0000001f, 0x00000000, 0x00000000, 0x00000000, [(4, 0, 0, 19)]⟩,
  ⟨"MBX_CFGj", 5, 0x048, 4, 0x100, 0x00000000, 0x0000001f, 0x00000000, 0x00000000, 0x00000000, [(4, 0, 0, 19)]⟩,
  ⟨"MBX_CFGj", 6, 0x048, 4, 0x100, 0x00000000, 0x0000001f, 0x00000000, 0x00000000, 0x00000000, [(4, 0, 0, 19)]⟩,
  ⟨"MBX_CFGj", 7, 0x048, 4, 0x100, 0x00000000, 0x0000001f, 0x00000000, 0x00000000, 0x00000000, [(4, 0, 0, 19)]⟩,
  ⟨"MBX_DATAj_d", 0, 0x080, 16, 0x4, 0x00000000, 0xffffffff, 0x00000000, 0x00000000, 0x00000000, []⟩,
  ⟨"MBX_DATAj_d", 0, 0x180, 16, 0x4, 0x00000000, 0xffffffff, 0x00000000, 0x00000000, 0x00000000, []⟩,
  ⟨"MBX_DATAj_d", 0, 0x280, 16, 0x4, 0x00000000, 0xffffffff, 0x00000000, 0x00000000, 0x00000000, []⟩,
  ⟨"MBX_DATAj_d", 0, 0x380, 16, 0x4, 0x00000000, 0xffffffff, 0x00000000, 0x00000000, 0x00000000, []⟩,
  ⟨"MBX_DATAj_d", 1, 0x080, 16, 0x4, 0x00000000, 0xffffffff, 0x00000000, 0x00000000, 0x00000000, []⟩,
  ⟨"MBX_DATAj_d", 1, 0x180, 16, 0x4, 0x00000000, 0xffffffff, 0x00000000, 0x00000000, 0x00000000, []⟩,
  ⟨"MBX_DATAj_d", 1, 0x280, 16, 0x4, 0x00000000, 0xffffffff, 0x00000000, 0x00000000, 0x00000000, []⟩,
  ⟨"MBX_DATAj_d", 1, 0x380, 16, 0x4, 0x00000000, 0xffffffff, 0x00000000, 0x00000000, 0x00000000, []⟩,
  ⟨"MBX_DATAj_d", 2, 0x080, 16, 0x4, 0x00000000, 0xffffffff, 0x00000000, 0x00000000, 0x00000000, []⟩,
  ⟨"MBX_DATAj_d", 2, 0x180, 16, 0x4, 0x00000000, 0xffffffff, 0x00000000, 0x00000000, 0x00000000, []⟩,
  ⟨"MBX_DATAj_d", 2, 0x280, 16, 0x4, 0x00000000, 0xffffffff, 0x00000000, 0x00000000, 0x00000000, []⟩,
  ⟨"MBX_DATAj_d", 2, 0x380, 16, 0x4, 0x00000000, 0xffffffff, 0x00000000, 0x00000000, 0x00000000, []⟩,
  ⟨"MBX_DATAj_d", 3, 0x080, 16, 0x4, 0x00000000, 0xffffffff, 0x00000000, 0x00000000, 0x00000000, []⟩,
  ⟨"MBX_DATAj_d", 3, 0x180, 16, 0x4, 0x00000000, 0xffffffff, 0x00000000, 0x00000000, 0x00000000, []⟩,
  ⟨"MBX_DATAj_d", 3, 0x280, 16, 0x4, 0x00000000, 0xffffffff, 0x00000000, 0x00000000, 0x00000000, []⟩,
  ⟨"MBX_DATAj_d", 3, 0x380, 16, 0x4, 0x00000000, 0xffffffff, 0x00000000, 0x00000000, 0x00000000, []⟩,
  ⟨"MBX_DATAj_d", 4, 0x080, 16, 0x4, 0x00000000, 0xffffffff, 0x00000000, 0x00000000, 0x00000000, []⟩,
  ⟨"MBX_DATAj_d", 4, 0x180, 16, 0x4, 0x00000000, 0xffffffff, 0x00000000, 0x00000000, 0x00000000, []⟩,
  ⟨"MBX_DATAj_d", 4, 0x280, 16, 0x4, 0x00000000, 0xffffffff, 0x00000000, 0x00000000, 0x00000000, []⟩,
  ⟨"MBX_DATAj_d", 4, 0x380, 16, 0x4, 0x00000000, 0xffffffff, 0x00000000, 0x00000000, 0x00000000, []⟩,
  ⟨"MBX_DATAj_d", 5, 0x080, 16, 0x4, 0x00000000, 0xffffffff, 0x00000000, 0x00000000, 0x00000000, []⟩,
  ⟨"MBX_DATAj_d", 5, 0x180, 16, 0x4, 0x00000000, 0xffffffff, 0x00000000, 0x00000000, 0x00000000, []⟩,
  ⟨"MBX_DATAj_d", 5, 0x280, 16, 0x4, 0x00000000, 0xffffffff, 0x00000000, 0x00000000, 0x00000000, []⟩,
  ⟨"MBX_DATAj_d", 5, 0x380, 16, 0x4, 0x00000000, 0xffffffff, 0x00000000, 0x00000000, 0x00000000, []⟩,
  ⟨"MBX_DATAj_d", 6, 0x080, 16, 0x4, 0x00000000, 0xffffffff, 0x00000000, 0x00000000, 0x00000000, []⟩,
  ⟨"MBX_DATAj_d", 6, 0x180, 16, 0x4, 0x00000000, 0xffffffff, 0x00000000, 0x00000000, 0x00000000, []⟩,
  ⟨"MBX_DATAj_d", 6, 0x280, 16, 0x4, 0x00000000, 0xffffffff, 0x00000000, 0x00000000, 0x00000000, []⟩,
  ⟨"MBX_DATAj_d", 6, 0x380, 16, 0x4, 0x00000000, 0xffffffff, 0x00000000, 0x00000000, 0x00000000, []⟩,
  ⟨"MBX_DATAj_d", 7, 0x080, 16, 0x4, 0x00000000, 0xffffffff, 0x00000000, 0x00000000, 0x00000000, []⟩,
  ⟨"MBX_DATAj_d", 7, 0x180, 16, 0x4, 0x00000000, 0xffffffff, 0x00000000, 0x00000000, 0x00000000, []⟩,
  ⟨"MBX_DATAj_d", 7, 0x280, 16, 0x4, 0x00000000, 0xffffffff, 0x00000000, 0x00000000, 0x00000000, []⟩,
  ⟨"MBX_DATAj_d", 7, 0x380, 16, 0x4, 0x00000000, 0xffffffff, 0x00000000, 0x00000000, 0x00000000, []⟩]

def regsOf_snw : List RegDesc := [
  ⟨"SNW_DOM_REQ", 0, 0x040, 1, 0x4, 0x00000000, 0x00000000, 0x00000000, 0x00000000, 0x00000000, []⟩,
  ⟨"SNW_DOM_CTL", 0, 0x044, 1, 0x4, 0x000007d0, 0x0000ffff, 0x00000000, 0x00000000, 0x00000000, [(15, 0, 100, 65535)]⟩,
  ⟨"SNW_SUPPLY", 0, 0x048, 1, 0x4, 0x00000001, 0x00000000, 0x00000000, 0x00000000, 0x00000000, []⟩,
  ⟨"SNW_DOM_SEL", 0, 0x04c, 1, 0x4, 0x00000000, 0x0000003f, 0x00000000, 0x00000000, 0x00000000, []⟩,
  ⟨"SNW_DOM_CNT", 0, 0x050, 1, 0x4, 0x00000000, 0x00000000, 0x00000000, 0x00000000, 0xffffffff, []⟩,
  ⟨"SNW_DOM_REFUSER", 0, 0x054, 1, 0x4, 0x00000000, 0x00000000, 0x00000000, 0x00000000, 0x00000000, []⟩,
  ⟨"SNW_DOM_RSN", 0, 0x058, 1, 0x4, 0x00000000, 0x00000000, 0x80000000, 0x00000000, 0x00000000, []⟩,
  ⟨"SNW_DOM_STATEw", 0, 0x060, 3, 0x4, 0x00000000, 0x00000000, 0x00000000, 0x00000000, 0x00000000, []⟩,
  ⟨"SNW_WAKE_EN0", 1, 0x040, 1, 0x4, 0xffffffff, 0xffffffff, 0x00000000, 0x00000000, 0x00000000, []⟩,
  ⟨"SNW_WAKE_EN1", 1, 0x044, 1, 0x4, 0x0000007f, 0x0000007f, 0x00000000, 0x00000000, 0x00000000, []⟩,
  ⟨"SNW_WAKE_LAT0", 1, 0x048, 1, 0x4, 0x00000000, 0x00000000, 0xffffffff, 0x00000000, 0x00000000, []⟩,
  ⟨"SNW_WAKE_LAT1", 1, 0x04c, 1, 0x4, 0x00000000, 0x00000000, 0x0000007f, 0x00000000, 0x00000000, []⟩,
  ⟨"SNW_WAKE_CNT", 1, 0x050, 1, 0x4, 0x00000000, 0x00000000, 0x00000000, 0x00000000, 0xffffffff, []⟩,
  ⟨"SNW_TB_MF", 2, 0x040, 1, 0x4, 0x00000000, 0x00000000, 0x00000000, 0x00000000, 0x00000000, []⟩,
  ⟨"SNW_TB_OFF", 2, 0x044, 1, 0x4, 0x00000000, 0x00000000, 0x00000000, 0x00000000, 0x00000000, []⟩,
  ⟨"SNW_UPTIME", 2, 0x048, 1, 0x4, 0x00000000, 0x00000000, 0x00000000, 0x00000000, 0x00000000, []⟩,
  ⟨"SNW_SMB_STAT", 2, 0x04c, 1, 0x4, 0x0000006a, 0x00000000, 0x00000000, 0x00000000, 0x00000000, []⟩,
  ⟨"SNW_SMB_CNT", 2, 0x050, 1, 0x4, 0x00000000, 0x00000000, 0x00000000, 0x00000000, 0xffffffff, []⟩,
  ⟨"SNW_RST_CTL", 3, 0x040, 1, 0x4, 0x00000000, 0x00000000, 0x00000000, 0x000000ff, 0x00000000, []⟩,
  ⟨"SNW_RST_CNT", 3, 0x044, 1, 0x4, 0x00000000, 0x00000000, 0x00000000, 0x00000000, 0xffffffff, []⟩,
  ⟨"SNW_QUAR", 3, 0x048, 1, 0x4, 0x00000000, 0x00000000, 0x00000000, 0x00000000, 0x00000000, []⟩,
  ⟨"SNW_FAULT", 3, 0x04c, 1, 0x4, 0x00000000, 0x00000000, 0x00008000, 0x00000000, 0x00000000, []⟩,
  ⟨"SNW_FAULT_BLK", 3, 0x050, 1, 0x4, 0x00000000, 0x00000000, 0x00000000, 0x00000000, 0x00000000, []⟩,
  ⟨"SNW_FAULT_MF", 3, 0x054, 1, 0x4, 0x00000000, 0x00000000, 0x00000000, 0x00000000, 0x00000000, []⟩]

def regsOf_nvs : List RegDesc := [
  ⟨"NVS_WEAR_CTL", 0, 0x040, 1, 0x4, 0x00001050, 0x00007f7f, 0x00000000, 0x00000000, 0x00000000, [(6, 0, 1, 99), (14, 8, 1, 63)]⟩,
  ⟨"NVS_WEAR_STAT", 0, 0x044, 1, 0x4, 0x00000000, 0x00000000, 0x00000000, 0x00000000, 0x00000000, []⟩]

def regsOf_mon : List RegDesc := [
  ⟨"MON_CTL", 0, 0x040, 1, 0x4, 0x00080a0c, 0x00ffffff, 0x00000000, 0x00000000, 0x00000000, []⟩,
  ⟨"MON_VALm", 0, 0x080, 47, 0x4, 0x00000000, 0x00000000, 0x00000000, 0x00000000, 0x00000000, []⟩,
  ⟨"MON_LIMm", 1, 0x040, 47, 0x4, 0x00000000, 0xffffffff, 0x00000000, 0x00000000, 0x00000000, []⟩,
  ⟨"MON_CRITi", 1, 0x100, 13, 0x4, 0x00000000, 0x0000ffff, 0x00000000, 0x00000000, 0x00000000, []⟩,
  ⟨"MON_ALERTw", 2, 0x040, 2, 0x4, 0x00000000, 0x00000000, 0x00000000, 0x00000000, 0x00000000, []⟩,
  ⟨"MON_ALERT_ENw", 2, 0x048, 2, 0x4, 0x00000000, 0xffffffff, 0x00000000, 0x00000000, 0x00000000, []⟩]

def regsOf_mnt : List RegDesc := [
  ⟨"MNT_ACT_STAT", 0, 0x040, 1, 0x4, 0x00000000, 0x00000000, 0x00000000, 0x00000000, 0x00000000, []⟩,
  ⟨"MNT_TEL_CTL", 0, 0x044, 1, 0x4, 0x000003e8, 0x0000ffff, 0x00000000, 0x00000000, 0x00000000, [(15, 0, 10, 60000)]⟩,
  ⟨"MNT_TEL_WIN", 0, 0x048, 1, 0x4, 0x00000000, 0x00000000, 0x00000000, 0x00000000, 0x00000000, []⟩,
  ⟨"MNT_SCRUB_CTL", 1, 0x040, 1, 0x4, 0x00000e10, 0x8001ffff, 0x00000000, 0x00000000, 0x00000000, [(16, 0, 60, 86400)]⟩,
  ⟨"MNT_SCRUB_CNT", 1, 0x044, 1, 0x4, 0x00000000, 0x00000000, 0x00000000, 0x00000000, 0xffffffff, []⟩,
  ⟨"MNT_CAL_CTL", 2, 0x040, 1, 0x4, 0x00100258, 0x80ffffff, 0x00000000, 0x00000000, 0x00000000, [(15, 0, 10, 65535), (23, 16, 4, 255)]⟩,
  ⟨"MNT_CAL_CNT", 2, 0x044, 1, 0x4, 0x00000000, 0x00000000, 0x00000000, 0x00000000, 0xffffffff, []⟩,
  ⟨"MNT_TLQ_BASE_LO", 3, 0x040, 1, 0x4, 0x00000000, 0xfffff000, 0x00000000, 0x00000000, 0x00000000, []⟩,
  ⟨"MNT_TLQ_BASE_HI", 3, 0x044, 1, 0x4, 0x00000000, 0xffffffff, 0x00000000, 0x00000000, 0x00000000, []⟩,
  ⟨"MNT_TLQ_SIZE", 3, 0x048, 1, 0x4, 0x00000004, 0x80003f1f, 0x00000000, 0x00000000, 0x00000000, [(4, 0, 4, 16)]⟩,
  ⟨"MNT_TLQ_PI", 3, 0x04c, 1, 0x4, 0x00000000, 0x00000000, 0x00000000, 0x00000000, 0x00000000, []⟩,
  ⟨"MNT_TLQ_CI", 3, 0x050, 1, 0x4, 0x00000000, 0x0001ffff, 0x00000000, 0x00000000, 0x00000000, []⟩,
  ⟨"MNT_TLQ_DROP", 3, 0x054, 1, 0x4, 0x00000000, 0x00000000, 0x00000000, 0x00000000, 0x0000ffff, []⟩]

def regsOf_tmb : List RegDesc := [
  ⟨"TMB_UP_CTL", 0, 0x040, 1, 0x4, 0x00000000, 0x000001f0, 0x00000002, 0x00000001, 0x00000000, []⟩,
  ⟨"TMB_UP_DATAd", 0, 0x080, 16, 0x4, 0x00000000, 0xffffffff, 0x00000000, 0x00000000, 0x00000000, []⟩,
  ⟨"TMB_DN_CTL", 0, 0x0c0, 1, 0x4, 0x00000000, 0x000001f0, 0x00000002, 0x00000001, 0x00000000, []⟩,
  ⟨"TMB_DN_DATAd", 0, 0x100, 16, 0x4, 0x00000000, 0xffffffff, 0x00000000, 0x00000000, 0x00000000, []⟩,
  ⟨"TMB_VIVEL", 0, 0x140, 1, 0x4, 0x00000000, 0x00000000, 0x00000000, 0x00000000, 0x00000000, []⟩,
  ⟨"TMB_DN_LOCK", 0, 0x144, 1, 0x4, 0x00000000, 0x0000001f, 0x00000000, 0x00000000, 0x00000000, []⟩,
  ⟨"TMB_BIND", 0, 0x148, 1, 0x4, 0x00000000, 0x0000013f, 0x00000000, 0x00000000, 0x00000000, []⟩]

/-- The registers of one block. -/
def regsOf : Blk → List RegDesc
  | .hst => regsOf_hst
  | .imu => regsOf_imu
  | .hdma => regsOf_hdma
  | .rng => regsOf_rng
  | .ten => regsOf_ten
  | .ldr => regsOf_ldr
  | .prg => regsOf_prg
  | .pwr => regsOf_pwr
  | .lnk => regsOf_lnk
  | .frm => regsOf_frm
  | .fif => regsOf_fif
  | .rdma => regsOf_rdma
  | .wsc => regsOf_wsc
  | .core => regsOf_core
  | .cic => regsOf_cic
  | .mbx => regsOf_mbx
  | .snw => regsOf_snw
  | .nvs => regsOf_nvs
  | .mon => regsOf_mon
  | .mnt => regsOf_mnt
  | .tmb => regsOf_tmb

/-- The register of block `b` at byte offset `off` of page `p`, if one is defined there. -/
def regDesc? (b : Blk) (p off : Nat) : Option RegDesc :=
  (regsOf b).find? fun d =>
    d.page == p && d.off ≤ off && (off - d.off) % d.stride == 0 && (off - d.off) / d.stride < d.cnt

end Sys2Proof.Machine
end

