-- ==== Sys2Proof/Machine/State.lean ====
section
/-! DEFINITION. The state of the LF128 as plain data, its reset value, and the reasons a command can stop. -/

namespace Sys2Proof.Machine

/-- The host region: rings, transfers, instances, queues and messages (R86-R138, R363-R415). -/
structure HostS where
  /-- Ring contexts, by instance × 32 + context number (R89). -/
  rings : FMap Ring := []
  /-- Ring context cache, most recently used first (R91). -/
  cache : List Nat := []
  /-- Doorbells that wait for their ring's context, oldest first (R91). -/
  dbWait : List (Nat × DbOp) := []
  /-- Context and scan reads that wait for a FETCH channel, in the order in which they arrived, and contexts to be written by one
  (R188). -/
  fetchQ : List HUse := []
  ctxOut : List Nat := []
  /-- The instance served last by descriptor fetch, and the ring served last of each instance (R103). -/
  fetchInst : Nat := 4095
  fetchRing : FMap Nat := []
  /-- Dispatched transfers in dispatch order. -/
  xfers : List Xfer := []
  nextX : Nat := 1
  /-- Transfers finished so far. -/
  nFin : Nat := 0
  /-- Ends of exhaustion so far (R126). -/
  nRel : Nat := 0
  /-- Messages of instances that wait to be issued: instance and entry (R410). -/
  msgWait : List (Nat × Nat) := []
  insts : FMap Inst := []
  /-- Events waiting for EVENT_DELIVERY, oldest first. -/
  evq : List Spill := []
  /-- SPQ entries, oldest first (R113). -/
  spq : List Spill := []
  /-- Whether a walk over SPQ is due (R114). -/
  walkDue : Bool := false
  decust : Decust := {}
  /-- MSI-X mask and pending bits by vector, and table dwords (R372). -/
  msixPend : FMap Bool := []
  commitBusy : Bool := false
  commitGen : Nat := 0
  commitMf : Nat := 0
  commitPast : Bool := false
  /-- Captured staged registers and periodic tables not applied everywhere (R83), and the pages captured. -/
  capRegs : List CapReg := []
  capTabs : List (Nat × FMap PtEnt) := []
  capPages : List Nat := []
  /-- The ports of captured pages that have still to apply the commit: page base and port (R83). -/
  capPorts : List (Nat × Nat) := []
  /-- Pages with STAGED_PEND (R61). -/
  staged : FMap Bool := []
  /-- QCFG_MISMATCH has been set for the mismatch that holds, by region (R172). -/
  mismatch : FMap Bool := []
  deriving DecidableEq, Repr

/-- The port regions (R139-R321). -/
structure UsbS where
  pace : FMap RegPace := []
  ptab : FMap PTab := []
  frame : FMap PFrame := []
  fifo : FMap Fifo := []
  /-- DMA channels, by engine × 32 + channel; engine 0 is the host DMA, engine n + 1 region n's (R186). -/
  dma : FMap Chan2 := []
  /-- The FIFO served last, by region (R189). -/
  rot : FMap Nat := []
  /-- The engine served last at the host link, and the channel of each engine (R194). -/
  linkRot : Nat := 8
  chanRot : FMap Nat := []
  /-- Firmware channels waiting for a DCQ entry, and DCQ entries reserved (R215, R216). -/
  dcqWait : List Nat := []
  dcqRsv : Nat := 0
  ports : FMap Port := []
  power : Power := {}
  /-- CREDIT and the current endpoint's key of each queue, by region × 1,024 + queue (R167, R168). -/
  credit : FMap Nat := []
  curEp : FMap Nat := []
  enums : List Enum := []
  deriving DecidableEq, Repr

/-- The engine region (R322-R362, R416-R469). -/
structure EngS where
  slots : FMap Slot := []
  /-- Device context cache: slots with a cached header, most recently used first (R421). -/
  dcx : List Nat := []
  holly : Holly := {}
  cores : FMap Core := []
  cic : Cic := {}
  mbx : FMap Mbx := []
  /-- The parameter table in force: TABLE_ID and entries of 64 bytes (R339, R340). -/
  tableId : Nat := 0
  table : List (List Byte) := []
  sram : Sram := {}
  /-- Bytes of the cores' local SRAM written since their contents were last loaded or lost, by core × 0x40000 + offset. -/
  lsram : FMap (Option Byte) := []
  /-- How often each core's local SRAM has been loaded or lost. -/
  lsEpoch : FMap Nat := []
  deriving DecidableEq, Repr

/-- A read of an NV register that waits for the writes accepted before it, `left` of them, to become durable (R12, R77). -/
structure RWait where
  org : Origin
  off : Nat
  reg : Nat
  left : Nat
  deriving DecidableEq, Repr

/-- The block: every register, buffer, counter, mode and pin. `nv` alone survives power-on reset (R573). -/
structure Sys where
  nv : NvStore := {}
  /-- Microseconds of the timebase since power-on reset (R24). -/
  tb : Nat := 0
  pins : Pins := {}
  /-- Register contents that are plain storage, by manager-window offset of the dword. -/
  regs : FMap Word := []
  out : List Out := []
  /-- What waits on chip while HOST is not ON (R505), oldest first. -/
  heldOut : List Out := []
  /-- What waits on chip while PASID Enable is clear (R204), oldest first. -/
  heldPasid : List Out := []
  /-- Window accesses that wait behind a held NV write (R49, R75), oldest first. -/
  waitq : List Instr := []
  nvReads : List RWait := []
  doms : FMap Dom := []
  contain : Contain := {}
  ldr : Loader := {}
  mari : Mari := {}
  smb : Smb := {}
  jtag : Jtag := {}
  host : HostS := {}
  usb : UsbS := {}
  eng : EngS := {}
  /-- The model's own: how many free values have been drawn. -/
  fresh : Nat := 0
  deriving DecidableEq, Repr

/-- The machine: the block and the commands that wait, the next one first; whether VIN is in range, outside which Snowdrop is held
in power-on reset (R497), and TESTEN as sampled when it was last left (R588). -/
structure State where
  sys : Sys
  pending : List Instr
  vin : Bool := true
  testen : Bool := false
  deriving DecidableEq, Repr

/-- Why the machine stops. -/
inductive Fault where
  /-- Raised by every command but POWER_ON_RESET_END and VIN_FAIL while the chip is in the factory test mode that a
  TESTEN sampled high selects, in which "no statement of this manual about operation holds" (R588). Safe: the model
  stops where the hardware goes on. -/
  | factoryTest
  deriving DecidableEq, Repr

/-- Why a command has no meaning here. -/
inductive Refusal where
  /-- Raised by the dispatcher alone, for a command without a meaning. Safe. -/
  | notModelled (mnemonic : String)
  deriving DecidableEq, Repr

/-- The chip as Snowdrop leaves power-on reset with COMPAT and TESTEN low and PERST# asserted (R470, R471, R587): every
register at its reset value, all domains OFF, nothing stored, no command waiting. -/
def State.reset : State := { sys := {}, pending := [] }

end Sys2Proof.Machine
end

