-- ==== Sys2Proof/Machine/Operands.lean ====
section
/-! DEFINITION. Operand forms: the windows and register pages of R46-R55 and R70, decoded from offsets. -/

namespace Sys2Proof

/-- Page counts of R52. -/
def Blk.npages : Blk → Nat
  | .hst | .imu | .ldr | .prg | .pwr | .lnk | .fif | .rdma | .core | .tmb => 1
  | .hdma | .rng | .ten | .frm | .cic | .snw | .mon | .mnt => 4
  | .wsc | .mbx => 8
  | .nvs => 5

/-- Type codes of R52. -/
def Blk.type : Blk → Nat
  | .hst => 0x101 | .hdma | .rdma => 0x102 | .rng => 0x103 | .ten => 0x104 | .tmb => 0x105 | .ldr => 0x106
  | .imu => 0x107 | .prg => 0x201 | .frm => 0x202 | .fif => 0x203 | .lnk => 0x204 | .pwr => 0x205 | .wsc => 0x301
  | .cic => 0x302 | .mbx => 0x303 | .core => 0x304 | .snw => 0x401 | .nvs => 0x402 | .mon => 0x403 | .mnt => 0x404

end Sys2Proof

namespace Sys2Proof.Machine

/-- A register page: block, instance of the block (region for the port-region blocks, port for link cells and FIFO
pairs, core, tenant instance; otherwise 0), page number (R52). -/
structure Pg where
  blk : Blk
  inst : Nat
  page : Nat
  deriving DecidableEq, Repr

/-- Start of region `n`'s range (R51). -/
def regionBase (n : Nat) : Nat := 0x100000 + n * 0x100000

/-- Start of port `p`'s region's range. -/
def portBase (p : Nat) : Nat := regionBase (p / 16)

/-- The page's offset in the manager window (R51, R52). -/
def Pg.base (g : Pg) : Nat :=
  match g.blk with
  | .hst => 0
  | .imu => 0x1000
  | .hdma => 0x2000 + g.page * 0x1000
  | .rng => 0x8000 + g.page * 0x1000
  | .ten => 0x10000 + g.page * 0x1000
  | .ldr => 0x18000
  | .prg => regionBase g.inst
  | .pwr => regionBase g.inst + 0x1000
  | .lnk => portBase g.inst + 0x10000 + (g.inst % 16) * 0x1000
  | .frm => regionBase g.inst + 0x20000 + g.page * 0x1000
  | .fif => portBase g.inst + 0x30000 + (g.inst % 16) * 0x1000
  | .rdma => regionBase g.inst + 0x40000
  | .wsc => 0x900000 + g.page * 0x1000
  | .core => 0x910000 + g.inst * 0x1000
  | .cic => 0x920000 + g.page * 0x1000
  | .mbx => 0x930000 + g.page * 0x1000
  | .snw => 0xA00000 + g.page * 0x1000
  | .nvs => 0xA10000 + g.page * 0x1000
  | .mon => 0xA20000 + g.page * 0x1000
  | .mnt => 0xA30000 + g.page * 0x1000
  | .tmb => 0x1000000 + g.inst * 0x1000

/-- The page of a block's list at offset `d` from the block's first page, if there is one. -/
def pageIn (b : Blk) (inst d : Nat) : Option Pg := if d / 0x1000 < b.npages then some ⟨b, inst, d / 0x1000⟩ else none

/-- The page at an offset of the manager window; `none` where no page with a common header lies (R51, R52). -/
def Pg.ofOff (off : Nat) : Option Pg :=
  if off < 0x100000 then
    if off < 0x1000 then some ⟨.hst, 0, 0⟩
    else if off < 0x2000 then some ⟨.imu, 0, 0⟩
    else if off < 0x6000 then pageIn .hdma 0 (off - 0x2000)
    else if 0x8000 ≤ off ∧ off < 0xC000 then pageIn .rng 0 (off - 0x8000)
    else if 0x10000 ≤ off ∧ off < 0x14000 then pageIn .ten 0 (off - 0x10000)
    else if 0x18000 ≤ off ∧ off < 0x19000 then some ⟨.ldr, 0, 0⟩
    else none
  else if off < 0x900000 then
    let n := off / 0x100000 - 1
    let d := off % 0x100000
    if d < 0x1000 then some ⟨.prg, n, 0⟩
    else if d < 0x2000 then some ⟨.pwr, n, 0⟩
    else if 0x10000 ≤ d ∧ d < 0x20000 then some ⟨.lnk, 16 * n + (d - 0x10000) / 0x1000, 0⟩
    else if 0x20000 ≤ d ∧ d < 0x24000 then pageIn .frm n (d - 0x20000)
    else if 0x30000 ≤ d ∧ d < 0x40000 then some ⟨.fif, 16 * n + (d - 0x30000) / 0x1000, 0⟩
    else if 0x40000 ≤ d ∧ d < 0x41000 then some ⟨.rdma, n, 0⟩
    else none
  else if off < 0xA00000 then
    let d := off - 0x900000
    if d < 0x8000 then pageIn .wsc 0 d
    else if 0x10000 ≤ d ∧ d < 0x20000 then some ⟨.core, (d - 0x10000) / 0x1000, 0⟩
    else if 0x20000 ≤ d ∧ d < 0x24000 then pageIn .cic 0 (d - 0x20000)
    else if 0x30000 ≤ d ∧ d < 0x38000 then pageIn .mbx 0 (d - 0x30000)
    else none
  else if off < 0xB00000 then
    let d := off - 0xA00000
    if d < 0x4000 then pageIn .snw 0 d
    else if 0x10000 ≤ d ∧ d < 0x15000 then pageIn .nvs 0 (d - 0x10000)
    else if 0x20000 ≤ d ∧ d < 0x24000 then pageIn .mon 0 (d - 0x20000)
    else if 0x30000 ≤ d ∧ d < 0x34000 then pageIn .mnt 0 (d - 0x30000)
    else none
  else if 0x1000000 ≤ off ∧ off < 0x2000000 then some ⟨.tmb, (off - 0x1000000) / 0x1000, 0⟩
  else none

/-- The power domain of a page's block (R17, R52, R70); 63 for the always-on island. -/
def Pg.dom (g : Pg) : Nat :=
  match g.blk with
  | .hst | .imu | .hdma | .rng | .ten | .ldr | .tmb => 16
  | .prg | .pwr | .frm | .rdma => g.inst
  | .fif => g.inst / 16
  | .lnk => 8 + g.inst / 16
  | .wsc | .cic | .mbx => 17
  | .core => 18 + g.inst
  | .snw | .nvs | .mon | .mnt => 63

/-- The region of a page, encoded as in R58. -/
def Pg.region (g : Pg) : Nat :=
  match g.blk with
  | .hst | .imu | .hdma | .rng | .ten | .ldr | .tmb => 8
  | .prg | .pwr | .frm | .rdma => g.inst
  | .fif | .lnk => g.inst / 16
  | .wsc | .cic | .mbx | .core => 9
  | .snw | .nvs | .mon | .mnt => 10

/-- BLK_ID.INST (R58). -/
def Pg.idInst (g : Pg) : Nat :=
  match g.blk with
  | .lnk | .fif => g.inst % 16
  | .core | .tmb => g.inst
  | _ => 0

/-- BLK_ID of a page (R58). -/
def Pg.blkId (g : Pg) : Word :=
  Word.ofN (g.blk.type + g.idInst * 2 ^ 12 + g.page * 2 ^ 24 + g.region * 2 ^ 28)

/-- The block's first page: the one whose ERR_STAT and halt stand for the block. -/
def Pg.first (g : Pg) : Pg := { g with page := 0 }

/-- Whether the page holds staged registers (R60, R138, R184). -/
def Pg.stagedPage (g : Pg) : Bool :=
  match g.blk with
  | .rng => g.page == 1
  | .frm => decide (1 ≤ g.page)
  | _ => false

/-- Page 0 of port `p`'s link cell. -/
def lnkPg (p : Nat) : Pg := ⟨.lnk, p, 0⟩
/-- Port `p`'s FIFO page. -/
def fifPg (p : Nat) : Pg := ⟨.fif, p, 0⟩
/-- Page `i` of region `n`'s frame engine. -/
def frmPg (n i : Nat) : Pg := ⟨.frm, n, i⟩
/-- Region `n`'s port power controller page. -/
def pwrPg (n : Nat) : Pg := ⟨.pwr, n, 0⟩
/-- Page `i` of a host, engine or island block. -/
def onePg (b : Blk) (i : Nat) : Pg := ⟨b, 0, i⟩

/-- What an access reaches (R46-R56). -/
inductive Target where
  | page (g : Pg) (o : Nat)
  | msix (o : Nat)
  | pba (o : Nat)
  | db (i o : Nat)
  | ringStat (i o : Nat)
  | mbox (i o : Nat)
  | msgs (i o : Nat)
  | image (o : Nat)
  | none
  deriving DecidableEq, Repr

/-- The bytes of the window behind base address register 0, 2 or 4 (R46). -/
def winSize (bar : Nat) : Nat := if bar = 0 then 33554432 else if bar = 2 then 67108864 else 8388608

/-- The base in register 0, 2 or 4. -/
def Sys.barBase (y : Sys) (bar : Nat) : Nat := if bar = 0 then y.pins.bar0 else if bar = 2 then y.pins.bar2 else y.pins.bar4

/-- Base address register `k` as configuration software reads it (R46): a 64-bit, non-prefetchable memory window occupies an
even register, whose bits 3:0 say so, and the one above it. -/
def Sys.barDw (y : Sys) (k : Nat) : Word :=
  let b := k / 2 * 2
  let base := y.barBase b / winSize b * winSize b
  if k % 2 = 0 then Word.ofN (base % 4294967296 + 4) else Word.ofN (base / 4294967296)

/-- The window and the offset in it that a host address falls in (R46). -/
def Sys.winAt (y : Sys) (a : Nat) : Option (Origin × Nat) :=
  let hit := fun (b : Nat) => decide (y.barBase b ≤ a) && decide (a < y.barBase b + winSize b)
  if hit 0 then some (.manager, a - y.barBase 0)
  else if hit 2 then some (.tenant, a - y.barBase 2)
  else if hit 4 then some (.loader, a - y.barBase 4)
  else none

/-- What an offset of a window names (R51-R55); a core and the SMBus target use manager-window offsets (R416, R550). -/
def target (org : Origin) (off : Nat) : Target :=
  match org with
  | .tenant =>
    let i := off / 0x4000
    let d := off % 0x4000
    if d < 0x1000 then .db i d
    else if d < 0x2000 then .ringStat i (d - 0x1000)
    else if d < 0x3000 then .mbox i (d - 0x2000)
    else .msgs i (d - 0x3000)
  | .loader =>
    if off < 0x600000 then .image off
    else if 0x700000 ≤ off ∧ off < 0x701000 then .page ⟨.ldr, 0, 0⟩ (off - 0x700000)
    else .none
  | .smbus =>
    if 0xA00000 ≤ off ∧ off < 0xB00000 then
      match Pg.ofOff off with
      | some g => .page g (off % 0x1000)
      | none => .none
    else .none
  | _ =>
    if 0xFE000 ≤ off ∧ off < 0xFF000 then .msix (off - 0xFE000)
    else if 0xFF000 ≤ off ∧ off < 0x100000 then .pba (off - 0xFF000)
    else
      match Pg.ofOff off with
      | some g => .page g (off % 0x1000)
      | none => .none

/-- Byte address of context `n` of instance `i` in the ring tables' numbering (R89). -/
def ringKey (i n : Nat) : Nat := i * 32 + n

/-- USB endpoint number of an EPID (R93). -/
def epNum (e : Nat) : Nat := if e ≤ 15 then e else e - 15

/-- Whether an EPID is an IN endpoint (R93). -/
def epIn (e : Nat) : Bool := decide (16 ≤ e)

/-- The EPID of a USB endpoint address (R93). -/
def epidOf (addr : Nat) : Nat := if addr % 16 == 0 then 0 else if addr / 128 == 1 then 15 + addr % 16 else addr % 16

/-- TIERPOS depth (R289). -/
def tierDepth (t : Nat) : Nat := (t / 2 ^ 25) % 8

/-- The downstream port at depth `d` of a TIERPOS (R289). -/
def tierPort (t d : Nat) : Nat := (t / 2 ^ (5 * d)) % 32

/-- The TIERPOS of downstream port `p` of the hub at `t` (R289). -/
def tierDown (t p : Nat) : Nat :=
  let d := tierDepth t
  (t % 2 ^ 25) + p * 2 ^ (5 * d) + (d + 1) * 2 ^ 25

/-- The TIERPOS of the hub above `t` (R289). -/
def tierUp (t : Nat) : Nat :=
  let d := tierDepth t
  if d == 0 then 0 else (t % 2 ^ 25) % 2 ^ (5 * (d - 1)) + (d - 1) * 2 ^ 25

/-- Whether `t` lies below (or at) position `a` on one tree. -/
def tierUnder (a t : Nat) : Bool :=
  let d := tierDepth a
  decide (d ≤ tierDepth t) && (t % 2 ^ (5 * d) == a % 2 ^ (5 * d))

/-- The address of an index-based queue's index register pair: entries in use (R136). -/
def inUse (size pi ci : Nat) : Nat :=
  let lin := fun (r : Nat) => (r / 65536) % 2 * size + r % 65536
  (lin pi + 2 * size - lin ci) % (2 * size)

/-- Whether a write of `v` to an index register breaks R136: an index beyond the queue, or more entries in use than its size
(fewer than zero reads so too, modulo twice the size). -/
def qBad (size pi ci v : Nat) : Bool := decide (size ≤ v % 65536) || decide (size < inUse size pi ci)

/-- An index register advanced by one entry (R136). -/
def advIdx (size r : Nat) : Nat :=
  let i := r % 65536 + 1
  let w := (r / 65536) % 2
  if i = size then (1 - w) * 65536 else w * 65536 + i

end Sys2Proof.Machine
end

