-- ==== Sys2Proof/Machine/Ops.lean ====
section
/-! DEFINITION. The named operations every meaning is built from: when a command acts at all, the timebase, register
storage, and what leaves the chip. -/

namespace Sys2Proof.Machine

/-- A command's outcome: nothing operates in the factory test mode (R588); while VIN is out of range Snowdrop is held
in power-on reset and nothing happens (R497). -/
def live (s : State) (t : State) : Host.Outcome State Fault Refusal :=
  if s.testen then .fault .factoryTest
  else if s.vin then .next t
  else .next s

/-- The outcome of a command whose effect on the block is `f`. -/
def liveSys (s : State) (f : Sys → Sys) : Host.Outcome State Fault Refusal :=
  live s { s with sys := f s.sys }

/-- Apply an operation to each element of a list, first to last. -/
def each {α : Type} (f : α → Sys → Sys) : List α → Sys → Sys
  | [], y => y
  | a :: r, y => each f r (f a y)

/-- Apply an operation where a condition holds. -/
def onlyIf (c : Bool) (f : Sys → Sys) (y : Sys) : Sys := if c then f y else y

/-- FRAME_STAMP's microframe count (R15, R24). -/
def Sys.mf (y : Sys) : Nat := (y.tb / 125) % 4294967296

/-- FRAME_STAMP's offset (R15). -/
def Sys.us (y : Sys) : Nat := y.tb % 125

/-- A saturating count. -/
def satInc (top n : Nat) : Nat := if n < top then n + 1 else top

/-! ## Register storage -/

/-- The reset values of the monitors' thresholds (R556, R597; monitor 14's from R605). A temperature counts 0.25 °C. -/
def monReset (m : Nat) : Word :=
  let lh := fun (lo hi : Nat) => Word.ofN (lo + hi * 65536)
  if m < 13 then (if Config.commercial then lh 0xFFEC 360 else lh 0xFF4C 400)
  else if m = 13 then lh 600 4000
  else if m = 14 ∨ m = 27 ∨ m = 28 ∨ m = 36 then lh 1710 1890
  else if m < 27 then lh 600 900
  else if m < 33 then lh 3135 3465
  else if m < 36 then lh 855 945
  else lh 72 255

/-- The reset value of the register at offset `o` of a page (R11; R188 and R447 give two by channel and by source; a
vector's mask bit is set at reset as PCIe has it). -/
def regReset (off : Nat) : Word :=
  let o := off % 0x1000
  if 0xFE000 ≤ off ∧ off < 0xFE400 then (if off % 16 == 12 then 1 else 0)
  else
    match Pg.ofOff off with
    | none => 0
    | some g =>
      if o == 0x1C then 1
      else
        let sh := if g.stagedPage && decide (0x840 ≤ o) then o - 0x800 else o
        match g.blk with
        | .hdma =>
          if 0x40 ≤ o ∧ o < 0x240 ∧ o % 0x40 == 0 then
            (match g.page with | 0 => 1 | 1 => 0 | 2 => 2 | _ => 3)
          else
            match regDesc? .hdma g.page o with
            | some d => Word.ofN d.reset
            | none => 0
        | .mon =>
          if g.page == 1 && decide (0x40 ≤ o) && decide (o < 0xFC) then monReset ((o - 0x40) / 4)
          else if g.page == 1 && decide (0x100 ≤ o) && decide (o < 0x134) then
            (if Config.commercial then 380 else 420)
          else
            match regDesc? .mon g.page o with
            | some d => Word.ofN d.reset
            | none => 0
        | .cic =>
          if (g.page == 2 || g.page == 3) && decide (0x40 ≤ o) && decide (o < 0x440) then
            let s := (g.page - 2) * 256 + (o - 0x40) / 4
            let edge := s == 13 || s == 15 || s == 16 || (decide (32 ≤ s) && decide (s < 80))
            let real := decide (s ≤ 16) || (decide (32 ≤ s) && decide (s < 80)) || (decide (128 ≤ s) && decide (s < 320))
            if real then (if edge then 0xFFFF0004 else 0xFFFF0000) else 0
          else 0
        | _ =>
          match regDesc? g.blk g.page sh with
          | some d => Word.ofN d.reset
          | none => 0

/-- A stored register, by manager-window offset. -/
def Sys.reg (y : Sys) (off : Nat) : Word := FMap.get (regReset off) off y.regs

/-- Store a register. -/
def Sys.setReg (off : Nat) (v : Word) (y : Sys) : Sys := { y with regs := FMap.put (regReset off) off v y.regs }

/-- The register at offset `o` of a page. -/
def Sys.pgReg (y : Sys) (g : Pg) (o : Nat) : Word := y.reg (g.base + o)

/-- Store the register at offset `o` of a page. -/
def Sys.setPg (g : Pg) (o : Nat) (v : Word) (y : Sys) : Sys := y.setReg (g.base + o) v

/-- Set a field of a page's register. -/
def Sys.setFld (g : Pg) (o hi lo v : Nat) (y : Sys) : Sys := y.setPg g o ((y.pgReg g o).put hi lo v)

/-- Count one up in a saturating field (the RC fields). -/
def Sys.incFld (g : Pg) (o hi lo : Nat) (y : Sys) : Sys :=
  y.setFld g o hi lo (satInc (2 ^ (hi - lo + 1) - 1) ((y.pgReg g o).fld hi lo))

/-- Set one bit of a page's register. -/
def Sys.setBit (g : Pg) (o b : Nat) (y : Sys) : Sys := y.setFld g o b b 1

/-- Every register of the pages that satisfy `p` returns to its reset value. -/
def Sys.resetPages (p : Pg → Bool) (y : Sys) : Sys :=
  { y with regs := y.regs.filter fun e => match Pg.ofOff e.1 with | some g => !(p g) | none => true }

/-! ## Domains -/

/-- A domain's record. -/
def Sys.dom (y : Sys) (d : Nat) : Dom := FMap.get {} d y.doms

/-- Change a domain's record. -/
def Sys.updDom (d : Nat) (f : Dom → Dom) (y : Sys) : Sys := { y with doms := FMap.upd {} d f y.doms }

/-- Whether a domain is ON, its transitions ended; 63 is the always-on island (R70, R502). -/
def Sys.on (y : Sys) (d : Nat) : Bool := d == 63 || ((y.dom d).st == .on && (y.dom d).trans == .none)

/-- Whether HOST is ON (R505). -/
def Sys.hostOn (y : Sys) : Bool := y.on 16

/-- PWR_VIEW.STATE (R69, R508): 3 in transition. -/
def Sys.domCode (y : Sys) (d : Nat) : Nat :=
  if d == 63 then 2
  else if (y.dom d).trans != .none then 3
  else match (y.dom d).st with | .off => 0 | .ret => 1 | .on => 2

/-- A domain state's code (R69). -/
def DomSt.code : DomSt → Nat
  | .off => 0 | .ret => 1 | .on => 2

/-! ## What leaves the chip -/

/-- Whether an output goes to host memory or is a message to the host. -/
def Out.hostBound : Out → Bool
  | .mem .. | .msg .. | .rd .. | .msix _ => true
  | _ => false

/-- The instance whose PASID an output carries. -/
def Out.pasid : Out → Option Nat
  | .mem x .. | .rd x .. => x.map (·.inst)
  | .msg x .. => some x.inst
  | _ => none

/-- An output: after a chip fault nothing host-bound leaves (R566); while HOST is not ON it waits (R505); while PASID
Enable is clear, what carries a PASID waits (R204). -/
def Sys.emit (o : Out) (y : Sys) : Sys :=
  if o.hostBound then
    if y.contain.chipFault then y
    else if !y.hostOn then { y with heldOut := y.heldOut ++ [o] }
    else if o.pasid.isSome && !y.pins.pasidEn then { y with heldPasid := y.heldPasid ++ [o] }
    else { y with out := o :: y.out }
  else { y with out := o :: y.out }

/-- Release what waited for PASID Enable, in order. -/
def Sys.releasePasid (y : Sys) : Sys := each (fun o y => y.emit o) y.heldPasid { y with heldPasid := [] }

/-- The bytes of dwords, little-endian (R8). -/
def dwBytes : List Word → List Byte
  | [] => []
  | w :: r => w.byte 0 :: w.byte 1 :: w.byte 2 :: w.byte 3 :: dwBytes r

/-- The dwords of bytes, little-endian; a last part is filled up with zeros. -/
def byteDws : List Byte → List Word
  | [] => []
  | [a] => [Word.ofN (leNat [a])]
  | [a, b] => [Word.ofN (leNat [a, b])]
  | [a, b, c] => [Word.ofN (leNat [a, b, c])]
  | a :: b :: c :: d :: r => Word.ofN (leNat [a, b, c, d]) :: byteDws r

/-- Byte `i` of a list, 0 beyond its end. -/
def byteAt (l : List Byte) (i : Nat) : Byte := l.getD i 0

/-- The little-endian half-word at byte `i`. -/
def half (l : List Byte) (i : Nat) : Nat := (byteAt l i).toNat + 256 * (byteAt l (i + 1)).toNat

/-- Send MSI-X vector `v`, or set its pending bit while it is masked (R372). It counts when it is issued (R410). -/
def Sys.msix (v : Nat) (y : Sys) : Sys :=
  if (y.reg (0xFE000 + 16 * v + 12)).bit 0 then
    { y with host := { y.host with msixPend := FMap.put false v true y.host.msixPend } }
  else (if y.hostOn && !y.contain.chipFault then y.incFld (onePg .imu 0) 0x44 31 16 else y).emit (.msix v)

/-- Release what waited for HOST, in order; an MSI-X message is judged anew and counts now (R410). -/
def Sys.releaseHost (y : Sys) : Sys :=
  each (fun (o : Out) (y : Sys) => match o with | .msix v => y.msix v | _ => y.emit o) y.heldOut { y with heldOut := [] }

/-! ## Host-region records -/

/-- An instance. -/
def Sys.inst (y : Sys) (i : Nat) : Inst := FMap.get {} i y.host.insts
/-- The PASID prefix of what is issued for an instance (R203). -/
def Sys.pfx (y : Sys) (i : Option Nat) : Option Pfx := i.map fun n => { inst := n, pasid := (y.inst n).pasid }
/-- Change an instance. -/
def Sys.updInst (i : Nat) (f : Inst → Inst) (y : Sys) : Sys :=
  { y with host := { y.host with insts := FMap.upd {} i f y.host.insts } }
/-- A ring context. -/
def Sys.ring (y : Sys) (k : Nat) : Ring := FMap.get {} k y.host.rings
/-- Change a ring context. -/
def Sys.updRing (k : Nat) (f : Ring → Ring) (y : Sys) : Sys :=
  { y with host := { y.host with rings := FMap.upd {} k f y.host.rings } }
/-- Change the dispatched transfers. -/
def Sys.mapX (f : Xfer → Xfer) (y : Sys) : Sys := { y with host := { y.host with xfers := y.host.xfers.map f } }
/-- Change one transfer. -/
def Sys.updX (id : Nat) (f : Xfer → Xfer) (y : Sys) : Sys := y.mapX fun x => if x.id == id then f x else x
/-- A transfer. -/
def Sys.xfer? (y : Sys) (id : Nat) : Option Xfer := y.host.xfers.find? fun x => x.id == id
/-- Change the Decust unit. -/
def Sys.updDec (f : Decust → Decust) (y : Sys) : Sys := { y with host := { y.host with decust := f y.host.decust } }

/-! ## USB-side and engine records -/

/-- A root port. -/
def Sys.port (y : Sys) (p : Nat) : Port := FMap.get {} p y.usb.ports
/-- Change a root port. -/
def Sys.updPort (p : Nat) (f : Port → Port) (y : Sys) : Sys :=
  { y with usb := { y.usb with ports := FMap.upd {} p f y.usb.ports } }
/-- A port's frame state. -/
def Sys.frame (y : Sys) (p : Nat) : PFrame := FMap.get {} p y.usb.frame
/-- Change a port's frame state. -/
def Sys.updFrame (p : Nat) (f : PFrame → PFrame) (y : Sys) : Sys :=
  { y with usb := { y.usb with frame := FMap.upd {} p f y.usb.frame } }
/-- A port's staging FIFOs. -/
def Sys.fifo (y : Sys) (p : Nat) : Fifo := FMap.get {} p y.usb.fifo
/-- Change a port's staging FIFOs. -/
def Sys.updFifo (p : Nat) (f : Fifo → Fifo) (y : Sys) : Sys :=
  { y with usb := { y.usb with fifo := FMap.upd {} p f y.usb.fifo } }
/-- A port's periodic tables. -/
def Sys.ptab (y : Sys) (p : Nat) : PTab := FMap.get {} p y.usb.ptab
/-- Change a port's periodic tables. -/
def Sys.updPtab (p : Nat) (f : PTab → PTab) (y : Sys) : Sys :=
  { y with usb := { y.usb with ptab := FMap.upd {} p f y.usb.ptab } }
/-- A region's pace. -/
def Sys.pace (y : Sys) (n : Nat) : RegPace := FMap.get {} n y.usb.pace
/-- A DMA channel, by engine and channel. -/
def Sys.chan (y : Sys) (e c : Nat) : Chan2 := FMap.get {} (e * 32 + c) y.usb.dma
/-- Change a DMA channel. -/
def Sys.updChan (e c : Nat) (f : Chan2 → Chan2) (y : Sys) : Sys :=
  { y with usb := { y.usb with dma := FMap.upd {} (e * 32 + c) f y.usb.dma } }
/-- Change the power ledger. -/
def Sys.updPower (f : Power → Power) (y : Sys) : Sys := { y with usb := { y.usb with power := f y.usb.power } }
/-- Change the enumerations. -/
def Sys.updEnums (f : List Enum → List Enum) (y : Sys) : Sys :=
  { y with usb := { y.usb with enums := f y.usb.enums } }
/-- A device slot. -/
def Sys.slot (y : Sys) (n : Nat) : Slot := FMap.get {} n y.eng.slots
/-- Change a device slot. -/
def Sys.updSlot (n : Nat) (f : Slot → Slot) (y : Sys) : Sys :=
  { y with eng := { y.eng with slots := FMap.upd {} n f y.eng.slots } }
/-- Change an endpoint of a slot. -/
def Sys.updEp (n e : Nat) (f : Ep → Ep) (y : Sys) : Sys :=
  y.updSlot n fun s => { s with eps := FMap.upd {} e f s.eps }
/-- An endpoint of a slot. -/
def Slot.ep (s : Slot) (e : Nat) : Ep := FMap.get {} e s.eps
/-- The device of a transfer: that of its slot, or, for a control transfer that the chip issues, the device as it stands then
(R145). -/
def Sys.devOf (y : Sys) (x : Xfer) : Slot :=
  match x.chip with
  | none => y.slot x.slot
  | some d =>
    { y.slot x.slot with
      port := x.port, tier := d.tier, addr := d.addr, speed := d.speed, hub := d.hub, hubPort := d.hubPort,
      eps := [(0, { open_ := true, active := true, ty := .control, mps := d.mps, tog := d.tog, ping := d.ping })] }
/-- The endpoint of a transfer. -/
def Sys.epOf (y : Sys) (x : Xfer) : Ep := (y.devOf x).ep x.epid
/-- Change the endpoint of a transfer: its toggle and PING state where the chip issues the transfer. -/
def Sys.updEpX (x : Xfer) (f : Ep → Ep) (y : Sys) : Sys :=
  match x.chip with
  | none => y.updEp x.slot x.epid f
  | some d => y.updX x.id fun z => { z with chip := some { d with tog := (f (y.epOf x)).tog, ping := (f (y.epOf x)).ping } }
/-- Change a slot's personality. -/
def Sys.updPers (n : Nat) (f : Pers → Pers) (y : Sys) : Sys := y.updSlot n fun s => { s with pers := f s.pers }
/-- A core. -/
def Sys.core (y : Sys) (c : Nat) : Core := FMap.get {} c y.eng.cores
/-- Change a core. -/
def Sys.updCore (c : Nat) (f : Core → Core) (y : Sys) : Sys :=
  { y with eng := { y.eng with cores := FMap.upd {} c f y.eng.cores } }
/-- Change Hollyhock. -/
def Sys.updHolly (f : Holly → Holly) (y : Sys) : Sys := { y with eng := { y.eng with holly := f y.eng.holly } }
/-- Change a CIC source. -/
def Sys.updSrc (n : Nat) (f : CSrc → CSrc) (y : Sys) : Sys :=
  { y with eng := { y.eng with cic := { y.eng.cic with src := FMap.upd {} n f y.eng.cic.src } } }
/-- A CIC source. -/
def Sys.csrc (y : Sys) (n : Nat) : CSrc := FMap.get {} n y.eng.cic.src
/-- Change Marigold. -/
def Sys.updMari (f : Mari → Mari) (y : Sys) : Sys := { y with mari := f y.mari }
/-- The slots on a port's tree, ascending. -/
def Sys.slotsOf (y : Sys) (p : Nat) : List Nat :=
  (y.eng.slots.filter fun e => e.2.used && e.2.port == p).map (·.1)

/-- The 64-bit number in two registers. -/
def lohi (lo hi : Word) : Nat := lo.toNat + hi.toNat * 4294967296

/-- The value of a durable NV register (R73, R74: register 284 ships as 0x6A, every other as 0). -/
def NvStore.get (s : NvStore) (j : Nat) : Word := FMap.get (if j = 284 then 0x6A else 0) j s.val

/-- The value of a register's last accepted write (R77). -/
def NvStore.last (s : NvStore) (j : Nat) : Word :=
  match s.bufs.reverse.find? fun w => w.reg == j with
  | some w => w.val
  | none => s.get j

end Sys2Proof.Machine
end

