-- ==== Sys2Proof/Machine/Flags.lean ====
section
/-! DEFINITION. The error flags of every page: recording a cause (R63-R67), forwarding it (R562), AER (R567), and the
status computations built on them. -/

namespace Sys2Proof.Machine

/-- The region whose HST_ERR_SUM bit a page's cause sets (R58). -/
def errRegionOf (off : Nat) : Option Nat :=
  if off % 0x1000 == 0x18 then (Pg.ofOff off).map Pg.region else none

/-- Whether the page whose ERR_STAT lies at `off` with value `v` has a cause that ERR_MASK does not mask. -/
def Sys.unmasked (y : Sys) (off : Nat) (v : Word) : Bool := (v &&& ~~~(y.reg (off + 4))) != 0

/-- Whether page `g` has a forwarded cause. -/
def Sys.pgErr (y : Sys) (g : Pg) : Bool := y.unmasked (g.base + 0x18) (y.pgReg g 0x18)

/-- HST_ERR_SUM.REGION (R562, R574). -/
def Sys.errSum (y : Sys) : Nat :=
  y.regs.foldl (fun a e =>
    match errRegionOf e.1 with
    | some r => if y.unmasked e.1 e.2 then a ||| 2 ^ r else a
    | none => a) 0

/-- The error message of R562: a bit of HST_ERR_SUM has gone from 0 to 1 since `before` and HST_ERR_CTL.EN is 1. -/
def Sys.errNotify (before : Nat) (y : Sys) : Sys :=
  let ctl := y.pgReg (onePg .hst 0) 0x4C
  if (y.errSum ||| before) != before && ctl.bit 8 then y.msix (ctl.fld 5 0) else y

/-- The bit of the AER status registers that an error sets (PCIe Base 4.0's places; PRESUMED, log 9). -/
def Aer.bit : Aer → Nat
  | .receiver => 0 | .badTlp => 6 | .badDllp => 7 | .replayRollover => 8 | .replayTimeout => 12
  | .correctedInternal => 14 | .poisonedTlp => 12 | .completionTimeout => 14 | .unexpectedCompletion => 16
  | .malformedTlp => 18 | .unsupportedRequest => 20 | .uncorrectableInternal => 22

/-- Whether an error is logged among the correctable ones. -/
def Aer.cor : Aer → Bool
  | .receiver | .badTlp | .badDllp | .replayRollover | .replayTimeout | .correctedInternal => true
  | _ => false

/-- The report of R567: an Advisory Non-Fatal error is reported as ERR_COR. -/
def Aer.report : Aer → Sev
  | .malformedTlp | .uncorrectableInternal => .fatal
  | _ => .cor

/-- Log an error in AER and report it (R567). An advisory error sets the Advisory Non-Fatal status (bit 13) too. -/
def Sys.aer (e : Aer) (y : Sys) : Sys :=
  let p := y.pins
  let p := if e.cor then { p with aerCor := p.aerCor ||| 2 ^ e.bit }
    else { p with aerUnc := p.aerUnc ||| 2 ^ e.bit,
                  aerCor := if e.report = .cor then p.aerCor ||| 2 ^ 13 else p.aerCor }
  { y with pins := p, out := .aer e e.report :: y.out }

/-- Latch the first cause (R65, R66): only while VALID is 0. -/
def Sys.latchFirst (g : Pg) (bit detail : Nat) (y : Sys) : Sys :=
  if (y.pgReg g 0x20).bit 15 then y
  else (y.setPg g 0x20 (Word.ofN (bit % 32 + (y.us % 128) * 256 + 32768 + (detail % 65536) * 65536))).setPg g 0x2C
    (Word.ofN y.mf)

/-- Record cause `bit` in a page's ERR_STAT, ERR_FIRST and ERR_CNT, forward it, and report a corrected error through
AER while HST_ERR_CTL.CIE_EN is 1 (R63-R67, R562, R567). -/
def Sys.recordErr (g : Pg) (bit detail : Nat) (y : Sys) : Sys :=
  let before := y.errSum
  let y := (((y.setBit g 0x18 bit).latchFirst g bit detail).incFld g 0x24 15 0)
  let y := if bit = 0 then y.incFld g 0x24 31 16 else y
  let y := if bit = 0 && (y.pgReg (onePg .hst 0) 0x4C).bit 9 then y.aer .correctedInternal else y
  y.errNotify before

/-- A configuration write was refused: CFG (R63). -/
def Sys.cfgErr (g : Pg) (y : Sys) : Sys := y.recordErr g 3 0
/-- As `cfgErr`, with a detail. -/
def Sys.cfgErrD (g : Pg) (d : Nat) (y : Sys) : Sys := y.recordErr g 3 d
/-- An access broke R47 or wrote what accepts only reads: ACCESS (R63). -/
def Sys.accErr (g : Pg) (y : Sys) : Sys := y.recordErr g 4 0

/-- The key under which a block's halt is kept: its first page. -/
def Pg.haltKey (g : Pg) : Nat := g.first.base

/-- Whether a page's block has halted (R560). -/
def Sys.halted (y : Sys) (g : Pg) : Bool := FMap.get false g.haltKey y.contain.halted

/-- Whether region `r` (R58) is quarantined. -/
def Sys.quar (y : Sys) (r : Nat) : Bool := FMap.get false r y.contain.quar

/-- Whether port region `n` works: PRGn ON, not quarantined, its frame engine running (R560, R564). -/
def Sys.regionWorks (y : Sys) (n : Nat) : Bool :=
  y.on n && !y.quar n && !y.halted (frmPg n 0) && !y.contain.chipFault

/-- The block-specific ERR_STAT causes a block defines (R218, R243, R284, R286, R185, R410, R412, R414, R466, R468,
R469, R494, R521, R554, R555, R557, R574, R575). -/
def specCauses : Blk → List Nat
  | .hst | .imu | .ldr | .prg | .lnk | .fif | .cic => [8]
  | .hdma | .rdma | .pwr | .frm | .wsc | .mbx | .snw | .mnt => [8, 9, 10]
  | .ten | .nvs | .tmb => [8, 9]
  | .rng | .core | .mon => []

end Sys2Proof.Machine
end

