-- ==== Sys2Proof/Machine/Cic.lean ====
section
/-! DEFINITION. Wakes, wake latches and the core interrupt controller: what a source's change does, the routing of
requests, claims and completions (R447-R457, R513-R517). -/

namespace Sys2Proof.Machine

/-! ## Wakes -/

/-- The parent of a domain in the order of R504. -/
def domParent (d : Nat) : Option Nat :=
  if 8 ≤ d ∧ d < 16 then some (d - 8) else if 18 ≤ d ∧ d < 34 then some 17 else none

/-- The children of a domain (R504). -/
def domChildren (d : Nat) : List Nat :=
  if d < 8 then [d + 8] else if d = 17 then (List.range 16).map (· + 18) else []

/-- A domain's state, judged ON only when no transition of it runs. -/
def Sys.isOff (y : Sys) (d : Nat) : Bool := (y.dom d).st == .off && (y.dom d).trans == .none
/-- RETENTION, no transition running. -/
def Sys.isRet (y : Sys) (d : Nat) : Bool := (y.dom d).st == .ret && (y.dom d).trans == .none

/-- Whether a domain has power and is not ON, or is on its way down: its line events and faults go to the wake latches (R508,
R516). -/
def Sys.dozes (y : Sys) (d : Nat) : Bool := (y.dom d).st != .off && !y.on d

/-- Count a request of a domain (R513). -/
def Sys.countReq (d : Nat) (y : Sys) : Sys := y.updDom d fun m => { m with reqs := satInc 255 m.reqs }

/-- Begin a domain's exit, its parent first (R504, R508); `fuel` bounds the depth of the tree. `wake`: the exit is
made by a wake, which WAKES counts (R513); a parent raised by the cascade counts a request. -/
def Sys.beginExit (fuel : Nat) (wake : Bool) (d : Nat) (y : Sys) : Sys :=
  match fuel with
  | 0 => y
  | fuel + 1 =>
    let y := y.updDom d fun m => { m with wakes := if wake then satInc 255 m.wakes else m.wakes, byWake := wake }
    match domParent d with
    | none => y.updDom d fun m => { m with trans := .exit }
    | some p =>
      if y.on p then y.updDom d fun m => { m with trans := .exit }
      else
        let y := y.updDom d fun m => { m with trans := .waitParent }
        let pd := y.dom p
        if pd.trans == .none then (y.countReq p).beginExit fuel false p else y

/-- A wake for a domain (R515, R517): held while its entry runs, an exit if it is below ON, nothing otherwise. No
domain leaves OFF before RAILPG is high (R498). -/
def Sys.wakeDom (d : Nat) (y : Sys) : Sys :=
  let m := y.dom d
  match m.trans with
  | .waitChild _ | .quiesce _ | .commit _ =>
    (y.updDom d fun m => { m with wake := true }).incFld (onePg .snw 1) 0x50 31 16
  | .waitParent | .exit => y
  | .none =>
    if m.st == .on || !y.pins.railpg then y else y.beginExit 2 true d

/-- A wake toward HOST (R517): PME_Status, and a PM_PME message with PME_En = 1. -/
def Sys.wakeHost (y : Sys) : Sys :=
  let y := { y with pins := { y.pins with pmeStatus := true } }
  if y.pins.pmeEn then y.emit .pme else y

/-- What a wake targets. -/
inductive WakeTo where
  | doms (ds : List Nat)
  | host
  | nothing
  deriving DecidableEq, Repr

/-- Raise a latch's wake; SNW_WAKE_CNT.COUNT counts it (R517, R523). -/
def Sys.raiseWake (t : WakeTo) (y : Sys) : Sys :=
  let y := y.incFld (onePg .snw 1) 0x50 15 0
  match t with
  | .doms ds => each (fun d y => y.wakeDom d) ds y
  | .host => y.wakeHost
  | .nothing => y

/-- An edge on wake latch `l` (R516, R517): the latch is set, requests CIC source 256 + l, and raises its wake while it
is enabled. -/
def Sys.latchEdge (l : Nat) (t : WakeTo) (y : Sys) : Sys :=
  let y := (y.setBit (onePg .snw 1) (0x48 + 4 * (l / 32)) (l % 32)).updSrc (256 + l) fun s => { s with lvl := true }
  if (y.pgReg (onePg .snw 1) (0x40 + 4 * (l / 32))).bit (l % 32) then y.raiseWake t else y

/-- What latch `l` brings ON where its number alone says so (R516). -/
def latchTo (l : Nat) : WakeTo :=
  if l < 8 then .doms [l, 8 + l]
  else if l < 16 then .doms [l - 8]
  else if l = 16 ∨ l = 33 ∨ l = 34 ∨ l = 36 then .doms [17]
  else if l < 33 then .doms [l + 1]
  else if l = 35 ∨ l = 37 then .host
  else .nothing

/-! ## Sources -/

/-- CIC_SRCs. -/
def Sys.srcCfg (y : Sys) (s : Nat) : Word := y.pgReg (onePg .cic (2 + s / 256)) (0x40 + 4 * (s % 256))

/-- Sources that exist (R447). -/
def srcReal (s : Nat) : Bool :=
  decide (s ≤ 16) || (decide (32 ≤ s) && decide (s < 80)) || (decide (128 ≤ s) && decide (s < 320))

/-- The domain whose state decides a source's edge latch (R447); 63: none. -/
def srcDom (s : Nat) : Nat :=
  if s < 8 then s
  else if s ≤ 10 then 16
  else if s ≤ 12 then 17
  else if 32 ≤ s ∧ s < 80 then 17
  else if 128 ≤ s ∧ s < 256 then 8 + (s - 128) / 16
  else 63

/-- Whether a source requests (R450). -/
def Sys.requests (y : Sys) (s : Nat) : Bool := if (y.srcCfg s).bit 2 then (y.csrc s).pend else (y.csrc s).lvl

/-- Whether core `c` is in a handler of a class. -/
def Core.handling (k : Core) (fast : Bool) : Bool := if fast then k.fsrc.isSome else k.nsrc.isSome

/-- The work priority of R452. -/
def Core.wprio (k : Core) : Nat := match k.cur with | some i => i.prio | none => 16

/-- Eligibility of a core for a source (R452). -/
def Sys.eligible (y : Sys) (s c : Nat) : Bool :=
  let k := y.core c
  let cfg := y.srcCfg s
  let ctl := y.pgReg ⟨.core, c, 0⟩ 0x40
  let fast := cfg.bit 1
  cfg.bit (16 + c) && (k.st == .idle || k.st == .running) && ctl.bit (if fast then 3 else 2) &&
    (if fast then k.fsrc.isNone else k.nsrc.isNone && k.fsrc.isNone)

/-- Cores in ascending number from the one after `r`. -/
def coresAfter (r : Nat) : List Nat := (List.range 16).map fun i => (r + 1 + i) % 16

/-- The first of a list with the largest key. -/
def firstMax (key : Nat → Nat) : List Nat → Option Nat
  | [] => none
  | a :: r => match firstMax key r with
    | none => some a
    | some b => if key b > key a then some b else some a

/-- The vector address of a delivery of source `s` to core `c`: WSC_CORE_VBASE + 16 s (R454). -/
def Sys.coreVec (y : Sys) (c s : Nat) : Nat := (y.pgReg ⟨.core, c, 0⟩ 0x4C).toNat + 16 * s

/-- Whether a core of the TARGETS is already being brought ON, which routing does again when it is IDLE (R453); a core that a mere reset
keeps in STARTING is not. -/
def Sys.coreComing (y : Sys) (cfg : Word) : Bool :=
  (List.range 16).any fun c => cfg.bit (16 + c) &&
    (((y.core c).st == .starting && !((y.core c).cause == 1 || (y.core c).cause == 2 || (y.core c).cause == 3)) || (y.dom (18 + c)).trans == .exit || (y.dom (18 + c)).trans == .waitParent)

/-- Route one source (R450-R454): deliver it to a core, ask for a core to be woken, or leave it waiting. -/
def Sys.routeOne (fast : Bool) (s : Nat) (y : Sys) : Sys :=
  let cfg := y.srcCfg s
  if cfg.bit 0 && cfg.bit 1 == fast && (y.csrc s).insv.isNone && y.requests s then
    let rot := if fast then y.eng.cic.rotF else y.eng.cic.rotN
    match firstMax (fun c => (y.core c).wprio) ((coresAfter rot).filter (y.eligible s)) with
    | some c =>
      let y := y.updSrc s fun z => { z with insv := some (c, fast) }
      let y := { y with eng := { y.eng with cic :=
        if fast then { y.eng.cic with rotF := c } else { y.eng.cic with rotN := c } } }
      let vec := y.coreVec c s
      y.updCore c fun k => if fast then { k with fsrc := some s, fclaimed := false, fvec := vec }
        else { k with nsrc := some s, nclaimed := false, nvec := vec }
    | none =>
      if cfg.bit 3 && !y.coreComing cfg then
        match (List.range 16).find? fun c => cfg.bit (16 + c) && (y.isOff (18 + c) || y.isRet (18 + c)) with
        | some c => y.latchEdge (17 + c) (.doms [18 + c])
        | none => y
      else y
  else y

/-- Route every requesting source: the fast class first, each class in ascending number (R452). -/
def Sys.routeAll (y : Sys) : Sys :=
  if y.on 17 && !y.halted (onePg .cic 0) then
    let ss := y.eng.cic.src.map (·.1)
    each (fun s y => y.routeOne false s) ss (each (fun s y => y.routeOne true s) ss y)
  else y

/-- A rising edge of a source's accepted level, before routing (R449-R451). A latched edge of a source with WAKE = 1
while SCHED is in RETENTION sets wake latch 33. -/
def Sys.srcRise (s : Nat) (y : Sys) : Sys :=
  let d := srcDom s
  if !srcReal s then y
  else if d != 63 && y.isOff d then y
  else if d != 63 && !y.on d then
    let y := y.updSrc s fun z => { z with latch := true }
    if (y.srcCfg s).bit 3 && y.isRet 17 then y.latchEdge 33 (.doms [17]) else y
  else y.updSrc s fun z => { z with lvl := true, pend := z.pend || ((y.srcCfg s).bit 2 && !z.lvl) }

/-- The fall of a source's accepted level. -/
def Sys.srcFall (s : Nat) (y : Sys) : Sys := y.updSrc s fun z => { z with lvl := false }

/-- FILT of CIC_SRCs. -/
def Sys.srcFilt (y : Sys) (s : Nat) : Nat := (y.srcCfg s).fld 11 4

/-- Whether a source's input has kept its level for the samples that FILT asks for, at 25 in a microsecond (R449). -/
def Sys.srcSettled (y : Sys) (s : Nat) : Bool := decide (y.srcFilt s ≤ 25 * (y.tb - (y.csrc s).since))

/-- A source accepts its input's level once the filter lets it (R449); where the domain is not ON nothing is accepted (R451). -/
def Sys.srcAccept (s : Nat) (y : Sys) : Sys :=
  let z := y.csrc s
  if z.inp == z.lvl || !y.srcSettled s || (srcDom s != 63 && !y.on (srcDom s)) then y
  else if z.inp then y.srcRise s else y.srcFall s

/-- A source's input takes a level. Its rise while the domain is not ON is what the edge latch captures, without filtering (R451). -/
def Sys.srcInput (s : Nat) (high : Bool) (y : Sys) : Sys :=
  let was := (y.csrc s).inp
  let y := if was == high then y else y.updSrc s fun z => { z with inp := high, since := y.tb }
  if high && !was && srcDom s != 63 && !y.on (srcDom s) then y.srcRise s else y.srcAccept s

/-- A level that a block drives rises or falls, and routing runs. -/
def Sys.cicLevel (s : Nat) (high : Bool) (y : Sys) : Sys := (y.srcInput s high).routeAll

/-- An event signalled as an edge: its input rises, for as long as the filter asks, and falls (log 48). -/
def Sys.cicPulse (s : Nat) (y : Sys) : Sys := ((y.srcRise s).srcFall s).routeAll

/-- The level with which this model's blocks drive a source (R447): the aggregator of a port region, with the region's causes and its
ports' changes; DCQ records; the errors of host DMA and of the PCIe endpoint; Hollyhock's lists and errors; SRAM errors; a port's changes.
Sources 8 and 14 are driven from outside this model (log 48). -/
def Sys.srcDriven (y : Sys) (s : Nat) : Bool :=
  let chg := fun (p : Nat) => (y.pgReg ⟨.lnk, p, 0⟩ 0x44 &&& 0xD#32) != 0
  if s < 8 then (y.errSum.testBit s) || (List.range 16).any fun k => chg (16 * s + k)
  else if s = 9 then (y.pgReg (onePg .hdma 3) 0x254).toNat != (y.pgReg (onePg .hdma 3) 0x258).toNat
  else if s = 10 then y.pgErr (onePg .hst 0) || (List.range 4).any fun k => y.pgErr (onePg .hdma k)
  else if s = 11 then !y.eng.holly.ovf.isEmpty || !y.eng.holly.late.isEmpty || y.pgErr (onePg .wsc 0)
  else if s = 12 then (y.pgReg (onePg .wsc 0) 0x18 &&& 3#32) != 0
  else if 128 ≤ s ∧ s < 256 then chg (s - 128)
  else false

/-- The sources that this model's blocks drive. -/
def drivenSrcs : List Nat := List.range 8 ++ [9, 10, 11, 12] ++ (List.range 128).map (128 + ·)

/-- The sources' inputs follow what drives them, and each accepts the level its filter lets through (R449). -/
def Sys.cicSample (y : Sys) : Sys :=
  if (y.dom 17).st == .off || y.halted (onePg .cic 0) then y
  else
    let moved := drivenSrcs.filter fun s => (y.csrc s).inp != ((y.csrc s).ext || y.srcDriven s)
    let late := (y.eng.cic.src.filter fun e => e.2.inp != e.2.lvl && srcReal e.1 && !(decide (256 ≤ e.1))).map (·.1)
    if moved.isEmpty && late.isEmpty then y
    else
      (each (fun s (y : Sys) => y.srcAccept s) late
        (each (fun s (y : Sys) => y.srcInput s ((y.csrc s).ext || y.srcDriven s)) moved y)).routeAll

/-- Edges latched for a domain that returns to ON are taken (R451). -/
def Sys.takeLatches (d : Nat) (y : Sys) : Sys :=
  let ss := (y.eng.cic.src.filter fun e => e.2.latch && srcDom e.1 == d).map (·.1)
  (each (fun s y => y.updSrc s fun z =>
    let edge := (y.srcCfg s).bit 2
    { z with latch := false, pend := z.pend || edge, lvl := z.lvl || !edge }) ss y).routeAll

/-- The sources of a domain that turns OFF are held deasserted and their latches cleared (R451). -/
def Sys.dropSources (d : Nat) (y : Sys) : Sys :=
  let ss := (y.eng.cic.src.filter fun e => srcDom e.1 == d).map (·.1)
  each (fun s y => y.updSrc s fun z => { z with lvl := false, latch := false, inp := false }) ss y

/-- An edge on a wake latch, routed. -/
def Sys.latchSet (l : Nat) (t : WakeTo) (y : Sys) : Sys := (y.latchEdge l t).routeAll

/-- The source delivered to core `c` in a class, as the manager's reads of the claim registers show it; 511 for none (R457). -/
def Sys.delivered (y : Sys) (fast : Bool) (c : Nat) : Nat := (if fast then (y.core c).fsrc else (y.core c).nsrc).getD 511

/-- Whether a delivered source still requests at its claim: a disabled edge source has withdrawn (R455). -/
def Sys.claimable (y : Sys) (s : Nat) : Bool := y.requests s && ((y.srcCfg s).bit 0 || !(y.srcCfg s).bit 2)

/-- A spurious claim by core `c` is counted. -/
def Sys.spurious (c : Nat) (y : Sys) : Sys :=
  (y.incFld (onePg .cic 0) 0x184 15 0).incFld ⟨.core, c, 0⟩ 0x50 31 24

/-- The class's handler of core `c` has no source any more. -/
def Sys.endHandler (fast : Bool) (c : Nat) (y : Sys) : Sys :=
  y.updCore c fun k => if fast then { k with fsrc := none, fclaimed := false }
    else { k with nsrc := none, nclaimed := false }

/-- A core's claim in a class (R455): the value read and the state after. -/
def Sys.claim (fast : Bool) (c : Nat) (y : Sys) : Nat × Sys :=
  let k := y.core c
  match (if fast then k.fsrc else k.nsrc) with
  | some s =>
    if (if fast then k.fclaimed else k.nclaimed) then (511, y.spurious c)
    else if y.claimable s then
      (s, (y.updSrc s fun z => { z with pend := z.pend && !(y.srcCfg s).bit 2 }).updCore c fun k =>
        if fast then { k with fclaimed := true } else { k with nclaimed := true })
    else
      (511, (((y.updSrc s fun z => { z with insv := none }).endHandler fast c).spurious c).routeAll)
  | none => (511, y.spurious c)

/-- A core's completion in a class (R456). -/
def Sys.complete (fast : Bool) (c s : Nat) (y : Sys) : Sys :=
  if (y.csrc s).insv == some (c, fast) then
    ((y.updSrc s fun z => { z with insv := none }).endHandler fast c).routeAll
  else y.recordErr (onePg .cic 0) 8 s

/-- Every source in service on core `c` leaves service; a claimed edge source becomes pending again (R426). -/
def Sys.dropService (c : Nat) (y : Sys) : Sys :=
  let k := y.core c
  let ss := (y.eng.cic.src.filter fun e => match e.2.insv with | some (c', _) => c' == c | none => false).map (·.1)
  (each (fun s y => y.updSrc s fun z =>
      let claimed := match z.insv with | some (_, true) => k.fclaimed | some (_, false) => k.nclaimed | none => false
      { z with insv := none, pend := z.pend || ((y.srcCfg s).bit 2 && claimed) }) ss y).updCore c fun k =>
    { k with nsrc := none, nclaimed := false, fsrc := none, fclaimed := false }

end Sys2Proof.Machine
end

