-- ==== Sys2Proof/Machine/Meq.lean ====
section
/-! DEFINITION. Events and the manager event queue: the event record (R110), MEQ (R366-R372, R615), events for tenants
(R111, R382, R406) and the interrupt message store (R408-R410). -/

namespace Sys2Proof.Machine

/-- An event stamped with the present time (R15, R110). -/
def Sys.ev (y : Sys) (ty slot port epid : Nat) (p : List Word) : Ev :=
  { ty := ty, mf := y.mf, us := y.us, slot := slot, port := port, epid := epid, p := p }

/-- The eight dwords of an event record, OWN reading 0 (R110). -/
def Ev.dws (e : Ev) : List Word :=
  [Word.ofN ((if e.rw then 2 else 0) + (if e.lost then 4 else 0) + (e.ty % 256) * 256 + (e.us % 128) * 16777216),
   Word.ofN e.mf,
   Word.ofN (e.slot % 16384 + (e.port % 128) * 65536 + (e.epid % 32) * 16777216)] ++
  (e.p ++ [0, 0, 0, 0, 0]).take 5

/-- TEN page 0. -/
def tenPg : Pg := onePg .ten 0

/-- MEQ's entry count. -/
def Sys.meqSize (y : Sys) : Nat := 2 ^ (y.pgReg tenPg 0x6C).fld 4 0
/-- TEN_MEQ_SIZE.EN. -/
def Sys.meqEn (y : Sys) : Bool := (y.pgReg tenPg 0x6C).bit 31
/-- MEQ entries in use (R136). -/
def Sys.meqUsed (y : Sys) : Nat := inUse y.meqSize (y.pgReg tenPg 0x70).toNat (y.pgReg tenPg 0x74).toNat
/-- MEQ entries reserved for the responses of commands in progress and of those waiting (R369, R615). -/
def Sys.meqRsv (y : Sys) : Nat := y.host.decust.cmds.length + y.host.decust.resps.length
/-- MEQ entries neither in use nor reserved. -/
def Sys.meqFree (y : Sys) : Nat := y.meqSize - y.meqUsed - y.meqRsv

/-- Whether a QUEUE channel is idle: entries of MEQ wait on chip for one (R188). -/
def Sys.queueChan (y : Sys) : Bool := (List.range 8).any fun j => (y.chan 0 (16 + j)).st == .idle

/-- Write one 64-byte MEQ entry (R367) and advance TEN_MEQ_PI. -/
def Sys.meqPut (kind : Nat) (rec : List Word) (y : Sys) : Sys :=
  let pi := (y.pgReg tenPg 0x70).toNat
  let base := lohi (y.pgReg tenPg 0x64) (y.pgReg tenPg 0x68)
  (y.emit (.mem none false false (base + 64 * (pi % 65536))
    (dwBytes (Word.ofN kind :: List.replicate 7 0 ++ (rec ++ List.replicate 8 0).take 8)))).setPg tenPg 0x70
    (Word.ofN (advIdx y.meqSize pi))

/-- Write an event to MEQ; it carries LOST after a discard (R371). -/
def Sys.meqPutEv (e : Ev) (y : Sys) : Sys :=
  (y.meqPut 1 ({ e with lost := e.lost || y.host.decust.lost }).dws).updDec fun d => { d with lost := false }

/-- The vector of R372: an instance's binding, or TEN_MEQ_SIZE.VEC. -/
def Sys.meqVec (y : Sys) (v : Option Nat) : Nat :=
  match v with | some n => n | none => (y.pgReg tenPg 0x6C).fld 13 8

/-- An event for the manager (R371): written, kept in the on-chip list, or discarded. While HOST is OFF there is no
tenancy unit. -/
def Sys.meqEvent (v : Option Nat) (e : Ev) (y : Sys) : Sys :=
  if y.contain.chipFault || (y.dom 16).st == .off then y
  else if y.meqEn && y.queueChan && y.host.decust.events.isEmpty && decide (0 < y.meqFree) then (y.meqPutEv e).msix (y.meqVec v)
  else if y.host.decust.events.length < 256 then
    y.updDec fun d => { d with events := d.events ++ [.event e v] }
  else
    ((y.incFld tenPg 0x7C 15 0).recordErr tenPg 9 0).updDec fun d => { d with lost := true }

/-- Write waiting responses, which have their reservations, then waiting events while entries are free; answers the
vectors due. `fuel` bounds the entries written. -/
def Sys.meqFlushGo (fuel : Nat) (vs : List Nat) (y : Sys) : List Nat × Sys :=
  match fuel with
  | 0 => (vs, y)
  | fuel + 1 =>
    if !(y.meqEn && y.queueChan) then (vs, y)
    else
      match y.host.decust.resps with
      | .resp dws :: r =>
        ((y.updDec fun d => { d with resps := r }).meqPut 2 dws).meqFlushGo fuel (vs ++ [y.meqVec none])
      | _ :: r => (y.updDec fun d => { d with resps := r }).meqFlushGo fuel vs
      | [] =>
        if 0 < y.meqFree then
          match y.host.decust.events with
          | .event e v :: r =>
            ((y.updDec fun d => { d with events := r }).meqPutEv e).meqFlushGo fuel (vs ++ [y.meqVec v])
          | _ :: r => (y.updDec fun d => { d with events := r }).meqFlushGo fuel vs
          | [] => (vs, y)
        else (vs, y)

/-- The waiting responses and events are written into free entries, and each vector named gets one message (R371,
R372, R615). -/
def Sys.meqFlush (y : Sys) : Sys :=
  let r := y.meqFlushGo (y.host.decust.resps.length + y.host.decust.events.length) []
  each (fun v y => y.msix v) r.1.dedup r.2

/-! ## Tenants -/

/-- Whether an instance follows the 1.x rules of R406 (R490). -/
def Sys.is1x (y : Sys) (i : Nat) : Bool :=
  let n := y.inst i
  n.st != .free && (n.vivMaxMaj == 1 || n.vivMaj == 1)

/-- An event for an instance's event ring: discarded while no instance exists or it is being destroyed, discarded with
LOST to follow while RESETTING (R382), discarded without LOST under R406, and otherwise put in order for delivery. -/
def Sys.tenantEvent (i : Nat) (e : Ev) (y : Sys) : Sys :=
  let n := y.inst i
  if y.contain.chipFault then y
  else
    match n.st with
    | .free | .destroying => y
    | .resetting => y.updInst i fun n => { n with evLost := true }
    | _ =>
      if y.is1x i && decide (0x44 ≤ e.ty) && decide (e.ty ≤ 0x49) then y
      else { y with host := { y.host with evq := y.host.evq ++ [{ inst := i, seq := 0, ev := e }] } }

/-- An event to MEQ and to the tenant of a slot, where it has one (R111). -/
def Sys.slotEvent (n : Nat) (e : Ev) (y : Sys) : Sys :=
  let y := y.meqEvent none e
  match (y.slot n).inst with
  | some i => y.tenantEvent i e
  | none => y

/-- A message of store entry `e` of instance `i` falls due (R409, R410). Address and data are those of the entry when it is issued,
which is when SENT counts it; while HOST is not ON or PASID Enable is clear it waits on chip (R204, R505). -/
def Sys.sendMsg (i e : Nat) (y : Sys) : Sys :=
  let m := FMap.get {} e (y.inst i).msgs
  let set := fun (f : MsgEnt → MsgEnt) (y : Sys) => y.updInst i fun n => { n with msgs := FMap.upd {} e f n.msgs }
  if m.mask then set (fun m => { m with pend := true }) y
  else if m.lo == 0 && m.hi == 0 then
    set (fun m => { m with pend := true }) (y.recordErr (onePg .imu 0) 8 (i + e * 4096))
  else if y.contain.chipFault then y
  else if !y.hostOn || !y.pins.pasidEn then
    set (fun m => { m with pend := false }) { y with host := { y.host with msgWait := y.host.msgWait ++ [(i, e)] } }
  else
    (set (fun m => { m with sent := satInc 65535 m.sent, pend := false }) y).emit
      (.msg { inst := i, pasid := (y.inst i).pasid } (lohi m.lo m.hi) m.data) |>.incFld (onePg .imu 0) 0x44 15 0

/-- Messages that waited are issued in order (R204, R505). -/
def Sys.releaseMsgs (y : Sys) : Sys :=
  each (fun (m : Nat × Nat) (y : Sys) => y.sendMsg m.1 m.2) y.host.msgWait { y with host := { y.host with msgWait := [] } }

/-- A record of ring `k` with IOC = 1 has been written (R109): a message now, or one at the end of the interval. -/
def Sys.ringMsg (k : Nat) (y : Sys) : Sys :=
  let r := y.ring k
  if !r.msgEn then y
  else if r.modRun then y.updRing k fun r => { r with modDue := true }
  else
    (y.updRing k fun r => { r with modRun := decide (0 < r.mod), modDue := false }).sendMsg (k / 32) r.msg

end Sys2Proof.Machine
end

