-- ==== Sys2Proof/Machine/Access.lean ====
section
/-! DEFINITION. Which accesses a register page answers: domains, halts, resets and instances (R48, R54, R71, R399, R418,
R520, R560, R566), and how the others complete. -/

namespace Sys2Proof.Machine

/-- Whether an engine core can make an access at all: it runs code (R423). -/
def Sys.coreActs (y : Sys) (c : Nat) : Bool :=
  y.on (18 + c) && match (y.core c).st with
    | .idle | .running | .draining => true
    | _ => false

/-- Whether a page's block is in reset (R71, R571). -/
def Sys.inReset (y : Sys) (g : Pg) : Bool :=
  decide (g.region < 8) && FMap.get false g.region y.contain.resetting

/-- The registers of a page that the host region's page directory answers in every state of the domain (R71). -/
def dirOff (o : Nat) : Bool := o == 0 || o == 4 || o == 8 || o == 0x30

/-- Whether offset `o` of a TMB or MBX page is a mailbox register rather than the common header. -/
def Pg.mailReg (g : Pg) (o : Nat) : Bool := (g.blk == .tmb || g.blk == .mbx) && decide (0x40 ≤ o)

/-- Whether an instance's own state lets a mailbox access through the manager side (R399). -/
def Sys.tmbLets (y : Sys) (i o : Nat) (isRead : Bool) : Bool :=
  match (y.inst i).st with
  | .free | .destroying => false
  | .resetting => isRead || !(decide (0xC0 ≤ o) && decide (o < 0x140) || o == 0x144)
  | _ => true

/-- Whether the page's domain lets an access through (R71, R520). -/
def Sys.domLets (y : Sys) (org : Origin) (g : Pg) (o : Nat) : Bool :=
  y.on g.dom ||
    (match org with
     | .core _ => g.blk == .tmb && decide (0x40 ≤ o) && y.isRet 16
     | _ => g.blk == .mbx && decide (0x40 ≤ o) && y.isRet 17)

/-- Whether a page answers an access (R71, R399, R520, R560, R566). -/
def Sys.pageLets (y : Sys) (org : Origin) (g : Pg) (o : Nat) (isRead : Bool) : Bool :=
  let win := match org with
    | .manager | .tenant | .loader => y.hostOn
    | .core c => y.coreActs c
    | .smbus => true
  win &&
    (isRead || !y.contain.chipFault || g.region == 10) &&
    (dirOff o ||
      (y.domLets org g o && !y.inReset g &&
        (!g.mailReg o || (!y.halted g && (g.blk != .tmb || y.tmbLets g.inst o isRead)))))

/-- An access that its target refuses (R48, R418). An address in no defined page is logged as an Unsupported Request
(R567). -/
def Sys.refuse (org : Origin) (off : Nat) (isRead undef : Bool) (y : Sys) : Sys :=
  let y := { y with out := .ur org off isRead :: y.out }
  match org with
  | .manager | .tenant | .loader => if undef && y.hostOn then y.aer .unsupportedRequest else y
  | _ => y

/-- An access to a page by its own row: refused where the page does not answer. -/
def Sys.viaPage (org : Origin) (g : Pg) (o : Nat) (isRead : Bool) (f : Sys → Sys) (y : Sys) : Sys :=
  match org with
  | .core c => if !y.coreActs c then y else
      if y.pageLets org g o isRead then f y else y.refuse org (g.base + o) isRead false
  | _ => if y.pageLets org g o isRead then f y else y.refuse org (g.base + o) isRead false

/-- An access to a page by its own row, through the manager window, from a core or over SMBus; the tenant and the loader window
reach no such page (R51-R55). -/
def Sys.viaReg (org : Origin) (g : Pg) (o : Nat) (isRead : Bool) (f : Sys → Sys) (y : Sys) : Sys :=
  match org with
  | .manager | .core _ => y.viaPage org g o isRead f
  | .smbus => if g.region == 10 then y.viaPage org g o isRead f else y
  | _ => y

/-- Whether an offset of the instance window answers (R54, R399, R566). -/
def Sys.instLets (y : Sys) (i o : Nat) : Bool :=
  y.hostOn && !y.contain.chipFault && ((y.inst i).st == .created || (y.inst i).st == .running) &&
    !(decide (0x2000 ≤ o) && decide (o < 0x3000) && y.halted ⟨.tmb, i, 0⟩)

/-- Whether a window access waits behind a held NV write (R49, R75). -/
def winWaits (y : Sys) (org : Origin) : Bool :=
  match org with
  | .manager | .tenant | .loader => !y.nv.held.isEmpty || !y.waitq.isEmpty
  | _ => false

/-- The outcome of a command that is a window access: it waits behind a held NV write, or has its effect. -/
def liveWin (c : Instr) (org : Origin) (s : State) (f : Sys → Sys) : Host.Outcome State Fault Refusal :=
  liveSys s fun y => if winWaits y org then { y with waitq := y.waitq ++ [c] } else f y

/-- The ERR_STAT that records ACCESS or CFG for an offset of a page without a common header (R47). -/
def headless (t : Target) : Option (Pg × Nat) :=
  match t with
  | .db i _ | .ringStat i _ => some (onePg .rng 0, i)
  | .mbox i _ => some (⟨.tmb, i, 0⟩, i)
  | .msgs i _ => some (onePg .imu 0, i)
  | .msix _ | .pba _ => some (onePg .hst 0, 0)
  | _ => none

end Sys2Proof.Machine
end

