-- ==== Sys2Proof/Machine/Fifo.lean ====
section
/-! DEFINITION. The staging FIFOs: space, the packet lists, stuff counts, marks, eviction and watermarks (R219-R244,
R611). -/

namespace Sys2Proof.Machine

/-- Words of 64 bits that `n` bytes occupy (R220). -/
def pktWords (n : Nat) : Nat := (n + 7) / 8

/-- TX occupancy (R223). -/
def Fifo.txOcc (f : Fifo) : Nat := (f.txWp + 2048 - f.txRlp) % 2048
/-- RX occupancy (R223). -/
def Fifo.rxOcc (f : Fifo) : Nat := (f.rxWp + 2048 - f.rxRlp) % 2048
/-- The depth of a skid chain (R219). -/
def skidDepth : Nat := 8

/-- Words that the TX producer's handshake still completes for: free words of the ring and free stages of the chain (R221). -/
def Fifo.txRoom (f : Fifo) : Nat := 1024 - f.txOcc + skidDepth - f.txSkid

/-- TX free space in words: what neither the ring nor the skid chain holds (R223). -/
def Fifo.txFree (f : Fifo) : Nat := 1024 - f.txOcc - f.txSkid
/-- RX free words for the IN condition (R236, R303): a full packet list has none. -/
def Fifo.rxFree (f : Fifo) : Nat := if 64 ≤ f.rx.length + f.rxRsvE then 0 else 1024 - f.rxOcc - f.rxSkid - f.rxRsvW
/-- RX packet-list entries free. -/
def Fifo.rxFreeE (f : Fifo) : Nat := 64 - f.rx.length - f.rxRsvE

/-- The Gray code in which a position crosses between the clockless side and the link cell (R222). -/
def grayCode (n : Nat) : BitVec 11 := BitVec.ofNat 11 n ^^^ (BitVec.ofNat 11 n >>> 1)

/-- The parity bit of a ring word: it makes the count of ones in the 65 bits odd (R220). -/
def parityBit (w : BitVec 64) : Bool := ((List.range 64).filter fun i => w.getLsbD i).length % 2 == 0

/-- The words of a packet that bytes `i` and on with poison touch (R220): byte `i` lies in word `i / 8`. -/
def badWords (i : Nat) : List (Byte × Bool) → List Nat
  | [] => []
  | (_, p) :: r => if p then (i / 8) :: (badWords (i + 1) r).filter (· != i / 8) else badWords (i + 1) r

/-- Whether a TX packet holds a word whose parity fails. -/
def TxPkt.poison (t : TxPkt) : Bool := !t.bad.isEmpty
/-- Whether an RX packet holds a word whose parity fails. -/
def RxPkt.poison (t : RxPkt) : Bool := !t.bad.isEmpty

/-- Words fall through the TX skid chain into free words of the ring (R221). -/
def Fifo.txFall (f : Fifo) : Fifo :=
  let m := min f.txSkid (1024 - f.txOcc)
  { f with txWp := (f.txWp + m) % 2048, txSkid := f.txSkid - m }

/-- Words fall through the RX skid chain into the ring; they count toward WP at the end of their packet (R221, R235). -/
def Fifo.rxFall (f : Fifo) : Fifo :=
  let m := min f.rxSkid (1024 - f.rxOcc)
  { f with rxWp := (f.rxWp + m) % 2048, rxSkid := f.rxSkid - m }

/-! ## Stuff counts (R226) -/

/-- The bits of a byte in the order in which USB sends them. -/
def byteBits (b : Byte) : List Bool := (List.range 8).map fun i => b.getLsbD i

/-- USB's CRC16 register after one more data bit. -/
def crcStep (r : BitVec 16) (b : Bool) : BitVec 16 :=
  let s := r <<< 1
  if r.getLsbD 15 != b then s ^^^ 0x8005#16 else s

/-- The sixteen CRC bits in sending order. -/
def crcBits (data : List Bool) : List Bool :=
  let r := data.foldl crcStep 0xFFFF#16
  (List.range 16).map fun i => !(r.getLsbD (15 - i))

/-- Stuffed bits: one after every six consecutive ones; `run` ones stand before. -/
def stuffGo (run n : Nat) : List Bool → Nat
  | [] => n
  | true :: r => if run = 5 then stuffGo 0 (n + 1) r else stuffGo (run + 1) n r
  | false :: r => stuffGo 0 n r

/-- The stuffed bits of a data packet sent with PID byte `pid`, from the last bit of SYNC, a one, to the last of CRC16. -/
def stuffCount (pid : Byte) (data : List Byte) : Nat :=
  let d := data.flatMap byteBits
  stuffGo 1 0 (byteBits pid ++ d ++ crcBits d)

/-! ## The TX side -/

/-- Whether a fill burst for packet `num` of port `p` is in flight. -/
def Sys.fillBusy (y : Sys) (p num : Nat) : Bool :=
  y.usb.dma.any fun e => e.1 / 32 == p / 16 + 1 && e.2.port == p && !e.2.toHost && e.2.pkt == num && e.2.st != .idle
    && e.2.st != .halted

/-- Whether a drain burst for transfer `id` is in flight. -/
def Sys.drainBusy (y : Sys) (id : Nat) : Bool :=
  y.usb.dma.any fun e => decide (32 ≤ e.1) && e.2.toHost && e.2.xid == id && e.2.st != .idle && e.2.st != .halted

/-- RLP advances over DONE and DROPPED packets at its place (R230); a packet with a burst in flight keeps its words. -/
def reclaimGo (busy : Nat → Bool) (f : Fifo) : List TxPkt → Fifo
  | [] => { f with tx := [] }
  | t :: r =>
    if (t.st == .done || t.st == .dropped) && !busy t.num then
      reclaimGo busy { f with txRlp := (f.txRlp + pktWords t.data.length) % 2048 } r
    else { f with tx := t :: r }

/-- The watermark states after an occupancy change (R239-R241). -/
def Sys.evalMarks (p : Nat) (y : Sys) : Sys :=
  let tw := y.pgReg (fifPg p) 0x40
  let rw := y.pgReg (fifPg p) 0x44
  y.updFifo p fun f =>
    { f with
      gate := if tw.fld 26 16 < f.txOcc then true else if f.txOcc < tw.fld 10 0 then false else f.gate
      urgent := if rw.fld 26 16 < f.rxOcc then true else if f.rxOcc < rw.fld 10 0 then false else f.urgent }

/-- Reclaim TX space and judge the watermarks. -/
def Sys.reclaimTx (p : Nat) (y : Sys) : Sys :=
  (y.updFifo p fun f => (reclaimGo (y.fillBusy p) f f.tx).txFall).evalMarks p

/-- Change the TX packet `num` of a port. -/
def Sys.updTx (p num : Nat) (f : TxPkt → TxPkt) (y : Sys) : Sys :=
  y.updFifo p fun q => { q with tx := q.tx.map fun t => if t.num == num then f t else t }

/-- Whether the transaction on the wire of port `p` is of transfer `id`. -/
def Sys.wireHas (y : Sys) (p id : Nat) : Bool :=
  match (y.frame p).cur with
  | some t => t.xid == id
  | none => false

/-- Drop the FILLING and READY packets that satisfy `sel` (R231, R232). -/
def Sys.dropTx (p : Nat) (sel : TxPkt → Bool) (y : Sys) : Sys :=
  (y.updFifo p fun q => { q with tx := q.tx.map (fun t =>
    if sel t && (t.st == .filling || t.st == .ready) then { t with st := .dropped } else t) }).reclaimTx p

/-- A TX packet whose bytes still follow its transfer. -/
def TxPkt.live (t : TxPkt) : Bool := t.st == .filling || t.st == .ready || t.st == .sending

/-- What a begun IN split holds of the RX FIFO is free again (R303). -/
def Sys.rsvFree (p : Nat) (x : Xfer) (y : Sys) : Sys :=
  if x.split.rsv = 0 then y
  else
    (y.updFifo p fun q => { q with rxRsvW := q.rxRsvW - x.split.rsv, rxRsvE := q.rxRsvE - 1 }).updX x.id fun z =>
      { z with split := { z.split with rsv := 0 } }

/-- A split is resolved: nothing of it is pending. -/
def Sys.splitDone (p id : Nat) (y : Sys) : Sys :=
  (y.updX id fun x => { x with split := {} }).updFrame p fun f => { f with cspOrder := f.cspOrder.filter (· != id) }

/-- A transfer has ended (R231): its remaining packets are dropped, one that waits in SENDING for its complete-split too, and a
begun split of it is over (R303); a packet on the wire finishes first. -/
def Sys.xferLeaves (x : Xfer) (y : Sys) : Sys :=
  let p := x.port
  if y.wireHas p x.id then y.dropTx p fun t => t.xid == x.id
  else
    (((y.updFifo p fun q => { q with tx := q.tx.map (fun t =>
      if t.xid == x.id && t.live then { t with st := .dropped } else t) }).reclaimTx p).rsvFree p x).splitDone p x.id

/-- The lowest fill position among a transfer's packets that `sel` drops. -/
def refillPos (ts : List TxPkt) (sel : TxPkt → Bool) (id cur : Nat) : Nat :=
  ts.foldl (fun a t => if sel t && t.xid == id then min a t.pos else a) cur

/-- Whether the packet at RLP stands in the way of later packets (R232). -/
def Fifo.blocksRing (f : Fifo) : Bool :=
  match f.tx with
  | t :: r => t.st == .ready && r.any fun u => u.st == .done || u.st == .dropped
  | [] => false

/-- The packet at RLP is evicted with the later READY and FILLING packets of its endpoint (R232): their transfers' fill
position returns to its first byte, and a burst that still fills one of them brings nothing that counts. -/
def Sys.evict (p : Nat) (t : TxPkt) (y : Sys) : Sys :=
  let sel := fun (u : TxPkt) => u.slot == t.slot && u.epid == t.epid && (u.st == .ready || u.st == .filling)
  let ts := (y.fifo p).tx
  let y := y.mapX fun x =>
    if x.slot == t.slot && x.epid == t.epid && x.port == p then { x with filled := refillPos ts sel x.id x.filled } else x
  ((y.updFifo p fun f => { f with age := 0, ageOf := 0 }).incFld (fifPg p) 0x5C 31 16).dropTx p sel

/-- Marks and evictions after an occupancy change (R241). -/
def Sys.evalFifo (p : Nat) (y : Sys) : Sys :=
  let y := y.evalMarks p
  let f := y.fifo p
  let lim := (y.pgReg (fifPg p) 0x48).fld 19 16
  match f.tx with
  | t :: _ => if f.blocksRing && f.ageOf == t.num + 1 && decide (0 < lim) && decide (lim ≤ f.age) then y.evict p t else y
  | [] => y

/-- Create a packet-list entry (R226); its number in creation order is answered by the FIFO's counter. -/
def Sys.txOpen (p : Nat) (t : TxPkt) (y : Sys) : Sys :=
  y.updFifo p fun f => { f with tx := f.tx ++ [{ t with num := f.txNum, start := (f.txWp + f.txSkid) % 2048 }], txNum := f.txNum + 1 }

/-- Bytes accepted into packet `num`, each with its poison (R220, R221, R226): words enter the skid chain and fall through it
into the ring. A poisoned word is stored with bad parity (R234). -/
def Sys.txAppend (p num : Nat) (bs : List (Byte × Bool)) (y : Sys) : Sys :=
  (y.updFifo p fun f =>
    match f.tx.find? fun t => t.num == num with
    | some t =>
      let w := pktWords (t.data.length + bs.length) - pktWords t.data.length
      ({ f with
        tx := f.tx.map (fun (t : TxPkt) => if t.num == num then
          { t with data := t.data ++ bs.map Prod.fst,
                   bad := t.bad ++ (badWords t.data.length bs).filter fun w => !t.bad.contains w } else t)
        txSkid := f.txSkid + w }).txFall
    | none => f).evalFifo p

/-- A packet whose last byte has entered becomes READY with its stuff counts (R226, R227). -/
def Sys.txSeal (p num : Nat) (y : Sys) : Sys :=
  y.updTx p num fun t =>
    if t.st == .filling && decide (t.len ≤ t.data.length) then
      { t with st := .ready, stuff0 := stuffCount 0xC3 t.data, stuff1 := stuffCount 0x4B t.data }
    else t

/-- A packet with all its bytes at once: a SETUP packet from the descriptor, or a zero-length packet (R189, R220). -/
def Sys.txWhole (p : Nat) (t : TxPkt) (bs : List Byte) (y : Sys) : Sys :=
  let num := (y.fifo p).txNum
  ((y.txOpen p { t with len := bs.length, data := [] }).txAppend p num (bs.map fun b => (b, false))).txSeal p num

/-- MARK (R228): the mark and RP go to the packet's first word, and the packet is SENDING. -/
def Sys.txMark (p num : Nat) (y : Sys) : Sys :=
  match (y.fifo p).tx.find? fun t => t.num == num with
  | some t => (y.updTx p num fun t => { t with st := .sending }).updFifo p fun f => { f with mark := t.start, txRp := t.start }
  | none => y
/-- The link cell has read packet `num` as far as byte `n`: RP stands behind the last word read (R222). -/
def Sys.txRead (p num n : Nat) (y : Sys) : Sys :=
  match (y.fifo p).tx.find? fun t => t.num == num with
  | some t => y.updFifo p fun f => { f with txRp := (t.start + pktWords n) % 2048 }
  | none => y
/-- RELEASE (R228, R229): the marked packet is DONE. -/
def Sys.txRelease (p num : Nat) (y : Sys) : Sys := ((y.updTx p num fun t => { t with st := .done }).reclaimTx p).evalFifo p
/-- REWIND (R228, R229): RP goes back to the packet's first word, and the packet is READY. -/
def Sys.txRewind (p num : Nat) (y : Sys) : Sys :=
  match (y.fifo p).tx.find? fun t => t.num == num with
  | some t => (y.updTx p num fun t => { t with st := .ready }).updFifo p fun f => { f with mark := t.start, txRp := t.start }
  | none => y
/-- The result of a marked packet (R229): dropped. -/
def Sys.txDropOne (p num : Nat) (y : Sys) : Sys :=
  ((y.updTx p num fun t => { t with st := .dropped }).reclaimTx p).evalFifo p

/-- Ageing and eviction at a (micro)frame start (R232): the age is that of the packet at RLP. -/
def Sys.evictStep (p : Nat) (y : Sys) : Sys :=
  let f := y.fifo p
  let lim := (y.pgReg (fifPg p) 0x48).fld 19 16
  match f.tx with
  | t :: _ =>
    if f.blocksRing then
      let age := (if f.ageOf = t.num + 1 then f.age else 0) + 1
      if decide (0 < lim) && decide (lim ≤ age) then y.evict p t
      else y.updFifo p fun f => { f with age := age, ageOf := t.num + 1 }
    else y.updFifo p fun f => { f with age := 0, ageOf := 0 }
  | [] => y.updFifo p fun f => { f with age := 0, ageOf := 0 }

/-! ## The RX side -/

/-- RLP advances over released RX packets in ring order (R237). -/
def rxReclaimGo (f : Fifo) : List RxPkt → Fifo
  | [] => { f with rx := [] }
  | t :: r =>
    if t.st == .done then rxReclaimGo { f with rxRlp := (f.rxRlp + pktWords t.data.length) % 2048 } r
    else { f with rx := t :: r }

/-- RP stands at the first word that the drain has still to read: in the packet at RLP, or at RLP where the FIFO holds none (R222). -/
def Fifo.rxRpSet (f : Fifo) : Fifo :=
  { f with rxRp := match f.rx with | t :: _ => (t.start + pktWords t.drained) % 2048 | [] => f.rxRlp }

/-- Reclaim RX space and judge the watermarks. -/
def Sys.reclaimRx (p : Nat) (y : Sys) : Sys := (y.updFifo p fun f => ((rxReclaimGo f f.rx).rxFall).rxRpSet).evalMarks p

/-- Commit an IN packet (R235). -/
def Sys.rxCommit (p : Nat) (t : RxPkt) (y : Sys) : Sys :=
  (y.updFifo p fun f =>
    ({ f with rx := f.rx ++ [{ t with num := f.rxNum, start := (f.rxWp + f.rxSkid) % 2048 }], rxNum := f.rxNum + 1,
              rxSkid := f.rxSkid + pktWords t.data.length }).rxFall).evalMarks p

/-- Change the RX packet `num` of a port. -/
def Sys.updRx (p num : Nat) (f : RxPkt → RxPkt) (y : Sys) : Sys :=
  y.updFifo p fun q => { q with rx := q.rx.map fun t => if t.num == num then f t else t }

/-- Whether a transfer's received bytes have not all been drained (R237). -/
def Sys.rxPending (y : Sys) (p id : Nat) : Bool := (y.fifo p).rx.any fun t => t.xid == id && t.st != .done

/-- An empty FIFO pair, every position 0 (R242). -/
def Sys.fifoLost (p : Nat) (y : Sys) : Sys := y.updFifo p fun _ => {}

end Sys2Proof.Machine
end

