-- ==== Sys2Proof/Machine/Holly.lean ====
section
/-! DEFINITION. Hollyhock: items, flows and trackers, the class-D quotas and the internal reserve, delay lists, notices
(R429-R446). -/

namespace Sys2Proof.Machine

/-- WSC page 0. -/
def wscPg : Pg := onePg .wsc 0

/-- The items a core holds. -/
def Core.held (k : Core) : List Item := (match k.cur with | some i => [i] | none => []) ++ k.slots

/-- Every item that holds an entry (R434). -/
def Sys.allItems (y : Sys) : List Item :=
  y.eng.holly.items ++ y.eng.holly.ovf ++ y.eng.cores.flatMap fun e => e.2.held

/-- Entries of region `n`'s class-D quota reserved or held (R437). -/
def Sys.dUsed (y : Sys) (n : Nat) : Nat :=
  FMap.get 0 n y.eng.holly.rsv + (y.allItems.filter fun i => i.region == some n).length

/-- WSC_DQUOTAn.QUOTA. -/
def Sys.dQuota (y : Sys) (n : Nat) : Nat := (y.pgReg wscPg (0x50 + 4 * n)).fld 11 0
/-- WSC_CTL.IRES. -/
def Sys.ires (y : Sys) : Nat := (y.pgReg wscPg 0x40).fld 12 0

/-- Whether a device or an enumeration stands at a position. -/
def Sys.posLive (y : Sys) (k : Nat × Nat) : Bool :=
  (y.eng.slots.any fun e => e.2.used && e.2.port == k.1 && e.2.tier == k.2) ||
    y.usb.enums.any fun e => e.port == k.1 && e.tier == k.2

/-- A control transfer of the chip whose end no command reports, still to end. -/
def Xfer.freeChip (x : Xfer) : Bool := x.fin.isNone && (match x.chip with | some d => d.free | none => false)

/-- Internal entries held, or reserved for the result of a control request (R37, R440). -/
def Sys.iUsed (y : Sys) : Nat :=
  (y.eng.holly.ctl.filter fun k => y.posLive k.2).length + (y.host.xfers.filter Xfer.freeChip).length +
    (y.allItems.filter fun i => i.region.isNone).length

/-- Entries held or reserved of the 4,096 that Hollyhock has (R434). -/
def Sys.entriesUsed (y : Sys) : Nat := y.iUsed + ((List.range 8).map y.dUsed).sum

/-- Granules that `b` bytes take (R438). -/
def granules (b : Nat) : Nat := (b + 63) / 64

/-- Whether region `n` can reserve `cnt` class-D entries with `g` granules in all (R438, R517). -/
def Sys.dCan (y : Sys) (n cnt g : Nat) : Bool :=
  y.on 17 && !y.halted wscPg && decide (y.dUsed n + cnt ≤ y.dQuota n) && decide (y.eng.holly.gran + g ≤ 16384) &&
    decide (y.entriesUsed + cnt ≤ 4096)

/-- Reserve class-D entries. -/
def Sys.dReserve (n cnt g : Nat) (y : Sys) : Sys :=
  y.updHolly fun h => { h with rsv := FMap.upd 0 n (· + cnt) h.rsv, gran := h.gran + g }

/-- Release class-D reservations that yielded no data (R438). -/
def Sys.dRelease (n cnt g : Nat) (y : Sys) : Sys :=
  y.updHolly fun h => { h with rsv := FMap.upd 0 n (· - cnt) h.rsv, gran := h.gran - g }

/-- A reservation refused is counted (R466). -/
def Sys.dRefused (y : Sys) : Sys := y.incFld wscPg 0x88 15 0

/-- The flows that have a tracker (R432). -/
def Sys.activeFlows (y : Sys) : List Nat :=
  ((y.eng.holly.items ++ y.eng.cores.flatMap fun e => e.2.held).map (·.flow)).dedup

/-- An item enters Hollyhock (R432, R433). -/
def Sys.pushItem (i : Item) (y : Sys) : Sys :=
  let fs := y.activeFlows
  let i := { i with seq := y.eng.holly.seq }
  let wait := (y.eng.holly.ovf.any fun j => j.flow == i.flow) || (!fs.contains i.flow && decide (4096 ≤ fs.length))
  y.updHolly fun h => if wait then { h with ovf := h.ovf ++ [i], seq := h.seq + 1 }
    else { h with items := h.items ++ [i], seq := h.seq + 1 }

/-- A class-D item enters with the entry that was reserved for it (R438). -/
def Sys.pushD (n : Nat) (i : Item) (y : Sys) : Sys :=
  (y.updHolly fun h => { h with rsv := FMap.upd 0 n (· - 1) h.rsv }).pushItem { i with region := some n }

/-- Whether an internal entry is free (R434, R437). -/
def Sys.iCan (y : Sys) : Bool := decide (y.iUsed < y.ires) && decide (y.entriesUsed < 4096)

/-- An internal item of a flow (R429). -/
def internalItem (k : ItemK) (flow prio : Nat) : Item := { flow := flow, what := k, prio := prio, region := none }

/-- While trackers are free, flows of the overflow list take them in order (R433). -/
def Sys.ovfDrain (y : Sys) : Sys :=
  match y.eng.holly.ovf with
  | [] => y
  | i :: _ =>
    if y.activeFlows.length < 4096 then
      y.updHolly fun h => { h with items := h.items ++ h.ovf.filter (fun j => j.flow == i.flow),
                                   ovf := h.ovf.filter (fun j => j.flow != i.flow) }
    else y

/-- The priority of a slot's items (R431, R343). -/
def Slot.prio (s : Slot) : Nat := if s.isHub then 2 else s.pers.prio

/-- Waiting notices take freed internal entries in ascending slot order (R439). -/
def Sys.noticeDrain (fuel : Nat) (y : Sys) : Sys :=
  match fuel with
  | 0 => y
  | fuel + 1 =>
    if !y.iCan then y
    else
      let held := y.allItems
      match y.eng.slots.find? fun e => (e.2.outNotice || e.2.pwrNotice) &&
          !held.any fun i => i.notice && i.flow == e.1 with
      | some e => (y.pushItem { internalItem .notice e.1 e.2.prio with notice := true }).noticeDrain fuel
      | none => y

/-- Expiries that found the reserve exhausted enter their flows in order (R440, R444). -/
def Sys.expiryDrain (fuel : Nat) (y : Sys) : Sys :=
  match fuel with
  | 0 => y
  | fuel + 1 =>
    match y.eng.holly.expired with
    | d :: r =>
      if y.iCan then
        ((y.updHolly fun h => { h with expired := r }).pushItem (internalItem .expiry d.flow d.prio)).expiryDrain fuel
      else y
    | [] => y

/-! ## The report pool (R419) -/

/-- The granules of the pool that hold data: of items, of received packets, and of records that are being read. -/
def Sys.gransUsed (y : Sys) : List Nat :=
  y.allItems.flatMap (·.grans) ++ (y.usb.fifo.flatMap fun f => f.2.rx.flatMap (·.grans)) ++ y.usb.dma.flatMap (·.2.grans)

/-- The first granule at or after `g`, in the pool's order, that is not used. -/
def freeGran (used : List Nat) : Nat → Nat → Nat
  | 0, g => g
  | fuel + 1, g => if used.contains g then freeGran used fuel ((g + 1) % 16384) else g

/-- Take `n` granules of the pool. Which the chip takes of those free is not stated: a free value. -/
def Sys.takeGrans : Nat → Sys → List Nat × Sys
  | 0, y => ([], y)
  | n + 1, y =>
    match y.takeGrans n with
    | (gs, y) =>
      let used := gs ++ y.gransUsed
      (gs ++ [freeGran used used.length ((Config.freeWord y.fresh).toNat % 16384)], { y with fresh := y.fresh + 1 })

/-- The shared SRAM offset of byte `o` of data that lies in granules `gs` with `per` bytes in each (R419). -/
def poolAt (gs : List Nat) (per o : Nat) : Nat := 0x600000 + gs.getD (o / per) 0 * 64 + o % per

/-- How many bytes of an item's data a granule holds: a record of a command endpoint has a granule of its own (R438). -/
def Item.per (i : Item) : Nat := if i.what = .record then 32 else 64

/-- Whether an item's data lies in a word of the shared SRAM (R420). -/
def Item.inWord (i : Item) (w : Nat) : Bool :=
  (List.range i.data.length).any fun o => poolAt i.grans i.per o / 8 == w

/-- Every item with a change. -/
def Sys.mapItems (f : Item → Item) (y : Sys) : Sys :=
  { y with eng := { y.eng with
    holly := { y.eng.holly with items := y.eng.holly.items.map f, ovf := y.eng.holly.ovf.map f }
    cores := y.eng.cores.map fun e => (e.1, { e.2 with cur := e.2.cur.map f, slots := e.2.slots.map f }) } }

/-! ## Control requests of firmware (R440) -/

/-- Whether transfer `x` is the control transfer that owner `o` has to position `t` of port `p`, whose end a command reports. -/
def Xfer.chipAt (x : Xfer) (o p t : Nat) : Bool :=
  x.port == p && (match x.chip with | some d => d.tier == t && d.own == o && !d.free | none => false)

/-- Whether a request waits to be issued: for its result entry, behind those issued before it (R440). -/
def Sys.reqQueued (y : Sys) (o p t : Nat) : Bool := y.eng.holly.ctlWait.any fun w => w.own == o && w.port == p && w.tier == t

/-- Whether the request of a position has not gone out: it waits for its result entry, or for its region to leave STOPPED
(R32, R175). -/
def Sys.reqWaits (y : Sys) (o p t : Nat) : Bool :=
  y.reqQueued o p t || ((y.pace (p / 16)).st == .stopped && y.host.xfers.any fun x => x.chipAt o p t && !x.begun)

/-- The slot at a tree position of port `p`. -/
def Sys.slotAt (y : Sys) (p t : Nat) : Option Nat :=
  (y.eng.slots.find? fun e => e.2.used && e.2.port == p && e.2.tier == t).map (·.1)

/-- Endpoint 0's maximum packet size: as the device descriptor says, and before it has been read 8 bytes at low speed and 64 at
full and high speed (R267). -/
def ctlMps (dev : List Byte) (sp : Speed) : Nat :=
  if 8 ≤ dev.length then max 8 (byteAt dev 7).toNat else if sp = .low then 8 else 64

/-- The device at a tree position as a control transfer of the chip finds it: one being enumerated answers address 0 until it
has taken its own (R267). -/
def Sys.cdevAt (y : Sys) (p t : Nat) : CDev :=
  match y.usb.enums.find? fun e => e.port == p && e.tier == t with
  | some e =>
    { addr := if e.step < 5 then 0 else e.addr, speed := e.speed, hub := e.hub, hubPort := e.hubPort, tier := t,
      mps := ctlMps e.dev e.speed }
  | none =>
    match y.slotAt p t with
    | some n =>
      let s := y.slot n
      { addr := s.addr, speed := s.speed, hub := s.hub, hubPort := s.hubPort, tier := t, mps := ctlMps s.dev s.speed }
    | none => { tier := t }

/-- A control transfer of firmware enters its port's frame engine, behind those issued before it (R145). -/
def Sys.chipXfer (r : CReq) (y : Sys) : Sys :=
  let x : Xfer := { id := y.host.nextX, port := r.port, slot := (y.slotAt r.port r.tier).getD 0, epid := 0, ty := 2,
                    total := half r.setup 6, setup := r.setup, stage := .setup, own := false,
                    chip := some { y.cdevAt r.port r.tier with own := r.own, free := r.free, tries := r.tries }, chipData := r.data }
  { y with host := { y.host with xfers := y.host.xfers ++ [x], nextX := y.host.nextX + 1 } }

/-- Control transfers of the chip are over. One of which received bytes are still to be drained stays, ended, until they have been
(R237). -/
def Sys.chipOver (sel : Xfer → Bool) (y : Sys) : Sys :=
  each (fun (x : Xfer) (y : Sys) =>
    if y.rxPending x.port x.id || y.drainBusy x.id then
      (y.updX x.id fun x => { x with fin := some 0, silent := true, chip := x.chip.map fun d => { d with free := true } }).xferLeaves x
    else ({ y with host := { y.host with xfers := y.host.xfers.filter fun z => z.id != x.id } }).xferLeaves x)
    (y.host.xfers.filter sel) y

/-- The request that an owner has at a position is over. -/
def Sys.chipDone (o p t : Nat) (y : Sys) : Sys := y.chipOver fun x => x.chipAt o p t

/-- A control request goes to its frame engine with its result entry reserved. -/
def Sys.issueNow (r : CReq) (y : Sys) : Sys :=
  let k := (r.own, r.port, r.tier)
  (if r.free then y else y.updHolly fun h => { h with ctl := h.ctl.filter (· != k) ++ [k] }).chipXfer r

/-- A control request goes out once its result entry is reserved, after those that wait for one (R440). -/
def Sys.ctlIssue (r : CReq) (y : Sys) : Sys :=
  if y.eng.holly.ctlWait.isEmpty && y.iCan then y.issueNow r
  else y.updHolly fun h => { h with ctlWait := h.ctlWait ++ [r] }

/-- Issue owner `o`'s control request to the device at a position, in place of one of its own that has not ended (R325, R440). -/
def Sys.issue (o p t : Nat) (setup data : List Byte) (y : Sys) : Sys :=
  let y := (y.updHolly fun h =>
    { h with ctl := h.ctl.filter (· != (o, p, t)),
             ctlWait := h.ctlWait.filter fun w => w.free || !(w.own == o && w.port == p && w.tier == t) }).chipDone o p t
  y.ctlIssue { own := o, port := p, tier := t, setup := setup, data := data }

/-- Waiting requests take freed entries in order; those to devices that have gone are dropped. -/
def Sys.issueDrain (fuel : Nat) (y : Sys) : Sys :=
  match fuel with
  | 0 => y
  | fuel + 1 =>
    match y.eng.holly.ctlWait with
    | w :: r =>
      if !y.posLive (w.port, w.tier) then (y.updHolly fun h => { h with ctlWait := r }).issueDrain fuel
      else if y.iCan then ((y.updHolly fun h => { h with ctlWait := r }).issueNow w).issueDrain fuel
      else y
    | [] => y

/-- A request's result enters a flow with the entry reserved for it. -/
def Sys.reqResult (o p t flow prio : Nat) (y : Sys) : Sys :=
  let y := y.chipDone o p t
  if y.eng.holly.ctl.contains (o, p, t) then
    (y.updHolly fun h => { h with ctl := h.ctl.filter (· != (o, p, t)) }).pushItem (internalItem .result flow prio)
  else y

/-! ## Delay lists (R443-R446) -/

/-- Ticks of delay list `j`, in microseconds. -/
def Sys.dlyTick (y : Sys) (j : Nat) : Nat := (y.pgReg wscPg (0x70 + 4 * j)).fld 10 0

/-- The current tick of list `j`, modulo 2³² (R443). -/
def Sys.dlyNow (y : Sys) (j : Nat) : Nat := (y.tb / max 1 (y.dlyTick j)) % 4294967296

/-- Whether tick `a` is at or before tick `b` (R443). -/
def tickLe (a b : Nat) : Bool := decide ((b + 4294967296 - a % 4294967296) % 4294967296 < 2147483648)

/-- Items that hold a pool entry: those not due yet, and those whose expiry waits for an internal entry in its list (R440). -/
def Holly.delayed (h : Holly) : List Delay := h.delays ++ h.expired

/-- Pool entries in use. -/
def Sys.dlyUsed (y : Sys) : Nat := y.eng.holly.delayed.length

/-- A due item enters its flow, or waits for an internal entry (R440). -/
def Sys.expire (d : Delay) (y : Sys) : Sys :=
  if y.eng.holly.expired.isEmpty && y.iCan then y.pushItem (internalItem .expiry d.flow d.prio)
  else y.updHolly fun h => { h with expired := h.expired ++ [d] }

/-- Sorted by due tick, then by insertion order. -/
def dlyInsert (now : Nat) (d : Delay) : List Delay → List Delay
  | [] => [d]
  | e :: r =>
    if e.list = d.list ∧ (d.due + 4294967296 - now) % 4294967296 < (e.due + 4294967296 - now) % 4294967296 then d :: e :: r
    else e :: dlyInsert now d r

/-- Cancel timer `tag` of a flow: its item leaves its list, and its entry is free (R444). -/
def Sys.delayCancel (flow tag : Nat) (y : Sys) : Sys :=
  let keep := fun (d : Delay) => !(d.flow == flow && d.tag == tag)
  y.updHolly fun h => { h with delays := h.delays.filter keep, late := h.late.filter keep, expired := h.expired.filter keep }

/-- Insert an item due at tick `due` of list `j` (R443-R445). -/
def Sys.delayIn (j due flow prio tag : Nat) (y : Sys) : Sys :=
  let d : Delay := { due := due % 4294967296, flow := flow, prio := prio, seq := y.eng.holly.seq, list := j, tag := tag }
  let y := y.updHolly fun h => { h with seq := h.seq + 1 }
  if tickLe d.due (y.dlyNow j) then y.expire d
  else if y.dlyUsed < 8192 then y.updHolly fun h => { h with delays := dlyInsert (y.dlyNow j) d h.delays }
  else
    let y := if (y.pgReg wscPg 0x80).fld 31 16 = 0 then y.recordErr wscPg 8 0 else y
    (y.updHolly fun h => { h with late := h.late ++ [d] }).incFld wscPg 0x80 31 16

/-- Freed pool entries take the late list's heads (R445). -/
def Sys.lateDrain (fuel : Nat) (y : Sys) : Sys :=
  match fuel with
  | 0 => y
  | fuel + 1 =>
    match y.eng.holly.late with
    | d :: r =>
      if y.dlyUsed < 8192 then
        let y := y.updHolly fun h => { h with late := r }
        (if tickLe d.due (y.dlyNow d.list) then y.expire d
         else y.updHolly fun h => { h with delays := dlyInsert (y.dlyNow d.list) d h.delays }).lateDrain fuel
      else y
    | [] => y

/-- A tick of list `j` begins (R444). -/
def Sys.delayTick (j : Nat) (y : Sys) : Sys :=
  let now := y.dlyNow j
  let due := y.eng.holly.delays.filter fun d => d.list == j && tickLe d.due now
  let y := y.updHolly fun h => { h with delays := h.delays.filter fun d => !(d.list == j && tickLe d.due now) }
  (each (fun d y => y.expire d) due y).lateDrain y.eng.holly.late.length

/-! ## Freed entries, notices -/

/-- What a freed entry lets in. -/
def Sys.entryFreed (y : Sys) : Sys :=
  ((((y.ovfDrain).expiryDrain y.eng.holly.expired.length).lateDrain y.eng.holly.late.length).issueDrain
    y.eng.holly.ctlWait.length).noticeDrain y.eng.slots.length

/-- A notice to a device's flow (R439): OUT-completion bytes add to the sum, a power change sets the flag. -/
def Sys.notify (n bytes : Nat) (pwr : Bool) (y : Sys) : Sys :=
  (y.updSlot n fun s =>
    { s with notice := min 4294967295 (s.notice + bytes), outNotice := s.outNotice || !pwr, pwrNotice := s.pwrNotice || pwr,
             noteAt := y.tb }).noticeDrain 1

/-! ## Dispatch (R434-R436) -/

/-- Whether core `c` may take an item (R435). -/
def Sys.coreTakes (y : Sys) (c : Nat) : Bool :=
  let k := y.core c
  (k.st == .idle || k.st == .running) && (y.pgReg ⟨.core, c, 0⟩ 0x40).bit 1 && decide (k.held.length < 3) &&
    decide (8 * (k.held.length + 1) ≤ 32 - k.outUsed)

/-- The core that holds a flow. -/
def Sys.holder (y : Sys) (f : Nat) : Option Nat :=
  (y.eng.cores.find? fun e => e.2.held.any fun i => i.flow == f).map (·.1)

/-- The first item of each flow, in arrival order. -/
def headsOf (seen : List Nat) : List Item → List Item
  | [] => []
  | i :: r => if seen.contains i.flow then headsOf seen r else i :: headsOf (i.flow :: seen) r

/-- The best of a list by priority, then arrival (R436). -/
def bestItem : List Item → Option Item
  | [] => none
  | i :: r => match bestItem r with
    | none => some i
    | some j => if j.prio < i.prio ∨ (j.prio = i.prio ∧ j.seq < i.seq) then some j else some i

/-- The candidate that core `c` would be given (R435, R436). -/
def Sys.candidate (y : Sys) (c : Nat) : Option Item :=
  bestItem ((headsOf [] y.eng.holly.items).filter fun i =>
    match y.holder i.flow with | none => true | some d => d == c)

/-- Cores in the order of service: fewer items first, then rotation (R436). -/
def Sys.coreOrder (y : Sys) : List Nat :=
  let cs := coresAfter y.eng.holly.rot
  (cs.filter fun c => (y.core c).held.length == 0) ++ (cs.filter fun c => (y.core c).held.length == 1) ++
    (cs.filter fun c => (y.core c).held.length == 2)

/-- Give core `c` an item: it runs, or it fills a prefetch slot (R436). -/
def Sys.giveItem (c : Nat) (i : Item) (y : Sys) : Sys :=
  (y.updHolly fun h => { h with items := h.items.filter (fun j => j.seq != i.seq), rot := c }).updCore c fun k =>
    if k.cur.isNone then { k with cur := some i, st := .running } else { k with slots := k.slots ++ [i] }

/-- Items go back to the heads of their flows, keeping their places in order (R426, R427). -/
def insSeq (i : Item) : List Item → List Item
  | [] => [i]
  | j :: r => if i.seq < j.seq then i :: j :: r else j :: insSeq i r

/-- Return a core's prefetched items. -/
def Sys.returnSlots (c : Nat) (y : Sys) : Sys :=
  let is := (y.core c).slots
  (y.updHolly fun h => { h with items := is.foldl (fun l i => insSeq i l) h.items }).updCore c fun k =>
    { k with slots := [] }

/-- The running item of core `c` ends: its entry and granules free, and its next prefetched item starts (R436). -/
def Sys.itemDone (c : Nat) (y : Sys) : Sys :=
  match (y.core c).cur with
  | none => y
  | some i =>
    let y := y.updHolly fun h => { h with gran := h.gran - i.gran }
    let y := y.updCore c fun k =>
      match k.slots with
      | j :: r => { k with cur := some j, slots := r }
      | [] => { k with cur := none, st := if k.st == .running then .idle else k.st }
    y.entryFreed

end Sys2Proof.Machine
end

