-- ==== Sys2Proof/Machine/Chan.lean ====
section
/-! DEFINITION. DMA channels: their pages, the TLPs and beats of a burst, the competition of bursts, read requests, and the
host DMA's groups (R186-R204, R209). -/

namespace Sys2Proof.Machine

/-- The page of engine `e`'s channel `c`: engine 0 is the host DMA, engine n + 1 region n's (R217). -/
def dmaPg (e c : Nat) : Pg := if e = 0 then onePg .hdma (c / 8) else ⟨.rdma, e - 1, 0⟩
/-- The page that holds an engine's DMA_ENG_CTL and ERR_STAT of the block. -/
def dmaMain (e : Nat) : Pg := if e = 0 then onePg .hdma 0 else ⟨.rdma, e - 1, 0⟩
/-- DMA_ENG_CTL.RETRY. -/
def Sys.dmaRetry (y : Sys) (e : Nat) : Nat := (y.pgReg (dmaMain e) 0x240).fld 2 0
/-- Max_Payload_Size in force, in bytes (R202, R218). -/
def Sys.maxPayload (y : Sys) : Nat := 128 * 2 ^ y.pins.mps
/-- Max_Read_Request_Size in force, in bytes (R202, R218). -/
def Sys.maxRead (y : Sys) : Nat := 128 * 2 ^ y.pins.mrrs

/-! ## TLPs and beats -/

/-- A range of `n` bytes at `a` cut at every multiple of `m`: address and length of each part. -/
def cutAt (m : Nat) : Nat → Nat → Nat → List (Nat × Nat)
  | 0, _, _ => []
  | fuel + 1, a, n =>
    if n = 0 then []
    else
      let c := min n (m - a % m)
      (a, c) :: cutAt m fuel (a + c) (n - c)

/-- The TLPs of a host-bound write or read (R201): cut at every multiple of `m`. -/
def tlpsOf (m a n : Nat) : List (Nat × Nat) := cutAt m (n / m + 2) a n

/-- The beats of a burst (R199): head, whole beats of 32 bytes, tail. -/
def beatsOf (a n : Nat) : List Nat := (tlpsOf 32 a n).map (·.2)

/-- A TLP's length in dwords (R201); the zero-length flushing read has one (R118). -/
def tlpDws (a n : Nat) : Nat := max 1 ((a % 4 + n + 3) / 4)

/-- A TLP's first byte enables (R118, R201). -/
def firstBe (a n : Nat) : Nat := if n = 0 then 0 else 2 ^ min 4 (a % 4 + n) - 2 ^ (a % 4)

/-- A TLP's last byte enables; a TLP of one dword has none (PCIe). -/
def lastBe (a n : Nat) : Nat := if tlpDws a n ≤ 1 then 0 else 2 ^ ((a + n - 1) % 4 + 1) - 1

/-- Dword address, length in dwords and byte enables with which a memory request leaves. -/
def Out.tlp : Out → Option (Nat × Nat × Nat × Nat)
  | .mem _ _ _ a bs => some (a - a % 4, tlpDws a bs.length, firstBe a bs.length, lastBe a bs.length)
  | .rd _ a n => some (a - a % 4, tlpDws a n, firstBe a n, lastBe a n)
  | _ => none

/-- Issue a write as its TLPs, in rising order (R201, R206); `bad o n` says whether the `n` bytes from byte `o` on hold a poisoned
word, which marks their TLP poisoned (R238, R420). -/
def Sys.writeTlps (x : Option Pfx) (ro : Bool) (bad : Nat → Nat → Bool) (a : Nat) (bs : List Byte) (y : Sys) : Sys :=
  each (fun (t : Nat × Nat) (y : Sys) => y.emit (.mem x ro (bad (t.1 - a) t.2) t.1 ((bs.drop (t.1 - a)).take t.2)))
    (tlpsOf y.maxPayload a bs.length) y

/-- The rest of a long read of the chip's own, each 256 bytes asked for once those before them have come (R196, R201). -/
def Sys.readRest : Nat → Nat → Nat → Sys → Sys
  | 0, _, _, y => y
  | fuel + 1, a, n, y =>
    if n = 0 then y
    else
      let y := each (fun (t : Nat × Nat) (y : Sys) => y.emit (.rd none t.1 t.2)) (tlpsOf y.maxRead a (min n 256)) y
      y.readRest fuel (a + 256) (n - 256)

/-! ## Bursts -/

/-- Whether a channel carries a burst. -/
def Chan2.carries (k : Chan2) : Bool := k.st == .active || k.st == .preempted || k.st == .retry

/-- Bytes of the present burst that have come to the channel. -/
def Chan2.got (k : Chan2) : Nat := k.bytes - k.bst + k.buf.length

/-- Whether a burst can use the host link: HOST is ON, and PASID Enable is set where it carries a PASID (R204, R505). -/
def Sys.linkFree (y : Sys) (k : Chan2) : Bool := !k.link || (y.hostOn && (k.inst.isNone || y.pins.pasidEn))

/-- Whether burst `k` of channel key `n` gives way: a burst of higher priority moves on its engine's data path, or, where both
use it, at the host link (R194, R195). A burst moves from its start to its end where it writes; a read only asks and takes. -/
def Sys.blocked (y : Sys) (n : Nat) (k : Chan2) : Bool :=
  y.usb.dma.any fun e => e.1 != n && (e.2.st == .active || e.2.st == .preempted) && e.2.toHost && decide (0 < e.2.len) &&
    y.linkFree e.2 && decide (e.2.prio < k.prio) && (e.1 / 32 == n / 32 || (e.2.link && k.link))

/-- Read requests outstanding chip-wide, in TLPs (R202). -/
def Sys.readsOut (y : Sys) : Nat := y.usb.dma.foldl (fun a e => a + e.2.outst.length) 0

/-- How many read requests may be outstanding (R202). -/
def Sys.readLimit (y : Sys) : Nat := if y.pins.extTag then 256 else 32

/-- A channel issues the read requests of its burst that it may (R196, R201, R202, R204): no more than 256 bytes asked for and
not yet delivered, none while it gives way, in TLPs. -/
def Sys.readIssue (e c : Nat) : Nat → Sys → Sys
  | 0, y => y
  | fuel + 1, y =>
    let k := y.chan e c
    if k.st == .active && !k.toHost && !k.setup && decide (k.req < k.len) && decide (k.req - k.got < 256) &&
        y.linkFree k && !y.blocked (e * 32 + c) k && decide (y.readsOut < y.readLimit) then
      match tlpsOf y.maxRead (k.addr + k.bst + k.req) (min (k.len - k.req) (256 - (k.req - k.got))) with
      | (a, n) :: _ =>
        let y := (y.updChan e c fun k => { k with req := k.req + n, outst := k.outst ++ [n] }).emit (.rd (y.pfx k.inst) a n)
        let y := { y with usb := { y.usb with linkRot := e, chanRot := FMap.put 31 e c y.usb.chanRot } }
        y.readIssue e c fuel
      | [] => y
    else y

/-- A channel is IDLE again. -/
def Sys.chanIdle (e c : Nat) (y : Sys) : Sys := y.updChan e c fun k => { st := .idle, err := k.err }

/-! ## The groups of the host DMA (R188) -/

/-- The lowest-numbered idle channel of the host DMA group that begins at `g`. -/
def Sys.hostChan (y : Sys) (g : Nat) : Option Nat := ((List.range 8).map (g + ·)).find? fun c => (y.chan 0 c).st == .idle

/-- Whether a RECORD channel is idle. -/
def Sys.recChan (y : Sys) : Bool := (y.hostChan 8).isSome

/-- Whether a RECORD channel takes what carries a PASID: writebacks, records and events wait while none is idle (R188) or PASID
Enable is clear (R204). -/
def Sys.recOpen (y : Sys) : Bool := y.recChan && y.pins.pasidEn

/-- The channel that carries a request. -/
def Sys.hostCarrier (y : Sys) (u : HUse) : Option Nat :=
  (List.range 32).find? fun c => (y.chan 0 c).carries && (y.chan 0 c).use == u

/-- A request goes to the lowest-numbered idle channel of its group and is sampled (R188, R191); it waits where none is idle,
or where it would carry a PASID while PASID Enable is clear (R204). -/
def Sys.hostTake (g : Nat) (u : HUse) (i : Option Nat) (a n : Nat) (y : Sys) : Sys :=
  if (y.hostCarrier u).isSome || (i.isSome && !y.pins.pasidEn) then y
  else
    match y.hostChan g with
    | none => y
    | some c =>
      let y := y.updChan 0 c fun k =>
        { st := .active, use := u, prio := (y.pgReg (dmaPg 0 c) (0x40 + 0x40 * (c % 8))).fld 1 0, inst := i, addr := a, len := n,
          err := k.err }
      let y := if 0 < n && y.blocked c (y.chan 0 c) then y.updChan 0 c fun k => { k with st := .preempted } else y
      if n = 0 then (y.updChan 0 c fun k => { k with outst := [0] }).emit (.rd (y.pfx i) a 0) else y.readIssue 0 c 8

/-- A context or scan read, or a context write, that no FETCH channel can take yet waits in the order of arrival (R188). -/
def Sys.fetchWait (u : HUse) (y : Sys) : Sys :=
  if y.host.fetchQ.contains u then y else { y with host := { y.host with fetchQ := y.host.fetchQ ++ [u] } }

end Sys2Proof.Machine
end

