-- ==== Sys2Proof/Machine/Desc.lean ====
section
/-! DEFINITION. Reading the standard USB descriptors that enumeration keeps (R267, R269, R387). -/

namespace Sys2Proof.Machine

/-- An endpoint of a configuration with its interface. -/
structure EpD where
  iface : Nat
  alt : Nat
  cls : Nat
  sub : Nat
  proto : Nat
  addr : Nat
  attr : Nat
  mps : Nat
  mult : Nat
  interval : Nat
  deriving DecidableEq, Repr

/-- The descriptors in a byte string, each by its bLength; reading stops at a bLength below 2 or beyond the end. -/
def splitDescs : Nat → List Byte → List (List Byte)
  | 0, _ => []
  | n + 1, bs =>
    let l := (byteAt bs 0).toNat
    if l < 2 ∨ bs.length < l then [] else bs.take l :: splitDescs n (bs.drop l)

/-- The descriptors of a configuration. -/
def cfgDescs (cfg : List Byte) : List (List Byte) := splitDescs cfg.length cfg

/-- An interface descriptor: number, alternate setting, class, subclass, protocol. -/
def ifaceOf (d : List Byte) : Nat × Nat × Nat × Nat × Nat :=
  ((byteAt d 2).toNat, (byteAt d 3).toNat, (byteAt d 5).toNat, (byteAt d 6).toNat, (byteAt d 7).toNat)

/-- The interfaces of a configuration. -/
def cfgIfaces (cfg : List Byte) : List (Nat × Nat × Nat × Nat × Nat) :=
  ((cfgDescs cfg).filter fun d => byteAt d 1 == 4).map ifaceOf

/-- The endpoints below the descriptors read so far; `i` is the interface they belong to. -/
def epsGo (i : Nat × Nat × Nat × Nat × Nat) : List (List Byte) → List EpD
  | [] => []
  | d :: r =>
    if byteAt d 1 == 4 then epsGo (ifaceOf d) r
    else if byteAt d 1 == 5 then
      let w := half d 4
      ⟨i.1, i.2.1, i.2.2.1, i.2.2.2.1, i.2.2.2.2, (byteAt d 2).toNat, (byteAt d 3).toNat, w % 2048,
        (w / 2048) % 4 + 1, (byteAt d 6).toNat⟩ :: epsGo i r
    else epsGo i r

/-- The endpoints of a configuration. -/
def cfgEps (cfg : List Byte) : List EpD := epsGo (0, 0, 0, 0, 0) (cfgDescs cfg)

/-- The configuration descriptor whose bConfigurationValue is `v`. -/
def Slot.cfgBytes (s : Slot) (v : Nat) : List Byte :=
  ((s.cfgs.find? fun c => (byteAt c 5).toNat == v).getD [])

/-- The endpoints of the configuration in force. -/
def Slot.epDescs (s : Slot) : List EpD := if s.config = 0 then [] else cfgEps (s.cfgBytes s.config)

/-- The endpoint descriptor of EPID `e` in the configuration in force. -/
def Slot.epDesc? (s : Slot) (e : Nat) : Option EpD := s.epDescs.find? fun d => epidOf d.addr == e

end Sys2Proof.Machine
end

