-- ==== Sys2Proof/Machine/Mbox.lean ====
section
/-! DEFINITION. Mailbox channels: tenant mailboxes (R394-R400), internal mailboxes (R458-R464), and what resets do to both
(R398, R462). -/

namespace Sys2Proof.Machine

/-- Vivel versions, newest first (R404). -/
def vivels : List (Nat × Nat) := [(2, 1), (2, 0), (1, 2), (1, 1), (1, 0)]

/-- Whether version `a` is not newer than `b`. -/
def verLe (a b : Nat × Nat) : Bool := decide (a.1 < b.1) || (a.1 == b.1 && decide (a.2 ≤ b.2))

/-- The master number of an access (R16): 0 for the tenant. -/
def masterOf : Origin → Nat
  | .manager => 18
  | .loader => 19
  | .core c => c.val + 1
  | .smbus => 17
  | .tenant => 0

/-! ## Events of mailboxes (R401, R464) -/

/-- Dwords 3 and 4 of MAILBOX and REVOKED. -/
def mailDws (id dir : Nat) (internal : Bool) (c : Chan) : List Word :=
  [Word.ofN (id + dir * 4096 + (if internal then 8192 else 0) + c.len * 65536 + c.sender * 16777216),
   FMap.get 0 0 c.data &&& 0xFFFF00FF#32]

/-- A channel whose message has been revoked (R398): GO, LEN and DATA are gone. -/
def Chan.revoke (c : Chan) : Chan := { revoked := true, sender := c.sender }

/-- LEN of a control write, where it is accepted: 1-16. -/
def Chan.setLen (n : Nat) (c : Chan) : Chan := if 1 ≤ n ∧ n ≤ 16 then { c with len := n } else c

/-! ## Tenant mailboxes -/

/-- TMB page of an instance. -/
def tmbPg (i : Nat) : Pg := ⟨.tmb, i, 0⟩

/-- Whether HELLO of an UP message goes to the firmware agent (R397). -/
def Sys.toAgent (y : Sys) (i : Nat) (c : Chan) : Bool := (y.inst i).agent && (FMap.get 0 0 c.data).fld 7 0 == 1 && y.on 17

/-- MAILBOX for a posted UP message, on the instance's vector (R372, R395). -/
def Sys.upEvent (i : Nat) (y : Sys) : Sys :=
  y.meqEvent (some (y.inst i).vec) (y.ev 0xB 0 0 0 (mailDws i 0 false (y.inst i).up))

/-- MAILBOX for a posted DOWN message; while HOST is in RETENTION it sets wake latch 35 (R520). -/
def Sys.dnEvent (i : Nat) (y : Sys) : Sys :=
  let y := y.tenantEvent i (y.ev 0xB 0 0 0 (mailDws i 1 false (y.inst i).dn))
  if y.isRet 16 then y.latchSet 35 (latchTo 35) else y

/-- The tenant posts on UP (R395, R397). -/
def Sys.upPost (i : Nat) (y : Sys) : Sys :=
  let y := y.updInst i fun n => { n with up := { n.up with go := true, sender := 0, again := false } }
  if y.toAgent i (y.inst i).up then y else y.upEvent i

/-- Whether master `m` may write the DOWN channel; a write against the lock is discarded and sets LOCKED (R396). -/
def Sys.dnLocked (i m : Nat) (y : Sys) : Bool := decide ((y.inst i).lock ≠ 0) && decide ((y.inst i).lock ≠ m)

/-- A write of TMB_UP_CTL by the tenant (R395, R415). -/
def Sys.upCtlSend (i : Nat) (go : Bool) (len : Nat) (y : Sys) : Sys :=
  if (y.inst i).up.go then y
  else
    let y := y.updInst i fun n => { n with up := n.up.setLen len }
    if go then y.upPost i else y

/-- A write of TMB_DN_CTL by a master; while GO = 1 its LEN, whatever it is, is discarded (R395). -/
def Sys.dnCtlSend (i m : Nat) (go : Bool) (len : Nat) (y : Sys) : Sys :=
  if y.dnLocked i m then y.recordErr (tmbPg i) 8 0
  else if (y.inst i).dn.go then y.recordErr (tmbPg i) 9 0
  else
    let y := y.updInst i fun n => { n with dn := n.dn.setLen len }
    if go then (y.updInst i fun n => { n with dn := { n.dn with go := true, sender := m } }).dnEvent i else y

/-- The receiver clears GO or REVOKED of UP. -/
def Sys.upCtlRecv (i : Nat) (go rev : Bool) (y : Sys) : Sys :=
  y.updInst i fun n => { n with up := { n.up with go := n.up.go && !go, revoked := n.up.revoked && !rev } }

/-- The receiver clears GO or REVOKED of DOWN. -/
def Sys.dnCtlRecv (i : Nat) (go rev : Bool) (y : Sys) : Sys :=
  y.updInst i fun n => { n with dn := { n.dn with go := n.dn.go && !go, revoked := n.dn.revoked && !rev } }

/-- A read of TMB_DN_LOCK (R396): the value, and the state after. -/
def Sys.dnLockRead (i m : Nat) (y : Sys) : Nat × Sys :=
  let l := (y.inst i).lock
  if l = 0 then (0, y.updInst i fun n => { n with lock := m }) else if l = m then (0, y) else (l, y)

/-- A write of TMB_DN_LOCK: the owner releases the lock by writing 0. -/
def Sys.dnLockWrite (i m v : Nat) (y : Sys) : Sys :=
  if v = 0 && (y.inst i).lock == m then y.updInst i fun n => { n with lock := 0 } else y

/-! ## Revocation (R398) -/

/-- REVOKED for a channel as it was. -/
def Sys.revokedEv (y : Sys) (id dir : Nat) (internal : Bool) (c : Chan) (cause : Nat) : Ev :=
  y.ev 0xC 0 0 0 (mailDws id dir internal c ++ [Word.ofN cause])

/-- An UP message is revoked. -/
def Sys.upRevoke (i cause : Nat) (y : Sys) : Sys :=
  let n := y.inst i
  if n.up.go then
    (y.updInst i fun n => { n with up := n.up.revoke }).meqEvent (some n.vec) (y.revokedEv i 0 false n.up cause)
  else y

/-- A DOWN message is revoked. -/
def Sys.dnRevoke (i cause : Nat) (y : Sys) : Sys :=
  let n := y.inst i
  if n.dn.go then
    (y.updInst i fun n => { n with dn := n.dn.revoke }).tenantEvent i (y.revokedEv i 1 false n.dn cause)
  else y

/-- Tenant mailboxes when master `m` is reset (R398). -/
def Sys.tmbReset (m cause : Nat) (y : Sys) : Sys :=
  each (fun i (y : Sys) =>
    let y := if (y.inst i).dn.sender == m then y.dnRevoke i cause else y
    if (y.inst i).lock == m then y.updInst i fun n => { n with lock := 0 } else y) (y.host.insts.map (·.1)) y

/-! ## Internal mailboxes -/

/-- Channel `j`. -/
def Sys.mbx (y : Sys) (j : Nat) : Mbx := FMap.get {} j y.eng.mbx
/-- Change channel `j`. -/
def Sys.updMbx (j : Nat) (f : Mbx → Mbx) (y : Sys) : Sys :=
  { y with eng := { y.eng with mbx := FMap.upd {} j f y.eng.mbx } }

/-- The page and offset of channel `j`'s registers (R469). -/
def mbxPg (j : Nat) : Pg := onePg .mbx (j / 4)
/-- The first offset of channel `j`. -/
def mbxOff (j : Nat) : Nat := 0x40 + 0x100 * (j % 4)

/-- The domain of a master as a receiver (R463); 63 for Snowdrop. -/
def recvDom (m : Nat) : Nat := if 1 ≤ m ∧ m ≤ 16 then 17 + m else if m = 17 then 63 else 16

/-- Whether a master is in reset (R461). -/
def Sys.masterDown (y : Sys) (m : Nat) : Bool :=
  if 1 ≤ m ∧ m ≤ 16 then
    (y.core (m - 1)).st == .starting || (y.core (m - 1)).st == .resetting
  else if m = 18 then y.host.decust.restart
  else if m = 19 then y.ldr.phase == .ready
  else false

/-- Whether a channel's registers answer an error (R463): its receiver's domain is OFF, or its receiver is in reset. -/
def Sys.noRecv (y : Sys) (j : Nat) : Bool :=
  let r := (y.mbx j).recv
  decide (r ≠ 0) && ((decide (r ≠ 17) && (y.dom (recvDom r)).st == .off) || y.masterDown r)

/-- LDR_STAT.MBX (R487): a message waits for master 19. -/
def Sys.ldrMbx (y : Sys) : Bool := y.eng.mbx.any fun e => e.2.recv == 19 && e.2.ch.go

/-- A loader message, where LDR_CTL.IE allows it (R487). -/
def Sys.ldrMsg (y : Sys) : Sys :=
  let w := y.pgReg (onePg .ldr 0) 0x48
  if w.bit 8 then y.msix (w.fld 5 0) else y

/-- The receiver of channel `j` is told (R458): a core through its CIC source, the manager by an event, the loader by its
message. A receiver or SCHED in RETENTION is woken (R463, R520). -/
def Sys.mbxTell (j : Nat) (e : Ev) (first : Bool) (y : Sys) : Sys :=
  let r := (y.mbx j).recv
  let y :=
    if 1 ≤ r ∧ r ≤ 16 then y.cicPulse (32 + j)
    else if r = 18 then y.meqEvent none e
    else if r = 19 then (if first then y.ldrMsg else y)
    else y
  if y.isRet 17 || y.isRet (recvDom r) then
    y.latchSet 34 (if recvDom r = 16 then (if y.isRet 16 then .host else .doms [17]) else .doms [17, recvDom r])
  else y

/-- MAILBOX of channel `j`. -/
def Sys.mbxPosted (j : Nat) (y : Sys) : Ev := y.ev 0xB 0 0 0 (mailDws j 0 true (y.mbx j).ch)

/-- A message is posted on channel `j` by master `m` (R459). -/
def Sys.mbxGo (j m : Nat) (y : Sys) : Sys :=
  let was := y.ldrMbx
  let y := y.updMbx j fun c => { c with ch := { c.ch with go := true, sender := m } }
  y.mbxTell j (y.mbxPosted j) (!was)

/-- A write of MBX_CTLj or MBX_DATAj_d by master `m`: while another master holds the lock it is discarded and sets LOCKED, whatever
the writer's role (R460). -/
def Sys.mbxWrite (j m : Nat) (f : Sys → Sys) (y : Sys) : Sys :=
  if (y.mbx j).lock ≠ 0 ∧ (y.mbx j).lock ≠ m then y.recordErr (mbxPg j) 8 j else f y

/-- A sender's write of LEN and GO (R459): while GO = 1 its LEN, whatever it is, is discarded. -/
def Sys.mbxSend (j m : Nat) (go : Bool) (len : Nat) (y : Sys) : Sys :=
  let c := y.mbx j
  if c.recv = 0 then y
  else if c.ch.go then y.recordErr (mbxPg j) 9 j
  else
    let y := y.updMbx j fun c => { c with ch := c.ch.setLen len }
    if go then y.mbxGo j m else y

/-- The receiver's write of GO and REVOKED. -/
def Sys.mbxRecv (j : Nat) (go rev : Bool) (y : Sys) : Sys :=
  y.updMbx j fun c => { c with ch := { c.ch with go := c.ch.go && !go, revoked := c.ch.revoked && !rev } }

/-- A write of MBX_CTLj: a master's identity decides its role (R469). -/
def Sys.mbxCtl (j m : Nat) (v : Word) (y : Sys) : Sys :=
  y.mbxWrite j m fun y => if m = (y.mbx j).recv then y.mbxRecv j (v.bit 0) (v.bit 1) else y.mbxSend j m (v.bit 0) (v.fld 8 4)

/-- A write of MBX_DATAj_d. -/
def Sys.mbxData (j m d : Nat) (v : Word) (y : Sys) : Sys :=
  y.mbxWrite j m fun y =>
  let c := y.mbx j
  if c.recv = 0 then y
  else if m = c.recv then y.accErr (mbxPg j)
  else if c.ch.go then y.recordErr (mbxPg j) 9 j
  else y.updMbx j fun c => { c with ch := { c.ch with data := FMap.put 0 d v c.ch.data } }

/-- A write of MBX_CFGj (R458, R614). -/
def Sys.mbxCfg (j : Nat) (v : Word) (y : Sys) : Sys :=
  let c := y.mbx j
  let r := v.fld 4 0
  if c.ch.go || decide (c.lock ≠ 0) || decide (19 < r) then y.cfgErr (mbxPg j)
  else y.updMbx j fun c => { c with recv := r }

/-- A read of MBX_LOCKj (R460): the value, and the state after. -/
def Sys.mbxLockRead (j m : Nat) (y : Sys) : Nat × Sys :=
  let l := (y.mbx j).lock
  if l = 0 then (0, y.updMbx j fun c => { c with lock := m }) else if l = m then (0, y) else (l, y)

/-- A write of MBX_LOCKj: the owner releases the lock by writing 0. -/
def Sys.mbxLockWrite (j m v : Nat) (y : Sys) : Sys :=
  if v = 0 && (y.mbx j).lock == m then y.updMbx j fun c => { c with lock := 0 } else y

/-- NORECV (R463): the access changes nothing else. -/
def Sys.mbxNone (j : Nat) (y : Sys) : Sys := y.recordErr (mbxPg j) 10 j

/-- Internal mailboxes when master `m` is reset (R462): its messages are revoked with `cause`, its locks released, and messages
for it are told again when it leaves reset. -/
def Sys.mbxReset (m cause : Nat) (y : Sys) : Sys :=
  each (fun j (y : Sys) =>
    let c := y.mbx j
    let y := if c.lock == m then y.updMbx j fun c => { c with lock := 0 } else y
    if c.ch.go && c.ch.sender == m then
      let e := y.revokedEv j 0 true c.ch cause
      let y := y.updMbx j fun c => { c with ch := c.ch.revoke, again := decide (c.recv = m) }
      if c.recv = m then y else y.mbxTell j e false
    else if c.ch.go && c.recv == m then y.updMbx j fun c => { c with again := true }
    else y) (y.eng.mbx.map (·.1)) y

/-- Master `m` leaves reset: what waits for it is told again (R462). -/
def Sys.mbxAgain (m : Nat) (y : Sys) : Sys :=
  each (fun j (y : Sys) =>
    let c := y.mbx j
    if c.again && c.recv == m then
      let y := y.updMbx j fun c => { c with again := false }
      y.mbxTell j (if c.ch.go then y.mbxPosted j else y.revokedEv j 0 true c.ch 3) true
    else y) (y.eng.mbx.map (·.1)) y

/-- Both kinds of mailbox when core `c` is reset. -/
def Sys.coreMail (c : Nat) (y : Sys) : Sys := (y.tmbReset (c + 1) 4).mbxReset (c + 1) 4

end Sys2Proof.Machine
end

