-- ==== Sys2Proof/Machine/Reply.lean ====
section
/-! DEFINITION. Decust commands in progress: their fields and keys (R366, R370), responses (R368, R615), the end of MGR_RESTART
(R400), and what ends a waiting command. -/

namespace Sys2Proof.Machine

/-! ## Fields and keys -/

/-- Dword `d` of a command. -/
def DCmd.dw (c : DCmd) (d : Nat) : Word := c.dws.getD d 0
/-- Bits `hi:lo` of dword `d`. -/
def DCmd.f (c : DCmd) (d hi lo : Nat) : Nat := (c.dw d).fld hi lo
/-- OPCODE. -/
def DCmd.op (c : DCmd) : Nat := c.f 0 7 0
/-- FENCE. -/
def DCmd.fence (c : DCmd) : Bool := (c.dw 0).bit 8
/-- AUTO_COMMIT. -/
def DCmd.auto (c : DCmd) : Bool := (c.dw 0).bit 9
/-- TAG. -/
def DCmd.tag (c : DCmd) : Nat := c.f 0 31 16
/-- GEN. -/
def DCmd.gen (c : DCmd) : Nat := c.f 15 15 0

/-- What a command's ordering key names (R370, R374). -/
inductive DKey where
  | chip
  | slot (n : Nat)
  | inst (i : Nat)
  | port (p : Nat)
  deriving DecidableEq, Repr

/-- The keys of a command; a reserved opcode has none (R374). -/
def DCmd.keys (c : DCmd) : List DKey :=
  match c.op with
  | 0x01 | 0x02 | 0x15 | 0x22 => [.chip]
  | 0x03 | 0x04 | 0x06 | 0x08 | 0x09 => [.inst (c.f 1 11 0)]
  | 0x0C => [.slot (c.f 1 13 0), .inst (c.f 1 27 16)]
  | 0x0D | 0x0E | 0x12 | 0x13 | 0x14 | 0x1B => [.slot (c.f 1 13 0)]
  | 0x10 | 0x11 => [.slot (c.f 2 13 0), .inst (c.f 1 11 0)]
  | 0x18 | 0x19 | 0x1A => [.port (c.f 1 6 0)]
  | 0x20 => [.port (16 * c.f 1 2 0 + c.f 2 19 16)]
  | _ => []

/-- What a command names, its key included: CREATE_RING names a slot too, BIND_QUEUE an instance (R370, R374). -/
def DCmd.names (c : DCmd) : List DKey :=
  c.keys ++
    (match c.op with
     | 0x08 => if c.f 1 20 16 < 16 then [.slot (c.f 4 13 0)] else []
     | 0x20 => [.inst (c.f 2 11 0)]
     | _ => [])

/-- Whether a command has the key "Slot and instance". -/
def DCmd.pairKey (c : DCmd) : Bool := c.op == 0x0C || c.op == 0x10 || c.op == 0x11

/-- Whether two commands may not run at once (R370). -/
def DCmd.clash (a b : DCmd) : Bool :=
  a.keys.contains .chip || b.keys.contains .chip || a.keys.any b.keys.contains ||
    ((a.pairKey || b.pairKey) && a.names.any b.names.contains)

/-- Whether a command may start (R366, R370): what its FENCE asks for, and no earlier command in progress in its way. -/
def Sys.decStarts (y : Sys) (c : DCmd) : Bool :=
  let before := y.host.decust.cmds.filter fun e => decide (e.seq < c.seq)
  c.wait == .taken &&
    (!c.fence || (before.isEmpty && y.host.decust.resps.isEmpty)) &&
    !(before.any c.clash)

/-! ## Responses -/

/-- A response record (R368). -/
def Sys.respDws (y : Sys) (op tag idx st : Nat) (res : List Word) : List Word :=
  [Word.ofN (op + st * 256 + tag * 65536), Word.ofN y.mf, Word.ofN (y.us + idx * 65536)] ++ (res ++ [0, 0, 0, 0, 0]).take 5

/-- A response is written, or waits on chip in its reservation while MEQ's EN = 0 (R615). -/
def Sys.respond (dws : List Word) (y : Sys) : Sys :=
  if y.meqEn && y.queueChan && y.host.decust.resps.isEmpty then (y.meqPut 2 dws).msix (y.meqVec none)
  else y.updDec fun d => { d with resps := d.resps ++ [.resp dws] }

/-- The last steps of MGR_RESTART, once no command is in progress (R398, R400, R462). -/
def Sys.restartEnd (y : Sys) : Sys :=
  if y.host.decust.restart && y.host.decust.cmds.isEmpty then
    let y := (y.tmbReset 18 3).mbxReset 18 3
    let y := each (fun (e : Nat × Inst) (y : Sys) => y.updInst e.1 fun n => { n with up := { n.up with again := true } })
      (y.host.insts.filter fun e => e.2.up.go) y
    let y := (y.setFld tenPg 0x58 31 31 0).setFld tenPg 0x6C 31 31 0
    let y := (((y.setPg tenPg 0x5C 0).setPg tenPg 0x60 0).setPg tenPg 0x70 0).setPg tenPg 0x74 0
    let y := y.updDec fun d =>
      { d with maj := 0, min := 0, restart := false, again := true, resps := [], events := [],
               lost := d.lost || !d.events.isEmpty }
    y.mbxAgain 18
  else y

/-- A command finishes: its response, none under MGR_RESTART (R400). -/
def Sys.decFin (q st : Nat) (res : List Word) (y : Sys) : Sys :=
  match y.host.decust.cmds.find? fun c => c.seq == q with
  | none => y
  | some c =>
    let y := y.updDec fun d => { d with cmds := d.cmds.filter fun e => e.seq != q }
    if y.host.decust.restart then y else y.respond (y.respDws c.op c.tag c.idx st res)

/-- Commands with a reserved opcode are answered as soon as they may start (R374). -/
def Sys.decSweep (y : Sys) : Sys :=
  each (fun (c : DCmd) (y : Sys) => if c.keys.isEmpty && y.decStarts c then y.decFin c.seq 1 [] else y)
    y.host.decust.cmds y

/-- A command ends with a status and its results. -/
def Sys.decEnd (q st : Nat) (res : List Word) (y : Sys) : Sys := ((y.decFin q st res).decSweep).restartEnd

/-- Change a command in progress. -/
def Sys.updCmd (q : Nat) (f : DCmd → DCmd) (y : Sys) : Sys :=
  y.updDec fun d => { d with cmds := d.cmds.map fun c => if c.seq == q then f c else c }

/-- Every command whose wait satisfies `sel` ends; where it has succeeded its gathered results come before `res` (R368). -/
def Sys.decWake (sel : CWait → Bool) (st : Nat) (res : List Word) (y : Sys) : Sys :=
  each (fun (c : DCmd) (y : Sys) => y.decEnd c.seq st (if st = 0 then c.res ++ res else res)) (y.host.decust.cmds.filter fun c => sel c.wait) y

/-! ## The end of a reset or a destruction (R381) -/

/-- Whether a burst sampled for instance `i` has not ended (R192, R204). -/
def Sys.instBursts (y : Sys) (i : Nat) : Bool :=
  y.usb.dma.any (fun e => e.2.inst == some i && e.2.st != .idle && e.2.st != .halted) || (y.inst i).flushing ||
    y.heldPasid.any (fun o => o.pasid == some i) || y.heldOut.any (fun o => o.pasid == some i) ||
    y.host.msgWait.any (fun m => m.1 == i)

/-- Step 4 of R381: the instance enters CREATED or FREE, and the command is answered. A DOWN message that was kept is raised
again (R398), and what was lost meanwhile shows as LOST (R382). -/
def Sys.instSettle (i : Nat) (y : Sys) : Sys :=
  let n := y.inst i
  if y.instBursts i then y
  else
    match n.st with
    | .resetting =>
      let y := y.updInst i fun n => { n with st := .created, lostPend := n.lostPend || n.evLost, evLost := false }
      (if n.dn.go then y.dnEvent i else y).decWake (· == .bursts i) 0 []
    | .destroying => (y.updInst i fun _ => {}).decWake (· == .bursts i) 0 []
    | _ => y

/-- Every instance whose reset or destruction can end. -/
def Sys.settleInsts (y : Sys) : Sys :=
  each (fun i (y : Sys) => y.instSettle i)
    ((y.host.insts.filter fun e => e.2.st == .resetting || e.2.st == .destroying).map (·.1)) y

end Sys2Proof.Machine
end

