-- ==== Sys2Proof/Machine/Xfer.lean ====
section
/-! DEFINITION. Transfers and their completion: holding slots, the order of writes to host memory, completion records,
ring states (R86-R138), and what a slot's events do to its rings (R130). -/

namespace Sys2Proof.Machine

/-! ## Ring contexts and the context cache -/

/-- The base of the ring context table (R89). -/
def Sys.ctxBase (y : Sys) : Nat := lohi (y.pgReg (onePg .rng 0) 0x40) (y.pgReg (onePg .rng 0) 0x44)

/-- A ring state's code (R128). -/
def RingSt.code : RingSt → Nat
  | .none => 0 | .disabled => 1 | .running => 2 | .stopping => 3 | .halted => 4 | .paused => 5 | .orphaned => 6

/-- A ring's entry count. -/
def Ring.size (r : Ring) : Nat := 2 ^ r.log2

/-- Dwords 0-5 of a ring context (R90); dwords 6-15 have no meaning to software. -/
def Ring.ctxDws (r : Ring) (k : Nat) : List Word :=
  let kind := if k % 32 < 16 then 0 else if k % 32 < 20 then 1 else 2
  let sub := kind == 0
  [Word.ofN ((if r.st == .none then 0 else 1) + kind * 2 + r.st.code * 8 + r.log2 * 64 + (k / 32) * 65536),
   Word.ofN (r.base % 4294967296), Word.ofN (r.base / 4294967296),
   Word.ofN (if sub then r.head + r.fetch * 65536 else r.wpos),
   Word.ofN (if sub then r.slot + r.cmp * 65536 else r.msg + (if r.msgEn then 4 else 0) + r.mod * 65536),
   Word.ofN (if sub then r.replayEnd + (if r.replay then 32768 else 0)
     else if kind == 2 then r.nextSpill + r.nextDeliver * 65536 else 0)]

/-- A FETCH channel writes a context, all 64 bytes of it, to the table (R89, R90, R188). What dwords 6-15 hold is the ring unit's own:
free values. -/
def Sys.ctxPut (k : Nat) (y : Sys) : Sys :=
  let own := (List.range 10).map fun i => Config.freeWord (y.fresh + i)
  let y := { y with fresh := y.fresh + 10 }
  y.emit (.mem none false false (y.ctxBase + 64 * k) (dwBytes ((y.ring k).ctxDws k ++ own)))

/-- A context is written to the table, or waits for a FETCH channel (R188). -/
def Sys.ctxWrite (k : Nat) (y : Sys) : Sys :=
  if (y.hostChan 0).isSome && y.host.ctxOut.isEmpty then y.ctxPut k
  else { y with host := { y.host with ctxOut := y.host.ctxOut.filter (· != k) ++ [k] } }

/-- A submission ring's transfers and records, still to be written. -/
def Sys.ringBusy (y : Sys) (k : Nat) : Bool :=
  let r := y.ring k
  y.host.xfers.any (fun x => x.inst == some (k / 32) && x.ring == k % 32) ||
    (y.ring (ringKey (k / 32) (16 + r.cmp))).waiting.any (fun c => c.sring == k % 32)

/-- Whether a ring has no taken entry, no dispatched transfer and no waiting record (R91); a submission ring's records wait at
its completion ring. -/
def Sys.ringIdle (y : Sys) (k : Nat) : Bool :=
  (y.ring k).taken.isEmpty && (y.ring k).waiting.isEmpty && !(decide (k % 32 < 16) && y.ringBusy k)

/-- Whether the ring unit is reading for a context's ring (R91). -/
def Sys.ctxInUse (y : Sys) (k : Nat) : Bool := (y.hostCarrier (.desc k)).isSome || (y.hostCarrier (.scan k)).isSome

/-- The context that makes room (R91): the least recently used one of an idle ring, else the least recently used one, never one
in use. -/
def Sys.cacheVictim (y : Sys) : Option Nat :=
  let c := y.host.cache.reverse.filter fun k => !y.ctxInUse k
  match c.find? y.ringIdle with
  | some v => some v
  | none => c.head?

/-- Put a context into the cache, evicting one where 8,192 are cached (R91). -/
def Sys.cachePut (k : Nat) (y : Sys) : Sys :=
  let c := y.host.cache.filter (· != k)
  if c.length < 8192 then { y with host := { y.host with cache := k :: c } }
  else
    match y.cacheVictim with
    | some v => let y := y.ctxWrite v
                { y with host := { y.host with cache := k :: c.filter (· != v) } }
    | none => y

/-- Whether a ring's context is cached. -/
def Sys.cached (y : Sys) (k : Nat) : Bool := y.host.cache.contains k

/-- A use of a cached context makes it the most recently used. -/
def Sys.cacheUse (k : Nat) (y : Sys) : Sys :=
  if y.cached k then { y with host := { y.host with cache := k :: y.host.cache.filter (· != k) } } else y

/-- A FETCH channel takes the read of a context that is not cached (R91), without a PASID (R203). -/
def Sys.ctxGo (k : Nat) (y : Sys) : Sys := if y.cached k then y else y.hostTake 0 (.ctx k) none (y.ctxBase + 64 * k) 64

/-- A context read is asked for: it goes at once where nothing waits before it, and in its turn otherwise (R188). -/
def Sys.ctxRead (k : Nat) (y : Sys) : Sys :=
  if y.cached k || (y.hostCarrier (.ctx k)).isSome then y
  else if y.host.fetchQ.isEmpty && (y.hostChan 0).isSome then y.ctxGo k
  else y.fetchWait (.ctx k)

/-! ## Holding (R124-R127) -/

/-- Shared holding slots in use. -/
def Sys.sharedUsed (y : Sys) : Nat := y.host.insts.foldl (fun a e => a + e.2.sharedUsed) 0

/-- The active MAX_SHARED of an instance's holding class. -/
def Sys.maxShared (y : Sys) (i : Nat) : Nat := (y.pgReg (onePg .rng 1) (0x840 + 4 * (y.inst i).cls)).fld 11 0

/-- Which holding slot a dispatch of instance `i` would take: an own one, a shared one, or none (R124). -/
def Sys.holdFor (y : Sys) (i : Nat) : Option Bool :=
  let n := y.inst i
  if n.ownUsed < 16 then some true
  else if n.sharedUsed < y.maxShared i ∧ y.sharedUsed < 2048 then some false
  else none

/-- Reserve a holding slot. -/
def Sys.holdTake (i : Nat) (own : Bool) (y : Sys) : Sys :=
  y.updInst i fun n => if own then { n with ownUsed := n.ownUsed + 1 } else { n with sharedUsed := n.sharedUsed + 1 }

/-- A slot has been released: exhaustion ends for every instance that a slot is free for now (R126). -/
def Sys.exhaustEnd (y : Sys) : Sys :=
  each (fun (i : Nat) (y : Sys) =>
    if (y.holdFor i).isSome then y.updInst i fun n => { n with exhausted := false, exhEnd := y.host.nRel } else y)
    ((y.host.insts.filter fun e => e.2.exhausted).map (·.1)) { y with host := { y.host with nRel := y.host.nRel + 1 } }

/-- Release the holding slot that a transfer reserved, an own or a shared one (R124, R126). -/
def Sys.holdFree (i : Nat) (own : Bool) (y : Sys) : Sys :=
  (y.updInst i fun n =>
    if own then { n with ownUsed := n.ownUsed - 1 } else { n with sharedUsed := n.sharedUsed - 1 }).exhaustEnd

/-! ## Ring positions (R132) -/

/-- Distance of entry `e` from `h` in ring order. -/
def Ring.dist (r : Ring) (h e : Nat) : Nat := (e + r.size - h % r.size) % r.size

/-- HEAD: the first unfinished entry in ring order, or FETCH. -/
def Ring.headNow (r : Ring) : Nat :=
  let es := r.taken.map (·.idx) ++ (match r.disc with | some d => [d] | none => [])
  match es with
  | [] => r.fetch
  | a :: t => t.foldl (fun m e => if r.dist r.head e < r.dist r.head m then e else m) a

/-- HEAD moved over finished entries. -/
def Ring.advHead (r : Ring) : Ring := { r with head := r.headNow }

/-- Discard the taken entries that `sel` names; their OWN bits stay 1 (R131). -/
def Ring.discard (r : Ring) (sel : Taken → Bool) : Ring :=
  let ds := (r.taken.filter sel).map (·.idx) ++ (match r.disc with | some d => [d] | none => [])
  let d := match ds with
    | [] => none
    | a :: t => some (t.foldl (fun m e => if r.dist r.head e < r.dist r.head m then e else m) a)
  ({ r with taken := r.taken.filter (fun t => !sel t), disc := d }).advHead

/-- Entering DISABLED or HALTED: the replay span of R132. -/
def Ring.rest (r : Ring) (st : RingSt) : Ring :=
  let r := r.advHead
  { r with st := st, replayEnd := r.fetch, replay := r.disc.isSome, replayLeft := 0, stopped := false, toHalt := false,
           viewDis := false }

/-- ENABLE of a DISABLED or HALTED ring (R129, R134): the replay span is read again from HEAD. -/
def Ring.enable (r : Ring) : Ring :=
  let n := r.dist r.head r.replayEnd
  let n := if n = 0 ∧ r.replay then r.size else n
  { r with st := .running, fetch := r.head, replayLeft := n, replay := r.replay && decide (0 < n), disc := none,
           stopped := false, bad := false, enableRec := false }

/-- STOPPING ends when the ring's last record has been written (R95, R131); a recorded ENABLE then applies (R129). A
ring under DESTROY_RING is removed when its last begun transfer has finished (R613). -/
def Sys.ringSettle (k : Nat) (y : Sys) : Sys :=
  let r := y.ring k
  if y.ringBusy k then y
  else if r.destroying then
    let y := y.updRing k fun _ => {}
    let y := y.ctxWrite k
    Sys.decWake (· == .ringDone (k / 32) (k % 32)) 0 []
      { y with host := { y.host with cache := y.host.cache.filter (· != k) } }
  else if r.st == .stopping && (r.taken.isEmpty || !r.toHalt) then
    y.updRing k fun r =>
      let e := r.enableRec
      let r := r.rest (if r.toHalt then .halted else .disabled)
      if e then r.enable else { r with enableRec := false }
  else y

/-! ## Completion records -/

/-- Whether an instance's traffic follows the compatibility ordering (R123, R406). -/
def Sys.compatI (y : Sys) (i : Nat) : Bool := y.pins.compat || y.is1x i

/-- The four dwords of a completion record (R106); `rw` is RWAKE_SEEN. -/
def CRec.dws (c : CRec) (rw : Bool) : List Word :=
  [Word.ofN ((if rw then 2 else 0) + c.status * 256 + c.sring * 65536 + (c.us % 128) * 16777216),
   Word.ofN (c.entry + c.slot * 65536), Word.ofN (c.bytes % 16777216 + c.epid * 16777216), Word.ofN c.mf]

/-- Whether the record of entry `seq` of an instance's submission ring may be written as far as ring order goes: in
compatibility ordering only when every earlier entry's record has been written (R123). -/
def Sys.ringOrder (y : Sys) (k i sring seq : Nat) : Bool :=
  !y.compatI i ||
    (!((y.ring (ringKey i sring)).taken.any fun t => decide (t.seq < seq)) &&
     !(y.host.xfers.any fun x => x.inst == some i && x.ring == sring && decide (x.seq < seq)) &&
     !((y.ring k).waiting.any fun d => d.sring == sring && decide (d.seq < seq)))

/-- Whether a waiting record may be written now: no transfer of the same completion ring that finished earlier still has its
record to come, but for one that waits for ring order (R120, R123, R125). -/
def Sys.recReady (y : Sys) (k : Nat) (c : CRec) : Bool :=
  y.ringOrder k c.inst c.sring c.seq &&
    !((y.ring k).waiting.any fun d => decide (d.fseq < c.fseq) && y.ringOrder k d.inst d.sring d.seq) &&
    !(y.host.xfers.any fun x => x.inst == some c.inst && x.cmp + 16 == k % 32 && x.fin.isSome && !x.silent &&
      decide (x.fseq < c.fseq) && y.ringOrder k c.inst x.ring x.seq)

/-- Write one record at WPOS of completion ring `k` (R106, R612), then its message and the holding release; the first record
written after a resume that absorbed a wake says so (R313). -/
def Sys.putRec (k : Nat) (c : CRec) (y : Sys) : Sys :=
  let r := y.ring k
  let sk := ringKey c.inst c.sring
  let y := y.emit (.mem (y.pfx (some (k / 32))) false false (r.base + 16 * r.wpos) (dwBytes (c.dws (y.ring sk).rwSeen)))
  let y := y.updRing sk fun r => { r with rwSeen := false }
  let y := y.updRing k fun r => { r with wpos := (r.wpos + 1) % r.size, known := r.known - 1,
                                          waiting := r.waiting.filter fun d => d.xid != c.xid }
  let y := (y.holdFree c.inst c.own).cacheUse k
  let y := if c.ioc then y.ringMsg k else y
  y.ringSettle sk

/-- A record takes its place among those waiting, which stand in finish order (R120, R125). -/
def recIns (c : CRec) : List CRec → List CRec
  | [] => [c]
  | d :: r => if c.fseq < d.fseq then c :: d :: r else d :: recIns c r

/-- Waiting records are written in finish order while the entry at WPOS is known free (R120, R125), the ring's context is
cached (R91), and a RECORD channel takes them (R188, R204). -/
def Sys.writeRecs (k : Nat) (fuel : Nat) (y : Sys) : Sys :=
  match fuel with
  | 0 => y
  | fuel + 1 =>
    let r := y.ring k
    if r.st != .running || r.known = 0 || y.contain.chipFault || r.waiting.isEmpty || !y.recOpen then y
    else if !y.cached k then y.ctxRead k
    else
      match r.waiting.find? (y.recReady k) with
      | some c => (y.putRec k c).writeRecs k fuel
      | none => y

/-- Write what completion ring `k` can take. -/
def Sys.flushRecs (k : Nat) (y : Sys) : Sys := y.writeRecs k (y.ring k).waiting.length

/-! ## Transfers -/

/-- The context key of a transfer's submission ring. -/
def Xfer.rkey (x : Xfer) : Nat := ringKey (x.inst.getD 0) x.ring

/-- Whether a transfer moves data to the host. -/
def Xfer.isIn (x : Xfer) : Bool :=
  if x.ty == 2 then (byteAt x.setup 0).toNat / 128 == 1 && decide (0 < x.total) else epIn x.epid

/-- BYTES of the completion record (R106, R107). -/
def Xfer.bytes (x : Xfer) : Nat := if x.ty = 4 then 0 else if x.isIn then x.drained else x.moved

/-- Statuses that halt the endpoint (R107). -/
def haltsEp (st : Nat) : Bool := [2, 3, 4, 5, 6, 10].contains st

/-- Remove a transfer. -/
def Sys.dropXfer (id : Nat) (y : Sys) : Sys :=
  { y with host := { y.host with xfers := y.host.xfers.filter fun x => x.id != id } }

/-- What a control transfer that completes OK does to halts and toggles of its slot (R105). -/
def Sys.ctlEffects (x : Xfer) (y : Sys) : Sys :=
  let bm := (byteAt x.setup 0).toNat
  let rq := (byteAt x.setup 1).toNat
  let fix := fun (p : Nat → Bool) (y : Sys) => y.updSlot x.slot fun s =>
    { s with eps := s.eps.map fun e => if p e.1 then (e.1, { e.2 with halted := false, tog := false }) else e }
  if bm = 2 ∧ rq = 1 ∧ half x.setup 2 = 0 then fix (· == epidOf (half x.setup 4 % 256)) y
  else if bm = 0 ∧ rq = 9 then fix (fun _ => true) y
  else if bm = 1 ∧ rq = 11 then
    let es := ((y.slot x.slot).epDescs.filter fun d => d.iface == half x.setup 4).map fun d => epidOf d.addr
    fix es.contains y
  else y

/-- Whether a control request switches a hub port: SET_FEATURE or CLEAR_FEATURE(PORT_POWER), CLEAR_FEATURE(PORT_ENABLE). -/
def switchesPort (setup : List Byte) : Bool :=
  setup.take 3 == [0x23, 3, 8] || setup.take 3 == [0x23, 1, 8] || setup.take 3 == [0x23, 1, 1]

/-- A free control request ends: one that failed is issued again up to twice (R271); its result enters the device's flow (R440), and
PORT_CMD is answered (R377). -/
def Sys.freeEnd (x : Xfer) (d : CDev) (ok : Bool) (y : Sys) : Sys :=
  if !ok && decide (d.tries < 2) then
    y.ctlIssue { own := d.own, port := x.port, tier := d.tier, setup := x.setup, data := [], free := true, tries := d.tries + 1 }
  else
    let y := y.pushItem (internalItem .result x.slot (y.slot x.slot).prio)
    if switchesPort x.setup then
      y.decWake (· == .portReq x.port (tierDown d.tier (half x.setup 4))) (if ok then 0 else 0x11) []
    else y

/-- Steps 3 to 5 of R117 for a finished transfer: OWN = 0 writebacks, then its completion record; or, without a record
(R380, R613), its holding slot alone. What an OK control transfer does to halts comes here, once it has completed OK (R105). -/
def Sys.postX (x : Xfer) (st : Nat) (y : Sys) : Sys :=
  match x.inst with
  | none =>
    let y := y.dropXfer x.id
    match x.chip with
    | some d => if d.free && !x.silent then y.freeEnd x d (st == 0 || st == 1) else y
    | none => y
  | some i =>
    let k := x.rkey
    let r := y.ring k
    let y := if st = 0 ∧ x.ty = 2 then y.ctlEffects x else y
    if x.silent then
      let y := (y.dropXfer x.id).updRing k fun r =>
        ({ r with taken := r.taken.filter fun t => !(x.entries.any fun e => e.1 == t.idx) }).advHead
      (if x.held then y.holdFree i x.own else y).ringSettle k
    else
      let y := each (fun (e : Nat × Word) (y : Sys) =>
        y.emit (.mem (y.pfx (some i)) false false (r.base + 32 * e.1) (dwBytes [e.2 &&& ~~~1#32]))) x.entries y
      let c : CRec := { xid := x.id, status := st, sring := x.ring, entry := x.last, slot := x.slot, epid := x.epid,
                        bytes := x.bytes, mf := x.finMf, us := x.finUs, ioc := x.ioc, entries := [], inst := i,
                        own := x.own, seq := x.seq, fseq := x.fseq }
      let y := (y.dropXfer x.id).updRing k fun r =>
        ({ r with taken := r.taken.filter (fun t => !(x.entries.any fun e => e.1 == t.idx)),
                  bad := r.bad || (decide (1 < st) && st != 15) }).advHead
      let s := y.slot x.slot
      let y := if s.pers.code = 4 ∧ x.ty = 1 ∧ (s.ep x.epid).ty = .bulk ∧ !epIn x.epid then y.notify x.slot x.bytes false
        else y
      let ck := ringKey i (16 + x.cmp)
      ((y.updRing ck fun r => { r with waiting := recIns c r.waiting }).flushRecs ck).ringSettle k

/-- The address that a transfer's flushing read targets (R118). -/
def Sys.flushAddr (y : Sys) (x : Xfer) : Nat :=
  if x.wrote then x.lastAddr - x.lastAddr % 4 else (y.ring x.rkey).base + 32 * x.last

/-- Issue the next flushing read of instance `i` (R118, R123, R207): a RECORD channel takes it, zero-length and with the
instance's PASID; it covers every transfer that waits for one, in compatibility ordering the one that finished first. It waits
where one is outstanding, no RECORD channel is idle, or PASID Enable is clear (R204). -/
def Sys.flushIssue (i : Nat) (y : Sys) : Sys :=
  if (y.inst i).flushing then y
  else
    let ws := y.host.xfers.filter fun x => x.inst == some i && x.flush == 1
    let later := fun (a : Option Xfer) (x : Xfer) =>
      match a with
      | none => some x
      | some b => some (if y.compatI i == decide (x.fseq < b.fseq) then x else b)
    match ws.foldl later none with
    | none => y
    | some x =>
      let y' := y.hostTake 8 (.flush i) (some i) (y.flushAddr x) 0
      if (y'.hostCarrier (.flush i)).isNone then y
      else
        (y'.mapX fun z => if z.inst == some i && z.flush == 1 && (!y.compatI i || z.id == x.id) then { z with flush := 2 } else z)
          |>.updInst i fun n => { n with flushing := true }

/-- A begun transfer of an instance that was reset or destroyed (R380): it belongs to no ring any more. -/
def Xfer.gone (x : Xfer) : Bool := x.silent && x.ring == 31

/-- Received packets of a transfer of which nothing more is drained are released (R381). -/
def Sys.rxRelease (p id : Nat) (y : Sys) : Sys :=
  (y.updFifo p fun f => { f with rx := f.rx.map (fun t =>
    if t.xid == id && t.st == .committed then { t with st := .done } else t) }).reclaimRx p

/-- A finished transfer goes on as far as it can: its received bytes are drained first, then the flushing read where
R117, R123 or R406 asks for one, then the record. -/
def Sys.tryPost (id : Nat) (y : Sys) : Sys :=
  match y.xfer? id with
  | none => y
  | some x =>
    match x.fin with
    | none => y
    | some st =>
      let y := if x.gone then y.rxRelease x.port id else y
      if x.isIn && (y.rxPending x.port id || y.drainBusy id) then y
      else if x.silent then y.postX x st
      else
        let i := x.inst.getD 0
        if x.inst.isSome && decide (x.flush = 0) && (x.wrote || y.compatI i) then
          (y.updX id fun x => { x with flush := 1 }).flushIssue i
        else if x.flush = 1 ∨ x.flush = 2 then y
        else if x.inst.isSome && !y.recOpen then y
        else y.postX x st

/-- The eight bytes of a SETUP packet. -/
def setupPkt (bm rq v w l : Nat) : List Byte :=
  [Word.byte (Word.ofN bm) 0, Word.byte (Word.ofN rq) 0, Word.byte (Word.ofN v) 0, Word.byte (Word.ofN v) 1,
   Word.byte (Word.ofN w) 0, Word.byte (Word.ofN w) 1, Word.byte (Word.ofN l) 0, Word.byte (Word.ofN l) 1]

/-- A control request that owner `o` issues to the device in slot `n`. -/
def Sys.reqTo (o n : Nat) (setup data : List Byte) (y : Sys) : Sys :=
  y.issue o (y.slot n).port (y.slot n).tier setup data

/-- A control request of hub handling whose completion has no command of its own: its result entry is reserved as any other's (R440),
and its result enters the flow when its transfer ends. -/
def Sys.reqFree (n : Nat) (setup : List Byte) (y : Sys) : Sys :=
  y.ctlIssue { own := 1, port := (y.slot n).port, tier := (y.slot n).tier, setup := setup, data := [], free := true }

/-- A control request to the hub in slot `h`: the requests of one slot run one at a time, in order (R325). -/
def Sys.hubReq (h : Nat) (k : HReqK) (setup : List Byte) (y : Sys) : Sys :=
  let y := if (y.slot h).hubRec.reqs.isEmpty then y.reqTo 1 h setup [] else y
  y.updSlot h fun s => { s with hubRec := { s.hubRec with reqs := s.hubRec.reqs ++ [{ kind := k, setup := setup }] } }

/-- CLEAR_TT_BUFFER for a bulk or control split abandoned with status `st` (R306): its endpoint starts nothing until the
request completes. None is sent where the device is gone or its hub is itself reset. -/
def Sys.clearTt (x : Xfer) (st : Nat) (y : Sys) : Sys :=
  let s := y.devOf x
  let h := y.slot s.hub
  if x.split.pending && (x.ty == 2 || (s.ep x.epid).ty == .bulk) && decide (0 < s.hub) && h.isHub && st != 9 then
    let v := epNum x.epid + s.addr * 16 + (if x.ty = 2 then 0 else 2) * 2048 + (if epIn x.epid then 32768 else 0)
    let w := if h.hubRec.multi then s.hubPort else 1
    (((y.updEp x.slot x.epid fun e => { e with ttClear := true }).incFld (lnkPg x.port) 0x5C 31 28).hubReq s.hub
      (.clearTt x.slot x.epid) (setupPkt 0x23 8 v w 0))
  else y

/-- Whether an earlier transfer of the same ring and endpoint has not finished: transfers of one ring and one EPID finish in
ring order (R120). A NOP has no endpoint. -/
def Sys.finWaits (y : Sys) (x : Xfer) : Bool :=
  x.inst.isSome && x.ty != 4 && !x.always && !x.silent &&
    (y.host.xfers.takeWhile fun z => z.id != x.id).any fun z =>
      z.inst == x.inst && z.ring == x.ring && z.epid == x.epid && z.ty != 4 && z.fin.isNone && !z.always && !z.silent

/-- A transfer finishes with a status (R107, R231): its endpoint halts where the status says so, its unsent packets are
dropped, and it is reported when its writes allow. A transfer that is always dispatched (R294, R330) starts over. -/
def Sys.finOne (id st : Nat) (y : Sys) : Sys :=
  match y.xfer? id with
  | none => y
  | some x =>
    if x.fin.isSome then y
    else
      let y := if haltsEp st && x.epid != 0 && x.ty != 3 then y.updEp x.slot x.epid fun e => { e with halted := true }
        else y
      let y := (y.clearTt x st).xferLeaves x
      if x.always && x.cut.isNone then
        y.updX id fun x => { x with strikes := 0, recvd := 0, begun := false, rxDone := false, split := {} }
      else
        let y := y.updX id fun x => { x with fin := some st, finMf := y.mf, finUs := y.us, fseq := y.host.nFin }
        ({ y with host := { y.host with nFin := y.host.nFin + 1 } }).tryPost id

/-- A transfer finishes, or, where R120 holds it behind an earlier one, will finish after it; those that it held behind itself
follow. -/
def Sys.finX (id st : Nat) (y : Sys) : Sys :=
  match y.xfer? id with
  | none => y
  | some x =>
    if x.fin.isSome then y
    else if y.finWaits x then y.updX id fun x => { x with cut := some st }
    else
      each (fun (z : Xfer) (y : Sys) =>
        match y.xfer? z.id with
        | some z =>
          match z.cut with
          | some st => if y.wireHas z.port z.id || y.finWaits z then y else y.finOne z.id st
          | none => y
        | none => y)
        (y.host.xfers.filter fun z => z.id != id && z.inst == x.inst && z.ring == x.ring && z.epid == x.epid && z.inst.isSome)
        (y.finOne id st)

/-- Whether a port's link cell has a transaction of transfer `id` on the wire. -/
def Sys.onWire (y : Sys) (x : Xfer) : Bool := y.wireHas x.port x.id

/-- Whether a transfer's data is complete (R108). -/
def Xfer.complete (x : Xfer) : Bool :=
  if x.ty = 2 then false else if x.isIn then x.rxDone else decide (x.total ≤ x.moved) && ((!x.zlp && decide (0 < x.total)) || x.zlpDone)

/-- Finish a begun transfer at its next packet boundary with `st` (R108): at once where no packet is on the wire. -/
def Sys.cutX (st : Nat) (id : Nat) (y : Sys) : Sys :=
  match y.xfer? id with
  | none => y
  | some x =>
    if x.fin.isSome then y
    else
      let y := y.updX id fun x => { x with cut := some st }
      if y.onWire x then y else y.finX id (if x.complete then (if x.short then 1 else 0) else st)

/-- Discard a dispatched transfer that has not begun: no record; its holding slot is released (R131). Its entries are
discarded by the caller. -/
def Sys.abandonX (id : Nat) (y : Sys) : Sys :=
  match y.xfer? id with
  | none => y
  | some x =>
    let y := (y.dropXfer id).xferLeaves x
    match x.inst with
    | some i => if x.held then y.holdFree i x.own else y
    | none => y

/-- Discard a ring's taken entries whose transfers have not begun and finish the begun ones with `st` (R130, R131). -/
def Sys.ringStop (k st : Nat) (y : Sys) : Sys :=
  let xs := y.host.xfers.filter fun x => x.inst == some (k / 32) && x.ring == k % 32 && x.fin.isNone
  let begun := (y.host.xfers.filter fun x => x.inst == some (k / 32) && x.ring == k % 32 && (x.begun || x.fin.isSome)).flatMap
    fun x => x.entries.map (·.1)
  let y := each (fun (x : Xfer) (y : Sys) => if x.begun then y else y.abandonX x.id) xs y
  let y := y.updRing k fun r => r.discard fun t => !(begun.contains t.idx)
  let y := each (fun (x : Xfer) (y : Sys) => if x.begun then y.cutX st x.id else y) xs y
  y.flushRecs (ringKey (k / 32) (16 + (y.ring k).cmp))

/-- The submission rings bound to a slot in every state other than NONE and ORPHANED. -/
def Sys.ringsOfSlot (y : Sys) (n : Nat) : List Nat :=
  (y.host.rings.filter fun e => decide (e.1 % 32 < 16) && e.2.slot == n && e.2.st != .none && e.2.st != .orphaned).map (·.1)

/-- A slot event acts on every ring of the slot (R130): `st` is the status of begun transfers, `nst` the state entered. -/
def Sys.ringSlotEvent (n st : Nat) (nst : RingSt) (y : Sys) : Sys :=
  each (fun k y =>
    let y := (y.updRing k fun r => { r with enableRec := false }).ringStop k st
    if (y.ring k).st == .none then y
    else y.updRing k fun r =>
      { r with st := nst, toHalt := false, stopped := false, viewDis := false,
               replay := if r.st == .running || r.st == .stopping then r.disc.isSome else r.replay,
               replayEnd := if r.st == .running || r.st == .stopping then r.fetch else r.replayEnd })
    (y.ringsOfSlot n) y

/-- Re-presentation returns the slot's PAUSED rings to DISABLED (R130). -/
def Sys.ringsReturn (n : Nat) (y : Sys) : Sys :=
  each (fun k y => if (y.ring k).st == .paused then y.updRing k fun r =>
      let r := r.advHead
      { r with st := .disabled, replay := r.replay || r.disc.isSome,
               replayEnd := if r.disc.isSome && !r.replay then r.fetch else r.replayEnd }
    else y) (y.ringsOfSlot n) y

/-- RING_ERR to MEQ and, unless it is SPQ_DROP, to the tenant (R111, R112). -/
def Sys.ringErr (k cause entry : Nat) (y : Sys) : Sys :=
  let i := k / 32
  let n := (y.ring k).slot
  let e := y.ev 0x0A n (if n = 0 then 0 else (y.slot n).port) 0
    [Word.ofN (k % 32 + cause * 256 + entry * 65536), Word.ofN i]
  let y := y.meqEvent none e
  if cause = 7 then y else y.tenantEvent i e

/-- A ring halts (R95, R112): the open chain's entries `chain` are discarded, and the ring enters HALTED when the
entries before it have completed. -/
def Sys.ringHalt (k cause entry : Nat) (chain : List Nat) (y : Sys) : Sys :=
  let y := y.updRing k fun r =>
    let r := r.discard fun t => chain.contains t.idx
    { r with st := .stopping, toHalt := true, stopped := true }
  ((y.ringErr k cause entry).flushRecs (ringKey (k / 32) (16 + (y.ring k).cmp))).ringSettle k

end Sys2Proof.Machine
end

