-- ==== Sys2Proof/Machine/Rings.lean ====
section
/-! DEFINITION. The ring unit's work: judging and taking descriptors (R92-R102), dispatch (R104, R121-R126), doorbells
(R129), returned entries (R612), events and SPQ (R113-R115). -/

namespace Sys2Proof.Machine

/-! ## Descriptors (R92) -/

/-- TYPE. -/
def dType (d : List Word) : Nat := (d.getD 0 0).fld 3 1
/-- EPID. -/
def dEpid (d : List Word) : Nat := (d.getD 0 0).fld 12 8
/-- CHAIN. -/
def dChain (d : List Word) : Bool := (d.getD 0 0).bit 6
/-- FENCE. -/
def dFence (d : List Word) : Bool := (d.getD 0 0).bit 5
/-- LENGTH. -/
def dLen (d : List Word) : Nat := (d.getD 1 0).fld 23 0
/-- BUF. -/
def dBuf (d : List Word) : Nat := lohi (d.getD 2 0) (d.getD 3 0)
/-- The SETUP packet of a CONTROL entry (R97). -/
def dSetup (d : List Word) : List Byte := dwBytes [d.getD 4 0, d.getD 5 0]

/-- The open chain at the end of a ring's taken entries, oldest first. -/
def openChain (ts : List Taken) : List Taken := (ts.reverse.takeWhile fun t => dChain t.dws).reverse

/-- Whether the TYPE suits an endpoint's type (R94). -/
def typeFits (ty : Nat) (e : Ep) : Bool :=
  match e.ty with
  | .control => ty == 2
  | .isoch => ty == 3
  | _ => ty == 1

/-- The lowest CAUSE for which a descriptor is malformed (R94, R95, R337), given its endpoint and its chain so far. DESIGN CHOICE
(log 83): R94 checks the TYPE and a NORMAL or CONTROL entry's LENGTH of every entry, and says of an entry for a closed endpoint
that it is not malformed whatever its TYPE and LENGTH; the model makes the checks that need no open endpoint first. -/
def malformed? (d : List Word) (e : Ep) (chain : List Taken) : Option Nat :=
  let ty := dType d
  let ep := dEpid d
  let len := dLen d
  let nop := ty == 4
  let bad1 := ty == 0 || decide (5 ≤ ty) || (!nop && e.open_ && !typeFits ty e)
  let bad2 := !nop && (ep == 31 || ((ty == 1 || ty == 3) && ep == 0) || (ty == 2 && ep != 0))
  let bad3 := (ty == 1 && epIn ep && len == 0) || (ty == 2 && len != half (dSetup d) 6) ||
    (ty == 3 && e.open_ && (len == 0 || decide (e.mult * e.mps < len))) ||
    (ty == 1 && e.open_ && e.cmd && !(len % 32 == 0 && decide (32 ≤ len) && decide (len ≤ 256)))
  let bad4 := (dChain d && (ty != 1 || (e.open_ && e.cmd))) || decide (64 ≤ chain.length) ||
    (match chain with
     | t :: _ => dType t.dws != ty || dEpid t.dws != ep
     | [] => false)
  if bad1 then some 1 else if bad2 then some 2 else if bad3 then some 3 else if bad4 then some 4 else none

/-- Whether a ring takes entries: RUNNING, not stopped at an entry with OWN = 0, and holding fewer than 32 taken and unfinished
entries, or in the middle of a chain (R102). -/
def Ring.takes (r : Ring) : Bool :=
  r.st == .running && !r.stopped && (decide (r.taken.length < 32) || !(openChain r.taken).isEmpty)

/-- The ring unit handles the next entry of ring `k` as read (R102, R134); the Bool says whether it goes on reading. -/
def Sys.takeOne (k : Nat) (d : List Word) (y : Sys) : Bool × Sys :=
  let r := y.ring k
  let ch := openChain r.taken
  if !r.takes then (false, y)
  else
    let next := (r.fetch + 1) % r.size
    let left := r.replayLeft - 1
    let rep := r.replay && decide (1 < r.replayLeft)
    if !(d.getD 0 0).bit 0 then
      if 0 < r.replayLeft then
        (true, y.updRing k fun r => ({ r with fetch := next, replayLeft := left, replay := rep }).advHead)
      else (false, y.updRing k fun r => { r with stopped := true })
    else
      let e := (y.slot r.slot).ep (dEpid d)
      match malformed? d e ch with
      | some c => (false, y.ringHalt k c r.fetch (ch.map (·.idx)))
      | none =>
        (true, y.updRing k fun r =>
          { r with taken := r.taken ++ [{ idx := r.fetch, dws := d, seq := r.nseq,
                                          refuse := if dType d != 4 && !e.open_ then 12 else 0 }],
                   nseq := r.nseq + 1, fetch := next, replayLeft := left, replay := rep })

/-- Handle the entries of one read, in ring order. -/
def Sys.takeAll (k : Nat) : List (List Word) → Sys → Sys
  | [], y => y
  | d :: r, y => match y.takeOne k d with
    | (true, y) => y.takeAll k r
    | (false, y) => y

/-- Whole entries of 8 dwords, at most 8 of them (R102). -/
def entriesOf (n : Nat) (ws : List Word) : List (List Word) :=
  match n with
  | 0 => []
  | n + 1 => if ws.length < 8 then [] else ws.take 8 :: entriesOf n (ws.drop 8)

/-! ## Dispatch -/

/-- The transfer that begins with the first entry of a list: its entries, where all of them have been taken (R96). -/
def chainFrom : List Taken → Option (List Taken)
  | [] => none
  | t :: r => if dChain t.dws then (chainFrom r).map (t :: ·) else some [t]

/-- The microframe of a port's first service opportunity at or after `m` for an entry (R98, R140, R160). -/
def firstOpp (hs : Bool) (phase plog2 phi m : Nat) : Nat :=
  let p := if hs then 2 ^ plog2 else 8 * 2 ^ plog2
  let o := if hs then phase + phi else phase + 8 * phi
  (m + (o + p * 4294967296 - m) % p) % 4294967296

/-- Whether microframe count `a` is at or after `b` (R98). -/
def mfGe (a b : Nat) : Bool := decide ((a + 4294967296 - b % 4294967296) % 4294967296 < 2147483648)

/-- FRM_PORT_CFGk.PHASE. -/
def Sys.phase (y : Sys) (p : Nat) : Nat := (y.pgReg (frmPg (p / 16) 0) (0x80 + 4 * (p % 16))).fld 2 0

/-- The periodic entry of an endpoint: the active one, the one captured, or the one staged (R180). -/
def Sys.ptOf (y : Sys) (p n e : Nat) : Option PtEnt :=
  let t := y.ptab p
  let cap := (y.host.capTabs.filter fun c => c.1 == p).flatMap (·.2)
  ((t.act ++ cap ++ t.sh).find? fun x => x.2.valid && x.2.slot == n && x.2.epid == e).map (·.2)

/-- Whether the port's ledger runs in microframes. -/
def Sys.portHs (y : Sys) (p : Nat) : Bool := (y.port p).speed == .high || (y.port p).test == 5

/-- How far ahead of microframe count `a` the count `b` lies, as R98 compares them: up to 2^31 - 1 ahead, else behind. -/
def mfAhead (a b : Nat) : Int :=
  let d := (b + 4294967296 - a % 4294967296) % 4294967296
  if d < 2147483648 then d else (d : Int) - 4294967296

/-- The opportunity that an ISOCH entry names (R98), or none where it has already begun at dispatch. A START_MF more than
2^31 - 1 microframes ahead counts as past. -/
def Sys.isoTarget (y : Sys) (p n e : Nat) (d : List Word) : Option Nat :=
  match y.ptOf p n e with
  | none => some 0
  | some t =>
    let hs := y.portHs p
    let staged := !((y.ptab p).act.any fun x => x.2.valid && x.2.slot == n && x.2.epid == e)
    if (d.getD 5 0).bit 0 then
      some (firstOpp hs (y.phase p) t.plog2 t.phase ((y.mf + (if y.us = 0 then 1 else 2)) % 4294967296))
    else
      let start := (d.getD 4 0).toNat
      let m := firstOpp hs (y.phase p) t.plog2 t.phase start
      if (staged && decide (0 ≤ mfAhead y.mf start)) || decide (1 ≤ mfAhead y.mf start + ((m + 4294967296 - start) % 4294967296 : Nat)) then some m else none

/-- The entries of a list that begin a transfer: FENCE and TIMEOUT come from them (R96). -/
def chainHeads (ts : List Taken) : List Taken :=
  (ts.zip (none :: ts.map some)).filterMap fun (p : Taken × Option Taken) =>
    match p.2 with
    | some b => if dChain b.dws then none else some p.1
    | none => some p.1

/-- Whether a taken entry of ring `k` may be dispatched (R104, R105, R121): its transfer's entries. -/
def Sys.dispatchable (y : Sys) (k idx : Nat) : Option (List Taken) :=
  let r := y.ring k
  let before := r.taken.takeWhile fun t => t.idx != idx
  let rest := r.taken.dropWhile fun t => t.idx != idx
  match rest with
  | [] => none
  | t :: _ =>
    let i := k / 32
    let fences := !y.compatI i
    let cont := match before.getLast? with | some b => dChain b.dws | none => false
    let sameEp := before.any fun b => !b.disp && dType b.dws != 4 && dType t.dws != 4 && dEpid b.dws == dEpid t.dws
    let fenceBefore := fences && (chainHeads before).any fun b => !b.disp && dFence b.dws
    let fenceWaits := fences && dFence t.dws && (!before.isEmpty ||
      y.host.xfers.any (fun x => x.inst == some i && x.ring == k % 32) ||
      (y.ring (ringKey i (16 + r.cmp))).waiting.any (fun c => c.sring == k % 32))
    let halted := dType t.dws != 4 && ((y.slot r.slot).ep (dEpid t.dws)).halted
    if t.disp || cont || sameEp || fenceBefore || fenceWaits || halted then none else chainFrom rest

/-- Buffer segments of a transfer (R96): address and length. -/
def segsOf (ts : List Taken) : List (Nat × Nat) := ts.map fun t => (dBuf t.dws, dLen t.dws)

/-- A dispatch (R104): a holding slot is reserved, and the transfer goes to its frame engine or finishes at once. DESIGN CHOICE (log
84): a NOP's record shows EPID 0, its own being ignored (R106 is silent); and the ring's mark of a failure is cleared where a
fenced entry is dispatched, so that this entry's own failure counts for the next fenced one (R122 is silent). -/
def Sys.dispatchX (k idx : Nat) (y : Sys) : Sys :=
  let r := y.ring k
  let i := k / 32
  if !(r.st == .running || (r.st == .stopping && r.toHalt)) then y
  else
    match y.dispatchable k idx with
    | none => y
    | some ts =>
      match y.holdFor i, ts.getLast? with
      | some own, some last =>
        let d := (ts.headD { idx := 0, dws := [] }).dws
        let ty := dType d
        let ep := (y.slot r.slot).ep (dEpid d)
        let p := (y.slot r.slot).port
        let total := (segsOf ts).foldl (fun a s => a + s.2) 0
        let fence := dFence d && !y.compatI i
        let tgt := if ty = 3 then y.isoTarget p r.slot (dEpid d) d else some 0
        let refuse := (ts.headD { idx := 0, dws := [] }).refuse
        let status : Option Nat :=
          if fence && r.bad then some 15
          else if ty = 4 then some 0
          else if refuse != 0 then some refuse
          else if !ep.open_ then some 12
          else if tgt.isNone then some 11
          else none
        let x : Xfer := {
          id := y.host.nextX, inst := some i, ring := k % 32, seq := (ts.headD last).seq, cmp := r.cmp, first := idx,
          last := last.idx, entries := ts.map (fun t => (t.idx, t.dws.getD 0 0)), port := p, slot := r.slot,
          epid := if ty = 4 then 0 else dEpid d, ty := ty, segs := segsOf ts,
          total := if ty = 4 then 0 else total, ioc := (last.dws.getD 0 0).bit 4, zlp := ty == 1 && !epIn (dEpid d) && (last.dws.getD 0 0).bit 7,
          setup := if ty = 2 then dSetup d else [], startMf := tgt.getD 0, asap := (d.getD 5 0).bit 0,
          dispMf := y.mf, own := own, held := true, stage := if ty = 2 then .setup else .data }
        let y := y.holdTake i own
        let y := y.updRing k fun r => { r with
          taken := r.taken.map (fun t => if ts.any (fun u => u.idx == t.idx) then { t with disp := true } else t),
          bad := if fence then false else r.bad }
        let y := { y with host := { y.host with xfers := y.host.xfers ++ [x], nextX := y.host.nextX + 1 } }
        match status with
        | some st => y.finX x.id st
        | none => y
      | _, _ => y.updInst i fun n => { n with exhausted := true }

/-! ## Doorbells -/

/-- Whether a ring exists. -/
def Sys.ringHere (y : Sys) (k : Nat) : Bool := (y.ring k).st != .none

/-- WAKE (R102, R129). -/
def Sys.ringWake (k : Nat) (y : Sys) : Sys :=
  if (y.ring k).st == .running then y.updRing k fun r => { r with stopped := false } else y

/-- ENABLE (R129, R134). -/
def Sys.ringEnable (k : Nat) (y : Sys) : Sys :=
  match (y.ring k).st with
  | .disabled | .halted => y.updRing k Ring.enable
  | .stopping => y.updRing k fun r => { r with enableRec := true }
  | _ => y

/-- DISABLE (R129, R131). -/
def Sys.ringDisable (k : Nat) (y : Sys) : Sys :=
  match (y.ring k).st with
  | .running => ((y.updRing k fun r => { r with st := .stopping, enableRec := false }).ringStop k 7).ringSettle k
  | .stopping => y.updRing k fun r => { r with enableRec := false }
  | _ => y

/-- CLEAR_HALT (R105, R129). -/
def Sys.ringClearHalt (k e : Nat) (y : Sys) : Sys :=
  match (y.ring k).st with
  | .disabled | .running | .stopping | .halted => y.updEp (y.ring k).slot e fun p => { p with halted := false }
  | _ => y

/-- The bytes of an entry of a ring (R86). -/
def entryBytes (k : Nat) : Nat := if k % 32 < 16 ∨ k % 32 = 20 then 32 else 16

/-- A FETCH channel takes the read of the next entries that are not known free, 1-8 whole ones (R612). -/
def Sys.scanGo (k : Nat) (y : Sys) : Sys :=
  let r := y.ring k
  let a := (r.wpos + r.known) % r.size
  if r.scanning then
    y.hostTake 0 (.scan k) (some (k / 32)) (r.base + entryBytes k * a) (entryBytes k * min 8 (min (r.size - r.known) (r.size - a)))
  else y

/-- A scan read is asked for: it goes at once where nothing waits before it, and in its turn otherwise (R188). -/
def Sys.scanRead (k : Nat) (y : Sys) : Sys :=
  if !(y.ring k).scanning || (y.hostCarrier (.scan k)).isSome then y
  else if y.host.fetchQ.isEmpty && (y.hostChan 0).isSome && y.pins.pasidEn then y.scanGo k
  else y.fetchWait (.scan k)

/-- A completion- or event-ring doorbell starts a scan where an entry is not known free (R612); for the event ring, a walk is
due while the instance holds spilled events (R114). -/
def Sys.scanStart (k : Nat) (y : Sys) : Sys :=
  let r := y.ring k
  let y := if r.size ≤ r.known then y else (y.updRing k fun r => { r with scanning := true }).scanRead k
  if k % 32 = 20 && y.host.spq.any fun s => s.inst == k / 32 && !s.dead then { y with host := { y.host with walkDue := true } } else y

/-- What a doorbell does once its ring's context is on chip. -/
def Sys.dbAct (k : Nat) (op : DbOp) (y : Sys) : Sys :=
  (match op with
   | .wake => y.ringWake k
   | .enable => y.ringEnable k
   | .disable => y.ringDisable k
   | .clearHalt e => y.ringClearHalt k e
   | .returned => y.scanStart k).cacheUse k

/-- A doorbell (R101): for a ring that does not exist it is discarded; where the ring's context is not cached, the context is
fetched first (R91), and the doorbell acts when it has come. -/
def Sys.doorbell (k : Nat) (op : DbOp) (y : Sys) : Sys :=
  if !y.ringHere k then y
  else if y.cached k then y.dbAct k op
  else ({ y with host := { y.host with dbWait := y.host.dbWait ++ [(k, op)] } }).ctxRead k

/-- The doorbells that waited for a context act, in order (R91). -/
def Sys.dbDrain (k : Nat) (y : Sys) : Sys :=
  each (fun (w : Nat × DbOp) (y : Sys) => y.dbAct k w.2) (y.host.dbWait.filter fun w => w.1 == k)
    { y with host := { y.host with dbWait := y.host.dbWait.filter fun w => w.1 != k } }

/-! ## Fetch (R102, R103) -/

/-- Whether an instance's page answers (R54, R363). -/
def Sys.instHere (y : Sys) (i : Nat) : Bool := (y.inst i).st == .created || (y.inst i).st == .running

/-- Whether fetch work is pending for ring `k` and no read of it is under way: the ring takes entries, and its instance's
holding is not exhausted (R102, R103, R126). -/
def Sys.fetchable (y : Sys) (k : Nat) : Bool :=
  decide (k % 32 < 16) && (y.ring k).takes && y.instHere (k / 32) && !(y.inst (k / 32)).exhausted &&
    (y.hostCarrier (.desc k)).isNone && (y.hostCarrier (.ctx k)).isNone

/-- The place of ring `k` in the round robin across instances and, within one, by ring number (R103). -/
def Sys.fetchRank (y : Sys) (k : Nat) : Nat :=
  (k / 32 + 4095 - y.host.fetchInst) % 4096 * 16 + (k % 32 + 31 - FMap.get 15 (k / 32) y.host.fetchRing) % 16

/-- The ring whose turn it is. -/
def Sys.fetchNext (y : Sys) : Option Nat :=
  ((y.host.rings.map (·.1)).filter y.fetchable).foldl (fun (a : Option Nat) k =>
    match a with
    | none => some k
    | some b => if y.fetchRank k < y.fetchRank b then some k else some b) none

/-- Descriptor reads are issued in turn, one per turn, while a FETCH channel is idle: 1-8 whole entries each, none past the ring's
end, under the instance's PASID (R102, R103, R203); a ring whose context is not cached has it fetched (R91). -/
def Sys.fetchIssue : Nat → Sys → Sys
  | 0, y => y
  | fuel + 1, y =>
    match (if y.pins.pasidEn then y.fetchNext else none), y.hostChan 0 with
    | some k, some _ =>
      let r := y.ring k
      let y := { y with host := { y.host with fetchInst := k / 32, fetchRing := FMap.put 15 (k / 32) (k % 32) y.host.fetchRing } }
      let y := if y.cached k then y.hostTake 0 (.desc k) (some (k / 32)) (r.base + 32 * r.fetch) (32 * min 8 (r.size - r.fetch))
        else y.ctxRead k
      y.fetchIssue fuel
    | _, _ => y

/-- A waiting request of the FETCH group is taken, or is no longer wanted. -/
def Sys.fetchTake (u : HUse) (y : Sys) : Sys :=
  let y := { y with host := { y.host with fetchQ := y.host.fetchQ.filter (· != u) } }
  match u with
  | .ctx k => y.ctxGo k
  | .scan k => y.scanGo k
  | _ => y

/-- Idle FETCH channels take what waits: contexts to be written, then reads in the order of their arrival, those that would carry a
PASID only while PASID Enable is set, then descriptor reads in turn (R103, R188, R204). -/
def Sys.fetchPump (y : Sys) : Sys :=
  let go := fun (y : Sys) => (y.hostChan 0).isSome
  let y := if go y then each (fun k (y : Sys) => y.ctxPut k) y.host.ctxOut { y with host := { y.host with ctxOut := [] } } else y
  let y := each (fun u (y : Sys) =>
    let pasid := match u with | .scan _ => true | _ => false
    if go y && (!pasid || y.pins.pasidEn) then y.fetchTake u else y) y.host.fetchQ y
  y.fetchIssue 8

/-- Entries become known free while the scan reads OWN = 1 (R612). -/
def Ring.scan (r : Ring) : List Bool → Ring
  | [] => { r with scanning := r.scanning && decide (r.known < r.size) }
  | true :: t => if r.known < r.size then Ring.scan { r with known := r.known + 1 } t else { r with scanning := false }
  | false :: _ => { r with scanning := false }

/-! ## Events (R113-R115) -/

/-- The event ring's context key. -/
def evtKey (i : Nat) : Nat := i * 32 + 20

/-- An instance's events in SPQ. -/
def Sys.spilled (y : Sys) (i : Nat) : Nat := (y.host.spq.filter fun s => s.inst == i && !s.dead).length

/-- SPQ's entry count. -/
def Sys.spqSize (y : Sys) : Nat := 2 ^ (y.pgReg (onePg .rng 0) 0x58).fld 4 0

/-- Write an event into the instance's event ring; it carries LOST after a discard, and counts as a record with IOC = 1
(R110, R409). -/
def Sys.putEvent (i : Nat) (e : Ev) (y : Sys) : Sys :=
  let k := evtKey i
  let r := y.ring k
  let e := { e with lost := e.lost || (y.inst i).lostPend }
  let y := y.emit (.mem (y.pfx (some i)) false false (r.base + 32 * r.wpos) (dwBytes e.dws))
  let y := y.updRing k fun r => { r with wpos := (r.wpos + 1) % r.size, known := r.known - 1 }
  ((y.updInst i fun n => { n with lostPend := false }).cacheUse k).ringMsg k

/-- Append an entry to SPQ in host memory and advance RNG_SPQ_PI (R113). -/
def Sys.spqPut (s : Spill) (y : Sys) : Sys :=
  let pi := (y.pgReg (onePg .rng 0) 0x5C).toNat
  let base := lohi (y.pgReg (onePg .rng 0) 0x50) (y.pgReg (onePg .rng 0) 0x54)
  let y := { y with host := { y.host with spq := y.host.spq ++ [s] } }
  (y.emit (.mem none false false (base + 64 * (pi % 65536))
    (dwBytes ([Word.ofN s.inst, Word.ofN s.seq, 0, 0, 0, 0, 0, 0] ++ s.ev.dws)))).setPg (onePg .rng 0) 0x5C
    (Word.ofN (advIdx y.spqSize pi))

/-- Spill an event, or discard it (R113, R115). -/
def Sys.spillEvent (i : Nat) (e : Ev) (y : Sys) : Sys :=
  let lim := (y.pgReg (onePg .rng 1) 0x880).fld 11 0
  if lim ≤ y.spilled i ∨ y.spqSize ≤ y.host.spq.length ∨ (y.pgReg (onePg .rng 0) 0x58).bit 31 = false then
    let y := (y.incFld (onePg .rng 0) 0x64 15 0).setFld (onePg .rng 0) 0x64 27 16 i
    (y.updInst i fun n => { n with lostPend := true }).ringErr (evtKey i) 7 0
  else
    let q := (y.ring (evtKey i)).nextSpill
    (y.spqPut { inst := i, seq := q, ev := e }).updRing (evtKey i) fun r =>
      { r with nextSpill := (q + 1) % 65536 }

/-- Deliver the oldest waiting event (R113): into the event ring only while its entry at WPOS is known free and the
instance holds no event in SPQ. It waits while no RECORD channel is idle (R188) or the event ring's context has to be fetched
first (R91), or PASID Enable is clear (R204). -/
def Sys.deliverEvent (y : Sys) : Sys :=
  match y.host.evq with
  | [] => y
  | s :: rest =>
    let k := evtKey s.inst
    let r := y.ring k
    let here := (y.inst s.inst).st != .free && (y.inst s.inst).st != .destroying
    let straight := r.st == .running && decide (0 < r.known) && y.spilled s.inst == 0
    if here && !(if straight then y.recOpen else y.recChan) then y
    else if here && straight && !y.cached k then y.ctxRead k
    else
      let y := { y with host := { y.host with evq := rest } }
      if !here then y
      else if straight then y.putEvent s.inst s.ev
      else y.spillEvent s.inst s.ev

/-- One entry of a walk (R114): answers whether it was delivered. -/
def Sys.walkOne (s : Spill) (y : Sys) : Bool × Sys :=
  let ci := (y.pgReg (onePg .rng 0) 0x60).toNat
  let y := { y with host := { y.host with spq := y.host.spq.drop 1 } }
  let y := y.setPg (onePg .rng 0) 0x60 (Word.ofN (advIdx y.spqSize ci))
  let r := y.ring (evtKey s.inst)
  if s.dead then (false, y)
  else if s.seq == r.nextDeliver && r.st == .running && decide (0 < r.known) then
    (true, (y.putEvent s.inst s.ev).updRing (evtKey s.inst) fun r => { r with nextDeliver := (r.nextDeliver + 1) % 65536 })
  else (false, y.spqPut s)

/-- A walk over the SPQ entries present at its start (R114). -/
def Sys.walkAll : List Spill → Bool → Sys → Bool × Sys
  | [], d, y => (d, y)
  | s :: r, d, y => match y.walkOne s with | (b, y) => y.walkAll r (d || b)

/-- A whole walk; another one is due when it delivered an event while entries remain for an instance with free
event-ring entries. It waits while the context of an event ring that it would write has to be fetched (R91). -/
def Sys.spqWalk (y : Sys) : Sys :=
  match y.host.spq.find? fun s => !s.dead && (y.ring (evtKey s.inst)).st == .running && !y.cached (evtKey s.inst) with
  | some s => y.ctxRead (evtKey s.inst)
  | none =>
    match y.walkAll y.host.spq false with
    | (d, y) =>
      let more := y.host.spq.any fun s => !s.dead && decide (0 < (y.ring (evtKey s.inst)).known)
      { y with host := { y.host with walkDue := d && more } }

/-- An access to a subpage of an instance page: Unsupported Request where none answers (R48, R54, R71, R566). -/
def Sys.viaInst (i off : Nat) (isRead : Bool) (f : Sys → Sys) (y : Sys) : Sys :=
  if y.hostOn && !y.contain.chipFault && y.instHere i then f y
  else { y with out := .ur .tenant (i * 0x4000 + off) isRead :: y.out }

end Sys2Proof.Machine
end

