-- ==== Sys2Proof/Machine/Dma.lean ====
section
/-! DEFINITION. The DMA engines: requests computed from the FIFOs and transfers, bursts, retry and halt, firmware
transfers and the DMA completion queue (R186-R218, R416-R420). -/

namespace Sys2Proof.Machine

/-! ## Channels -/

/-- Whether an engine works. -/
def Sys.dmaWorks (y : Sys) (e : Nat) : Bool :=
  !y.contain.chipFault &&
    (if e = 0 then (y.dom 16).st != .off && !y.halted (dmaMain 0)
     else (y.dom (e - 1)).st == .on && !y.quar (e - 1) && !y.halted (dmaMain e))

/-- Whether every channel of a halted channel's group, or of its region DMA, is HALTED (R213). -/
def Sys.groupHalted (y : Sys) (e c : Nat) : Bool :=
  let g := if e = 0 then c / 8 * 8 else 0
  (List.range 8).all fun j => (y.chan e (g + j)).st == .halted

/-! ## The shared and local SRAM -/

/-- A byte of the shared SRAM; what nothing has written since its contents were lost is not defined (R474). -/
def Sys.sramByte (y : Sys) (o : Nat) : Byte :=
  FMap.get (if y.eng.sram.zero then 0 else Config.freeByte y.eng.sram.epoch o) o y.eng.sram.cells

/-- Store a byte of the shared SRAM. While unlisted bytes read 0, no 0 is listed. -/
def Sys.setSram (o : Nat) (b : Byte) (y : Sys) : Sys :=
  let cs := if y.eng.sram.zero then FMap.put 0 o b y.eng.sram.cells
    else FMap.ins o b (FMap.del o y.eng.sram.cells)
  { y with eng := { y.eng with sram := { y.eng.sram with cells := cs } } }

/-- Store bytes from offset `o` on; a write repairs nothing outside its bytes. -/
def Sys.setSramL (o : Nat) : List Byte → Sys → Sys
  | [], y => y
  | b :: r, y => (y.setSram o b).setSramL (o + 1) r

/-- Bytes of the shared SRAM. -/
def Sys.sramBytes (y : Sys) (o n : Nat) : List Byte := (List.range n).map fun i => y.sramByte (o + i)

/-- Whether a range holds a poisoned word (R420). -/
def Sys.sramPoison (y : Sys) (o n : Nat) : Bool := y.eng.sram.poison.any fun w => decide (o < 8 * w + 8 ∧ 8 * w < o + n)

/-- Insertion into a rising list of numbers. -/
def natIns (a : Nat) : List Nat → List Nat
  | [] => [a]
  | b :: r => if a = b then b :: r else if a < b then a :: b :: r else b :: natIns a r

/-- Poison or repair of the words of a range, as a DMA write leaves them (R211, R420). -/
def Sys.markSram (o n : Nat) (p : Bool) (y : Sys) : Sys :=
  let ws := (List.range ((o + n + 7) / 8 - o / 8)).map (· + o / 8)
  let l := y.eng.sram.poison.filter fun w => !ws.contains w
  { y with eng := { y.eng with sram := { y.eng.sram with poison := if p then ws.foldl (fun l w => natIns w l) l else l } } }

/-- Whether a local range of a firmware transfer lies in one memory of R417. -/
def localOk (a n : Nat) : Bool :=
  (decide (0x800000 ≤ a) && decide (a + n ≤ 0x1000000)) ||
    (decide (0x1000000 ≤ a) && decide (a + n ≤ 0x1400000) && decide (a / 0x40000 = (a + n - 1) / 0x40000))

/-- Store bytes at an engine-region address (R416). -/
def Sys.setLocal (a : Nat) (bs : List Byte) (p : Bool) (y : Sys) : Sys :=
  if a < 0x1000000 then (y.setSramL (a - 0x800000) bs).markSram (a - 0x800000) bs.length p
  else { y with eng := { y.eng with lsram := FMap.putAll none (a - 0x1000000) (bs.map some) y.eng.lsram } }

/-- A byte of the cores' local SRAM. What a reload from the code copy puts there is not stated byte by byte (R424): a free
value until it is written. -/
def Sys.lsByte (y : Sys) (k : Nat) : Byte :=
  match FMap.get none k y.eng.lsram with
  | some b => b
  | none => Config.freeByte (FMap.get 0 (k / 0x40000) y.eng.lsEpoch) (0x1000000 + k)

/-- Bytes at an engine-region address. -/
def Sys.localBytes (y : Sys) (a n : Nat) : List Byte :=
  if a < 0x1000000 then y.sramBytes (a - 0x800000) n
  else (List.range n).map fun i => y.lsByte (a - 0x1000000 + i)

/-! ## Region requests -/

/-- A request of a region DMA (R189): kind, transfer, FIFO number of the rotation, the packet it continues or drains,
and the place and length of the burst. -/
structure Req where
  kind : Nat
  x : Xfer
  fifo : Nat
  pkt : Nat
  addr : Nat
  len : Nat
  setup : Bool := false
  fresh : Bool := false
  deriving DecidableEq, Repr

/-- The host address of byte `o` of a transfer, and the bytes left in its segment (R190, R193). -/
def segAt : List (Nat × Nat) → Nat → Nat × Nat
  | [], _ => (0, 0)
  | (a, l) :: r, o => if o < l then (a + o, l - o) else segAt r (o - l)

/-- The maximum packet size of a transfer's endpoint. -/
def Sys.mpsOf (y : Sys) (x : Xfer) : Nat := max 1 (y.epOf x).mps

/-- The request kind of a transfer's fill (R189). -/
def Sys.fillKind (y : Sys) (x : Xfer) : Nat :=
  match (y.epOf x).ty with
  | .control => 3
  | .bulk => if (y.epOf x).cmd then 3 else 4
  | _ => 1

/-- Whether a transfer wants its SETUP packet in the FIFO. -/
def Sys.wantsSetup (y : Sys) (x : Xfer) : Bool :=
  x.ty == 2 && x.stage == .setup && !((y.fifo x.port).tx.any fun t => t.xid == x.id && t.setup && t.live)

/-- Whether a transfer has OUT bytes still to fill. -/
def Xfer.wantsFill (x : Xfer) : Bool :=
  !x.isIn && decide (x.filled < x.total) && (x.ty == 1 || x.ty == 3 || (x.ty == 2 && x.stage == .data))

/-- Words that an endpoint's unsent packets hold (R239). -/
def Fifo.epWords (f : Fifo) (n e : Nat) : Nat :=
  f.tx.foldl (fun a t => if t.slot == n && t.epid == e && t.live then a + pktWords t.data.length else a) 0

/-- The first transfer of each endpoint of a list. -/
def firstPerEp (seen : List (Nat × Nat)) : List Xfer → List Xfer
  | [] => []
  | x :: r => if seen.contains (x.slot, x.epid) then firstPerEp seen r
    else x :: firstPerEp ((x.slot, x.epid) :: seen) r

/-- Whether a fill burst of port `p` is in flight. -/
def Sys.txBusy (y : Sys) (p : Nat) : Bool :=
  y.usb.dma.any fun e => e.1 / 32 == p / 16 + 1 && e.2.port == p && !e.2.toHost && e.2.st != .idle && e.2.st != .halted

/-- The TX requests of port `p` (R189, R191, R239, R174, R175, R611). A control transfer of the chip is filled from its on-chip
copy. -/
def Sys.txReqs (y : Sys) (p : Nat) : List Req :=
  let f := y.fifo p
  let fno := 2 * (p % 16)
  if y.txBusy p then []
  else
    match f.tx.find? fun t => t.st == .filling with
    | some t =>
      match y.xfer? t.xid with
      | some x =>
        let s := if x.chip.isSome then (0, 512) else segAt x.segs (t.pos + t.data.length)
        let n := min (min 512 (t.len - t.data.length)) (min s.2 (8 * f.txFree))
        if n = 0 then []
        else [{ kind := y.fillKind x, x := x, fifo := fno, pkt := t.num, addr := s.1, len := n, setup := x.chip.isSome }]
      | none => []
    | none =>
      let ps := (y.pace (p / 16)).st
      let limit := (y.pgReg (fifPg p) 0x48).fld 10 0
      let xs := firstPerEp [] (y.host.xfers.filter fun x =>
        x.port == p && x.fin.isNone && x.cut.isNone && !x.readFail && (y.wantsSetup x || x.wantsFill))
      xs.filterMap fun x =>
        let ep := y.epOf x
        let k := y.fillKind x
        let held := f.epWords x.slot x.epid
        if ep.cmd then
          if y.dCan (p / 16) (x.total / 32) (x.total / 32) && x.filled == 0 then
            some { kind := 3, x := x, fifo := fno, pkt := 0, addr := (segAt x.segs 0).1, len := x.total, fresh := true }
          else none
        else if f.tx.length ≥ 64 ∨ f.txFree = 0 then none
        else if k = 4 ∧ (f.gate ∨ ps ≠ .normal) then none
        else if k = 3 ∧ ps = .stopped then none
        else if k ≥ 3 ∧ limit ≤ held then none
        else if y.wantsSetup x then
          some { kind := 3, x := x, fifo := fno, pkt := f.txNum, addr := 0, len := 8, setup := true, fresh := true }
        else
          let s := if x.chip.isSome then (0, 512) else segAt x.segs x.filled
          let n := min (min 512 (min (y.mpsOf x) (x.total - x.filled))) (min s.2 (8 * f.txFree))
          if n = 0 then none
          else some { kind := k, x := x, fifo := fno, pkt := f.txNum, addr := s.1, len := n, setup := x.chip.isSome, fresh := true }

/-- Bytes of a packet that fit its transfer's buffer (R237). -/
def fitBytes (x : Xfer) (t : RxPkt) (before : Nat) : Nat := min t.data.length (x.total - before)

/-- Bytes of a transfer in packets received before packet `num` and those already drained. -/
def Sys.rxBase (y : Sys) (x : Xfer) (t : RxPkt) : Nat :=
  x.recvd - ((y.fifo x.port).rx.filter fun u => u.xid == x.id && decide (t.num ≤ u.num)).foldl
    (fun a u => a + u.data.length) 0

/-- The RX request of port `p`: the first packet not yet released (R237, R240). -/
def Sys.rxReqs (y : Sys) (p : Nat) : List Req :=
  let f := y.fifo p
  match f.rx.find? fun t => t.st != .done with
  | none => []
  | some t =>
    if y.usb.dma.any (fun e => e.1 / 32 == p / 16 + 1 && e.2.port == p && e.2.toHost && e.2.st != .idle
        && e.2.st != .halted) then []
    else
      match y.xfer? t.xid with
      | none => []
      | some x =>
        let base := y.rxBase x t
        let s := if x.always || x.chip.isSome then (0, 512) else segAt x.segs (base + t.drained)
        let fit := if x.always || x.chip.isSome then t.data.length else fitBytes x t base
        let n := min (min 512 (fit - t.drained)) s.2
        if n = 0 then []
        else [{ kind := if f.urgent then 0 else 2, x := x, fifo := 2 * (p % 16) + 1, pkt := t.num, addr := s.1, len := n }]

/-- DMA_KIND_PRIO of a kind. -/
def Sys.kindPrio (y : Sys) (n k : Nat) : Nat := (y.pgReg ⟨.rdma, n, 0⟩ 0x244).fld (2 * k + 1) (2 * k)

/-- The request an idle channel of region `n` takes (R189): by priority, then in rotation over the FIFOs from the one
served last; requests that would carry a PASID wait while PASID Enable is clear (R204), and none is taken for an instance in
reset or destruction (R381). DESIGN CHOICE (log 86): of equal requests of one FIFO the first in transfer order is taken. -/
def Sys.pickReq (y : Sys) (n : Nat) : Option Req :=
  let all := (List.range 16).flatMap fun k => y.txReqs (16 * n + k) ++ y.rxReqs (16 * n + k)
  let live := fun (r : Req) => match r.x.inst with
    | some i => (y.inst i).st == .created || (y.inst i).st == .running
    | none => true
  let rs := all.filter fun r => (y.pins.pasidEn || r.x.inst.isNone || r.setup) && live r && !r.x.gone
  let last := FMap.get 31 n y.usb.rot
  let key := fun (r : Req) => y.kindPrio n r.kind * 32 + (r.fifo + 31 - last) % 32
  rs.foldl (fun (a : Option Req) r => match a with
    | none => some r
    | some b => if key r < key b then some r else a) none

/-- A region channel takes a request as its burst (R191): it waits from the start where it must give way (R194); a fill from
host memory asks for its bytes. -/
def Sys.takeReq (e c : Nat) (r : Req) (y : Sys) : Sys :=
  let n := e - 1
  let rx := r.fifo % 2 == 1
  let x := r.x
  let cmd := !rx && (y.epOf x).cmd
  let pos := match (y.fifo x.port).tx.find? fun t => t.num == r.pkt && !r.fresh with | some t => t.pos + t.data.length | none => x.filled
  let bytes := if !rx && r.setup then (if x.stage == .setup then x.setup else (x.chipData.drop pos).take r.len) else []
  let tpl : TxPkt :=
    if r.setup && x.stage == .setup then { slot := x.slot, epid := x.epid, xid := x.id, len := 8, setup := true }
    else { slot := x.slot, epid := x.epid, xid := x.id, pos := x.filled, len := min (y.mpsOf x) (x.total - x.filled),
           last := decide (x.total ≤ x.filled + y.mpsOf x) }
  let (gs, y) := if cmd then y.takeGrans (r.len / 32) else ([], y)
  let y := { y with usb := { y.usb with rot := FMap.put 31 n r.fifo y.usb.rot } }
  let y := y.updChan e c fun k =>
    { st := .active, kind := r.kind, prio := y.kindPrio n r.kind, port := r.x.port, toHost := rx, inst := r.x.inst,
      xid := r.x.id, pkt := r.pkt, addr := r.addr, len := r.len, setup := r.setup, slot := r.x.slot, epid := r.x.epid,
      link := !r.setup && !(rx && (r.x.always || r.x.chip.isSome)), err := k.err, tpl := tpl,
      data := bytes.map fun b => (b, false), grans := gs }
  let y := if y.blocked (e * 32 + c) (y.chan e c) then y.updChan e c fun k => { k with st := .preempted } else y
  if rx then y.updRx r.x.port r.pkt fun t => { t with st := .draining }
  else
    let y := if cmd then y.dReserve n (r.len / 32) (r.len / 32) else y
    y.readIssue e c 8

/-- Append zero-length packets that transfers of port `p` still need: a NORMAL OUT of length 0, or the ZLP of R92. One packet is
filled at a time (R611). -/
def Sys.zlpFill (p : Nat) (y : Sys) : Sys :=
  each (fun (x : Xfer) (y : Sys) =>
    let f := y.fifo p
    let ep := y.epOf x
    let wants := x.ty == 1 && !x.isIn && !ep.cmd && x.fin.isNone && x.cut.isNone && x.filled == x.total && !x.zlpDone &&
      (x.total == 0 || (x.zlp && x.total % y.mpsOf x == 0))
    if wants && !(f.tx.any fun t => t.xid == x.id && t.live && t.len == 0 && t.last) && decide (f.tx.length < 64) &&
        !(f.tx.any fun t => t.st == .filling) && !y.txBusy p then
      y.txWhole p { slot := x.slot, epid := x.epid, xid := x.id, pos := x.total, last := true } []
    else y) (y.host.xfers.filter fun x => x.port == p) y

/-! ## Burst ends -/

/-- A drained transfer turns POISONED, over whatever it finished with (R237, R238). -/
def Sys.poisonX (id : Nat) (y : Sys) : Sys :=
  match y.xfer? id with
  | none => y
  | some x =>
    let y := y.updX id fun x => { x with poison := true }
    match x.fin with
    | none => y.finX id 6
    | some _ =>
      let y := if x.epid != 0 && x.ty != 3 then y.updEp x.slot x.epid fun e => { e with halted := true } else y
      y.updX id fun x => { x with fin := some 6 }

/-- Bytes that lie in granules of the report pool, `per` bytes in each, are stored from byte `o` of them on; a poisoned one gives its
word an uncorrectable check code (R190, R238, R419, R420). -/
def Sys.poolPut (gs : List Nat) (per o : Nat) (bs : List (Byte × Bool)) (y : Sys) : Sys :=
  let at_ := fun (i : Nat) => poolAt gs per (o + i)
  let ib := (List.range bs.length).zip bs
  let y := each (fun (e : Nat × Byte × Bool) (y : Sys) => (y.setSram (at_ e.1) e.2.1).markSram (at_ e.1 / 8 * 8) 8 false) ib y
  each (fun (e : Nat × Byte × Bool) (y : Sys) => if e.2.2 then y.markSram (at_ e.1 / 8 * 8) 8 true else y) ib y

/-- The records of a command endpoint that one read brought, 32 bytes each (R337). -/
def recordsOf : Nat → List (Byte × Bool) → List (List (Byte × Bool))
  | 0, _ => []
  | n + 1, bs => bs.take 32 :: recordsOf n (bs.drop 32)

/-- The records that a read brought enter the device's flow, each with its granule and its poison flag (R331, R337, R438); where the
transfer has gone meanwhile they are dropped, and their reservations released. -/
def Sys.recordEnd (n : Nat) (k : Chan2) (y : Sys) : Sys :=
  let cnt := k.grans.length
  match y.xfer? k.xid with
  | none => y.dRelease n cnt cnt
  | some x =>
    if x.fin.isSome then y.dRelease n cnt cnt
    else
      let y := y.updX x.id fun x => { x with filled := x.total, moved := x.total }
      let y := each (fun (e : Nat × List (Byte × Bool)) (y : Sys) => y.pushD n
          { flow := x.slot, what := .record, prio := (y.slot x.slot).prio, gran := 1, grans := [e.1], data := e.2.map Prod.fst,
            epid := x.epid, mf := y.mf, us := y.us, poison := e.2.any Prod.snd })
        (k.grans.zip (recordsOf cnt k.data)) y
      y.finX x.id (if k.poison then 6 else 0)

/-- The end of a fill burst (R191, R226, R227, R337). The fill position follows the packet, unless it has been dropped or evicted
meanwhile (R231, R232). -/
def Sys.fillEnd (e c : Nat) (y : Sys) : Sys :=
  let k := y.chan e c
  let p := k.port
  let y := y.chanIdle e c
  if !k.grans.isEmpty then y.recordEnd (e - 1) k
  else
    match y.xfer? k.xid with
    | none => (y.updTx p k.pkt fun t => if t.st == .filling then { t with st := .dropped } else t).reclaimTx p
    | some x =>
      let y := match (y.fifo p).tx.find? fun t => t.num == k.pkt with
        | some (t : TxPkt) =>
          if t.st == TxSt.dropped || t.setup then y else y.updX x.id fun x => { x with filled := t.pos + t.data.length }
        | none => y
      ((y.txSeal p k.pkt).reclaimTx p).zlpFill p

/-- The last TLP of a write burst begins here: the address of the last payload write (R118, R201). -/
def lastTlp (mps a n : Nat) : Nat := let e := a + n - 1; max a (e - e % mps)

/-- Whether `n` bytes of an RX packet from byte `o` on hold a word whose parity fails. -/
def RxPkt.badIn (t : RxPkt) (o n : Nat) : Bool := t.bad.any fun w => decide (o < 8 * w + 8 ∧ 8 * w < o + n)

/-- A normalised report, or what firmware's own control transfer reads, goes to its buffer in shared SRAM; a word whose parity
fails gets an uncorrectable check code there (R190, R238). The buffer is granules of the report pool that nothing else holds, taken
with the packet's first burst (R419). Answers them too. -/
def Sys.reportWrite (p : Nat) (t : RxPkt) (n : Nat) (y : Sys) : List Nat × Sys :=
  let (gs, y) := if t.grans.isEmpty then y.takeGrans (granules t.data.length) else (t.grans, y)
  let y := y.updRx p t.num fun t => { t with grans := gs }
  let bs := (List.range (min n (t.data.length - t.drained))).map fun i => (byteAt t.data (t.drained + i), t.badIn (t.drained + i) 1)
  (gs, y.poolPut gs 64 t.drained bs)

/-- The end of a drain burst (R190, R193, R200, R237, R238): RP moves over the words read. -/
def Sys.drainEnd (e c : Nat) (y : Sys) : Sys :=
  let k := y.chan e c
  let p := k.port
  let y := y.chanIdle e c
  match (y.fifo p).rx.find? (fun t => t.num == k.pkt), y.xfer? k.xid with
  | some t, some x =>
    let whole := x.always || x.chip.isSome
    let done := if whole then decide (t.data.length ≤ t.drained + k.len)
      else decide (fitBytes x t (y.rxBase x t) ≤ t.drained + k.len)
    let bad := t.badIn t.drained k.len
    let y := if bad && !t.told then y.recordErr (fifPg p) 1 (1 + t.num % 64 * 256) else y
    let y := y.updRx p t.num fun t =>
      { t with drained := t.drained + k.len, told := t.told || bad, st := if done then .done else .committed }
    let (gs, y) := if whole then y.reportWrite p t k.len else ([], y)
    let y := y.updFifo p fun f => { f with rxRp := (t.start + pktWords (t.drained + k.len)) % 2048 }
    let y := if done then y.reclaimRx p else y
    if whole then
      if !done then y
      else if x.chip.isSome then
        if x.fin.isSome && !y.rxPending p x.id then y.tryPost x.id else y
      else
        let y := y.pushD (p / 16) { flow := x.slot, what := if (y.slot x.slot).isHub then .hubReport else .report,
                                    prio := (y.slot x.slot).prio, gran := granules x.total, grans := gs,
                                    data := t.data, epid := x.epid, mf := t.mf, us := t.us, poison := t.poison }
        if x.fin.isSome && !y.rxPending p x.id then y.dropXfer x.id else y
    else
      let i := x.inst.getD 0
      let ro := y.pins.roEn && (y.pgReg (onePg .rng 0) 0x48).bit 0 && !y.compatI i
      let y := y.writeTlps (y.pfx x.inst) ro (fun o n => t.badIn (t.drained + o) n) k.addr ((t.data.drop t.drained).take k.len)
      let y := y.updX x.id fun x =>
        { x with wrote := true, lastAddr := lastTlp y.maxPayload k.addr k.len,
                 drained := if t.poison || x.poison then x.drained else x.drained + k.len }
      let y := if bad then y.poisonX x.id else y
      y.tryPost x.id
  | _, _ => y

/-- What a read of a region DMA that failed after its retries means for its requester (R209, R212, R337). -/
def Sys.fillFailed (e c : Nat) (y : Sys) : Sys :=
  let k := y.chan e c
  let y := y.updX k.xid fun x => { x with readFail := true }
  let y := match y.xfer? k.xid with
    | some x => if (y.epOf x).cmd then y.dRelease (e - 1) (k.len / 32) (k.len / 32) else y
    | none => y
  (y.cutX 10 k.xid).reclaimTx k.port

/-- Bytes of a fill move into the FIFO packet, which is created with its first byte as the burst was sampled (R191, R226). Where the
transfer has gone, or its fill position is another meanwhile, they enter a DROPPED packet (R192, R231, R232). Records of a command
endpoint go to their granules instead (R337). -/
def Sys.fillBytes (e c : Nat) (bs : List (Byte × Bool)) (y : Sys) : Sys :=
  let k := y.chan e c
  let y := y.updChan e c fun k => { k with bytes := k.bytes + bs.length }
  if !k.grans.isEmpty then
    (y.updChan e c fun k => { k with data := k.data ++ bs }).poolPut k.grans 32 k.bytes bs
  else
    let gone : Bool := match y.xfer? k.xid with
      | some x => x.fin.isSome || (if k.tpl.setup then x.stage != .setup else x.filled != k.tpl.pos)
      | none => true
    let y := if (y.fifo k.port).tx.any (fun t => t.num == k.pkt) then y
      else y.txOpen k.port (if gone then { k.tpl with st := .dropped } else k.tpl)
    y.txAppend k.port k.pkt bs

/-! ## Firmware transfers (R214-R216) -/

/-- Host DMA page 3, which holds the firmware channels and the DCQ. -/
def fwPg : Pg := onePg .hdma 3

/-- The DCQ's entry count. -/
def Sys.dcqSize (y : Sys) : Nat := 2 ^ (y.pgReg fwPg 0x250).fld 27 24
/-- DCQ entries in use. -/
def Sys.dcqUsed (y : Sys) : Nat := inUse y.dcqSize (y.pgReg fwPg 0x254).toNat (y.pgReg fwPg 0x258).toNat
/-- Whether a DCQ entry can be reserved. -/
def Sys.dcqFree (y : Sys) : Bool := decide (y.dcqUsed + y.usb.dcqRsv < y.dcqSize)

/-- A started firmware transfer gets its DCQ entry, or waits for one (R215, R218). -/
def Sys.fwBegin (j : Nat) (y : Sys) : Sys :=
  if y.dcqFree then
    ({ y with usb := { y.usb with dcqRsv := y.usb.dcqRsv + 1 } }).updChan 0 (24 + j) fun k => { k with st := .active }
  else
    ({ y with usb := { y.usb with dcqWait := y.usb.dcqWait ++ [j] } }).updChan 0 (24 + j) fun k => { k with st := .waitDcq }

/-- START on firmware channel `j` (R215, R417). -/
def Sys.fwStart (j : Nat) (y : Sys) : Sys :=
  let k := y.chan 0 (24 + j)
  let o := 0x40 * j
  let la := (y.pgReg fwPg (0x50 + o)).fld 27 0
  let n := (y.pgReg fwPg (0x54 + o)).fld 23 0
  let ctl := y.pgReg fwPg (0x40 + o)
  if k.st != .idle then y
  else if n = 0 || !localOk la n then y.cfgErrD fwPg 0
  else
    (y.updChan 0 (24 + j) fun k =>
      { st := .idle, prio := ctl.fld 1 0, toHost := ctl.bit 6, addr := lohi (y.pgReg fwPg (0x48 + o)) (y.pgReg fwPg (0x4C + o)),
        laddr := la, total := n, tag := ctl.fld 15 8, err := k.err }).fwBegin j

/-- A DCQ record (R216); CIC source 9 stays asserted while the queue holds records. -/
def Sys.dcqAppend (j status bytes tag : Nat) (y : Sys) : Sys :=
  let pi := (y.pgReg fwPg 0x254).toNat
  let base := (y.pgReg fwPg 0x250).fld 22 12 * 4096
  let rec_ := [Word.ofN (24 + j + status * 256 + tag * 16777216), Word.ofN bytes, Word.ofN y.mf, Word.ofN y.us]
  let y := y.setSramL (base + 16 * (pi % 65536)) (dwBytes rec_)
  (y.setPg fwPg 0x254 (Word.ofN (advIdx y.dcqSize pi))).cicLevel 9 true

/-- The DCQ record of a transfer, in the entry reserved for it. -/
def Sys.dcqPut (j status : Nat) (y : Sys) : Sys :=
  let k := y.chan 0 (24 + j)
  let y := y.dcqAppend j status k.bytes k.tag
  { y with usb := { y.usb with dcqRsv := y.usb.dcqRsv - 1 } }

/-- The next burst of a firmware transfer is sampled (R215): it competes at the channel's own priority (R188, R197). -/
def Sys.fwBurst (j : Nat) (y : Sys) : Sys :=
  let k := y.chan 0 (24 + j)
  let n := min 512 (k.total - k.bytes)
  let prio := (y.pgReg fwPg (0x40 + 0x40 * j)).fld 1 0
  let y := y.updChan 0 (24 + j) fun k =>
    { k with len := n, retries := 0, bst := k.bytes, req := 0, buf := [], prio := prio, aged := false }
  let y := if y.blocked (24 + j) (y.chan 0 (24 + j)) then y.updChan 0 (24 + j) fun k => { k with st := .preempted } else y
  y.readIssue 0 (24 + j) 8

/-- A firmware burst ends; after the last one the DCQ record is written and the channel is IDLE. -/
def Sys.fwBurstEnd (j : Nat) (y : Sys) : Sys :=
  let k := y.chan 0 (24 + j)
  let a := k.laddr + k.bytes
  let bad := fun o n => decide (a < 0x1000000) && y.sramPoison (a - 0x800000 + o) n
  let y := if k.toHost then y.writeTlps none false bad (k.addr + k.bytes) (y.localBytes a k.len) else y
  let y := y.updChan 0 (24 + j) fun k =>
    { k with bytes := if k.toHost then k.bytes + k.len else k.bytes, len := 0, poison := k.poison || (k.toHost && bad 0 k.len) }
  let k := y.chan 0 (24 + j)
  if k.total ≤ k.bytes then (y.dcqPut j (if k.poison then 6 else 0)).chanIdle 0 (24 + j) else y

/-- Bytes of a firmware read move into the local memory. -/
def Sys.fwBytes (j : Nat) (bs : List (Byte × Bool)) (y : Sys) : Sys :=
  let k := y.chan 0 (24 + j)
  (y.setLocal (k.laddr + k.bytes) (bs.map (·.1)) (bs.any (·.2))).updChan 0 (24 + j) fun k => { k with bytes := k.bytes + bs.length }

/-! ## Pre-emption and the channel buffers (R194-R197) -/

/-- How many bytes of a channel's buffer can move on: whole beats, and at the end of the burst what is left (R195, R199). -/
def Chan2.movable (k : Chan2) : Nat :=
  let a := k.addr + k.bytes
  if k.got = k.len then k.buf.length else (a + k.buf.length) / 32 * 32 - a

/-- An ACTIVE read channel moves what it holds, beat by beat, and asks for more (R195, R196); a beat for which the FIFO has neither
ring words nor stages is held (R221). -/
def Sys.chanGo (e c : Nat) (y : Sys) : Sys :=
  let k := y.chan e c
  if k.st != .active || k.toHost || k.setup || k.len = 0 then y
  else
    let move := fun (n : Nat) (y : Sys) =>
      let f := y.fifo k.port
      let bs := if e ≠ 0 ∧ k.grans.isEmpty ∧ f.txRoom < pktWords n then [] else (y.chan e c).buf.take n
      let n := bs.length
      let y := y.updChan e c fun k => { k with buf := k.buf.drop n }
      if e = 0 then y.fwBytes (c - 24) bs else y.fillBytes e c bs
    (each move (beatsOf (k.addr + k.bytes) k.movable) y).readIssue e c 8

/-- Where a channel stands in the order in which bursts go on: by priority, then the engine, then the channel served longest
ago (R194). -/
def Sys.arbRank (y : Sys) (n : Nat) (k : Chan2) : Nat :=
  k.prio * 512 + (n / 32 + 17 - y.usb.linkRot) % 9 * 32 + (n % 32 + 63 - FMap.get 31 (n / 32) y.usb.chanRot) % 32

/-- Insertion of a channel into the order of `arbRank`. -/
def arbIns (a : Nat × Nat) : List (Nat × Nat) → List (Nat × Nat)
  | [] => [a]
  | b :: r => if a.1 ≤ b.1 then a :: b :: r else b :: arbIns a r

/-- The competition of bursts is decided again (R194, R195): a burst that must give way is PREEMPTED and keeps its place and its
buffer; one that need not goes on from there. -/
def Sys.arb (y : Sys) : Sys :=
  let y := { y with usb := { y.usb with dma := y.usb.dma.map fun e =>
    if (e.2.st == .active || e.2.st == .preempted) && decide (0 < e.2.len) then
      (e.1, { e.2 with st := if y.blocked e.1 e.2 then .preempted else .active })
    else e } }
  let order := ((y.usb.dma.filter fun e => e.2.st == .active && !e.2.toHost).map fun e => (y.arbRank e.1 e.2, e.1)).foldl
    (fun l a => arbIns a l) []
  each (fun (a : Nat × Nat) (y : Sys) => if a.2 % 32 < 24 ∧ a.2 / 32 = 0 then y.readIssue 0 a.2 8 else y.chanGo (a.2 / 32) (a.2 % 32))
    order y

/-- Firmware advances DMA_DCQ_CI (R216): waiting channels start as entries free. -/
def Sys.dcqAdvance (v : Word) (y : Sys) : Sys :=
  let ci := v.fld 16 0
  let pi := (y.pgReg fwPg 0x254).toNat
  let size := y.dcqSize
  if qBad size pi ci ci then y.cfgErr fwPg
  else
    let y := y.setPg fwPg 0x258 (Word.ofN ci)
    let y := if y.dcqUsed = 0 then y.cicLevel 9 false else y
    let w := y.usb.dcqWait
    each (fun j y => y.fwBegin j) w { y with usb := { y.usb with dcqWait := [] } }

/-- RESTART of a channel (R213). -/
def Sys.chanRestart (e c : Nat) (y : Sys) : Sys :=
  if (y.chan e c).st == .halted then y.updChan e c fun k => { st := .idle, err := k.err } else y

end Sys2Proof.Machine
end

