-- ==== Sys2Proof/Machine/Ledger.lean ====
section
/-! DEFINITION. The bit-time ledger's arithmetic: charges, PREP, periods, rows and admission (R139-R162, R299-R302,
R307). -/

namespace Sys2Proof.Machine

/-- Bit timing of a transaction: high speed; full speed; low speed on a root port; low speed behind a full-speed hub. -/
inductive Bt where
  | hs | fs | ls | pre
  deriving DecidableEq, Repr

/-- Length, last-end point, periodic cap and SOF or keep-alive charge of a port speed (R139, R148). -/
def lastEnd : Speed → Nat
  | .high => 58976
  | _ => 11936
/-- The periodic cap (R139, R185). -/
def perCap : Speed → Nat
  | .high => 48000
  | .none => 0
  | _ => 10800
/-- The charge of SOF, or of the low-speed keep-alive (R148). -/
def sofCharge : Speed → Nat
  | .high => 196
  | .low => 56
  | _ => 43

/-- A data packet of `n` bytes at worst-case stuffing (R147). -/
def dataHs (n : Nat) : Nat := 64 + 8 * n + (24 + 8 * n) / 6
/-- The same at full or low speed. -/
def dataFs (n : Nat) : Nat := 35 + 8 * n + (24 + 8 * n) / 6
/-- A data packet with exactly `s` stuffed bits (R154). -/
def dataExact (hs : Bool) (n s : Nat) : Nat := (if hs then 64 else 35) + 8 * n + s

/-- A charge in full-speed bit times of a cost counted in the units of the transaction's own speed (R148, R307); `pres`
host packets carry a PRE. -/
def inUnits (b : Bt) (c pres : Nat) : Nat :=
  match b with
  | .hs | .fs => c
  | .ls => 8 * c
  | .pre => 8 * c + 21 * pres

/-- Data packet at worst case in the units of the transaction's speed. -/
def dataW (b : Bt) (n : Nat) : Nat := match b with | .hs => dataHs n | _ => dataFs n

/-- Non-isochronous IN of `n` bytes (R148). With `chargeOutD`, `chargeIsoIn` and `chargeIsoOut` it gives the table of R149: 5,347 for
512 bytes, 1,166 for 64, 643 for 8 and 569 for none at high speed, 721 for 64 and 198 for 8 at full speed, and 1,584 for 8 at low
speed on a root port; isochronous IN 9,981 for 1,024 bytes at high and 9,648 for 1,023 at full speed; isochronous OUT 3,912 for 384
at high and 1,878 for 192 at full speed. -/
def chargeIn (b : Bt) (n : Nat) : Nat := inUnits b (dataW b n + (if b = .hs then 501 else 85)) 2
/-- Non-isochronous OUT whose data packet takes `d` (R148). -/
def chargeOutD (b : Bt) (d : Nat) : Nat := inUnits b (d + (if b = .hs then 501 else 85)) 2
/-- Isochronous IN. -/
def chargeIsoIn (b : Bt) (n : Nat) : Nat := inUnits b (dataW b n + (if b = .hs then 356 else 61)) 2
/-- Isochronous OUT. -/
def chargeIsoOut (b : Bt) (n : Nat) : Nat := inUnits b (dataW b n + (if b = .hs then 260 else 47)) 2
/-- PING. -/
def chargePing : Nat := 405

/-- The halves of a split on the high-speed bus (R299). -/
def chargeSs (periodic isIn : Bool) (d : Nat) : Nat :=
  if isIn then (if periodic then 337 else 578) else d + (if periodic then 433 else 674)
/-- A complete-split. -/
def chargeCs (isIn : Bool) (n : Nat) : Nat := if isIn then 529 + dataHs n else 578

/-- PREP in ledger units at PACE_EFF `e` (R150). -/
def prepOf (s : Speed) (e : Nat) : Nat :=
  let e := max 1 e
  if s = .high then (24576 + 10 * e - 1) / (10 * e) else (6144 + 100 * e - 1) / (100 * e)

/-- PREP at PACE_EFF 32, which admission charges (R152). -/
def prepAdm (s : Speed) : Nat := if s = .high then 77 else 2

/-- The bit timing of transactions with a device on its port. -/
def Sys.btDev (y : Sys) (s : Slot) : Bt :=
  match (y.port s.port).speed, s.speed with
  | .high, _ => .hs
  | .low, _ => .ls
  | _, .low => .pre
  | _, _ => .fs

/-- The bit timing of a slot's transactions. -/
def Sys.btOf (y : Sys) (n : Nat) : Bt := y.btDev (y.slot n)

/-- Whether a device is reached by split transactions (R298). -/
def Sys.splitsDev (y : Sys) (s : Slot) : Bool := y.portHs s.port && decide (0 < s.hub)

/-- Whether a slot is reached by split transactions. -/
def Sys.splits (y : Sys) (n : Nat) : Bool := y.splitsDev (y.slot n)

/-- The base-2 logarithm, rounded down. -/
def log2Floor (n : Nat) : Nat := Nat.log2 (max 1 n)

/-- log2 of the period of R159 in the device's own frames or microframes; `hs`: a high-speed device. -/
def perLog2 (hs iso : Bool) (bInterval : Nat) : Nat :=
  if hs || iso then min 16 (max 1 bInterval) - 1 else log2Floor (min 255 (max 1 bInterval))

/-! ## Rows (R161, R302) -/

/-- Whether an entry occupies row `r`. -/
def PtEnt.inRow (e : PtEnt) (r : Nat) : Bool :=
  let p := min 256 (2 ^ e.plog2)
  let hit := fun (i : Nat) => if e.plog2 ≤ 8 then r % p == (e.phase + i) % p else r == (e.phase + i) % 256
  if !e.split then hit 0
  else (List.range 8).any fun i => (Nat.testBit e.smask i || Nat.testBit e.cmask i) && hit i

/-- The load of row `r` of a table (R161). -/
def rowLoad (t : FMap PtEnt) (r : Nat) : Nat := t.foldl (fun a e => if e.2.inRow r then a + e.2.charge else a) 0

/-- The largest load of the rows an entry would occupy, the entry included. -/
def worstRow (t : FMap PtEnt) (e : PtEnt) : Nat :=
  ((List.range 256).filter e.inRow).foldl (fun a r => max a (rowLoad t r + e.charge)) 0

/-- The lowest free entry index of a table. -/
def freeIdx (t : FMap PtEnt) : Nat := ((List.range 1025).find? fun i => !(t.any fun e => e.1 == i)).getD 1024

/-- Admission of R162 against the tables `ts` at once: the phase with the lowest worst row, ties to the lowest phase. -/
def admitPhase (ts : List (FMap PtEnt)) (cap : Nat) (e : PtEnt) : Option PtEnt :=
  let cand := (List.range (min 256 (2 ^ e.plog2))).filterMap fun phi =>
    let e := { e with phase := phi }
    let w := ts.foldl (fun a t => max a (worstRow t e)) 0
    if w ≤ cap then some (w, e) else none
  (cand.foldl (fun (a : Option (Nat × PtEnt)) c => match a with
    | none => some c
    | some b => if c.1 < b.1 then some c else some b) none).map (·.2)

/-! ## The TT ledger (R300, R301) -/

/-- Whether two TT reservations share a row of the TT's 32-row frame ledger. -/
def ttRow (r : TtRes) (f : Nat) : Bool := if r.pf ≤ 32 then f % r.pf == r.phi else f == r.phi

/-- TT_END of a row: the largest end of the row's entries in the tables. -/
def ttEnd (ts : List (FMap PtEnt)) (hub tt f : Nat) : Nat :=
  ts.foldl (fun a t => t.foldl (fun a e => match e.2.tt with
    | some r => if r.hub == hub && r.tt == tt && ttRow r f then max a r.ttEnd else a
    | none => a) a) 0

/-- c_TT (R300, R307). -/
def cTt (lsDev iso isIn : Bool) (mps think preHub : Nat) : Nat :=
  let c := if iso then (if isIn then chargeIsoIn .fs mps else chargeIsoOut .fs mps)
    else if isIn then chargeIn .fs mps else chargeOutD .fs (dataFs mps)
  (if lsDev then 8 * c else c) + think + 2 + preHub

/-- Admission of a split entry (R301): `e` carries KIND, DIR, MPS, SLOT and EPID; `pf` the full-speed period. -/
def admitSplit (ts : List (FMap PtEnt)) (hub tt pf ctt : Nat) (e : PtEnt) : Option PtEnt :=
  let isoOut := e.kind == 3 && !e.dirIn
  let pieces := if isoOut then max 1 ((e.mps + 187) / 188) else 1
  let charge := 77 + (if e.kind == 3 then
      (if e.dirIn then max 337 (chargeCs true (min 188 e.mps)) else chargeSs true false (dataHs (min 188 e.mps)))
    else if e.dirIn then max 337 (chargeCs true e.mps) else max (chargeSs true false (dataHs e.mps)) 578)
  let cand := (List.range (min pf 32)).filterMap fun phi =>
    let rows := (List.range 32).filter (ttRow { pf := pf, phi := phi })
    let b0 := rows.foldl (fun a f => max a (ttEnd ts hub tt f)) 1500
    let ok := fun (b : Nat) => isoOut || decide ((b + ctt - 1) / 1500 - b / 1500 ≤ 4)
    let b := if ok b0 then b0 else (b0 + 1499) / 1500 * 1500
    let ys := b / 1500
    let ye := (b + ctt - 1) / 1500
    let e := { e with plog2 := Nat.log2 (8 * pf), phase := 8 * phi + ys - 1, smask := 2 ^ pieces - 1,
                      cmask := if isoOut then 0 else (2 ^ (ye - ys + 4) - 4), charge := charge,
                      tt := some { hub := hub, tt := tt, pf := pf, phi := phi, ttEnd := b + ctt } }
    let w := ts.foldl (fun a t => max a (worstRow t e)) 0
    if ok b && decide (b + ctt ≤ 10800) && decide (w ≤ 48000) then some (b + ctt, w, e) else none
  (cand.foldl (fun (a : Option (Nat × Nat × PtEnt)) c => match a with
    | none => some c
    | some b => if c.1 < b.1 ∨ (c.1 = b.1 ∧ c.2.1 < b.2.1) then some c else some b) none).map (·.2.2)

/-- The sixteen bytes of a periodic table entry as dwords (R158). -/
def PtEnt.dw (e : PtEnt) (d : Nat) : Word :=
  match d with
  | 0 => Word.ofN ((if e.valid then 1 else 0) + e.kind * 2 + (if e.dirIn then 8 else 0) + e.mult * 16 + e.plog2 * 64 +
      e.phase * 65536)
  | 1 => Word.ofN (e.slot + e.epid * 65536 + e.smask * 16777216)
  | 2 => Word.ofN (e.charge + e.mps * 65536)
  | _ => Word.ofN (e.cmask + e.inst * 256 + (if e.chip then 1048576 else 0))

end Sys2Proof.Machine
end

