-- ==== Sys2Proof/Machine/Commit.lean ====
section
/-! DEFINITION. Staged registers and periodic tables: shadow writes, capture under the pool lock, application at each
port's boundary, discard, and entries that leave a table (R80-R85, R177-R182, R365, R389, R393). -/

namespace Sys2Proof.Machine

/-! ## Pages and queues -/

/-- Every page that holds staged registers. -/
def stagedPages : List Pg :=
  onePg .rng 1 :: (List.range 8).flatMap fun n => [frmPg n 1, frmPg n 2, frmPg n 3]

/-- Whether a page has STAGED_PEND. -/
def Sys.stagedPend (y : Sys) (g : Pg) : Bool := FMap.get false g.base y.host.staged

/-- Set or clear a page's STAGED_PEND. -/
def Sys.setStaged (g : Pg) (b : Bool) (y : Sys) : Sys :=
  { y with host := { y.host with staged := FMap.put false g.base b y.host.staged } }

/-- Write a shadow register (R80). -/
def Sys.stage (g : Pg) (o : Nat) (v : Word) (y : Sys) : Sys := (y.setPg g o v).setStaged g true

/-- The page and shadow offset of FRM_QCFGq (R184). -/
def qcfgAt (n q : Nat) : Pg × Nat := (frmPg n (1 + q / 496), 0x40 + 4 * (q % 496))

/-- The shadow copy of FRM_QCFGq. -/
def Sys.qcfgSh (y : Sys) (n q : Nat) : Word := y.pgReg (qcfgAt n q).1 (qcfgAt n q).2
/-- The active copy of FRM_QCFGq. -/
def Sys.qcfgAct (y : Sys) (n q : Nat) : Word := y.pgReg (qcfgAt n q).1 ((qcfgAt n q).2 + 0x800)

/-- The queue whose FRM_QCFGq lies at an offset of a page, if one does. -/
def queueAt (g : Pg) (o : Nat) : Option Nat :=
  let q := (g.page - 1) * 496 + (o - 0x40) / 4
  if g.blk == .frm && decide (1 ≤ g.page) && decide (0x40 ≤ o) && decide (q < 1024) && decide (o < 0x800) then some q
  else none

/-- FRM_QCFG fields: WEIGHT. -/
def qWeight (w : Word) : Nat := w.fld 7 0
/-- BURST; 0 acts as 1. -/
def qBurst (w : Word) : Nat := max 1 (w.fld 13 8)
/-- PORT. -/
def qPort (w : Word) : Nat := w.fld 19 16
/-- INSTANCE. -/
def qInst (w : Word) : Nat := w.fld 31 20

/-- A captured register that port `p` applies or has applied already. -/
def Sys.capFor (y : Sys) (p off : Nat) : Option CapReg :=
  y.host.capRegs.find? fun c => c.off == off && !(c.left.contains p)

/-- The value of an active register as port `p` sees it: the captured one once the port has applied it (R83). -/
def Sys.actFor (y : Sys) (p : Nat) (g : Pg) (o : Nat) : Word :=
  match y.capFor p (g.base + o) with
  | some c => c.val
  | none => y.pgReg g (o + 0x800)

/-- FRM_QCFGq in force for port `p`. -/
def Sys.qcfg (y : Sys) (p q : Nat) : Word := y.actFor p (qcfgAt (p / 16) q).1 (qcfgAt (p / 16) q).2

/-- Whether port `p` is served by strict priority (R165, R182). -/
def Sys.strict (y : Sys) (p : Nat) : Bool := (y.actFor p (frmPg (p / 16) 3) 0xC0).bit 0

/-- The slots that instance `i` owns. -/
def Sys.slotsOfInst (y : Sys) (i : Nat) : List Nat := (y.eng.slots.filter fun e => e.2.inst == some i).map (·.1)

/-- Whether an open control or bulk endpoint that satisfies `f` (instance, port) is bound to queue `q` of region `n`. -/
def Sys.queueUsed (y : Sys) (n q : Nat) (f : Nat → Nat → Bool) : Bool :=
  y.eng.slots.any fun s => s.2.used && s.2.port / 16 == n &&
    (match s.2.inst with
     | some i => f i s.2.port
     | none => false) &&
    s.2.eps.any fun e => e.2.open_ && e.2.queue == q && (e.2.ty == .control || e.2.ty == .bulk)

/-- Whether queue `q` of region `n`, with FRM_QCFGq `w`, is bound to instance `i` (R390). -/
def Sys.queueBound (y : Sys) (n q : Nat) (w : Word) (i : Nat) : Bool :=
  qInst w == i && (decide (1 ≤ qWeight w) || y.queueUsed n q fun j _ => j == i)

/-- Whether an instance is pool locked (R365). -/
def Sys.locked (y : Sys) (i : Nat) : Bool := (y.inst i).st == .running && (y.inst i).pool

/-- The pool-locked instances, lowest first. -/
def Sys.lockedInsts (y : Sys) : List Nat :=
  (y.host.insts.filter fun e => e.2.st == .running && e.2.pool).map (·.1)

/-- The staged registers of page `g` whose shadow differs from the active copy, by manager-window offset. -/
def Sys.changed (y : Sys) (g : Pg) : List Nat :=
  let b := g.base
  ((y.regs.filterMap fun e =>
    if b + 0x40 ≤ e.1 ∧ e.1 < b + 0x800 then some e.1
    else if b + 0x840 ≤ e.1 ∧ e.1 < b + 0x1000 then some (e.1 - 0x800) else none).dedup).filter fun o =>
      y.reg o != y.reg (o + 0x800)

/-- The entries in which two tables differ. -/
def tabDiff (a b : FMap PtEnt) : List PtEnt :=
  ((a.filter fun e => FMap.get {} e.1 b != e.2) ++ (b.filter fun e => FMap.get {} e.1 a != e.2)).map (·.2)

/-- Whether a commit of page `g` would change what pool-locked instance `i` uses (R393). -/
def Sys.lockHits (y : Sys) (g : Pg) (i : Nat) : Bool :=
  (y.changed g).any (fun off =>
    let o := off % 0x1000
    if g.blk == .rng then (if o < 0x80 then (y.inst i).cls == (o - 0x40) / 4 else true)
    else
      match queueAt g o with
      | some q => y.queueBound g.inst q (y.reg (off + 0x800)) i || y.queueBound g.inst q (y.reg off) i
      | none => (List.range 1024).any fun q => y.queueBound g.inst q (y.qcfgAct g.inst q) i) ||
  (g.blk == .frm && g.page == 3 && (List.range 16).any fun k =>
    let t := y.ptab (16 * g.inst + k)
    (tabDiff t.act t.sh).any fun e => !e.chip && e.inst == i)

/-- The pool-locked instance that refuses a commit of everything pending, if one does: the lowest. -/
def Sys.lockRefuses (y : Sys) : Option Nat :=
  let ps := stagedPages.filter y.stagedPend
  y.lockedInsts.find? fun i => ps.any fun g => y.lockHits g i

/-! ## Entries that leave a table -/

/-- Whether a table has an entry for an endpoint. -/
def tabHas (t : FMap PtEnt) (n e : Nat) : Bool := t.any fun x => x.2.slot == n && x.2.epid == e

/-- A table without an endpoint's entries. -/
def tabDrop (t : FMap PtEnt) (n e : Nat) : FMap PtEnt := t.filter fun x => !(x.2.slot == n && x.2.epid == e)

/-- Taken entries of an endpoint that have not been dispatched complete with status `st` at their dispatch. -/
def Sys.refuseTaken (n e st : Nat) (y : Sys) : Sys :=
  each (fun k y => y.updRing k fun r => { r with taken := r.taken.map (fun t =>
    if !t.disp && dType t.dws != 4 && dEpid t.dws == e && t.refuse == 0 then { t with refuse := st } else t) })
    (y.ringsOfSlot n) y

/-- The class-D reservation of an always-dispatched transfer is released (R438). -/
def Sys.dropRsv (x : Xfer) (y : Sys) : Sys :=
  if 0 < x.rsv then (y.dRelease (x.port / 16) x.rsv (x.rsv * granules x.total)).updX x.id fun x => { x with rsv := 0 } else y

/-- Whether an always-dispatched transfer has something on the wire or at a TT: it finishes that first (R179). -/
def Sys.alwaysBusy (y : Sys) (x : Xfer) : Bool := x.split.pending || y.wireHas x.port x.id

/-- The chip's own always-dispatched transfer of an endpoint ends without a trace; its class-D reservation and what its split
holds are released, and packets already committed are drained first (R237). -/
def Sys.endAlwaysNow (x : Xfer) (y : Sys) : Sys :=
  let y := (((y.dropRsv x).rsvFree x.port x).splitDone x.port x.id).xferLeaves { x with split := {} }
  if y.rxPending x.port x.id || y.drainBusy x.id then
    y.updX x.id fun x => { x with fin := some 12, cut := some 12, rsv := 0 }
  else y.dropXfer x.id

/-- An always-dispatched transfer ends, after what it has on the wire or at a TT (R179). -/
def Sys.endAlways (x : Xfer) (y : Sys) : Sys :=
  if y.alwaysBusy x then y.updX x.id fun x => { x with cut := some 12 } else y.endAlwaysNow x

/-- The last CSPLIT of a begun periodic split brought no result, or none can be sent any more (R304, R308): an isochronous one
ends with XACT_ERR, an interrupt one counts a strike and keeps its packet for the next due period. -/
def Sys.splitOver (p id : Nat) (y : Sys) : Sys :=
  match y.xfer? id with
  | none => y
  | some x =>
    let y := each (fun (t : TxPkt) (y : Sys) => if t.xid == id && t.st == .sending then y.txRewind p t.num else y) (y.fifo p).tx y
    let y := ((y.rsvFree p x).splitDone p id).dropRsv x
    match x.cut with
    | some st => y.finX id st
    | none => if x.ty = 3 ∨ 2 ≤ x.strikes then y.finX id 4 else y.updX id fun x => { x with strikes := x.strikes + 1 }

/-- What the departure of an endpoint's entry from port `p`'s active table does (R179, R389): transfers not begun
complete BW_REFUSED, a begun one keeps the old entry, and the endpoint is closed. R94 has the taken entries of a closed endpoint complete
NOT_ASSIGNED, as R389 states; for a periodic endpoint R389 has R179 govern its transfers (log 92). -/
def Sys.ptLeft (p : Nat) (t : PtEnt) (y : Sys) : Sys :=
  let left := (y.ptab p).old.flatMap fun o => o.2.xs
  let xs := y.host.xfers.filter fun x =>
    x.slot == t.slot && x.epid == t.epid && x.fin.isNone && x.port == p && !left.contains x.id
  let begun := (xs.filter fun x => if x.always then y.alwaysBusy x else x.begun).map (·.id)
  let y := each (fun (x : Xfer) (y : Sys) =>
    if x.always then y.endAlways x else if x.begun then y else y.finX x.id 13) xs y
  let y := if begun.isEmpty then y else y.updPtab p fun b => { b with old := b.old ++ [(freeIdx b.old, { t with xs := begun })] }
  (y.refuseTaken t.slot t.epid 13).updEp t.slot t.epid fun e =>
    { e with open_ := false, active := false, closing := false }

/-- The entries of port `p`'s shadow and captured tables that satisfy `sel` and have no counterpart in its active one. -/
def Sys.onlyStaged (y : Sys) (p : Nat) (sel : PtEnt → Bool) : List PtEnt :=
  let t := y.ptab p
  let cap := (y.host.capTabs.filter fun c => c.1 == p).flatMap (·.2)
  (((t.sh ++ cap).map (·.2)).filter fun e => sel e && !tabHas t.act e.slot e.epid).dedup

/-- Endpoints marked to leave without a commit leave both copies, and a captured copy, at the port's period start
(R389). An endpoint whose entry stands only in the shadow or a captured copy closes with it. -/
def Sys.leaveMarked (p : Nat) (y : Sys) : Sys :=
  let ls := (y.ptab p).leave
  let mine := fun (e : PtEnt) => ls.any fun l => e.slot == l.1 && e.epid == l.2
  let gone := ((y.ptab p).act.map (·.2)).filter mine ++ y.onlyStaged p mine
  let cut := fun (t : FMap PtEnt) => t.filter fun x => !(ls.any fun l => x.2.slot == l.1 && x.2.epid == l.2)
  let y := y.updPtab p fun b => { b with act := cut b.act, sh := cut b.sh, leave := [] }
  let y := { y with host := { y.host with capTabs := y.host.capTabs.map fun c => if c.1 == p then (p, cut c.2) else c } }
  each (fun e y => y.ptLeft p e) gone y

/-- Mark an endpoint's entry to leave without a commit (R389); where the port sends no SOF it leaves at once. -/
def Sys.markLeave (p n e : Nat) (y : Sys) : Sys :=
  if tabHas (y.ptab p).act n e || tabHas (y.ptab p).sh n e || y.host.capTabs.any fun c => c.1 == p && tabHas c.2 n e then
    let y := y.updPtab p fun b => { b with leave := b.leave ++ [(n, e)] }
    if (y.frame p).sof then y else y.leaveMarked p
  else y

/-- The chip's own entry of a hub is placed in every copy at once (R294). -/
def Sys.chipEntry (p idx : Nat) (t : PtEnt) (y : Sys) : Sys :=
  let y := y.updPtab p fun b => { b with act := FMap.put {} idx t b.act, sh := FMap.put {} idx t b.sh }
  { y with host := { y.host with capTabs := y.host.capTabs.map (fun c =>
      if c.1 == p then (p, FMap.put {} idx t c.2) else c) } }

/-- The entry of an endpoint leaves every copy at once (R297). -/
def Sys.chipLeave (p n e : Nat) (y : Sys) : Sys :=
  let gone := (y.ptab p).act.filter fun x => x.2.slot == n && x.2.epid == e
  let y := y.updPtab p fun b => { b with act := tabDrop b.act n e, sh := tabDrop b.sh n e }
  let y := { y with host := { y.host with capTabs := y.host.capTabs.map (fun c =>
    if c.1 == p then (p, tabDrop c.2 n e) else c) } }
  each (fun x y => y.ptLeft p x.2) gone y

/-! ## Application -/

/-- A port takes a captured queue's new values: CREDIT is cut to the new WEIGHT where the port is the one served (R181). -/
def Sys.newWeight (p : Nat) (c : CapReg) (y : Sys) : Sys :=
  match Pg.ofOff c.off with
  | some g =>
    match queueAt g (c.off % 0x1000) with
    | some q =>
      if qPort c.val == p % 16 then
        { y with usb := { y.usb with credit := FMap.upd 0 (g.inst * 1024 + q) (min (qWeight c.val)) y.usb.credit } }
      else y
    | none => y
  | none => y

/-- A captured register that no port has still to apply becomes the active copy. -/
def Sys.landRegs (y : Sys) : Sys :=
  let done := y.host.capRegs.filter fun c => c.left.isEmpty
  let y := { y with host := { y.host with capRegs := y.host.capRegs.filter fun c => !c.left.isEmpty } }
  each (fun (c : CapReg) (y : Sys) => y.setReg (c.off + 0x800) c.val) done y

/-- The isochronous transfers dispatched for an entry that enters the active table now: an opportunity before this boundary is
none, and the entry's first one from here on takes its place (R180). -/
def Sys.retarget (p : Nat) (t : PtEnt) (y : Sys) : Sys :=
  let m := firstOpp (y.portHs p) (y.phase p) t.plog2 t.phase ((y.mf + (if y.us = 0 then 0 else 1)) % 4294967296)
  y.mapX fun x =>
    if x.port == p && x.slot == t.slot && x.epid == t.epid && x.ty == 3 && !x.begun && !mfGe x.startMf y.mf then
      { x with startMf := m, dispMf := y.mf }
    else x

/-- Port `p`'s captured periodic table becomes active (R157, R179, R180). -/
def Sys.landTab (p : Nat) (y : Sys) : Sys :=
  match y.host.capTabs.find? fun c => c.1 == p with
  | none => y
  | some c =>
    let a := (y.ptab p).act
    let gone := a.filter fun x => !(tabHas c.2 x.2.slot x.2.epid)
    let come := c.2.filter fun x => !(tabHas a x.2.slot x.2.epid)
    let y := { y with host := { y.host with capTabs := y.host.capTabs.filter fun d => d.1 != p } }
    let y := y.updPtab p fun b => { b with act := c.2 }
    let y := each (fun e y => y.ptLeft p e.2) gone y
    each (fun (e : Nat × PtEnt) (y : Sys) =>
      (y.retarget p e.2).updEp e.2.slot e.2.epid fun z => { z with active := true }) come y

/-- Port `p` applies the commit (R83). -/
def Sys.applyPort (p : Nat) (y : Sys) : Sys :=
  let mine := y.host.capRegs.filter fun c => c.left.contains p
  let y := each (fun c y => y.newWeight p c) mine y
  let cs := y.host.capRegs.map fun c => { c with left := c.left.filter (· != p) }
  let y := { y with host := { y.host with capRegs := cs, capPorts := y.host.capPorts.filter fun c => c.2 != p } }
  (y.landRegs).landTab p

/-- COMMIT_PEND of a page (R61). -/
def Sys.commitPend (y : Sys) (g : Pg) : Bool :=
  y.host.capPages.contains g.base &&
    (!y.host.commitPast || y.host.capPorts.any (fun c => c.1 == g.base) || y.host.capRegs.any (fun c => decide (g.base ≤ c.off) && decide (c.off < g.base + 0x1000)) ||
      (g.blk == .frm && g.page == 3 && y.host.capTabs.any fun c => c.1 / 16 == g.inst))

/-- The ports that a captured register governs (R83): those of a queue's previous and new PORT, all 16 for FRM_SVC, none
for another register. -/
def Sys.governed (y : Sys) (g : Pg) (off : Nat) : List Nat :=
  if g.blk == .frm then
    match queueAt g (off % 0x1000) with
    | some _ => ([16 * g.inst + qPort (y.reg (off + 0x800)), 16 * g.inst + qPort (y.reg off)]).dedup
    | none => (List.range 16).map (16 * g.inst + ·)
  else []

/-- The ports that a staged page governs: all of the region for FRM_SVC and the periodic tables of page 3, and the PORT of each
of its queues in either copy. -/
def Sys.pagePorts (y : Sys) (g : Pg) : List Nat :=
  if g.blk != .frm then []
  else if g.page == 3 then (List.range 16).map (16 * g.inst + ·)
  else
    ((List.range 496).flatMap fun i =>
      [16 * g.inst + qPort (y.pgReg g (0x40 + 4 * i)), 16 * g.inst + qPort (y.pgReg g (0x840 + 4 * i))]).dedup

/-- The capture of R82: BUSY, GEN and the commit point are set. -/
def Sys.capture (gen : Nat) (y : Sys) : Sys :=
  let ps := stagedPages.filter y.stagedPend
  let regs := ps.flatMap fun g => (y.changed g).map fun o => { off := o, val := y.reg o, left := y.governed g o }
  let tabs := (ps.filter fun g => g.blk == .frm && g.page == 3).flatMap fun g =>
    (List.range 16).filterMap fun k =>
      let p := 16 * g.inst + k
      let t := y.ptab p
      if t.sh == t.act then none else some (p, t.sh)
  let y := { y with host := { y.host with
    commitBusy := true, commitGen := gen % 65536, commitMf := (y.mf + 1) % 4294967296, commitPast := false,
    capRegs := regs, capTabs := tabs, capPages := ps.map (·.base),
    capPorts := ps.flatMap fun g => (y.pagePorts g).map fun p => (g.base, p) } }
  each (fun g y => y.setStaged g false) ps y

/-- A write of TEN_COMMIT with DISCARD_ALL = 0 (R82, R84, R393); the Bool says whether the commit was accepted. -/
def Sys.commitWrite (gen : Nat) (y : Sys) : Bool × Sys :=
  if y.host.commitBusy then (false, y.cfgErr tenPg)
  else
    match y.lockRefuses with
    | some i =>
      let y := (y.cfgErrD tenPg i).recordErr tenPg 8 i
      (false, y.setPg tenPg 0x4C (Word.ofN (i + (gen % 65536) * 4096 + 2147483648)))
    | none => (true, y.capture gen)

/-- Commands that wait until BUSY = 0 write TEN_COMMIT in turn, until one is accepted; a refused one is answered
POOL_LOCKED with its GEN (R376). -/
def Sys.commitKick (y : Sys) : Sys :=
  each (fun (c : DCmd) (y : Sys) =>
    if y.host.commitBusy then y
    else
      match y.commitWrite c.gen with
      | (true, y) => y.updCmd c.seq fun c => { c with wait := .commitDone }
      | (false, y) => y.decEnd c.seq 0x0B [Word.ofN c.gen]) (y.host.decust.cmds.filter fun c => c.wait == .commitFree) y

/-- The command whose commit has been applied everywhere is answered with the commit point (R376), and the next commit is
written. -/
def Sys.commitAnswer (y : Sys) : Sys :=
  let mf := Word.ofN y.host.commitMf
  (each (fun (c : DCmd) (y : Sys) => y.decEnd c.seq 0 ((c.res ++ [0, 0, 0]).take 3 ++ [mf]))
    (y.host.decust.cmds.filter fun c => c.wait == .commitDone) y).commitKick

/-- Whether region `n` has an open endpoint whose queue serves another port (R172). -/
def Sys.misbound (y : Sys) (n : Nat) : Bool :=
  y.eng.slots.any fun s => s.2.used && s.2.port / 16 == n && s.2.eps.any fun e =>
    e.2.open_ && !e.2.chip && (e.2.ty == .control || e.2.ty == .bulk) &&
      qPort (y.qcfgAct n e.2.queue) != s.2.port % 16

/-- BUSY clears when every captured page has applied the commit; a mismatch that now exists for the first time sets
QCFG_MISMATCH (R83, R172). The command that wrote the commit is answered, and the next one writes its own (R376). -/
def Sys.commitDone (y : Sys) : Sys :=
  if y.host.commitBusy && y.host.commitPast && y.host.capRegs.isEmpty && y.host.capTabs.isEmpty && y.host.capPorts.isEmpty then
    let y := { y with host := { y.host with commitBusy := false, commitPast := false, capPages := [] } }
    let y := y.commitAnswer
    each (fun n (y : Sys) =>
      let b := y.on n && y.misbound n
      let was := FMap.get false n y.host.mismatch
      let y := if b && !was then y.recordErr (frmPg n 0) 10 0 else y
      { y with host := { y.host with mismatch := FMap.put false n b y.host.mismatch } }) (List.range 8) y
  else y

/-- The commit point is reached (R83): registers that govern no port, and ports that send no SOF, take the captured
values. -/
def Sys.commitPoint (y : Sys) : Sys :=
  if y.host.commitBusy && !y.host.commitPast then
    let y := { y with host := { y.host with commitPast := true } }
    let ps := (y.host.capRegs.flatMap (·.left) ++ y.host.capTabs.map (·.1) ++ y.host.capPorts.map (·.2)).dedup.filter fun p => !(y.frame p).sof
    (each (fun p y => y.applyPort p) ps y.landRegs).commitDone
  else y

/-- The transaction on a port's wire when its link cell stops: no more of it comes about. Its packet returns to READY, and a
transfer that was to end at this packet boundary ends (R108, R231). -/
def Sys.wireCut (p : Nat) (y : Sys) : Sys :=
  match (y.frame p).cur with
  | none => y
  | some c =>
    let y := y.updFrame p fun f => { f with cur := none }
    let y := if (y.fifo p).tx.any (fun t => t.num == c.pkt && t.xid == c.xid && t.st == .sending) && c.form != .csplit then
        y.txRewind p c.pkt
      else y
    match y.xfer? c.xid with
    | none => y.dropTx p fun t => t.xid == c.xid
    | some x =>
      let y := if c.form == .ssplit && decide (x.split.piece = 0) then (y.rsvFree p x).splitDone p x.id else y
      match x.cut, x.fin with
      | some st, none => y.finX x.id (if x.complete then (if x.short then 1 else 0) else st)
      | none, none => if x.always then y.dropRsv x else y
      | _, some _ => y.xferLeaves x

/-- A port's link cell stops sending SOF: the transaction it had no longer runs, its begun periodic splits find no microframe
for their complete-splits, and what the port had still to apply takes effect (R83, R304, R310). -/
def Sys.sofStop (p : Nat) (y : Sys) : Sys :=
  let y := y.wireCut p
  let y := each (fun id y => y.splitOver p id) (y.frame p).cspOrder y
  let y := y.updFrame p fun f => { f with sof := false, due := [], csp := [], cspOrder := [], ended := true }
  let y := if y.host.commitPast then (y.applyPort p).commitDone else y
  y.leaveMarked p

/-! ## Discard -/

/-- Discarding staged table edits of port `p`: a staged open closes its endpoint, a staged close is withdrawn (R177). -/
def Sys.discardTab (p : Nat) (y : Sys) : Sys :=
  let t := y.ptab p
  let opens := t.sh.filter fun x => !(tabHas t.act x.2.slot x.2.epid)
  let closes := t.act.filter fun x => !(tabHas t.sh x.2.slot x.2.epid)
  let y := y.updPtab p fun b => { b with sh := b.act }
  let y := each (fun e y => y.ptLeft p e.2) opens y
  each (fun (e : Nat × PtEnt) (y : Sys) => y.updEp e.2.slot e.2.epid fun z => { z with closing := false }) closes y

/-- DISCARD of a page (R62, R177): ignored while COMMIT_PEND = 1. -/
def Sys.discardPage (g : Pg) (y : Sys) : Sys :=
  if y.commitPend g then y
  else
    let y := each (fun o (y : Sys) => y.setReg o (y.reg (o + 0x800))) (y.changed g) y
    let y := if g.blk == .frm && g.page == 3 then
        each (fun k y => y.discardTab (16 * g.inst + k)) (List.range 16) y
      else y
    y.setStaged g false

/-- A write of TEN_COMMIT with DISCARD_ALL = 1 (R81, R84). -/
def Sys.discardAll (y : Sys) : Sys :=
  if y.host.commitBusy then y.cfgErr tenPg
  else each (fun g y => y.discardPage g) (stagedPages.filter y.stagedPend) y

end Sys2Proof.Machine
end

