-- ==== Sys2Proof/Machine/Frame.lean ====
section
/-! DEFINITION. The frame engine's decisions: pace, due entries, start conditions, control and bulk service, and the
start of a transaction (R29-R34, R139-R176, R298-R308). -/

namespace Sys2Proof.Machine

/-! ## Time and pace -/

/-- The pace state that a read gives (R29). -/
def paceNext (st : PaceSt) (thr : Word) (v : Nat) : PaceSt :=
  let shed := thr.fld 7 0
  let stop := thr.fld 15 8
  match st with
  | .normal => if v < stop then .stopped else if v < shed then .shed else .normal
  | .shed => if v < stop then .stopped else if shed + 8 ≤ v then .normal else .shed
  | .stopped => if stop + 8 ≤ v then .shed else .stopped

/-- The events of a change of pace state, that of the state left first (R31, R111): 0x0E PACE_SHED, 0x0F PACE_STOP, each
with ENTERED. -/
def paceEvents (a b : PaceSt) : List (Nat × Nat) :=
  let code := fun (e : Nat) (s : PaceSt) => match s with | .normal => [] | .shed => [(0x0E, e)] | .stopped => [(0x0F, e)]
  if a = b then [] else code 0 a ++ code 1 b

/-- Pace state codes (R185). -/
def PaceSt.code : PaceSt → Nat
  | .normal => 0 | .shed => 1 | .stopped => 2



/-- The first microframe boundary, in microseconds, at or after `t` that satisfies `ok` and is not `used - 1`. -/
def nextBoundary (ok : Nat → Bool) (t used : Nat) : Nat :=
  let m := (t + 124) / 125
  ((List.range 17).find? fun i => ok (m + i) && (m + i) * 125 + 1 != used).elim (m * 125) fun i => (m + i) * 125

/-- Whether a period of port `p` begins at microframe count `m` (R140). -/
def Sys.beginsAt (y : Sys) (p m : Nat) : Bool := y.portHs p || m % 8 == y.phase p

/-- The index of port `p`'s period that begins now (R140). -/
def Sys.perIndex (y : Sys) (p : Nat) : Nat :=
  let d := (y.mf + 4294967296 - y.phase p) % 4294967296
  if y.portHs p then d else d / 8

/-- The pace state and PACE_EFF of a period that begins now (R150, R173). -/
def Sys.paceNow (y : Sys) (n : Nat) : PaceSt × Nat :=
  let r := y.pace n
  if r.at_ == y.tb + 1 then (r.prevSt, r.prevEff) else (r.st, r.eff)

/-- One evaluation of region `n`'s pace at the present boundary (R29, R31, R175, R185). -/
def Sys.paceEval (n v : Nat) (y : Sys) : Sys :=
  let r := y.pace n
  let thr := y.pgReg (frmPg n 0) 0x40
  let st := paceNext r.st thr v
  let eff := max (v - 8) 1
  let z : RegPace := { pace := v, eff := eff, st := st, prevEff := max 1 r.eff, prevSt := r.st, at_ := y.tb + 1 }
  let y := { y with usb := { y.usb with pace := FMap.put {} n z y.usb.pace } }
  let y := if st = r.st then y
    else match st with
      | .normal => y
      | .shed => y.incFld (frmPg n 0) 0x64 15 0
      | .stopped => (y.incFld (frmPg n 0) 0x64 31 16).recordErr (frmPg n 0) 8 0
  each (fun (e : Nat × Nat) (y : Sys) =>
    y.meqEvent none { y.ev e.1 0 0 0
      [Word.ofN (n + e.2 * 8 + st.code * 16 + v * 256 + eff * 65536), thr &&& 0xFFFF#32] with us := 0 }) (paceEvents r.st st) y

/-! ## Slots and transfers -/

/-- The TIERPOS of the hub at depth `i` above position `t` (R289). -/
def tierAbove (t i : Nat) : Nat := (t % 2 ^ 25) % 2 ^ (5 * i) + i * 2 ^ 25

/-- The hub-port record above position `t` (depth at least 1) of port `p`. -/
def Sys.hubPortAt (y : Sys) (p t : Nat) : Option (Nat × Nat × HubPort) :=
  let d := tierDepth t
  if d = 0 then none
  else
    match y.slotAt p (tierUp t) with
    | some h => some (h, tierPort t (d - 1), FMap.get {} (tierPort t (d - 1)) (y.slot h).hubRec.ports)
    | none => none

/-- Whether the suspend state of the root port above a device, or of a hub port above it, satisfies `q`. -/
def Sys.linkAbove (y : Sys) (s : Slot) (q : SuspSt → Bool) : Bool :=
  q (y.port s.port).susp || (List.range (tierDepth s.tier)).any fun i =>
    match y.hubPortAt s.port (tierAbove s.tier (i + 1)) with
    | some (_, _, h) => q h.susp
    | none => false

/-- Whether no transaction starts to a slot: its port or a hub port above it is not ACTIVE (R310), or it has been reset and
not re-presented (R276). -/
def Sys.slotQuiet (y : Sys) (n : Nat) : Bool := (y.slot n).away || y.linkAbove (y.slot n) fun s => s != .active

/-- The unfinished transfers of an endpoint in dispatch order. -/
def Sys.epXfers (y : Sys) (p n e : Nat) : List Xfer :=
  y.host.xfers.filter fun x => x.port == p && x.slot == n && x.epid == e && x.fin.isNone && x.cut.isNone && x.ty != 4

/-- The TX packets of a transfer that still follow it, in byte order. -/
def Sys.livePkts (y : Sys) (x : Xfer) : List TxPkt := (y.fifo x.port).tx.filter fun t => t.xid == x.id && t.live

/-- The next packet of a transfer, if it is READY (R164, R227). -/
def Sys.readyPkt (y : Sys) (x : Xfer) : Option TxPkt :=
  match y.livePkts x with
  | t :: _ => if t.st == .ready && t.setup == (x.stage == .setup) then some t else none
  | [] => none

/-- The holding condition of R164 (R126): while the instance's holding is exhausted, only transfers that have moved data go on with IN
transactions; exhaustion that has ended lets the others start from the port's next (micro)frame on. -/
def Sys.holdOk (y : Sys) (x : Xfer) : Bool :=
  x.always || x.inst.isNone || decide (0 < x.recvd + x.moved) ||
    (let n := y.inst (x.inst.getD 0)
     !n.exhausted && decide (n.exhEnd ≤ (y.frame x.port).rel))

/-- The RX condition of R164 (R236). -/
def Sys.rxRoom (y : Sys) (p mps mult : Nat) : Bool :=
  decide (mult * pktWords mps ≤ (y.fifo p).rxFree) && decide (mult ≤ (y.fifo p).rxFreeE)

/-- The class-D condition of R164 for an endpoint that is always dispatched (R438); a refusal is counted, and brings
SCHED up from RETENTION (R516). -/
def Sys.normTake (x : Xfer) (mult : Nat) (y : Sys) : Bool × Sys :=
  if !x.always then (true, y)
  else
    let n := x.port / 16
    if y.dCan n mult (mult * granules x.total) then (true, y)
    else
      let y := y.dRefused
      (false, if y.isRet 17 then y.latchSet 36 (.doms [17]) else y)

/-- Reserve the class-D entries of a poll that starts. -/
def Sys.normReserve (x : Xfer) (mult : Nat) (y : Sys) : Sys :=
  if x.always then
    (y.dReserve (x.port / 16) mult (mult * granules x.total)).updX x.id fun x => { x with rsv := mult }
  else y

/-- One transaction of a poll brought nothing that enters Hollyhock: its reservation is released (R438). -/
def Sys.normOne (id : Nat) (y : Sys) : Sys :=
  match y.xfer? id with
  | some x =>
    if x.always && decide (0 < x.rsv) then
      (y.dRelease (x.port / 16) 1 (granules x.total)).updX id fun x => { x with rsv := x.rsv - 1 }
    else y
  | none => y

/-- Release what a poll reserved and did not use. -/
def Sys.normRelease (id : Nat) (y : Sys) : Sys :=
  match y.xfer? id with
  | some x =>
    if x.always && decide (0 < x.rsv) then
      (y.dRelease (x.port / 16) x.rsv (x.rsv * granules x.total)).updX id fun x => { x with rsv := 0 }
    else y
  | none => y

/-- PER_SKIP on the first such event of the (micro)frame (R164). -/
def Sys.perSkip (p : Nat) (y : Sys) : Sys :=
  if (y.frame p).skipped then y
  else (y.updFrame p fun f => { f with skipped := true }).recordErr (frmPg (p / 16) 0) 9 (p % 16)

/-- An isochronous opportunity passes unserved (R164). -/
def Sys.missX (p id : Nat) (y : Sys) : Sys :=
  ((y.incFld (frmPg (p / 16) 0) (0x100 + 4 * (p % 16)) 15 0).perSkip p).finX id 11

/-- An interrupt poll is skipped (R164). -/
def Sys.skipPoll (p : Nat) (y : Sys) : Sys := (y.incFld (frmPg (p / 16) 0) (0x100 + 4 * (p % 16)) 31 16).perSkip p

/-! ## The wire -/

/-- PID nibbles of the tokens (USB 2.0). -/
def tokPid : TxForm → Nat
  | .in_ | .statusIn => 9
  | .out | .statusOut => 1
  | .setup => 13
  | .ping => 4
  | _ => 0

/-- The token that a transfer's present stage uses. -/
def Xfer.token (x : Xfer) : TxForm :=
  match x.stage with
  | .setup => .setup
  | .data => if x.isIn then .in_ else .out
  | .status => if x.isIn then .statusOut else .statusIn

/-- Data PIDs of an isochronous OUT opportunity of `c` packets, packet `i` of it (USB 2.0). -/
def isoPid (c i : Nat) : Pid :=
  if c ≤ 1 then .data0 else if i + 1 < c then .mdata else if c = 2 then .data1 else .data2

/-- Where in its packet the bytes lie that a transaction sends, and how many: a start-split's own piece of an isochronous OUT
(R299), and otherwise all. -/
def Xfer.pieceAt (x : Xfer) (f : TxForm) (t : TxPkt) : Nat × Nat :=
  if f == .ssplit && x.ty == 3 then (188 * x.split.piece, min 188 (t.data.length - 188 * x.split.piece)) else (0, t.data.length)

/-- The first byte, if one is, of a word with bad parity among `n` bytes from byte `o` on of a packet. -/
def TxPkt.badFrom (t : TxPkt) (o n : Nat) : Option Nat :=
  (t.bad.filter fun w => decide (o < 8 * w + 8 ∧ 8 * w < o + n)).foldl (fun (a : Option Nat) w =>
    some (match a with | some b => min b (8 * w) | none => 8 * w)) none

/-- A packet is marked and sent (R228). Where a word's parity fails the idle item stands in its place and aborts it (R234). -/
def Sys.sendPkt (p : Nat) (x : Xfer) (f : TxForm) (pid : Pid) (t : TxPkt) (y : Sys) : Sys :=
  let y := y.txMark p t.num
  let (o, n) := x.pieceAt f t
  match t.badFrom o n with
  | some b => (y.emit (.bus p (.data pid ((t.data.drop o).take (b - o))))).emit (.bus p .idleItem)
  | none => (y.emit (.bus p (.data pid ((t.data.drop o).take n)))).txRead p t.num (o + n)

/-- Start a transaction (R143): its packet is marked, its token and data go out, the transfer has begun (R104). -/
def Sys.launch (p : Nat) (x : Xfer) (c : CurTx) (pid : Pid) (y : Sys) : Sys :=
  let s := y.devOf x
  let tok := x.token
  let t := (y.fifo p).tx.find? fun t => t.num == c.pkt && t.xid == x.id
  let y := y.updX x.id fun x => { x with begun := true }
  let y := y.updFrame p fun f => { f with cur := some { c with xid := x.id } }
  let y := if c.form == .ssplit || c.form == .csplit then
      y.emit (.bus p (.split (c.form == .ssplit) (y.slot s.hub).addr s.hubPort))
    else y
  let y := y.emit (.bus p (.token (tokPid (if c.form == .ping then .ping else tok)) s.addr (epNum x.epid)))
  if c.form == .csplit || c.form == .ping then y
  else
    match tok, t with
    | .statusOut, _ => y.emit (.bus p (.data .data1 []))
    | .setup, some t => y.sendPkt p x c.form .data0 t
    | .out, some t => y.sendPkt p x c.form pid t
    | _, _ => y

/-- The key under which an endpoint has been NAKed in this (micro)frame; a control transfer of the chip has its own. -/
def Xfer.nakKey (x : Xfer) : Nat := if x.chip.isSome then 524288 + x.id else x.slot * 32 + x.epid

/-- A begun IN split reserves its RX words and packet-list entry (R303). -/
def Sys.rsvTake (p : Nat) (x : Xfer) (y : Sys) : Sys :=
  let w := pktWords (y.mpsOf x)
  (y.updFifo p fun q => { q with rxRsvW := q.rxRsvW + w, rxRsvE := q.rxRsvE + 1 }).updX x.id fun x =>
    { x with split := { x.split with rsv := w } }

/-- The data PID of an endpoint's toggle. -/
def togPid (b : Bool) : Pid := if b then .data1 else .data0

/-! ## Periodic entries (R145, R160-R164, R303) -/

/-- The entry that a due key names: below 2,048 the active table's index, above it an entry that has left (R179). -/
def Sys.ptKey (y : Sys) (p k : Nat) : PtEnt :=
  if k < 2048 then FMap.get {} k (y.ptab p).act else FMap.get {} (k - 2048) (y.ptab p).old

/-- Whether entry `e` starts something in period `n` (R160, R301); `piece` is the piece of a begun isochronous OUT split
that comes next. -/
def PtEnt.dueAt (e : PtEnt) (n : Nat) (piece : Nat) : Bool :=
  e.valid && (n % 2 ^ e.plog2 == e.phase ||
    (e.kind == 3 && !e.dirIn && decide (0 < piece) && Nat.testBit e.smask piece &&
      (n + 2 ^ e.plog2 - piece) % 2 ^ e.plog2 == e.phase))

/-- The unfinished transfers that an entry serves: under an entry that has left those that finish under it, under another one the
rest (R179). -/
def Sys.entXfers (y : Sys) (p : Nat) (e : PtEnt) : List Xfer :=
  let left := (y.ptab p).old.flatMap fun o => o.2.xs
  (y.epXfers p e.slot e.epid).filter fun x => if e.xs.isEmpty then !left.contains x.id else e.xs.contains x.id

/-- The piece that a begun isochronous OUT split of an endpoint sends next. -/
def Sys.nextPiece (y : Sys) (p : Nat) (e : PtEnt) : Nat :=
  match (y.entXfers p e).find? fun x => decide (0 < x.split.piece) with
  | some x => x.split.piece
  | none => 0

/-- Sorting of due entries: isochronous first, ascending period, ascending index (R145). -/
def dueBefore (a b : Nat × PtEnt) : Bool :=
  let iso := fun (e : PtEnt) => e.kind % 2 == 1
  if iso a.2 != iso b.2 then iso a.2
  else if a.2.plog2 != b.2.plog2 then decide (a.2.plog2 < b.2.plog2)
  else decide (a.1 < b.1)

/-- Insertion into a sorted list of due entries. -/
def dueIns (a : Nat × PtEnt) : List (Nat × PtEnt) → List (Nat × PtEnt)
  | [] => [a]
  | b :: r => if dueBefore a b then a :: b :: r else b :: dueIns a r

/-- The due entries of a period in their order. -/
def Sys.dueKeys (y : Sys) (p n : Nat) : List Nat :=
  let t := y.ptab p
  let es := t.act ++ t.old.map (fun e => (e.1 + 2048, e.2))
  ((es.filter fun e => e.2.dueAt n (y.nextPiece p e.2)).foldl (fun l e => dueIns e l) []).map (·.1)

/-- The begun periodic splits with a complete-split in microframe `n`, in the order of their start-splits (R303). -/
def Sys.cspKeys (y : Sys) (p n : Nat) : List Nat :=
  (y.frame p).cspOrder.filter fun id =>
    match y.xfer? id with
    | some x => x.fin.isNone && x.split.pending && Nat.testBit x.split.cmask ((n + 4294967296 - x.split.due) % 4294967296)
    | none => false

/-- Whether `c` charges fit after the present position (R143, R146). -/
def Sys.fits (y : Sys) (p : Nat) (cs : List Nat) : Bool :=
  let f := y.frame p
  decide (cs.foldl (fun a c => a + f.prep + c) f.x ≤ lastEnd f.speed)

/-- The packets of an OUT opportunity: all of an isochronous transfer, or up to MULT of an interrupt transfer; none
where one of them is not READY. -/
def Sys.outPkts (y : Sys) (x : Xfer) (mult : Nat) : Option (List TxPkt) :=
  let mps := y.mpsOf x
  let left := x.total - x.moved
  let cnt := if x.ty = 3 then max 1 ((x.total + mps - 1) / mps) else min mult (max 1 ((left + mps - 1) / mps))
  let ps := (y.livePkts x).take cnt
  if ps.length = cnt ∧ ps.all (fun t => t.st == .ready) then some ps else none

/-- A split's pieces of an isochronous OUT packet: at most 188 bytes each (R299). -/
def pieceLen (len i : Nat) : Nat := min 188 (len - 188 * i)

/-- What a due entry's transaction would be: its form, first packet, number of transactions and charges; `none` where a
condition of R164 before the class-D and fit conditions fails. -/
def Sys.perPlan (y : Sys) (p : Nat) (e : PtEnt) (x : Xfer) : Option (TxForm × Nat × Nat × List Nat) :=
  let f := y.frame p
  let ep := (y.slot e.slot).ep e.epid
  let bt := y.btOf e.slot
  let iso := e.kind % 2 == 1
  let split := e.split
  let mult := max 1 e.mult
  if f.pace == .stopped || y.slotQuiet e.slot || (!iso && ep.halted) then none
  else if e.dirIn then
    if y.holdOk x && y.rxRoom p e.mps mult then
      if split then some (.ssplit, 0, 1, [chargeSs true true 0])
      else some (.in_, 0, mult, List.replicate mult (if iso then chargeIsoIn bt e.mps else chargeIn bt e.mps))
    else none
  else if split && iso && decide (0 < x.split.piece) then
    match (y.livePkts x).head? with
    | some t => some (.ssplit, t.num, 1, [chargeSs true false (dataHs (pieceLen t.data.length x.split.piece))])
    | none => none
  else
    match y.outPkts x mult with
    | some (t :: r) =>
      if split then
        some (.ssplit, t.num, 1, [chargeSs true false (dataHs (if iso then pieceLen t.data.length 0 else t.data.length))])
      else
        let ps := t :: r
        some (.out, t.num, ps.length, ps.map fun t =>
          if iso then chargeIsoOut bt t.data.length else chargeOutD bt (dataW bt t.data.length))
    | _ => none

/-- The transfer that a due entry serves; isochronous transfers whose opportunity has passed complete MISSED (R98). -/
def Sys.perXfer (p : Nat) (e : PtEnt) (y : Sys) : Option Xfer × Sys :=
  let xs := y.entXfers p e
  if e.kind % 2 == 1 then
    match xs.find? fun x => decide (0 < x.split.piece) with
    | some x => (some x, y)
    | none =>
      let now := (y.frame p).mf
      let past := xs.filter fun x => !x.begun && mfGe now x.dispMf &&
        decide ((x.startMf + 4294967296 - x.dispMf) % 4294967296 < (now + 4294967296 - x.dispMf) % 4294967296)
      let y := each (fun (x : Xfer) y => y.missX p x.id) past y
      ((y.entXfers p e).find? fun x => !x.begun && x.startMf == now, y)
  else (xs.head?.filter fun x => !x.split.pending, y)

/-- A due entry is started, MISSED, skipped or passed over (R163, R164); the Bool says that a transaction started. -/
def Sys.tryEntry (p n : Nat) (e : PtEnt) (y : Sys) : Bool × Sys :=
  match y.perXfer p e with
  | (none, y) => (false, y)
  | (some x, y) =>
    let iso := e.kind % 2 == 1
    let fail := fun (y : Sys) =>
      if iso then (if 0 < x.split.piece then y.finX x.id 4 else y.missX p x.id) else y.skipPoll p
    let ep := (y.slot e.slot).ep e.epid
    if ep.ttClear then (false, y)
    else
      match y.perPlan p e x with
      | none => (false, fail y)
      | some (form, pkt, cnt, cs) =>
        match y.normTake x cnt with
        | (false, y) => (false, fail y)
        | (true, y) =>
          if y.fits p cs then
            let y := y.normReserve x cnt
            let y := if form == .ssplit && decide (x.split.piece = 0) then
                (y.updX x.id fun x => { x with split := { due := n, cmask := e.cmask } }).updFrame p
                  fun f => { f with cspOrder := f.cspOrder.filter (· != x.id) ++ [x.id] }
              else y
            let y := if form == .ssplit && e.dirIn then y.rsvTake p x else y
            let pid := if iso then isoPid cnt 0 else togPid ep.tog
            (true, y.launch p x { kind := .periodic, form := form, pkt := pkt, left := cnt - 1, cnt := cnt } pid)
          else (false, fail y)

/-- Whether microframe `n` is the last of a split's CMASK. -/
def Xfer.lastCs (x : Xfer) (n : Nat) : Bool :=
  let i := (n + 4294967296 - x.split.due) % 4294967296
  decide (x.split.cmask < 2 ^ (i + 1))

/-- A complete-split due now is sent, or resolves as NYET where it does not fit, its device's link is not ACTIVE, or the region
is STOPPED (R303, R304, R308, R310). -/
def Sys.tryCsplit (p n id : Nat) (y : Sys) : Bool × Sys :=
  match y.xfer? id with
  | none => (false, y)
  | some x =>
    let mps := y.mpsOf x
    let c := chargeCs x.isIn (if x.ty = 3 then min 188 mps else mps)
    if (y.frame p).pace == .stopped then (false, y.splitOver p id)
    else if y.fits p [c] && !y.slotQuiet x.slot then
      (true, y.launch p x { kind := .periodic, form := .csplit, pkt := ((y.livePkts x).head?.map (·.num)).getD 0 } .data0)
    else if x.lastCs n then (false, y.splitOver p id)
    else (false, y)

/-- Step 2 of R145: complete-splits, then due entries, until one starts. -/
def Sys.periodicStep (p fuel : Nat) (y : Sys) : Sys :=
  match fuel with
  | 0 => y
  | fuel + 1 =>
    let f := y.frame p
    match f.csp, f.due with
    | id :: r, _ =>
      match (y.updFrame p fun f => { f with csp := r }).tryCsplit p f.n id with
      | (true, y) => y
      | (false, y) => y.periodicStep p fuel
    | [], k :: r =>
      match (y.updFrame p fun f => { f with due := r }).tryEntry p f.n (y.ptKey p k) with
      | (true, y) => y
      | (false, y) => y.periodicStep p fuel
    | [], [] => y

/-! ## Control and bulk service (R165-R172) -/

/-- An endpoint that can be served next: its key, its transfer, and its next transaction's form, packet and charge. -/
structure Cand where
  key : Nat
  x : Xfer
  form : TxForm
  pkt : Nat
  charge : Nat

/-- The charge of an OUT data packet with exact stuffing (R154, R299). -/
def outExact (split : Bool) (bt : Bt) (len stuff : Nat) : Nat :=
  if split then chargeSs false false (dataExact true len stuff) else chargeOutD bt (dataExact (bt == .hs) len stuff)

/-- Bulk and control splits that a TT holds (R305). -/
def Sys.ttBusy (y : Sys) (s : Slot) : Nat :=
  let multi := (y.slot s.hub).hubRec.multi
  (y.host.xfers.filter fun x => x.split.pending && x.fin.isNone &&
    (let z := y.devOf x
     let t := (z.ep x.epid).ty
     (t == .control || t == .bulk) && z.hub == s.hub && (!multi || z.hubPort == s.hubPort))).length

/-- The next transaction of a control or bulk transfer, where the conditions of R164 but for class-D and fit hold. -/
def Sys.svcPlan (y : Sys) (p : Nat) (x : Xfer) : Option (TxForm × Nat × Nat) :=
  let ep := y.epOf x
  let bt := y.btDev (y.devOf x)
  let split := y.splitsDev (y.devOf x)
  let mps := y.mpsOf x
  let ping := ep.ping && y.portHs p && !split
  if x.split.pending then
    some (.csplit, ((y.livePkts x).head?.map (·.num)).getD 0,
      chargeCs (x.token == .in_ || x.token == .statusIn) (if x.token == .statusIn then 0 else mps))
  else
    match x.token with
    | .setup =>
      match y.readyPkt x with
      | some t => some (if split then .ssplit else .setup, t.num, outExact split bt t.data.length t.stuff0)
      | none => none
    | .statusIn =>
      if y.holdOk x && y.rxRoom p mps 1 then
        some (if split then .ssplit else .statusIn, 0, if split then chargeSs false true 0 else chargeIn bt 0)
      else none
    | .statusOut =>
      if ping then some (.ping, 0, chargePing)
      else some (if split then .ssplit else .statusOut, 0, outExact split bt 0 (stuffCount 0x4B []))
    | .in_ =>
      if y.holdOk x && y.rxRoom p mps 1 then
        some (if split then .ssplit else .in_, 0, if split then chargeSs false true 0 else chargeIn bt mps)
      else none
    | _ =>
      if ping then some (.ping, 0, chargePing)
      else
        match y.readyPkt x with
        | some t =>
          some (if split then .ssplit else .out, t.num,
            outExact split bt t.data.length (if ep.tog then t.stuff1 else t.stuff0))
        | none => none

/-- The key of a transfer's endpoint: ascending slot, then EPID. -/
def Xfer.key (x : Xfer) : Nat := x.slot * 32 + x.epid

/-- Insertion by key; an endpoint's first transfer stays. -/
def candIns (x : Xfer) : List Xfer → List Xfer
  | [] => [x]
  | z :: r => if x.key = z.key then z :: r else if x.key < z.key then x :: z :: r else z :: candIns x r

/-- Whether another control transfer of the same device has begun: those of one device run one at a time (R325). -/
def Sys.ctlBusy (y : Sys) (x : Xfer) : Bool :=
  y.host.xfers.any fun z => z.id != x.id && z.ty == 2 && z.port == x.port && (y.devOf z).tier == (y.devOf x).tier && z.begun &&
    z.fin.isNone && (x.chip.isSome || z.chip.isSome)

/-- The eligible endpoints of a port (R166), in ascending slot and EPID. -/
def Sys.eligibleEps (y : Sys) (p : Nat) : List Cand :=
  let f := y.frame p
  let xs := (y.host.xfers.filter fun x =>
    x.port == p && x.chip.isNone && x.fin.isNone && x.cut.isNone && x.ty != 4 && x.ty != 3 &&
      (let t := ((y.slot x.slot).ep x.epid).ty
       t == .control || t == .bulk)).foldl (fun l x => candIns x l) []
  xs.filterMap fun x =>
    let s := y.slot x.slot
    let ep := s.ep x.epid
    if f.pace == .stopped || !ep.active || ep.halted || ep.ttClear || f.naked.contains x.nakKey || y.slotQuiet x.slot ||
        (x.ty == 2 && !x.begun && y.ctlBusy x) ||
        (f.pace == .shed && ep.ty == .bulk && !x.split.pending) ||
        (y.splits x.slot && !x.split.pending && decide (2 ≤ y.ttBusy s)) then none
    else
      match y.svcPlan p x with
      | some (form, pkt, c) => some ⟨x.key, x, form, pkt, c⟩
      | none => none

/-- The queue of a candidate. -/
def Sys.candQueue (y : Sys) (c : Cand) : Nat := ((y.slot c.x.slot).ep c.x.epid).queue

/-- CREDIT of queue `q` of region `n`. -/
def Sys.credit (y : Sys) (n q : Nat) : Nat := FMap.get 0 (n * 1024 + q) y.usb.credit
/-- Set CREDIT. -/
def Sys.setCredit (n q v : Nat) (y : Sys) : Sys :=
  { y with usb := { y.usb with credit := FMap.put 0 (n * 1024 + q) v y.usb.credit } }

/-- A list rotated so that keys at or after `k` come first. -/
def fromKey (k : Nat) (cs : List Cand) : List Cand :=
  (cs.filter fun c => decide (k ≤ c.key)) ++ cs.filter fun c => decide (c.key < k)

/-- The current endpoint's key of a queue. -/
def Sys.curKey (y : Sys) (n q : Nat) : Nat := FMap.get 0 (n * 1024 + q) y.usb.curEp
/-- Set it. -/
def Sys.setCur (n q k : Nat) (y : Sys) : Sys :=
  { y with usb := { y.usb with curEp := FMap.put 0 (n * 1024 + q) k y.usb.curEp } }

/-- Start a candidate's transaction, its class-D entry reserved where it has one. -/
def Sys.startCand (p : Nat) (c : Cand) (y : Sys) : Sys :=
  let y := if c.form == .in_ || (c.form == .ssplit && c.x.token == .in_) then y.normReserve c.x 1 else y
  let y := if c.form == .ssplit && (c.x.token == .in_ || c.x.token == .statusIn) then y.rsvTake p c.x else y
  y.launch p c.x { kind := .service, form := c.form, pkt := c.pkt } (togPid ((y.slot c.x.slot).ep c.x.epid).tog)

/-- The class-D condition of a candidate; IN to an endpoint that is always dispatched. -/
def Sys.candTake (c : Cand) (y : Sys) : Bool × Sys :=
  if c.form == .in_ || (c.form == .ssplit && c.x.token == .in_) then
    if (y.frame c.x.port).noD.contains c.key && c.x.always && !(y.dCan (c.x.port / 16) 1 (granules c.x.total)) then
      (false, y)
    else
      match y.normTake c.x 1 with
      | (true, y) => (true, y)
      | (false, y) => (false, y.updFrame c.x.port fun f => { f with noD := f.noD ++ [c.key] })
  else (true, y)

/-- Candidates that pass the class-D condition (R164, R166). -/
def Sys.classD : List Cand → Sys → List Cand × Sys
  | [], y => ([], y)
  | c :: r, y =>
    match y.candTake c with
    | (ok, y) =>
      match y.classD r with
      | (cs, y) => (if ok then c :: cs else cs, y)

/-- The queues that serve a port, of those that the candidates name: PORT is the port's index and WEIGHT at least 1. -/
def Sys.served (y : Sys) (p q : Nat) : Bool :=
  let w := y.qcfg p q
  qPort w == p % 16 && decide (1 ≤ qWeight w)

/-- Insertion of a queue into a list ordered from the pointer on. -/
def qIns (a q : Nat) : List Nat → List Nat
  | [] => [q]
  | b :: r => if q = b then b :: r else if (q + 1024 - a) % 1024 < (b + 1024 - a) % 1024 then q :: b :: r else b :: qIns a q r

/-- The order of the search of R170: in weighted round robin from the pointer's queue on, in strict priority by level. -/
def Sys.searchOrder (y : Sys) (p : Nat) (cs : List Cand) : List Cand :=
  let n := p / 16
  let f := y.frame p
  if y.strict p then
    (List.range 8).flatMap fun l =>
      fromKey (FMap.get 0 l f.lvlEp) (cs.filter fun c => ((y.slot c.x.slot).ep c.x.epid).prio == l)
  else
    let qs := (cs.map y.candQueue).foldl (fun l q => qIns f.ptr q l) []
    qs.flatMap fun q => fromKey (y.curKey n q) (cs.filter fun c => y.candQueue c == q)

/-- Take one credit where the queue has one (R170). -/
def Sys.takeCredit (n q : Nat) (y : Sys) : Sys := y.setCredit n q (y.credit n q - 1)

/-- The search of R170 over the candidates not yet tried: the first whose transaction fits is started; with none, control
and bulk service ends for the (micro)frame. DESIGN CHOICE (log 90): each endpoint is searched once, and service ends after that pass though
one of them has a further transaction that fits; R170 says both "once" and "when no eligible endpoint has a transaction that
fits". -/
def Sys.searchStep (p : Nat) (cs : List Cand) (y : Sys) : Sys :=
  let f := y.frame p
  let o := (y.searchOrder p cs).filter fun c => !(f.tried.contains c.key)
  match o.find? fun c => y.fits p [c.charge] with
  | some c =>
    let y := y.updFrame p fun f => { f with tried := f.tried ++ (o.takeWhile fun d => d.key != c.key).map (·.key) ++ [c.key] }
    let ep := (y.slot c.x.slot).ep c.x.epid
    let y := if y.strict p then y.updFrame p fun f => { f with lvlEp := FMap.put 0 ep.prio (c.key + 1) f.lvlEp }
      else y.takeCredit (p / 16) ep.queue
    y.startCand p c
  | none => y.updFrame p fun f => { f with ended := true, searching := false }

/-- The chosen candidate is started, or its failure to fit begins the search. -/
def Sys.chooseStep (p : Nat) (c : Cand) (cs : List Cand) (won : Sys → Sys) (y : Sys) : Sys :=
  if y.fits p [c.charge] then (won y).startCand p c
  else
    let y := y.updFrame p fun f => { f with searching := true, tried := [c.key], visiting := false }
    y.searchStep p cs

/-- The visit of the queue at the pointer ends: its current endpoint and the pointer go on (R167, R168). -/
def Sys.visitEnd (p : Nat) (y : Sys) : Sys :=
  let n := p / 16
  let f := y.frame p
  if f.visiting then
    (y.setCur n f.ptr (y.curKey n f.ptr + 1)).updFrame p fun f => { f with ptr := (f.ptr + 1) % 1024, visiting := false }
  else y

/-- Weighted round robin (R167, R168, R181). DESIGN CHOICE (log 91): a queue whose CREDIT is 0 is passed over without a visit, so its
current endpoint stays; R168 does not say whether a visit that starts nothing advances it. -/
def Sys.wrrStep (p : Nat) (cs : List Cand) (y : Sys) : Sys :=
  let n := p / 16
  let qs := (cs.map y.candQueue).dedup
  if cs.isEmpty then (y.visitEnd p).updFrame p fun f => { f with ended := true }
  else
    let y := if qs.any fun q => decide (0 < y.credit n q) then y
      else each (fun q (y : Sys) => if y.served p q then y.setCredit n q (qWeight (y.qcfg p q)) else y) (List.range 1024) y
    let f := y.frame p
    let live := qs.filter fun q => decide (0 < y.credit n q)
    let stay := f.visiting && decide (0 < f.visit) && live.contains f.ptr
    let y := if stay then y else y.visitEnd p
    let f := y.frame p
    let first := fun (a : Nat) (l : List Nat) => l.foldl (fun (m : Option Nat) q =>
      match m with
      | none => some q
      | some r => if (q + 1024 - a) % 1024 < (r + 1024 - a) % 1024 then some q else some r) none
    match (if stay then some f.ptr else first f.ptr live) with
    | none => y
    | some q =>
      let y := if stay then y
        else y.updFrame p fun f => { f with ptr := q, visiting := true, visit := min (qBurst (y.qcfg p q)) (y.credit n q) }
      match fromKey (y.curKey n q) (cs.filter fun c => y.candQueue c == q) with
      | [] => y
      | c :: _ =>
        let y := y.setCur n q c.key
        let y' := y.chooseStep p c cs (fun y =>
          (y.takeCredit n q).updFrame p fun f => { f with visit := f.visit - 1 })
        if (y'.frame p).searching || (y'.frame p).ended then y'.setCur n q (c.key + 1)
        else if (y'.frame p).visit = 0 then
          (y'.setCur n q (c.key + 1)).updFrame p fun f => { f with ptr := (q + 1) % 1024, visiting := false }
        else y'

/-- Strict priority (R169). -/
def Sys.strictStep (p : Nat) (cs : List Cand) (y : Sys) : Sys :=
  let f := y.frame p
  let lvl := fun (c : Cand) => ((y.slot c.x.slot).ep c.x.epid).prio
  match (List.range 8).find? fun l => cs.any fun c => lvl c == l with
  | none => y.updFrame p fun f => { f with ended := true }
  | some l =>
    match fromKey (FMap.get 0 l f.lvlEp) (cs.filter fun c => lvl c == l) with
    | [] => y
    | c :: _ => y.chooseStep p c cs fun y => y.updFrame p fun f => { f with lvlEp := FMap.put 0 l (c.key + 1) f.lvlEp }

/-- Step 4 of R145. -/
def Sys.serviceStep (p : Nat) (y : Sys) : Sys :=
  let f := y.frame p
  if f.ended || f.cur.isSome || f.pace == .stopped || !f.sof then y
  else
    match y.classD (y.eligibleEps p) with
    | (cs, y) =>
      let cs := if y.strict p then cs else cs.filter fun c => y.served p (y.candQueue c)
      if f.searching then y.searchStep p cs
      else if y.strict p then y.strictStep p cs
      else y.wrrStep p cs

/-! ## Control transfers of the chip (R145, R267, R325) -/

/-- Whether a control transfer of the chip keeps still: the link above its device is suspended or resumes, or it is being
suspended and the request is not the SET_FEATURE(DEVICE_REMOTE_WAKEUP) that R310 sends then. -/
def Sys.chipQuiet (y : Sys) (x : Xfer) : Bool :=
  y.linkAbove (y.devOf x) fun s => s != .active && !(s == .suspending && x.setup.take 4 == (setupPkt 0 3 1 0 0).take 4)

/-- Whether a raw control transfer of the same device that was ready earlier has not begun (R325). -/
def Sys.ctlBefore (y : Sys) (x : Xfer) : Bool :=
  (y.host.xfers.takeWhile fun z => z.id != x.id).any fun z =>
    z.chip.isNone && z.ty == 2 && z.port == x.port && (y.devOf z).tier == (y.devOf x).tier && !z.begun && z.fin.isNone && z.cut.isNone &&
      ((y.slot z.slot).ep z.epid).active && !((y.slot z.slot).ep z.epid).ttClear && (y.svcPlan x.port z).isSome && !y.slotQuiet z.slot

/-- The next transaction of a control transfer of the chip, where it may start (R145, R164, R325). -/
def Sys.chipPlan (y : Sys) (p : Nat) (x : Xfer) : Option Cand :=
  let f := y.frame p
  let s := y.devOf x
  if f.naked.contains x.nakKey || y.chipQuiet x || (!x.begun && (y.ctlBusy x || y.ctlBefore x)) || ((y.slot x.slot).ep 0).ttClear ||
      (y.splitsDev s && !x.split.pending && decide (2 ≤ y.ttBusy s)) then none
  else
    match y.svcPlan p x with
    | some (form, pkt, c) => if y.fits p [c] then some ⟨x.nakKey, x, form, pkt, c⟩ else none
    | none => none

/-- Step 3 of R145: the control transfers of the chip on a port's tree, in issue order. -/
def Sys.chipStep (p : Nat) (y : Sys) : Sys :=
  let f := y.frame p
  if f.cur.isSome || f.pace == .stopped || !f.sof then y
  else
    match (y.host.xfers.filter fun x => x.port == p && x.chip.isSome && x.fin.isNone && x.cut.isNone).findSome? (y.chipPlan p) with
    | some c =>
      let y := if c.form == .ssplit && (c.x.token == .in_ || c.x.token == .statusIn) then y.rsvTake p c.x else y
      y.launch p c.x { kind := .chip, form := c.form, pkt := c.pkt } (togPid (y.epOf c.x).tog)
    | none => y

/-- The frame engine decides the port's next transaction (R145). -/
def Sys.chooseNext (p : Nat) (y : Sys) : Sys :=
  let f := y.frame p
  if f.cur.isSome then y
  else
    ((y.periodicStep p (f.csp.length + f.due.length)).chipStep p).serviceStep p

end Sys2Proof.Machine
end

