-- ==== Sys2Proof/Machine/FrameEnd.lean ====
section
/-! DEFINITION. What the link cell reports: IN packets, the end of a transaction and its outcome, and the start of a
(micro)frame (R144-R146, R171, R179, R229, R232-R237, R303-R308). -/

namespace Sys2Proof.Machine

/-! ## IN packets (R235) -/

/-- The code of a received PID (FIF_PKT_DATA1; the PID nibble of USB 2.0). -/
def pidCode : Pid → Nat
  | .data0 => 3 | .data1 => 11 | .data2 => 7 | .mdata => 15

/-- The place of a data PID in a high-speed isochronous IN opportunity: the packets that follow it there (USB 2.0). -/
def isoIdx : Pid → Nat
  | .data0 => 0 | .data1 => 1 | .data2 => 2 | .mdata => 3

/-- Whether a data PID is one that a high-speed isochronous IN transaction may bring (R235): at first any that leaves no more than the
opportunity's transactions, then the one below the last. -/
def isoExpected (c : CurTx) (pid : Pid) : Bool :=
  match c.exp with
  | none => decide (isoIdx pid < c.cnt)
  | some k => isoIdx pid + 1 == k

/-- A packet discarded under R235. -/
def Sys.rxDiscard (p : Nat) (y : Sys) : Sys := y.incFld (fifPg p) 0x60 15 0

/-- A good IN packet takes its packet-list entry (R235); one of length 0 has nothing to drain and is released in its turn
(R220, R237). -/
def Sys.rxTake (p : Nat) (x : Xfer) (data : List Byte) (pid : Pid) (done : Bool) (y : Sys) : Sys :=
  let y := y.rxCommit p { slot := x.slot, epid := x.epid, xid := x.id, data := data, pid := pidCode pid, mf := y.mf, us := y.us,
                          endsXfer := done, st := if data.isEmpty then .done else .committed }
  if data.isEmpty then y.reclaimRx p else y

/-- An IN packet is committed (R235): its bytes enter the RX FIFO, the toggle moves, and the transfer sees what ends it
(R107, R237). -/
def Sys.inCommit (p : Nat) (x : Xfer) (c : CurTx) (data : List Byte) (pid : Pid) (y : Sys) : Sys :=
  let mps := y.mpsOf x
  let iso := x.ty == 3
  let all := x.recvd + data.length
  let done := if x.always then false
    else decide (data.length < mps) || decide (x.total ≤ all) || (iso && pid == .data0)
  let y := if data.isEmpty && x.always then y.normOne x.id else y
  let y := y.rxTake p x data pid done
  let y := if iso then y else y.updEpX x fun e => { e with tog := !e.tog }
  let y := y.updX x.id fun x =>
    if x.always then { x with rsv := if data.isEmpty then x.rsv else x.rsv - 1, strikes := 0 }
    else { x with recvd := all, rxDone := done, overrun := decide (x.total < all), short := decide (all < x.total), strikes := 0 }
  y.updFrame p fun f => { f with cur := some { c with inDone := true, got := isoIdx pid } }

/-- An IN data packet arrives for the transaction on the wire (R235). -/
def Sys.inPkt (p : Nat) (data : List Byte) (pid : Pid) (good : Bool) (y : Sys) : Sys :=
  match (y.frame p).cur with
  | none => y
  | some c =>
    match y.xfer? c.xid with
    | none => y.rxDiscard p
    | some x =>
      let split := c.form == .csplit
      let isIn := x.token == .in_ || x.token == .statusIn
      if !(c.form == .in_ || c.form == .statusIn || (split && isIn)) || c.inDone || c.babble then y
      else
        let mps := y.mpsOf x
        let iso := x.ty == 3
        let ep := y.epOf x
        let acked := fun (y : Sys) => if iso || split then y else y.emit (.bus p .ack)
        if mps < (x.split.acc ++ data).length then
          (y.rxDiscard p).updFrame p fun f => { f with cur := some { c with babble := true } }
        else if !good then y.rxDiscard p
        else if x.token == .statusIn then
          if data.isEmpty && pid == .data1 then
            acked ((y.rxTake p x [] pid true).updFrame p fun f => { f with cur := some { c with inDone := true } })
          else y.rxDiscard p
        else if iso then
          let fits := if split then pid == .data0 || pid == .mdata
            else if y.portHs p then isoExpected c pid else pid == .data0 || pid == .data1
          if !fits then y.rxDiscard p
          else if split && pid == .mdata then
            (y.updX x.id fun x => { x with split := { x.split with acc := x.split.acc ++ data } }).updFrame p
              fun f => { f with cur := some { c with inDone := true } }
          else y.inCommit p x c (x.split.acc ++ data) pid
        else if pid != .data0 && pid != .data1 then y.rxDiscard p
        else if pid != togPid ep.tog then
          acked (((((y.incFld (fifPg p) 0x60 31 16).normOne x.id).updX x.id fun x => { x with strikes := 0 })).updFrame p fun f =>
            { f with cur := some { c with inDone := true } })
        else acked (y.inCommit p x c data pid)

/-! ## The end of a transaction -/

/-- The endpoint's service ends for the (micro)frame (R166). -/
def Sys.nakked (p : Nat) (x : Xfer) (y : Sys) : Sys := y.updFrame p fun f => { f with naked := x.nakKey :: f.naked }

/-- The device has answered: the errors before it are not consecutive with those after (R107). -/
def Sys.strikesOff (id : Nat) (y : Sys) : Sys := y.updX id fun x => { x with strikes := 0 }

/-- An error of the transaction (R107): the third in a row on one packet finishes the transfer. -/
def Sys.strike (id : Nat) (y : Sys) : Sys :=
  match y.xfer? id with
  | none => y
  | some x =>
    let y := y.updX id fun x => { x with strikes := x.strikes + 1 }
    if 2 ≤ x.strikes then y.finX id 4 else y

/-- The status with which complete IN data finishes (R107). -/
def Xfer.inStatus (x : Xfer) : Nat := if x.overrun then 5 else if x.recvd < x.total then 1 else 0

/-- An accepted OUT, SETUP or status packet: the transfer moves on (R97, R229). -/
def Sys.outTaken (x : Xfer) (len : Nat) (y : Sys) : Sys :=
  let mps := y.mpsOf x
  match x.stage with
  | .setup =>
    (y.updX x.id fun x => { x with strikes := 0, stage := if x.total = 0 then .status else .data }).updEpX x
      fun e => { e with tog := true }
  | .status => y.finX x.id (if x.short then 1 else 0)
  | .data =>
    let all := x.moved + len
    let y := y.updX x.id fun x => { x with strikes := 0, moved := all, zlpDone := x.zlpDone || decide (len < mps) }
    let y := if x.ty = 3 then y else y.updEpX x fun e => { e with tog := !e.tog }
    if all < x.total then y
    else if x.ty = 2 then y.updX x.id fun x => { x with stage := .status }
    else if x.zlp && decide (mps ≤ len) then y
    else y.finX x.id 0

/-- IN data has come back for a transfer: what it completes. -/
def Sys.inTaken (x : Xfer) (c : CurTx) (y : Sys) : Sys :=
  if c.babble then (y.normRelease x.id).finX x.id 3
  else if x.token == .statusIn then
    if c.inDone then y.finX x.id (if x.short then 1 else 0) else y.strike x.id
  else if !c.inDone then
    if x.ty = 3 then y.finX x.id 4 else (y.normRelease x.id).strike x.id
  else if x.always then y
  else if x.ty = 3 then (if x.rxDone || c.left = 0 then y.finX x.id x.inStatus else y)
  else if x.rxDone then
    if x.ty = 2 && !x.overrun then y.updX x.id fun x => { x with stage := .status } else y.finX x.id x.inStatus
  else y

/-- The latest data item of port `p`, the newest output first, ends after `n` bytes with the idle item; one that the idle item has
ended already stays. -/
def cutBus (p n : Nat) : List Out → Option (List Out)
  | [] => none
  | .bus q (.data pid bs) :: r =>
    if q = p then some (.bus p .idleItem :: .bus p (.data pid (bs.take n)) :: r) else (cutBus p n r).map (.bus q (.data pid bs) :: ·)
  | .bus q .idleItem :: r => if q = p then some (.bus q .idleItem :: r) else (cutBus p n r).map (.bus q .idleItem :: ·)
  | o :: r => (cutBus p n r).map (o :: ·)

/-- The packet that the link cell was sending is aborted after `n` bytes (R233, R234): its data item, which went into `out` whole when
its transaction started, ends there. -/
def Sys.sentOnly (p n : Nat) (y : Sys) : Sys :=
  match cutBus p n y.out with
  | some l => { y with out := l }
  | none => y.emit (.bus p .idleItem)

/-- The idle item took the place of a word not seen in time and aborted a packet (R233): UNDERRUN is recorded and counted. Which word was
missing is not the outcome's to say: a free value. -/
def Sys.underrun (p pkt : Nat) (y : Sys) : Sys :=
  let len := (((y.fifo p).tx.find? fun t => t.num == pkt).map fun t => t.data.length).getD 0
  let n := (Config.freeWord y.fresh).toNat % max 1 (pktWords len) * 8
  ((({ y with fresh := y.fresh + 1 }).sentOnly p n).incFld (fifPg p) 0x5C 15 0).recordErr (fifPg p) 8 (pkt % 64 * 256)

/-- A poisoned word aborted packet `pkt` on the wire (R234). -/
def Sys.poisonSent (p : Nat) (c : CurTx) (y : Sys) : Sys :=
  let y := match y.xfer? c.xid, (y.fifo p).tx.find? fun t => t.num == c.pkt && t.xid == c.xid with
    | some x, some t =>
      let (o, n) := x.pieceAt c.form t
      y.sentOnly p ((t.badFrom o n).getD o - o)
    | _, _ => y
  y.recordErr (fifPg p) 1 (c.pkt % 64 * 256)

/-- A poisoned word aborted a packet, and its transfer ends (R234). -/
def Sys.txPoison (p : Nat) (c : CurTx) (y : Sys) : Sys := (((y.poisonSent p c).txDropOne p c.pkt)).finX c.xid 6

/-- High-speed bulk and control OUT use PING after a NAK or NYET (R171). -/
def Sys.pings (y : Sys) (p : Nat) (x : Xfer) : Bool :=
  y.portHs p && !y.splitsDev (y.devOf x) && (y.epOf x).ty != .interrupt && x.token != .setup

/-- The outcome of a transaction without a split (R171, R229). -/
def Sys.plainEnd (p : Nat) (x : Xfer) (c : CurTx) (out : Outcome) (y : Sys) : Sys :=
  let len := (((y.fifo p).tx.find? fun t => t.num == c.pkt && t.xid == x.id).map fun t => t.data.length).getD 0
  let sent := c.form == .out || c.form == .setup
  let rel := fun (y : Sys) => if sent then y.txRelease p c.pkt else y
  let rew := fun (y : Sys) => if sent then y.txRewind p c.pkt else y
  let drop := fun (y : Sys) => if sent then y.txDropOne p c.pkt else y
  let ping := fun (y : Sys) => if y.pings p x then y.updEpX x fun e => { e with ping := true } else y
  let svc := (y.epOf x).ty == .control || (y.epOf x).ty == .bulk
  let nak := fun (y : Sys) => if svc then (y.strikesOff x.id).nakked p x else y.strikesOff x.id
  match c.form with
  | .ping =>
    match out with
    | .ack => (y.strikesOff x.id).updEpX x fun e => { e with ping := false }
    | .nak | .nyet => (y.strikesOff x.id).nakked p x
    | .stall => y.finX x.id 2
    | _ => y.strike x.id
  | .in_ | .statusIn =>
    match out with
    | .data => y.inTaken x c
    | .nak => if x.ty = 3 then y.finX x.id 4 else nak (y.normRelease x.id)
    | .stall => if x.ty = 3 then y.finX x.id 4 else (y.normRelease x.id).finX x.id 2
    | _ =>
      if c.babble then y.inTaken x c
      else if x.ty = 3 then y.finX x.id 4 else (y.normRelease x.id).strike x.id
  | _ =>
    match out with
    | .ack | .sent => (rel y).outTaken x len
    | .nyet =>
      let y := nak (ping (rel y))
      y.outTaken x len
    | .nak => nak (ping (rew y))
    | .stall => (drop y).finX x.id 2
    | .underrun =>
      if x.ty = 3 then ((y.underrun p c.pkt).txDropOne p c.pkt).finX x.id 4 else rew (y.underrun p c.pkt)
    | .poison => y.txPoison p c
    | _ => if x.ty = 3 then (drop y).finX x.id 4 else (rew y).strike x.id

/-- The outcome of a start-split (R304). -/
def Sys.ssplitEnd (p : Nat) (x : Xfer) (c : CurTx) (out : Outcome) (y : Sys) : Sys :=
  let len := (((y.fifo p).tx.find? fun t => t.num == c.pkt && t.xid == x.id).map fun t => t.data.length).getD 0
  let hasPkt := x.token == .out || x.token == .setup
  let rew := fun (y : Sys) => if hasPkt then y.txRewind p c.pkt else y
  let undo := fun (y : Sys) => (((y.rsvFree p x).splitDone p x.id).normRelease x.id)
  match out with
  | .underrun =>
    if x.ty = 3 then ((y.underrun p c.pkt).txDropOne p c.pkt |> fun y => (undo y).finX x.id 4)
    else undo (rew (y.underrun p c.pkt))
  | .poison => undo (y.txPoison p c)
  | _ =>
    match c.kind with
    | .periodic =>
      if x.ty = 3 && !x.isIn then
        if len ≤ 188 * (x.split.piece + 1) then
          ((y.txRelease p c.pkt).splitDone p x.id).outTaken x len
        else y.updX x.id fun x => { x with split := { x.split with piece := x.split.piece + 1 } }
      else y.updX x.id fun x => { x with split := { x.split with pending := true } }
    | _ =>
      match out with
      | .ack => y.updX x.id fun x => { x with split := { x.split with pending := true }, strikes := 0 }
      | .nak | .nyet => undo (rew ((y.strikesOff x.id).nakked p x))
      | _ => (undo (rew y)).strike x.id

/-- The outcome of a complete-split (R304). -/
def Sys.csplitEnd (p n : Nat) (x : Xfer) (c : CurTx) (out : Outcome) (y : Sys) : Sys :=
  let len := (((y.fifo p).tx.find? fun t => t.num == c.pkt && t.xid == x.id).map fun t => t.data.length).getD 0
  let hasPkt := x.token == .out || x.token == .setup
  let done := fun (y : Sys) => (y.rsvFree p x).splitDone p x.id
  let svc := c.kind != .periodic
  let miss := fun (y : Sys) =>
    if svc then y.strike x.id
    else if x.ty = 3 then y.splitOver p x.id
    else if x.lastCs n then y.splitOver p x.id
    else y.strike x.id
  match out with
  | .nyet =>
    if svc then (y.strikesOff x.id).nakked p x
    else if x.lastCs n then y.splitOver p x.id
    else y
  | .ack => (done (if hasPkt then y.txRelease p c.pkt else y)).outTaken x len
  | .data =>
    if c.babble then (done (y.normRelease x.id)).finX x.id 3
    else if !c.inDone then miss y
    else if x.ty = 3 && !x.rxDone then (if x.lastCs n then y.splitOver p x.id else y)
    else (done y).inTaken x { c with left := 0 }
  | .nak =>
    let y := done (if hasPkt then y.txRewind p c.pkt else y)
    let y := (y.normRelease x.id).strikesOff x.id
    if svc then y.nakked p x else if x.ty = 3 then y.finX x.id 4 else y
  | .stall =>
    let y := done (if hasPkt then y.txDropOne p c.pkt else y)
    (y.normRelease x.id).finX x.id (if x.ty = 3 then 4 else 2)
  | _ => miss y

/-- Whether a high-bandwidth opportunity goes on with its next transaction (R146). -/
def goesOn (x : Xfer) (c : CurTx) (out : Outcome) : Bool :=
  c.kind == .periodic && decide (0 < c.left) && x.fin.isNone && x.cut.isNone &&
    (match c.form, out with
     | .in_, .data => !x.rxDone && !c.babble && c.inDone
     | .out, .ack | .out, .sent => true
     | _, _ => false)

/-- The packet on the wire of a transfer that has ended: it is released if the device took it and dropped otherwise, an underrun or a
poisoned word of it recorded (R231, R233, R234); an IN transaction has none. -/
def Sys.endedPkt (p : Nat) (c : CurTx) (out : Outcome) (y : Sys) : Sys :=
  if (y.fifo p).tx.any fun t => t.num == c.pkt && t.xid == c.xid && t.st == .sending then
    match out with
    | .ack | .nyet | .sent => y.txRelease p c.pkt
    | .underrun => (y.underrun p c.pkt).txDropOne p c.pkt
    | .poison => (y.poisonSent p c).txDropOne p c.pkt
    | _ => y.txDropOne p c.pkt
  else y

/-- What a transaction's outcome is as the packet sent has it: one that holds a word of bad parity was aborted (R234). -/
def Sys.outcomeOf (y : Sys) (p : Nat) (c : CurTx) (out : Outcome) : Outcome :=
  match y.xfer? c.xid, (y.fifo p).tx.find? fun t => t.num == c.pkt && t.xid == c.xid && t.st == .sending with
  | some x, some t =>
    let (o, n) := x.pieceAt c.form t
    if c.form != .csplit && (t.badFrom o n).isSome then .poison else out
  | _, _ => out

/-- A transfer that was to end at this packet boundary ends (R108); one that is always dispatched first sees its split through
(R179). -/
def Sys.cutNow (id : Nat) (y : Sys) : Sys :=
  match y.xfer? id with
  | some x =>
    match x.cut, x.fin with
    | some st, none =>
      if x.always && x.split.pending then y else y.finX id (if x.complete then (if x.short then 1 else 0) else st)
    | _, _ => y
  | none => y

/-- The link cell reports the end of a transaction (R144): `xe` is the position reached. -/
def Sys.wireEnd (p : Nat) (out : Outcome) (xe : Nat) (y : Sys) : Sys :=
  let f := y.frame p
  match f.cur with
  | none => (y.updFrame p fun f => { f with x := xe }).chooseNext p
  | some c =>
    let out := y.outcomeOf p c out
    let y := y.updFrame p fun f =>
      { f with x := xe, per := if c.kind = .periodic then f.per + (xe - f.x) else f.per, cur := none }
    match y.xfer? c.xid with
    | none => (y.endedPkt p c out).chooseNext p
    | some x =>
      let y := if x.fin.isSome then (y.endedPkt p c out).xferLeaves x
        else
          match c.form with
          | .ssplit => y.ssplitEnd p x c out
          | .csplit => y.csplitEnd p f.n x c out
          | _ => y.plainEnd p x c out
      let y := y.cutNow c.xid
      match y.xfer? c.xid with
      | some x =>
        if goesOn x c out && !y.slotQuiet x.slot then
          let pkt := ((y.livePkts x).head?.map (·.num)).getD 0
          let pid := if x.ty = 3 then isoPid c.cnt (c.cnt - c.left) else togPid (y.epOf x).tog
          y.launch p x { kind := .periodic, form := c.form, pkt := pkt, left := c.left - 1, cnt := c.cnt,
                           exp := if c.form == .in_ && x.ty == 3 then some c.got else none } pid
        else
          let y := if x.always && decide (0 < x.rsv) && !x.split.pending then y.normRelease x.id else y
          y.chooseNext p
      | none => y.chooseNext p

/-! ## The start of a (micro)frame -/

/-- Whether port `p`'s link cell works: PRGn and PHYn ON, the region not quarantined, its full calibration ended (R531). -/
def Sys.linkWorks (y : Sys) (p : Nat) : Bool :=
  y.regionWorks (p / 16) && y.on (8 + p / 16) && !y.halted (lnkPg p) && !y.inReset (lnkPg p) &&
    !(FMap.get false (p / 16) y.mari.uncal)

/-- Entries that have left are forgotten when no begun transfer is left under them. -/
def Sys.oldDrop (p : Nat) (y : Sys) : Sys :=
  y.updPtab p fun b => { b with old := b.old.filter (fun e =>
    y.host.xfers.any fun x => e.2.xs.contains x.id && x.fin.isNone) }

/-- Endpoints opened since the port's last period start are served from now on (R388). -/
def Sys.activate (p : Nat) (y : Sys) : Sys :=
  each (fun n (y : Sys) => y.updSlot n fun s => { s with eps := s.eps.map (fun e =>
    if e.2.open_ && (e.2.ty == .control || e.2.ty == .bulk) then (e.1, { e.2 with active := true }) else e) })
    (y.slotsOf p) y

/-- Control transfers of the chip whose device has gone are forgotten. -/
def Sys.chipSweep (p : Nat) (y : Sys) : Sys :=
  y.chipOver fun x => x.port == p && x.chip.any fun d => !y.posLive (p, d.tier)

/-- A period of port `p` begins (R34, R83, R142, R145, R164, R173, R178, R232): commit, pace, eviction, SOF, and the first
transaction. A port that sends no SOF has its opportunities pass (R310); one in Test_Force_Enable sends high-speed SOF alone
(R281). -/
def Sys.framePass (p : Nat) (y : Sys) : Sys :=
  let y := if y.host.commitBusy && !y.host.commitPast && mfGe y.mf y.host.commitMf then y.commitPoint else y
  let y := if y.host.commitPast then (y.applyPort p).commitDone else y
  let y := ((y.leaveMarked p).oldDrop p).activate p
  let pc := y.paceNow (p / 16)
  let y := ((y.evictStep p).evalMarks p).zlpFill p
  let y := y.chipSweep p
  let test := (y.port p).test == 5
  let sp := if test then .high else (y.port p).speed
  let n := y.perIndex p
  let sof := (y.frame p).sof
  let y := y.updFrame p fun f =>
    { f with lastEnd := f.x, lastPer := f.per, at_ := y.tb + 1, n := n, mf := y.mf, speed := sp, pace := pc.1,
             prep := prepOf sp pc.2, x := sofCharge sp, per := 0, skipped := false, naked := [], ended := false,
             searching := false, tried := [], noD := [], rel := y.host.nRel }
  let y := if sof then
      y.emit (.bus p (if sp = .low then .keepAlive else .sof ((if y.portHs p then n / 8 else n) % 2048)))
    else y
  let csp := y.cspKeys p n
  let due := y.dueKeys p n
  if test then y else (y.updFrame p fun f => { f with csp := csp, due := due }).chooseNext p

end Sys2Proof.Machine
end

