-- ==== Sys2Proof/Machine/Pers.lean ====
section
/-! DEFINITION. Personalities (R322-R362): the parameter table and the choice of a personality, a personality's events,
timers and requests, and the printer, drawer and display. -/

namespace Sys2Proof.Machine

/-! ## Parameter entries (R340-R344) -/

/-- A class-default PARAMS block of R344. -/
def defParams (code : Nat) : List Byte :=
  let pad := fun (l : List Byte) => l ++ List.replicate (48 - l.length) 0
  match code with
  | 1 => pad [0, 1, 0, 0, 0, 0, 0x0D, 0, 0, 0, 0, 0, 50, 0, 64]
  | 2 => pad [0, 0, 0, 0, 0, 0, 0x0D, 0, 0, 0, 0, 0, 50, 0, 64]
  | 3 => pad [0x2C, 1, 2, 0, 1, 0, 0xD0, 7, 0, 0, 1]
  | 4 => pad [0xF4, 1, 0xD0, 7]
  | 5 => pad [100, 0, 0xD0, 7, 0xE8, 3, 30, 0, 0, 0, 0, 1]
  | 6 => pad [2, 20, 0, 0, 0, 0, 0, 0, 0, 0, 0, 0, 0, 0, 0, 0, 0, 0, 0, 0, 0, 0, 0, 0, 100]
  | 7 => pad [0, 1]
  | _ => pad []

/-- Default PRIO by personality (R343). -/
def defPrio (code : Nat) : Nat :=
  match code with
  | 1 | 2 | 3 => 4
  | 4 => 7
  | 5 => 3
  | 6 => 6
  | 7 => 5
  | _ => 0

/-- Whether a value lies in a range. -/
def within (a b v : Nat) : Bool := decide (a ≤ v) && decide (v ≤ b)

/-- Whether a PARAMS block's values lie in the ranges of R344. -/
def paramsOk (code : Nat) (p : List Byte) : Bool :=
  let b := fun (i : Nat) => (byteAt p i).toNat
  match code with
  | 1 | 2 => within 0 4 (b 0) && within 0 4 (b 1) && within 0 7 (b 10) && within 5 1000 (half p 12) && within 1 64 (b 14)
  | 3 => within 50 5000 (half p 0) && within 0 1000 (half p 2) && within 0 1000 (half p 4)
  | 4 => (half p 0 == 0 || within 100 10000 (half p 0)) && within 100 60000 (half p 2) && within 0 8 (b 4)
  | 5 => within 10 500 (half p 0) && within 100 10000 (half p 2) && within 0 10000 (half p 4) && within 10 1000 (half p 6) &&
      within 0 1 (b 9) && within 1 8 (b 11)
  | 6 => within 1 4 (b 0) && within 1 40 (b 1) && within 0 1 (b 2) && within 0 2 (b 4) && within 0 6 (b 5) &&
      within 0 4 (b 12) && within 0 4 (b 19) && within 1 255 (b 24)
  | 7 => within 0 7 (b 0)
  | _ => true

/-- Whether an entry's PERS field is a code of R343. -/
def persCodeOk (c : Nat) : Bool := decide (c ≤ 7) || c == 0xFF

/-- Whether a table entry matches a device (R341). -/
def entryMatches (e dev : List Byte) : Bool :=
  let mask := half e 4
  let lo := half e 8
  let hi := half e 10
  let bcd := half dev 12
  half e 0 == half dev 8 && (half e 2 &&& mask) == (half dev 10 &&& mask) &&
    ((lo == 0 && hi == 0) || (decide (lo ≤ bcd) && decide (bcd ≤ hi)))

/-- The first entry that matches, with its index. -/
def findEntry (t : List (List Byte)) (dev : List Byte) : Option (Nat × List Byte) :=
  ((List.range t.length).zip t).find? fun e => entryMatches e.2 dev

/-- Usage Page items of a HID report descriptor (short items; prefix 0x05 or 0x06). -/
def hidPages (n : Nat) (bs : List Byte) : List Nat :=
  match n with
  | 0 => []
  | n + 1 =>
    match bs with
    | [] => []
    | p :: r =>
      if p == 0xFE then hidPages n (r.drop (2 + (byteAt r 0).toNat))
      else
        let k := if p.toNat % 4 = 3 then 4 else p.toNat % 4
        if p.toNat / 4 = 1 then leNat (r.take k) :: hidPages n (r.drop k) else hidPages n (r.drop k)

/-- The first interface of the configuration in force, at alternate setting 0, that satisfies `f` (class, subclass,
protocol). -/
def Slot.ifaceWith (s : Slot) (f : Nat → Nat → Nat → Bool) : Option Nat :=
  if s.config = 0 then none
  else ((cfgIfaces (s.cfgBytes s.config)).find? fun i => i.2.1 == 0 && f i.2.2.1 i.2.2.2.1 i.2.2.2.2).map (·.1)

/-- The HID interfaces of the configuration in force, in its order. -/
def Slot.hidIfaces (s : Slot) : List Nat :=
  if s.config = 0 then []
  else ((cfgIfaces (s.cfgBytes s.config)).filter fun i => i.2.1 == 0 && i.2.2.1 == 3).map (·.1)

/-- The interface a personality works on; for a HID personality chosen by its usage page the first whose report descriptor uses that
page (R343). -/
def Slot.persIface (s : Slot) (code : Nat) (pages : List (Nat × Nat)) : Option Nat :=
  let paged := fun (g : Nat) => match s.hidIfaces.find? fun i => pages.contains (i, g) with | some i => some i | none => s.hidIfaces.head?
  match code with
  | 1 | 7 => s.ifaceWith fun c u p => c == 3 && u == 1 && p == 1
  | 2 => paged 0x8C
  | 3 => paged 0x8D
  | 4 => s.ifaceWith fun c _ _ => c == 7
  | _ => some ((s.ifaceWith fun c _ _ => c == 3).getD 0)

/-- Whether the interface and report descriptor suit a personality. -/
def Slot.suits (s : Slot) (code : Nat) (pages : List (Nat × Nat)) : Bool :=
  (s.persIface code pages).isSome &&
    (match code with
     | 2 => pages.any fun g => g.2 == 0x8C
     | 3 => pages.any fun g => g.2 == 0x8D
     | _ => true)

/-- What the choice of R340-R343 comes to. -/
inductive Choice where
  | none_
  | sealIt
  | bind (code entry prio : Nat) (params : List Byte)
  deriving DecidableEq, Repr

/-- A matching entry's choice. -/
def entryChoice (i : Nat) (e : List Byte) : Choice :=
  let c := (byteAt e 6).toNat
  let pr := (byteAt e 7).toNat % 16
  if c = 0xFF then .sealIt else if c = 0 then .none_ else .bind c i (if pr = 0 then defPrio c else pr) (e.drop 16)

/-- The personality of a device: its table entry, or the first class default that fits, in the order PRINTER, SCAN_POS,
SCALE, KEYBOARD (R341). `pages` are the usage pages of its HID interfaces. -/
def Sys.choose (y : Sys) (n : Nat) (pages : List (Nat × Nat)) : Choice :=
  let s := y.slot n
  match findEntry y.eng.table s.dev with
  | some (i, e) => entryChoice i e
  | none =>
    match [4, 2, 3, 7].find? fun c => s.suits c pages with
    | some c => .bind c 0xFFFF (defPrio c) (defParams c)
    | none => .none_

/-- The HID interfaces whose report descriptors binding reads, in order (R324): the boot keyboard's for a table entry of SCAN_KBD or
KEYBOARD; every HID interface where the usage page chooses. Interface 0 stands for one that a table entry asks for and the device
lacks. -/
def Sys.hidReads (y : Sys) (n : Nat) : List Nat :=
  let s := y.slot n
  match findEntry y.eng.table s.dev with
  | some (_, e) =>
    let c := (byteAt e 6).toNat
    if c = 1 ∨ c = 7 then [(s.persIface c []).getD 0]
    else if c = 2 ∨ c = 3 then (if s.hidIfaces.isEmpty then [0] else s.hidIfaces) else []
  | none => if (s.persIface 4 []).isNone then s.hidIfaces else []

/-- Whether a device has a HID interface whose report descriptor binding reads (R324). -/
def Sys.needsHid (y : Sys) (n : Nat) : Bool := !(y.hidReads n).isEmpty

/-- The interface read after `i`, if one is. -/
def nextAfter (i : Nat) : List Nat → Option Nat
  | [] => none
  | j :: r => if j = i then r.head? else nextAfter i r

/-- The reads of a binding begin. -/
def Sys.hidBegin (n : Nat) (y : Sys) : Sys :=
  let i := (y.hidReads n).headD 0
  y.updSlot n fun s => { s with pers := { s.pers with rdIface := i, rdPages := [] } }

/-- A report descriptor has been read: its usage pages are noted, and the next interface is answered, if one is to be read. -/
def Sys.hidNote (n : Nat) (bs : List Byte) (y : Sys) : Option Nat × Sys :=
  let i := (y.slot n).pers.rdIface
  let y := y.updSlot n fun s =>
    { s with pers := { s.pers with rdPages := s.pers.rdPages ++ (hidPages bs.length bs).map fun g => (i, g) } }
  match nextAfter i (y.hidReads n) with
  | some j => (some j, y.updSlot n fun s => { s with pers := { s.pers with rdIface := j } })
  | none => (none, y)

/-- Whether a device matches a PERS 0xFF entry (R326). -/
def Sys.sealEntry (y : Sys) (n : Nat) : Bool :=
  match findEntry y.eng.table (y.slot n).dev with
  | some (_, e) => byteAt e 6 == 0xFF
  | none => false

/-- The command endpoint of a DRAWER or DISPLAY: the highest OUT number the configuration does not use (R336). -/
def Slot.freeOut (s : Slot) : Option Nat :=
  ((List.range 15).map (15 - ·)).find? fun e => !(s.epDescs.any fun d => epidOf d.addr == e)

/-- Whether a personality's row permits an endpoint to be normalised (R343). -/
def Slot.permits (s : Slot) (e : Nat) : Bool :=
  match s.epDescs.find? fun d => d.alt == 0 && epidOf d.addr == e with
  | none => false
  | some d =>
    let int := d.attr % 4 == 3
    epIn e &&
      (match s.pers.code with
       | 1 => int && d.cls == 3 && d.sub == 1 && d.proto == 1
       | 2 | 3 | 7 => int && d.iface == s.pers.iface
       | 4 => d.attr % 4 == 2 && d.iface == s.pers.iface
       | 5 => int
       | _ => false)

/-! ## A personality's events, timers and parameters -/

/-- Parameter byte `i`. -/
def Pers.b (p : Pers) (i : Nat) : Nat := (byteAt p.params i).toNat
/-- Parameter half-word at byte `i`. -/
def Pers.h (p : Pers) (i : Nat) : Nat := half p.params i

/-- An event of slot `n`'s personality, stamped at microsecond `t`, to the instance of the slot (R334). -/
def Sys.persEvent (n ty epid t : Nat) (p : List Word) (y : Sys) : Sys :=
  match (y.slot n).inst with
  | some i => y.tenantEvent i { ty := ty, mf := (t / 125) % 4294967296, us := t % 125, slot := n, port := (y.slot n).port,
                                epid := epid, p := p }
  | none => y

/-- The due time of a timer of `ms` from microsecond `t`, in whole ticks of list 0 (R332, R443). -/
def Sys.persDue (y : Sys) (t ms : Nat) : Nat :=
  let k := max 1 (y.dlyTick 0)
  (t + 1000 * ms + k - 1) / k * k

/-- The timers of a personality, as `Delay.tag` numbers them: a scan's gap, a drawer's sense qualification, a print job's end, the
status poll, the pulse, the wait for an open, the gap before a kick, and a scale candidate's. -/
inductive PTimer where
  | gap | sense | idle | poll | pulse | openWait | kickGap | stab
  deriving DecidableEq, Repr

/-- A timer's number. -/
def PTimer.tag : PTimer → Nat
  | .gap => 1 | .sense => 2 | .idle => 3 | .poll => 4 | .pulse => 5 | .openWait => 6 | .kickGap => 7 | .stab => 8

/-- Timer `k` of slot `n` is over, or superseded: its item leaves its delay list (R332, R444). -/
def Sys.timerOff (n : Nat) (k : PTimer) (y : Sys) : Sys :=
  (y.delayCancel n k.tag).updPers n fun p => { p with timers := FMap.put 0 k.tag 0 p.timers }

/-- Every timer of slot `n` is over. -/
def Sys.timersOff (n : Nat) (y : Sys) : Sys :=
  each (fun k y => y.timerOff n k) [.gap, .sense, .idle, .poll, .pulse, .openWait, .kickGap, .stab] y

/-- Arm timer `k` of slot `n`, due `ms` after microsecond `t`: an item of delay list 0 in the device's flow, in place of the one that
it supersedes (R332). -/
def Sys.armTimer (n : Nat) (k : PTimer) (t ms : Nat) (y : Sys) : Sys :=
  let due := y.persDue t ms
  ((y.delayCancel n k.tag).delayIn 0 (due / max 1 (y.dlyTick 0)) n (y.slot n).prio k.tag).updPers n fun p =>
    { p with timers := FMap.put 0 k.tag (due + 1) p.timers }

/-- Whether timer `k` of slot `n` runs and its due tick has come; one that a later event has superseded does nothing (R332). -/
def Sys.timerUp (y : Sys) (n : Nat) (k : PTimer) : Bool :=
  let d := FMap.get 0 k.tag (y.slot n).pers.timers
  decide (0 < d) && decide (d ≤ y.tb + 1)

/-- The item of slot `n`'s flow that a core is handling, where it is of kind `k` (R329, R436). -/
def Sys.itemNow (y : Sys) (n : Nat) (k : ItemK) : Option Item :=
  (y.eng.cores.filterMap fun e => e.2.cur).find? fun i => i.flow == n && i.what == k

/-- The microsecond of a FRAME_STAMP that lies in the past. -/
def Sys.stampTb (y : Sys) (mf us : Nat) : Nat := y.tb + us - ((y.mf + 4294967296 - mf % 4294967296) % 4294967296 * 125 + y.us)

/-- When the report that is being handled was received (R346, R351): as its item says, and now where no core holds one. -/
def Sys.reportAt (y : Sys) (n : Nat) : Nat :=
  match y.itemNow n .report with
  | some i => y.stampTb i.mf i.us
  | none => y.tb

/-- A table that has replaced another applies from the device's next item, the class defaults where none of its entries matches; a
device that R341 now gives another personality, or none, keeps its own with its values (R342, log 105). -/
def Sys.freshParams (n : Nat) (y : Sys) : Sys :=
  match y.choose n (y.slot n).pers.pages with
  | .bind c i pr ps => if c == (y.slot n).pers.code then y.updPers n fun p => { p with entry := i, prio := pr, params := ps } else y
  | _ => y

/-- A poisoned item is discarded with the device's partial state, and the instance's next event carries LOST (R331). -/
def Sys.persPoison (n : Nat) (y : Sys) : Sys :=
  let y := match (y.slot n).inst with
    | some i => y.updInst i fun z => { z with lostPend := true }
    | none => y
  let y := ((y.timerOff n .gap).timerOff n .sense).timerOff n .stab
  y.updPers n fun p => { p with scan := { prev := p.scan.prev }, scale := { p.scale with cand := none },
                                 drw := { p.drw with cand := none } }

/-- An item of kind `k` of slot `n` for personality code in `cs`: handled with the parameters in force, or discarded as poisoned,
which the command says or the item that a core holds for the device (R331). A report names the endpoint its events come from (R362). -/
def Sys.persItem (n : Nat) (k : ItemK) (cs : List Nat) (poison : Bool) (f : Sys → Sys) (y : Sys) : Sys :=
  if y.contain.chipFault || !(y.slot n).used || !(cs.contains (y.slot n).pers.code) then y
  else if poison || (y.itemNow n k).any (·.poison) then y.persPoison n
  else
    let y := y.freshParams n
    match k, y.itemNow n k with
    | .report, some i => f (y.updPers n fun p => { p with inEpid := i.epid })
    | _, _ => f y

/-! ## Requests (R325, R344) -/

/-- The SETUP and data stage of a device request built from a REQ_TYPE, an ID and a sequence (R344). -/
def vendorReq (ty id iface : Nat) (seq : List Byte) : List Byte × List Byte :=
  if ty = 0 then
    let d := (if id = 0 then [] else [Word.byte (Word.ofN id) 0]) ++ seq
    (setupPkt 0x21 9 (0x200 + id) iface d.length, d)
  else (setupPkt 0x40 id 0 0 seq.length, seq)

/-- Code page 437's code of an ISO 8859-1 character from 0xA0 on; 0x3F where it has none. -/
def cp437 (c : Nat) : Nat :=
  match [(0xC7, 0x80), (0xFC, 0x81), (0xE9, 0x82), (0xE2, 0x83), (0xE4, 0x84), (0xE0, 0x85), (0xE5, 0x86), (0xE7, 0x87),
    (0xEA, 0x88), (0xEB, 0x89), (0xE8, 0x8A), (0xEF, 0x8B), (0xEE, 0x8C), (0xEC, 0x8D), (0xC4, 0x8E), (0xC5, 0x8F),
    (0xC9, 0x90), (0xE6, 0x91), (0xC6, 0x92), (0xF4, 0x93), (0xF6, 0x94), (0xF2, 0x95), (0xFB, 0x96), (0xF9, 0x97),
    (0xFF, 0x98), (0xD6, 0x99), (0xDC, 0x9A), (0xA2, 0x9B), (0xA3, 0x9C), (0xA5, 0x9D), (0xE1, 0xA0), (0xED, 0xA1),
    (0xF3, 0xA2), (0xFA, 0xA3), (0xF1, 0xA4), (0xD1, 0xA5), (0xAA, 0xA6), (0xBA, 0xA7), (0xBF, 0xA8), (0xAC, 0xAA),
    (0xBD, 0xAB), (0xBC, 0xAC), (0xA1, 0xAD), (0xAB, 0xAE), (0xBB, 0xAF), (0xDF, 0xE1), (0xB5, 0xE6), (0xB1, 0xF1),
    (0xF7, 0xF6), (0xB0, 0xF8), (0xB7, 0xFA), (0xB2, 0xFD), (0xA0, 0xFF)].find? fun e => e.1 == c with
  | some e => e.2
  | none => 0x3F

/-- A character in CHARSET; what the set lacks is sent as 0x3F (R359). -/
def inCharset (cs : Nat) (c : Byte) : Byte :=
  if c.toNat < 0x80 ∨ cs = 1 then c else if cs = 0 then 0x3F else BitVec.ofNat 8 (cp437 c.toNat)

/-- POS_SEQ with its place holders filled (R344). -/
def fillPos (p : Pers) (line col : Nat) (seq : List Byte) : List Byte :=
  seq.map fun b =>
    if b == 0xF1 then BitVec.ofNat 8 (line + p.b 17) else if b == 0xF2 then BitVec.ofNat 8 (col + p.b 18) else b

/-- BRT_SEQ with its place holder filled (R344). -/
def fillBrt (p : Pers) (level : Nat) (seq : List Byte) : List Byte :=
  seq.map fun b => if b == 0xF3 then BitVec.ofNat 8 (level * p.b 24 / 100) else b

/-- A template of the PARAMS block: its bytes from offset `o`, `len` of them. -/
def Pers.seq (p : Pers) (o len : Nat) : List Byte := (p.params.drop o).take len

/-- Whether a display command is clipped at COLS. -/
def Pers.clips (p : Pers) (c : DispCmd) : Bool := c.op == 0x11 && decide (p.b 1 < c.col + c.chars.length)

/-- The data of a display command, or none where it is rejected (R359). -/
def Pers.dispData (p : Pers) (c : DispCmd) : Option (List Byte) :=
  if c.op = 0x10 then (if p.b 5 = 0 then none else some (p.seq 6 (p.b 5)))
  else if c.op = 0x11 then
    if p.b 0 ≤ c.a ∨ (p.b 12 = 0 ∧ (c.a ≠ 0 ∨ c.col ≠ 0)) then none
    else some (fillPos p c.a c.col (p.seq 13 (p.b 12)) ++
      (c.chars.take (p.b 1 - c.col)).map (inCharset (p.b 4)))
  else if c.op = 0x12 then (if p.b 19 = 0 then none else some (fillBrt p c.a (p.seq 20 (p.b 19))))
  else none

/-- The SETUP and data stage of a personality's request. -/
def Pers.reqBytes (p : Pers) : PReq → List Byte × List Byte
  | .report => (setupPkt 0x81 6 0x2200 p.rdIface 4096, [])
  | .protocol => (setupPkt 0x21 0x0B 0 p.iface 0, [])
  | .idle => (setupPkt 0x21 0x0A 0 p.iface 0, [])
  | .poll => (setupPkt 0xA1 1 0 p.iface 1, [])
  | .kickOpen => vendorReq (p.b 9) (p.b 10) p.iface (p.seq 12 (p.b 11))
  | .kickRelease => vendorReq (p.b 9) (p.b 10) p.iface (p.seq 20 (p.b 11))
  | .display =>
    match p.disp with
    | c :: _ => vendorReq (p.b 2) (p.b 3) p.iface ((p.dispData c).getD [])
    | [] => ([], [])

/-- Issue the personality's first request. -/
def Sys.issueReq (n : Nat) (y : Sys) : Sys :=
  let p := (y.slot n).pers
  match p.req with
  | r :: _ => y.reqTo 2 n (p.reqBytes r).1 (p.reqBytes r).2
  | [] => y

/-- Queue a request of slot `n`'s personality (R325): the requests of one slot run one at a time. -/
def Sys.persReq (n : Nat) (r : PReq) (y : Sys) : Sys :=
  let idle := (y.slot n).pers.req.isEmpty
  let y := y.updPers n fun p => { p with req := p.req ++ [r] }
  if idle then y.issueReq n else y

/-! ## Printer (R352-R355) -/

/-- Whether a locator is valid and its bit reads 1 in a report (R344). -/
def locBit (loc : Nat) (bs : List Byte) : Option Bool :=
  if loc / 128 = 0 then none
  else some (((byteAt bs ((loc / 8) % 8)).getLsbD (loc % 8)) != (loc / 64 % 2 == 1))

/-- A status word with bit `b` set to `v`. -/
def putBit (w b : Nat) (v : Bool) : Nat := w - (if Nat.testBit w b then 2 ^ b else 0) + (if v then 2 ^ b else 0)

/-- Whether the printer's status lets a job end (R355). -/
def healthy (st : Nat) : Bool :=
  Nat.testBit st 0 && !Nat.testBit st 1 && !Nat.testBit st 2 && !Nat.testBit st 4 && !Nat.testBit st 5

/-- PRINT_DONE: the job count is reported and returns to 0. `epid` is the endpoint whose status block ended the job, or 0; `t` the time
of what did (R362, R442). -/
def Sys.printDone (n epid t : Nat) (y : Sys) : Sys :=
  let q := (y.slot n).pers.prn
  ((y.persEvent n 0x46 epid t [Word.ofN q.job, Word.ofN q.status]).timerOff n .idle).updPers n fun p =>
    { p with prn := { p.prn with job := 0, idleDue := false, idleWait := false } }

/-- The printer's status becomes `st` (R353): every change is reported, the first complete status with CHANGED 0x01FF; a
fresh IDLE_MS starts where one waited for a healthy printer. -/
def Sys.prnStatus (n epid st t : Nat) (y : Sys) : Sys :=
  let q := (y.slot n).pers.prn
  let complete := if (y.slot n).pers.h 0 = 0 then q.blkSeen || (y.slot n).pers.b 4 == 0 else q.pollSeen
  let y := y.updPers n fun p => { p with prn := { p.prn with status := st } }
  let y :=
    if q.first then
      if complete then
        (y.persEvent n 0x47 epid t [Word.ofN (st + 0x1FF * 65536)]).updPers n fun p =>
          { p with prn := { p.prn with first := false } }
      else y
    else if st != q.status then y.persEvent n 0x47 epid t [Word.ofN (st + (st ^^^ q.status) * 65536)]
    else y
  if q.idleWait && healthy st then
    (y.armTimer n .idle t ((y.slot n).pers.h 2)).updPers n fun p => { p with prn := { p.prn with idleWait := false, idleDue := true } }
  else y

/-- The NO_HPWR bit (R353). -/
def Sys.noHpwr (y : Sys) (n : Nat) : Bool :=
  let s := y.slot n
  let pf := (y.port s.port).prof
  s.tier == 0 && (pf.fld 3 2 == 1 || pf.fld 3 2 == 2) && pf.fld 23 16 != 0 && !(y.port s.port).hpwr

/-- A poll's reply (R352). -/
def Sys.prnPoll (n : Nat) (b : Byte) (y : Sys) : Sys :=
  let q := (y.slot n).pers.prn
  let po := b.getLsbD 5
  let st := putBit (putBit (putBit q.status 0 (b.getLsbD 4)) 1 (!b.getLsbD 3)) 2 (po || q.blkOut)
  let y := y.updPers n fun p => { p with prn := { p.prn with pollOut := po, pollSeen := true } }
  y.prnStatus n 0 st y.tb

/-- A status block (R352): read through the valid locators; IDLE becoming 1 after an OUT completion ends the job. -/
def Sys.prnBlock (n : Nat) (blk : List Byte) (y : Sys) : Sys :=
  let p := (y.slot n).pers
  let q := p.prn
  if blk.length != p.b 4 || blk.isEmpty then y
  else
    let at_ := fun (i b st : Nat) => match locBit (p.b i) blk with | some v => putBit st b v | none => st
    let out := (locBit (p.b 6) blk).getD q.blkOut
    let st := at_ 10 7 (at_ 9 6 (at_ 8 5 (at_ 7 4 (at_ 5 3 (putBit q.status 2 (out || q.pollOut))))))
    let idles := (locBit (p.b 9) blk).isSome && Nat.testBit st 6 && !Nat.testBit q.status 6 && decide (0 < q.job)
    let y := y.updPers n fun p => { p with prn := { p.prn with blkOut := out, blkSeen := true } }
    let y := y.prnStatus n p.inEpid st (y.reportAt n)
    if idles then y.printDone n p.inEpid (y.reportAt n) else y

/-- The OUT-completion notice (R355, R439): its sum joins the job count, and IDLE_MS starts anew from the latest completion. -/
def Sys.prnOut (n : Nat) (y : Sys) : Sys :=
  let sum := (y.slot n).notice
  let some_ := (y.slot n).outNotice
  let y := y.updSlot n fun s => { s with notice := 0, outNotice := false }
  let y := y.updPers n fun p => { p with prn := { p.prn with job := min 4294967295 (p.prn.job + sum) } }
  let p := (y.slot n).pers
  if some_ ∧ p.b 9 / 128 = 0 ∧ 0 < p.prn.job then
    (y.armTimer n .idle (y.slot n).noteAt (p.h 2)).updPers n fun p => { p with prn := { p.prn with idleDue := true, idleWait := false } }
  else y

/-- IDLE_MS have passed since the latest OUT completion (R355). -/
def Sys.prnIdle (n : Nat) (y : Sys) : Sys :=
  let q := (y.slot n).pers.prn
  if !q.idleDue || !y.timerUp n .idle then y
  else if healthy q.status then y.printDone n 0 y.tb
  else (y.timerOff n .idle).updPers n fun p => { p with prn := { p.prn with idleDue := false, idleWait := true } }

/-- The power-change notice (R353). -/
def Sys.prnPower (n : Nat) (y : Sys) : Sys :=
  let y := y.updSlot n fun s => { s with pwrNotice := false }
  y.prnStatus n 0 (putBit (y.slot n).pers.prn.status 8 (y.noHpwr n)) (y.slot n).noteAt

/-! ## Drawer (R356-R358) -/

/-- Change the drawer's state. -/
def Sys.updDrw (n : Nat) (f : Drawer → Drawer) (y : Sys) : Sys := y.updPers n fun p => { p with drw := f p.drw }

/-- DRAWER_OPEN. -/
def Sys.drawerOpen (n epid cause tag : Nat) (y : Sys) : Sys :=
  y.persEvent n 0x44 epid y.tb [Word.ofN (cause + tag * 65536)]

/-- DRAWER_CLOSED. -/
def Sys.drawerClosed (n epid res tag openMs : Nat) (y : Sys) : Sys :=
  y.persEvent n 0x45 epid y.tb [Word.ofN (res + tag * 65536), Word.ofN openMs]

/-- Whether the drawer's sense locator is valid. -/
def Pers.sensed (p : Pers) : Bool := p.b 8 / 128 == 1

/-- Step 2 and 3 of R357: the gap is awaited, or OPEN_DATA is sent. -/
def Sys.kickGo (n : Nat) (y : Sys) : Sys :=
  let p := (y.slot n).pers
  let ready := match p.drw.lastPulse with
    | some t => decide (y.persDue t (p.h 4) ≤ y.tb) || p.h 4 == 0
    | none => true
  if ready then (y.updDrw n fun d => { d with kick := .openReq }).persReq n .kickOpen
  else
    (y.armTimer n .kickGap (p.drw.lastPulse.getD 0) (p.h 4)).updDrw n fun d => { d with kick := .gap }

/-- A KICK begins (step 1 of R357). -/
def Sys.kickStart (n tag pulse : Nat) (y : Sys) : Sys :=
  let p := (y.slot n).pers
  if p.drw.acc == some true then y.drawerOpen n p.cmdEpid 2 tag
  else
    (y.updDrw n fun d => { d with tag := tag, failed := false, waitOpen := false,
                                  pulse := if pulse = 0 then p.h 0 else max 10 (min 500 pulse) }).kickGo n

/-- The running kick may be over: the waiting one begins (R358). -/
def Sys.kickDone (n : Nat) (y : Sys) : Sys :=
  let d := (y.slot n).pers.drw
  if d.kick == .none && !d.waitOpen then
    match d.next with
    | some k => (y.updDrw n fun d => { d with next := none }).kickStart n k.1 k.2
    | none => y
  else y

/-- A KICK record (R357, R358). -/
def Sys.kick (n tag pulse : Nat) (y : Sys) : Sys :=
  let d := (y.slot n).pers.drw
  if d.kick != .none || d.waitOpen then y.updDrw n fun d => { d with next := some (tag, pulse) }
  else y.kickStart n tag pulse

/-- A report read through SENSE_LOC (R356). -/
def Sys.senseReport (n : Nat) (rep : List Byte) (y : Sys) : Sys :=
  let p := (y.slot n).pers
  match locBit (p.b 8) rep with
  | none => y
  | some s =>
    if p.drw.acc == some s then (y.timerOff n .sense).updDrw n fun d => { d with cand := none }
    else if p.drw.cand == some s then y
    else (y.armTimer n .sense (y.reportAt n) (p.h 6)).updDrw n fun d => { d with cand := some s }

/-- SENSE_MS have passed: the state is accepted (R356, R357 step 5). -/
def Sys.senseExpiry (n : Nat) (y : Sys) : Sys :=
  let p := (y.slot n).pers
  let d := p.drw
  match (if y.timerUp n .sense then d.cand else none) with
  | none => y
  | some s =>
    let y := (y.timerOff n .sense).updDrw n fun d => { d with acc := some s, cand := none, openAt := if s then some y.tb else none }
    if s then
      if d.waitOpen then
        (((y.drawerOpen n p.inEpid 1 d.tag).timerOff n .openWait).updDrw n fun d => { d with waitOpen := false }).kickDone n
      else y.drawerOpen n p.inEpid (if d.acc.isNone then 4 else 0) 0
    else if d.acc.isNone then y.drawerClosed n p.inEpid 4 0 0
    else y.drawerClosed n p.inEpid 0 0 (match d.openAt with | some t => (y.tb - t) / 1000 | none => 0)

/-- The OPEN_DATA request has ended (R357 steps 3 and 5). -/
def Sys.kickOpened (n : Nat) (ok : Bool) (y : Sys) : Sys :=
  let p := (y.slot n).pers
  if ok then
    let y := (y.armTimer n .pulse y.tb p.drw.pulse).updDrw n fun d =>
      { d with kick := .pulse, lastPulse := some y.tb, waitOpen := p.sensed }
    if p.sensed then y.armTimer n .openWait y.tb (p.h 2) else y
  else
    ((y.drawerClosed n p.cmdEpid 1 p.drw.tag 0).updDrw n fun d => { d with kick := .release, failed := true }).persReq n
      .kickRelease

/-- The RELEASE_DATA request has ended. -/
def Sys.kickReleased (n : Nat) (y : Sys) : Sys :=
  let p := (y.slot n).pers
  let y := if p.sensed || p.drw.failed then y else y.drawerOpen n p.cmdEpid 3 p.drw.tag
  (y.updDrw n fun d => { d with kick := .none }).kickDone n

/-- The pulse timer runs out: RELEASE_DATA is sent, after RESUME_DONE where the device is suspended (R357, R358). -/
def Sys.pulseEnd (n : Nat) (y : Sys) : Sys :=
  if (y.slot n).pers.drw.kick != .pulse || !y.timerUp n .pulse then y
  else if y.slotQuiet n then (y.timerOff n .pulse).updDrw n fun d => { d with kick := .releaseOwed }
  else ((y.timerOff n .pulse).updDrw n fun d => { d with kick := .release }).persReq n .kickRelease

/-- OPEN_WAIT_MS pass with no accepted open (R357). -/
def Sys.openWaitEnd (n : Nat) (y : Sys) : Sys :=
  let p := (y.slot n).pers
  if p.drw.waitOpen && y.timerUp n .openWait then
    (((y.drawerClosed n p.cmdEpid 1 p.drw.tag 0).timerOff n .openWait).updDrw n fun d => { d with waitOpen := false }).kickDone n
  else y

/-- A release that a reset or suspend held back is sent (R358). -/
def Sys.releaseOwed (n : Nat) (y : Sys) : Sys :=
  if (y.slot n).pers.drw.kick == .releaseOwed then
    (y.updDrw n fun d => { d with kick := .release }).persReq n .kickRelease
  else y

/-! ## Display (R359, R360) -/

/-- DISPLAY_ACK. -/
def Sys.dispAck (n : Nat) (c : DispCmd) (res : Nat) (y : Sys) : Sys :=
  y.persEvent n 0x49 (y.slot n).pers.cmdEpid y.tb [Word.ofN (c.tag + c.op * 65536 + res * 16777216)]

/-- Carry out the commands at the head of the queue until one has a request in progress. -/
def Sys.dispNext (fuel n : Nat) (y : Sys) : Sys :=
  match fuel with
  | 0 => y
  | fuel + 1 =>
    let p := (y.slot n).pers
    match p.disp with
    | [] => y
    | c :: r =>
      match p.dispData c with
      | some _ => y.persReq n .display
      | none => ((y.updPers n fun p => { p with disp := r }).dispAck n c 2).dispNext fuel n

/-- A display command arrives (R359). -/
def Sys.dispCmd (n : Nat) (c : DispCmd) (y : Sys) : Sys :=
  let busy := !(y.slot n).pers.disp.isEmpty
  let y := y.updPers n fun p => { p with disp := p.disp ++ [c] }
  if busy then y else y.dispNext 1 n

/-- The display's request has ended (R360). -/
def Sys.dispDone (n : Nat) (ok : Bool) (y : Sys) : Sys :=
  let p := (y.slot n).pers
  match p.disp with
  | c :: r =>
    let y := y.updPers n fun p => { p with disp := r }
    (y.dispAck n c (if !ok then 1 else if p.clips c then 4 else 0)).dispNext (r.length + 1) n
  | [] => y

/-! ## Requests that complete -/

/-- A personality's request ends: a failure is repeated twice (R325, R271). -/
def Sys.persReqEnd (n : Nat) (res : ReqRes) (y : Sys) : Sys :=
  let y := if (y.slot n).pers.code = 0 then y else y.freshParams n
  let p := (y.slot n).pers
  match p.req with
  | [] => y
  | r :: rest =>
    let ok := match res, r with
      | .ok bs, .poll => decide (1 ≤ bs.length)
      | .ok _, _ => true
      | _, _ => false
    if !ok && decide (p.tries < 2) then (y.updPers n fun p => { p with tries := p.tries + 1 }).issueReq n
    else
      let y := (y.updPers n fun p => { p with req := rest, tries := 0 }).issueReq n
      match r with
      | .poll => (match ok, res with | true, .ok bs => y.prnPoll n (byteAt bs 0) | _, _ => y)
      | .kickOpen => y.kickOpened n ok
      | .kickRelease => y.kickReleased n
      | .display => y.dispDone n ok
      | _ => y

/-! ## Binding, reset and end -/

/-- A device is bound (R323, R324, R351, R352, R356): state as at binding, its command endpoint open, and its first
requests issued. -/
def Sys.persBind (n code entry prio : Nat) (pages : List (Nat × Nat)) (params : List Byte) (y : Sys) : Sys :=
  let s := y.slot n
  let iface := (s.persIface code pages).getD 0
  let cmd := if code = 5 ∨ code = 6 then s.freeOut.getD 0 else 0
  let inE := ((s.epDescs.find? fun d => d.alt == 0 && decide (128 ≤ d.addr) &&
    (if code = 4 then d.attr % 4 == 2 && d.iface == iface else if code = 5 then d.attr % 4 == 3
     else d.attr % 4 == 3 && d.iface == iface)).map fun d => epidOf d.addr).getD 0
  let y := y.updPers n fun p =>
    { code := code, entry := entry, prio := prio, iface := iface, pages := pages, inEpid := if code = 6 then 0 else inE, cmdEpid := cmd,
      params := params, req := p.req }
  let y := if cmd = 0 then y
    else y.updEp n cmd fun e => { e with open_ := true, active := true, mode := .normalised, ty := .bulk, cmd := true }
  if code = 4 then
    let y := y.updPers n fun p => { p with prn := { p.prn with status := if y.noHpwr n then 256 else 0 } }
    if (y.slot n).pers.h 0 = 0 then y.prnStatus n 0 (y.slot n).pers.prn.status y.tb
    else (y.armTimer n .poll y.tb ((y.slot n).pers.h 0)).persReq n .poll
  else y

/-- What a reset of its device does to a personality (R348, R358, R360). -/
def Sys.persAtReset (n : Nat) (y : Sys) : Sys :=
  let p := (y.slot n).pers
  match p.code with
  | 1 | 2 => (y.timerOff n .gap).updPers n fun p => { p with scan := { prev := p.scan.prev } }
  | 4 => y.updPers n fun p => { p with req := [], tries := 0 }
  | 5 =>
    let y := if p.drw.kick == .openReq then
        (y.drawerClosed n p.cmdEpid 1 p.drw.tag 0).updDrw n fun d => { d with failed := true } else y
    let y := if p.drw.kick == .openReq || p.drw.kick == .pulse || p.drw.kick == .release then
        (y.timerOff n .pulse).updDrw n fun d => { d with kick := .releaseOwed } else y
    y.updPers n fun p => { p with req := [], tries := 0 }
  | 6 =>
    let y := y.updPers n fun p => { p with req := [], tries := 0, disp := [] }
    match p.disp with
    | c :: r => each (fun (d : DispCmd) (y : Sys) => y.dispAck n d 3) r (y.dispAck n c 1)
    | [] => y
  | _ => y.updPers n fun p => { p with req := [], tries := 0 }

/-- A binding ends (R323, R334): state, waiting commands and notices are discarded without an event, and the command
endpoint goes. -/
def Sys.persEnd (n : Nat) (y : Sys) : Sys :=
  let p := (y.slot n).pers
  let y := if p.cmdEpid = 0 then y else y.updEp n p.cmdEpid fun _ => {}
  (y.timersOff n).updSlot n fun s => { s with pers := {}, notice := 0, outNotice := false, pwrNotice := false }

end Sys2Proof.Machine
end

