-- ==== Sys2Proof/Machine/PersIn.lean ====
section
/-! DEFINITION. The personalities that read reports: scanners, the scale and the keyboard (R345-R351, R361). -/

namespace Sys2Proof.Machine

/-! ## Keys (R345) -/

/-- The two Ctrl bits of a boot report's modifier byte. -/
def ctrlDown (mods : Byte) : Bool := mods.getLsbD 0 || mods.getLsbD 4

/-- The character a key gives a scanner (R345): Ctrl with a letter 0x01-0x1A, Ctrl with the key that carries "]" 0x1D, and
otherwise the keymap's character; 0: none. -/
def scanChar (map : Nat) (usage mods : Byte) : Nat :=
  let plain := Config.keyChar map usage 0
  let shifted := Config.keyChar map usage 2
  let altgr := Config.keyChar map usage 64
  let c :=
    if ctrlDown mods then
      if 97 ≤ plain ∧ plain ≤ 122 then plain - 96
      else if plain = 93 ∨ shifted = 93 ∨ altgr = 93 then 0x1D
      else Config.keyChar map usage mods
    else Config.keyChar map usage mods
  if c ≤ 255 then c else 0

/-- The key array of a boot report. -/
def bootKeys (rep : List Byte) : List Byte := (rep.drop 2).take 6

/-- The keys pressed in a report: usages not in the previous one, in array order. -/
def pressed (prev keys : List Byte) : List Byte := keys.filter fun k => k != 0 && !(prev.contains k)

/-- Whether every position of the key array holds usage 0x01. -/
def rollOver (keys : List Byte) : Bool := !keys.isEmpty && keys.all fun k => k == 1

/-! ## Scans (R346-R349) -/

/-- The last `n` elements of a list. -/
def lastN {α : Type} (n : Nat) (l : List α) : List α := l.drop (l.length - n)

/-- Change the scan state. -/
def Sys.updScan (n : Nat) (f : Scan → Scan) (y : Sys) : Sys := y.updPers n fun p => { p with scan := f p.scan }

/-- PREFIX. -/
def Pers.prefix_ (p : Pers) : List Byte := p.seq 2 (p.b 0)
/-- SUFFIX. -/
def Pers.suffix_ (p : Pers) : List Byte := p.seq 6 (p.b 1)

/-- The `k`th character as a field of dword `d`. -/
def charDw (cs : List Byte) (d : Nat) : Word := Word.ofN (leNat ((cs.drop (4 * d)).take 4))

/-- The records of one scan (R349, R362). -/
def Sys.scanRecs (n : Nat) (data : List Byte) (flags : Nat) (sym : List Byte) (t : Nat) (y : Sys) : Sys :=
  let np := (data.length + 15) / 16
  each (fun i (y : Sys) =>
    let cs := (data.drop (16 * i)).take 16
    y.persEvent n 0x40 (y.slot n).pers.inEpid t
      [Word.ofN (data.length + i * 256 + (np - 1) * 1024 + flags * 4096 + (byteAt sym 0).toNat * 65536 +
        (byteAt sym 1).toNat * 16777216), charDw cs 0, charDw cs 1, charDw cs 2, charDw cs 3]) (List.range np) y

/-- A scan ends (R346, R347): prefix and suffix go, AIM identifiers are taken from the data of a keyboard scanner, and what
is left is reported. `bySuffix`: the suffix ended it; `gap`: the gap timer did. -/
def Sys.scanEnd (n : Nat) (bySuffix gap : Bool) (y : Sys) : Sys :=
  let p := (y.slot n).pers
  let q := p.scan
  let body := if q.data.take (p.b 0) == p.prefix_ then q.data.drop (p.b 0) else q.data
  let body := if bySuffix || (p.code == 2 && decide (0 < p.b 1) && lastN (p.b 1) body == p.suffix_)
    then body.take (body.length - p.b 1) else body
  let aim := p.code == 1 && p.b 11 % 2 == 1 && byteAt body 0 == 0x5D && decide (3 ≤ body.length)
  let sym := if aim then (body.drop 1).take 2 else q.sym
  let body := if aim then body.drop 3 else body
  let data := body.take (p.b 14)
  let flags := (if gap && decide (0 < p.b 1) then 1 else 0) + (if p.b 14 < body.length then 2 else 0) +
    (if sym.isEmpty then 0 else 4)
  let y := (y.timerOff n .gap).updScan n fun q => { prev := q.prev }
  if data.isEmpty then y else y.scanRecs n data flags sym q.start

/-- One character of a keyboard scanner at time `t` (R346). -/
def Sys.scanPut (n : Nat) (c : Byte) (t : Nat) (y : Sys) : Sys :=
  let p := (y.slot n).pers
  let q := p.scan
  let y :=
    if q.active then y.updScan n fun q => { q with data := q.data ++ [c] }
    else if p.b 0 = 0 then y.updScan n fun q => { q with active := true, data := [c], start := t }
    else
      let r := lastN (p.b 0) (q.recent ++ [(c, t)])
      if r.map (·.1) == p.prefix_ then
        y.updScan n fun q => { q with active := true, recent := [], data := p.prefix_, start := (r.headD (c, t)).2 }
      else y.updScan n fun q => { q with recent := r }
  let q := (y.slot n).pers.scan
  if q.active && decide (0 < p.b 1) && lastN (p.b 1) q.data == p.suffix_ then y.scanEnd n true false else y

/-- The gap timer is armed for a scan or a partial prefix, from the reception of the report at `t` on (R346). -/
def Sys.scanArm (n t : Nat) (y : Sys) : Sys :=
  let p := (y.slot n).pers
  if p.scan.active || !p.scan.recent.isEmpty then
    (y.armTimer n .gap t (p.h 12)).updScan n fun q => { q with gap := y.persDue t (p.h 12) }
  else y

/-- A boot keyboard report of a scanner (R345, R346). -/
def Sys.scanKbd (n : Nat) (rep : List Byte) (y : Sys) : Sys :=
  let keys := bootKeys rep
  if rollOver keys then y
  else
    let p := (y.slot n).pers
    let cs := (pressed p.scan.prev keys).filterMap fun k =>
      let c := scanChar (p.b 10) k (byteAt rep 0)
      if c = 0 then none else some (BitVec.ofNat 8 c)
    let y := y.updScan n fun q => { q with prev := keys }
    let t := y.reportAt n
    let y := each (fun c (y : Sys) => y.scanPut n c t) cs y
    if cs.isEmpty then y else y.scanArm n t

/-- A report of a point-of-sale scanner (R347). -/
def Sys.scanPos (n : Nat) (rep : PosReport) (y : Sys) : Sys :=
  let q := (y.slot n).pers.scan
  let t := y.reportAt n
  let y := y.updScan n fun q => { q with
    active := true, start := if q.data.isEmpty then t else q.start, data := q.data ++ rep.decoded,
    sym := if rep.sym2 != 0 then [rep.sym2, rep.sym3] else q.sym }
  if q.active || !rep.decoded.isEmpty || rep.cont then
    if rep.cont then y.scanArm n t else y.scanEnd n false false
  else y.updScan n fun q => { prev := q.prev }

/-- GAP_MS pass after the report of the last character (R346). -/
def Sys.scanGap (n : Nat) (y : Sys) : Sys :=
  let q := (y.slot n).pers.scan
  if q.gap = 0 || !y.timerUp n .gap then y
  else if q.active then y.scanEnd n false true
  else (y.timerOff n .gap).updScan n fun q => { q with recent := [], gap := 0 }

/-! ## Scale (R350, R351) -/

/-- A Weight Unit's milligrams in millionths, where R350 names the unit (the HID codes are PRESUMED, log 20). -/
def unitF (u : Byte) : Option Int :=
  match u.toNat with
  | 1 => some 1000000
  | 2 => some 1000000000
  | 3 => some 1000000000000
  | 11 => some 28349523125
  | 12 => some 453592370000
  | _ => none

/-- Rounded to the nearest integer, halves away from zero. -/
def roundAway (num den : Int) : Int :=
  if num < 0 then -((2 * (-num) + den) / (2 * den)) else (2 * num + den) / (2 * den)

/-- A report's weight in milligrams, where it can be converted (R350). -/
def scaleMg (r : ScaleReport) : Option Int :=
  (unitF r.unit).map fun f => roundAway (r.v * f * 10 ^ r.exp.toNat) (1000000 * 10 ^ (-r.exp).toNat)

/-- Whether a weight lies outside the MG field. -/
def scaleBig (r : ScaleReport) : Bool :=
  match scaleMg r with | some m => decide (2147483647 < m) || decide (m < -2147483647) | none => false

/-- The REASON of a status that ends a weight (R351): 2 OVER, 3 UNDER, 4 FAULT; 0 for the others. A weight outside the MG
field counts as over. -/
def scaleReason (r : ScaleReport) : Nat :=
  match r.st with
  | .over => 2
  | .under => 3
  | .fault | .calibrate | .rezero => 4
  | _ => if scaleBig r then 2 else 0

/-- Dwords 3-5 of the scale's events (R362). MG of a weight outside its field is not stated: a free value. -/
def Sys.scaleDws (y : Sys) (r : ScaleReport) : List Word :=
  let mg := if scaleBig r then Config.freeWord y.fresh else BitVec.ofInt 32 ((scaleMg r).getD 0)
  [mg, BitVec.ofInt 32 r.v,
   Word.ofN (r.unit.toNat + (BitVec.ofInt 8 r.exp).toNat * 256 + (if (unitF r.unit).isSome then 65536 else 0))]

/-- Change the scale's state. -/
def Sys.updScale (n : Nat) (f : Scale → Scale) (y : Sys) : Sys := y.updPers n fun p => { p with scale := f p.scale }

/-- WEIGHT_UNSTABLE. -/
def Sys.unstable (n reason : Nat) (r : ScaleReport) (y : Sys) : Sys :=
  let y := y.persEvent n 0x42 (y.slot n).pers.inEpid (y.reportAt n) (y.scaleDws r ++ [Word.ofN reason])
  if scaleBig r then { y with fresh := y.fresh + 1 } else y

/-- The distance of two counts. -/
def gapOf (a b : Int) : Int := if a < b then b - a else a - b

/-- on_report of R351. -/
def Sys.scaleIn (n : Nat) (r : ScaleReport) (y : Sys) : Sys :=
  let p := (y.slot n).pers
  let s := p.scale
  let shown := s.st == .stable || s.st == .zero
  if scaleReason r ≠ 0 then
    let y := if shown then y.unstable n (scaleReason r) r else y
    (y.timerOff n .stab).updScale n fun s => { s with st := .bad, cand := none }
  else
    let moving := r.st == .inMotion && p.b 10 / 2 % 2 == 0
    let runs := match s.cand with
      | some c => !moving && decide (gapOf r.v c.v ≤ (p.h 2 : Int))
      | none => false
    if runs then y.updScale n fun s => { s with cand := s.cand.map fun c => { c with last := r } }
    else
      let y :=
        if shown && (moving || decide ((p.h 2 : Int) < gapOf r.v s.shown)) then
          (y.unstable n 1 r).updScale n fun s => { s with st := .moving }
        else y
      if moving then (y.timerOff n .stab).updScale n fun s => { s with cand := none }
      else
        (y.armTimer n .stab (y.reportAt n) (p.h 0)).updScale n fun s =>
          { s with timer := s.timer + 1,
                   cand := some { v := r.v, last := r, timer := s.timer + 1, due := y.persDue (y.reportAt n) (p.h 0) } }

/-- on_timer of R351, for the candidate's timer `t`; a timer runs out once. -/
def Sys.scaleTimer (n t : Nat) (y : Sys) : Sys :=
  let p := (y.slot n).pers
  let s := p.scale
  match s.cand with
  | none => y
  | some c =>
    if c.timer ≠ t ∨ t = 0 ∨ !y.timerUp n .stab then y
    else
      let v := c.last.v
      let y := (y.timerOff n .stab).updScale n fun s => { s with cand := some { c with timer := 0 } }
      let light := match scaleMg c.last with
        | some m => decide (m < (leNat (p.seq 6 4) : Int))
        | none => false
      if gapOf v 0 ≤ (p.h 4 : Int) then
        let y := if s.st != .zero && p.b 10 % 2 == 1 then y.persEvent n 0x43 p.inEpid c.due (y.scaleDws c.last) else y
        y.updScale n fun s => { s with st := .zero, shown := v }
      else if light then y.updScale n fun s => { s with st := .light }
      else if s.st == .stable && decide (gapOf v s.shown ≤ (p.h 2 : Int)) then y
      else
        (y.persEvent n 0x41 p.inEpid c.due (y.scaleDws c.last ++ [Word.ofN (s.seq % 65536)])).updScale n fun s =>
          { s with st := .stable, shown := v, seq := s.seq + 1 }

/-! ## Keyboard (R361) -/

/-- CHAR of a press (R361): the keymap's code point with the modifiers in force; a modifier key has no character. -/
def keyPoint (map : Nat) (usage mods : Byte) : Nat :=
  if 0xE0 ≤ usage.toNat then 0 else Config.keyChar map usage mods % 2097152

/-- KEY. -/
def Sys.keyEvent (n : Nat) (usage mods : Byte) (down : Bool) (y : Sys) : Sys :=
  let p := (y.slot n).pers
  y.persEvent n 0x48 p.inEpid (y.reportAt n)
    [Word.ofN (usage.toNat + mods.toNat * 256 + (if down then 65536 else 0)),
     Word.ofN (if down then keyPoint (p.b 0) usage mods else 0)]

/-- A keyboard report (R361): modifier bits, then releases, then presses. -/
def Sys.keyIn (n : Nat) (rep : List Byte) (y : Sys) : Sys :=
  let keys := bootKeys rep
  if rollOver keys then y
  else
    let p := (y.slot n).pers
    let mods := byteAt rep 0
    let old : Byte := BitVec.ofNat 8 p.mods
    let rel := p.b 1 % 2 == 1
    let y := each (fun i (y : Sys) =>
      if mods.getLsbD i != old.getLsbD i && (mods.getLsbD i || rel) then
        y.keyEvent n (BitVec.ofNat 8 (0xE0 + i)) mods (mods.getLsbD i) else y) (List.range 8) y
    let y := if rel then each (fun k (y : Sys) => y.keyEvent n k mods false) (pressed keys p.keys) y else y
    let y := each (fun k (y : Sys) => y.keyEvent n k mods true) (pressed p.keys keys) y
    y.updPers n fun p => { p with keys := keys, mods := mods.toNat }

end Sys2Proof.Machine
end

