-- ==== Sys2Proof/Machine/Slots.lean ====
section
/-! DEFINITION. Device slots and trees: endpoints that close, what a detach and a reset of a subtree do to its devices
(R130, R266, R275, R297, R317, R389). -/

namespace Sys2Proof.Machine

/-! ## Endpoints -/

/-- A transfer is dispatched for an endpoint that always has one: a normalised IN endpoint or a hub's status-change
endpoint (R294, R330). -/
def Sys.alwaysOpen (n e : Nat) (y : Sys) : Sys :=
  let s := y.slot n
  let x : Xfer := { id := y.host.nextX, port := s.port, slot := n, epid := e, total := (s.ep e).mps, dispMf := y.mf,
                    always := true }
  { y with host := { y.host with xfers := y.host.xfers ++ [x], nextX := y.host.nextX + 1 } }

/-- CLOSE_ENDPOINT of a control or bulk endpoint (R389): what has not begun completes NOT_ASSIGNED, a begun transfer does so
at its next packet boundary. -/
def Sys.closeNow (n e : Nat) (y : Sys) : Sys :=
  let xs := y.host.xfers.filter fun x => x.slot == n && x.epid == e && x.ty != 4 && x.fin.isNone
  let y := each (fun (x : Xfer) (y : Sys) =>
    if x.always then y.endAlways x
    else if !x.begun then y.finX x.id 12
    else if x.cut.isNone then y.cutX 12 x.id
    else y) xs y
  (y.refuseTaken n e 12).updEp n e fun z => { z with open_ := false, active := false, closing := false }

/-- An endpoint closes without a commit (R389): a periodic one when its entry leaves at the port's next period start, or at
once with the hub whose TT serves it (R297). -/
def Sys.closeEp (now : Bool) (n e : Nat) (y : Sys) : Sys :=
  let p := (y.slot n).port
  let z := (y.slot n).ep e
  if z.ty == .control || z.ty == .bulk then y.closeNow n e
  else if now || z.chip then (y.chipLeave p n e).updEp n e fun z => { z with open_ := false, active := false }
  else y.markLeave p n e

/-- Every endpoint of a slot closes. -/
def Sys.closeAll (now : Bool) (n : Nat) (y : Sys) : Sys :=
  each (fun e (y : Sys) => y.closeEp now n e) (((y.slot n).eps.filter fun e => e.2.open_).map (·.1)) y

/-- A command that waits for a request to the device in slot `n` fails (R373). -/
def Sys.reqCut (n : Nat) (y : Sys) : Sys := y.decWake (· == .request n) 0x11 []

/-- A slot is freed: its context, its cached header and its binding go, and a hub's status-change entry (R297). A DEVICE_RESET that waits for its re-presentation is
answered with KEPT 0 (R377). -/
def Sys.freeSlot (n : Nat) (y : Sys) : Sys :=
  let y := each (fun (x : Xfer) (y : Sys) => y.endAlwaysNow x)
    (y.host.xfers.filter fun x => x.slot == n && x.always && x.fin.isNone) y
  let y := each (fun (e : Nat × Ep) (y : Sys) => y.chipLeave (y.slot n).port n e.1) ((y.slot n).eps.filter fun e => e.2.chip) y
  let y := { y with eng := { y.eng with slots := FMap.put {} n {} y.eng.slots, dcx := y.eng.dcx.filter (· != n) } }
  (y.reqCut n).decWake (· == .represent n) 0 [0]

/-! ## Enumerations -/

/-- The enumeration at a position. -/
def Sys.enumAt (y : Sys) (p t : Nat) : Option Enum := y.usb.enums.find? fun e => e.port == p && e.tier == t

/-- Remove the enumeration at a position. -/
def Sys.dropEnum (p t : Nat) (y : Sys) : Sys := y.updEnums fun l => l.filter fun e => !(e.port == p && e.tier == t)

/-- Change the enumeration at a position; PRG_PORT_ENUM shows a root device's. -/
def Sys.updEnum (p t : Nat) (f : Enum → Enum) (y : Sys) : Sys :=
  y.updEnums fun l => l.map fun e => if e.port == p && e.tier == t then f e else e

/-- Change a hub's downstream port. -/
def Sys.updHubPort (h hp : Nat) (f : HubPort → HubPort) (y : Sys) : Sys :=
  y.updSlot h fun s => { s with hubRec := { s.hubRec with ports := FMap.upd {} hp f s.hubRec.ports } }

/-- A hub's downstream port. -/
def Sys.hubPort (y : Sys) (h hp : Nat) : HubPort := FMap.get {} hp (y.slot h).hubRec.ports

/-- Change the hub port above a position. -/
def Sys.updPortOf (p t : Nat) (f : HubPort → HubPort) (y : Sys) : Sys :=
  match y.hubPortAt p t with
  | some (h, hp, _) => y.updHubPort h hp f
  | none => y

/-- A position's number in the order of R297: deepest first, then ascending TIERPOS. -/
def tierRank (t : Nat) : Nat := (7 - tierDepth t) * 2 ^ 28 + t % 2 ^ 25

/-- Whether a root port's state has a qualified device (R246). -/
def PortSt.device : PortSt → Bool
  | .queued | .resetting | .enabled | .suspended | .disabled => true
  | _ => false

/-- The positions at and below `t` with a device: in a slot, being enumerated, or on a disabled port without a slot
(R266). -/
def Sys.devicesUnder (y : Sys) (p t : Nat) : List Nat :=
  let inSlots := (y.eng.slots.filter fun e => e.2.used && e.2.port == p).map (·.2.tier)
  let inEnums := (y.usb.enums.filter fun e => e.port == p).map (·.tier)
  let off := y.eng.slots.flatMap fun e =>
    if e.2.used && e.2.port == p && e.2.isHub then
      (e.2.hubRec.ports.filter fun h => h.2.disabled && h.2.conn).map fun h => tierDown e.2.tier h.1
    else []
  let root := if (y.port p).st.device then [0] else []
  let ts := (inSlots ++ inEnums ++ off ++ root).filter fun u => tierUnder t u
  ((ts.map tierRank).foldl (fun l k => natIns k l) []).map fun k =>
    k % 2 ^ 25 + (7 - k / 2 ^ 28) * 2 ^ 25

/-! ## Events of a slot (R282) -/

/-- ASSIGNED and INSTANCE as DETACH carries them. -/
def Slot.asgDetach (s : Slot) : Nat := match s.inst with | some i => 16 + i * 65536 | none => 0

/-- DETACH for a device in a slot, or with SLOT 0 (R266). -/
def Sys.sendDetach (p : Nat) (n : Option Nat) (cause : Nat) (y : Sys) : Sys :=
  match n with
  | some n => y.slotEvent n (y.ev 2 n p 0 [Word.ofN (cause + (y.slot n).asgDetach)])
  | none => y.meqEvent none (y.ev 2 0 p 0 [Word.ofN cause])

/-- The interface classes that seal a device (R326). -/
def Slot.sealCls (s : Slot) : Bool :=
  s.config != 0 && (cfgIfaces (s.cfgBytes s.config)).any fun i => i.2.2.1 == 0x0B || i.2.2.1 == 0x0D

/-- Speed codes of R282. -/
def Speed.code : Speed → Nat
  | .none => 0 | .low => 1 | .full => 2 | .high => 3

/-- Dwords 3-7 of ATTACH and ENUM_DONE (R282, R328, R385). -/
def Sys.attachDws (y : Sys) (n : Nat) (represent : Bool) : List Word :=
  let s := y.slot n
  let p := y.port s.port
  let own := s.tier == 0
  let b := fun (c : Bool) (v : Nat) => if c then v else 0
  [Word.ofN (Speed.code s.speed + b represent 4 + b (own && p.hpwr) 8 + b (s.cfgDenied && s.config == 0) 16 + b s.inst.isSome 32 +
     b s.isSealed 64 + b (s.pers.code != 0) 128 + (s.inst.getD 0) * 65536),
   Word.ofN (half s.dev 8 + half s.dev 10 * 65536),
   Word.ofN (half s.dev 12 + (byteAt s.dev 4).toNat * 65536 + s.config * 16777216),
   Word.ofN s.tier,
   Word.ofN ((if own then min 255 (p.res5 / 10) else 0) + (if own then min 255 (p.resH / 50) else 0) * 256 +
     s.addr * 65536)]

/-- ATTACH to MEQ and to the tenant of an assigned slot (R111). -/
def Sys.sendAttach (n : Nat) (represent : Bool) (y : Sys) : Sys :=
  y.slotEvent n (y.ev 1 n (y.slot n).port 0 (y.attachDws n represent))

/-! ## Detach and reset of a subtree -/

/-- Whether a slot's TT hub lies at or below position `t` (R297). -/
def Sys.ttGoes (y : Sys) (n t : Nat) : Bool :=
  let s := y.slot n
  decide (0 < s.hub) && tierUnder t (y.slot s.hub).tier

/-- Detach handling of the device at one position (R266): rings, endpoints, binding, event, slot and address. -/
def Sys.detachOne (p top t cause : Nat) (y : Sys) : Sys :=
  let served := match y.slotAt p t with | some n => (y.slot n).served | none => false
  let y := y.dropEnum p t
  let y := y.updPortOf p t fun h =>
    { h with conn := false, enabled := false, deb := false, slot := 0, disabled := false, susp := .active, hold := 0,
             wakeRun := false, resetting := false, told := false }
  match y.slotAt p t with
  | some n =>
    let y := y.updSlot n fun s => { s with isHub := false, hubRec := { s.hubRec with reqs := [] } }
    let y := (y.ringSlotEvent n 9 .orphaned).closeAll (y.ttGoes n top) n
    let y := y.persEnd n
    (if served then y.sendDetach p (some n) cause else y.sendDetach p none cause).freeSlot n
  | none => y.sendDetach p none cause

/-- Detach handling of the device at position `t` and of everything behind it (R266, R297). -/
def Sys.detachTree (p t cause : Nat) (y : Sys) : Sys :=
  let hubs := (y.eng.slots.filter fun e => e.2.used && e.2.port == p && e.2.isHub && tierUnder t e.2.tier).map (·.1)
  let ts := y.devicesUnder p t
  let y := each (fun h (y : Sys) => y.updSlot h fun s => { s with hubRec := { s.hubRec with reqs := [] } }) hubs y
  each (fun u (y : Sys) => y.detachOne p t u (if u = t then cause else 8)) ts y

/-- Reset handling of the device in slot `n` (R130, R275): its rings pause, its personality follows; a
NORMALISE in progress fails, and its binding with it (R324). -/
def Sys.resetOne (n : Nat) (y : Sys) : Sys :=
  let norms := y.host.decust.cmds.any fun c => c.wait == .request n && c.op == 0x12
  let y := (y.ringSlotEvent n 8 .paused).persAtReset n
  let y := if norms then y.persEnd n else y
  let y := (y.updSlot n fun s => { s with away := true }).reqCut n
  let y := each (fun (x : Xfer) (y : Sys) => (((y.dropRsv x).rsvFree x.port x).splitDone x.port x.id).xferLeaves { x with split := {} })
    (y.host.xfers.filter fun x => x.slot == n && x.always && x.fin.isNone) y
  y.mapX fun x => if x.slot == n && x.always && x.fin.isNone then
    { x with strikes := 0, recvd := 0, begun := false, rxDone := false } else x

/-- What is kept of a hub's ports when the hub is reset: when each last had a tree fault (R316). -/
def portsAfter (l : FMap HubPort) : FMap HubPort :=
  (l.filter fun h => decide (0 < h.2.faultAt)).map fun h => (h.1, { faultAt := h.2.faultAt })

/-- Reset handling of position `t` and of everything behind it (R275, R297, R317): hubs lose what they held, their
status-change entries and the split entries of their TTs leave at once, and what was being enumerated starts over. Devices are
handled deepest first, then in ascending TIERPOS. -/
def Sys.resetTree (p t : Nat) (y : Sys) : Sys :=
  let ns := (y.slotsOf p).filter fun n => tierUnder t (y.slot n).tier
  let live := (y.devicesUnder p t).filterMap (y.slotAt p) |>.filter fun n => (y.slot n).served
  let hubs := live.filter fun n => byteAt (y.slot n).dev 4 == 9
  let split := live.filter fun n => y.ttGoes n t
  let y := each (fun h (y : Sys) => y.updSlot h fun s =>
    { s with isHub := false, hubRec := { nports := s.hubRec.nports, ttThink := s.hubRec.ttThink,
                                         selfPow := s.hubRec.selfPow, pgMs := s.hubRec.pgMs, ports := portsAfter s.hubRec.ports } })
    hubs y
  let y := each (fun n (y : Sys) => y.resetOne n) live y
  let y := each (fun n (y : Sys) => each (fun e (y : Sys) =>
    if ((y.slot n).ep e).ty == .interrupt || ((y.slot n).ep e).ty == .isoch then y.closeEp true n e else y)
    (((y.slot n).eps.filter fun e => e.2.open_).map (·.1)) y) split y
  let y := each (fun h (y : Sys) => each (fun e (y : Sys) => y.closeEp true h e)
    (((y.slot h).eps.filter fun e => e.2.chip).map (·.1)) y) hubs y
  let y := y.updEnums fun l => l.filter fun e => !(e.port == p && tierUnder t e.tier)
  each (fun n (y : Sys) => if (y.slot n).used && !(y.slot n).served then y.freeSlot n else y) ns y

end Sys2Proof.Machine
end

