-- ==== Sys2Proof/Machine/Power.lean ====
section
/-! DEFINITION. Port profiles, rail budgets, the power ledger and its pending lists, and the stepped switching of VBUSEN
and HPWREN (R248-R261). -/

namespace Sys2Proof.Machine

/-! ## Profiles and budgets (R253, R254) -/

/-- Port `p`'s profile in its NV register, as last accepted (R255). -/
def Sys.nvProfile (y : Sys) (p : Nat) : Word := y.nv.last p

/-- RAIL; 3 is treated as 0. -/
def profRail (w : Word) : Nat := if w.fld 3 2 = 3 then 0 else w.fld 3 2
/-- OCPOL; 3 is treated as 0. -/
def profPol (w : Word) : Nat := if w.fld 7 6 = 3 then 0 else w.fld 7 6
/-- I5_MAX in mA. -/
def profI5 (w : Word) : Nat := if w.fld 15 8 = 0 then 500 else 10 * w.fld 15 8
/-- IH_MAX in mA. -/
def profIH (w : Word) : Nat := 50 * w.fld 23 16
/-- OC_HOLD in measurements. -/
def profHold (w : Word) : Nat := if w.fld 27 24 = 0 then 8 else w.fld 27 24
/-- Whether the profile gives the port a high-power reservation. -/
def profHigh (w : Word) : Bool := profRail w != 0 && profIH w != 0
/-- The base reservation (R257). -/
def baseMa (w : Word) : Nat := min 100 (profI5 w)

/-- Nominal volts of a rail (R252). -/
def railV (r : Nat) : Nat := if r = 0 then 5 else if r = 1 then 12 else 24

/-- mA reserved on a rail (R256). -/
def Sys.railUse (y : Sys) (r : Nat) : Nat :=
  y.usb.ports.foldl (fun a e => if r = 0 then a + e.2.res5 else if profRail e.2.prof = r then a + e.2.resH else a) 0

/-- 5 V mA reserved by region `n`'s ports. -/
def Sys.regionUse (y : Sys) (n : Nat) : Nat :=
  y.usb.ports.foldl (fun a e => if e.1 / 16 = n then a + e.2.res5 else a) 0

/-- Reserved power in mW. -/
def Sys.storeUse (y : Sys) : Nat := 5 * y.railUse 0 + 12 * y.railUse 1 + 24 * y.railUse 2

/-- A rail's budget in mA. -/
def Sys.railBudget (y : Sys) (r : Nat) : Nat :=
  let v := (y.nv.last (256 + r)).fld 19 0
  if r = 0 ∧ v = 0 then 64000 else v

/-- The profile that counts for a port (R248): in OFF the NV register's, which takes effect at the transition to POWERED. -/
def Sys.profOf (y : Sys) (p : Nat) : Word := if (y.port p).st == .off then y.nvProfile p else (y.port p).prof

/-- Headroom in mA under each limit of R258 that applies, by LIMIT code: 1 PROFILE, 2 REGION, 3 RAIL, 4 STORE. -/
def Sys.headroom (y : Sys) (p r : Nat) : List (Nat × Int) :=
  let rb := (y.nv.last (260 + p / 16)).fld 19 0
  let st := (y.nv.last 259).fld 15 0
  (if r = 0 then [(1, (profI5 (y.profOf p) : Int) - (y.port p).res5),
                  (2, (if rb = 0 then 8000 else (rb : Int)) - y.regionUse (p / 16))] else []) ++
  [(3, (y.railBudget r : Int) - y.railUse r)] ++
  (if st = 0 then [] else [(4, ((st : Int) * 1000 - y.storeUse) / railV r)])

/-- The first budget that `amount` more would break (first_broken of R260), with its headroom. -/
def Sys.firstBroken (y : Sys) (p r amount : Nat) : Option (Nat × Int) :=
  (y.headroom p r).find? fun h => h.1 != 1 && decide (h.2 < amount)

/-- AVAIL: headroom in mA, not below 0. -/
def availOf (h : Int) : Nat := h.toNat

/-! ## Requests and passes (R257-R260) -/

/-- Reserve, or release with a negative amount. -/
def Sys.reserve (p r : Nat) (amount : Int) (y : Sys) : Sys :=
  y.updPort p fun q => if r = 0 then { q with res5 := ((q.res5 : Int) + amount).toNat }
    else { q with resH := ((q.resH : Int) + amount).toNat }

/-- KIND codes of POWER_DENIED. -/
def PwKind.code : PwKind → Nat
  | .base => 0 | .config => 1 | .high => 2

/-- POWER_DENIED for a position's slot (R282); PRG_PORT_CHG.DENIED. -/
def Sys.powerDenied (p n r lim st kind req avail : Nat) (y : Sys) : Sys :=
  (y.setBit (lnkPg p) 0x44 4).slotEvent n (y.ev 7 n p 0
    [Word.ofN (r + lim * 4 + st * 64 + kind * 256), Word.ofN (req % 1048576), Word.ofN (avail % 1048576)])

/-- A rail's pending list. -/
def Sys.pendList (y : Sys) (r : Nat) : List PwReq := FMap.get [] r y.usb.power.pend

/-- Change a rail's pending list. -/
def Sys.setPend (r : Nat) (l : List PwReq) (y : Sys) : Sys :=
  y.updPower fun w => { w with pend := FMap.put [] r l w.pend }

/-- Whether a request of port `p` is pending (PRG_PORT_STAT.PEND), on the rails `rs`. -/
def Sys.pending (y : Sys) (p : Nat) (rs : List Nat) : Bool := rs.any fun r => (y.pendList r).any fun q => q.port == p

/-- Insertion into a rising list without repeats. -/
def riseIns (a : Nat) (l : List Nat) : List Nat := natIns a l

/-- VBUSEN rises. -/
def Sys.vbusUp (p : Nat) (y : Sys) : Sys := y.updPort p fun q => { q with vbus := true, pg := false }

/-- VBUSEN of port `p` is to rise, in ascending k among the ports of its region that wait (R261). -/
def Sys.vbusLater (p : Nat) (y : Sys) : Sys :=
  y.updPower fun w => { w with stag5 := FMap.upd [] (p / 16) (riseIns p) w.stag5 }

/-- Where no spacing of region `n` runs, its first waiting VBUSEN rises (R261); while PRGn is not ON the levels hold (R250). -/
def Sys.vbusKick (n : Nat) (y : Sys) : Sys :=
  if FMap.get false n y.usb.power.stag5Run || !y.on n then y
  else
    match FMap.get [] n y.usb.power.stag5 with
    | p :: r => (y.updPower fun w =>
        { w with stag5 := FMap.put [] n r w.stag5, stag5Run := FMap.put false n true w.stag5Run }).vbusUp p
    | [] => y

/-- VBUSEN is to rise: at once where no spacing of the region runs, else at a later step, in ascending k (R261). -/
def Sys.vbusWant (p : Nat) (y : Sys) : Sys :=
  if FMap.get false (p / 16) y.usb.power.stag5Run || !y.on (p / 16) then y.vbusLater p
  else (y.vbusUp p).updPower fun w => { w with stag5Run := FMap.put false (p / 16) true w.stag5Run }

/-- VBUSEN falls, or its step is withdrawn. -/
def Sys.vbusDown (p : Nat) (y : Sys) : Sys :=
  (y.updPort p fun q => { q with vbus := false, pg := false, conn := false }).updPower fun w =>
    { w with stag5 := FMap.upd [] (p / 16) (·.filter (· != p)) w.stag5 }

/-- A printer's flow is told that its port's HPWREN has changed (R353). -/
def Sys.hpwrNotice (p : Nat) (y : Sys) : Sys :=
  let n := (y.port p).slot
  if (y.slot n).pers.code = 4 then y.notify n 0 true else y

/-- HPWREN rises. -/
def Sys.hpwrUp (p : Nat) (y : Sys) : Sys := (y.updPort p fun q => { q with hpwr := true }).hpwrNotice p

/-- Where no spacing runs, the first waiting HPWREN whose PRGn is ON rises (R250, R261). -/
def Sys.hpwrKick (y : Sys) : Sys :=
  if y.usb.power.stagHRun then y
  else
    match y.usb.power.stagH.find? fun p => y.on (p / 16) with
    | some p => (y.updPower fun w => { w with stagH := w.stagH.filter (· != p), stagHRun := true }).hpwrUp p
    | none => y

/-- HPWREN is to rise: at least 5 ms after the chip's last, in grant order (R261). -/
def Sys.hpwrWant (p : Nat) (y : Sys) : Sys := (y.updPower fun w => { w with stagH := w.stagH ++ [p] }).hpwrKick

/-- HPWREN falls, or its step is withdrawn. -/
def Sys.hpwrDown (p : Nat) (y : Sys) : Sys :=
  let was := (y.port p).hpwr
  let y := (y.updPort p fun q => { q with hpwr := false }).updPower fun w => { w with stagH := w.stagH.filter (· != p) }
  if was then y.hpwrNotice p else y

/-- A port enters POWERED (R246, R248, R253): its profile takes effect, and a POWER_ON command is answered (R377). -/
def Sys.portUp (p : Nat) (y : Sys) : Sys :=
  let w := y.nvProfile p
  let y := (y.updPort p fun q => { q with st := .powered, prof := w }).decWake (· == .powered p) 0 [Word.ofN 1]
  if (w.fld 3 2 != 0 && w.fld 23 16 == 0) || w.fld 3 2 == 3 then y.recordErr (pwrPg (p / 16)) 9 (p % 16) else y

/-- SET_CONFIGURATION of an enumeration is issued (step 8 of R267). -/
def Sys.enumSetConfig (p t : Nat) (y : Sys) : Sys :=
  match y.enumAt p t with
  | none => y
  | some e =>
    let v := (byteAt (e.cfgs.getD e.cfg []) 5).toNat
    let y := y.updEnum p t fun e => { e with st := .running, step := 8, sub := 0, tries := 0 }
    let y := if t = 0 then y.updPort p fun q => { q with step := 8 } else y
    y.issue 0 p t (setupPkt 0 9 v 0 0) []

/-- SET_CONFIGURATION of a SELECT_CONFIG whose grant has come (R391). -/
def Sys.selectGranted (p : Nat) (y : Sys) : Sys :=
  each (fun (c : DCmd) (y : Sys) =>
    let n := c.f 1 13 0
    (y.updCmd c.seq fun c => { c with wait := .request n }).reqTo 3 n (setupPkt 0 9 (c.f 1 23 16) 0 0) [])
    (y.host.decust.cmds.filter fun c => c.wait == .grant p) y

/-- What a granted request lets go on (R246, R257, R270): the port powers on, an enumeration goes on, or HPWREN is to
rise. -/
def Sys.granted (p : Nat) (k : PwKind) (y : Sys) : Sys :=
  match k with
  | .base =>
    if (y.port p).st == .off then (y.portUp p).vbusLater p
    else y.updEnum p 0 fun e => if e.st == .baseWait then { e with st := .queued, first := true } else e
  | .config =>
    match y.enumAt p 0 with
    | some e => if e.st == .powerWait then y.enumSetConfig p 0 else y
    | none => y.selectGranted p
  | .high => y.hpwrWant p

/-- A rail's part of a pass (R260): its head is granted while it fits. -/
def Sys.passRail (fuel r : Nat) (y : Sys) : Sys :=
  match fuel with
  | 0 => y
  | fuel + 1 =>
    match y.pendList r with
    | [] => y
    | q :: rest =>
      if (y.firstBroken q.port r q.amount).isSome then y
      else
        let y := (y.setPend r rest).reserve q.port r q.amount
        let y := y.powerDenied q.port (y.port q.port).slot r q.lim 1 q.kind.code q.amount q.avail
        (y.granted q.port q.kind).passRail fuel r

/-- A pending-list pass (R260); the VBUSENs of the ports that it powers rise in ascending k (R261). -/
def Sys.pass (y : Sys) : Sys :=
  let y := y.passRail (y.pendList 0).length 0
  let y := y.passRail (y.pendList 1).length 1
  let y := y.passRail (y.pendList 2).length 2
  each (fun n (y : Sys) => y.vbusKick n) (List.range 8) y

/-- How a request came out (R260). -/
inductive PwRes where
  | granted | refused | pending
  deriving DecidableEq, Repr

/-- A request inside the profile limit: granted, or appended to the rail's list. -/
def Sys.powerGo (p r a : Nat) (k : PwKind) (n : Nat) (hs : List (Nat × Int)) (y : Sys) : PwRes × Sys :=
  let b := y.firstBroken p r a
  if (y.pendList r).isEmpty && b.isNone then (.granted, y.reserve p r a)
  else
    let lim := match b with | some h => h.1 | none => 5
    let av := match b with
      | some h => availOf h.2
      | none => availOf (hs.foldl (fun m h => min m h.2) 1048575)
    let y := y.setPend r (y.pendList r ++ [{ port := p, amount := a, kind := k, lim := lim, avail := av }])
    (.pending, y.powerDenied p n r lim 0 k.code a av)

/-- request of R260. -/
def Sys.powerReq (p r : Nat) (amount : Int) (k : PwKind) (y : Sys) : PwRes × Sys :=
  if amount ≤ 0 then
    let y := y.reserve p r amount
    (.granted, if amount < 0 then y.pass else y)
  else
    let a := amount.toNat
    let n := (y.port p).slot
    let hs := y.headroom p r
    let prof := if r = 0 then (hs.find? fun h => h.1 == 1).map (·.2) else none
    match prof with
    | some h =>
      if h < amount then (.refused, y.powerDenied p n r 1 2 k.code a (availOf h))
      else y.powerGo p r a k n hs
    | none => y.powerGo p r a k n hs

/-- Pending requests of port `p`, those of kinds `f`, are withdrawn with POWER_DENIED STATE 2, and a pass runs (R260). -/
def Sys.withdrawIf (p : Nat) (f : PwKind → Bool) (y : Sys) : Sys :=
  if [0, 1, 2].any fun r => (y.pendList r).any fun q => q.port == p && f q.kind then
    let y := each (fun r (y : Sys) =>
      let mine := (y.pendList r).filter fun q => q.port == p && f q.kind
      let y := y.setPend r ((y.pendList r).filter fun q => !(q.port == p && f q.kind))
      each (fun (q : PwReq) (y : Sys) => y.powerDenied p (y.port p).slot r q.lim 2 q.kind.code q.amount q.avail) mine y)
      [0, 1, 2] y
    let y := y.decWake (· == .grant p) 0x11 []
    (if f .base then y.decWake (· == .powered p) 0x05 [] else y).pass
  else y

/-- Every pending request of port `p` is withdrawn (R260). -/
def Sys.withdraw (p : Nat) (y : Sys) : Sys := y.withdrawIf p fun _ => true

/-- What is asked for a device's configuration and high power is withdrawn; the base request stays (R257, R273). -/
def Sys.withdrawDev (p : Nat) (y : Sys) : Sys := y.withdrawIf p (· != .base)

/-- Every reservation of a port is released (R257). -/
def Sys.releaseAll (p : Nat) (y : Sys) : Sys := (y.updPort p fun q => { q with res5 := 0, resH := 0 }).pass

/-- The high-power contact is switched off and its reservation released (R257). -/
def Sys.highOff (p : Nat) (y : Sys) : Sys := (((y.hpwrDown p).updPort p fun q => { q with resH := 0 }).pass)

/-- The 5 V reservation returns to the base (R257): at once where that lowers it, as a request where it raises it. -/
def Sys.toBase (p : Nat) (y : Sys) : PwRes × Sys :=
  y.powerReq p 0 ((baseMa (y.port p).prof : Int) - (y.port p).res5) .base

/-- Power on a detach that keeps the port powered (R257, R260): pending requests withdrawn, high power off, the base
reservation restored. -/
def Sys.detachPower (p : Nat) (y : Sys) : Sys := (((y.withdraw p).highOff p).toBase p).2

/-- Whether port `p`'s link cell or FIFO pair has halted: the port stays OFF until a reset (R560, R561). -/
def Sys.cellHalt (y : Sys) (p : Nat) : Bool := y.halted (lnkPg p) || y.halted (fifPg p)

/-- A power-on is requested (R246, R257): the port enters POWERED on the grant, and stays OFF with PEND = 1 otherwise. -/
def Sys.powerOnReq (p : Nat) (y : Sys) : Sys :=
  if (y.port p).st != .off || y.pending p [0] || (y.nvProfile p).bit 0 || y.cellHalt p then y
  else
    match y.powerReq p 0 ((baseMa (y.nvProfile p) : Int) - (y.port p).res5) .base with
    | (.granted, y) => (y.portUp p).vbusWant p
    | (_, y) => y

/-- What a ball shows (R45): floating while the domain that drives it is OFF. -/
inductive PinLevel where
  | low | high | floating
  deriving DecidableEq, Repr

/-- An output ball of domain `d` that drives `b`. -/
def Sys.ball (y : Sys) (d : Nat) (b : Bool) : PinLevel :=
  if (y.dom d).st == .off then .floating else if b then .high else .low

/-- An output ball with boundary cell `i` (R589-R591): while a boundary test acts, EXTEST and CLAMP drive it from its cell and HIGHZ
releases it; else it is as its domain drives it. -/
def Sys.scanned (y : Sys) (i : Nat) (l : PinLevel) : PinLevel :=
  if !y.jtag.acting then l
  else match y.jtag.ir with
    | .extest | .clamp => if y.jtag.bound.getD i false then .high else .low
    | .highz => .floating
    | _ => l

/-- The first boundary cell of port `p` (R590). -/
def portCell (p : Nat) : Nat := 10 + 52 * (p / 16) + 3 * (p % 16)

/-- VBUSEN of port `p` at the balls (R45, R590). -/
def Sys.vbusPin (y : Sys) (p : Nat) : PinLevel := y.scanned (portCell p) (y.ball (p / 16) (y.port p).vbus)

/-- HPWREN of port `p` at the balls (R45, R590). -/
def Sys.hpwrPin (y : Sys) (p : Nat) : PinLevel := y.scanned (portCell p + 1) (y.ball (p / 16) (y.port p).hpwr)

/-- The port index that ISEL[3:0] of region `n` selects at the balls (R249, R251): port k from 62.5 × k µs into each millisecond of the
timebase while PRGn is ON and MEAS_EN = 1, and in a boundary test what its cells hold (R590). What it holds otherwise is not stated:
a free value (DESIGN CHOICE, log 122). -/
def Sys.iselPin (y : Sys) (n : Nat) : Option Nat :=
  if (y.dom n).st == .off then none
  else if y.jtag.acting then
    if (List.range 4).any fun b => y.scanned (6 + 52 * n + b) .low == .floating then none
    else some ((List.range 4).foldl (fun a b => if y.scanned (6 + 52 * n + b) .low == .high then a + 2 ^ b else a) 0)
  else if y.on n && (y.pgReg (pwrPg n) 0x40).bit 20 then some (y.tb % 1000 * 2 / 125)
  else some ((Config.freeWord y.fresh).toNat % 16)

end Sys2Proof.Machine
end

