-- ==== Sys2Proof/Machine/Admit.lean ====
section
/-! DEFINITION. Periodic admission (R156-R162, R294, R300-R302): the entry an endpoint gets in a set of tables. -/

namespace Sys2Proof.Machine

/-- log2 of an endpoint's period of R159: in microframes on a high-speed device, in frames otherwise. -/
def Sys.epPlog2 (y : Sys) (n : Nat) (iso : Bool) (bInterval : Nat) : Nat :=
  perLog2 ((y.slot n).speed == .high) iso bInterval

/-- The think time of a TT hub (R300). -/
def Sys.ttThink (y : Sys) (h : Nat) : Nat := (y.slot h).hubRec.ttThink

/-- The hub on which a slot's device sits: its parent. -/
def Sys.parentHub (y : Sys) (n : Nat) : Nat := (y.slotAt (y.slot n).port (tierUp (y.slot n).tier)).getD 0

/-- Admission of a periodic endpoint against the tables `ts` at once (R162, R301). `plog2` counts microframes for a
high-speed device and frames otherwise. -/
def Sys.admitEp (y : Sys) (ts : List (FMap PtEnt)) (n e : Nat) (iso : Bool) (mps mult plog2 : Nat) (chip : Bool) :
    Option PtEnt :=
  let s := y.slot n
  let p := s.port
  let isIn := epIn e
  let base : PtEnt := { valid := true, dirIn := isIn, slot := n, epid := e, mps := mps,
                        inst := if chip then 0 else s.inst.getD 0, chip := chip }
  if y.splits n then
    let ls := s.speed == .low
    let pre := if ls && y.parentHub n != s.hub then 42 else 0
    admitSplit ts s.hub (if (y.slot s.hub).hubRec.multi then s.hubPort else 0) (2 ^ min 12 plog2)
      (cTt ls iso isIn mps (y.ttThink s.hub) pre) { base with kind := if iso then 3 else 2 }
  else
    let bt := y.btOf n
    let sp := (y.port p).speed
    let m := if sp == .high then mult else 1
    let c := if iso then (if isIn then chargeIsoIn bt mps else chargeIsoOut bt mps)
      else if isIn then chargeIn bt mps else chargeOutD bt (dataW bt mps)
    admitPhase ts (perCap sp) { base with kind := if iso then 1 else 0, mult := m, plog2 := min 15 plog2,
                                          charge := m * (c + prepAdm sp) }

/-- The entries of region `n`'s tables in copy `f`. -/
def Sys.regionEntries (y : Sys) (n : Nat) (f : PTab → FMap PtEnt) : Nat :=
  (List.range 16).foldl (fun a k => a + (f (y.ptab (16 * n + k))).length) 0

/-- Whether port `p`'s tables and its region's can hold one more entry (R157). -/
def Sys.tableRoom (y : Sys) (p : Nat) (f : PTab → FMap PtEnt) : Bool :=
  decide ((f (y.ptab p)).length < 1024) && decide (y.regionEntries (p / 16) f < 4096)

/-- Whether the captured table of port `p`, and its region's tables with what is captured in place of the active copy, can hold one more
entry (R157, R183). -/
def Sys.captureRoom (y : Sys) (p : Nat) : Bool :=
  let cap := fun (q : Nat) => match y.host.capTabs.find? fun c => c.1 == q with | some c => c.2 | none => (y.ptab q).act
  decide ((cap p).length < 1024) &&
    decide ((List.range 16).foldl (fun a k => a + (cap (16 * (p / 16) + k)).length) 0 < 4096)

end Sys2Proof.Machine
end

