-- ==== Sys2Proof/Machine/Tree.lean ====
section
/-! DEFINITION. Trees behind root ports: suspend and resume (R309-R315, R319-R320), the detach and the reset of a subtree
as a whole (R266, R275, R297, R317), and the containment of tree faults (R316). -/

namespace Sys2Proof.Machine

/-! ## What is still to be sent on a tree (R310, R313, R316) -/

/-- Whether SET_FEATURE(DEVICE_REMOTE_WAKEUP) is still to be sent, or answered, at or below position `t` (R310). -/
def Sys.arming (y : Sys) (p t : Nat) : Bool :=
  let arm := fun (s : List Byte) => s.take 4 == (setupPkt 0 3 1 0 0).take 4
  y.host.xfers.any (fun x => x.port == p && x.fin.isNone && arm x.setup &&
    (match x.chip with | some d => d.free && tierUnder t d.tier | none => false)) ||
    y.eng.holly.ctlWait.any fun r => r.port == p && r.free && arm r.setup && tierUnder t r.tier

/-- SET_FEATURE(PORT_SUSPEND) goes to the hub of a SUSPENDING hub port once nothing is left to be armed behind it (R310). -/
def Sys.suspAsk (p h hp : Nat) (y : Sys) : Sys :=
  if y.arming p (tierDown (y.slot h).tier hp) then y
  else (y.updHubPort h hp fun q => { q with told := true }).hubReq h (.portSuspend hp) (setupPkt 0x23 3 2 hp 0)

/-- The hub ports of a tree whose suspend has still to be asked for. -/
def Sys.suspUnasked (y : Sys) (p : Nat) : List (Nat × Nat) :=
  y.eng.slots.flatMap fun e =>
    if e.2.used && e.2.port == p then
      (e.2.hubRec.ports.filter fun h => h.2.susp == .suspending && !h.2.told).map fun h => (e.1, h.1)
    else []

/-- RWAKE for the device at `t`, whose wake resumes the port at `u`, stamped with the moment its K was qualified (R312, R320). -/
def Sys.sendRwake (p t u : Nat) (mo : Nat × Nat) (y : Sys) : Sys :=
  match y.slotAt p t with
  | some n => y.slotEvent n { y.ev 8 n p 0 [Word.ofN t, Word.ofN u] with mf := mo.1, us := mo.2 }
  | none => y.meqEvent none { y.ev 8 0 p 0 [Word.ofN t, Word.ofN u] with mf := mo.1, us := mo.2 }

/-- The RWAKE of a remote wake that no host-driven resume has absorbed is sent (R313). -/
def Sys.rwakeOut (p : Nat) (y : Sys) : Sys :=
  let q := y.port p
  if q.susp == .resuming && q.wakePend != 0 then
    (y.updPort p fun q => { q with wakePend := 0 }).sendRwake p (q.wakePend - 1) 0 (q.wakeMf, q.wakeUs)
  else y

/-- The endpoints of a tree's hubs that the chip owns and that have halted. -/
def Sys.hubsHalted (y : Sys) (p : Nat) : List (Nat × Nat) :=
  y.eng.slots.flatMap fun e =>
    if e.2.used && e.2.port == p then (e.2.eps.filter fun z => z.2.chip && z.2.halted).map fun z => (e.1, z.1) else []

/-! ## Resume (R311-R314, R320) -/

/-- Every slot at or below a position, ascending. -/
def Sys.under (y : Sys) (p t : Nat) : List Nat := (y.slotsOf p).filter fun n => tierUnder t (y.slot n).tier

/-- The distinct instances to which slots are assigned. -/
def Sys.tenantsOf (y : Sys) (ns : List Nat) : List Nat := (ns.filterMap fun n => (y.slot n).inst).dedup

/-- RESUME_DONE for the port at position `t`, to MEQ and to the tenants of the subtree's assigned slots (R311, R320). It answers
a RESUME command (R377). -/
def Sys.resumeDone (p t kind result : Nat) (rw : Bool) (y : Sys) : Sys :=
  let n := (y.slotAt p t).getD 0
  let e := { y.ev 9 n p 0 [Word.ofN t, Word.ofN (kind + result * 2)] with rw := rw }
  (each (fun i (y : Sys) => y.tenantEvent i e) (y.tenantsOf (y.under p t)) (y.meqEvent none e)).decWake (· == .resumed p t) 0
    [if rw then 1 else 0]

/-- The resume of port `p` itself is cut short: RESUME_DONE with its RESULT, and the port's suspend state is ACTIVE. -/
def Sys.rootCut (p result : Nat) (y : Sys) : Sys :=
  let y := y.rwakeOut p
  let q := y.port p
  let y := if q.susp == .resuming then y.resumeDone p 0 (if q.wakeRun then 1 else 0) result q.rwSeen else y
  y.updPort p fun q => { q with susp := .active, hold := 0, wakeRun := false, wakePend := 0 }

/-- The hub ports at or below position `t` (as hub slot and port) that are not ACTIVE. -/
def Sys.quietPorts (y : Sys) (p t : Nat) : List (Nat × Nat × HubPort) :=
  y.eng.slots.flatMap fun e =>
    if e.2.used && e.2.port == p then
      (e.2.hubRec.ports.filter fun h => h.2.susp != .active && tierUnder t (tierDown e.2.tier h.1)).map fun h => (e.1, h)
    else []

/-- As `rootCut`, for every port at or below position `t`. A SUSPEND or RESUME command that waits for one of them fails. -/
def Sys.resumeCut (p t result : Nat) (y : Sys) : Sys :=
  let y := each (fun (k : Nat × Nat × HubPort) (y : Sys) =>
    let h := k.2.2
    let y := if h.susp == .resuming then
        y.resumeDone p (tierDown (y.slot k.1).tier k.2.1) (if h.wakeRun then 1 else 0) result h.rwSeen
      else y
    y.updHubPort k.1 k.2.1 fun h => { h with susp := .active, hold := 0, wakeRun := false, told := false })
    (y.quietPorts p t) y
  (if t = 0 then y.rootCut p result else y).decWake (fun w =>
    match w with
    | .suspended q u | .resumed q u => q == p && tierUnder t u
    | _ => false) 0x11 []

/-- Detach handling of a subtree, its resumes cut short (R266, R320). PORT_CMD waits no more for a request to a hub in it (R377). -/
def Sys.dropTree (p t cause : Nat) (y : Sys) : Sys :=
  ((y.resumeCut p t 2).detachTree p t cause).decWake (fun w =>
    match w with
    | .portReq q u => q == p && tierUnder t u && u != t
    | _ => false) 0x11 []

/-! ## Resets on command and disabled ports (R246, R275, R316) -/

/-- What PRG_PORT_STAT and PRG_PORT_ENUM show of a device that has gone. -/
def Sys.rootClear (p : Nat) (y : Sys) : Sys :=
  y.updPort p fun q => { q with slot := 0, addr := 0, config := 0, slotWait := false }

/-- A root port enters DISABLED: it sends no SOF, the device stays powered. -/
def Sys.portDisable (p : Nat) (y : Sys) : Sys :=
  (y.sofStop p).updPort p fun q => { q with st := .disabled, susp := .active, hold := 0, slotWait := false, test := 0, testClr := false }

/-- A hub port is disabled by CLEAR_FEATURE(PORT_ENABLE). -/
def Sys.hubPortDisable (p t : Nat) (y : Sys) : Sys :=
  match y.hubPortAt p t with
  | some (h, hp, _) =>
    (y.updHubPort h hp fun q => { q with disabled := true, conn := true, enabled := false, resetting := false }).reqFree h
      (setupPkt 0x23 1 1 hp 0)
  | none => y

/-- The place in the attach order of a debounce that ends now (R264). -/
def Sys.attachKey (y : Sys) (p : Nat) : Nat := y.tb / 125 * 128 + p

/-- The place in the attach order of the device at a position: that of its last debounce (R264). -/
def Sys.keyAt (y : Sys) (p t : Nat) : Nat :=
  if t = 0 then (y.port p).attKey else match y.hubPortAt p t with | some (_, _, h) => h.attKey | none => y.attachKey p

/-- A device in service is queued for re-presentation (R276). -/
def Sys.queueAgain (p t n : Nat) (y : Sys) : Sys :=
  let s := y.slot n
  y.updEnums fun l => l ++ [{ port := p, tier := t, order := y.keyAt p t, attempt := 0, slot := n, addr := s.addr,
                              speed := s.speed, represent := true }]

/-- A device is queued for enumeration as new; `r`: how the return to the base reservation came out (R257). -/
def Sys.queueNew (p t : Nat) (r : PwRes) (y : Sys) : Sys :=
  y.updEnums fun l => l ++ [{ port := p, tier := t, order := y.keyAt p t, attempt := 0,
                              st := if r = .pending then .baseWait else .queued }]

/-- Reset on command of a root port: VBUSEN, HPWREN and the reservations stay (R273); what an enumeration that it ends had asked
for is withdrawn (DEDUCED, log 69). -/
def Sys.requeueRoot (p : Nat) (old : Option Nat) (y : Sys) : Sys :=
  let y := match old with
    | some n => y.queueAgain p 0 n
    | none => ((y.rootClear p).withdrawDev p).queueNew p 0 .granted
  y.updPort p fun q => { q with st := .queued, slotWait := false, attempt := 0, test := 0, testClr := false }

/-- Reset on command of the hub port at `t`. -/
def Sys.requeueHub (p t : Nat) (old : Option Nat) (y : Sys) : Sys :=
  let y := match old with
    | some n => y.queueAgain p t n
    | none => y.queueNew p t .granted
  y.updPortOf p t fun h =>
    { h with conn := true, disabled := false, enabled := false, resetting := false, deb := false }

/-- A port's reset on command (R275, R276, R317): what is behind it gets reset handling at once, a device in service is
queued for re-presentation, any other is enumerated as new. -/
def Sys.requeue (p t : Nat) (y : Sys) : Sys :=
  let y := y.resumeCut p t 1
  let old := (y.slotAt p t).filter fun n => (y.slot n).served
  let y := y.resetTree p t
  if t = 0 then y.requeueRoot p old else y.requeueHub p t old

/-- A port is disabled with detach handling, cause DISABLE. -/
def Sys.disableAt (p t : Nat) (y : Sys) : Sys :=
  let y := y.dropTree p t 4
  if t = 0 then ((y.rootClear p).detachPower p).portDisable p else y.hubPortDisable p t

/-- Whether a port can be reset or disabled: a root port by R246; a hub port with a device. -/
def Sys.resettable (y : Sys) (p t : Nat) : Bool :=
  if t = 0 then
    match (y.port p).st with
    | .enabled | .suspended | .disabled => true
    | _ => false
  else
    match y.hubPortAt p t with
    | some (_, _, h) => h.conn && !h.resetting &&
        (match y.enumAt p t with | some e => e.st != .queued | none => true)
    | none => false

/-- The time of the last tree fault on a port, plus one. -/
def Sys.lastFault (y : Sys) (p t : Nat) : Nat :=
  if t = 0 then (y.port p).faultAt else match y.hubPortAt p t with | some (_, _, h) => h.faultAt | none => 0

/-- A fault contained at the port at position `t` (R316): it is reset, or, at the second such event within 10 s, disabled. -/
def Sys.treeFault (p t : Nat) (y : Sys) : Sys :=
  if !y.resettable p t then y
  else
    let f := y.lastFault p t
    let again := decide (0 < f) && decide (y.tb < f - 1 + 10000000)
    let y := if t = 0 then y.updPort p fun q => { q with faultAt := y.tb + 1 }
      else y.updPortOf p t fun h => { h with faultAt := y.tb + 1 }
    if again then y.disableAt p t else (y.incFld (lnkPg p) 0x5C 27 24).requeue p t

/-- Three strikes on status-change endpoints that had not halted before: the port above each such hub is reset (R316). -/
def Sys.strikeFaults (p : Nat) (before : List (Nat × Nat)) (y : Sys) : Sys :=
  each (fun (k : Nat × Nat) (y : Sys) => if ((y.slot k.1).ep k.2).halted then y.treeFault p (y.slot k.1).tier else y)
    ((y.hubsHalted p).filter fun k => !before.contains k) y

/-! ## Suspend and resume (R309-R315) -/

/-- SET_FEATURE(DEVICE_REMOTE_WAKEUP) to each device of a subtree whose configuration advertises it (R310). -/
def Sys.armWake (p t : Nat) (y : Sys) : Sys :=
  each (fun n (y : Sys) =>
    let s := y.slot n
    if s.config != 0 && Nat.testBit (byteAt (s.cfgBytes s.config) 7).toNat 5 then y.reqFree n (setupPkt 0 3 1 0 0) else y)
    (y.under p t) y

/-- The port at `t` enters SUSPENDING (R310): what the devices behind it are armed with goes out before SOF stops, or before its hub is
asked. -/
def Sys.suspendGo (p t : Nat) (y : Sys) : Sys :=
  if t = 0 then
    let y := y.updPort p fun q => { q with susp := .suspending, hold := 0 }
    let y := if (y.port p).rwEn then y.armWake p 0 else y
    if (y.frame p).sof then y else y.sofStop p
  else
    match y.hubPortAt p t with
    | some (h, hp, _) =>
      let y := y.updHubPort h hp fun q => { q with susp := .suspending, hold := 0, told := false }
      (if (y.hubPort h hp).rwEn then y.armWake p t else y).suspAsk p h hp
    | none => y

/-- The port at `t` enters RESUMING (R311, R312): a root port drives K; a hub port is asked to resume, unless the wake came
from it. -/
def Sys.resumeGo (p t : Nat) (wake : Bool) (y : Sys) : Sys :=
  if t = 0 then
    (y.updPort p fun q => { q with susp := .resuming, hold := 0, wakeRun := wake, rwSeen := false, resMf := y.perIndex p }).emit
      (.bus p .resumeK)
  else
    match y.hubPortAt p t with
    | some (h, hp, _) =>
      let y := y.updHubPort h hp fun q =>
        { q with susp := .resuming, hold := 0, wakeRun := wake, rwSeen := false, told := wake }
      if wake then y else y.hubReq h (.portResume hp) (setupPkt 0x23 1 2 hp 0)
    | none => y

/-- The suspend state and held request of the port at `t`. -/
def Sys.suspAt (y : Sys) (p t : Nat) : SuspSt :=
  if t = 0 then (y.port p).susp else match y.hubPortAt p t with | some (_, _, h) => h.susp | none => .active

/-- The held request of the port at `t` (R314): 1 SUSPEND, 2 RESUME. -/
def Sys.holdAt (y : Sys) (p t : Nat) : Nat :=
  if t = 0 then (y.port p).hold else match y.hubPortAt p t with | some (_, _, h) => h.hold | none => 0

/-- Hold a request (R314). -/
def Sys.setHold (p t k : Nat) (y : Sys) : Sys :=
  if t = 0 then y.updPort p fun q => { q with hold := k } else y.updPortOf p t fun q => { q with hold := k }

/-- A suspend (`res` false) or resume request for the port at `t`, from any source (R309, R314). A resume request in the frame in which a
K was seen absorbs the remote wake (R313). -/
def Sys.suspReq (p t : Nat) (res rw : Bool) (y : Sys) : Sys :=
  let y := y.incFld (lnkPg p) 0x58 23 16
  let y := if t = 0 then y.updPort p fun q => { q with rwEn := rw } else y.updPortOf p t fun q => { q with rwEn := rw }
  let q := y.port p
  match y.suspAt p t, res with
  | .active, false => y.suspendGo p t
  | .suspended, true => y.resumeGo p t false
  | .suspending, true => y.setHold p t 2
  | .resuming, false => y.setHold p t 1
  | .resuming, true =>
    if t = 0 && q.wakeRun && q.wakePend != 0 && q.resMf == y.perIndex p then
      y.updPort p fun q => { q with wakeRun := false, wakePend := 0, rwSeen := true }
    else y
  | _, _ => y

/-- The port at `t` becomes ACTIVE again (R311, R313): RESUME_DONE, RWAKE_SEEN in the next completion records, owed releases,
and a held request. -/
def Sys.resumeEnd (p t : Nat) (kind : Nat) (rw : Bool) (y : Sys) : Sys :=
  let y := if t = 0 then y.rwakeOut p else y
  let hold := y.holdAt p t
  let y := if t = 0 then y.updPort p fun q => { q with st := .enabled, susp := .active, hold := 0, wakeRun := false }
    else y.updPortOf p t fun q => { q with susp := .active, hold := 0, wakeRun := false, told := false }
  let y := y.resumeDone p t kind 0 rw
  let ns := y.under p t
  let y := if rw then each (fun n (y : Sys) => each (fun k (y : Sys) =>
      y.updRing k fun r => { r with rwSeen := true }) (y.ringsOfSlot n) y) ns y
    else y
  let y := each (fun n (y : Sys) => if y.slotQuiet n then y else y.releaseOwed n) ns y
  if hold = 1 then y.suspendGo p t else y

/-- The end of the recovery of the port at `t`. -/
def Sys.recoveryEnd (p t : Nat) (y : Sys) : Sys :=
  if t = 0 then
    let q := y.port p
    if q.susp == .resuming && (y.frame p).sof then y.resumeEnd p 0 (if q.wakeRun then 1 else 0) q.rwSeen else y
  else
    match y.hubPortAt p t with
    | some (_, _, h) =>
      if h.susp == .resuming && h.told then y.resumeEnd p t (if h.wakeRun then 1 else 0) h.rwSeen else y
    | none => y

/-- The port at `t` enters SUSPENDED, which answers a SUSPEND command (R377); a held RESUME is carried out (R310, R314). -/
def Sys.suspendEnd (p t : Nat) (y : Sys) : Sys :=
  let hold := y.holdAt p t
  let y := if t = 0 then y.updPort p fun q => { q with st := .suspended, susp := .suspended, hold := 0 }
    else y.updPortOf p t fun q => { q with susp := .suspended, hold := 0, told := false }
  let y := y.decWake (· == .suspended p t) 0 []
  if hold = 2 then y.resumeGo p t false else y

/-- The 3 ms of the suspend entry end: after the last SOF, or after the hub has accepted the request (R310). -/
def Sys.suspendEntry (p t : Nat) (y : Sys) : Sys :=
  if y.suspAt p t != .suspending then y
  else if t = 0 then (if (y.frame p).sof then y else y.suspendEnd p 0)
  else
    match y.hubPortAt p t with
    | some (h, hp, q) =>
      if !q.told || (y.slot h).hubRec.reqs.any fun r => r.kind == .portSuspend hp then y else y.suspendEnd p t
    | none => y

/-- The positions from the root port down to `t`, the root first. -/
def pathOf (t : Nat) : List Nat := (List.range (tierDepth t + 1)).map fun d => tierAbove t d

/-- A qualified K from the device at `t` (R312, R313): its RWAKE goes out once its frame has passed on a root port; it resumes the first suspended port on its path; a host-driven resume
whose signalling is driven, or began in this frame, absorbs it. `mo`: the microframe and microsecond of the K. -/
def Sys.remoteWake (p t : Nat) (mo : Nat × Nat) (y : Sys) : Sys :=
  match (pathOf t).find? fun u => y.suspAt p u != .active with
  | none => y
  | some u =>
    match y.suspAt p u with
    | .suspended =>
      if u = 0 then
        (y.resumeGo p 0 true).updPort p fun q => { q with wakePend := t + 1, wakeMf := mo.1, wakeUs := mo.2 }
      else (y.sendRwake p t u mo).resumeGo p u true
    | .resuming =>
      if u = 0 then
        if !(y.port p).wakeRun && (!(y.frame p).sof || (y.port p).resMf == y.perIndex p) then
          y.updPort p fun q => { q with rwSeen := true }
        else y
      else
        y.updPortOf p u fun h => if !h.wakeRun && !h.told then { h with rwSeen := true } else h
    | _ => y

end Sys2Proof.Machine
end

