-- ==== Sys2Proof/Machine/Enum.lean ====
section
/-! DEFINITION. Enumeration offload (R264-R276, R288-R295, R384-R385): places, steps 1-10 and H1-H5 with their checks and
repeats, re-presentation, ENUM_DONE and ENUM_FAIL. -/

namespace Sys2Proof.Machine

/-! ## Places (R264, R265, R272) -/

/-- Whether an enumeration holds address 0 of its tree (R272). -/
def Enum.atZero (e : Enum) : Bool :=
  match e.st with
  | .running => decide (e.step < 4) || (e.step == 4 && e.sub == 0)
  | .slotWait => true
  | .queued => e.step == 3
  | _ => false

/-- Whether another device of the tree holds address 0. -/
def Sys.zeroTaken (y : Sys) (p t : Nat) : Bool :=
  y.usb.enums.any fun e => e.port == p && e.tier != t && e.atZero

/-- Enumeration places held in a region, or in the chip. -/
def Sys.places (y : Sys) (f : Nat → Bool) : Nat := (y.usb.enums.filter fun e => e.place && f (e.port / 16)).length

/-- Whether a waiting device can start (R264, R265, R272). -/
def Sys.canStart (y : Sys) (e : Enum) : Bool :=
  e.st == .queued && (e.step == 3 || !y.zeroTaken e.port e.tier) && y.regionWorks (e.port / 16) && y.on (8 + e.port / 16) &&
    (e.place || (decide (y.places (· == e.port / 16) < 8) && decide (y.places (fun _ => true) < 64)))

/-- The better of two waiting devices: those ahead of every enumeration not started, then by attach order. -/
def enumBefore (a b : Enum) : Bool := if a.first == b.first then decide (a.order < b.order) else a.first

/-- The device that takes the next place (R264). -/
def Sys.nextStart (y : Sys) : Option Enum :=
  (y.usb.enums.filter y.canStart).foldl (fun (a : Option Enum) e => match a with
    | none => some e
    | some b => if enumBefore e b then some e else some b) none

/-! ## Steps and requests -/

/-- The GET_DESCRIPTOR request of an enumeration. -/
def getDesc (ty idx len : Nat) : List Byte := setupPkt 0x80 6 (256 * ty + idx) 0 len

/-- PRG_PORT_ENUM follows a root device's enumeration. -/
def Sys.showEnum (p t : Nat) (y : Sys) : Sys :=
  if t ≠ 0 then y
  else
    match y.enumAt p 0 with
    | some e => y.updPort p fun q =>
        { q with step := e.step, attempt := e.attempt, slotWait := e.st == .slotWait, slot := e.slot }
    | none => y.updPort p fun q => { q with slotWait := false }

/-- The configuration index that step 8 selects. -/
def Enum.cfgVal (y : Sys) (e : Enum) : Nat :=
  if e.represent then (y.slot e.slot).config else (byteAt (e.cfgs.getD e.cfg []) 5).toNat

/-- Issue the request of an enumeration's step (R267, R276, R292, R324). -/
def Sys.enumIssue (p t : Nat) (y : Sys) : Sys :=
  match y.enumAt p t with
  | none => y
  | some e =>
    let dev := fun (s : List Byte) (y : Sys) => y.issue 0 p t s []
    let hub := fun (s : List Byte) (y : Sys) => y.hubReq e.slot .step s
    let q := (y.slot e.slot).pers
    let ifc := if e.sub = 1 then q.rdIface else q.iface
    match e.step with
    | 3 => dev (getDesc 1 0 8) y
    | 4 => dev (setupPkt 0 5 e.addr 0 0) y
    | 5 => dev (getDesc 1 0 18) y
    | 6 => dev (getDesc 2 (e.sub / 2) (if e.sub % 2 = 0 then 9 else half (e.cfgs.getD (e.sub / 2) []) 2)) y
    | 8 => dev (setupPkt 0 9 (Enum.cfgVal y e) 0 0) y
    | 10 => if e.sub = 1 then dev (setupPkt 0x81 6 0x2200 ifc 4096) y
        else if e.sub = 2 then dev (setupPkt 0x21 0x0B 0 ifc 0) y
        else if e.sub = 3 then dev (setupPkt 0x21 0x0A 0 ifc 0) y else y
    | 11 => hub (setupPkt 0xA0 6 0x2900 0 (if e.sub = 0 then 7 else (byteAt e.hubDesc 0).toNat)) y
    | 12 => hub (setupPkt 1 11 1 0 0) y
    | 13 => hub (setupPkt 0x80 0 0 0 2) y
    | 15 => hub (setupPkt 0x23 3 8 e.sub 0) y
    | _ => y

/-- An enumeration goes on with a step. -/
def Sys.enumStep (p t step sub : Nat) (y : Sys) : Sys :=
  ((y.updEnum p t fun e => { e with st := .running, step := step, sub := sub, tries := 0 }).showEnum p t).enumIssue p t

/-- The reset of step 1 is driven: on a root port (R273), or by SET_FEATURE(PORT_RESET) (R295). -/
def Sys.driveReset (p t : Nat) (y : Sys) : Sys :=
  let y := (y.updEnum p t fun e => { e with st := .running, step := 1, sub := 0, place := true, first := false }).showEnum p t
  if t = 0 then
    (((y.sofStop p).updPort p fun q => { q with st := .resetting, susp := .active, hold := 0, addr := 0, config := 0 }).incFld
      (lnkPg p) 0x54 23 16).emit (.bus p .reset)
  else
    match y.hubPortAt p t with
    | some (h, hp, _) =>
      (y.updHubPort h hp fun q => { q with resetting := true, enabled := false }).hubReq h (.portReset hp)
        (setupPkt 0x23 3 4 hp 0)
    | none => y

/-- An enumeration (re)starts at step 1: at once where it holds a place and address 0 is free; else it waits. -/
def Sys.enumRestart (p t : Nat) (y : Sys) : Sys :=
  match y.enumAt p t with
  | none => y
  | some e =>
    let e' := { e with step := 1, sub := 0, tries := 0, slot := (if e.represent then e.slot else 0),
                       addr := (if e.represent then e.addr else 0), cfgs := [], dev := [], cfg := 0,
                       cfgDenied := false, hubDesc := [] }
    let y := y.updEnum p t fun _ => e'
    if e.place && !y.zeroTaken p t then y.driveReset p t
    else (y.updEnum p t fun e => { e with st := .queued, first := !e.place }).showEnum p t

/-- A waiting device takes its place and starts, or goes on at step 3 (R264, R268). -/
def Sys.enumBegin (e : Enum) (y : Sys) : Sys :=
  let y := y.updEnum e.port e.tier fun e => { e with place := true, first := false, attempt := max 1 e.attempt }
  if e.step = 3 then y.enumStep e.port e.tier 3 0 else y.driveReset e.port e.tier

/-! ## Failure (R271, R276) -/

/-- ENUM_FAIL for a device of port `p` (R282). -/
def Sys.sendFail (p cause step attempts : Nat) (y : Sys) : Sys :=
  let y := ((y.updPort p fun q => { q with cause := cause }).incFld (lnkPg p) 0x54 31 24).setBit (lnkPg p) 0x44 1
  (y.meqEvent none (y.ev 4 0 p 0 [Word.ofN (cause + step * 16 + attempts * 256)])).recordErr (lnkPg p) 8 0

/-- An enumeration fails finally with `cause` at its step. -/
def Sys.enumFinal (p t cause : Nat) (y : Sys) : Sys :=
  match y.enumAt p t with
  | none => y
  | some e =>
    let y :=
      if e.represent then
        let y := y.detachTree p t 6
        if t = 0 then y.detachPower p else y
      else if e.slot = 0 then y
      else (y.persEnd e.slot).freeSlot e.slot
    let y := (y.dropEnum p t).showEnum p t
    let y := if t = 0 then y.updPort p fun q => { q with slot := 0, addr := 0, config := 0, step := e.step } else y
    let y := y.sendFail p cause e.step e.attempt
    if t = 0 then y.portDisable p else y.hubPortDisable p t

/-- A step's third failure (R271): the attempt has failed; the enumeration restarts at step 1, or fails finally. Where a hub
already enumerated fails a hub step, R316 acts. -/
def Sys.attemptFail (p t cause : Nat) (y : Sys) : Sys :=
  match y.enumAt p t with
  | none => y
  | some e =>
    let back := fun (y : Sys) => if t = 0 then (y.highOff p).toBase p else (.granted, y)
    if e.represent && decide (11 ≤ e.step) then y.treeFault p t
    else if e.represent then
      if 3 ≤ e.attempt then y.enumFinal p t cause
      else (y.updEnum p t fun e => { e with attempt := e.attempt + 1 }).enumRestart p t
    else
      let y := if e.slot = 0 then y else (y.persEnd e.slot).freeSlot e.slot
      let y := y.updEnum p t fun e => { e with slot := 0 }
      let y := if t = 0 then y.updPort p fun q => { q with slot := 0, addr := 0, config := 0 } else y
      match back y with
      | (r, y) =>
        if 3 ≤ e.attempt then y.enumFinal p t cause
        else
          let y := y.updEnum p t fun e => { e with attempt := e.attempt + 1 }
          if r = .pending then
            (y.updEnum p t fun e => { e with st := .baseWait, place := false, step := 1, sub := 0 }).showEnum p t
          else y.enumRestart p t

/-- CAUSE by step of a failed request (R271, R292, R295): `k` is 1 for no response, 2 a STALL, 3 a failed check. -/
def failCause (step k : Nat) : Nat :=
  match step with
  | 1 => 7
  | 4 => 4
  | 8 | 12 => 5
  | 11 => 9
  | 13 | 15 => 1
  | 14 => 3
  | _ => k

/-- A request of an enumeration fails (R271): it is issued again up to twice. -/
def Sys.requestFail (p t k : Nat) (y : Sys) : Sys :=
  match y.enumAt p t with
  | none => y
  | some e =>
    if e.tries < 2 then
      let y := y.updEnum p t fun e => { e with tries := e.tries + 1 }
      if e.step = 1 then
        match y.hubPortAt p t with
        | some (h, hp, _) => y.hubReq h (.portReset hp) (setupPkt 0x23 3 4 hp 0)
        | none => y
      else y.enumIssue p t
    else y.attemptFail p t (failCause e.step k)

/-! ## Slots and addresses (R267, R268, R288, R291) -/

/-- The lowest number from `k` on that is no used slot; slots stand in rising order. -/
def lowSlot (k : Nat) : List (Nat × Slot) → Nat
  | [] => k
  | (n, s) :: r => if n = k && s.used then lowSlot (k + 1) r else if n < k then lowSlot k r else k

/-- The lowest free device slot, of 1-8,192. -/
def Sys.slotFree (y : Sys) : Option Nat :=
  let k := lowSlot 1 y.eng.slots
  if k ≤ 8192 then some k else none

/-- The lowest free address of a tree, of 1-127. -/
def Sys.addrFree (y : Sys) (p : Nat) : Option Nat :=
  ((List.range 127).map (· + 1)).find? fun a => !(y.eng.slots.any fun e => e.2.used && e.2.port == p && e.2.addr == a)

/-- The TT hub of a device at `t` and the hub port on its path (R291). -/
def Sys.ttHub (y : Sys) (p t : Nat) : Nat × Nat :=
  match ((List.range (tierDepth t)).map (tierDepth t - 1 - ·)).find? fun d =>
      match y.slotAt p (tierAbove t d) with
      | some h => (y.slot h).speed == .high
      | none => false with
  | some d => ((y.slotAt p (tierAbove t d)).getD 0, tierPort t d)
  | none => (0, 0)

/-- The TT hub and hub port of a device of speed `sp` at `t` (R291). -/
def Sys.ttFor (y : Sys) (p t : Nat) (sp : Speed) : Nat × Nat :=
  if sp = .high ∨ (y.port p).speed ≠ .high then (0, 0) else y.ttHub p t

/-- A device gets slot `n`. -/
def Sys.giveSlot (p t n : Nat) (y : Sys) : Sys :=
  match y.enumAt p t with
  | none => y
  | some e =>
    let tt := y.ttFor p t e.speed
    let ep0 : Ep := { ty := .control, mps := (if e.speed = .low then 8 else 64) }
    let y := y.updSlot n fun _ =>
      { used := true, port := p, tier := t, speed := e.speed, hub := tt.1, hubPort := tt.2, eps := [(0, ep0)] }
    let y := if t = 0 then y else y.updPortOf p t fun h => { h with slot := n }
    (y.updEnum p t fun e => { e with slot := n }).showEnum p t

/-- Step 2 (R268): the lowest free slot is taken; without one the device is held at address 0 and gives up its place. -/
def Sys.takeSlot (p t : Nat) (y : Sys) : Sys :=
  match y.slotFree with
  | some n => (y.giveSlot p t n).enumStep p t 3 0
  | none =>
    let y := (y.updEnum p t fun e => { e with st := .slotWait, step := 2, place := false }).showEnum p t
    let w := (y.usb.enums.filter fun e => e.st == .slotWait).length
    let sp := match y.enumAt p t with | some e => Speed.code e.speed | none => 0
    y.meqEvent none (y.ev 5 0 p 0 [Word.ofN (w + sp * 65536)])

/-- A freed slot goes to the first device held for one, which returns to the queue ahead of every enumeration that has not
started and goes on at step 3 where a place is free (R268). -/
def Sys.slotGrant (y : Sys) : Sys :=
  let held := y.usb.enums.filter fun e => e.st == .slotWait
  let best := held.foldl (fun (a : Option Enum) e => match a with
    | none => some e
    | some b => if e.order < b.order then some e else some b) none
  match best, y.slotFree with
  | some e, some n =>
    let y := (y.giveSlot e.port e.tier n).updEnum e.port e.tier fun e =>
      { e with st := .queued, first := true, step := 3, sub := 0, tries := 0 }
    let y := y.showEnum e.port e.tier
    match y.enumAt e.port e.tier with
    | some e => if y.canStart e then y.enumBegin e else y
    | none => y
  | _, _ => y

/-- What follows a reset and its recovery: step 4 at the recorded address, or step 2 (R267, R276). -/
def Sys.afterReset (p t : Nat) (sp : Speed) (y : Sys) : Sys :=
  match y.enumAt p t with
  | none => y
  | some e =>
    let y := y.updEnum p t fun e => { e with speed := sp }
    let tt := y.ttFor p t sp
    if e.represent then (y.updSlot e.slot fun s => { s with speed := sp, hub := tt.1, hubPort := tt.2 }).enumStep p t 4 0
    else y.takeSlot p t

/-! ## Checks (R269) -/

/-- A device descriptor: the checks of step 3 on its first bytes, of step 5 on all 18. -/
def devOk (sp : Speed) (full : Bool) (b : List Byte) : Bool :=
  let m := (byteAt b 7).toNat
  decide ((if full then 18 else 8) ≤ b.length) && byteAt b 0 == 18 && byteAt b 1 == 1 &&
    (match sp with
     | .full => m == 8 || m == 16 || m == 32 || m == 64
     | .low => m == 8
     | _ => m == 64) &&
    (!full || byteAt b 17 != 0)

/-- The head of a configuration descriptor. -/
def cfgHeadOk (b : List Byte) : Bool :=
  decide (9 ≤ b.length) && byteAt b 1 == 2 && decide (9 ≤ half b 2) && decide (half b 2 ≤ 4096)

/-- Whether every descriptor of a configuration ends inside it. -/
def descsFit : Nat → List Byte → Bool
  | _, [] => true
  | 0, _ => false
  | n + 1, b =>
    let l := (byteAt b 0).toNat
    decide (2 ≤ l) && decide (l ≤ b.length) && descsFit n (b.drop l)

/-- A whole configuration of `len` bytes. -/
def cfgOk (len : Nat) (b : List Byte) : Bool := decide (len ≤ b.length) && cfgHeadOk b && descsFit len (b.take len)

/-- A hub descriptor (H1). -/
def hubDescOk (len : Nat) (b : List Byte) : Bool :=
  decide (len ≤ b.length) && decide (7 ≤ b.length) && byteAt b 1 == 0x29 && byteAt b 2 != 0

/-! ## Configuration (R270, R293) -/

/-- A configuration's 5 V demand in mA, rounded up to 10 mA (R257). -/
def cfgNeed (cfg : List Byte) : Nat := (2 * (byteAt cfg 8).toNat + 9) / 10 * 10

/-- The limit that replaces I5_MAX for a device on a hub port (R293). -/
def Sys.hubLimit (y : Sys) (p t : Nat) : Nat :=
  match y.hubPortAt p t with
  | some (h, _, _) => if (y.slot h).hubRec.selfPow then 500 else 100
  | none => 100

/-- A configuration comes into force (R391, R421): a fresh device context, in which an endpoint whose TT
buffer is still being cleared keeps still (R306); an interface class may seal it (R326). -/
def Sys.configured (n v : Nat) (y : Sys) : Sys :=
  let y := y.updSlot n fun s =>
    { s with config := v, cfgDenied := s.cfgDenied && v == 0, eps := s.eps.filterMap fun e =>
        if e.1 = 0 then some e else if e.2.ttClear then some (e.1, { ttClear := true }) else none }
  let y := y.updSlot n fun s => { s with isSealed := s.isSealed || s.sealCls }
  if (y.slot n).tier = 0 then y.updPort (y.slot n).port fun q => { q with config := v } else y

/-! ## Binding at step 10 (R335, R385, R406, R490) -/

/-- Whether a personality may be bound to a slot: COMPAT and 1.x instances bind 1-3 only, a 2.0 instance no DRAWER and no
DISPLAY. -/
def Sys.versionBinds (y : Sys) (n code : Nat) : Bool :=
  (!y.pins.compat || decide (code ≤ 3)) &&
    (match (y.slot n).inst with
     | some i =>
       (!y.is1x i || decide (code ≤ 3)) &&
         !(((y.inst i).vivMaxMaj == 2 && (y.inst i).vivMaxMin == 0 || ((y.inst i).vivMaj == 2 && (y.inst i).vivMin == 0)) &&
           (code == 5 || code == 6))
     | none => true)

/-- Whether a choice can be bound: its interface is there, and a command endpoint is free where one is needed (R336). -/
def Sys.bindable (y : Sys) (n code : Nat) (pages : List (Nat × Nat)) : Bool :=
  (y.slot n).suits code pages && ((code != 5 && code != 6) || (y.slot n).freeOut.isSome)

/-! ## The end of an enumeration -/

/-- ENUM_DONE (R267, R282), and ATTACH where the map has assigned the slot (R111, R385). -/
def Sys.enumDone (p t : Nat) (y : Sys) : Sys :=
  match y.enumAt p t with
  | none => y
  | some e =>
    let n := e.slot
    let y := y.updSlot n fun s => { s with served := true }
    let y := if t = 0 then y else y.updPortOf p t fun h => { h with enabled := true, slot := n }
    let y := (y.meqEvent none (y.ev 3 n p 0 (y.attachDws n false))).setBit (lnkPg p) 0x44 1
    let y := if (y.slot n).inst.isSome then y.sendAttach n false else y
    (y.dropEnum p t).updPort p fun q => if t = 0 then { q with step := 10, slotWait := false } else q

/-- The instance the port-to-tenant map gives a device at step 10, if it does (R384, R385). -/
def Sys.mapInst (y : Sys) (p t : Nat) : Option Nat :=
  let w := y.nv.last (128 + p)
  let i := w.fld 11 0
  if w.bit 12 && (t = 0 || w.bit 13) && ((y.inst i).st == .created || (y.inst i).st == .running) then some i else none

/-- The personality of the map's NORMALISE is chosen from the report descriptor's usage pages, and bound; a boot keyboard
gets its two requests first (R324, R385). -/
def Sys.mapBind (p t : Nat) (pages : List (Nat × Nat)) (y : Sys) : Sys :=
  match y.enumAt p t with
  | none => y
  | some e =>
    match y.choose e.slot pages with
    | .bind c i pr ps =>
      if y.bindable e.slot c pages && y.versionBinds e.slot c then
        let y := y.persBind e.slot c i pr pages ps
        if c = 1 ∨ c = 7 then y.enumStep p t 10 2 else y.enumDone p t
      else y.enumDone p t
    | .sealIt => (y.updSlot e.slot fun s => { s with isSealed := true }).enumDone p t
    | .none_ => y.enumDone p t

/-- Step 10 (R267, R326, R385). -/
def Sys.stepTen (p t : Nat) (y : Sys) : Sys :=
  let y := (y.updEnum p t fun e => { e with step := 10, sub := 0, tries := 0 }).showEnum p t
  match y.enumAt p t with
  | none => y
  | some e =>
    let n := e.slot
    let y := y.updSlot n fun s => { s with isSealed := s.isSealed || y.sealEntry n, cfgDenied := e.cfgDenied }
    if (y.slot n).isHub || byteAt (y.slot n).dev 4 == 9 then y.enumDone p t
    else
      match y.mapInst p t with
      | none => y.enumDone p t
      | some i =>
        let y := y.updSlot n fun s => { s with inst := some i }
        if (y.nv.last (128 + p)).bit 14 && !(y.slot n).isSealed && y.on 17 then
          if y.needsHid n then (y.hidBegin n).enumStep p t 10 1 else y.mapBind p t []
        else y.enumDone p t

/-- Re-presentation ends with the slot kept (R130, R276): rings return, toggles and halts are the device's after reset, and
ATTACH carries REPRESENT = 1. A DEVICE_RESET is answered with KEPT 1 (R377). -/
def Sys.representDone (p t : Nat) (y : Sys) : Sys :=
  match y.enumAt p t with
  | none => y
  | some e =>
    let n := e.slot
    let asked := (y.slot (y.slot n).hub).hubRec.reqs
    let fresh := fun (e : Nat × Ep) => (e.1, { e.2 with
      tog := false, halted := false, ping := false, ttClear := e.2.ttClear && asked.any fun r => r.kind == .clearTt n e.1 })
    let y := y.updSlot n fun s => { s with away := false, eps := s.eps.map fresh }
    let y := (y.dropEnum p t).updPort p fun q => if t = 0 then { q with slotWait := false } else q
    let y := if t = 0 then y else y.updPortOf p t fun h => { h with enabled := true, resetting := false }
    (((y.ringsReturn n).sendAttach n true).releaseOwed n).decWake (· == .represent n) 0 [1]

/-- Step 9 (R257, R267): the high-power reservation, on a root port only. -/
def Sys.stepNine (p t : Nat) (y : Sys) : Sys :=
  let w := (y.port p).prof
  let y := if t = 0 then y.updPort p fun q => { q with step := 9 } else y
  let y :=
    if t = 0 && profHigh w then
      match y.powerReq p (profRail w) ((profIH w : Int) - (y.port p).resH) .high with
      | (.granted, y) => if (y.port p).hpwr then y else y.hpwrWant p
      | (_, y) => y
    else y
  y.stepTen p t

/-- The configurations from index `i` on, in order (R270, R293): the first within the limit is requested. -/
def Sys.selectCfg (p t i : Nat) (cs : List (List Byte)) (y : Sys) : Sys :=
  match cs with
  | [] => (y.updEnum p t fun e => { e with cfgDenied := true }).stepTen p t
  | c :: r =>
    let need := cfgNeed c
    let n := match y.enumAt p t with | some e => e.slot | none => 0
    if t = 0 then
      match y.powerReq p 0 ((need : Int) - (y.port p).res5) .config with
      | (.refused, y) => y.selectCfg p t (i + 1) r
      | (.granted, y) => (y.updEnum p t fun e => { e with cfg := i }).enumSetConfig p t
      | (.pending, y) =>
        (y.updEnum p t fun e => { e with cfg := i, st := .powerWait, step := 7, place := false }).showEnum p t
    else
      let lim := y.hubLimit p t
      if lim < need then (y.powerDenied p n 0 1 2 1 need lim).selectCfg p t (i + 1) r
      else (y.updEnum p t fun e => { e with cfg := i }).enumSetConfig p t

/-- Step 7; a hub at depth 5 is not configured (R290). -/
def Sys.stepSeven (p t : Nat) (y : Sys) : Sys :=
  let y := (y.updEnum p t fun e => { e with step := 7, sub := 0, tries := 0 }).showEnum p t
  match y.enumAt p t with
  | none => y
  | some e =>
    if byteAt e.dev 4 == 9 && tierDepth t == 5 then y.enumFinal p t 8
    else y.selectCfg p t 0 e.cfgs

/-- Step 4: the lowest free address of the tree; without one the enumeration ends at once (R271). -/
def Sys.stepFour (p t : Nat) (y : Sys) : Sys :=
  match y.addrFree p with
  | some a => (y.updEnum p t fun e => { e with addr := a }).enumStep p t 4 0
  | none => (y.updEnum p t fun e => { e with step := 4 }).enumFinal p t 6

/-- The steps after SET_CONFIGURATION: H1 for a hub, the end of re-presentation, or step 9 (R267, R276, R292). -/
def Sys.afterConfig (p t : Nat) (y : Sys) : Sys :=
  match y.enumAt p t with
  | none => y
  | some e =>
    if byteAt (y.slot e.slot).dev 4 == 9 && (y.slot e.slot).config != 0 then y.enumStep p t 11 0
    else if e.represent then y.representDone p t
    else y.stepNine p t

/-- The descriptor read at re-presentation differs (R276): the device is detached as CHANGED and enumerated as new, keeping
its place, after a new bus reset. -/
def Sys.changed5 (p t : Nat) (e : Enum) (y : Sys) : Sys :=
  let y := y.detachTree p t 6
  let y := if t = 0 then (y.updPort p fun q => { q with slot := 0, addr := 0, config := 0 }).detachPower p
    else y.updPortOf p t fun h => { h with conn := true }
  let y := y.updEnums fun l => l ++ [{ port := p, tier := t, st := .running, order := e.order, place := true }]
  y.enumRestart p t

/-- A request's data passes its step's check: the next step (R267). -/
def Sys.requestOk (p t : Nat) (e : Enum) (b : List Byte) (y : Sys) : Sys :=
  let n := e.slot
  match e.step with
  | 3 => (y.updEp n 0 fun z => { z with ty := .control, mps := (byteAt b 7).toNat }).stepFour p t
  | 4 =>
    let y := (y.updSlot n fun s => { s with addr := e.addr }).updEnum p t fun e => { e with sub := 1, tries := 0 }
    if t = 0 then y.updPort p fun q => { q with addr := e.addr } else y
  | 5 =>
    if e.represent then
      if b.take 18 != (y.slot n).dev then y.changed5 p t e
      else if (y.slot n).config = 0 then y.representDone p t
      else y.enumStep p t 8 0
    else
      ((y.updSlot n fun s => { s with dev := b.take 18 }).updEnum p t fun e => { e with dev := b.take 18, cfgs := [] }).enumStep
        p t 6 0
  | 6 =>
    let i := e.sub / 2
    if e.sub % 2 = 0 then (y.updEnum p t fun e => { e with cfgs := e.cfgs ++ [b.take 9] }).enumStep p t 6 (e.sub + 1)
    else
      let all := e.cfgs.take i ++ [b.take (half (e.cfgs.getD i []) 2)]
      let y := (y.updEnum p t fun e => { e with cfgs := all }).updSlot n fun s => { s with cfgs := all }
      if i + 1 < min (byteAt e.dev 17).toNat 8 then y.enumStep p t 6 (2 * (i + 1)) else y.stepSeven p t
  | 8 =>
    (if !e.represent then y.configured n (Enum.cfgVal y e)
     else if t = 0 then y.updPort p fun q => { q with config := (y.slot n).config } else y).afterConfig p t
  | 10 =>
    if e.sub = 1 then
      match y.hidNote n b with
      | (some _, y) => y.enumStep p t 10 1
      | (none, y) => y.mapBind p t (y.slot n).pers.rdPages
    else if e.sub = 2 then y.enumStep p t 10 3 else y.enumDone p t
  | _ => y

/-- Whether a reply passes its step's check (R269). -/
def replyOk (e : Enum) (b : List Byte) : Bool :=
  match e.step with
  | 3 => devOk e.speed false b
  | 5 => devOk e.speed true b
  | 6 => if e.sub % 2 = 0 then cfgHeadOk b else cfgOk (half (e.cfgs.getD (e.sub / 2) []) 2) b
  | _ => true

/-- Whether an enumeration has a request to the device outstanding. -/
def Enum.asks (e : Enum) : Bool :=
  e.st == .running && (e.step == 3 || (e.step == 4 && e.sub == 0) || e.step == 5 || e.step == 6 || e.step == 8 ||
    (e.step == 10 && decide (1 ≤ e.sub)))

/-- A control request of an enumeration ends (R267-R271). A binding that fails leaves the device unbound (R324). -/
def Sys.enumReply (p t : Nat) (res : ReqRes) (y : Sys) : Sys :=
  match y.enumAt p t with
  | none => y
  | some e =>
    if !e.asks then y
    else
      let bad := fun (k : Nat) (y : Sys) =>
        if e.step = 10 ∧ 2 ≤ e.tries then (y.persEnd e.slot).enumDone p t else y.requestFail p t k
      match res with
      | .ok b => if replyOk e b then y.requestOk p t e b else bad 3 y
      | .stall => bad 2 y
      | .failed => bad 1 y

/-! ## Hub steps (R292-R294) -/

/-- The status-change endpoint of a hub: an interrupt IN endpoint of the alternate setting in use. -/
def Slot.hubEp (s : Slot) : Option EpD :=
  let es := s.epDescs.filter fun d => d.attr % 4 == 3 && decide (128 ≤ d.addr)
  match es.find? fun d => d.alt == (if s.hubRec.multi then 1 else 0) with
  | some d => some d
  | none => es.head?

/-- H4 (R294): the chip's entry enters both copies of the port's table at once, and a captured copy, each within the cap (R183); a
refusal fails the step. -/
def Sys.stepH4 (p t : Nat) (y : Sys) : Sys :=
  match y.enumAt p t with
  | none => y
  | some e =>
    let n := e.slot
    let y := (y.updEnum p t fun e => { e with step := 14, sub := 0, tries := 0 }).showEnum p t
    match (y.slot n).hubEp with
    | none => y.attemptFail p t 3
    | some d =>
      let ep := epidOf d.addr
      let b := y.ptab p
      let hs := (y.slot n).speed == .high
      let pl := min (if hs then 8 else 5) (y.epPlog2 n false d.interval)
      let caps := (y.host.capTabs.filter fun c => c.1 == p).map (·.2)
      let room := y.tableRoom p (·.act) && y.tableRoom p (·.sh) && y.captureRoom p
      match (if room then y.admitEp (b.act :: b.sh :: caps) n ep false d.mps 1 pl true else none) with
      | none => y.attemptFail p t 3
      | some t' =>
        let y := (y.chipEntry p (freeIdx (b.act ++ b.sh ++ caps.flatten)) { t' with kind := 0 }).updEp n ep fun _ =>
          { open_ := true, active := true, mode := .normalised, ty := .interrupt, mps := d.mps, chip := true,
            plog2 := t'.plog2 }
        ((y.alwaysOpen n ep).enumStep p t 15 1)

/-- A hub step's reply (R292). -/
def Sys.hubStepReply (p t : Nat) (res : ReqRes) (y : Sys) : Sys :=
  match y.enumAt p t with
  | none => y
  | some e =>
    let n := e.slot
    let h1 := fun (f : Hub → Hub) (y : Sys) => y.updSlot n fun s => { s with hubRec := f s.hubRec }
    match res with
    | .stall | .failed => y.requestFail p t 1
    | .ok b =>
      match e.step with
      | 11 =>
        if e.sub = 0 then
          if hubDescOk 7 b then (y.updEnum p t fun e => { e with hubDesc := b.take 7 }).enumStep p t 11 1 else y.requestFail p t 3
        else if hubDescOk (byteAt e.hubDesc 0).toNat b then
          let y := h1 (fun h => { h with nports := (byteAt b 2).toNat, ttThink := 8 * (1 + (half b 3 / 32) % 4),
                                         pgMs := 2 * (byteAt b 5).toNat, ports := portsAfter h.ports, reqs := h.reqs, multi := false }) y
          if (y.slot n).speed == .high && byteAt (y.slot n).dev 6 == 2 then y.enumStep p t 12 0 else y.enumStep p t 13 0
        else y.requestFail p t 3
      | 12 => (h1 (fun h => { h with multi := true }) y).enumStep p t 13 0
      | 13 => (h1 (fun h => { h with selfPow := (byteAt b 0).getLsbD 0 }) y).stepH4 p t
      | 15 =>
        let y := y.updHubPort n e.sub fun q => { q with powered := true }
        if e.sub < min (y.slot n).hubRec.nports 31 then y.enumStep p t 15 (e.sub + 1)
        else y.updEnum p t fun e => { e with sub := 100 }
      | _ => y

/-- The power-good wait of H5 ends (R292): the hub is configured. -/
def Sys.hubReady (p t : Nat) (y : Sys) : Sys :=
  match y.enumAt p t with
  | some e =>
    if e.st == .running && e.step == 15 && e.sub == 100 then
      let y := y.updSlot e.slot fun s => { s with isHub := true }
      if e.represent then y.representDone p t else y.stepTen p t
    else y
  | none => y

end Sys2Proof.Machine
end

