-- ==== Sys2Proof/Machine/Ports.lean ====
section
/-! DEFINITION. Root ports: power on and off, connects and disconnects, bus reset, overcurrent, measurement and test modes
(R245-R251, R261-R263, R273-R281). -/

namespace Sys2Proof.Machine

/-- CONN_CHG (0), OC (2), RESET_END (3) of PRG_PORT_CHG. -/
def Sys.portChg (p b : Nat) (y : Sys) : Sys := y.setBit (lnkPg p) 0x44 b

/-- A port loses its power (R246, R257, R260): detach handling with `cause`, VBUSEN and HPWREN low, pending requests withdrawn,
every reservation released. -/
def Sys.rootOff (p cause : Nat) (st : PortSt) (y : Sys) : Sys :=
  let y := (y.dropTree p 0 cause).sofStop p
  let y := ((y.vbusDown p).hpwrDown p).rootClear p
  let y := y.updPort p fun q => { q with st := st, speed := .none, test := 0, testClr := false, run5 := 0, runH := 0 }
  (y.withdraw p).releaseAll p

/-- POWER_OFF of a port that accepts it (R246); in OFF it only withdraws the pending request. -/
def Sys.portOff (p : Nat) (y : Sys) : Sys := if (y.port p).st == .off then y.withdraw p else y.rootOff p 3 .off

/-- Whether POWER_OFF is accepted. -/
def Sys.canOff (y : Sys) (p : Nat) : Bool := (y.port p).st != .off || y.pending p [0, 1, 2]

/-- POWER_ON of a port (R246, R248, R560); `none` where it is ignored. -/
def Sys.portOn (p : Nat) (y : Sys) : Option Sys :=
  if (y.nvProfile p).bit 0 || y.cellHalt p then none
  else
    match (y.port p).st with
    | .off => if y.pending p [0] then none else some (y.powerOnReq p)
    | .ocLatched => some ((y.updPort p fun q => { q with st := .off, retry := 0 }).powerOnReq p)
    | _ => none

/-! ## Events that fall together (R247)

Ranks: 0 overcurrent, 1 POWER_OFF, 2 disconnect, 3 DISABLE, 4 RESET, 5 any other. Events of one microsecond of the timebase fall
together (DESIGN CHOICE, log 69): one that comes before an earlier one in the order finds the port as the earlier one found it. -/

/-- Whether an event of rank `r` takes the place of one that has changed port `p`'s state at this moment. -/
def Sys.evBeats (y : Sys) (p r : Nat) : Bool := (y.port p).evAt == y.tb + 1 && decide (r < (y.port p).evRank)

/-- The state in which an event of rank `r` finds port `p`. -/
def Sys.stBefore (y : Sys) (p r : Nat) : PortSt := if y.evBeats p r then (y.port p).evWas else (y.port p).st

/-- Whether an event of rank `r` finds VBUSEN or HPWREN of port `p` high. -/
def Sys.powBefore (y : Sys) (p r : Nat) : Bool :=
  (y.port p).vbus || (y.port p).hpwr || (y.evBeats p r && (y.port p).evPow)

/-- The runs of soft overcurrent that an event of rank `r` finds. -/
def Sys.runsBefore (y : Sys) (p r : Nat) : Nat × Nat :=
  if y.evBeats p r then ((y.port p).evRun5, (y.port p).evRunH) else ((y.port p).run5, (y.port p).runH)

/-- DISABLE of a port (R246). -/
def Sys.portDis (p : Nat) (y : Sys) : Option Sys :=
  match y.stBefore p 3 with
  | .enabled | .suspended => some (y.disableAt p 0)
  | _ => none

/-- RESET of a port (R246, R275). -/
def Sys.portReset (p : Nat) (y : Sys) : Option Sys :=
  match y.stBefore p 4 with
  | .enabled | .suspended | .disabled => some (y.requeue p 0)
  | _ => none

/-- Whether an event of port `p` is discarded: one that comes before it in the order of R247 has changed the state at this
moment. -/
def Sys.moot (y : Sys) (p r : Nat) : Bool := (y.port p).evAt == y.tb + 1 && decide ((y.port p).evRank < r)

/-- An event of rank `r` that found the block as `y0` is noted where it changed port `p`'s state. -/
def Sys.evMark (p r : Nat) (y0 y : Sys) : Sys :=
  if (y.port p).st != y0.stBefore p r then
    y.updPort p fun q => { q with evAt := y.tb + 1, evRank := r, evWas := y0.stBefore p r, evPow := y0.powBefore p r,
                                  evRun5 := (y0.runsBefore p r).1, evRunH := (y0.runsBefore p r).2 }
  else y

/-- An event of rank `r` at port `p`. -/
def Sys.portEvent (y : Sys) (p r : Nat) (f : Sys → Sys) : Sys :=
  if y.moot p r then y else (f y) |> Sys.evMark p r y

/-- What a command of PRG_PORT_CMD or PORT_CMD does by the port's state (R246); `none` where it is ignored. -/
def Sys.rootAct (p cmd : Nat) (y : Sys) : Option Sys :=
  match cmd with
  | 1 => y.portOn p
  | 2 => if y.canOff p then some (y.portOff p) else none
  | 3 => y.portReset p
  | 4 => y.portDis p
  | _ => some y

/-- The rank of a command among events that fall together; a code without action is none. -/
def cmdRank (cmd : Nat) : Nat :=
  match cmd with
  | 1 => 5 | 2 => 1 | 3 => 4 | 4 => 3 | _ => 0

/-- A command to a root port (R246, R247, R285); `none` where it is ignored. -/
def Sys.rootCmd (p cmd : Nat) (y : Sys) : Option Sys :=
  if y.moot p (cmdRank cmd) then none else (y.rootAct p cmd).map (Sys.evMark p (cmdRank cmd) y)

/-- A command of PRG_PORT_CMD (R246, R285): one that is ignored sets CFG. -/
def Sys.portCmd (p cmd : Nat) (y : Sys) : Sys :=
  match y.rootCmd p cmd with
  | some z => z
  | none => y.cfgErr (lnkPg p)

/-! ## Connect and disconnect (R262-R264) -/

/-- A pull-up is seen after the power-good wait (R246, R261, R262). -/
def Sys.portConnect (p : Nat) (sp : Speed) (y : Sys) : Sys :=
  let q := y.port p
  if q.vbus && q.pg && sp != .none then
    let sp' := if sp = .low then Speed.low else .full
    (y.updPort p fun q => { q with conn := true }).portEvent p 5 fun y =>
      if (y.port p).st == .powered then y.updPort p fun q => { q with st := .debounce, speed := sp' } else y
  else y

/-- 100 ms of continuous connect: the attach is ordered (R246, R264). -/
def Sys.debounced (p : Nat) (y : Sys) : Sys :=
  let q := y.port p
  if q.st == .debounce && q.conn then
    (((y.updPort p fun q => { q with st := .queued, attempt := 0, attKey := y.attachKey p }).incFld (lnkPg p) 0x54 7 0).portChg p 0).queueNew p 0 .granted
  else y

/-- A port waits in OFF for the return to the base reservation, as at power-on (R246, R257): VBUSEN is low, its reservation is
released, and its request asks for the whole base. -/
def Sys.offPended (p : Nat) (y : Sys) : Sys :=
  let r := (y.port p).res5
  let y := (y.vbusDown p).updPort p fun q => { q with st := .off, res5 := 0 }
  (y.setPend 0 ((y.pendList 0).map fun q => if q.port == p then { q with amount := q.amount + r } else q)).pass

/-- The device of a port has gone (R246, R266): detach handling, cause UNPLUG; the port waits in OFF while the return to the
base reservation is pending. -/
def Sys.unplug (p : Nat) (y : Sys) : Sys :=
  let y := (((y.dropTree p 0 1).sofStop p).rootClear p).detachPower p
  let y := y.updPort p fun q => { q with speed := .none, conn := false, susp := .active, hold := 0 }
  let y := if y.pending p [0] then y.offPended p else y.updPort p fun q => { q with st := .powered }
  y.portChg p 0

/-- Whether a port's bus reset is in its SE0. -/
def Sys.inSe0 (y : Sys) (p : Nat) : Bool := (y.port p).st == .resetting && !(y.frame p).sof

/-- A disconnect (R246, R263): not seen during a reset's SE0. -/
def Sys.portDisconnect (p : Nat) (y : Sys) : Sys :=
  let y := y.updPort p fun q => { q with conn := false }
  match (y.port p).st with
  | .debounce =>
    ((y.updPort p fun q => { q with st := .powered, speed := .none }).incFld (lnkPg p) 0x54 15 8).portChg p 0
  | .queued | .resetting | .enabled | .suspended | .disabled => if y.inSe0 p then y else y.unplug p
  | _ => y

/-! ## Bus reset (R267, R273) -/

/-- The 50 ms of SE0 end: the speed is known, and recovery runs with SOF or keep-alive. -/
def Sys.resetSignal (p : Nat) (chirp : Bool) (y : Sys) : Sys :=
  let q := y.port p
  if y.inSe0 p then
    let hs := chirp && q.speed != .low && !q.prof.bit 4
    let y := if hs then y.emit (.bus p .chirpReply) else y
    let y := y.updPort p fun q => { q with speed := if hs then .high else if q.speed == .low then .low else .full }
    (y.updEnum p 0 fun e => { e with sub := 1 }).updFrame p fun f => { f with sof := true }
  else y

/-- The 10 ms of recovery end (R246): the port is ENABLED, or its device has gone. -/
def Sys.resetRecovery (p : Nat) (connected : Bool) (y : Sys) : Sys :=
  if (y.port p).st == .resetting && (y.frame p).sof then
    if connected then
      let y := (y.updPort p fun q => { q with st := .enabled, conn := true }).portChg p 3
      y.afterReset p 0 (y.port p).speed
    else ((y.unplug p).incFld (lnkPg p) 0x54 15 8).portChg p 3
  else y

/-! ## Overcurrent (R251, R277, R278) -/

/-- PRG_PWR_CTL of a port's region. -/
def Sys.pwrCtl (y : Sys) (p : Nat) : Word := y.pgReg (pwrPg (p / 16)) 0x40

/-- Retries left by OCPOL after `r` retries: whether the next trip latches, and its delay in seconds (R278). -/
def ocPlan (pol r : Nat) : Bool × Nat :=
  if pol = 1 ∨ (pol = 0 ∧ 3 ≤ r) then (true, 0) else (false, 2 ^ min r 6)

/-- A trip of port `p` (R278): KIND 1 hard, 2 soft 5 V, 3 soft high-power. -/
def Sys.trip (p kind : Nat) (y : Sys) : Sys :=
  let q := y.port p
  let g := pwrPg (p / 16)
  let k := p % 16
  let y := (y.incFld g (0x100 + 4 * k) (8 * kind - 1) (8 * kind - 8)).recordErr g 8 k
  let n := (y.slotAt p 0).getD 0
  let tens := (y.slotsOf p).filterMap fun m => (y.slot m).inst.map fun i => (m, i)
  let plan := ocPlan (profPol q.prof) q.retry
  let y := y.rootOff p 2 (if plan.1 then .ocLatched else .ocWait)
  let e := fun (m : Nat) => y.ev 6 m p 0
    [Word.ofN (kind + (if plan.1 then 16 else 0) + min 15 q.retry * 256), Word.ofN (q.i5 % 65536 + q.ih % 65536 * 65536),
     Word.ofN plan.2]
  let y := each (fun (m : Nat × Nat) (y : Sys) => y.tenantEvent m.2 (e m.1)) tens (y.meqEvent none (e n))
  y.portChg p 2

/-- A hard fault qualifies (R277): evaluated where VBUSEN or HPWREN is high. -/
def Sys.hardTrip (p : Nat) (y : Sys) : Sys :=
  if y.powBefore p 0 then y.trip p 1 else y

/-- A measurement of port `p` (R251, R277): the codes sampled on ISNS5 and ISNSH. -/
def Sys.measure (p c5 ch : Nat) (y : Sys) : Sys :=
  let g := pwrPg (p / 16)
  let sc := y.pgReg g 0x44
  let i5 := c5 * sc.fld 15 0 / 1024
  let ih := ch * sc.fld 31 16 / 1024
  let q := y.port p
  let y := y.updPort p fun q => { q with i5 := i5, ih := ih }
  let y := if !q.vbus && (decide (1024 < 20 * c5) || decide (1024 < 20 * ch)) then y.recordErr g 10 (p % 16) else y
  let live := y.powBefore p 0
  let runs := y.runsBefore p 0
  let r5 := if live && decide (profI5 q.prof < i5) then runs.1 + 1 else 0
  let rH := if live && profHigh q.prof && decide (profIH q.prof < ih) then runs.2 + 1 else 0
  let y := y.updPort p fun q => { q with run5 := r5, runH := rH }
  if profHold q.prof ≤ r5 then y.trip p 2
  else if profHold q.prof ≤ rH then y.trip p 3
  else y

/-- A retry (R246, R278): a power-on under R257. -/
def Sys.ocRetry (p : Nat) (y : Sys) : Sys :=
  (y.updPort p fun q => { q with st := .off, retry := q.retry + 1 }).powerOnReq p

/-! ## Test modes (R280, R281) -/

/-- A write of PRG_PORT_TEST.SEL. In Test_Force_Enable SOF runs, at high speed (R281). -/
def Sys.testSel (p sel : Nat) (y : Sys) : Sys :=
  let q := y.port p
  if sel = 0 then
    if q.test = 0 then y else ((y.sofStop p).vbusDown p).updPort p fun q => { q with test := 0, testClr := true }
  else
    match q.st with
    | .powered | .disabled | .suspended =>
      if 6 ≤ sel then y.cfgErr (lnkPg p)
      else
        let y := (y.dropTree p 0 7).sofStop p
        let y := if q.st == .powered then y else (y.rootClear p).detachPower p
        let y := if sel = 5 then y.updFrame p fun f => { f with sof := true } else y
        (y.updPort p fun q => { q with st := .test, test := sel, speed := .none }).emit (.bus p (.pattern sel))
    | _ => y.cfgErr (lnkPg p)

/-- A selection as an event of the port (R247): one that is discarded sets CFG. -/
def Sys.testCmd (p sel : Nat) (y : Sys) : Sys :=
  if sel != 0 && y.moot p 5 then y.cfgErr (lnkPg p) else (y.testSel p sel) |> Sys.evMark p 5 y

/-- The 100 ms with VBUSEN low end. -/
def Sys.testEnd (p : Nat) (y : Sys) : Sys :=
  let q := y.port p
  if q.st == .test && q.testClr then
    (y.updPort p fun q => { q with st := .powered, testClr := false }).vbusWant p
  else y

end Sys2Proof.Machine
end

