-- ==== Sys2Proof/Machine/Hubs.lean ====
section
/-! DEFINITION. Hub handling: the requests to a hub, its change reports, its ports' power and reset (R292-R297, R306, R311,
R316). -/

namespace Sys2Proof.Machine

/-- The first of a hub's requests has ended; the next is issued (R325). -/
def Sys.hubPop (h : Nat) (y : Sys) : Sys :=
  let y := y.updSlot h fun s => { s with hubRec := { s.hubRec with reqs := s.hubRec.reqs.drop 1 } }
  match (y.slot h).hubRec.reqs with
  | r :: _ => y.reqTo 1 h r.setup []
  | [] => y

/-- The first request has failed: it is issued again (R271). -/
def Sys.hubAgain (h : Nat) (r : HReq) (y : Sys) : Sys :=
  let again := fun (l : List HReq) => { r with tries := r.tries + 1 } :: l.drop 1
  (y.updSlot h fun s => { s with hubRec := { s.hubRec with reqs := again s.hubRec.reqs } }).reqTo 1 h r.setup []

/-- What follows a hub request's failure after its repeats (R306, R311, R316). DESIGN CHOICE (log 33): a hub that does not
accept PORT_SUSPEND leaves its port ACTIVE. -/
def Sys.hubReqLost (p h : Nat) (k : HReqK) (y : Sys) : Sys :=
  let t := (y.slot h).tier
  match k with
  | .portSuspend hp =>
    (y.updHubPort h hp fun q => { q with susp := .active, hold := 0, told := false }).decWake (fun w =>
      w == .suspended p (tierDown t hp) || w == .resumed p (tierDown t hp)) 0x11 []
  | .portResume hp => y.treeFault p (tierDown t hp)
  | .clearTt n e =>
    let y := y.updEp n e fun z => { z with ttClear := false }
    y.treeFault p (tierDown t (y.slot n).hubPort)
  | _ => y

/-- What follows a hub request that completed. -/
def Sys.hubReqDone (k : HReqK) (y : Sys) : Sys :=
  match k with
  | .clearTt n e => y.updEp n e fun z => { z with ttClear := false }
  | _ => y

/-- The request of owner `o` at a position has ended: its result takes the entry reserved for it (R430, R431, R440). -/
def Sys.reqOver (o p t : Nat) (y : Sys) : Sys :=
  match y.enumAt p t with
  | some e => y.reqResult o p t (if e.step ≤ 4 then 8193 + p else e.slot) 3
  | none => match y.slotAt p t with
    | some n => y.reqResult o p t n (y.slot n).prio
    | none => y

/-- A control request of hub handling ends. -/
def Sys.hubReqEnd (p t : Nat) (res : ReqRes) (y : Sys) : Sys :=
  match y.slotAt p t with
  | none => y
  | some h =>
    match (y.slot h).hubRec.reqs with
    | [] => y
    | r :: _ =>
      let ok := match res with | .ok _ => true | _ => false
      match r.kind with
      | .step => (y.hubPop h).hubStepReply p t res
      | .portReset hp =>
        let y := y.hubPop h
        if ok then y
        else
          let u := tierDown t hp
          (match y.enumAt p u with
           | some e => if e.st == .running && e.step == 1 && e.sub == 0 then y.requestFail p u 1 else y
           | none => y)
      | k =>
        if ok then (y.hubPop h).hubReqDone k
        else if r.tries < 2 then y.hubAgain h r
        else (y.hubPop h).hubReqLost p h k

/-- Whether an enumeration waits for the request at the head of its hub's list (R271). -/
def Sys.hubStepAt (y : Sys) (p t : Nat) : Bool :=
  match y.slotAt p t with
  | some h => match (y.slot h).hubRec.reqs with | r :: _ => r.kind == .step | [] => false
  | none => false

/-! ## Ports of a hub -/

/-- Clear a change that a hub reported (R295). -/
def Sys.clearChange (h hp feature : Nat) (y : Sys) : Sys := y.reqFree h (setupPkt 0x23 1 feature hp 0)

/-- SET_FEATURE(PORT_POWER). -/
def Sys.hubPowerUp (h hp : Nat) (y : Sys) : Sys :=
  (y.updHubPort h hp fun q => { q with powered := true, latched := false, ocDue := 0, upAt := y.tb }).reqFree h
    (setupPkt 0x23 3 8 hp 0)

/-- CLEAR_FEATURE(PORT_POWER), with detach handling of the subtree, cause POWER_OFF. -/
def Sys.hubPowerDown (p h hp : Nat) (y : Sys) : Sys :=
  let y := y.dropTree p (tierDown (y.slot h).tier hp) 3
  (y.updHubPort h hp fun q => { q with powered := false, ocDue := 0 }).reqFree h (setupPkt 0x23 1 8 hp 0)

/-- The port of a hub trips (R296): detach handling, cause OVERCURRENT; OVERCURRENT with KIND 0; the root port's OCPOL. The
retry count has returned to 0 after 60 s with power (R278). -/
def Sys.hubTrip (p h hp : Nat) (y : Sys) : Sys :=
  let t := tierDown (y.slot h).tier hp
  let q := y.hubPort h hp
  let r := if q.upAt + 60000000 ≤ y.tb then 0 else q.retry
  let n := (y.slotAt p t).getD 0
  let tens := (y.under p t).filterMap fun m => (y.slot m).inst.map fun i => (m, i)
  let plan := ocPlan (profPol (y.port p).prof) r
  let y := y.dropTree p t 2
  let due := if plan.1 then 0 else y.tb + plan.2 * 1000000 + 1
  let y := y.updHubPort h hp fun q => { q with powered := false, retry := r, latched := plan.1, ocDue := due }
  let e := fun (m : Nat) => y.ev 6 m p 0
    [Word.ofN ((if plan.1 then 16 else 0) + min 15 r * 256), 0, Word.ofN plan.2, Word.ofN t]
  each (fun (m : Nat × Nat) (y : Sys) => y.tenantEvent m.2 (e m.1)) tens (y.meqEvent none (e n))

/-- The hub port of a tree whose overcurrent retry is due first. -/
def Sys.hubRetryNext (y : Sys) (p : Nat) : Option (Nat × Nat × Nat) :=
  let all := y.eng.slots.flatMap fun e =>
    if e.2.used && e.2.port == p && e.2.isHub then
      (e.2.hubRec.ports.filter fun h => decide (0 < h.2.ocDue)).map fun h => (e.1, h.1, h.2.ocDue)
    else []
  all.foldl (fun (a : Option (Nat × Nat × Nat)) e => match a with
    | none => some e
    | some b => if e.2.2 < b.2.2 then some e else some b) none

/-- A retry of a hub port's power (R296). -/
def Sys.hubRetry (k : Nat × Nat × Nat) (y : Sys) : Sys :=
  (y.updHubPort k.1 k.2.1 fun q => { q with retry := q.retry + 1 }).hubPowerUp k.1 k.2.1

/-! ## Change reports (R295, R296, R311, R312, R316) -/

/-- C_PORT_CONNECTION. A device known on the port has gone; every change starts the debounce again, at the end of which the port status
says whether a device is there. -/
def Sys.hubConn (p h hp : Nat) (connected : Bool) (y : Sys) : Sys :=
  let t := tierDown (y.slot h).tier hp
  let q := y.hubPort h hp
  let y := if q.conn || (!connected && !q.deb && (y.slotAt p t).isSome) then y.dropTree p t 1 else y
  y.updHubPort h hp fun q => { q with deb := true }

/-- C_PORT_RESET while the reset of step 1 is in progress. -/
def Sys.hubResetDone (p h hp : Nat) (connected enabled : Bool) (sp : Speed) (y : Sys) : Sys :=
  let t := tierDown (y.slot h).tier hp
  match y.enumAt p t with
  | some e =>
    if (y.hubPort h hp).resetting && e.st == .running && e.step == 1 && e.sub == 0 then
      if !connected then y.dropTree p t 1
      else if !enabled then y.requestFail p t 1
      else (y.updHubPort h hp fun q => { q with resetting := false, enabled := true }).updEnum p t fun e =>
        { e with sub := 1, speed := sp }
    else y
  | none => y

/-- C_PORT_SUSPEND: the end of a resume that the chip asked for, or a remote wake. -/
def Sys.hubSuspDone (p h hp : Nat) (y : Sys) : Sys :=
  let t := tierDown (y.slot h).tier hp
  match (y.hubPort h hp).susp with
  | .resuming => y.updHubPort h hp fun q => { q with told := true }
  | .suspended => (y.sendRwake p t t (y.mf, y.us)).resumeGo p t true
  | _ => y

/-- A change that a hub reports for one of its ports. -/
def Sys.hubChange (p t hp : Nat) (chg : HubChange) (y : Sys) : Sys :=
  match y.slotAt p t with
  | none => y
  | some h =>
    if !(y.slot h).isHub || hp == 0 || decide ((y.slot h).hubRec.nports < hp) || y.slotQuiet h then y
    else
      match chg with
      | .connection c => (y.clearChange h hp 16).hubConn p h hp c
      | .reset c e sp => (y.clearChange h hp 20).hubResetDone p h hp c e sp
      | .overCurrent => (y.clearChange h hp 19).hubTrip p h hp
      | .enable e =>
        let y := y.clearChange h hp 17
        if e then y else y.treeFault p (tierDown t hp)
      | .suspend => (y.clearChange h hp 18).hubSuspDone p h hp

/-- The debounce of the hub port at `t` ends (R295, R317): a device that was reset is re-presented, or detached where it has gone
meanwhile; any other is new. -/
def Sys.hubDebounced (p t : Nat) (connected : Bool) (y : Sys) : Sys :=
  match y.hubPortAt p t with
  | some (h, hp, q) =>
    if q.deb then
      let y := y.updHubPort h hp fun q => { q with deb := false, conn := connected, attKey := y.attachKey p }
      if !connected then (if (y.slotAt p t).isSome then y.dropTree p t 1 else y)
      else
        match y.slotAt p t with
        | some n => y.queueAgain p t n
        | none => y.queueNew p t .granted
    else y
  | none => y

/-- A hub port's reset or its recovery has timed out, or ended (R295). -/
def Sys.hubResetAt (p t sub : Nat) (f : Enum → Sys → Sys) (y : Sys) : Sys :=
  match y.enumAt p t with
  | some e => if t ≠ 0 && e.st == .running && e.step == 1 && e.sub == sub then f e y else y
  | none => y

end Sys2Proof.Machine
end

