-- ==== Sys2Proof/Machine/Mail.lean ====
section
/-! DEFINITION. Accesses to mailboxes (R394-R399, R458-R463) and Vivel selection by the firmware agent (R397, R403, R404). -/

namespace Sys2Proof.Machine

/-- A tenant's access to its mailbox at offset `o` of the mailbox subpage (R54, R399, R560). -/
def Sys.viaMbox (i o : Nat) (isRead : Bool) (f : Sys → Sys) (y : Sys) : Sys :=
  if y.instLets i (0x2000 + o) then f y else y.refuse .tenant (i * 0x4000 + 0x2000 + o) isRead false

/-- TMB_POST: the sender sets GO with LEN. -/
def doTmbPost (i : Nat) (org : Origin) (len : Nat) (y : Sys) : Sys :=
  match org with
  | .tenant => y.viaMbox i 0 false (Sys.upCtlSend i true len)
  | .manager | .core _ => y.viaPage org (tmbPg i) 0xC0 false (Sys.dnCtlSend i (masterOf org) true len)
  | _ => y

/-- TMB_FREE: the receiver clears GO. -/
def doTmbFree (i : Nat) (org : Origin) (y : Sys) : Sys :=
  match org with
  | .tenant => y.viaMbox i 0x80 false (Sys.dnCtlRecv i true false)
  | .manager | .core _ => y.viaPage org (tmbPg i) 0x40 false (Sys.upCtlRecv i true false)
  | _ => y

/-- TMB_DN_LOCK_ACQUIRE. -/
def doDnLockAcquire (i : Nat) (org : Origin) (y : Sys) : Sys :=
  match org with
  | .manager | .core _ => y.viaPage org (tmbPg i) 0x144 true fun y =>
      let r := y.dnLockRead i (masterOf org)
      { r.2 with out := .cpl org ((tmbPg i).base + 0x144) (Word.ofN r.1) :: r.2.out }
  | _ => y

/-- TMB_DN_LOCK_RELEASE. -/
def doDnLockRelease (i : Nat) (org : Origin) (y : Sys) : Sys :=
  match org with
  | .manager | .core _ => y.viaPage org (tmbPg i) 0x144 false (Sys.dnLockWrite i (masterOf org) 0)
  | _ => y

/-- The version agreed for a HELLO from `lo` to `hi` (R404). -/
def Sys.vivelFor (y : Sys) (i : Nat) (lo hi : Nat × Nat) : Option (Nat × Nat) :=
  let n := y.inst i
  if n.st == .running then some (n.vivMaj, n.vivMin)
  else vivels.find? fun v => verLe lo v && verLe v hi && verLe v (n.vivMaxMaj, n.vivMaxMin) && (!y.pins.compat || verLe v (1, 2))

/-- Cores that run code: the firmware agent runs on one of them. -/
def Sys.liveCores (y : Sys) : List Nat := (List.range 16).filter fun c => y.coreActs c

/-- The firmware agent answers a HELLO (R397, R403, R404). It waits while DOWN is busy or locked. Which core sends is not
stated: a free choice among those that run code. -/
def Sys.vivelHello (i : Nat) (y : Sys) : Sys :=
  let n := y.inst i
  let cs := y.liveCores
  if !(n.up.go && y.toAgent i n.up && (n.st == .created || n.st == .running) && decide (0 < cs.length)) || n.dn.go || decide (n.lock ≠ 0) then y
  else
    let m := cs.getD ((Config.freeWord y.fresh).toNat % cs.length) 0 + 1
    let y := { y with fresh := y.fresh + 1 }
    let d := FMap.get 0 1 n.up.data
    let r := y.vivelFor i (d.fld 15 8, d.fld 7 0) (d.fld 31 24, d.fld 23 16)
    let v := r.getD (0, 0)
    let ack := FMap.putAll 0 0 [Word.ofN (2 + (FMap.get 0 0 n.up.data).fld 31 16 * 65536),
      Word.ofN ((if r.isSome then 0 else 0x0E) + v.2 * 256 + v.1 * 65536),
      Word.ofN (i + n.maxSub * 65536 + n.maxCmp * 16777216)] n.dn.data
    let y := y.updInst i fun n =>
      { n with up := { n.up with go := false }, dn := { n.dn with go := true, len := 3, sender := m, data := ack } }
    let y := if r.isSome && n.st == .created then
        y.updInst i fun n => { n with st := .running, vivMaj := v.1, vivMin := v.2 }
      else y
    y.dnEvent i

/-- How a master reaches channel `j`'s register at relative offset `o` (R458, R463, R520, R560): the manager and the cores
through the page, Snowdrop and the loader internally. -/
def Sys.viaMaster (j m o : Nat) (isRead : Bool) (f : Sys → Sys) (y : Sys) : Sys :=
  let off := (mbxPg j).base + mbxOff j + o
  let dead := fun (org : Origin) (y : Sys) => { y with out := .ur org off isRead :: y.out }.mbxNone j
  if m = 18 then y.viaPage .manager (mbxPg j) (mbxOff j + o) isRead fun y => if y.noRecv j then dead .manager y else f y
  else if h : 1 ≤ m ∧ m ≤ 16 then
    let org : Origin := .core ⟨m - 1, by omega⟩
    y.viaPage org (mbxPg j) (mbxOff j + o) isRead fun y => if y.noRecv j then dead org y else f y
  else if m = 0 ∨ y.halted (mbxPg j) || !(y.on 17 || y.isRet 17) || y.contain.chipFault || (m = 19 && y.masterDown 19) then y
  else if y.noRecv j then y.mbxNone j
  else f y

/-- MBX_POST: a sender sets GO with LEN; the receiver may not. -/
def doMbxPost (j m len : Nat) (y : Sys) : Sys :=
  y.viaMaster j m 0 false (Sys.mbxWrite j m fun y => if m = (y.mbx j).recv then y.accErr (mbxPg j) else y.mbxSend j m true len)

/-- MBX_FREE: the receiver clears GO; a sender may not. -/
def doMbxFree (j m : Nat) (y : Sys) : Sys :=
  y.viaMaster j m 0 false (Sys.mbxWrite j m fun y => if m = (y.mbx j).recv then y.mbxRecv j true false else y.accErr (mbxPg j))

/-- MBX_LOCK_ACQUIRE. -/
def doMbxLock (j m : Nat) (y : Sys) : Sys :=
  y.viaMaster j m 4 true fun y =>
    let r := y.mbxLockRead j m
    let off := (mbxPg j).base + mbxOff j + 4
    let org : Origin := if m = 18 then .manager else if m = 19 then .loader else if m = 17 then .smbus
      else .core (Fin.ofNat 16 (m - 1))
    { r.2 with out := .cpl org off (Word.ofN r.1) :: r.2.out }

/-- MBX_LOCK_RELEASE. -/
def doMbxUnlock (j m : Nat) (y : Sys) : Sys := y.viaMaster j m 4 false (Sys.mbxLockWrite j m 0)

end Sys2Proof.Machine
end

