-- ==== Sys2Proof/Machine/Cores.lean ====
section
/-! DEFINITION. Engine cores: reset, draining, leaving and entering their domain (R423-R428, R461-R463). -/

namespace Sys2Proof.Machine

/-- Core `c`'s page. -/
def corePg (c : Nat) : Pg := ⟨.core, c, 0⟩

/-- WSC_CORE_CTL.WORK_EN. -/
def Sys.workEn (y : Sys) (c : Nat) : Bool := (y.pgReg (corePg c) 0x40).bit 1

/-- A block leaves its halt (R561). -/
def Sys.clearHalt (g : Pg) (y : Sys) : Sys :=
  { y with contain := { y.contain with halted := FMap.put false g.haltKey false y.contain.halted } }

/-- The running item of core `c` is discarded (R426): its entry and granules free; a device's personality treats it as
poisoned (R331). -/
def Sys.dropItem (c : Nat) (y : Sys) : Sys :=
  match (y.core c).cur with
  | none => y
  | some i =>
    let y := (y.updHolly fun h => { h with gran := h.gran - i.gran }).updCore c fun k => { k with cur := none }
    if decide (1 ≤ i.flow) && decide (i.flow ≤ 8192) && (y.slot i.flow).pers.code != 0 then y.persPoison i.flow else y

/-- What a reset of core `c` does to its work, its interrupts and its mailboxes (R426). -/
def Sys.coreDrop (c : Nat) (y : Sys) : Sys :=
  let y := ((y.dropItem c).returnSlots c).dropService c
  ((y.coreMail c).clearHalt (corePg c)).incFld (corePg c) 0x50 23 16

/-- A core reset by command (1) or by the watchdog (2) (R426): it ends in IDLE, or in STARTING where local SRAM has to be
reloaded. A HALTED core's reset has cause 3 (DEDUCED, log 34). -/
def Sys.coreReset (c cause : Nat) (y : Sys) : Sys :=
  let k := y.core c
  let reload := k.st == .halted || k.st == .starting
  let y := (y.coreDrop c).updCore c fun k =>
    { k with cause := if k.st == .halted && cause == 1 then 3 else cause,
             st := if reload then .starting else if k.st == .draining then .draining else .idle }
  let y := if reload then y else y.mbxAgain (c + 1)
  y.entryFreed.routeAll

/-- A core's domain is asked to leave ON (R427): the core takes nothing more, and its prefetched items return. -/
def Sys.coreDrain (c : Nat) (y : Sys) : Sys :=
  let y := y.returnSlots c
  if (y.core c).st == .halted then y else y.updCore c fun k => { k with st := .draining }

/-- The entry is given up (R511): the core works again. -/
def Sys.coreBack (c : Nat) (y : Sys) : Sys :=
  (y.updCore c fun k => if k.st == .draining then { k with st := if k.cur.isSome then .running else .idle } else k).routeAll

/-- Whether a draining core has nothing left to finish. -/
def Sys.coreDrained (y : Sys) (c : Nat) : Bool :=
  let k := y.core c
  k.st == .halted || (k.cur.isNone && k.nsrc.isNone && k.fsrc.isNone)

/-- Local SRAM is loaded anew, or lost: what it holds is not defined byte by byte. -/
def Sys.lsFresh (c : Nat) (y : Sys) : Sys :=
  { y with eng := { y.eng with lsram := y.eng.lsram.filter (fun e => e.1 / 0x40000 != c),
                               lsEpoch := FMap.upd 0 c (· + 1) y.eng.lsEpoch } }

/-- COREc enters OFF: a core reset with cause 4; local SRAM is lost, registers return to their reset values (R426, R502). -/
def Sys.coreOff (c : Nat) (y : Sys) : Sys :=
  let y := (y.coreDrop c).updCore c fun _ => { cause := 4 }
  ((y.lsFresh c).resetPages fun g => g == corePg c).entryFreed

/-- COREc enters RETENTION: WSC_CORE_STAT.STATE reads OFF (R423). -/
def Sys.coreSleep (c : Nat) (y : Sys) : Sys := y.updCore c fun k => { k with st := .off }

/-- COREc is ON again (R424): from OFF its local SRAM is reloaded, from RETENTION it is IDLE. -/
def Sys.coreOn (c : Nat) (fromOff : Bool) (y : Sys) : Sys :=
  (y.updCore c fun k =>
    { k with st := if fromOff then .starting else if y.halted (corePg c) then .halted else .idle }).routeAll

/-- The reload ends (R424, R462): the core is IDLE, and what waits in its mailboxes is told again. -/
def Sys.coreReady (c : Nat) (y : Sys) : Sys :=
  (((y.updCore c fun k => { k with st := .idle }).lsFresh c).mbxAgain (c + 1)).routeAll

/-- The watchdog's limit has passed (R425). -/
def Sys.watchdog (c : Nat) (y : Sys) : Sys :=
  if (y.core c).cur.isSome && (y.pgReg wscPg 0x4C).fld 15 0 != 0 then (y.recordErr wscPg 9 c).coreReset c 2 else y

/-- Whether no core can run the items that hold entries (R428). -/
def Sys.allStopped (y : Sys) : Bool :=
  !y.allItems.isEmpty && (List.range 16).all fun c =>
    let d := y.dom (18 + c)
    (y.core c).st == .halted || !y.workEn c || ((y.core c).st == .off && d.trans == .none && !d.wake)

end Sys2Proof.Machine
end

