-- ==== Sys2Proof/Machine/Off.lean ====
section
/-! DEFINITION. What is lost when a domain turns OFF (R85, R242, R471, R502, R503, R527), and the forced switching of domains
(R473, R485, R499, R566, R570). -/

namespace Sys2Proof.Machine

/-- Switch a domain without phases: what was in progress or pending for it is forgotten; its counts and its last refuser stay,
being registers of the island. -/
def Sys.setDom (d : Nat) (st : DomSt) (y : Sys) : Sys :=
  y.updDom d fun m => { m with st := st, trans := .none, target := none, byWake := false, wake := false }

/-! ## Marigold's units -/

/-- The domain that a unit needs (R524); 63: none. Memory 16 is shared SRAM, memory c the local SRAM of core c. -/
def MUnit.dom : MUnit → Nat
  | .cal p => 8 + p / 16
  | .scrub m _ => if m = 16 then 17 else 18 + m
  | _ => 63

/-- Activities whose domain is OFF are abandoned (R527). -/
def Sys.dropUnits (d : Nat) (y : Sys) : Sys :=
  y.updMari fun m =>
    { m with wait := m.wait.filter (fun w => w.u.dom != d), run := m.run.filter (fun u => u.dom != d),
             calLeft := m.calLeft.filter (fun e => 8 + e.1 / 16 != d),
             scrubLine := m.scrubLine.filter (fun e => (MUnit.scrub e.1 0).dom != d),
             scrubDone := m.scrubDone.filter (fun e => (MUnit.scrub e.1 0).dom != d),
             scrubLate := m.scrubLate.filter (fun e => (MUnit.scrub e.1 0).dom != d) }

/-! ## Port regions -/

/-- A port of a region that turns OFF (R503), or is quarantined (R564). -/
def Sys.portGone (cause p : Nat) (y : Sys) : Sys :=
  if (y.port p).st == .off && !y.pending p [0, 1, 2] then y else y.rootOff p cause .off

/-- Transfers of region `n` that have finished go on as far as they can. -/
def Sys.settleRegion (n : Nat) (y : Sys) : Sys :=
  each (fun (x : Xfer) (y : Sys) => y.tryPost x.id) (y.host.xfers.filter fun x => x.port / 16 == n && x.fin.isSome) y

/-- What a region had captured, or staged, is no more (R85). -/
def Sys.commitForget (n : Nat) (y : Sys) : Sys :=
  let mine := fun (o : Nat) => decide (regionBase n ≤ o) && decide (o < regionBase (n + 1))
  let y := { y with host := { y.host with
    capRegs := y.host.capRegs.filter (fun c => !mine c.off), capTabs := y.host.capTabs.filter (fun c => c.1 / 16 != n),
    capPages := y.host.capPages.filter (fun g => !mine g), capPorts := y.host.capPorts.filter (fun c => !mine c.1), staged := y.host.staged.filter (fun e => !mine e.1),
    mismatch := FMap.put false n false y.host.mismatch } }
  y.commitDone

/-- The working state of region `n`'s blocks is as after power-on. -/
def Sys.regionFresh (n : Nat) (y : Sys) : Sys :=
  let other := fun (k : Nat) => k / 16 != n
  { y with usb := { y.usb with
      pace := y.usb.pace.filter (fun e => e.1 != n), ptab := y.usb.ptab.filter (fun e => other e.1),
      frame := y.usb.frame.filter (fun e => other e.1), fifo := y.usb.fifo.filter (fun e => other e.1),
      dma := y.usb.dma.filter (fun e => e.1 / 32 != n + 1), rot := y.usb.rot.filter (fun e => e.1 != n),
      ports := y.usb.ports.filter (fun e => other e.1), credit := y.usb.credit.filter (fun e => e.1 / 1024 != n),
      curEp := y.usb.curEp.filter (fun e => e.1 / 1024 != n), enums := y.usb.enums.filter (fun e => other e.port),
      power := { y.usb.power with stag5 := FMap.put [] n [] y.usb.power.stag5,
                                  stag5Run := FMap.put false n false y.usb.power.stag5Run } } }

/-- PRGn enters OFF (R85, R242, R503): every port goes to OFF with detach handling, cause DOMAIN_OFF; FIFO contents, periodic
tables and staged registers are lost; every register takes its reset value. -/
def Sys.prgOff (n : Nat) (y : Sys) : Sys :=
  let y := each (fun k (y : Sys) => y.portGone 5 (16 * n + k)) (List.range 16) y
  let y := (y.regionFresh n).settleRegion n
  ((((y.commitForget n).resetPages fun g => g.dom == n).dropSources n).dropUnits n).settleInsts

/-- PHYn enters OFF: packets in its ports' FIFOs are lost, and their transfers complete as a port reset's do (R130, R242; DEDUCED,
log 35): begun ones with PORT_RESET, those not begun are discarded, and their rings pause. One that had finished keeps its
status; the chip's own start over. -/
def Sys.phyFifo (p : Nat) (y : Sys) : Sys :=
  let f := y.fifo p
  let ids := (f.tx.map (·.xid) ++ f.rx.map (·.xid)).dedup
  if ids.isEmpty then y
  else
    let xs := ids.filterMap y.xfer?
    let y := y.updFifo p fun _ => {}
    let y := each (fun n (y : Sys) => y.ringSlotEvent n 8 .paused)
      ((xs.filter fun x => x.fin.isNone && x.inst.isSome).map (·.slot)).dedup y
    each (fun (x : Xfer) (y : Sys) =>
      match y.xfer? x.id with
      | some x =>
        if x.fin.isSome then y.tryPost x.id
        else if x.always then
          ((y.dropRsv x).splitDone p x.id).updX x.id fun x =>
            { x with strikes := 0, recvd := 0, begun := false, rxDone := false }
        else if x.inst.isNone then y.updX x.id fun x => { x with filled := x.moved }
        else y
      | none => y) xs y

/-- Region `n`'s PHY calibration is lost; it is redone when PHYn leaves OFF (R503, R508, R531). -/
def Sys.phyExit (n : Nat) (y : Sys) : Sys := y.updMari fun m => { m with uncal := FMap.put false n true m.uncal }

/-- The fields of region `n`'s link-cell registers that no domain else holds take their reset values (R502). -/
def Sys.portRegs (n : Nat) (y : Sys) : Sys :=
  each (fun k (y : Sys) => y.updPort (16 * n + k) fun q => { q with step := 0, attempt := 0, cause := 0, rwEn := true })
    (List.range 16) y

/-- PHYn enters OFF (R502, R503). -/
def Sys.phyOff (n : Nat) (y : Sys) : Sys :=
  let y := (each (fun k (y : Sys) => y.phyFifo (16 * n + k)) (List.range 16) y).portRegs n
  (((y.resetPages fun g => g.dom == 8 + n).dropSources (8 + n)).dropUnits (8 + n)).phyExit n

/-- On leaving OFF every register of a port region takes its reset value (R502), what was recorded in it while OFF included. -/
def Sys.regsFresh (d : Nat) (y : Sys) : Sys :=
  if d < 8 then y.resetPages fun g => g.dom == d
  else if d < 16 then (y.portRegs (d - 8)).resetPages fun g => g.dom == d
  else y

/-! ## What a domain loses -/

/-- The contents of a domain that enters OFF are lost. HOST and SCHED turn OFF only with everything (R503). -/
def Sys.domLost (d : Nat) (y : Sys) : Sys :=
  if d < 8 then y.prgOff d
  else if d < 16 then y.phyOff (d - 8)
  else if 18 ≤ d ∧ d < 34 then (y.coreOff (d - 18)).dropUnits d
  else y

/-- CORE0-CORE15, PHY0-PHY7 and PRG0-PRG7 turn OFF without quiesce (R485, R566). -/
def Sys.workOff (y : Sys) : Sys :=
  let y := each (fun c (y : Sys) => (y.domLost (18 + c)).setDom (18 + c) .off) (List.range 16) y
  each (fun n (y : Sys) => ((y.phyOff n).prgOff n).setDom (8 + n) .off |>.setDom n .off) (List.range 8) y

/-- The wake latches still set hold their CIC sources asserted (R517). -/
def Sys.relatch (y : Sys) : Sys :=
  each (fun l (y : Sys) =>
    if (y.pgReg (onePg .snw 1) (0x48 + 4 * (l / 32))).bit (l % 32) then y.updSrc (256 + l) fun s => { s with lvl := true } else y)
    (List.range 39) y

/-- The function's configuration space is reset; AER's sticky status bits survive an FLR (PCIe Base 4.0; PRESUMED, log 9). -/
def Sys.cfgReset (flr : Bool) (y : Sys) : Sys :=
  { y with pins := { y.pins with d3hot := false, pasidEn := false, pmeEn := false, pmeStatus := false, roEn := true,
                                 mps := if flr then y.pins.mps else 0, mrrs := 2, extTag := false, bar0 := 0, bar2 := 0, bar4 := 0,
                                 aerCor := if flr then y.pins.aerCor else 0, aerUnc := if flr then y.pins.aerUnc else 0 } }

/-- Everything outside the always-on island is as after power-on (R473, R499, R542, R570, R573): rings, instances, slots,
ports, items, SRAM, registers and what waited on chip. NV registers, the timebase, the island's pages and the
COMPAT sample stay. -/
def Sys.wipe (y : Sys) : Sys :=
  let ep := (List.range 16).foldl (fun m c => FMap.upd 0 c (· + 1) m) y.eng.lsEpoch
  let y := each (fun d (y : Sys) => y.dropUnits d) (List.range 34) y
  let isle := fun (o : Nat) => match Pg.ofOff o with | some g => g.region == 10 | none => false
  ({ y with
    regs := y.regs.filter (fun e => isle e.1), heldOut := [], heldPasid := [], waitq := [],
    nvReads := y.nvReads.filter (fun r => r.org == Origin.smbus), usb := {}, host := {},
    eng := { sram := { epoch := y.eng.sram.epoch + 1 }, lsEpoch := ep },
    contain := { y.contain with halted := y.contain.halted.filter (fun e => isle e.1), resetting := [] } }).relatch

/-- Every domain OFF, everything outside the island lost. -/
def Sys.allOff (y : Sys) : Sys := each (fun d (y : Sys) => y.setDom d .off) (List.range 34) (y.wipe.cfgReset false)

end Sys2Proof.Machine
end

