-- ==== Sys2Proof/Machine/Ldr.lean ====
section
/-! DEFINITION. The loader: its window and queue, the checks of a Guerit image, acceptance, failure and retirement (R470-R487,
R492, R494, R495). -/

namespace Sys2Proof.Machine

/-- LDR page 0. -/
def ldrPg : Pg := onePg .ldr 0

/-- Change the loader. -/
def Sys.updLdr (f : Loader → Loader) (y : Sys) : Sys := { y with ldr := f y.ldr }

/-- Bytes of the image area (R55). -/
def imageLen : Nat := 6291456

/-- The owner key hash, NV registers 272-283, as last accepted (R481, R493). -/
def NvStore.ownerHash (s : NvStore) : List Word := (List.range 12).map fun i => s.last (272 + i)

/-- Whether an owner key hash is provisioned (R481). -/
def hashSet (h : List Word) : Bool := h.any fun w => w != 0

/-- The loader enters LOADING, and latches OWNER_LOCK (R492). -/
def Sys.enterLoading (y : Sys) : Sys :=
  y.updLdr fun l => { l with phase := .loading, ownerLock := hashSet y.nv.ownerHash }

/-- LDR_STAT.PHASE (R470). -/
def Phase.code : Phase → Nat
  | .notReady => 0 | .loading => 1 | .verifying => 2 | .starting => 3 | .ready => 4

/-! ## The loader queue (R476, R477) -/

/-- LDQ's entry count. -/
def Sys.ldqSize (y : Sys) : Nat := 2 ^ (y.pgReg ldrPg 0x68).fld 4 0
/-- LDQ entries not yet finished (R136). -/
def Sys.ldqUsed (y : Sys) : Nat := inUse y.ldqSize (y.pgReg ldrPg 0x6C).toNat (y.pgReg ldrPg 0x70).toNat
/-- The host address of the entry at LDQ's consumer index. -/
def Sys.ldqAddr (y : Sys) : Nat :=
  lohi (y.pgReg ldrPg 0x60) (y.pgReg ldrPg 0x64) + 32 * ((y.pgReg ldrPg 0x70).toNat % 65536)

/-- The entry at the consumer index is finished: STATUS is written, and then LDR_LDQ_CI advances. -/
def Sys.ldqDone (status : Nat) (y : Sys) : Sys :=
  (y.emit (.mem none false false (y.ldqAddr + 24) (dwBytes [Word.ofN status]))).setPg ldrPg 0x70
    (Word.ofN (advIdx y.ldqSize (y.pgReg ldrPg 0x70).toNat))

/-- Whether the loader takes an LDQ entry now. -/
def Sys.ldqTakes (y : Sys) : Bool :=
  y.hostOn && !y.contain.chipFault && y.ldr.phase == .loading && (y.pgReg ldrPg 0x68).bit 31 &&
    decide (0 < y.ldqUsed)

/-- Bytes that a COPY had brought before its read failed. How many is not stated, nor what they are: free values. -/
def Sys.copyCut (len : Nat) (y : Sys) : Nat × List Byte :=
  let k := (Config.freeWord y.fresh).toNat % (len + 1)
  (k, (List.range k).map fun i => (Config.freeWord (y.fresh + 1 + i)).byte 0)

/-- A COPY that is refused before anything is read (R477). -/
def copyBad (e : List Word) : Bool :=
  (e.getD 0 0).fld 7 0 != 1 || (e.getD 2 0).fld 22 0 == 0 ||
    decide (imageLen < (e.getD 1 0).fld 22 0 + (e.getD 2 0).fld 22 0)

/-- COPY (R477): BAD_PARAM copies nothing, a failed read keeps what came before it. A poisoned completion is a failed read
(R211). -/
def Sys.ldqCopy (e : List Word) (rd : ReadRes) (y : Sys) : Sys :=
  let off := (e.getD 1 0).fld 22 0
  let len := (e.getD 2 0).fld 22 0
  if copyBad e then y.ldqDone 0x02
  else
    match rd with
    | .ok bytes => (((y.setSramL off (bytes.take len)).markSram off len false)).ldqDone 0x00
    | _ =>
      let c := y.copyCut len
      (({ y with fresh := y.fresh + 1 + c.1 }).setSramL off c.2).ldqDone 0x0A

/-- LDR_GO is accepted (R475, R482): verification starts. -/
def Sys.goAccept (fromLdq : Bool) (y : Sys) : Sys :=
  (y.updLdr fun l => { l with phase := .verifying, hash := y.nv.ownerHash, go := fromLdq }).incFld ldrPg 0x58 7 0

/-- A write of LDR_GO (R56, R475). -/
def Sys.ldrGo (v : Word) (y : Sys) : Sys :=
  if y.ldr.phase == .ready then y.accErr ldrPg
  else if v != 0x4F47 || y.ldr.phase != .loading || decide (0 < y.ldqUsed) then y.cfgErr ldrPg
  else y.goAccept false

/-! ## The Guerit container (R478-R481) -/

/-- A section entry (R479). -/
structure Sect where
  ty : Nat
  src : Nat
  dest : Nat
  len : Nat
  deriving DecidableEq, Repr

/-- The little-endian dword of an image at offset `o`. -/
def imgDw (b : Nat → Byte) (o : Nat) : Word := Word.ofN (leNat [b o, b (o + 1), b (o + 2), b (o + 3)])

/-- A 48-byte little-endian number of an image (R480). -/
def imgNum (b : Nat → Byte) (o : Nat) : Nat := leNat ((List.range 48).map fun i => b (o + i))

/-- Bytes of an image. -/
def imgBytes (b : Nat → Byte) (n : Nat) : List Byte := (List.range n).map b

/-- Section `i`. -/
def imgSect (b : Nat → Byte) (i : Nat) : Sect :=
  let o := 0x40 + 16 * i
  ⟨(imgDw b o).fld 7 0, (imgDw b (o + 4)).fld 22 0, (imgDw b (o + 8)).fld 22 0, (imgDw b (o + 12)).fld 22 0⟩

/-- SIG_OFF. -/
def imgSig (b : Nat → Byte) : Nat := (imgDw b 0x28).fld 22 0
/-- OSIG_OFF; 0 without an owner block. -/
def imgOsig (b : Nat → Byte) : Nat := (imgDw b 0x2C).fld 22 0
/-- NSECT. -/
def imgNsect (b : Nat → Byte) : Nat := (b 0x14).toNat
/-- The sections. -/
def imgSects (b : Nat → Byte) : List Sect := (List.range (min 12 (imgNsect b))).map (imgSect b)

/-- The header bytes that R478 does not list. -/
def reservedHdr : List Nat :=
  [0x0B, 0x15, 0x16, 0x17, 0x23, 0x27, 0x2B, 0x2F] ++ (List.range 8).map (0x18 + ·) ++ (List.range 16).map (0x30 + ·)

/-- Check 2 of R482: the lengths and offsets agree with R478. -/
def lengthsOk (b : Nat → Byte) : Bool :=
  let len := (imgDw b 8).fld 22 0
  let sig := imgSig b
  let osig := imgOsig b
  (imgDw b 0x20).fld 22 0 == 256 && sig == 256 + (imgDw b 0x24).fld 22 0 && sig % 16 == 0 &&
    (osig == 0 || osig == sig + 128) && len == (if osig = 0 then sig + 128 else sig + 384) && decide (len ≤ imageLen)

/-- Whether two ranges have no byte in common. -/
def apart (a n b m : Nat) : Bool := decide (a + n ≤ b) || decide (b + m ≤ a)

/-- A section by itself agrees with R479. -/
def sectOk (sig : Nat) (s : Sect) : Bool :=
  decide (1 ≤ s.len) && decide (256 ≤ s.src) && decide (s.src + s.len ≤ sig) &&
    (match s.ty with
     | 1 => decide (0x400000 ≤ s.dest) && decide (s.dest + s.len ≤ 0x600000)
     | 2 => decide (0x700000 ≤ s.dest) && decide (s.dest + s.len ≤ 0x800000)
     | _ => false)

/-- Check 3 of R482: NSECT and every section agree with R479; the entries beyond NSECT are 0. -/
def sectsOk (b : Nat → Byte) : Bool :=
  let n := imgNsect b
  let ss := imgSects b
  decide (1 ≤ n) && decide (n ≤ 12) && ss.all (sectOk (imgSig b)) && (ss.filter fun s => s.ty == 1).length == 1 &&
    ((List.range n).all fun i => (List.range n).all fun j =>
      let s := imgSect b i
      let t := imgSect b j
      i == j || (apart s.dest s.len t.dest t.len && apart s.dest s.len t.src t.len)) &&
    ((List.range (16 * (12 - n))).all fun i => b (0x40 + 16 * n + i) == 0)

/-- Check 4 of R482: the Welotte signature (R481). -/
def welotteOk (b : Nat → Byte) : Bool :=
  ecdsaOk Config.welotteKey (sha384 (imgBytes b (imgSig b))) (imgNum b (imgSig b)) (imgNum b (imgSig b + 48))

/-- The dwords of a digest as NV registers 272-283 hold them (R481). -/
def ownerDigest (b : Nat → Byte) : List Word := byteDws (sha384 ((List.range 96).map fun i => b (imgOsig b + i)))

/-- Check 7 of R482: the owner signature (R481). -/
def ownerOk (b : Nat → Byte) : Bool :=
  let o := imgOsig b
  ecdsaOk (imgNum b o, imgNum b (o + 48)) (sha384 (imgBytes b (o + 96))) (imgNum b (o + 96)) (imgNum b (o + 144))

/-- The checks of R482 in their order, for an image and the owner key hash in force; 1: ACCEPTED. -/
def verdict (b : Nat → Byte) (hash : List Word) : Nat :=
  if imgDw b 0 != 0x54495247 then 0x10
  else if (imgDw b 4).fld 15 0 ≠ 3 ∨ (imgDw b 4).fld 31 16 ≠ 256 ∨ (reservedHdr.any fun o => b o != 0) then 0x11
  else if !lengthsOk b then 0x12
  else if !sectsOk b then 0x13
  else if !welotteOk b then 0x20
  else if !hashSet hash then 1
  else if imgOsig b = 0 then 0x21
  else if ownerDigest b != hash then 0x22
  else if !ownerOk b then 0x23
  else 1

/-! ## Results -/

/-- A result is posted (R470, R487): LDR_STAT.RESULT, the loader's message, and the GO entry finished. -/
def Sys.ldrPost (code : Nat) (y : Sys) : Sys :=
  let y := (y.updLdr fun l => { l with result := code }).ldrMsg
  if y.ldr.go then (y.updLdr fun l => { l with go := false }).ldqDone code else y

/-- What every failure does: BOOT_FAIL with the code, a count, LOADING (R483, R485, R494, R495). -/
def Sys.ldrFail (code : Nat) (y : Sys) : Sys :=
  ((y.recordErr ldrPg 8 code).incFld ldrPg 0x58 15 8).enterLoading.ldrPost code

/-- A firmware start fails (R485): every domain below HOST and SCHED is OFF, and the image area is not defined (R474). -/
def Sys.startFail (code fw ms : Nat) (y : Sys) : Sys :=
  let y := (y.workOff).updLdr fun l => { l with fwCode := fw, startMs := ms }
  let y := { y with eng := { y.eng with sram := { epoch := y.eng.sram.epoch + 1 } } }
  y.ldrFail code

/-- The bytes of shared SRAM after acceptance (R484): each section at its destination, 0 everywhere else. -/
def Sys.placeSects (b : Nat → Byte) (y : Sys) : Sys :=
  let ss := (imgSects b).map fun s => (s.dest, (List.range s.len).map fun i => b (s.src + i))
  let y := { y with eng := { y.eng with sram := { zero := true, epoch := y.eng.sram.epoch } } }
  each (fun (s : Nat × List Byte) (y : Sys) => y.setSramL s.1 s.2) ss y

/-- CORE0-CORE15, PHY0-PHY7 and PRG0-PRG7 turn ON (R471): the cores reload, and every region waits for its full
calibration. -/
def Sys.workOn (y : Sys) : Sys :=
  let y := each (fun n (y : Sys) =>
    (((y.setDom n .on).setDom (8 + n) .on).regsFresh n).regsFresh (8 + n) |>.phyExit n) (List.range 8) y
  each (fun c (y : Sys) => (y.setDom (18 + c) .on).coreOn c true) (List.range 16) y

/-- Acceptance (R484). -/
def Sys.accept (y : Sys) : Sys :=
  let b := y.sramByte
  let y := y.updLdr fun l =>
    { l with phase := .starting, image := imgDw b 0xC, build := imgDw b 0x10, ownerChecked := hashSet l.hash, acceptedAt := y.tb }
  ((y.ldrPost 1).placeSects b).workOn

/-- Whether an uncorrectable word stands among the first `n` bytes of the image area (R420). -/
def Sys.imgBad (y : Sys) (n : Nat) : Bool := y.eng.sram.poison.any fun w => decide (w * 8 < n)

/-- The result of verification (R482). An uncorrectable word is met when it is read: the header's by checks 1-3, the rest of the image's
by those after them (DEDUCED, log 14). -/
def Sys.imageResult (sramErr : Bool) (y : Sys) : Nat :=
  let v := verdict y.sramByte y.ldr.hash
  if sramErr || y.imgBad 256 then 0x32
  else if 0x10 ≤ v ∧ v ≤ 0x13 then v
  else if y.imgBad ((imgDw y.sramByte 8).fld 22 0) then 0x32
  else v

/-- Verification ends (R482-R484). -/
def Sys.verified (ms : Nat) (sramErr : Bool) (y : Sys) : Sys :=
  let y := y.updLdr fun l => { l with verifyMs := ms }
  let code := y.imageResult sramErr
  if code = 1 then y.accept else y.ldrFail code

/-- Ports of region `n` that are to be powered ask for their base reservations, in ascending k (R246, R257, R261). -/
def Sys.bootPorts (n : Nat) (y : Sys) : Sys :=
  each (fun k (y : Sys) =>
    let w := y.nvProfile (16 * n + k)
    if w.bit 0 || w.bit 1 then y else y.powerOnReq (16 * n + k)) (List.range 16) y

/-- MANAGER_READY is posted (R486): the loader retires, the firmware's calibrations have ended (R484), ports power on. -/
def Sys.managerReady (ms : Nat) (y : Sys) : Sys :=
  let y := (y.updLdr fun l => { l with phase := .ready, startMs := ms }).ldrMsg
  let y := (y.mbxReset 19 6).updMari fun m => { m with uncal := [] }
  each (fun n (y : Sys) => y.bootPorts n) (List.range 8) y

/-! ## The image area -/

/-- Whether the image area answers (R56, R474). -/
def Sys.imageLets (y : Sys) : Bool :=
  y.hostOn && !y.contain.chipFault && (y.ldr.phase == .loading || y.ldr.phase == .verifying)

/-- Store the bytes whose byte enables are set. -/
def Sys.imgStore (o : Nat) : List (Option Byte) → Sys → Sys
  | [], y => y
  | some b :: r, y => (y.setSram o b).imgStore (o + 1) r
  | none :: r, y => y.imgStore (o + 1) r

/-- A write to the image area (R55, R56, R474, R475). -/
def doImageWrite (off : Nat) (data : List (Option Byte)) (y : Sys) : Sys :=
  if imageLen ≤ off then y.refuse .loader off false true
  else if !y.imageLets then y.refuse .loader off false false
  else if y.ldr.phase == .verifying then y.accErr ldrPg
  else (y.imgStore off (data.take (imageLen - off))).markSram off (min data.length (imageLen - off)) false

end Sys2Proof.Machine
end

