-- ==== Sys2Proof/Machine/Halts.lean ====
section
/-! DEFINITION. Error containment: storage cells, halts, quarantine, chip fault, the resets of a region and of a port unit, and
error injection (R20, R21, R558-R572). -/

namespace Sys2Proof.Machine

/-- Snowdrop's page 3 (R576). -/
def snw3 : Pg := onePg .snw 3

/-- A block halts (R560): BLK_STAT.HALTED of its pages. -/
def Sys.markHalt (g : Pg) (y : Sys) : Sys :=
  { y with contain := { y.contain with halted := FMap.put false g.haltKey true y.contain.halted } }

/-! ## Quarantine and chip fault -/

/-- SNW_FAULT, SNW_FAULT_BLK and SNW_FAULT_MF take a quarantine or a chip fault while VALID = 0 (R563): the block's BLK_ID and
its ERR_FIRST. -/
def Sys.faultRecord (g : Pg) (chip : Bool) (y : Sys) : Sys :=
  if y.contain.valid then y
  else
    let f := y.pgReg g 0x20
    { y with contain := { y.contain with valid := true, code := f.fld 4 0, region := g.region, chip := chip,
                                         detail := f.fld 31 16, blkId := g.blkId, mf := y.mf } }

/-- Quarantines and chip faults are counted (R576). -/
def Sys.faultCount (y : Sys) : Sys := y.incFld snw3 0x44 31 24

/-- Packets received and not yet drained are discarded (R564); their transfers complete DETACHED. -/
def Sys.rxLost (p : Nat) (y : Sys) : Sys :=
  let ids := ((y.fifo p).rx.filter fun t => t.st == .committed).map (·.xid)
  let y := y.updFifo p fun f => { f with rx := f.rx.map (fun t => if t.st == .committed then { t with st := .done } else t) }
  let y := y.reclaimRx p
  each (fun id (y : Sys) =>
    match y.xfer? id with
    | some x => if x.fin.isSome then (y.updX id fun x => { x with fin := some 9 }).tryPost id else y.finX id 9
    | none => y) ids.dedup y

/-- Steps 2-5 of R564: nothing of region `n` runs, every port is OFF, cause FAULT. -/
def Sys.stopRegion (n : Nat) (y : Sys) : Sys :=
  let y := each (fun k (y : Sys) => y.rxLost (16 * n + k)) (List.range 16) y
  (each (fun k (y : Sys) => y.portGone 10 (16 * n + k)) (List.range 16) y).settleRegion n

/-- Region `n` is quarantined because block `g` halted (R564). -/
def Sys.quarantine (n : Nat) (g : Pg) (y : Sys) : Sys :=
  if y.quar n || y.contain.chipFault then y
  else
    let y := (y.faultRecord g false).faultCount
    let y := { y with contain := { y.contain with quar := FMap.put false n true y.contain.quar } }
    let y := y.setPg ⟨.prg, n, 0⟩ 0x48 (Word.ofN (1 + g.blk.type * 65536))
    (y.recordErr ⟨.prg, n, 0⟩ 8 g.blk.type).stopRegion n

/-- AER's report of a chip fault (R566, R567). With the HST endpoint itself halted it comes only if the transaction layer can
still send, which is not stated: a free choice. -/
def Sys.faultAer (g : Pg) (y : Sys) : Sys :=
  if g.blk == .hst then
    let y2 := { y with fresh := y.fresh + 1 }
    if (Config.freeWord y.fresh).bit 0 then y2.aer .uncorrectableInternal else y2
  else y.aer .uncorrectableInternal

/-- A chip fault because block `g` halted (R566): nothing host-bound leaves from here on, and every domain below HOST and SCHED
turns OFF. A reset in progress is abandoned (R572). -/
def Sys.chipFault (g : Pg) (y : Sys) : Sys :=
  if y.contain.chipFault then y
  else
    let y := (y.faultRecord g true).faultCount
    let y := { y with contain := { y.contain with chipFault := true, resetting := [] } }
    (y.faultAer g).workOff

/-- The host region or the engine region is quarantined, and a chip fault follows at once (R565); the chip fault is recorded
first (R563). -/
def Sys.topFault (r : Nat) (g : Pg) (y : Sys) : Sys :=
  if y.contain.chipFault then y
  else
    let y := { y with contain := { y.contain with quar := FMap.put false r true y.contain.quar } }
    (y.faultCount).chipFault g

/-! ## Block halt -/

/-- The loader's halt before MANAGER_READY (R485, R560). -/
def Sys.ldrHalt (y : Sys) : Sys :=
  match y.ldr.phase with
  | .loading | .verifying => y.ldrFail 0x32
  | .starting => y.startFail 0x32 0 ((y.tb - y.ldr.acceptedAt) / 1000)
  | _ => y

/-- What a block's halt does (R560). -/
def Sys.haltBlock (g : Pg) (y : Sys) : Sys :=
  match g.blk with
  | .nvs => y
  | .lnk | .fif => (y.markHalt g).portGone 10 g.inst
  | .frm | .rdma | .pwr | .prg => (y.markHalt g).quarantine g.inst g
  | .hst | .imu | .hdma | .rng | .ten => (y.markHalt g).topFault 8 g
  | .wsc | .cic => (y.markHalt g).topFault 9 g
  | .ldr => (y.markHalt g).ldrHalt
  | .core => (y.markHalt g).updCore g.inst fun k => { k with st := .halted }
  | .snw => (y.markHalt g).chipFault g
  | .mon | .mnt | .tmb | .mbx => y.markHalt g

/-- UNCORR is recorded in a page, and its block halts (R63, R560). -/
def Sys.uncorr (g : Pg) (detail : Nat) (y : Sys) : Sys := (y.recordErr g 2 detail).haltBlock g

/-! ## Storage cells (R558, R559) -/

/-- A device whose context is lost is detached, with everything behind it, cause FAULT (R559). The state of its port is not
stated: it is disabled (DESIGN CHOICE, log 37). -/
def Sys.slotFault (n : Nat) (y : Sys) : Sys :=
  let s := y.slot n
  if !s.used then y
  else
    let y := y.dropTree s.port s.tier 10
    if s.tier = 0 then ((y.rootClear s.port).detachPower s.port).portDisable s.port else y.hubPortDisable s.port s.tier

/-- A word of the shared SRAM is poisoned (R420, R559); an item whose data lies in it carries the poison flag (R331). -/
def Sys.sramFault (a : Nat) (y : Sys) : Sys :=
  let y := (y.markSram (a / 8 * 8) 8 true).mapItems fun i => { i with poison := i.poison || i.inWord (a / 8) }
  if a < 0x400000 then y.slotFault (a / 0x200 + 1) else y

/-- The word of a packet of `n` bytes from ring word `s` on that lies at ring word `w`, if one does. -/
def wordIn (w s n : Nat) : Option Nat :=
  let i := (w + 2048 - s % 2048) % 1024
  if i < pktWords n then some i else none

/-- A packet's words of bad parity with one more. -/
def badAdd (l : List Nat) (w : Option Nat) : List Nat :=
  match w with
  | some i => if l.contains i then l else l ++ [i]
  | none => l

/-- A word of a staging FIFO is poisoned (R220, R558): words 0-1,023 are TX, 1,024-2,047 RX. -/
def Sys.fifoFault (p a : Nat) (y : Sys) : Sys :=
  if a % 2048 < 1024 then
    y.updFifo p fun f => { f with tx := f.tx.map (fun t =>
      if t.live then { t with bad := badAdd t.bad (wordIn (a % 1024) t.start t.data.length) } else t) }
  else
    y.updFifo p fun f => { f with rx := f.rx.map (fun t =>
      if t.st != .done then { t with bad := badAdd t.bad (wordIn (a % 1024) t.start t.data.length) } else t) }

/-- Blocks whose storage SECDED protects (R558, R569). -/
def secded : Blk → Bool
  | .rng | .wsc | .core | .frm | .hst | .nvs => true
  | _ => false

/-- An NV cell that cannot be read gives 0 (R558). -/
def Sys.nvLost (j : Nat) (y : Sys) : Sys :=
  { y with nv := { y.nv with val := FMap.put (if j = 284 then 0x6A else 0) j 0 y.nv.val } }

/-- An error of a protected cell (R558). `detail` is what ERR_FIRST.DETAIL takes; on a WSC or FIFO page, 0 names the word at
`addr` of shared SRAM or of the FIFO pair, and any other value an entry or stage; on an NVS page it is the register. -/
def Sys.cellFault (g : Pg) (e : CellErr) (detail addr : Nat) (y : Sys) : Sys :=
  if g.dom != 63 && (y.dom g.dom).st == .off then y
  else if g.blk == .fif && detail == 0 then y.fifoFault g.inst addr
  else if e == .single && secded g.blk then y.recordErr g 0 detail
  else
    match g.blk with
    | .wsc => if detail = 0 ∧ addr < 0x800000 then y.sramFault addr else y.uncorr g detail
    | .nvs => (y.recordErr g 2 (detail % 1024)).nvLost (detail % 1024)
    | _ => y.uncorr g detail

/-! ## Injection (R568, R569) -/

/-- Whether a block defines an ERR_STAT cause. -/
def definesCause (b : Blk) (c : Nat) : Bool := decide (c ≤ 4) || (specCauses b).contains c

/-- Whether a cause can be injected in a mode. -/
def canInject (b : Blk) (mode c : Nat) : Bool :=
  match mode with
  | 2 => definesCause b c
  | 0 | 1 =>
    match c with
    | 0 => secded b
    | 1 => b == .fif || b == .wsc || b == .hdma || b == .rdma
    | 2 => b != .snw && b != .nvs
    | _ => false
  | _ => false

/-- A write of ERR_INJECT (R568). DESIGN CHOICE (log 87): R568 and R569 refuse arming writes alone, so a write with ARM = 0 is stored
whatever MODE and CAUSE it holds, the reserved MODE 3 and a cause that the block does not define included. -/
def Sys.errInject (g : Pg) (v : Word) (y : Sys) : Sys :=
  let c := v.fld 4 0
  let m := v.fld 9 8
  let w := Word.ofN (c + m * 256 + (if v.bit 16 then 65536 else 0))
  if !v.bit 16 then y.setPg g 0x28 w
  else if !canInject g.blk m c then y.cfgErr g
  else if m = 2 then (y.setPg g 0x28 (w.put 16 16 0)).recordErr g c 0
  else y.setPg g 0x28 w

/-- Whether page `g` has cause `c` armed for its next eligible event. -/
def Sys.armed (y : Sys) (g : Pg) (c : Nat) : Bool :=
  let w := y.pgReg g 0x28
  w.bit 16 && decide (w.fld 9 8 ≤ 1) && decide (w.fld 4 0 = c)

/-- An injection has been carried: MODE 0 clears ARM. -/
def Sys.disarm (g : Pg) (y : Sys) : Sys :=
  if (y.pgReg g 0x28).fld 9 8 = 0 then y.setFld g 0x28 16 16 0 else y

/-- The pages of a page's block. -/
def Pg.blockPages (g : Pg) : List Pg := (List.range g.blk.npages).map fun i => { g with page := i }

/-- An eligible event of a block carries an armed CORR or UNCORR (R568). Which of a command's effects writes a protected word,
entry or stage is not stated row by row: one command of the block is one event (DESIGN CHOICE, log 38). -/
def Sys.carry (g : Pg) (y : Sys) : Sys :=
  each (fun q (y : Sys) =>
    if y.halted q then y
    else if y.armed q 0 then (y.disarm q).recordErr q 0 0
    else if y.armed q 2 then (y.disarm q).uncorr q 0
    else y) g.blockPages y

/-- Whether a word of a block carries an armed POISON, and the state after. -/
def Sys.poisonNow (g : Pg) (y : Sys) : Bool × Sys :=
  match g.blockPages.find? fun q => y.armed q 1 with
  | some q => (true, y.disarm q)
  | none => (false, y)

/-- What an image write or an LDQ copy has written to shared SRAM carries what is armed for it (R568). -/
def Sys.sramCarry (before : Sram) (off : Nat) (y : Sys) : Sys :=
  if y.eng.sram = before then y
  else
    match y.poisonNow (onePg .wsc 0) with
    | (p, y) => (if p then y.markSram off 1 true else y).carry (onePg .wsc 0)

/-- An image write with its eligible event. -/
def doImage (off : Nat) (data : List (Option Byte)) (y : Sys) : Sys := (doImageWrite off data y).sramCarry y.eng.sram off

/-- A packet received carries a POISON armed for its FIFO (R568): its first word to enter the ring. -/
def Sys.fifCarry (was p : Nat) (y : Sys) : Sys :=
  if (y.fifo p).rxNum = was || ((y.fifo p).rx.getLast?.elim true fun t => t.data.isEmpty) then y
  else
    match y.poisonNow ⟨.fif, p, 0⟩ with
    | (q, y) =>
      let n := (y.fifo p).rxNum
      (if q then y.updFifo p fun f => { f with rx := f.rx.map (fun t => if t.num + 1 == n then { t with bad := badAdd t.bad (some 0) } else t) }
       else y).carry ⟨.fif, p, 0⟩

/-! ## Region and port unit resets (R571) -/

/-- The halts of region `n`'s blocks clear (R561). -/
def Sys.unhaltRegion (n : Nat) (y : Sys) : Sys :=
  { y with contain := { y.contain with halted := y.contain.halted.filter (fun e =>
      match Pg.ofOff e.1 with | some g => g.region != n | none => true) } }

/-- A region reset is requested (R571, R576): steps 1-3 at once, and PRGn begins its exit. -/
def Sys.regionReset (n : Nat) (y : Sys) : Sys :=
  let y := y.incFld snw3 0x44 23 16
  if y.ldr.phase != .ready || y.contain.chipFault || FMap.get false n y.contain.resetting then y
  else
    let y := if y.quar n then y else y.stopRegion n
    let y := ((y.countReq (8 + n)).phyOff n).setDom (8 + n) .off
    let y := (((y.countReq n).prgOff n).setDom n .off).unhaltRegion n
    let y := { y with contain := { y.contain with quar := FMap.put false n false y.contain.quar,
                                                  resetting := FMap.put false n true y.contain.resetting } }
    (y.updDom n fun m => { m with trans := .exit }).updDom (8 + n) fun m => { m with trans := .waitParent }

/-- The last step of a region reset: its domains are ON again, and its ports power on. -/
def Sys.regionBack (n : Nat) (y : Sys) : Sys :=
  ({ y with contain := { y.contain with resetting := FMap.put false n false y.contain.resetting } }).bootPorts n

/-- The recording error registers of a page return to their reset values. -/
def Sys.errClear (g : Pg) (y : Sys) : Sys :=
  (((y.setPg g 0x18 0).setPg g 0x20 0).setPg g 0x24 0).setPg g 0x2C 0

/-- A port unit reset (R571); discarded while a wider reset runs (R572) or the region is quarantined. -/
def Sys.portUnit (p : Nat) (y : Sys) : Sys :=
  if y.quar (p / 16) || FMap.get false (p / 16) y.contain.resetting || y.contain.chipFault then y
  else
    let y := y.portGone 10 p
    let y := ((y.clearHalt (lnkPg p)).clearHalt (fifPg p)).errClear (lnkPg p)
    let y := y.errClear (fifPg p)
    let w := y.nvProfile p
    if y.ldr.phase == .ready && !w.bit 0 && !w.bit 1 then y.powerOnReq p else y

end Sys2Proof.Machine
end

