-- ==== Sys2Proof/Machine/Nv.lean ====
section
/-! DEFINITION. The persistent register store: acceptance, durability, wear and spares, and what an accepted write changes at once
(R73-R79, R248, R255, R492, R493, R534-R537, R555). -/

namespace Sys2Proof.Machine

/-- NVS page 0. -/
def nvsPg : Pg := onePg .nvs 0

/-- The NVS page that holds register `j` (R73). -/
def nvPage (j : Nat) : Pg := onePg .nvs (1 + j / 512)
/-- Its offset in the page. -/
def nvOff (j : Nat) : Nat := 0x800 + 4 * (j % 512)

/-- The bits of register `j` that hold a value; reserved bits and registers read 0 and ignore writes (R10, R74, R253, R254, R384,
R549). -/
def nvMask (j : Nat) : Word :=
  if j < 128 then 0x0FFFFFDF
  else if j < 256 then 0x7FFF
  else if j = 259 then 0xFFFF
  else if j < 268 then 0xFFFFF
  else if j < 272 then 0
  else if j < 284 then 0xFFFFFFFF
  else if j = 284 then 0x17F
  else if j < 512 then 0
  else 0xFFFFFFFF

/-- Writes after which a cell is retired (R534). -/
def nvLife : Nat := 1000000

/-- COUNT of register `j` (R73). -/
def NvStore.count (s : NvStore) (j : Nat) : Nat := FMap.get 0 j s.cnt
/-- Free spares (R555). -/
def NvStore.free (s : NvStore) : Nat := 64 - s.taken
/-- Whether register `j` is being migrated: from the durable write that requested it (R78, R526). -/
def NvStore.migrating (s : NvStore) (j : Nat) : Bool := s.want.contains j
/-- Whether an earlier write of `j` is on its way to durability. -/
def NvStore.pendingOf (s : NvStore) (j : Nat) : Nat := (s.bufs.filter fun w => w.reg == j).length

/-- Change the store. -/
def Sys.updNv (f : NvStore → NvStore) (y : Sys) : Sys := { y with nv := f y.nv }

/-! ## Acceptance -/

/-- The address field of register 284 is one that is not used (R549). -/
def smbBad (w : Word) : Bool := decide (w.fld 6 0 < 8) || decide (0x78 ≤ w.fld 6 0)

/-- SMB_ERR is set and counted (R554). -/
def Sys.smbErr (y : Sys) : Sys := (y.recordErr (onePg .snw 0) 10 0).incFld (onePg .snw 2) 0x50 31 16

/-- What an accepted write of register `j` changes at once (R248, R255, R493, R549). -/
def Sys.nvEffect (j : Nat) (y : Sys) : Sys :=
  if j < 128 then (if (y.nv.last j).bit 0 && y.canOff j && y.on (j / 16) then y.portEvent j 1 (Sys.portOff j) else y)
  else if 256 ≤ j ∧ j < 268 then y.pass
  else if j = 284 then (if smbBad (y.nv.last 284) then y.smbErr else y)
  else y

/-- A write takes a buffer (R75). -/
def Sys.nvAccept (w : NvW) (y : Sys) : Sys := (y.updNv fun s => { s with bufs := s.bufs ++ [w] }).nvEffect w.reg

/-- Whether a write is durable at once (R76). -/
def NvStore.atOnce (s : NvStore) (w : NvW) : Bool :=
  s.pendingOf w.reg == 0 && !(s.held.any fun h => h.reg == w.reg) && s.get w.reg == w.val

/-- Whether a write finds a buffer (R75, R78). -/
def NvStore.canTake (s : NvStore) (w : NvW) : Bool := decide (s.bufs.length < 32) && !s.migrating w.reg

/-- Whether an arriving write is accepted at once (R75, R77): it finds a buffer, and no held write is to be accepted before it. -/
def NvStore.goesBy (s : NvStore) (w : NvW) : Bool := s.canTake w && !(s.held.any fun h => h.reg == w.reg || !s.migrating h.reg)

/-- An NV write arrives (R75, R76, R78): it is durable at once, accepted, or held. -/
def Sys.nvArrive (j : Nat) (v : Word) (y : Sys) : Sys :=
  let w : NvW := { reg := j, val := v &&& nvMask j }
  if nvMask j == 0 then y
  else if y.nv.migrating j then y.updNv fun s => { s with held := s.held ++ [{ w with once := s.atOnce w }] }
  else if y.nv.atOnce w then y.nvEffect j
  else if y.nv.goesBy w then y.nvAccept w
  else y.updNv fun s => { s with held := s.held ++ [w] }

/-- Who may write the owner key hash (R492). -/
def Sys.ownerWrites (y : Sys) (org : Origin) : Bool :=
  y.ldr.phase == .loading &&
    match org with
    | .smbus => true
    | .manager => !y.ldr.ownerLock
    | _ => false

/-- A write of NVS_NVj (R75, R492). -/
def Sys.nvWrite (org : Origin) (j : Nat) (v : Word) (y : Sys) : Sys :=
  if 272 ≤ j ∧ j < 284 ∧ !y.ownerWrites org then y.accErr (nvPage j) else y.nvArrive j v

/-- A write of register `j` is durable: an SMBus read that waits for it waits for one less (R12, R551). -/
def Sys.smbLess (j : Nat) (y : Sys) : Sys :=
  match y.smb.run with
  | some r => if r.reg = j then { y with smb := { y.smb with run := some { r with left := r.left - 1 } } } else y
  | none => y

/-- Reads that waited for a write of register `j` (R12, R77). -/
def Sys.nvReadsGo (j : Nat) (y : Sys) : Sys :=
  let rs := y.nvReads.map fun r => if r.reg == j then { r with left := r.left - 1 } else r
  let done := rs.filter fun r => r.left == 0
  let y := { y with nvReads := rs.filter fun r => r.left != 0 }
  { y with out := (done.map fun r => Out.cpl r.org r.off (y.nv.get r.reg)).reverse ++ y.out }

/-- A write of register `j` is durable: the reads that waited for it go on. -/
def Sys.readsOn (j : Nat) (y : Sys) : Sys := (y.nvReadsGo j).smbLess j

/-- The first held write of a register that is not being migrated is accepted where it can be; the Bool says whether one was. Whether
it is durable at once was judged where it arrived (R76). -/
def Sys.nvTakeHeld (y : Sys) : Bool × Sys :=
  let pre := y.nv.held.takeWhile fun w => y.nv.migrating w.reg
  match y.nv.held.dropWhile fun w => y.nv.migrating w.reg with
  | w :: r =>
    let y1 := y.updNv fun s => { s with held := pre ++ r }
    if w.once then (true, (y1.nvEffect w.reg).readsOn w.reg)
    else if y1.nv.canTake w then (true, y1.nvAccept w)
    else (false, y)
  | [] => (false, y)

/-! ## Durability and wear -/

/-- NV_WEAR (R537), and CIC source 16 (R447). -/
def Sys.nvWear (kind j count spare : Nat) (y : Sys) : Sys :=
  (y.meqEvent none (y.ev 0x11 0 0 0
    [Word.ofN (kind + j * 65536), Word.ofN (count + spare * 1048576), Word.ofN y.nv.free])).cicPulse 16

/-- No spare is left for register `j` (R536). -/
def Sys.nvExhausted (j : Nat) (y : Sys) : Sys := (y.nvWear 4 j nvLife 0).recordErr nvsPg 8 j

/-- THRESHOLD, once per cell (R537). -/
def Sys.nvWarn (j : Nat) (y : Sys) : Sys :=
  let c := y.nv.count j
  if decide ((y.pgReg nvsPg 0x40).fld 6 0 * 10000 ≤ c) && !FMap.get false j y.nv.warned then
    (y.updNv fun s => { s with warned := FMap.put false j true s.warned }).nvWear 1 j c 0
  else y

/-- COUNT has reached its end: WEAR is requested, or nothing is left (R534, R536). -/
def Sys.nvWorn (j : Nat) (y : Sys) : Sys :=
  if y.nv.free = 0 then y.nvExhausted j
  else (y.updNv fun s => { s with want := s.want ++ [j] }).updMari fun m =>
    { m with wait := m.wait ++ [{ u := .wear j, since := y.tb }] }

/-- A write becomes durable (R76): the value and COUNT change in one step. -/
def NvStore.land (s : NvStore) (w : NvW) : NvStore :=
  { s with val := FMap.put (if w.reg = 284 then 0x6A else 0) w.reg w.val s.val,
           cnt := FMap.put 0 w.reg (satInc nvLife (s.count w.reg)) s.cnt }

/-- The oldest accepted write becomes durable (R76, R77, R534, R537). -/
def Sys.nvDurable (y : Sys) : Sys :=
  match y.nv.bufs with
  | [] => y
  | w :: r =>
    let was := y.nv.count w.reg
    let y := y.updNv fun s => { (s.land w) with bufs := r }
    let y := y.updMari fun m => { m with cnt := { m.cnt with nvWrites := m.cnt.nvWrites + 1 } }
    let y := (y.readsOn w.reg).nvWarn w.reg
    if was < nvLife ∧ y.nv.count w.reg = nvLife then y.nvWorn w.reg else y

/-- SPARES_LOW when the number of free spares has fallen from `was` (R537). -/
def Sys.sparesLow (was : Nat) (y : Sys) : Sys :=
  let f := y.nv.free
  let w := (y.pgReg nvsPg 0x40).fld 14 8
  let y := if f ≤ w ∧ w < was then y.nvWear 3 0 0 0 else y
  if f = 0 ∧ 0 < was ∧ 0 < w then y.nvWear 3 0 0 0 else y

/-- A migration ends (R534, R536): `bad` spares failed their verification and are retired; the next one backs the register. -/
def Sys.migrated (j bad : Nat) (y : Sys) : Sys :=
  let was := y.nv.free
  let bad := min bad was
  let y := y.updNv fun s => { s with taken := s.taken + bad, want := s.want.filter (· != j) }
  let y := each (fun _ (y : Sys) => y.recordErr nvsPg 9 j) (List.range bad) y
  if y.nv.taken < 64 then
    let n := y.nv.taken
    let y := y.updNv fun s =>
      { s with taken := n + 1, spare := FMap.put 0 j (n + 1) s.spare, cnt := FMap.put 0 j 0 s.cnt,
               warned := FMap.put false j false s.warned, migrated := s.migrated + 1 }
    let y := y.updMari fun m => { m with cnt := { m.cnt with migrs := m.cnt.migrs + 1 } }
    (y.nvWear 2 j 0 n).sparesLow was
  else (y.sparesLow was).nvExhausted j

/-- The writes that became durable before VIN failed: those of each register up to the first that did not (R77). `lost` are the
registers that have had one. -/
def keptWrites (lost : List Nat) : List (NvW × Bool) → List NvW
  | [] => []
  | (w, k) :: r => if k && !lost.contains w.reg then w :: keptWrites lost r else keptWrites (w.reg :: lost) r

/-- VIN has failed before the accepted writes were durable (R79, R535): each register holds its old value or a new one in full,
with the COUNT that matches; `kept` says which, oldest write first. -/
def NvStore.cutOff (s : NvStore) (kept : List Bool) : NvStore :=
  let s := (keptWrites [] (s.bufs.zip (kept ++ List.replicate s.bufs.length false))).foldl (fun (s : NvStore) (w : NvW) =>
    let t := s.land w
    if s.count w.reg < nvLife ∧ t.count w.reg = nvLife ∧ t.taken < 64 then { t with want := t.want ++ [w.reg] } else t) s
  { s with bufs := [], held := [] }

end Sys2Proof.Machine
end

