-- ==== Sys2Proof/Machine/Mari.lean ====
section
/-! DEFINITION. Marigold: the starting of maintenance units, scrubbing, calibration, monitors and their alerts, telemetry windows
and TLQ, the thermal trip (R524-R548, R556, R557). -/

namespace Sys2Proof.Machine

/-- MNT page `i`. -/
def mntPg (i : Nat) : Pg := onePg .mnt i
/-- MON page `i`. -/
def monPg (i : Nat) : Pg := onePg .mon i

/-! ## Units (R524-R527) -/

/-- Activity codes (R524). -/
def MUnit.code : MUnit → Nat
  | .wear _ => 1 | .cal _ => 2 | .scrub _ _ => 3 | .tel .. => 4

/-- Whether two units may run together (R525). -/
def MUnit.compat (a b : MUnit) : Bool :=
  match a, b with
  | .wear i, .wear j => i != j
  | .cal p, .cal q => p != q
  | .scrub m _, .scrub n _ => m != n
  | .scrub _ _, _ => true
  | _, .scrub _ _ => true
  | _, _ => false

/-- Whether a port lets a trim step begin now (R533). -/
def Sys.calPort (y : Sys) (p : Nat) : Bool :=
  match (y.port p).st with
  | .off | .powered | .disabled | .ocWait | .ocLatched => true
  | .enabled =>
    let f := y.frame p
    (y.port p).susp == .active && f.sof && f.ended && f.cur.isNone &&
      decide (f.x + (if f.speed = .high then 720 else 18) ≤ lastEnd f.speed)
  | _ => false

/-- Whether a unit can start now (R524, R525, R527, R533). -/
def Sys.unitAble (y : Sys) (u : MUnit) : Bool :=
  y.mari.run.all (MUnit.compat u) && (MUnit.dom u == 63 || y.on (MUnit.dom u)) &&
    match u with
    | .cal p => y.calPort p
    | _ => true

/-- The precedence of a waiting unit (R526): WEAR, CAL, SCRUB, TEL; a TEL unit that has waited 20 µs goes ahead of CAL. -/
def Sys.unitRank (y : Sys) (w : MWait) : Nat :=
  match w.u with
  | .wear _ => 0
  | .cal _ => 2
  | .scrub _ _ => 3
  | .tel .. => if w.since + 20 ≤ y.tb then 1 else 4

/-- The waiting unit that starts next: the first of the best precedence among those that can start. -/
def Sys.nextUnit (y : Sys) : Option MWait :=
  (y.mari.wait.filter fun w => y.unitAble w.u).foldl (fun (a : Option MWait) w => match a with
    | none => some w
    | some b => if y.unitRank w < y.unitRank b then some w else some b) none

/-- The first waiting unit equal to `u` leaves the list. -/
def dropWait (u : MUnit) : List MWait → List MWait
  | [] => []
  | w :: r => if w.u = u then r else w :: dropWait u r

/-- A waiting unit starts (R526). Nothing starts while MNT has halted (R560). -/
def Sys.unitStart (y : Sys) : Sys :=
  if y.halted (mntPg 0) then y
  else
    match y.nextUnit with
    | some w => y.updMari fun m => { m with wait := dropWait w.u m.wait, run := m.run ++ [w.u] }
    | none => y

/-- A unit is requested. -/
def Sys.unitAsk (u : MUnit) (y : Sys) : Sys := y.updMari fun m => { m with wait := m.wait ++ [{ u := u, since := y.tb }] }

/-- A running unit has ended. -/
def Sys.unitDone (u : MUnit) (y : Sys) : Sys := y.updMari fun m => { m with run := m.run.erase u }

/-- Wake latch 38 for the domain of an activity that has waited for its whole period while the domain is in RETENTION (R527). -/
def Sys.unitWake (d : Nat) (en : Bool) (y : Sys) : Sys :=
  if en && y.isRet d && y.mari.wait.any (fun w => MUnit.dom w.u == d) then y.latchSet 38 (.doms [d]) else y

/-- Change the open window's activity counts (R548). -/
def Sys.telCount (f : TelCnt → TelCnt) (y : Sys) : Sys := y.updMari fun m => { m with cnt := f m.cnt }

/-! ## Scrubbing (R528, R529, R559) -/

/-- Lines of a memory: 16 is shared SRAM, c the local SRAM of core c. -/
def scrubLen (mem : Nat) : Nat := if mem = 16 then 131072 else 4096

/-- A memory's domain. -/
def memDom (mem : Nat) : Nat := if mem = 16 then 17 else 18 + mem

/-- A memory's next line falls due (R528); nothing is requested while its domain is OFF (R527), or when the period's pass has
ended. -/
def Sys.scrubDue (mem : Nat) (y : Sys) : Sys :=
  let l := FMap.get 0 mem y.mari.scrubLine
  if y.halted (mntPg 0) || (y.dom (memDom mem)).st == .off || FMap.get false mem y.mari.scrubDone || decide (scrubLen mem ≤ l) then y
  else (y.unitAsk (.scrub mem l)).updMari fun m => { m with scrubLine := FMap.put 0 mem (l + 1) m.scrubLine }

/-- A line of shared SRAM holds `k` words with multi-bit errors (R420, R529, R559). Words not known to be poisoned yet are taken
from the line's start (DESIGN CHOICE, log 40). -/
def Sys.lineFault (line k : Nat) (y : Sys) : Sys :=
  let ws := (List.range 8).map (8 * line + ·)
  let bad := ws.filter fun w => y.eng.sram.poison.contains w
  let more := (ws.filter fun w => !y.eng.sram.poison.contains w).take (k - bad.length)
  let y := (each (fun w (y : Sys) => y.markSram (8 * w) 8 true) more y).mapItems fun i => { i with poison := i.poison || more.any i.inWord }
  if 0x400000 ≤ 64 * line ∧ 64 * line < 0x600000 then y.topFault 9 wscPg
  else if 64 * line < 0x400000 then y.slotFault (64 * line / 0x200 + 1)
  else y

/-- A pass ends (R528): the next one begins at once where its period is over. -/
def Sys.passEnd (mem : Nat) (y : Sys) : Sys :=
  let late := FMap.get false mem y.mari.scrubLate
  y.updMari fun m => { m with scrubLine := FMap.put 0 mem 0 m.scrubLine, scrubDone := FMap.put false mem (!late) m.scrubDone,
                              scrubLate := FMap.put false mem false m.scrubLate }

/-- The line of a memory's running unit. -/
def Sys.scrubRun (y : Sys) (mem : Nat) : Option Nat :=
  y.mari.run.findSome? fun u => match u with | .scrub m l => if m = mem then some l else none | _ => none

/-- A scrub unit ends, with `c` words corrected and `k` multi-bit words found (R529, R557). -/
def Sys.scrubEnd (mem c k : Nat) (y : Sys) : Sys :=
  match y.scrubRun mem with
  | none => y
  | some l =>
    let g := if mem = 16 then wscPg else corePg mem
    let y := (y.unitDone (.scrub mem l)).telCount fun t =>
      { t with scrubLines := t.scrubLines + 1, scrubCorr := t.scrubCorr + c, scrubUnc := t.scrubUnc + k }
    let w := y.pgReg (mntPg 1) 0x44
    let y := y.setPg (mntPg 1) 0x44 (Word.ofN (min 65535 (w.fld 15 0 + c) + min 65535 (w.fld 31 16 + k) * 65536))
    let y := if l + 1 = scrubLen mem then y.passEnd mem else y
    let y := each (fun _ (y : Sys) => y.recordErr g 0 0) (List.range c) y
    if k = 0 then y
    else
      let y := y.updMari fun m => { m with everUnc := true }
      if mem = 16 then y.lineFault l k else y.uncorr g 0

/-- A memory's period ends (R528): SCRUB_LATE where its pass has not ended. -/
def Sys.scrubPeriod (mem : Nat) (y : Sys) : Sys :=
  let y := y.unitWake (memDom mem) ((y.pgReg (mntPg 1) 0x40).bit 31)
  if (y.dom (memDom mem)).st == .off then y
  else if FMap.get false mem y.mari.scrubDone then y.updMari fun m => { m with scrubDone := FMap.put false mem false m.scrubDone }
  else (y.recordErr (mntPg 0) 8 mem).updMari fun m => { m with scrubLate := FMap.put false mem true m.scrubLate }

/-! ## Calibration (R531-R533) -/

/-- The latest sample of region `n`'s temperature monitor, plus one, where it has one. -/
def Sys.calMark (n : Nat) (y : Sys) : Sys :=
  let v := if FMap.get false n y.mari.valid then FMap.get 0 n y.mari.sample + 1 else 0
  y.updMari fun m => { m with calLast := FMap.put 0 n v m.calLast }

/-- A tracking pass of region `n` is requested (R532): five steps on each port, one at a time. -/
def Sys.calPass (n : Nat) (y : Sys) : Sys :=
  if (y.dom (8 + n)).st == .off || y.halted (mntPg 0) then y
  else
    each (fun k (y : Sys) =>
      let p := 16 * n + k
      let y := if FMap.get 0 p y.mari.calLeft = 0 then y.unitAsk (.cal p) else y
      y.updMari fun m => { m with calLeft := FMap.put 0 p 5 m.calLeft }) (List.range 16) (y.calMark n)

/-- A step ends on a port (R533, R557). -/
def Sys.calEnd (p : Nat) (atEnd : Bool) (y : Sys) : Sys :=
  if y.mari.run.contains (.cal p) then
    let y := ((y.unitDone (.cal p)).telCount fun t => { t with calSteps := t.calSteps + 1 }).incFld (mntPg 2) 0x44 15 0
    let l := FMap.get 0 p y.mari.calLeft - 1
    let y := y.updMari fun m => { m with calLeft := FMap.put 0 p l m.calLeft }
    let y := if atEnd then y.recordErr (mntPg 0) 9 p else y
    if 0 < l then y.unitAsk (.cal p) else y
  else y

/-- A step has waited for 1 s (R533). -/
def Sys.calDefer (p : Nat) (y : Sys) : Sys :=
  if y.mari.wait.any (fun w => w.u == .cal p && !w.counted) then
    ((y.updMari fun m => { m with wait := m.wait.map fun w => if w.u = .cal p then { w with counted := true } else w }).telCount fun t =>
      { t with calDefer := t.calDefer + 1 }).incFld (mntPg 2) 0x44 31 16
  else y

/-- PERIOD_S has elapsed since region `n`'s pass (R532); while PHYn is in RETENTION the pass waits (R527). -/
def Sys.calPeriod (n : Nat) (y : Sys) : Sys := (y.unitWake (8 + n) ((y.pgReg (mntPg 2) 0x40).bit 31)).calPass n

/-- Region `n`'s full calibration ends (R531). -/
def Sys.fullCal (n : Nat) (y : Sys) : Sys :=
  if FMap.get false n y.mari.uncal && (y.on (8 + n) || (y.dom (8 + n)).trans == .exit) then
    (y.updMari fun m => { m with uncal := FMap.put false n false m.uncal }).calMark n
  else y

/-! ## Monitors (R538-R542) -/

/-- A sample as a number: temperatures are two's complement (R538). -/
def monInt (m v : Nat) : Int := if m < 13 ∧ 32768 ≤ v % 65536 then (v % 65536 : Int) - 65536 else (v % 65536 : Int)

/-- The domain whose pace sensor monitor `m` is (R28, R539); 63: not a pace monitor. -/
def paceDom (m : Nat) : Nat := if m < 37 then 63 else if m < 45 then m - 37 else if m = 45 then 16 else 17

/-- HYST of a monitor's class. -/
def monHyst (ctl : Word) (m : Nat) : Int :=
  if m < 13 then ctl.fld 7 0 else if m < 37 then ctl.fld 15 8 else ctl.fld 23 16

/-- Whether a condition holds after a sample (R540); `up`: above a threshold, else below it. -/
def monCond (up was : Bool) (v thr hyst : Int) : Bool :=
  if up then (if was then decide (thr - hyst < v) else decide (thr < v))
  else if was then decide (v < thr + hyst)
  else decide (v < thr)

/-! ## TLQ (R545-R548) -/

/-- Whether monitoring, thresholds and telemetry work: neither MON nor MNT has halted (R560). -/
def Sys.monWorks (y : Sys) : Bool := !y.halted (mntPg 0) && !y.halted (monPg 0)

/-- TLQ's entry count. -/
def Sys.tlqSize (y : Sys) : Nat := 2 ^ (y.pgReg (mntPg 3) 0x48).fld 4 0
/-- TLQ entries in use. -/
def Sys.tlqUsed (y : Sys) : Nat := inUse y.tlqSize (y.pgReg (mntPg 3) 0x4C).toNat (y.pgReg (mntPg 3) 0x50).toNat
/-- Whether a record can be written now (R545, R546). -/
def Sys.tlqOpen (y : Sys) : Bool :=
  (y.pgReg (mntPg 3) 0x48).bit 31 && y.hostOn && !y.contain.chipFault && y.monWorks && decide (y.tlqUsed < y.tlqSize)

/-- The 128 bytes of a record (R547). -/
def TlRec.bytes (r : TlRec) (lost : Bool) : List Byte :=
  (dwBytes [Word.ofN (r.kind + (if lost then 8 else 0) + (r.seq % 65536) * 65536), Word.ofN r.win, Word.ofN r.mf,
     Word.ofN ((r.samples % 65536) * 65536)] ++ r.body ++ List.replicate 112 0).take 128

/-- Records are written while TLQ takes them; the Bool says whether one was. `fuel` bounds them. -/
def Sys.tlqGo (fuel : Nat) (any : Bool) (y : Sys) : Bool × Sys :=
  match fuel with
  | 0 => (any, y)
  | fuel + 1 =>
    match y.mari.tlq with
    | r :: rest =>
      if y.tlqOpen then
        let pi := (y.pgReg (mntPg 3) 0x4C).toNat
        let a := lohi (y.pgReg (mntPg 3) 0x40) (y.pgReg (mntPg 3) 0x44) + 128 * (pi % 65536)
        let y := y.emit (.mem none false false a (r.bytes y.mari.lostPend))
        let y := y.setPg (mntPg 3) 0x4C (Word.ofN (advIdx y.tlqSize pi))
        (y.updMari fun m => { m with tlq := rest, lostPend := false }).tlqGo fuel true
      else (any, y)
    | [] => (any, y)

/-- Waiting records are written, and one message follows (R545). -/
def Sys.tlqDrain (y : Sys) : Sys :=
  let r := y.tlqGo y.mari.tlq.length false
  if r.1 then r.2.msix ((r.2.pgReg (mntPg 3) 0x48).fld 13 8) else r.2

/-- The first window record leaves a list. -/
def dropWin : List TlRec → List TlRec
  | [] => []
  | r :: rest => if r.kind = 4 then r :: dropWin rest else rest

/-- A discard (R546). -/
def Sys.tlqDrop (y : Sys) : Sys :=
  ((y.incFld (mntPg 3) 0x54 15 0).recordErr (mntPg 0) 10 0).updMari fun m => { m with lostPend := true }

/-- A record is produced (R546): it goes out at once where TLQ takes records, and waits in the on-chip buffer otherwise. -/
def Sys.tlqPut (r : TlRec) (y : Sys) : Sys :=
  let r := { r with seq := y.mari.seq }
  let y := y.updMari fun m => { m with seq := (m.seq + 1) % 65536 }
  if y.mari.tlq.length < 16 then
    let y := y.updMari fun m => { m with tlq := m.tlq ++ [r] }
    (y.tlqGo y.mari.tlq.length false).2
  else if y.mari.tlq.any fun q => q.kind != 4 then (y.updMari fun m => { m with tlq := dropWin m.tlq ++ [r] }).tlqDrop
  else y.tlqDrop

/-! ## Samples -/

/-- 16 bits of a number, little-endian. -/
def le16 (v : Int) : List Byte := [BitVec.ofInt 8 v, BitVec.ofInt 8 (v / 256)]
/-- 32 bits. -/
def le32 (v : Nat) : List Byte := dwBytes [Word.ofN v]

/-- One condition of monitor `m` after its sample (R540, R541): entry `e`, edge codes `eIn` and `eOut`, THERMAL's LEVEL (0: none). -/
def Sys.judge (m e eIn eOut level : Nat) (up : Bool) (thr hyst : Int) (due v : Nat) (y : Sys) : Sys :=
  let was := FMap.get false e y.mari.cond
  let now := monCond up was (monInt m v) thr hyst
  if now = was then y
  else
    let y := y.updMari fun s => { s with cond := FMap.put false e now s.cond }
    let edge := if now then eIn else eOut
    let y := y.tlqPut { kind := 4, seq := 0, win := y.mari.win, mf := 8 * due, samples := 0,
                        body := [BitVec.ofNat 8 m, BitVec.ofNat 8 edge] ++ le16 v ++ le16 thr }
    let y := y.cicPulse 15
    let y := if (y.pgReg (monPg 2) (0x48 + 4 * (m / 32))).bit (m % 32) then { y with smb := { y.smb with alert := true } } else y
    if level = 0 then y
    else y.meqEvent none (y.ev 0xD 0 0 0
      [Word.ofN (m + level * 16 + (if now then 64 else 0) + (v % 65536) * 65536), Word.ofN (thr % 65536).toNat])

/-- Monitor `m`'s sample (R539-R541, R543); the pace monitors 37-46 report 8 bits (R27). -/
def Sys.monSample (due : Nat) (lim crit : List Word) (ctl : Word) (m v : Nat) (y : Sys) : Sys :=
  let v := v % (if 37 ≤ m then 256 else 65536)
  let live_ := paceDom m == 63 || y.on (paceDom m)
  if !live_ then y.updMari fun s => { s with valid := FMap.put false m false s.valid }
  else
    let i := monInt m v
    let first := FMap.get 0 m y.mari.cnts == 0
    let y := y.updMari fun s =>
      { s with sample := FMap.put 0 m v s.sample, valid := FMap.put false m true s.valid,
               cnts := FMap.upd 0 m (· + 1) s.cnts, sums := FMap.upd 0 m (· + i) s.sums,
               mins := FMap.upd 0 m (fun a => if first ∨ i < a then i else a) s.mins,
               maxs := FMap.upd 0 m (fun a => if first ∨ a < i then i else a) s.maxs }
    let l := lim.getD m 0
    let h := monHyst ctl m
    let y := y.judge m (3 * m) 1 2 (if m < 13 then 1 else 0) true (monInt m (l.fld 31 16)) h due v
    let y := y.judge m (3 * m + 1) 3 4 0 false (monInt m (l.fld 15 0)) h due v
    if m < 13 then y.judge m (3 * m + 2) 5 6 2 true (monInt m ((crit.getD m 0).fld 15 0)) h due v else y

/-- MEAN (R544): rounded toward zero. -/
def Sys.monMean (y : Sys) (m : Nat) : Int :=
  let c := FMap.get 0 m y.mari.cnts
  if c = 0 then 0 else Int.tdiv (FMap.get 0 m y.mari.sums) c

/-- The bodies of a window's TEMP, VOLT and PACE records (R548). -/
def Sys.telBody (y : Sys) (kind : Nat) (c : TelCnt) (free : Nat) : List Byte :=
  let lo := fun (m : Nat) => FMap.get 0 m y.mari.mins
  let hi := fun (m : Nat) => FMap.get 0 m y.mari.maxs
  match kind with
  | 1 => (List.range 13).flatMap fun i => le16 (lo i) ++ le16 (hi i) ++ le16 (y.monMean i)
  | 2 => (List.range 24).flatMap fun i => le16 (lo (13 + i)) ++ le16 (hi (13 + i))
  | _ =>
    ((List.range 10).flatMap fun i =>
      let m := 37 + i
      [BitVec.ofInt 8 (lo m), BitVec.ofInt 8 (hi m), BitVec.ofInt 8 (y.monMean m), 0] ++ le16 (Int.ofNat (FMap.get 0 m y.mari.cnts))) ++
    le32 c.scrubLines ++ le16 c.scrubCorr ++ le16 c.scrubUnc ++ le16 c.calSteps ++ le16 c.calDefer ++ le32 c.nvWrites ++
      [BitVec.ofNat 8 c.migrs, BitVec.ofNat 8 free]

/-- The open window closes with the sample due at its end (R543, R544). -/
def Sys.winClose (due : Nat) (y : Sys) : Sys :=
  let s := y.mari.snap.getD (y.mari.cnt, y.nv.free, 1000)
  let rec_ := fun (k : Nat) (y : Sys) => y.tlqPut { kind := k, seq := 0, win := y.mari.win, mf := 8 * due, samples := y.mari.nSamples,
                                                    body := y.telBody k s.1 s.2.1 }
  let y := rec_ 3 (rec_ 2 (rec_ 1 y))
  y.updMari fun m =>
    { m with win := m.win + 1, winStart := due, winLen := s.2.2, nSamples := 0, mins := [], maxs := [], sums := [], cnts := [],
             snap := none }

/-- A region's temperature has moved by DELTA since its last pass (R532). -/
def Sys.calDelta (n : Nat) (y : Sys) : Sys :=
  let l := FMap.get 0 n y.mari.calLast
  let d := monInt n (FMap.get 0 n y.mari.sample) - monInt n (l - 1)
  if l ≠ 0 ∧ FMap.get false n y.mari.valid ∧ ((y.pgReg (mntPg 2) 0x40).fld 23 16 : Int) ≤ (if d < 0 then -d else d) then y.calPass n
  else y

/-- The thermal trip (R542). -/
def Sys.thermalTrip (y : Sys) : Sys :=
  let y := { y.allOff with ldr := {} }
  let y := { y with pins := { y.pins with railen := false, needPerst := true } }
  (y.recordErr (onePg .snw 0) 9 0).updMari fun m => { m with tripped := true, everTrip := true }

/-- Whether two samples in a row of one temperature monitor exceed 135 °C (R542). -/
def Sys.tooHot (y : Sys) (samples : List Nat) : Bool :=
  (List.range 13).any fun m => decide (540 < monInt m (y.mari.temps.getD m 0)) && decide (540 < monInt m (samples.getD m 0))

/-- The thermal trip's comparators see the temperatures of a sample (R542, R560). -/
def Sys.tripSense (samples : List Nat) (y : Sys) : Sys :=
  let hot := y.tooHot samples
  let y := y.updMari fun m => { m with temps := samples.take 13 }
  if hot && !y.mari.tripped then y.thermalTrip else y

/-- A TEL unit falls due (R539, R540): the thresholds in force now are kept for it; at a window's end its counts and the next
window's length are kept too (R543, R544). -/
def Sys.telDue (y : Sys) : Sys :=
  let due := y.mari.telNext
  let y := { y with tb := max y.tb (1000 * due) }
  let y := y.updMari fun m => { m with telNext := due + 1 }
  if !y.monWorks then y
  else
    let lim := (List.range 47).map fun m => y.pgReg (monPg 1) (0x40 + 4 * m)
    let crit := (List.range 13).map fun m => y.pgReg (monPg 1) (0x100 + 4 * m)
    let y := if due = y.mari.winStart + y.mari.winLen then
        y.updMari fun m => { m with snap := some (m.cnt, y.nv.free, (y.pgReg (mntPg 0) 0x44).fld 15 0), cnt := {} }
      else y
    y.unitAsk (.tel due lim crit (y.pgReg (monPg 0) 0x40))

/-- The running TEL unit. -/
def Sys.telRun (y : Sys) : Option MUnit := y.mari.run.find? fun u => MUnit.code u == 4

/-- What a TEL unit's samples bring (R539-R541, R543-R545): the monitors' values and alerts, the end of a window; one message
follows the records written. -/
def Sys.telTake (due : Nat) (lim crit : List Word) (ctl : Word) (samples : List Nat) (y : Sys) : Sys :=
  let pi := y.pgReg (mntPg 3) 0x4C
  let y := (y.unitDone (.tel due lim crit ctl)).updMari fun m => { m with nSamples := m.nSamples + 1 }
  let y := each (fun m (y : Sys) => y.monSample due lim crit ctl m (samples.getD m 0)) (List.range 47) y
  let y := if due = y.mari.winStart + y.mari.winLen then y.winClose due else y
  let y := if y.pgReg (mntPg 3) 0x4C = pi then y else y.msix ((y.pgReg (mntPg 3) 0x48).fld 13 8)
  each (fun n (y : Sys) => y.calDelta n) (List.range 8) y

/-- A TEL unit ends with its 47 samples (R539-R545, R560): with MON or MNT halted they reach the thermal trip alone. -/
def Sys.telEnd (samples : List Nat) (y : Sys) : Sys :=
  if !y.monWorks then y.tripSense samples
  else
    match y.telRun with
    | some (.tel due lim crit ctl) => (y.telTake due lim crit ctl samples).tripSense samples
    | _ => y

/-- Whether every temperature sample reads 115 °C or less (R542). -/
def Sys.cool (y : Sys) : Bool := (List.range 13).all fun m => decide (monInt m (y.mari.temps.getD m 0) ≤ 460)

/-- A write of MNT_TLQ_CI (R136, R557). -/
def Sys.tlqCi (v : Word) (y : Sys) : Sys :=
  let ci := v.fld 16 0
  let pi := (y.pgReg (mntPg 3) 0x4C).toNat
  if qBad y.tlqSize pi ci ci then y.cfgErr (mntPg 3)
  else (y.setPg (mntPg 3) 0x50 (Word.ofN ci)).tlqDrain

end Sys2Proof.Machine
end

