-- ==== Sys2Proof/Machine/Domains.lean ====
section
/-! DEFINITION. Power domains: requests, refusals, cascades, entry and exit, what a domain's return brings, and the function's power
state (R502-R517). -/

namespace Sys2Proof.Machine

/-- Snowdrop's page 0. -/
def snw0 : Pg := onePg .snw 0

/-- A domain state's rank: ON above RETENTION above OFF (R504). -/
def DomSt.rank : DomSt → Nat
  | .off => 0 | .ret => 1 | .on => 2

/-- The state a code names (R69). -/
def domStOf (n : Nat) : DomSt := match n with | 0 => .off | 1 => .ret | _ => .on

/-! ## Refusals (R510-R513) -/

/-- A refusal or an abort: its reason and its refuser's page. -/
structure Refuse where
  reason : Nat
  who : Pg
  port : Nat := 0
  deriving DecidableEq, Repr

/-- The lowest port of region `n` that keeps PRGn and PHYn ON (R503). -/
def Sys.activePort (y : Sys) (n : Nat) : Option Nat :=
  ((List.range 16).map (16 * n + ·)).find? fun p =>
    y.pending p [0, 1, 2] ||
      (match (y.port p).st with
       | .off | .powered | .suspended | .ocLatched => false
       | _ => true)

/-- The lowest port of region `n` that keeps PHYn from OFF (R315, R503). -/
def Sys.armedPort (y : Sys) (n : Nat) : Option Nat :=
  ((List.range 16).map (16 * n + ·)).find? fun p => (y.port p).st == .suspended && (y.port p).rwEn

/-- Reason 2. -/
def Sys.refuseActive (y : Sys) (n : Nat) : Option Refuse := (y.activePort n).map fun p => { reason := 2, who := lnkPg p, port := p }

/-- Reason 3. -/
def Sys.refuseArmed (y : Sys) (n : Nat) : Option Refuse := (y.armedPort n).map fun p => { reason := 3, who := lnkPg p, port := p }

/-- Whether core `c` is the last ON core with WORK_EN = 1 while an item holds an entry (R427). -/
def Sys.lastCore (y : Sys) (c : Nat) : Bool :=
  y.on (18 + c) && y.workEn c && !y.allItems.isEmpty &&
    (List.range 16).all fun k => k == c || !(y.on (18 + k) && y.workEn k)

/-- Why the entry of domain `d` into `t` is refused (R503, R510), its own conditions first and then its children's (R504). -/
def Sys.entryRefused (y : Sys) (d : Nat) (t : DomSt) : Option Refuse :=
  if d < 8 then
    match y.refuseActive d with
    | some r => some r
    | none => if t == .off && (y.dom (8 + d)).st != .off then y.refuseArmed d else none
  else if d < 16 then
    match y.refuseActive (d - 8) with
    | some r => some r
    | none => if t == .off then y.refuseArmed (d - 8) else none
  else if d = 17 then
    if t == .off then some { reason := 5, who := wscPg }
    else if !y.allItems.isEmpty || y.eng.holly.rsv.any (fun e => e.2 != 0) then some { reason := 6, who := wscPg }
    else none
  else if y.lastCore (d - 18) then some { reason := 7, who := wscPg }
  else none

/-- DOMAIN_REFUSED, the last refuser of the domain requested (R512, R522), and CIC source 13 (R447). KIND 1 refused, 2 aborted. -/
def Sys.domRefused (d : Nat) (t : DomSt) (kind src : Nat) (r : Refuse) (y : Sys) : Sys :=
  let id := r.who.first.blkId
  let y := y.updDom d fun m =>
    { m with refused := if kind = 1 then satInc 255 m.refused else m.refused,
             aborted := if kind = 2 then satInc 255 m.aborted else m.aborted, refuser := id,
             rsn := Word.ofN (r.reason + kind * 16 + t.code * 256 + src * 1024 + 2147483648) }
  (y.meqEvent none (y.ev 0x10 0 r.port 0
    [Word.ofN (d + t.code * 256 + kind * 1024 + r.reason * 4096 + src * 65536), id])).cicPulse 13

/-! ## Entry -/

/-- Whether a child does not keep its parent from entering `t`. -/
def Sys.childDown (y : Sys) (t : DomSt) (c : Nat) : Bool :=
  decide ((y.dom c).st.rank ≤ t.rank) && ((y.dom c).trans == .none || (y.dom c).trans == .waitParent)

/-- QUIESCE begins (R508): the domain starts no new work. -/
def Sys.quiesce (d : Nat) (t : DomSt) (y : Sys) : Sys :=
  let y := y.updDom d fun m => { m with trans := .quiesce t }
  if 18 ≤ d ∧ (y.dom d).st = .on then y.coreDrain (d - 18) else y

/-- A cascaded entry of a child (R504): counted; a child in transition takes it as its pending target. -/
def Sys.lowerChild (t : DomSt) (c : Nat) (y : Sys) : Sys :=
  if y.childDown t c then y
  else
    let y := y.countReq c
    match (y.dom c).trans with
    | .none => (y.updDom c fun m => { m with src := 2, byWake := false }).quiesce c t
    | .quiesce u | .commit u | .waitChild u =>
      if u.rank ≤ t.rank then y else y.updDom c fun m => { m with target := some (t, 2) }
    | _ => y.updDom c fun m => { m with target := some (t, 2) }

/-- An accepted entry begins: its children first (R504). -/
def Sys.lower (d : Nat) (t : DomSt) (src : Nat) (y : Sys) : Sys :=
  let y := y.updDom d fun m => { m with src := src, byWake := false, trans := .waitChild t }
  let y := each (fun c (y : Sys) => y.lowerChild t c) (domChildren d) y
  if (domChildren d).all (y.childDown t) then y.quiesce d t else y

/-! ## Requests -/

/-- A request for a domain that is in no transition (R504, R507, R510). -/
def Sys.domGo (d : Nat) (t : DomSt) (src : Nat) (y : Sys) : Sys :=
  let m := y.dom d
  if t == m.st then y
  else if t == .on then
    if d < 16 && m.st == .off && y.quar (d % 8) then
      y.domRefused d t 1 src { reason := 9, who := ⟨.prg, d % 8, 0⟩ }
    else if !y.pins.railpg then y
    else (y.updDom d fun m => { m with src := src }).beginExit 2 false d
  else if t == .ret && m.st == .off then y
  else
    match y.entryRefused d t with
    | some r => y.domRefused d t 1 src r
    | none => y.lower d t src

/-- A SNW_DOM_REQ write (R506, R507, R510, R513, R514, R522). SOURCE 0 is the manager, 1 an engine core. -/
def Sys.domReq (d st src : Nat) (y : Sys) : Sys :=
  if 34 ≤ d ∨ 3 ≤ st then y.cfgErr snw0
  else
    let t := domStOf st
    let m := y.dom d
    if t == .ret && m.st == .off && m.trans == .none then y.cfgErr snw0
    else
      let y := y.countReq d
      if y.ldr.phase != .ready then y.domRefused d t 1 src { reason := 1, who := ldrPg }
      else if d = 16 then y.domRefused d t 1 src { reason := 4, who := onePg .hst 0 }
      else if y.contain.chipFault then y
      else if m.trans != .none then y.updDom d fun m => { m with target := some (t, src) }
      else y.domGo d t src

/-! ## Ends of transitions -/

/-- The pending target is applied as a new request (R514). -/
def Sys.applyTarget (d : Nat) (y : Sys) : Sys :=
  match (y.dom d).target with
  | some (t, src) => (y.updDom d fun m => { m with target := none }).domGo d t src
  | none => y

/-- What came to the wake latches while PRGn or PHYn was not ON is acted on (R250, R315, R516), and OFF = 1 written to the profile
meanwhile (R248; DEDUCED, log 69). -/
def Sys.replayPort (p : Nat) (y : Sys) : Sys :=
  let q := y.port p
  let y := if q.ocPend && y.on (p / 16) then
      (y.updPort p fun q => { q with ocPend := false }).portEvent p 0 (Sys.hardTrip p)
    else y
  let y := if (y.nv.last p).bit 0 && y.canOff p && y.on (p / 16) then y.portEvent p 1 (Sys.portOff p) else y
  if y.on (8 + p / 16) then
    let y := if q.wakePend != 0 && q.susp == .suspended then (y.updPort p fun q => { q with wakePend := 0 }).remoteWake p (q.wakePend - 1) (q.wakeMf, q.wakeUs) else y
    let y := y.updPort p fun q => { q with linePend := 0 }
    match q.linePend with
    | 0 => y
    | 1 => y.portEvent p 2 (Sys.portDisconnect p)
    | 2 => y.portConnect p .low
    | 3 => y.portConnect p .full
    | _ => y.portConnect p .high
  else y

/-- Port-region replays. -/
def Sys.replayRegion (n : Nat) (y : Sys) : Sys := each (fun k (y : Sys) => y.replayPort (16 * n + k)) (List.range 16) y

/-- A domain that waited for its parent begins its exit (R504). -/
def Sys.raiseChildren (d : Nat) (y : Sys) : Sys :=
  each (fun c (y : Sys) => if (y.dom c).trans == .waitParent then y.updDom c fun m => { m with trans := .exit } else y)
    (domChildren d) y

/-- What a domain's return to ON brings: CIC edges, the writes that waited for HOST, cores, ports (R424, R451, R505, R509). -/
def Sys.domBack (d : Nat) (fromOff : Bool) (y : Sys) : Sys :=
  let y := y.takeLatches d
  if d = 16 then y.releaseHost.releaseMsgs.meqFlush.tlqDrain
  else if d = 17 then y.routeAll
  else if 18 ≤ d then y.coreOn (d - 18) fromOff
  else if d < 8 then
    ((if fromOff && !(FMap.get false d y.contain.resetting) then y.bootPorts d else y.replayRegion d).vbusKick d).hpwrKick
  else if FMap.get false (d - 8) y.contain.resetting then y.regionBack (d - 8)
  else (if fromOff then y else y.calPass (d - 8)).replayRegion (d - 8)

/-- A domain that is in no transition after an entry or an abort: a wake held meanwhile is replayed, ahead of a pending target
that is not ON (R515). -/
def Sys.domSettle (d : Nat) (y : Sys) : Sys :=
  let m := y.dom d
  let y := y.updDom d fun m => { m with wake := false }
  if m.wake && m.st != .on then
    (if m.target.map (·.1) == some .on then y.updDom d fun m => { m with target := none } else y).wakeDom d
  else y.applyTarget d

/-- An entry has been completed below a parent that waits for its children (R504). -/
def Sys.parentGoes (c : Nat) (y : Sys) : Sys :=
  match domParent c with
  | some d =>
    match (y.dom d).trans with
    | .waitChild t => if (domChildren d).all (y.childDown t) then y.quiesce d t else y
    | _ => y
  | none => y

/-- COMMIT ends (R502, R508): the state is reached, and what OFF loses is lost. A core that is no longer ON may leave a request without a
core to take it (R453). -/
def Sys.enterState (d : Nat) (t : DomSt) (y : Sys) : Sys :=
  let y := if t == .off then y.domLost d else if 18 ≤ d then y.coreSleep (d - 18) else y
  let y := y.updDom d fun m => { m with st := t, trans := .none, byWake := false }
  let y := if 18 ≤ d then y.routeAll else y
  ((y.parentGoes d).domSettle d).cicPulse 13

/-- Whether PHYn, having left OFF, has still to be calibrated (R508, R531). -/
def Sys.calibrating (y : Sys) (d : Nat) : Bool := decide (8 ≤ d) && decide (d < 16) && FMap.get false (d - 8) y.mari.uncal

/-- An exit ends (R508, R509). -/
def Sys.leaveState (d : Nat) (y : Sys) : Sys :=
  let fromOff := (y.dom d).st == .off
  let y := y.updDom d fun m => { m with st := .on, trans := .none, byWake := false, wake := false }
  let y := if fromOff then y.regsFresh d else y
  (((y.raiseChildren d).domBack d fromOff).applyTarget d).cicPulse 13

/-- A domain's transition ends (R509, R514, R515). -/
def Sys.domEnd (d : Nat) (y : Sys) : Sys :=
  match (y.dom d).trans with
  | .commit t => y.enterState d t
  | .exit => if y.calibrating d then y else y.leaveState d
  | _ => y

/-! ## Drains -/

/-- Whether engine `e` has a burst in flight among channels. -/
def Sys.dmaBusy (y : Sys) (e : Nat) : Bool :=
  y.usb.dma.any fun k => k.1 / 32 == e && (k.2.st == .active || k.2.st == .preempted || k.2.st == .retry)

/-- Whether what domain `d` had begun is finished (R427, R505, R508). -/
def Sys.drained (y : Sys) (d : Nat) : Bool :=
  if d < 8 then !y.dmaBusy (d + 1) else if d = 16 then !y.dmaBusy 0 else if 18 ≤ d then y.coreDrained (d - 18) else true

/-- A QUIESCE drain finishes, and COMMIT begins (R508). -/
def Sys.drainEnd_ (d : Nat) (y : Sys) : Sys :=
  match (y.dom d).trans with
  | .quiesce t => if y.drained d then y.updDom d fun m => { m with trans := .commit t } else y
  | _ => y

/-- The block that did not drain (R510). -/
def drainRefuser (d : Nat) : Pg := if d < 8 then ⟨.rdma, d, 0⟩ else if 18 ≤ d then corePg (d - 18) else wscPg

/-- A domain's entry aborts (R511, R514): it is ON again and resumes its work. -/
def Sys.entryAbort (d : Nat) (t : DomSt) (r : Refuse) (y : Sys) : Sys :=
  let src := (y.dom d).src
  let was := (y.dom d).st
  let y := y.updDom d fun m => { m with trans := .none, wake := false, byWake := false }
  let y := y.domRefused d t 2 src r
  let y := if 18 ≤ d ∧ was = .on then y.coreBack (d - 18) else y
  let y := if d < 16 then y.replayRegion (d % 8) else y
  y.applyTarget d

/-- A QUIESCE drain that has not finished exceeds DRAIN_US (R511); SCHED's hand-offs are the engine's own. HOST's entry waits for its bursts instead (R505). A parent that waited for the child
gives up with the child's reason and refuser (R504; DEDUCED, log 39). -/
def Sys.drainLate (d : Nat) (y : Sys) : Sys :=
  match (y.dom d).trans with
  | .quiesce t =>
    if d = 16 ∨ d ≠ 17 ∧ y.drained d = true then y
    else
      let r : Refuse := { reason := 8, who := drainRefuser d }
      let y := y.entryAbort d t r
      match domParent d with
      | some p =>
        match (y.dom p).trans with
        | .waitChild u => y.entryAbort p u r
        | _ => y
      | none => y
  | _ => y

/-! ## The function's power state (R505) -/

/-- Software places the function in D3hot: HOST enters RETENTION once its bursts have ended. -/
def Sys.d3hot (y : Sys) : Sys :=
  let y := { y with pins := { y.pins with d3hot := true } }
  match (y.dom 16).trans with
  | .none => if (y.dom 16).st == .on then y.quiesce 16 .ret else y
  | _ => y.updDom 16 fun m => { m with target := some (.ret, 2) }

/-- Software writes D0: HOST returns to ON. -/
def Sys.d0 (y : Sys) : Sys :=
  let y := { y with pins := { y.pins with d3hot := false } }
  match (y.dom 16).trans with
  | .none => if (y.dom 16).st == .ret then y.updDom 16 fun m => { m with trans := .exit } else y
  | _ => y.updDom 16 fun m => { m with target := some (.on, 2) }

end Sys2Proof.Machine
end

