-- ==== Sys2Proof/Machine/Boot.lean ====
section
/-! DEFINITION. Power-on reset, PERST#, the supplies, the function reset and the boundary test (R470-R473, R497-R499, R542, R570,
R573, R587-R591). -/

namespace Sys2Proof.Machine

/-! ## Boundary scan (R589-R591) -/

/-- Change the test access port. -/
def Sys.updJtag (f : Jtag → Jtag) (y : Sys) : Sys := { y with jtag := f y.jtag }

/-- PRG0-PRG7 in a boundary test: ON while a test runs and RAILPG is high, else OFF. No domain request is counted. -/
def Sys.testDoms (on : Bool) (y : Sys) : Sys :=
  let y := each (fun n (y : Sys) => y.setDom n (if on then .on else .off)) (List.range 8) y
  y.updJtag fun j => { j with acting := on }

/-- A boundary test begins (R591): RAILEN is driven high. -/
def Sys.testBegin (y : Sys) : Sys :=
  let y := { y with pins := { y.pins with railen := true } }
  (y.updJtag fun j => { j with test := true }).testDoms y.pins.railpg

/-- A boundary test ends: PRG0-PRG7 are OFF, and RAILEN falls. -/
def Sys.testEnd_ (y : Sys) : Sys :=
  if y.jtag.test then
    let y := (y.testDoms false).updJtag fun j => { j with test := false }
    { y with pins := { y.pins with railen := false } }
  else y

/-! ## Power-on reset (R497, R573) -/

/-- The block as power-on reset leaves it: the NV store is kept, and the domains' memories hold nothing that is known. What has
already left the chip has left it. -/
def Sys.powerReset (compat : Bool) (nv : NvStore) (y : Sys) : Sys :=
  { nv := nv, out := y.out, fresh := y.fresh, pins := { compat := compat },
    mari := { wait := nv.want.map fun j => { u := .wear j, since := 0 } },
    eng := { sram := { epoch := y.eng.sram.epoch + 1 },
             lsEpoch := (List.range 16).foldl (fun m c => FMap.upd 0 c (· + 1) m) y.eng.lsEpoch } }

/-- VIN falls below its threshold (R79, R497). -/
def Sys.vinFail (kept : List Bool) (y : Sys) : Sys := y.powerReset false (y.nv.cutOff kept)

/-- Snowdrop leaves power-on reset (R472). Register 284 with an address that is not used sets SMB_ERR (R549). -/
def Sys.porEnd (compat : Bool) (y : Sys) : Sys :=
  let y := y.powerReset compat y.nv
  if smbBad (y.nv.last 284) then y.smbErr else y

/-! ## PERST# and the supplies -/

/-- The loader returns to NOT_READY. -/
def Sys.ldrReset (y : Sys) : Sys := { y with ldr := {} }

/-- What a PERST# class reset and a function reset do to the island and to the fault state (R573). -/
def Sys.resetIsland (y : Sys) : Sys :=
  let y := y.setFld (mntPg 3) 0x48 31 31 0
  { y with contain := { y.contain with quar := [], chipFault := false } }

/-- PERST# asserts, or a Hot Reset or DL_Down occurs (R473, R498, R573). With every domain OFF, RAILEN is driven low. -/
def Sys.perstOn (y : Sys) : Sys :=
  let y := (y.allOff.ldrReset).resetIsland.incFld snw3 0x44 7 0
  { y with pins := { y.pins with perst := true, railen := false, needPerst := false } }

/-- HOST and SCHED turn ON (R471, R498). -/
def Sys.hostUp (y : Sys) : Sys :=
  if y.pins.railen && y.pins.railpg && !y.pins.perst && (y.dom 16).st == .off then
    ((y.setDom 16 .on).setDom 17 .on).tlqDrain
  else y

/-- PERST# deasserts (R470, R498, R499, R542): a boundary test ends, and RAILEN rises, where a supply loss or a thermal trip has
been cleared. -/
def Sys.perstOff (y : Sys) : Sys :=
  let y := y.testEnd_.updJtag fun j => match j.ir with
    | .extest | .clamp | .highz => { j with ir := .idcode }
    | _ => j
  let y := { y with pins := { y.pins with perst := false } }
  if y.pins.needPerst || (y.mari.tripped && !y.cool) then y
  else
    let y := y.updMari fun m => { m with tripped := false }
    ({ y with pins := { y.pins with railen := true } }).hostUp

/-- RAILPG rises (R498, R591). -/
def Sys.railGood (y : Sys) : Sys :=
  let y := { y with pins := { y.pins with railpg := true } }
  if y.jtag.test then y.testDoms true else y.hostUp

/-- RAILPG falls (R499, R591). -/
def Sys.railLoss (y : Sys) : Sys :=
  let y := { y with pins := { y.pins with railpg := false } }
  if y.jtag.test then y.testDoms false
  else if y.pins.railen then
    let y := y.allOff.ldrReset.recordErr snw0 8 0
    { y with pins := { y.pins with railen := false, needPerst := true } }
  else y

/-- The loader window becomes ready (R470). -/
def Sys.windowReady (y : Sys) : Sys := if y.hostOn && y.ldr.phase == .notReady then y.enterLoading else y

/-! ## Function reset (R570) -/

/-- A function reset: every domain but HOST and SCHED turns OFF, these two return to their reset values, the loader enters
LOADING with the image discarded. -/
def Sys.flr (y : Sys) : Sys :=
  if (y.dom 16).st == .off || y.ldr.phase == .notReady then y
  else
    let y := each (fun d (y : Sys) => y.setDom d .off) (List.range 34) (y.wipe.cfgReset true)
    let y := ((y.setDom 16 .on).setDom 17 .on).resetIsland.incFld snw3 0x44 15 8
    y.ldrReset.enterLoading

end Sys2Proof.Machine
end

