-- ==== Sys2Proof/Machine/CmdPers.lean ====
section
/-! DEFINITION. The commands of the personalities: items, timers, command records and requests (R322-R362). -/

namespace Sys2Proof.Machine

/-- The outcome of a type that every meaning has. -/
abbrev Res := Host.Outcome State Fault Refusal

/-- SCAN_KBD_REPORT (R345, R346). -/
def execScanKbdReport (slot : Fin 8193) (rep : List Byte) (poison : Bool) (s : State) : Res :=
  liveSys s (Sys.persItem slot .report [1] poison (Sys.scanKbd slot rep))

/-- SCAN_POS_REPORT (R347). -/
def execScanPosReport (slot : Fin 8193) (rep : PosReport) (s : State) : Res :=
  liveSys s (Sys.persItem slot .report [2] rep.poison (Sys.scanPos slot rep))

/-- SCAN_GAP_EXPIRY (R346). -/
def execScanGapExpiry (slot : Fin 8193) (s : State) : Res :=
  liveSys s (Sys.persItem slot .expiry [1, 2] false (Sys.scanGap slot))

/-- SCALE_REPORT (R350, R351). -/
def execScaleReport (slot : Fin 8193) (rep : ScaleReport) (s : State) : Res :=
  liveSys s (Sys.persItem slot .report [3] rep.poison (Sys.scaleIn slot rep))

/-- SCALE_STABILITY_EXPIRY (R351). -/
def execScaleStabilityExpiry (slot : Fin 8193) (timer : Nat) (s : State) : Res :=
  liveSys s (Sys.persItem slot .expiry [3] false (Sys.scaleTimer slot timer))

/-- PRINTER_STATUS_BLOCK (R352). -/
def execPrinterStatusBlock (slot : Fin 8193) (blk : List Byte) (poison : Bool) (s : State) : Res :=
  liveSys s (Sys.persItem slot .report [4] poison (Sys.prnBlock slot blk))

/-- STATUS_MS have passed (R352): the status is asked for again, and the next poll is armed. -/
def Sys.prnPollDue (n : Nat) (y : Sys) : Sys :=
  if (y.slot n).pers.h 0 = 0 || !y.timerUp n .poll then y else (y.armTimer n .poll y.tb ((y.slot n).pers.h 0)).persReq n .poll

/-- PRINTER_STATUS_POLL (R352, R354). -/
def execPrinterStatusPoll (slot : Fin 8193) (s : State) : Res :=
  liveSys s (Sys.persItem slot .expiry [4] false (Sys.prnPollDue slot))

/-- PRINTER_OUT_NOTICE (R355, R439). -/
def execPrinterOutNotice (slot : Fin 8193) (s : State) : Res :=
  liveSys s (Sys.persItem slot .notice [4] false (Sys.prnOut slot))

/-- POWER_CHANGE_NOTICE (R353, R439). -/
def execPowerChangeNotice (slot : Fin 8193) (s : State) : Res :=
  liveSys s (Sys.persItem slot .notice [4] false (Sys.prnPower slot))

/-- PRINTER_IDLE_EXPIRY (R355). -/
def execPrinterIdleExpiry (slot : Fin 8193) (s : State) : Res :=
  liveSys s (Sys.persItem slot .expiry [4] false (Sys.prnIdle slot))

/-- DRAWER_SENSE_REPORT (R356). -/
def execDrawerSenseReport (slot : Fin 8193) (rep : List Byte) (poison : Bool) (s : State) : Res :=
  liveSys s (Sys.persItem slot .report [5] poison (Sys.senseReport slot rep))

/-- DRAWER_SENSE_EXPIRY (R356). -/
def execDrawerSenseExpiry (slot : Fin 8193) (s : State) : Res :=
  liveSys s (Sys.persItem slot .expiry [5] false (Sys.senseExpiry slot))

/-- A KICK record: a drawer is kicked; a display takes no such OP and answers REJECTED in its turn (R338, R357). -/
def Sys.kickRec (n tag pulseMs : Nat) (y : Sys) : Sys :=
  if (y.slot n).pers.code = 6 then y.dispCmd n { op := 0x01, tag := tag } else y.kick n tag pulseMs

/-- KICK (R338, R357, R358). -/
def execKick (slot : Fin 8193) (tag pulseMs : Fin 65536) (s : State) : Res :=
  liveSys s (Sys.persItem slot .record [5, 6] false (Sys.kickRec slot tag pulseMs))

/-- The gap of R357 is over. -/
def Sys.kickGap (n : Nat) (y : Sys) : Sys :=
  if (y.slot n).pers.drw.kick == .gap && y.timerUp n .kickGap then ((y.timerOff n .kickGap).updDrw n fun d => { d with kick := .openReq }).persReq n .kickOpen else y

/-- KICK_GAP_EXPIRY (R357). -/
def execKickGapExpiry (slot : Fin 8193) (s : State) : Res :=
  liveSys s (Sys.persItem slot .expiry [5] false (Sys.kickGap slot))

/-- PULSE_EXPIRY (R357). -/
def execPulseExpiry (slot : Fin 8193) (s : State) : Res :=
  liveSys s (Sys.persItem slot .expiry [5] false (Sys.pulseEnd slot))

/-- OPEN_WAIT_EXPIRY (R357). -/
def execOpenWaitExpiry (slot : Fin 8193) (s : State) : Res :=
  liveSys s (Sys.persItem slot .expiry [5] false (Sys.openWaitEnd slot))

/-- CLEAR (R359). -/
def execClear (slot : Fin 8193) (tag : Fin 65536) (s : State) : Res :=
  liveSys s (Sys.persItem slot .record [6] false (Sys.dispCmd slot { op := 0x10, tag := tag }))

/-- TEXT (R359). -/
def execText (slot : Fin 8193) (tag : Fin 65536) (line col : Fin 256) (chars : List Byte) (s : State) : Res :=
  liveSys s (Sys.persItem slot .record [6] false (Sys.dispCmd slot { op := 0x11, tag := tag, a := line, col := col, chars := chars }))

/-- BRIGHT (R359). -/
def execBright (slot : Fin 8193) (tag : Fin 65536) (level : Fin 256) (s : State) : Res :=
  liveSys s (Sys.persItem slot .record [6] false (Sys.dispCmd slot { op := 0x12, tag := tag, a := level }))

/-- KEYBOARD_REPORT (R361). -/
def execKeyboardReport (slot : Fin 8193) (rep : List Byte) (poison : Bool) (s : State) : Res :=
  liveSys s (Sys.persItem slot .report [7] poison (Sys.keyIn slot rep))

end Sys2Proof.Machine
end

