-- ==== Sys2Proof/Machine/HostDma.lean ====
section
/-! DEFINITION. The end of a read of the host DMA's groups, and what a group or region DMA with every channel halted does (R188,
R209, R211, R213). -/

namespace Sys2Proof.Machine

/-- DMA_CHj_ERR.CODE of a failed read (R218). -/
def rdCode : RdErr → Nat
  | .ur => 1 | .ca => 2 | .timeout => 3 | .malformed => 4

/-- How a read ended as DMA_CHj_ERR.CODE has it; 0: well. -/
def dwCode : DwRes → Nat
  | .ok _ => 0 | .poison => 5 | .fail e => rdCode e

/-- As `dwCode`, for an entry scan. -/
def scanCode : ScanRes → Nat
  | .ok _ => 0 | .poison => 5 | .fail e => rdCode e

/-- As `dwCode`, for a read of bytes. -/
def readCode : ReadRes → Nat
  | .ok _ => 0 | .poison _ => 5 | .ur => 1 | .ca => 2 | .timeout => 3 | .malformed => 4

/-- DMA_CHj_ERR for a failure (R218). -/
def dmaErr (code : Nat) (i : Option Nat) : Word := Word.ofN (code + (match i with | some i => 256 + i * 65536 | none => 0))

/-- A channel whose group, or region DMA, is now halted altogether: ALL_HALTED and UNCORR, and the block halts (R213). DESIGN
CHOICE (log 88): of the host DMA's four pages the first takes both, as it has DMA_ENG_CTL; R213 names only the block. -/
def Sys.allHalted (e c : Nat) (y : Sys) : Sys :=
  if y.groupHalted e c then ((y.recordErr (dmaMain e) 2 c).recordErr (dmaMain e) 10 c).haltBlock (dmaMain e) else y

/-- The read that failed, which is the first of those outstanding, is issued again (R209). -/
def Sys.readAgain (e c : Nat) (y : Sys) : Sys :=
  let k := y.chan e c
  match k.outst with
  | n :: _ => y.emit (.rd (y.pfx k.inst) (k.addr + k.bst + k.got) n)
  | [] => y

/-- The channel of a read that has failed for good enters HALTED (R209). -/
def Sys.readHalt (e c code : Nat) (y : Sys) : Sys :=
  ((y.updChan e c fun k => { k with st := .halted, err := dmaErr code k.inst, outst := [] }).incFld (dmaMain e) 0x248 15 0).recordErr
    (dmaPg e c) 8 c

/-- A failed read of channel `c` of engine `e` (R208, R209): it is re-issued while retries are left; after them the channel
halts. The Bool says that it has halted. -/
def Sys.readRetry (e c code : Nat) (y : Sys) : Bool × Sys :=
  let k := y.chan e c
  let y := if code = 3 then y.aer .completionTimeout else y
  if k.retries < y.dmaRetry e then
    (false, (y.updChan e c fun k => { k with st := .retry, retries := k.retries + 1, err := dmaErr code k.inst }).readAgain e c)
  else (true, y.readHalt e c code)

/-- The read that a host DMA channel carries for request `u` ends with `code`: `some true` well, `some false` badly, which is
after the retries (R209) or at once where its data is poisoned (R211), `none` not yet. A poisoned MCQ entry halts its channel (R369). -/
def Sys.hostAnswer (u : HUse) (code : Nat) (y : Sys) : Option Bool × Sys :=
  match y.hostCarrier u with
  | none => (none, y)
  | some c =>
    let k := y.chan 0 c
    if 0 < k.len ∧ k.req ≤ k.got ∨ k.req < k.total ∧ k.st = .preempted then (none, y)
    else if code = 0 then
      let n := k.total - k.req
      (some true, (y.readRest (n / 256 + 1) (k.addr + k.req) n).chanIdle 0 c)
    else if code = 5 ∧ u = .mcq then (some false, ((y.aer .poisonedTlp).readHalt 0 c 5).allHalted 0 c)
    else if code = 5 then
      (some false, ((y.aer .poisonedTlp).chanIdle 0 c).updChan 0 c fun k => { k with err := dmaErr 5 (y.chan 0 c).inst })
    else
      match y.readRetry 0 c code with
      | (false, y) => (none, y)
      | (true, y) => (some false, y.allHalted 0 c)

/-- A read of more than one burst that the chip's own units make: the lowest idle channel of the group at `g` carries it, burst by
burst of at most 512 bytes, asking for no more than 256 bytes ahead (R187, R188, R196). The channel shows the first burst. -/
def Sys.hostLong (g : Nat) (u : HUse) (a n : Nat) (y : Sys) : Sys :=
  if (y.hostCarrier u).isSome then y
  else
    match y.hostChan g with
    | none => y
    | some c =>
      let y := y.updChan 0 c fun k =>
        { st := .active, use := u, prio := (y.pgReg (dmaPg 0 c) (0x40 + 0x40 * (c % 8))).fld 1 0, addr := a, len := min n 512,
          total := n, err := k.err }
      let y := if y.blocked c (y.chan 0 c) then y.updChan 0 c fun k => { k with st := .preempted } else y
      y.readIssue 0 c 8

end Sys2Proof.Machine
end

