-- ==== Sys2Proof/Machine/CmdBoot.lean ====
section
/-! DEFINITION. The commands of power-on, boot, the loader, the supplies, the power domains, the resets and the test access port
(R470-R523, R570-R573, R587-R591). -/

namespace Sys2Proof.Machine

/-! ## Power-on and PERST# -/

/-- POWER_ON_RESET_END (R472, R497, R588): COMPAT and TESTEN are sampled together. -/
def execPowerOnResetEnd (compat testen : Bool) (s : State) : Res :=
  .next { s with sys := s.sys.porEnd compat, vin := true, testen := testen }

/-- VIN_FAIL (R79, R497): Snowdrop is held in power-on reset. -/
def execVinFail (kept : List Bool) (s : State) : Res := .next { s with sys := s.sys.vinFail kept, vin := false, testen := false }

/-- PERST_ASSERT (R473, R498, R573). -/
def execPerstAssert (s : State) : Res := liveSys s Sys.perstOn

/-- PERST_DEASSERT (R470, R498, R499, R542). -/
def execPerstDeassert (s : State) : Res := liveSys s Sys.perstOff

/-- LOADER_WINDOW_READY (R470). -/
def execLoaderWindowReady (s : State) : Res := liveSys s Sys.windowReady

/-- RAILPG_GOOD (R498, R591). -/
def execRailpgGood (s : State) : Res := liveSys s Sys.railGood

/-- RAILPG_LOSS (R499, R591). -/
def execRailpgLoss (s : State) : Res := liveSys s Sys.railLoss

/-! ## Loader -/

/-- LDR_GO as an access of the loader page. -/
def doLdrGo (v : Word) (y : Sys) : Sys := y.viaPage .loader ldrPg 0x40 false (Sys.ldrGo v)

/-- LDR_GO (R475). -/
def execLdrGo (val : Word) (s : State) : Res := liveWin (.ldrGo val) .loader s (doLdrGo val)

/-- LDQ_COPY (R477): any entry but a GO. -/
def execLdqCopy (entry : List Word) (rd : ReadRes) (s : State) : Res :=
  liveSys s fun y =>
    if y.ldqTakes && !y.halted ldrPg && (entry.getD 0 0).fld 7 0 != 2 then
      let z :=
        if copyBad entry then y.ldqCopy entry rd
        else
          match (y.hostLong 16 .image (lohi (entry.getD 3 0) (entry.getD 4 0)) ((entry.getD 2 0).fld 22 0)).hostAnswer .image (readCode rd) with
          | (none, z) => z
          | (some _, z) => z.ldqCopy entry rd
      z.sramCarry y.eng.sram ((entry.getD 1 0).fld 22 0)
    else y

/-- LDQ_GO (R477). -/
def execLdqGo (entry : List Word) (s : State) : Res :=
  liveSys s fun y =>
    if y.ldqTakes && !y.halted ldrPg && (entry.getD 0 0).fld 7 0 == 2 then y.goAccept true else y

/-- Whether the boot sequencer is in a phase, and no chip fault holds. -/
def Sys.inPhase (y : Sys) (p : Phase) : Bool := y.ldr.phase == p && !y.contain.chipFault

/-- VERIFICATION_END (R482-R484). -/
def execVerificationEnd (ms : Fin 256) (sramErr : Bool) (s : State) : Res :=
  liveSys s fun y => if y.inPhase .verifying then y.verified ms sramErr else y

/-- MANAGER_READY (R486). -/
def execManagerReady (ms : Fin 65536) (s : State) : Res :=
  liveSys s fun y => if y.inPhase .starting then y.managerReady ms else y

/-- FW_FAIL (R485). -/
def execFwFail (code : Fin 256) (ms : Fin 65536) (s : State) : Res :=
  liveSys s fun y => if y.inPhase .starting then y.startFail 0x31 code ms else y

/-- FW_TIMEOUT (R485). -/
def execFwTimeout (s : State) : Res :=
  liveSys s fun y => if y.inPhase .starting then y.startFail 0x30 0 1000 else y

/-- IMAGE_WRITE (R56, R474, R475). -/
def execImageWrite (off : Nat) (data : List (Option Byte)) (s : State) : Res :=
  liveWin (.imageWrite off data) .loader s (doImage off data)

/-! ## Power domains -/

/-- SOURCE of a domain request (R512). -/
def reqSource : Origin → Nat
  | .core _ => 1
  | _ => 0

/-- SNW_DOM_REQ as an access of its page. -/
def doDomReq (org : Origin) (d st : Nat) (y : Sys) : Sys := y.viaReg org snw0 0x40 false (Sys.domReq d st (reqSource org))

/-- DOMAIN_REQUEST (R507, R510, R514). -/
def execDomainRequest (org : Origin) (dom : Fin 64) (st : Fin 4) (s : State) : Res :=
  liveWin (.domainRequest org dom st) org s (doDomReq org dom st)

/-- QUIESCE_DRAIN_END (R508). -/
def execQuiesceDrainEnd (dom : Fin 34) (s : State) : Res := liveSys s (Sys.drainEnd_ dom)

/-- DRAIN_TIMEOUT (R511). -/
def execDrainTimeout (dom : Fin 34) (s : State) : Res := liveSys s (Sys.drainLate dom)

/-- DOMAIN_TRANSITION_END (R509, R514, R515). -/
def execDomainTransitionEnd (dom : Fin 34) (s : State) : Res := liveSys s (Sys.domEnd dom)

/-- The wake latch that an edge of a source sets, and what it brings ON, where the source's domain is as R516 says. -/
def Sys.latchOf (y : Sys) (w : WakeSrc) : Option (Nat × WakeTo) :=
  match w with
  | .line n => if y.dozes (8 + n) then some (n, latchTo n) else none
  | .oc n => if y.dozes n then some (8 + n, latchTo (8 + n)) else none
  | .delay => if y.isRet 17 && !y.eng.holly.delays.isEmpty then some (16, latchTo 16) else none
  | .cicCore c => if y.isOff (18 + c) || y.isRet (18 + c) then some (17 + c, .doms [18 + c]) else none
  | .cicEdge src => if y.isRet 17 && (y.srcCfg src).bit 3 && srcReal src && srcDom src != 63 && y.isRet (srcDom src) then some (33, latchTo 33) else none
  | .mbxGo j =>
    let r := recvDom (y.mbx j).recv
    if (y.mbx j).ch.go && (y.isRet 17 || y.isRet r) then
      some (34, if r = 16 then (if y.isRet 16 then .host else .doms [17]) else .doms [17, r])
    else none
  | .tmbGo => if y.isRet 16 then some (35, latchTo 35) else none
  | .classD => if y.isRet 17 then some (36, latchTo 36) else none
  | .hostWrite => if y.isRet 16 then some (37, latchTo 37) else none
  | .marigold d => if !y.on d then some (38, .doms [d]) else none

/-- An edge on a wake latch (R516, R517); an edge of a CIC source with WAKE = 1 is latched there too (R451). -/
def Sys.wakeEdge (w : WakeSrc) (y : Sys) : Sys :=
  match y.latchOf w with
  | some (l, t) =>
    let y := match w with
      | .cicEdge src => y.updSrc src fun z => { z with latch := true }
      | _ => y
    y.latchSet l t
  | none => y

/-- WAKE_LATCH (R516, R517). -/
def execWakeLatch (src : WakeSrc) (s : State) : Res := liveSys s (Sys.wakeEdge src)

/-- D3HOT_ENTRY (R505). -/
def execD3hotEntry (s : State) : Res := liveSys s fun y => if (y.dom 16).st == .off then y else y.d3hot

/-- D0_ENTRY (R505). -/
def execD0Entry (s : State) : Res := liveSys s fun y => if (y.dom 16).st == .off then y else y.d0

/-! ## Resets -/

/-- FUNCTION_RESET (R570). -/
def execFunctionReset (s : State) : Res := liveSys s Sys.flr

/-- SNW_RST_CTL as an access of the manager window. -/
def doRegionReset (n : Nat) (y : Sys) : Sys := y.viaPage .manager snw3 0x40 false (Sys.regionReset n)

/-- REGION_RESET (R571). -/
def execRegionReset (region : Fin 8) (s : State) : Res := liveWin (.regionReset region) .manager s (doRegionReset region)

/-- PRG_PORT_RST as an access of the manager window. -/
def doPortUnit (p : Nat) (y : Sys) : Sys := y.viaPage .manager ⟨.prg, p / 16, 0⟩ 0x4C false (Sys.portUnit p)

/-- PORT_UNIT_RESET (R571). -/
def execPortUnitReset (port : Fin 128) (s : State) : Res := liveWin (.portUnitReset port) .manager s (doPortUnit port)

/-! ## Test access port (R589-R591) -/

/-- EXTEST, CLAMP and HIGHZ work as the bypass instruction while PERST# is deasserted; with PERST# asserted they begin the
boundary test. -/
def Sys.jtagTest (i : JIns) (y : Sys) : Sys :=
  if y.pins.perst then (y.updJtag fun j => { j with ir := i }).testBegin
  else y.updJtag fun j => { j with ir := .bypass, bypass := false }

/-- Any other instruction ends a boundary test. -/
def Sys.jtagOther (i : JIns) (y : Sys) : Sys := y.testEnd_.updJtag fun j => { j with ir := i }

/-- The register that the test access port shifts out. -/
def Sys.tdo (bits : List Bool) (y : Sys) : Sys := { y with out := .tdo bits :: y.out }

/-- The bits of the boundary register, cell 0 first. -/
def Sys.cells (y : Sys) : List Bool := (y.jtag.bound ++ List.replicate 422 false).take 422

/-- What EXTEST shifts out: the boundary register, whose port-region cells read 0 until they act (R591). -/
def Sys.extCells (y : Sys) : List Bool :=
  if y.jtag.acting then y.cells else y.cells.take 6 ++ List.replicate 416 false

/-- EXTEST. -/
def execExtest (s : State) : Res := liveSys s fun y =>
  let y := y.jtagTest .extest
  if y.jtag.ir == .extest then y.tdo y.extCells else y.tdo [false]

/-- The identification register (R590). -/
def idBits : List Bool := (List.range 32).map fun i => (0x1F128001 >>> i) % 2 == 1

/-- IDCODE. -/
def execIdcode (s : State) : Res := liveSys s fun y => (y.jtagOther .idcode).tdo idBits

/-- The cells of a captured boundary register: those of Snowdrop's balls always, those of a port region while PRGn is ON; the
others read 0. -/
def Sys.capture_ (y : Sys) (balls : List Bool) : List Bool :=
  (List.range 422).map fun i =>
    if i < 6 then balls.getD i false
    else balls.getD i false && y.on (min 7 ((i - 6) / 52))

/-- SAMPLE/PRELOAD. -/
def execSamplePreload (balls : List Bool) (s : State) : Res := liveSys s fun y =>
  let y := y.jtagOther .sample
  let y := y.updJtag fun j => { j with bound := y.capture_ balls }
  y.tdo y.cells

/-- CLAMP. -/
def execClamp (s : State) : Res := liveSys s fun y => (y.jtagTest .clamp).tdo [false]

/-- HIGHZ. -/
def execHighz (s : State) : Res := liveSys s fun y => (y.jtagTest .highz).tdo [false]

/-- BYPASS. -/
def execBypass (s : State) : Res := liveSys s fun y =>
  ((y.jtagOther .bypass).updJtag fun j => { j with bypass := false }).tdo [false]

/-- A TAP reset selects IDCODE. -/
def execTapReset (s : State) : Res := liveSys s (Sys.jtagOther .idcode)

end Sys2Proof.Machine
end

