-- ==== Sys2Proof/Machine/CmdRings.lean ====
section
/-! DEFINITION. The commands of the ring unit: doorbells, reads that complete, dispatch, flushing reads, events and the
spill queue (R86-R138, R612). -/

namespace Sys2Proof.Machine

/-! ## Doorbells as accesses of the instance window -/

/-- WAKE. -/
def doDbWake (i r : Nat) (y : Sys) : Sys := y.viaInst i (4 * r) false fun y => y.doorbell (ringKey i r) .wake
/-- ENABLE. -/
def doDbEnable (i r : Nat) (y : Sys) : Sys := y.viaInst i (4 * r) false fun y => y.doorbell (ringKey i r) .enable
/-- DISABLE. -/
def doDbDisable (i r : Nat) (y : Sys) : Sys := y.viaInst i (4 * r) false fun y => y.doorbell (ringKey i r) .disable
/-- CLEAR_HALT. -/
def doDbClearHalt (i r e : Nat) (y : Sys) : Sys := y.viaInst i (4 * r) false fun y => y.doorbell (ringKey i r) (.clearHalt e)
/-- DB_CMPc. -/
def doDbCmp (i c : Nat) (y : Sys) : Sys := y.viaInst i (0x40 + 4 * c) false fun y => y.doorbell (ringKey i (16 + c)) .returned
/-- DB_EVT. -/
def doDbEvt (i : Nat) (y : Sys) : Sys := y.viaInst i 0x50 false fun y => y.doorbell (evtKey i) .returned

/-- DB_WAKE (R101, R102, R129). -/
def execDbWake (inst : Fin 4096) (ring : Fin 16) (s : State) : Host.Outcome State Fault Refusal :=
  liveWin (.dbWake inst ring) .tenant s (doDbWake inst ring)

/-- DB_ENABLE (R129, R134). -/
def execDbEnable (inst : Fin 4096) (ring : Fin 16) (s : State) : Host.Outcome State Fault Refusal :=
  liveWin (.dbEnable inst ring) .tenant s (doDbEnable inst ring)

/-- DB_DISABLE (R129, R131). -/
def execDbDisable (inst : Fin 4096) (ring : Fin 16) (s : State) : Host.Outcome State Fault Refusal :=
  liveWin (.dbDisable inst ring) .tenant s (doDbDisable inst ring)

/-- DB_CLEAR_HALT (R105, R129). -/
def execDbClearHalt (inst : Fin 4096) (ring : Fin 16) (epid : Fin 32) (s : State) :
    Host.Outcome State Fault Refusal :=
  liveWin (.dbClearHalt inst ring epid) .tenant s (doDbClearHalt inst ring epid)

/-- DB_CMP (R612): a scan of returned completion-ring entries starts. -/
def execDbCmp (inst : Fin 4096) (c : Fin 4) (s : State) : Host.Outcome State Fault Refusal :=
  liveWin (.dbCmp inst c) .tenant s (doDbCmp inst c)

/-- DB_EVT (R114, R612): a scan starts, and a walk is due while the instance holds spilled events. -/
def execDbEvt (inst : Fin 4096) (s : State) : Host.Outcome State Fault Refusal :=
  liveWin (.dbEvt inst) .tenant s (doDbEvt inst)

/-- The manager's DISABLE of the ring chosen in RNG_VIEW_SEL (R138): as a DISABLE doorbell to a submission ring; the bit
reads 1 until the ring has left STOPPING. -/
def Sys.viewDisable (y : Sys) : Sys :=
  let sel := y.pgReg (onePg .rng 2) 0x40
  let k := ringKey (sel.fld 27 16) (sel.fld 4 0)
  let acts := fun (y : Sys) => (y.ring k).st == .running || (y.ring k).st == .stopping
  if sel.fld 4 0 < 16 && acts y then
    let y := y.doorbell k .disable
    if acts y then y.updRing k fun r => { r with viewDis := true } else y
  else y

/-- RNG_VIEW_CTL.DISABLE as an access of the manager window. -/
def doViewDisable (y : Sys) : Sys := y.viaPage .manager (onePg .rng 2) 0x48 false Sys.viewDisable

/-- RNG_VIEW_DISABLE (R138). -/
def execRngViewDisable (s : State) : Host.Outcome State Fault Refusal :=
  liveWin .rngViewDisable .manager s doViewDisable

/-- Whether the ring unit works: HOST has not lost its contents, and no halt or chip fault stops it (R560, R566). -/
def Sys.ringUnit (y : Sys) : Bool :=
  (y.dom 16).st != .off && !y.contain.chipFault && !y.halted (onePg .rng 0) && !y.halted (onePg .hdma 0)

/-- A descriptor read of ring `k` ends (R102, R112): its entries are handled where the ring still stands at the first of them. -/
def Sys.descRead (k : Nat) (rd : DwRes) (y : Sys) : Sys :=
  let y := y.fetchPump
  match y.hostCarrier (.desc k) with
  | none => y
  | some c =>
    let b := y.chan 0 c
    match y.hostAnswer (.desc k) (dwCode rd) with
    | (none, y) => y
    | (some good, y) =>
      let y := y.instSettle (k / 32)
      let r := y.ring k
      if !(r.st == .running && !r.stopped && b.addr == r.base + 32 * r.fetch) then y
      else
        match rd, good with
        | .ok ws, true => (y.takeAll k (entriesOf (b.len / 32) ws)).cacheUse k
        | _, _ => y.ringHalt k 5 r.fetch ((openChain r.taken).map Taken.idx)

/-- DESCRIPTOR_FETCH (R102, R103, R112, R126): descriptor reads go out in turn, and the one of this ring completes. -/
def execDescriptorFetch (inst : Fin 4096) (ring : Fin 16) (rd : DwRes) (s : State) :
    Host.Outcome State Fault Refusal :=
  liveSys s fun y => if y.ringUnit then (y.descRead (ringKey inst ring) rd).carry (onePg .rng 0) else y

/-- A read of the context of ring `k` ends (R91, R112): the context is cached and the doorbells that waited for it act, or the
ring halts. -/
def Sys.ctxRes (k : Nat) (rd : DwRes) (y : Sys) : Sys :=
  match ((y.ctxRead k).fetchPump).hostAnswer (.ctx k) (dwCode rd) with
  | (none, y) => y
  | (some true, y) =>
    let y := (((y.incFld (onePg .rng 0) 0x68 31 0).cachePut k).dbDrain k)
    if 16 ≤ k % 32 ∧ k % 32 < 20 then y.flushRecs k else y
  | (some false, y) =>
    let y := y.incFld (onePg .rng 0) 0x68 31 0
    let y := { y with host := { y.host with dbWait := y.host.dbWait.filter fun w => w.1 != k } }
    if k % 32 < 16 then y.ringHalt k 6 0 ((openChain (y.ring k).taken).map (·.idx))
    else (y.updRing k fun r => { r with st := .halted }).ringErr k 6 0

/-- CONTEXT_FETCH (R91, R112). -/
def execContextFetch (inst : Fin 4096) (ring : Fin 32) (rd : DwRes) (s : State) : Host.Outcome State Fault Refusal :=
  liveSys s fun y =>
    let k := ringKey inst ring
    if y.ringUnit && y.ringHere k && !y.cached k then y.ctxRes k rd else y

/-- DISPATCH (R104, R124). -/
def execDispatch (inst : Fin 4096) (ring : Fin 16) (entry : Fin 32768) (s : State) :
    Host.Outcome State Fault Refusal :=
  liveSys s fun y => if y.ringUnit then (y.dispatchX (ringKey inst ring) entry).carry (onePg .rng 0) else y

/-- The dispatched transfer whose first entry is `entry`, still unfinished. -/
def Sys.xferAt (y : Sys) (i ring entry : Nat) : Option Xfer :=
  y.host.xfers.find? fun x => x.inst == some i && x.ring == ring && x.first == entry && x.fin.isNone

/-- TRANSFER_TIMEOUT (R92, R107, R108): the transfer finishes with TIMEOUT at its next packet boundary. -/
def execTransferTimeout (inst : Fin 4096) (ring : Fin 16) (entry : Fin 32768) (s : State) :
    Host.Outcome State Fault Refusal :=
  liveSys s fun y =>
    match y.xferAt inst ring entry with
    | some x =>
      if x.ty < 3 ∧ ((x.entries.headD (0, 0)).2.fld 31 16) ≠ 0 then y.cutX 14 x.id else y
    | none => y

/-- What waited for a RECORD channel goes on, in finish order: finished transfers, records, flushing reads (R188, R207). -/
def Sys.recSweep (y : Sys) : Sys :=
  let ws := y.host.xfers.filter fun x => x.fin.isSome && x.inst.isSome
  let ids := (ws.foldl (fun (l : List Xfer) x => l.takeWhile (·.fseq ≤ x.fseq) ++ x :: l.dropWhile (·.fseq ≤ x.fseq)) []).map (·.id)
  let y := each (fun id (y : Sys) => y.tryPost id) ids y
  let y := each (fun k (y : Sys) => y.flushRecs k) ((y.host.rings.filter fun e => !e.2.waiting.isEmpty).map (·.1)) y
  each (fun i (y : Sys) => y.flushIssue i) ((y.host.xfers.filter fun x => x.flush == 1).filterMap (·.inst)).dedup y

/-- What a flushing read brings for the transfers it covers, in the order in which they finished (R117-R120, R207, R210): it ends
on its RECORD channel, which goes on with their writebacks and records. DESIGN CHOICE (log 85): where the read failed, BYTES of an
IN transfer is all that was drained (R106 counts bytes the read proved, R107 those moved before the failed access); and FLUSH_FAIL
is recorded on page 0 of the host DMA, R210 naming only ERR_STAT. -/
def Sys.flushDone (i : Nat) (ok : Bool) (y : Sys) : Sys :=
  if !(y.inst i).flushing then y
  else
    let full := !y.recOpen
    let cov := (y.host.xfers.filter fun x => x.inst == some i && x.flush == 2).foldl
      (fun (l : List Xfer) x => l.takeWhile (·.fseq ≤ x.fseq) ++ x :: l.dropWhile (·.fseq ≤ x.fseq)) []
    let y := y.updInst i fun n => { n with flushing := false }
    let y := match y.hostCarrier (.flush i) with
      | some c => y.chanIdle 0 c
      | none => y
    let y := if ok then y else y.recordErr (onePg .hdma 0) 9 i
    let y := each (fun (x : Xfer) (y : Sys) =>
      let st := if ok then x.fin.getD 0 else 10
      let y := if !ok && x.epid != 0 && x.ty != 3 && x.inst.isSome && x.ty != 4 then
          y.updEp x.slot x.epid fun e => { e with halted := true } else y
      y.updX x.id fun z => { z with flush := 3, fin := some st }) cov y
    let y := each (fun (x : Xfer) (y : Sys) => y.tryPost x.id) cov y
    let y := (y.flushIssue i).instSettle i
    if full then y.recSweep else y

/-- FLUSHING_READ_DONE (R119). -/
def execFlushingReadDone (inst : Fin 4096) (ok : Bool) (s : State) : Host.Outcome State Fault Refusal :=
  liveSys s fun y => if y.contain.chipFault then y else y.flushDone inst ok

/-- MOD_INTERVAL_EXPIRY (R109): one message for the records that became eligible during the interval. -/
def execModIntervalExpiry (inst : Fin 4096) (ring : Fin 32) (s : State) : Host.Outcome State Fault Refusal :=
  liveSys s fun y =>
    let k := ringKey inst ring
    let r := y.ring k
    if r.modRun then
      let y := y.updRing k fun r => { r with modRun := false, modDue := false }
      if r.modDue then y.ringMsg k else y
    else y

/-- ENTRY_SCAN_READ (R612): entries read with OWN = 1 become known free, and waiting records are written; a failed read
makes none free and sends RING_ERR. A read whose ring has gone meanwhile says nothing; its end may let an instance settle (R381). -/
def execEntryScanRead (inst : Fin 4096) (ring : Fin 32) (rd : ScanRes) (s : State) :
    Host.Outcome State Fault Refusal :=
  liveSys s fun y =>
    let k := ringKey inst ring
    let r := y.ring k
    let y1 := (y.scanRead k).fetchPump
    match (if y.ringUnit then y1.hostCarrier (.scan k) else none) with
    | none => y
    | some c =>
      let a := (r.wpos + r.known) % r.size
      let mine := r.scanning && (y1.chan 0 c).addr == r.base + entryBytes k * a
      match y1.hostAnswer (.scan k) (scanCode rd), rd with
      | (none, y), _ => y
      | (some true, y), .ok os =>
        let y := y.instSettle inst
        if mine then ((y.updRing k fun r => r.scan (os.take 8)).flushRecs k).scanRead k else y
      | (some _, y), _ =>
        let y := y.instSettle inst
        if mine then (y.updRing k fun r => { r with scanning := false }).ringErr k 5 a else y

/-- EVENT_DELIVERY (R113). -/
def execEventDelivery (s : State) : Host.Outcome State Fault Refusal :=
  liveSys s fun y => if y.ringUnit then y.deliverEvent else y

/-- SPQ_WALK (R114). -/
def execSpqWalk (s : State) : Host.Outcome State Fault Refusal :=
  liveSys s fun y => if y.ringUnit && y.host.walkDue && y.recOpen then y.spqWalk else y

end Sys2Proof.Machine
end

