-- ==== Sys2Proof/Machine/Tenancy.lean ====
section
/-! DEFINITION. The tenancy unit: taking commands (R369), the checks of R375, and what each Decust command does (R363-R393). -/

namespace Sys2Proof.Machine

/-! ## Checks -/

/-- Whether the reserved bits of a command are 0 (R366, R374): `auto` says whether AUTO_COMMIT is defined for it, `ms` gives
the bits its parameters use. -/
def DCmd.clean (c : DCmd) (auto : Bool) (ms : List (Nat × Word)) : Bool :=
  (List.range 16).all fun d =>
    let m : Word := if d = 0 then (if auto then 0xFFFF03FF else 0xFFFF01FF) else if d = 15 then 0xFFFF
      else match ms.find? (fun e => e.1 == d) with | some e => e.2 | none => 0
    c.dw d &&& ~~~m == 0

/-- The first check that fails sets STATUS and nothing changes (R375); otherwise the command acts. -/
def Sys.decJudge (c : DCmd) (checks : List (Bool × Nat)) (go : Sys → Sys) (y : Sys) : Sys :=
  match checks.find? (·.1) with
  | some x => y.decEnd c.seq x.2 []
  | none => go y

/-- Steps 1 and 2 of R375: the fields, then the version (R374, R376, R489). -/
def Sys.preCheck (y : Sys) (c : DCmd) (auto : Bool) (ms : List (Nat × Word)) (bad : Bool) : List (Bool × Nat) :=
  [(!c.clean auto ms || (c.auto && y.host.decust.maj == 1) || bad, 0x02), (y.host.decust.maj == 0, 0x0E)]

/-- The tenancy unit works. -/
def Sys.tenWorks (y : Sys) : Bool := (y.dom 16).st != .off && !y.contain.chipFault && !y.halted tenPg

/-- A command copied on chip under MCQ index `idx` runs, once it may start (R370). -/
def Sys.decRow (idx op : Nat) (f : DCmd → Sys → Sys) (y : Sys) : Sys :=
  match (if y.tenWorks then y.host.decust.cmds.find? fun c => c.idx == idx && c.op == op && y.decStarts c else none) with
  | some c => f c y
  | none => y

/-- A command goes on waiting, with the results gathered so far. -/
def Sys.decWait (c : DCmd) (w : CWait) (res : List Word) (y : Sys) : Sys :=
  y.updCmd c.seq fun c => { c with wait := w, res := res }

/-- Whether an instance exists for a command (R381). -/
def Sys.instLive (y : Sys) (i : Nat) : Bool := (y.inst i).st == .created || (y.inst i).st == .running

/-- Whether a slot number is one of R16. -/
def slotOk (n : Nat) : Bool := decide (1 ≤ n) && decide (n ≤ 8192)

/-- Whether a slot holds a device in service. -/
def Sys.inService (y : Sys) (n : Nat) : Bool := (y.slot n).used && (y.slot n).served

/-- Whether a slot's device is a hub. -/
def Slot.hubDev (s : Slot) : Bool := byteAt s.dev 4 == 9

/-- Whether PHYn of a port is ON. -/
def Sys.phyOn (y : Sys) (p : Nat) : Bool := y.on (8 + p / 16)

/-! ## MCQ (R369) -/

/-- MCQ's entry count. -/
def Sys.mcqSize (y : Sys) : Nat := 2 ^ (y.pgReg tenPg 0x58).fld 4 0
/-- MCQ entries not yet taken. -/
def Sys.mcqUsed (y : Sys) : Nat := inUse y.mcqSize (y.pgReg tenPg 0x5C).toNat (y.pgReg tenPg 0x60).toNat

/-- Whether the tenancy unit takes a command (R369, R400, R486, R615). -/
def Sys.mcqTakes (y : Sys) : Bool :=
  y.tenWorks && y.hostOn && y.ldr.phase == .ready && (y.pgReg tenPg 0x58).bit 31 && decide (0 < y.mcqUsed) && y.meqEn &&
    decide (0 < y.meqFree) && decide (y.host.decust.cmds.length < 64) && !y.host.decust.restart && !y.halted (onePg .hdma 0)

/-- The next MCQ entry is read through the QUEUE group (R188). -/
def Sys.mcqRead (y : Sys) : Sys :=
  y.hostTake 16 .mcq none (lohi (y.pgReg tenPg 0x50) (y.pgReg tenPg 0x54) + 64 * ((y.pgReg tenPg 0x60).toNat % 65536)) 64

/-- The next MCQ entry is read: the command is copied on chip, or the failure of its read is answered (R209, R211, R369). -/
def Sys.mcqTake (rd : DwRes) (y : Sys) : Sys :=
  let ci := (y.pgReg tenPg 0x60).toNat
  let idx := ci % 65536
  match y.mcqRead.hostAnswer .mcq (dwCode rd) with
  | (none, y) => y
  | (some _, y) =>
    let y := y.setPg tenPg 0x60 (Word.ofN (advIdx y.mcqSize ci))
    match rd with
    | .ok ws =>
      let c : DCmd := { seq := y.host.decust.nseq, idx := idx, dws := ws.take 16 }
      (y.updDec fun d => { d with cmds := d.cmds ++ [c], nseq := d.nseq + 1 }).decSweep
    | _ => y.respond (y.respDws 0 0 idx 0x10 [])

/-! ## HELLO, instances (R363-R365, R378-R382, R405, R488) -/

/-- HELLO (R488). -/
def Sys.cHello (c : DCmd) (y : Sys) : Sys :=
  let d := y.host.decust
  y.decJudge c [(!c.clean false [(1, 0xFFFF)], 0x02), (d.maj == 0 && c.f 1 7 0 == 0, 0x0E)] fun y =>
    let y := if d.maj = 0 then y.updDec fun d => { d with maj := if c.f 1 7 0 = 1 then 1 else 2, min := 0 } else y
    y.decEnd c.seq 0 [Word.ofN (y.host.decust.maj + y.host.decust.min * 256)]

/-- A device is assigned to an instance (R386, R490): ATTACH; a personality that the instance's version excludes is unbound
first. -/
def Sys.assignTo (n i : Nat) (y : Sys) : Sys :=
  let z := y.updSlot n fun s => { s with inst := some i }
  let y := if (y.slot n).pers.code != 0 && !z.versionBinds n (y.slot n).pers.code then y.persEnd n else y
  (y.updSlot n fun s => { s with inst := some i }).sendAttach n false

/-- Whether CLAIM_MAP of a new instance takes a slot (R379, R384, R385). -/
def Sys.claims (y : Sys) (i n : Nat) : Bool :=
  let s := y.slot n
  let w := y.nv.last (128 + s.port)
  y.inService n && s.config != 0 && s.inst.isNone && !s.hubDev && w.bit 12 && w.fld 11 0 == i && (s.tier == 0 || w.bit 13)

/-- The lowest FREE instance ID from `k` on. -/
def lowInst (k : Nat) : List (Nat × Inst) → Nat
  | [] => k
  | e :: r => if e.2.st == .free then lowInst k r else if e.1 = k then lowInst (k + 1) r else k

/-- CREATE_INSTANCE (R364, R365, R378, R379). -/
def Sys.cCreate (c : DCmd) (y : Sys) : Sys :=
  let ver := (c.f 3 7 0, c.f 3 15 8)
  let req := (c.dw 1).bit 12
  let free := lowInst 0 y.host.insts
  let i := if req then c.f 1 11 0 else free
  let used := y.host.insts.filter fun e => e.2.st != .free
  let none_ := !req && decide (4096 ≤ free)
  let checks := y.preCheck c false [(1, 0x0FFFFFFF), (2, 0x000FFFFF), (3, 0x003FFFFF)]
      (decide (16 < c.f 1 24 20) || decide (c.f 1 27 25 < 1 ∨ 4 < c.f 1 27 25) || !vivels.contains ver) ++
    [((req && (y.inst i).st != .free) || used.any (fun e => e.2.pasid == c.f 2 19 0), 0x06), (y.ctxBase == 0, 0x05),
     (!y.pins.pasidEn, 0x0D), (none_, 0x03)]
  let y := if (checks.find? (·.1)).map (·.2) == some 0x03 then y.incFld tenPg 0x80 31 16 else y
  y.decJudge c checks fun y =>
    let y := y.updInst i fun _ =>
      { st := .created, pasid := c.f 2 19 0, pool := (c.dw 1).bit 13 || y.pins.compat, cls := c.f 1 19 16, maxSub := c.f 1 24 20,
        maxCmp := c.f 1 27 25, vivMaxMaj := ver.1, vivMaxMin := ver.2, agent := (c.dw 1).bit 15, vec := c.f 3 21 16 }
    let ns := if (c.dw 1).bit 14 then (y.eng.slots.map (·.1)).filter (y.claims i) else []
    let y := each (fun n y => y.assignTo n i) ns y
    y.decEnd c.seq 0 [Word.ofN i, Word.ofN ns.length]

/-- A submission ring's transfers leave the ring for good (R380): those not begun are discarded; begun ones finish at their next
packet boundary without a trace. -/
def Sys.orphanXfers (i : Nat) (y : Sys) : Sys :=
  let xs := y.host.xfers.filter fun x => x.inst == some i
  let y := each (fun (x : Xfer) (y : Sys) => if x.begun || x.fin.isSome then
      y.updX x.id fun x => { x with silent := true, held := false, entries := [], ring := 31 } else y.abandonX x.id) xs y
  each (fun (x : Xfer) (y : Sys) =>
    if x.fin.isSome then y.tryPost x.id else if x.begun then y.cutX 12 x.id else y) xs y

/-- A ring is gone: its context is written with VALID = 0 (R89, R380). -/
def Sys.ringGone (k : Nat) (y : Sys) : Sys :=
  let y := (y.updRing k fun _ => {}).ctxWrite k
  { y with host := { y.host with cache := y.host.cache.filter (· != k) } }

/-- A slot leaves its instance (R386): its rings, endpoints and binding. -/
def Sys.unassign (n : Nat) (y : Sys) : Sys :=
  (((y.ringSlotEvent n 12 .orphaned).closeAll false n).persEnd n).updSlot n fun s => { s with inst := none }

/-- The effects of R380 common to reset and destruction. A command endpoint is its binding's, and stays with it (R336). -/
def Sys.instClear (i : Nat) (y : Sys) : Sys :=
  let y := y.orphanXfers i
  let ks := (y.host.rings.filter fun e => e.1 / 32 == i && e.2.st != .none).map (·.1)
  let y := (each (fun k y => y.ringGone k) ks y).updRing (evtKey i) fun _ => {}
  let lost := y.host.evq.any (fun s => s.inst == i) || y.host.spq.any (fun s => s.inst == i && !s.dead)
  let y := { y with host := { y.host with
    evq := y.host.evq.filter (fun s => s.inst != i),
    spq := y.host.spq.map (fun s => if s.inst == i then { s with dead := true } else s) } }
  let y := each (fun n (y : Sys) => (y.closeAll false n).updSlot n fun s => { s with
    eps := s.eps.map fun e => if e.2.cmd then (e.1, { e.2 with open_ := true, active := true }) else e }) (y.slotsOfInst i) y
  y.updInst i fun n =>
    { n with ownUsed := 0, sharedUsed := 0, exhausted := false, vivMaj := 0, vivMin := 0, evLost := n.evLost || lost,
             msgs := n.msgs.map fun e => (e.1, { sent := e.2.sent }) }

/-- RESET_INSTANCE (R380, R381, R398). -/
def Sys.cReset (c : DCmd) (y : Sys) : Sys :=
  let i := c.f 1 11 0
  y.decJudge c (y.preCheck c false [(1, 0xFFF)] false ++ [(!y.instLive i, 0x04)]) fun y =>
    let y := (y.updInst i fun n => { n with st := .resetting }).instClear i
    ((y.upRevoke i 1).decWait c (.bursts i) []).instSettle i

/-- DESTROY_INSTANCE (R380, R381, R398). -/
def Sys.cDestroy (c : DCmd) (y : Sys) : Sys :=
  let i := c.f 1 11 0
  y.decJudge c (y.preCheck c false [(1, 0xFFF)] false ++ [(!y.instLive i, 0x04)]) fun y =>
    let y := (y.updInst i fun n => { n with st := .destroying }).instClear i
    let ns := y.slotsOfInst i
    let y := each (fun n (y : Sys) => (y.persEnd n).updSlot n fun s => { s with inst := none }) ns y
    let y := (y.upRevoke i 2).updInst i fun n => { n with dn := {}, agent := false, vec := 0 }
    (y.decWait c (.bursts i) [Word.ofN ns.length]).instSettle i

/-- VIVEL_AGREE (R404, R405). -/
def Sys.cVivel (c : DCmd) (y : Sys) : Sys :=
  let i := c.f 1 11 0
  let v := (c.f 2 7 0, c.f 2 15 8)
  let n := y.inst i
  y.decJudge c (y.preCheck c false [(1, 0xFFF), (2, 0xFFFF)] false ++
    [(!vivels.contains v || (y.pins.compat && !verLe v (1, 2)), 0x0E), (!y.instLive i, 0x04),
     (!verLe v (n.vivMaxMaj, n.vivMaxMin), 0x0E), (n.st != .created, 0x05)]) fun y =>
    (y.updInst i fun n => { n with st := .running, vivMaj := v.1, vivMin := v.2 }).decEnd c.seq 0 []

/-! ## Rings (R613) -/

/-- CREATE_RING (R89, R90, R612, R613). -/
def Sys.cRing (c : DCmd) (y : Sys) : Sys :=
  let i := c.f 1 11 0
  let r := c.f 1 20 16
  let n := y.inst i
  let sub := decide (r < 16)
  let k := ringKey i r
  let sl := c.f 4 13 0
  let live := y.instLive i
  let bad := decide (20 < r) || (live && ((sub && decide (n.maxSub ≤ r)) || (!sub && r != 20 && decide (16 + n.maxCmp ≤ r)))) ||
    decide (c.f 1 27 24 < 4) || (sub && !slotOk sl)
  y.decJudge c (y.preCheck c false [(1, 0x0F1F0FFF), (2, 0xFFFFF000), (3, 0xFFFFFFFF), (4, if sub then 0x00033FFF else 0xFFFF0007)] bad ++
    [(!live || (sub && (!y.inService sl || (y.ring (ringKey i (16 + c.f 4 17 16))).st == .none)), 0x04),
     (sub && (y.slot sl).inst != some i, 0x07), ((y.ring k).st != .none, 0x06)]) fun y =>
    let base := (c.dw 2).toNat + (c.dw 3).toNat * 4294967296
    let lg := c.f 1 27 24
    let y := y.updRing k fun o =>
      if sub then { st := .disabled, log2 := lg, base := base, slot := sl, cmp := c.f 4 17 16 }
      else { st := .running, log2 := lg, base := base, msg := c.f 4 1 0, msgEn := (c.dw 4).bit 2, mod := c.f 4 31 16, known := 2 ^ lg,
             nextSpill := o.nextSpill, nextDeliver := o.nextDeliver }
    ((y.ctxWrite k).cachePut k).decEnd c.seq 0 []

/-- A submission ring is destroyed (R380, R613). -/
def Sys.subDestroy (k : Nat) (y : Sys) : Sys :=
  let i := k / 32
  let mine := fun (x : Xfer) => x.inst == some i && x.ring == k % 32
  let ck := ringKey i (16 + (y.ring k).cmp)
  let ws := (y.ring ck).waiting.filter fun w => w.sring == k % 32
  let y := y.updRing ck fun r => { r with waiting := r.waiting.filter fun w => w.sring != k % 32 }
  let y := each (fun (w : CRec) (y : Sys) => y.holdFree i w.own) ws y
  let y := y.mapX fun x => if mine x && (x.begun || x.fin.isSome) then { x with silent := true } else x
  let y := y.updRing k fun r => { r with st := .stopping, destroying := true, stopped := true, enableRec := false }
  let y := y.ringStop k 12
  let y := each (fun (x : Xfer) (y : Sys) => y.tryPost x.id) (y.host.xfers.filter fun x => mine x && x.fin.isSome) y
  y.ringSettle k

/-- DESTROY_RING (R613). -/
def Sys.cRingOff (c : DCmd) (y : Sys) : Sys :=
  let i := c.f 1 11 0
  let r := c.f 1 20 16
  let k := ringKey i r
  let user := y.host.rings.any fun e => e.1 / 32 == i && decide (e.1 % 32 < 16) && e.2.st != .none && e.2.cmp == r - 16
  y.decJudge c (y.preCheck c false [(1, 0x001F0FFF)] (decide (20 < r)) ++
    [(!y.instLive i || (y.ring k).st == .none, 0x04), (decide (16 ≤ r) && decide (r < 20) && user, 0x05)]) fun y =>
    if r < 16 then (y.decWait c (.ringDone i r) []).subDestroy k
    else
      let o := y.ring k
      let y := (y.ringGone k).updRing k fun z => { z with nextSpill := o.nextSpill, nextDeliver := o.nextDeliver }
      y.decEnd c.seq 0 []

/-! ## Devices (R386, R391) -/

/-- ASSIGN_DEVICE (R386, R490). -/
def Sys.cAssign (c : DCmd) (y : Sys) : Sys :=
  let n := c.f 1 13 0
  let i := c.f 1 27 16
  let s := y.slot n
  let ok := y.inService n && s.config != 0
  y.decJudge c (y.preCheck c false [(1, 0x0FFF3FFF)] (!slotOk n || (ok && s.hubDev)) ++
    [(!ok || !y.instLive i, 0x04), (s.inst.isSome, 0x06)]) fun y =>
    (y.assignTo n i).decEnd c.seq 0 [Word.ofN s.port, Word.ofN s.tier]

/-- UNASSIGN_DEVICE (R130, R386): DETACH with CAUSE 9 goes to the tenant alone. -/
def Sys.cUnassign (c : DCmd) (y : Sys) : Sys :=
  let n := c.f 1 13 0
  let s := y.slot n
  y.decJudge c (y.preCheck c false [(1, 0x3FFF)] (!slotOk n) ++ [(!y.inService n, 0x04), (s.inst.isNone, 0x05)]) fun y =>
    let y := y.unassign n
    let y := match s.inst with
      | some i => y.tenantEvent i (y.ev 2 n s.port 0 [Word.ofN (9 + s.asgDetach)])
      | none => y
    y.decEnd c.seq 0 []

/-- SELECT_CONFIG (R257, R391). -/
def Sys.cSelect (c : DCmd) (y : Sys) : Sys :=
  let n := c.f 1 13 0
  let v := c.f 1 23 16
  let s := y.slot n
  let p := s.port
  let cfg := s.cfgBytes v
  let need := if v = 0 then 0 else cfgNeed cfg
  let lim := if s.tier = 0 then profI5 (y.port p).prof else y.hubLimit p s.tier
  y.decJudge c (y.preCheck c false [(1, 0x00FF3FFF)] (!slotOk n) ++
    [(!y.inService n || (v != 0 && cfg.isEmpty), 0x04), (s.away, 0x05), (!y.phyOn p || !y.on 17, 0x0C), (decide (lim < need), 0x12)])
    fun y =>
    let y := (y.closeAll false n).persEnd n
    let send := fun (y : Sys) => (y.decWait c (.request n) []).reqTo 3 n (setupPkt 0 9 v 0 0) []
    if s.tier = 0 && v != 0 then
      match y.powerReq p 0 ((need : Int) - (y.port p).res5) .config with
      | (.granted, y) => send y
      | (.pending, y) => y.decWait c (.grant p) []
      | (.refused, y) => y.decEnd c.seq 0x12 []
    else send y

/-- SET_CONFIGURATION of a SELECT_CONFIG has succeeded (R111, R257, R391). -/
def Sys.selectDone (c : DCmd) (n : Nat) (y : Sys) : Sys :=
  let v := c.f 1 23 16
  let p := (y.slot n).port
  let w := (y.port p).prof
  let y := (y.configured n v).updSlot n fun s => { s with cfgDenied := false }
  let y :=
    if (y.slot n).tier = 0 && v != 0 && profHigh w && !y.pending p [1, 2] then
      match y.powerReq p (profRail w) ((profIH w : Int) - (y.port p).resH) .high with
      | (.granted, y) => if (y.port p).hpwr then y else y.hpwrWant p
      | (_, y) => y
    else y
  (y.sendAttach n false).decEnd c.seq 0 [Word.ofN v]

/-- A control request to a device that no enumeration runs for ends: it belongs to a SELECT_CONFIG, and is repeated as R271
states. -/
def Sys.selectReply (p t : Nat) (ok : Bool) (y : Sys) : Sys :=
  match y.slotAt p t with
  | none => y
  | some n =>
    match y.host.decust.cmds.find? fun c => c.wait == .request n && c.op == 0x0E with
    | none => y
    | some c =>
      if ok then y.selectDone c n
      else if c.tries < 2 then
        (y.updCmd c.seq fun c => { c with tries := c.tries + 1 }).reqTo 3 n (setupPkt 0 9 (c.f 1 23 16) 0 0) []
      else y.decEnd c.seq 0x11 []

/-- DEVICE_RESET (R275, R276, R317, R377, R391). A device that is not re-presented is answered with KEPT 0. -/
def Sys.cDevReset (c : DCmd) (y : Sys) : Sys :=
  let n := c.f 1 13 0
  let s := y.slot n
  y.decJudge c (y.preCheck c false [(1, 0x3FFF)] (!slotOk n) ++
    [(!y.inService n, 0x04), (!y.resettable s.port s.tier, 0x05), (!y.phyOn s.port || (s.tier != 0 && !y.on 17), 0x0C)]) fun y =>
    (y.decWait c (.represent n) []).requeue s.port s.tier

/-! ## Endpoints (R387-R389) -/

/-- The descriptor of an endpoint that a command may name: EP0, or one of the configuration in force. -/
def Slot.names (s : Slot) (e : Nat) : Bool := e == 0 || (s.epDesc? e).isSome

/-- The type of such an endpoint. -/
def Slot.epTy (s : Slot) (e : Nat) : EpTy :=
  match (if e = 0 then none else s.epDesc? e) with
  | none => .control
  | some d => match d.attr % 4 with | 0 => .control | 1 => .isoch | 2 => .bulk | _ => .interrupt

/-- Whether an endpoint type is periodic. -/
def EpTy.per (t : EpTy) : Bool := t == .isoch || t == .interrupt

/-- The mode in which OPEN_ENDPOINT opens an endpoint (R322, R387). -/
def Slot.openMode (s : Slot) (m : Nat) : EpMode := if s.isSealed then .sealed else if m = 1 then .normalised else .raw

/-- RESULT's MODE (R374). -/
def EpMode.code : EpMode → Nat
  | .raw => 0 | .normalised => 1 | .sealed => 2

/-- The period that a periodic endpoint is admitted with (R159): an interrupt endpoint may ask for a shorter one, in the
units of its entry. -/
def Sys.askedPlog2 (y : Sys) (n e : Nat) (ovr : Bool) (ask : Nat) : Nat :=
  match (y.slot n).epDesc? e with
  | none => 0
  | some d =>
    let iso := d.attr % 4 == 1
    let pl := y.epPlog2 n iso d.interval
    if ovr && !iso then min pl (if y.splits n then ask - 3 else ask) else pl

/-- The staged entry of a periodic endpoint (R162, R387). -/
def Sys.admitOpen (y : Sys) (c : DCmd) (n e : Nat) : Option PtEnt :=
  match (y.slot n).epDesc? e with
  | none => none
  | some d => y.admitEp [(y.ptab (y.slot n).port).sh] n e (d.attr % 4 == 1) d.mps d.mult
      (y.askedPlog2 n e ((c.dw 1).bit 28) (c.f 2 19 16)) false

/-- After staging, AUTO_COMMIT waits for its commit; otherwise the command is answered (R376). -/
def Sys.staged (c : DCmd) (res : List Word) (y : Sys) : Sys :=
  if c.auto then (y.decWait c .commitFree res).commitKick else y.decEnd c.seq 0 res

/-- A normalised IN endpoint has its transfer dispatched from its opening on (R330, R388). -/
def Sys.openNorm (n e : Nat) (y : Sys) : Sys :=
  if ((y.slot n).ep e).mode == .normalised && epIn e then y.alwaysOpen n e else y

/-- OPEN_ENDPOINT (R93, R322, R376, R387, R388). -/
def Sys.cOpen (c : DCmd) (y : Sys) : Sys :=
  let i := c.f 1 11 0
  let e := c.f 1 20 16
  let n := c.f 2 13 0
  let s := y.slot n
  let p := s.port
  let ty := s.epTy e
  let m := c.f 1 25 24
  let q := c.f 3 9 0
  let w := y.qcfgSh (p / 16) q
  let ent := y.admitOpen c n e
  y.decJudge c (y.preCheck c true [(1, 0x131F0FFF), (2, 0x000F3FFF), (3, 0x000703FF)] (e == 31 || decide (1 < m) || !slotOk n) ++
    [(!y.instLive i || !y.inService n || !s.names e, 0x04), (ty == .isoch && s.speed == .low, 0x02), (s.inst != some i, 0x07),
     (!ty.per && (qInst w != i || qPort w != p % 16), 0x09), ((s.ep e).open_, 0x06), (s.isSealed && m == 1, 0x0A),
     (m == 1 && (s.pers.code == 0 || !s.permits e), 0x05), (ty.per && y.locked i, 0x0B),
     (ty.per && !y.tableRoom p (·.sh), 0x12), (ty.per && ent.isNone, 0x08)]) fun y =>
    let d := s.epDesc? e
    let mode := s.openMode m
    let mps := match (if e = 0 then none else d) with | some d => d.mps | none => (s.ep 0).mps
    let mult := match d with | some d => d.mult | none => 1
    let base : Ep := { open_ := true, mode := mode, ty := ty, mps := mps, mult := mult, ttClear := (s.ep e).ttClear }
    match (if ty.per then ent else none) with
    | none =>
      let y := (y.updEp n e fun _ => { base with queue := q, prio := c.f 3 18 16 }).openNorm n e
      y.decEnd c.seq 0 [Word.ofN mode.code]
    | some t =>
      let sh := (y.ptab p).sh
      let y := (y.updPtab p fun b => { b with sh := FMap.put {} (freeIdx sh) t b.sh }).setStaged (frmPg (p / 16) 3) true
      let y := (y.updEp n e fun _ => { base with plog2 := t.plog2 }).openNorm n e
      y.staged c [Word.ofN mode.code, Word.ofN (t.phase + t.plog2 * 65536), Word.ofN t.charge]

/-- CLOSE_ENDPOINT (R376, R389). -/
def Sys.cClose (c : DCmd) (y : Sys) : Sys :=
  let i := c.f 1 11 0
  let e := c.f 1 20 16
  let n := c.f 2 13 0
  let s := y.slot n
  let p := s.port
  let ep := s.ep e
  y.decJudge c (y.preCheck c true [(1, 0x001F0FFF), (2, 0x00003FFF)] (e == 31 || !slotOk n) ++
    [(!y.instLive i || !y.inService n || !s.names e, 0x04), (s.inst != some i, 0x07), (!ep.open_ || ep.closing, 0x05),
     (ep.ty.per && y.locked i, 0x0B)]) fun y =>
    if !ep.ty.per then (y.closeNow n e).decEnd c.seq 0 []
    else
      let b := y.ptab p
      let live := tabHas b.act n e || y.host.capTabs.any (fun t => t.1 == p && tabHas t.2 n e)
      let gone := b.sh.filter fun x => x.2.slot == n && x.2.epid == e
      let y := (y.updPtab p fun b => { b with sh := tabDrop b.sh n e }).setStaged (frmPg (p / 16) 3) true
      let y := if live then y.updEp n e fun z => { z with closing := true }
        else each (fun (x : Nat × PtEnt) (y : Sys) => y.ptLeft p x.2) gone y
      y.staged c []

/-! ## Queues and commits (R376, R390) -/

/-- BIND_QUEUE (R390, R393). -/
def Sys.cBind (c : DCmd) (y : Sys) : Sys :=
  let n := c.f 1 2 0
  let q := c.f 1 25 16
  let i := c.f 2 11 0
  let k := c.f 2 19 16
  let w := Word.ofN (c.f 3 7 0 + c.f 3 13 8 * 256 + k * 65536 + i * 1048576)
  let hits := fun (w : Word) => y.locked (qInst w) && y.queueBound n q w (qInst w)
  y.decJudge c (y.preCheck c true [(1, 0x03FF0007), (2, 0x000F0FFF), (3, 0x00003FFF)] false ++
    [(!y.instLive i, 0x04), (y.queueUsed n q fun j p => j != i || p % 16 != k, 0x09), (!y.on n, 0x0C),
     (hits (y.qcfgAct n q) || hits w, 0x0B)]) fun y =>
    (y.stage (qcfgAt n q).1 (qcfgAt n q).2 w).staged c []

/-- COMMIT (R376, R489). -/
def Sys.cCommit (c : DCmd) (y : Sys) : Sys :=
  y.decJudge c ((y.host.decust.maj == 1, 0x01) :: y.preCheck c false [] false) fun y =>
    (y.decWait c .commitFree [Word.ofN c.gen]).commitKick

/-! ## Personalities (R323-R327, R339-R343) -/

/-- The response of a NORMALISE that has bound (R374). -/
def Slot.bindRes (s : Slot) : List Word := [Word.ofN (s.pers.code + s.pers.cmdEpid * 256), Word.ofN s.pers.entry]

/-- Whether the manager may unbind: no endpoint of the device is open normalised (R323). -/
def Slot.canUnbind (s : Slot) : Bool := !(s.eps.any fun e => e.2.open_ && e.2.mode == .normalised && !e.2.cmd)

/-- The choice of R340 and R341 is made, and the device bound or refused; a boot keyboard first gets its two requests, and a
printer that is polled its first poll (R324, R326, R335, R336, R406, R490). -/
def Sys.normGo (c : DCmd) (n : Nat) (hidOk : Bool) (pages : List (Nat × Nat)) (y : Sys) : Sys :=
  match y.choose n pages with
  | .sealIt => ((y.persEnd n).updSlot n fun s => { s with isSealed := true }).decEnd c.seq 0x0A []
  | .none_ => y.decEnd c.seq (if hidOk then 0x05 else 0x11) []
  | .bind code ent pr ps =>
    if !y.versionBinds n code then y.decEnd c.seq 0x0E []
    else if !hidOk then y.decEnd c.seq 0x11 []
    else if !y.bindable n code pages then y.decEnd c.seq 0x05 []
    else
      let y := (y.persEnd n).persBind n code ent pr pages ps
      if code = 1 ∨ code = 7 then ((y.decWait c (.request n) (y.slot n).bindRes).persReq n .protocol).persReq n .idle
      else if code = 4 ∧ (y.slot n).pers.h 0 ≠ 0 then y.decWait c (.request n) (y.slot n).bindRes
      else y.decEnd c.seq 0 (y.slot n).bindRes

/-- NORMALISE (R324); a HID personality waits for its interface's report descriptor. -/
def Sys.cNormalise (c : DCmd) (y : Sys) : Sys :=
  let n := c.f 1 13 0
  let s := y.slot n
  y.decJudge c (y.preCheck c false [(1, 0x3FFF)] (!slotOk n) ++
    [(!y.inService n, 0x04), (s.isSealed, 0x0A), (s.away || !s.canUnbind, 0x05), (!y.phyOn s.port || !y.on 17, 0x0C)]) fun y =>
    if y.needsHid n then
      ((y.decWait c (.request n) []).hidBegin n).persReq n .report
    else y.normGo c n true []

/-- A report descriptor has come: the next one is read, or NORMALISE chooses (R324). -/
def Sys.normRead (n : Nat) (b : List Byte) (norms : List DCmd) (y : Sys) : Sys :=
  match y.hidNote n b with
  | (some _, y) => y.persReq n .report
  | (none, y) => each (fun c (y : Sys) => y.normGo c n true (y.slot n).pers.rdPages) norms y

/-- The NORMALISE commands that wait for a request of slot `n`. -/
def Sys.normWaiting (y : Sys) (n : Nat) : List DCmd := y.host.decust.cmds.filter fun c => c.wait == .request n && c.op == 0x12

/-- A control request of a personality ends (R325): the report descriptor lets NORMALISE choose, the requests of a binding answer
it, and a failure after the repeats ends the binding (R324). -/
def Sys.persReply (n : Nat) (res : ReqRes) (y : Sys) : Sys :=
  let p := (y.slot n).pers
  let last := decide (2 ≤ p.tries)
  let norms := y.normWaiting n
  let y := y.persReqEnd n res
  match p.req, res with
  | .report :: _, .ok b => y.normRead n b norms
  | .report :: _, _ => if last then each (fun c (y : Sys) => y.normGo c n false []) norms y else y
  | .protocol :: _, .ok _ => y
  | .idle :: _, .ok _ => y.decWake (· == .request n) 0 []
  | .poll :: _, .ok (_ :: _) => y.decWake (· == .request n) 0 []
  | .protocol :: _, _ | .idle :: _, _ => if last then (y.persEnd n).reqCut n else y
  | .poll :: _, _ => if last && !norms.isEmpty then (y.persEnd n).reqCut n else y
  | _, _ => y

/-- UNBIND (R323). -/
def Sys.cUnbind (c : DCmd) (y : Sys) : Sys :=
  let n := c.f 1 13 0
  let s := y.slot n
  y.decJudge c (y.preCheck c false [(1, 0x3FFF)] (!slotOk n) ++
    [(!y.inService n, 0x04), (s.pers.code == 0 || !s.canUnbind, 0x05)]) fun y => ((y.persEnd n).reqCut n).decEnd c.seq 0 []

/-- SEAL (R326, R327). -/
def Sys.cSeal (c : DCmd) (y : Sys) : Sys :=
  let n := c.f 1 13 0
  y.decJudge c (y.preCheck c false [(1, 0x3FFF)] (!slotOk n) ++
    [(!y.inService n, 0x04), ((y.slot n).pers.code != 0, 0x05)]) fun y =>
    (y.updSlot n fun s => { s with isSealed := true }).decEnd c.seq 0 []

/-- One bit of the IEEE 802.3 CRC-32, least significant bit first. -/
def crc32Bit (r : Word) : Word := if r.bit 0 then (r >>> 1) ^^^ 0xEDB88320#32 else r >>> 1

/-- CRC-32 of IEEE 802.3 (R340). -/
def crc32 (bs : List Byte) : Word :=
  ~~~(bs.foldl (fun r b => (List.range 8).foldl (fun r _ => crc32Bit r) (r ^^^ b.zeroExtend 32)) 0xFFFFFFFF#32)

/-- The entries of a parameter table (R340). -/
def tableEntries : Nat → List Byte → List (List Byte)
  | 0, _ => []
  | n + 1, bs => bs.take 64 :: tableEntries n (bs.drop 64)

/-- A parameter table that passes the checks of R339, R340 and R344: TABLE_ID and entries. -/
def readTable (bs : List Byte) : Option (Nat × List (List Byte)) :=
  let n := half bs 6
  let body := (bs.drop 16).take (64 * n)
  let es := tableEntries n body
  if leNat (bs.take 4) = 0x54505846 ∧ half bs 4 = 1 ∧ n ≤ 1024 ∧ 16 + 64 * n ≤ bs.length ∧
      (crc32 body).toNat = leNat ((bs.drop 8).take 4) ∧
      es.all (fun e => persCodeOk (byteAt e 6).toNat && paramsOk (byteAt e 6).toNat (e.drop 16)) then
    some (leNat ((bs.drop 12).take 4), es)
  else none

/-- The read of LOAD_PARAMS starts once a DCQ entry can be reserved for it (R215). -/
def Sys.paramsStart (a len : Nat) (y : Sys) : Sys :=
  if (y.hostCarrier .params).isSome || !y.dcqFree then y
  else
    let z := y.hostLong 24 .params a len
    if (z.hostCarrier .params).isSome then { z with usb := { z.usb with dcqRsv := z.usb.dcqRsv + 1 } } else y

/-- The table of LOAD_PARAMS is read (R214-R216): a firmware channel carries the transfer with its DCQ entry reserved, and its DCQ
record is appended when it ends. The read's end as `hostAnswer` has it. -/
def Sys.paramsRead (a len : Nat) (rd : ReadRes) (y : Sys) : Option Bool × Sys :=
  let y := y.paramsStart a len
  match y.hostCarrier .params, y.hostAnswer .params (readCode rd) with
  | some c, (some good, y) =>
    let y := y.dcqAppend (c - 24) (if good then 0 else if readCode rd = 5 then 6 else 0x0A) (if good then len else 0) 0
    (some good, { y with usb := { y.usb with dcqRsv := y.usb.dcqRsv - 1 } })
  | _, (_, y) => (none, y)

/-- LOAD_PARAMS (R339, R340): `rd` is how the read of the table ended. -/
def Sys.cParams (c : DCmd) (rd : ReadRes) (y : Sys) : Sys :=
  let len := c.f 3 19 0
  y.decJudge c (y.preCheck c false [(1, 0xFFFFFFFF), (2, 0xFFFFFFFF), (3, 0x000FFFFF)] false ++ [(!y.on 17, 0x0C)]) fun y =>
    match y.paramsRead (lohi (c.dw 1) (c.dw 2)) len rd with
    | (none, y) => y
    | (some good, y) =>
      match rd, good with
      | .ok bs, true =>
        match readTable (bs.take len) with
        | some t => { y with eng := { y.eng with tableId := t.1, table := t.2 } }.decEnd c.seq 0 [Word.ofN t.1, Word.ofN t.2.length]
        | none => y.decEnd c.seq 0x0F []
      | _, _ => y.decEnd c.seq 0x10 []

/-! ## Ports (R309-R317, R377) -/

/-- Whether a TIERPOS names a root port, or a port of a hub on the tree (R289). -/
def Sys.posOk (y : Sys) (p t : Nat) : Bool :=
  t == 0 ||
    (match y.hubPortAt p t with
     | some (h, hp, _) => (y.slot h).isHub && decide (1 ≤ hp) && decide (hp ≤ (y.slot h).hubRec.nports) &&
         tierDown (y.slot h).tier hp == t
     | none => false)

/-- A root port's state code (R245). -/
def PortSt.code : PortSt → Nat
  | .off => 0 | .powered => 1 | .debounce => 2 | .queued => 3 | .resetting => 4 | .enabled => 5 | .suspended => 6
  | .disabled => 7 | .ocWait => 8 | .ocLatched => 9 | .test => 10

/-- Whether a word can be a TIERPOS (R289): its reserved bits 0, DEPTH at most 5, each port number on the path 1-31 and the fields
beyond DEPTH 0. -/
def tierOk (t : Nat) : Bool :=
  decide (t < 2 ^ 28) && decide (tierDepth t ≤ 5) &&
    (List.range 5).all fun i => if i < tierDepth t then t / 2 ^ (5 * i) % 32 != 0 else t / 2 ^ (5 * i) % 32 == 0

/-- What PORT_CMD does to a hub port (R296, R317, R377); `none` where the port's state ignores it. -/
def Sys.hubCmd (p t cmd : Nat) (y : Sys) : Option Sys :=
  match y.hubPortAt p t with
  | none => none
  | some (h, hp, q) =>
    match cmd with
    | 1 => if !q.powered && q.ocDue == 0 then some (y.hubPowerUp h hp) else none
    | 2 =>
      if q.powered || decide (0 < q.ocDue) || q.latched then
        some ((y.hubPowerDown p h hp).updHubPort h hp fun q => { q with latched := false })
      else none
    | 3 => if y.resettable p t then some (y.requeue p t) else none
    | 4 => if q.conn && q.enabled && !q.disabled then some (y.disableAt p t) else none
    | _ => some y

/-- What PORT_CMD does (R246, R285, R377); `none` where the port's state ignores it. -/
def Sys.anyCmd (p t cmd : Nat) (y : Sys) : Option Sys :=
  if t = 0 then y.rootCmd p cmd else y.hubCmd p t cmd

/-- The domain check of a command on a port (R375). -/
def Sys.portOffDom (y : Sys) (p t : Nat) : Bool := !y.phyOn p || (t != 0 && !y.on 17)

/-- What a PORT_CMD waits for (R377): a request to the hub of a hub port, or the power of a root port that is still OFF. -/
def Sys.portWait (y : Sys) (p t cmd : Nat) : Option CWait :=
  if t ≠ 0 then (if cmd = 1 ∨ cmd = 2 ∨ cmd = 4 then some (.portReq p t) else none)
  else if cmd = 1 ∧ (y.port p).st = .off then some (.powered p)
  else none

/-- PORT_CMD (R377): to a root port it acts as PRG_PORT_CMD does, CFG included where it is ignored (R246). It is answered when the
state change has been made. -/
def Sys.cPort (c : DCmd) (y : Sys) : Sys :=
  let p := c.f 1 6 0
  let t := (c.dw 2).toNat
  let cmd := c.f 1 10 8
  let r := y.anyCmd p t cmd
  let pre := y.preCheck c false [(1, 0x77F), (2, 0x0FFFFFFF)] (!tierOk t) ++ [(!y.posOk p t, 0x04)]
  let y := if t = 0 && r.isNone && y.phyOn p && !pre.any (·.1) then y.cfgErr (lnkPg p) else y
  y.decJudge c (pre ++ [(r.isNone, 0x05), (y.portOffDom p t, 0x0C)]) fun y =>
    let y := r.getD y
    match y.portWait p t cmd with
    | some w => y.decWait c w []
    | none => y.decEnd c.seq 0 [Word.ofN (if t = 0 then (y.port p).st.code else 0)]

/-- Whether a port can be suspended or resumed at all (R309, R314). -/
def Sys.canSusp (y : Sys) (p t : Nat) : Bool :=
  if t = 0 then (y.port p).st == .enabled || (y.port p).st == .suspended
  else match y.hubPortAt p t with
    | some (_, _, h) => h.conn && h.enabled
    | none => false

/-- SUSPEND (R309, R310, R377, R489): answered when the port is SUSPENDED. -/
def Sys.cSuspend (c : DCmd) (y : Sys) : Sys :=
  let p := c.f 1 6 0
  let t := (c.dw 2).toNat
  y.decJudge c ((y.host.decust.maj == 1, 0x01) :: (y.preCheck c false [(1, 0x17F), (2, 0x0FFFFFFF)] (!tierOk t) ++
    [(!y.posOk p t, 0x04), (!y.canSusp p t, 0x05), (y.portOffDom p t, 0x0C)])) fun y =>
    let y := (y.decWait c (.suspended p t) []).suspReq p t false ((c.dw 1).bit 8)
    if y.suspAt p t == .suspended then y.decWake (· == .suspended p t) 0 [] else y

/-- RESUME (R311, R377, R489): answered when RESUME_DONE is sent; at once where the port is ACTIVE. -/
def Sys.cResume (c : DCmd) (y : Sys) : Sys :=
  let p := c.f 1 6 0
  let t := (c.dw 2).toNat
  let rw := if t = 0 then (y.port p).rwEn else match y.hubPortAt p t with | some (_, _, h) => h.rwEn | none => true
  y.decJudge c ((y.host.decust.maj == 1, 0x01) :: (y.preCheck c false [(1, 0x7F), (2, 0x0FFFFFFF)] (!tierOk t) ++
    [(!y.posOk p t, 0x04), (!y.canSusp p t, 0x05), (y.portOffDom p t, 0x0C)])) fun y =>
    let y := (y.decWait c (.resumed p t) []).suspReq p t true rw
    if y.suspAt p t == .active then y.decWake (· == .resumed p t) 0 [0] else y

/-! ## MEQ and MCQ registers (R136, R400, R615) -/

/-- TEN_MEQ_CI (R136, R371): entries are freed, and what waits is written into them. -/
def Sys.meqAdvance (v : Word) (y : Sys) : Sys :=
  let ci := v.fld 16 0
  let pi := (y.pgReg tenPg 0x70).toNat
  if qBad y.meqSize pi ci ci then y.cfgErr tenPg
  else ((y.setPg tenPg 0x74 (Word.ofN ci)).meqFlush).decSweep

/-- TEN_MEQ_SIZE.EN (R398, R615): once set, the events owed for posted UP messages arise, and what waits is written. -/
def Sys.meqSetEn (en : Bool) (y : Sys) : Sys :=
  let y := y.setFld tenPg 0x6C 31 31 (if en then 1 else 0)
  if !en then y
  else
    let y := y.meqFlush
    let y := if y.host.decust.again then
        each (fun (e : Nat × Inst) (y : Sys) =>
            let y := y.updInst e.1 fun n => { n with up := { n.up with again := false } }
            if e.2.up.go && e.2.up.again && !y.toAgent e.1 e.2.up then y.upEvent e.1 else y) (y.host.insts.filter fun e => e.2.up.again)
          (y.updDec fun d => { d with again := false })
      else y
    y.decSweep

/-- TEN_MCQ_SIZE.EN (R615). -/
def Sys.mcqSetEn (en : Bool) (y : Sys) : Sys := y.setFld tenPg 0x58 31 31 (if en then 1 else 0)

/-- TEN_CTL.MGR_RESTART (R400): no response is written from now on, those that wait included. -/
def Sys.mgrRestart (y : Sys) : Sys := ((y.updDec fun d => { d with restart := true, resps := [] }).decSweep).restartEnd

end Sys2Proof.Machine
end

