-- ==== Sys2Proof/Machine/CmdDma.lean ====
section
/-! DEFINITION. The commands of the DMA engines (R186-R218). -/

namespace Sys2Proof.Machine

/-- Whether a burst of an engine that was started can end: the engine has not lost its contents, and no chip fault stops it (R191,
R564, R566). -/
def Sys.dmaRuns (y : Sys) (e : Nat) : Bool := !y.contain.chipFault && (y.dom (if e = 0 then 16 else e - 1)).st != .off

/-- What waits for the bursts of a channel's instance goes on (R381). -/
def Sys.burstOver (k : Chan2) (y : Sys) : Sys := match k.inst with | some i => y.instSettle i | none => y

/-- A channel of the FETCH, RECORD or QUEUE group takes what its group's traffic asks for (R188, R191): it must be the lowest idle
one. -/
def Sys.groupStart (c : Nat) (y : Sys) : Sys :=
  if y.hostChan (c / 8 * 8) != some c then y
  else
    match c / 8 with
    | 0 => y.fetchPump
    | 1 => each (fun i (y : Sys) => y.flushIssue i) (((y.host.xfers.filter fun x => x.flush == 1).filterMap (·.inst)).take 1) y
    | _ => if y.mcqTakes then y.mcqRead else y

/-- A channel takes a request (R188, R189, R191), or a firmware channel samples its next burst (R215); bursts that compete are
judged again (R194, R195). -/
def Sys.burstStart (e c : Nat) (y : Sys) : Sys :=
  if e = 0 then
    let k := y.chan 0 c
    if c < 24 then (if y.ringUnit then y.groupStart c else y)
    else if k.st = .active ∧ k.len = 0 then ((y.fwBurst (c - 24)).arb).carry (dmaPg 0 c) else y
  else if c < 8 && (y.chan e c).st == .idle then
    match y.pickReq (e - 1) with
    | some r => ((y.takeReq e c r).arb).carry (dmaMain e)
    | none => y
  else y

/-- DMA_BURST_START (R189, R191, R215). -/
def execDmaBurstStart (eng : Fin 9) (ch : Fin 32) (s : State) : Res :=
  liveSys s fun y => if y.dmaWorks eng then y.burstStart eng ch else y

/-- Whether a channel has bytes of a host read outstanding. -/
def Chan2.reads (k : Chan2) : Bool := k.carries && !k.toHost && !k.setup && decide (k.got < k.req)

/-- An injected POISON of a page, or a poison that came with the data (R211, R568). -/
def Sys.withPoison (gs : List Pg) (p : Bool) (y : Sys) : Bool × Sys :=
  gs.foldl (fun (a : Bool × Sys) g => match a.2.poisonNow g with | (b, y) => (a.1 || b, y)) (p, y)

/-- The read requests outstanding after `n` bytes have come for the first of them (R196). -/
def outTake : Nat → List Nat → List Nat
  | _, [] => []
  | n, a :: r => if a ≤ n then outTake (n - a) r else (a - n) :: r

/-- Bytes of a read arrive on a channel (R191, R196, R211): they enter its buffer, and move on from there unless the channel is
PREEMPTED. RETRIES counts for one read, and is 0 again when that has ended (R218). -/
def Sys.readBytes (e c : Nat) (bs : List Byte) (p : Bool) (y : Sys) : Sys :=
  let k := y.chan e c
  let bs := bs.take (k.req - k.got)
  if bs.isEmpty then y
  else
    let gs := if e ≠ 0 then [dmaMain e, fifPg k.port]
      else if k.laddr < 0x1000000 then [dmaPg 0 c, onePg .wsc 0] else [dmaPg 0 c]
    match y.withPoison gs p with
    | (q, y) =>
      let y := if q then y.aer .poisonedTlp else y
      (y.updChan e c fun k =>
        { k with st := if k.st == .retry then .active else k.st, outst := outTake bs.length k.outst,
                 retries := if (outTake bs.length k.outst).length < k.outst.length then 0 else k.retries, buf := k.buf ++ bs.map fun b => (b, q), poison := k.poison || q,
                 err := if q then dmaErr 5 k.inst else k.err }).arb

/-- A read on a channel fails (R209): after its retries the channel halts, its requester is told, and a firmware transfer gets its
record (R214). -/
def Sys.readFails (e c code : Nat) (y : Sys) : Sys :=
  let k := y.chan e c
  match y.readRetry e c code with
  | (false, y) => y
  | (true, y) =>
    let y := if e = 0 then y.dcqPut (c - 24) 0x0A else y.fillFailed e c
    ((y.allHalted e c).burstOver k).arb

/-- DMA_READ_COMPLETION (R208-R212). -/
def execDmaReadCompletion (eng : Fin 9) (ch : Fin 32) (rd : ReadRes) (s : State) : Res :=
  liveSys s fun y =>
    if y.dmaRuns eng && (y.chan eng ch).reads && (eng.val != 0 || (decide (24 ≤ ch.val) && (y.chan 0 ch).use == .none)) then
      match rd with
      | .ok bs => y.readBytes eng ch bs false
      | .poison bs => y.readBytes eng ch bs true
      | .ur => y.readFails eng ch 1
      | .ca => y.readFails eng ch 2
      | .timeout => y.readFails eng ch 3
      | .malformed => y.readFails eng ch 4
    else y

/-- The burst of a channel ends (R191-R193, R204, R215): a fill when all its bytes have moved, those that need no host read at once, a drain when its writes are issued,
which a PREEMPTED burst, or one that the host link does not take, cannot yet be. -/
def Sys.burstEnd (e c : Nat) (y : Sys) : Sys :=
  let k := y.chan e c
  let whole := k.setup || decide (k.bytes - k.bst = k.len)
  if k.st != .active || k.len = 0 || (k.toHost && !y.linkFree k) || (!k.toHost && !whole) then y
  else if e = 0 then (if 24 ≤ c then (y.fwBurstEnd (c - 24)).arb else y)
  else if k.toHost then ((y.drainEnd e c).burstOver k).arb
  else (((if k.setup then y.fillBytes e c k.data else y).fillEnd e c).burstOver k).arb

/-- DMA_BURST_END (R191, R192). -/
def execDmaBurstEnd (eng : Fin 9) (ch : Fin 32) (s : State) : Res :=
  liveSys s fun y => if y.dmaRuns eng then y.burstEnd eng ch else y

/-- DMA_AGEING (R197): the burst runs at priority 0 for the rest of its length. -/
def execDmaAgeing (eng : Fin 9) (ch : Fin 32) (s : State) : Res :=
  liveSys s fun y =>
    if y.dmaRuns eng && (y.pgReg (dmaMain eng) 0x240).bit 4 && (y.chan eng ch).carries then
      (y.updChan eng ch fun k => { k with aged := true, prio := 0 }).arb
    else y

/-- What waited for a channel of a host DMA group goes on where one is idle again (R188). -/
def Sys.chanFreed (e c : Nat) (y : Sys) : Sys :=
  if e ≠ 0 then y
  else
    match c / 8 with
    | 0 => y.fetchPump
    | 1 => y.recSweep
    | 2 => y.meqFlush
    | _ => y

/-- DMA_CHj_CTL.RESTART (R213, R214): the manager's on every channel, a core's on firmware channels. -/
def doChanRestart (org : Origin) (e c : Nat) (y : Sys) : Sys :=
  let g := dmaPg e c
  let o := 0x40 + 0x40 * (c % 8)
  if e ≠ 0 ∧ 8 ≤ c then y
  else
    match org with
    | .manager => y.viaPage org g o false fun y => if (y.chan e c).st == .halted then (y.chanRestart e c).chanFreed e c else y
    | .core _ => y.viaPage org g o false fun y => if e = 0 ∧ 24 ≤ c then y.chanRestart e c else y.accErr g
    | _ => y

/-- CHANNEL_RESTART (R213, R214). -/
def execChannelRestart (org : Origin) (eng : Fin 9) (ch : Fin 32) (s : State) : Res :=
  liveWin (.channelRestart org eng ch) org s (doChanRestart org eng ch)

/-- FIRMWARE_DMA_START (R215). -/
def execFirmwareDmaStart (core : Fin 16) (ch : Fin 8) (s : State) : Res :=
  liveSys s (Sys.viaPage (.core core) fwPg (0x40 + 0x40 * ch.val) false (Sys.fwStart ch))

/-- DCQ_CI_WRITE (R216). -/
def execDcqCiWrite (core : Fin 16) (val : Word) (s : State) : Res :=
  liveSys s (Sys.viaPage (.core core) fwPg 0x258 false (Sys.dcqAdvance val))

/-- PASID_ENABLE_CHANGE (R204): what waited for it is issued in order. -/
def execPasidEnableChange (en : Bool) (s : State) : Res :=
  liveSys s fun y =>
    let y := { y with pins := { y.pins with pasidEn := en } }
    if en then ((y.releasePasid.releaseMsgs).recSweep.fetchPump.arb).settleInsts else y

end Sys2Proof.Machine
end

