-- ==== Sys2Proof/Machine/CmdFrame.lean ====
section
/-! DEFINITION. The commands of the frame engine but those that end a transaction (R29-R34, R139-R185). -/

namespace Sys2Proof.Machine

/-- PACE_EVALUATION (R29): at the next microframe boundary that has had none. -/
def execPaceEvaluation (region : Fin 8) (pace : Fin 256) (s : State) : Host.Outcome State Fault Refusal :=
  liveSys s fun y =>
    if y.on region && !y.halted (frmPg region 0) && !y.contain.chipFault then
      { y with tb := nextBoundary (fun _ => true) y.tb (y.pace region).at_ }.paceEval region pace
    else y

/-- A write of FRM_PACE_THR (R30, R176). -/
def Sys.paceThr (n : Nat) (v : Word) (y : Sys) : Sys :=
  if v.fld 15 8 + 8 ≤ v.fld 7 0 then y.setPg (frmPg n 0) 0x40 (v &&& 0xFFFF#32) else y.cfgErr (frmPg n 0)

/-- The write as an access of the manager window. -/
def doPaceThrWrite (region : Nat) (val : Word) (y : Sys) : Sys :=
  y.viaPage .manager (frmPg region 0) 0x40 false (Sys.paceThr region val)

/-- PACE_THR_WRITE (R176). -/
def execPaceThrWrite (region : Fin 8) (val : Word) (s : State) : Host.Outcome State Fault Refusal :=
  liveWin (.paceThrWrite region val) .manager s (doPaceThrWrite region val)

/-- FRAME_START: time comes to the port's next period start, and the period begins, unless a transaction of the last one
is still on the wire. A port that is entering SUSPENDED stops SOF here, once its devices have been armed (R310). -/
def Sys.frameBegin (p : Nat) (y : Sys) : Sys :=
  if y.linkWorks p && ((y.frame p).sof || (y.port p).st == .suspended) && (y.frame p).cur.isNone then
    let y := { y with tb := nextBoundary (y.beginsAt p) y.tb (y.frame p).at_ }
    let y := (each (fun (k : Nat × Nat) (y : Sys) => y.suspAsk p k.1 k.2) (y.suspUnasked p) y).rwakeOut p
    let y := if (y.port p).susp == .suspending && (y.frame p).sof && !y.arming p 0 then y.sofStop p else y
    y.framePass p
  else y

/-- FRAME_START (R145); a hub whose status-change endpoint strikes out there is a tree fault (R316). -/
def execFrameStart (port : Fin 128) (s : State) : Host.Outcome State Fault Refusal :=
  liveSys s fun y =>
    let z := (y.frameBegin port).strikeFaults port (y.hubsHalted port)
    if (z.frame port).at_ = (y.frame port).at_ then z else z.carry (frmPg (port.val / 16) 0)

/-- IN_PACKET (R235). -/
def execInPacket (port : Fin 128) (data : List Byte) (pid : Pid) (good : Bool) (s : State) :
    Host.Outcome State Fault Refusal :=
  liveSys s fun y => (y.inPkt port data pid good).fifCarry (y.fifo port).rxNum port

end Sys2Proof.Machine
end

