-- ==== Sys2Proof/Machine/CmdMari.lean ====
section
/-! DEFINITION. The commands of the persistent store, Marigold, telemetry and the timebase, but the acceptance of a held NV write
and a write's durability
(R24, R73-R79, R524-R557). -/

namespace Sys2Proof.Machine

/-- NVS_NVj as an access of its page. -/
def doNvWrite (org : Origin) (j : Nat) (v : Word) (y : Sys) : Sys := y.viaReg org (nvPage j) (nvOff j) false (Sys.nvWrite org j v)

/-- NV_WRITE (R75, R76, R492). -/
def execNvWrite (org : Origin) (j : Fin 1024) (val : Word) (s : State) : Res :=
  liveWin (.nvWrite org j val) org s (doNvWrite org j val)

/-- MARIGOLD_UNIT_START (R524-R527, R533). -/
def execMarigoldUnitStart (s : State) : Res := liveSys s Sys.unitStart

/-- A running WEAR unit ends (R534, R536). -/
def Sys.wearEnd (j bad : Nat) (y : Sys) : Sys :=
  if y.mari.run.contains (.wear j) then (y.unitDone (.wear j)).migrated j bad else y

/-- WEAR_MIGRATION_END (R534, R536, R537). -/
def execWearMigrationEnd (j : Fin 1024) (badSpares : Fin 65) (s : State) : Res := liveSys s (Sys.wearEnd j badSpares)

/-- TEL_DUE (R539, R540, R543). -/
def execTelDue (s : State) : Res := liveSys s Sys.telDue

/-- TEL_UNIT_END (R539-R545). -/
def execTelUnitEnd (samples : List Nat) (s : State) : Res := liveSys s (Sys.telEnd samples)

/-- MNT_TLQ_CI as an access of the manager window. -/
def doTlqCi (org : Origin) (v : Word) (y : Sys) : Sys := y.viaReg org (mntPg 3) 0x50 false (Sys.tlqCi v)

/-- TLQ_CI_WRITE (R136, R545, R557). -/
def execTlqCiWrite (val : Word) (s : State) : Res := liveWin (.tlqCiWrite val) .manager s (doTlqCi .manager val)

/-- SCRUB_LINE_DUE (R527, R528). -/
def execScrubLineDue (mem : Fin 17) (s : State) : Res := liveSys s (Sys.scrubDue mem)

/-- SCRUB_UNIT_END (R528, R529, R557). -/
def execScrubUnitEnd (mem : Fin 17) (corrected multi : Fin 9) (s : State) : Res := liveSys s (Sys.scrubEnd mem corrected multi)

/-- SCRUB_PERIOD_END (R527, R528). -/
def execScrubPeriodEnd (mem : Fin 17) (s : State) : Res := liveSys s (Sys.scrubPeriod mem)

/-- CAL_PERIOD_EXPIRY (R527, R532). -/
def execCalPeriodExpiry (region : Fin 8) (s : State) : Res := liveSys s (Sys.calPeriod region)

/-- CAL_STEP_END (R533, R557). -/
def execCalStepEnd (port : Fin 128) (atEnd : Bool) (s : State) : Res := liveSys s (Sys.calEnd port atEnd)

/-- CAL_DEFER_EXPIRY (R533). -/
def execCalDeferExpiry (port : Fin 128) (s : State) : Res := liveSys s (Sys.calDefer port)

/-- FULL_CALIBRATION_END (R531). -/
def execFullCalibrationEnd (region : Fin 8) (s : State) : Res := liveSys s (Sys.fullCal region)

/-- A read of SNW_TB_MF (R15, R554): the count, and the offset of the same moment kept in SNW_TB_OFF. -/
def Sys.readTb (org : Origin) (y : Sys) : Sys :=
  let g := onePg .snw 2
  let y := y.setPg g 0x44 (Word.ofN y.us)
  { y with out := .cpl org (g.base + 0x40) (Word.ofN y.mf) :: y.out }

/-- SNW_TB_MF as an access of its page. -/
def doTbMfRead (org : Origin) (y : Sys) : Sys := y.viaReg org (onePg .snw 2) 0x40 true (Sys.readTb org)

/-- TB_MF_READ (R554). -/
def execTbMfRead (org : Origin) (s : State) : Res := liveWin (.tbMfRead org) org s (doTbMfRead org)

end Sys2Proof.Machine
end

