-- ==== Sys2Proof/Machine/CmdTen.lean ====
section
/-! DEFINITION. The Decust commands, the manager's writes to the tenancy unit, and the ends of control requests (R366-R391). -/

namespace Sys2Proof.Machine

/-- MCQ_TAKE (R369). -/
def execMcqTake (rd : DwRes) (s : State) : Res :=
  liveSys s fun y => if y.mcqTakes then (y.mcqTake rd).carry tenPg else y

/-- HELLO (R488). -/
def execHello (idx : Fin 65536) (s : State) : Res := liveSys s (Sys.decRow idx 0x01 Sys.cHello)

/-- CREATE_INSTANCE (R378). -/
def execCreateInstance (idx : Fin 65536) (s : State) : Res := liveSys s (Sys.decRow idx 0x02 Sys.cCreate)

/-- DESTROY_INSTANCE (R381). -/
def execDestroyInstance (idx : Fin 65536) (s : State) : Res := liveSys s (Sys.decRow idx 0x03 Sys.cDestroy)

/-- RESET_INSTANCE (R381). -/
def execResetInstance (idx : Fin 65536) (s : State) : Res := liveSys s (Sys.decRow idx 0x04 Sys.cReset)

/-- VIVEL_AGREE (R405). -/
def execVivelAgree (idx : Fin 65536) (s : State) : Res := liveSys s (Sys.decRow idx 0x06 Sys.cVivel)

/-- CREATE_RING (R613). -/
def execCreateRing (idx : Fin 65536) (s : State) : Res := liveSys s (Sys.decRow idx 0x08 Sys.cRing)

/-- DESTROY_RING (R613). -/
def execDestroyRing (idx : Fin 65536) (s : State) : Res := liveSys s (Sys.decRow idx 0x09 Sys.cRingOff)

/-- ASSIGN_DEVICE (R386). -/
def execAssignDevice (idx : Fin 65536) (s : State) : Res := liveSys s (Sys.decRow idx 0x0C Sys.cAssign)

/-- UNASSIGN_DEVICE (R386). -/
def execUnassignDevice (idx : Fin 65536) (s : State) : Res := liveSys s (Sys.decRow idx 0x0D Sys.cUnassign)

/-- SELECT_CONFIG (R391). -/
def execSelectConfig (idx : Fin 65536) (s : State) : Res := liveSys s (Sys.decRow idx 0x0E Sys.cSelect)

/-- OPEN_ENDPOINT (R387). -/
def execOpenEndpoint (idx : Fin 65536) (s : State) : Res := liveSys s (Sys.decRow idx 0x10 Sys.cOpen)

/-- CLOSE_ENDPOINT (R389). -/
def execCloseEndpoint (idx : Fin 65536) (s : State) : Res := liveSys s (Sys.decRow idx 0x11 Sys.cClose)

/-- UNBIND (R323). -/
def execUnbind (idx : Fin 65536) (s : State) : Res := liveSys s (Sys.decRow idx 0x13 Sys.cUnbind)

/-- SEAL (R326). -/
def execSealDevice (idx : Fin 65536) (s : State) : Res := liveSys s (Sys.decRow idx 0x14 Sys.cSeal)

/-- PORT_CMD (R377). -/
def execPortCmd (idx : Fin 65536) (s : State) : Res := liveSys s (Sys.decRow idx 0x18 Sys.cPort)

/-- SUSPEND (R377). -/
def execSuspend (idx : Fin 65536) (s : State) : Res := liveSys s (Sys.decRow idx 0x19 Sys.cSuspend)

/-- RESUME (R377). -/
def execResume (idx : Fin 65536) (s : State) : Res := liveSys s (Sys.decRow idx 0x1A Sys.cResume)

/-- DEVICE_RESET (R391). -/
def execDeviceReset (idx : Fin 65536) (s : State) : Res := liveSys s (Sys.decRow idx 0x1B Sys.cDevReset)

/-- BIND_QUEUE (R390). -/
def execBindQueue (idx : Fin 65536) (s : State) : Res := liveSys s (Sys.decRow idx 0x20 Sys.cBind)

/-- COMMIT (R376). -/
def execCommit (idx : Fin 65536) (s : State) : Res := liveSys s (Sys.decRow idx 0x22 Sys.cCommit)

/-- NORMALISE (R324). The operand `hid` has no effect: the read of the report descriptor is a request of its own, which ends by its
own command (log 59). -/
def execNormalise (idx : Fin 65536) (_hid : ReqRes) (s : State) : Res := liveSys s (Sys.decRow idx 0x12 Sys.cNormalise)

/-- LOAD_PARAMS (R339). -/
def execLoadParams (idx : Fin 65536) (rd : ReadRes) (s : State) : Res :=
  liveSys s (Sys.decRow idx 0x15 fun c => Sys.cParams c rd)

/-! ## The manager's writes -/

/-- TEN_MEQ_CI as an access of the manager window. -/
def doMeqCi (v : Word) (y : Sys) : Sys := y.viaPage .manager tenPg 0x74 false (Sys.meqAdvance v)

/-- MEQ_CI_WRITE (R371). -/
def execMeqCiWrite (val : Word) (s : State) : Res := liveWin (.meqCiWrite val) .manager s (doMeqCi val)

/-- TEN_MCQ_SIZE.EN as an access of the manager window. -/
def doMcqEn (en : Bool) (y : Sys) : Sys := y.viaPage .manager tenPg 0x58 false (Sys.mcqSetEn en)

/-- MCQ_ENABLE (R615). -/
def execMcqEnable (en : Bool) (s : State) : Res := liveWin (.mcqEnable en) .manager s (doMcqEn en)

/-- TEN_MEQ_SIZE.EN as an access of the manager window. -/
def doMeqEn (en : Bool) (y : Sys) : Sys := y.viaPage .manager tenPg 0x6C false (Sys.meqSetEn en)

/-- MEQ_ENABLE (R615). -/
def execMeqEnable (en : Bool) (s : State) : Res := liveWin (.meqEnable en) .manager s (doMeqEn en)

/-- TEN_CTL.MGR_RESTART as an access of the manager window. -/
def doMgrRestart (y : Sys) : Sys := y.viaPage .manager tenPg 0x78 false Sys.mgrRestart

/-- MGR_RESTART (R400). -/
def execMgrRestart (s : State) : Res := liveWin .mgrRestart .manager s doMgrRestart

/-! ## Control requests that firmware issued -/

/-- Whether an enumeration or a SELECT_CONFIG waits for a request at a position. -/
def Sys.ctlAsked (y : Sys) (p t : Nat) : Bool :=
  match y.enumAt p t with
  | some e => e.asks
  | none => match y.slotAt p t with
    | some n => y.host.decust.cmds.any fun c => c.wait == .request n && c.op == 0x0E
    | none => false

/-- Who issued the control request that waits at a position: an enumeration, or a SELECT_CONFIG. -/
def Sys.ctlOwn (y : Sys) (p t : Nat) : Nat := if (y.enumAt p t).isSome then 0 else 3

/-- A control request to a device ends: an enumeration's, or that of a SELECT_CONFIG (R267, R391). -/
def Sys.ctlReply (p t : Nat) (res : ReqRes) (y : Sys) : Sys :=
  match y.enumAt p t with
  | some _ => y.enumReply p t res
  | none => y.selectReply p t (match res with | .ok _ => true | _ => false)

/-- ENUM_REQUEST_COMPLETE (R267-R271). -/
def execEnumRequestComplete (port : Fin 128) (tier : Word) (res : ReqRes) (s : State) : Res :=
  liveSys s fun y => if y.linkWorks port && y.ctlAsked port tier.toNat && !y.reqWaits (y.ctlOwn port tier.toNat) port tier.toNat then
      (y.reqOver (y.ctlOwn port tier.toNat) port tier.toNat).ctlReply port tier.toNat res
    else y

/-- ENUM_REQUEST_TIMEOUT (R267, R271): counted as a failure. It runs from the issue of the request on, also while the region is STOPPED
(R32); a request that still waits for its result entry has not been issued (R440). -/
def execEnumRequestTimeout (port : Fin 128) (tier : Word) (s : State) : Res :=
  liveSys s fun y =>
    let t := tier.toNat
    if !y.linkWorks port then y
    else if y.hubStepAt port t then (if y.reqQueued 1 port t then y else (y.reqOver 1 port t).hubReqEnd port t .failed)
    else if y.ctlAsked port t && !y.reqQueued (y.ctlOwn port t) port t then
      (y.reqOver (y.ctlOwn port t) port t).ctlReply port t .failed
    else y

/-- PERSONALITY_REQUEST_COMPLETE (R325). -/
def execPersonalityRequestComplete (slot : Fin 8193) (res : ReqRes) (s : State) : Res :=
  liveSys s fun y =>
    let d := y.slot slot
    if y.on 17 && !d.pers.req.isEmpty && !y.reqWaits 2 d.port d.tier then (y.reqOver 2 d.port d.tier).persReply slot res else y

end Sys2Proof.Machine
end

