-- ==== Sys2Proof/Machine/CmdPorts.lean ====
section
/-! DEFINITION. The commands of the root ports but those of enumeration requests (R245-R287). -/

namespace Sys2Proof.Machine

/-- PRG_PORT_CMD as an access of the manager window. -/
def doPortCmd (p cmd : Nat) (y : Sys) : Sys := y.viaPage .manager (lnkPg p) 0x48 false (Sys.portCmd p cmd)

/-- POWER_ON (R246). -/
def execPowerOn (port : Fin 128) (s : State) : Res := liveWin (.powerOn port) .manager s (doPortCmd port 1)

/-- POWER_OFF (R246). -/
def execPowerOff (port : Fin 128) (s : State) : Res := liveWin (.powerOff port) .manager s (doPortCmd port 2)

/-- RESET (R275). -/
def execResetCmd (port : Fin 128) (s : State) : Res := liveWin (.resetCmd port) .manager s (doPortCmd port 3)

/-- DISABLE (R246). -/
def execDisableCmd (port : Fin 128) (s : State) : Res := liveWin (.disableCmd port) .manager s (doPortCmd port 4)

/-- The region's next VBUSEN rises, or its spacing ends (R261). -/
def Sys.vbusStep (n : Nat) (y : Sys) : Sys :=
  (y.updPower fun w => { w with stag5Run := FMap.put false n false w.stag5Run }).vbusKick n

/-- VBUS_STAGGER_STEP (R261). -/
def execVbusStaggerStep (region : Fin 8) (s : State) : Res :=
  liveSys s fun y => if y.on region then y.vbusStep region else y

/-- The chip's next HPWREN rises, or its spacing ends (R261). -/
def Sys.hpwrStep (y : Sys) : Sys := (y.updPower fun w => { w with stagHRun := false }).hpwrKick

/-- HPWR_STAGGER_STEP (R261). -/
def execHpwrStaggerStep (s : State) : Res := liveSys s Sys.hpwrStep

/-- POWER_GOOD_WAIT_END (R261). -/
def execPowerGoodWaitEnd (port : Fin 128) (s : State) : Res :=
  liveSys s fun y => if (y.port port).vbus then y.updPort port fun q => { q with pg := true } else y

/-- A line event of port `p` while its PHYn is not ON: kept, and told through the wake latch (R508, R516). -/
def Sys.lineDoze (p code : Nat) (y : Sys) : Sys :=
  if y.dozes (8 + p / 16) then (y.updPort p fun q => { q with linePend := code }).latchSet (p / 16) (latchTo (p / 16)) else y

/-- CONNECT (R262). -/
def execConnect (port : Fin 128) (speed : Speed) (s : State) : Res :=
  liveSys s fun y =>
    if y.linkWorks port then y.portConnect port speed
    else if (y.port port).conn || speed == .none then y
    else y.lineDoze port (1 + Speed.code speed)

/-- DEBOUNCE_END (R262, R264). -/
def execDebounceEnd (port : Fin 128) (s : State) : Res :=
  liveSys s fun y => if y.linkWorks port then y.portEvent port 5 (Sys.debounced port) else y

/-- DISCONNECT (R263). -/
def execDisconnect (port : Fin 128) (s : State) : Res :=
  liveSys s fun y =>
    if y.linkWorks port then y.portEvent port 2 (Sys.portDisconnect port)
    else if (y.port port).conn || (y.port port).linePend != 0 then y.lineDoze port 1
    else y

/-- A place goes to the device that is next; on a root port that changes the port's state (R246, R247). -/
def Sys.placeTo (e : Enum) (y : Sys) : Sys :=
  if e.tier = 0 then y.portEvent e.port 5 (Sys.enumBegin e) else y.enumBegin e

/-- ENUM_START (R264, R265, R272). -/
def execEnumStart (s : State) : Res :=
  liveSys s fun y => match y.nextStart with | some e => y.placeTo e | none => y

/-- RESET_SIGNAL_END (R267, R273). -/
def execResetSignalEnd (port : Fin 128) (chirp : Bool) (s : State) : Res :=
  liveSys s fun y => if y.linkWorks port then y.resetSignal port chirp else y

/-- RESET_RECOVERY_END (R246, R273). -/
def execResetRecoveryEnd (port : Fin 128) (connected : Bool) (s : State) : Res :=
  liveSys s fun y =>
    if y.linkWorks port then y.portEvent port (if connected then 5 else 2) (Sys.resetRecovery port connected) else y

/-- SLOT_GRANT (R268). -/
def execSlotGrant (s : State) : Res := liveSys s Sys.slotGrant

/-- SET_ADDRESS's recovery ends (R267): step 5 begins. -/
def Sys.addrRecovered (p t : Nat) (y : Sys) : Sys :=
  match y.enumAt p t with
  | some e => if e.st == .running && e.step == 4 && e.sub == 1 then y.enumStep p t 5 0 else y
  | none => y

/-- SET_ADDRESS_RECOVERY_END (R267). -/
def execSetAddressRecoveryEnd (port : Fin 128) (tier : Word) (s : State) : Res :=
  liveSys s (Sys.addrRecovered port tier.toNat)

/-- Whether the port power controller of a port's region works (R250, R251). -/
def Sys.pwrWorks (y : Sys) (p : Nat) : Bool :=
  y.regionWorks (p / 16) && !y.halted (pwrPg (p / 16)) && !y.inReset (pwrPg (p / 16))

/-- PORT_MEASUREMENT (R251, R277). -/
def execPortMeasurement (port : Fin 128) (c5 ch : Fin 1024) (s : State) : Res :=
  liveSys s fun y => if y.pwrWorks port && (y.pwrCtl port).bit 20 then (y.portEvent port 0 (Sys.measure port c5 ch)).carry (pwrPg (port.val / 16)) else y

/-- OC_HARD_TRIP (R277, R278). -/
def execOcHardTrip (port : Fin 128) (s : State) : Res :=
  liveSys s fun y =>
    let n := port.val / 16
    if y.pwrWorks port then y.portEvent port 0 (Sys.hardTrip port)
    else if y.dozes n then (y.updPort port fun q => { q with ocPend := true }).latchSet (8 + n) (latchTo (8 + n))
    else y

/-- OC_RETRY_EXPIRY (R278): the root port's retry, or the hub port's of its tree that is due first (R296). -/
def execOcRetryExpiry (port : Fin 128) (s : State) : Res :=
  liveSys s fun y =>
    if (y.port port).st == .ocWait then y.portEvent port 5 (Sys.ocRetry port)
    else match y.hubRetryNext port with | some k => y.hubRetry k | none => y

/-- OC_RETRY_CLEAR (R278). -/
def execOcRetryClear (port : Fin 128) (s : State) : Res :=
  liveSys s fun y => if (y.port port).vbus then y.updPort port fun q => { q with retry := 0 } else y

/-- PRG_PORT_TEST as an access of the manager window. -/
def doPortTest (p sel : Nat) (y : Sys) : Sys := y.viaPage .manager (lnkPg p) 0x4C false (Sys.testCmd p sel)

/-- TEST_MODE_SELECT (R280, R281). -/
def execTestModeSelect (port : Fin 128) (sel : Fin 8) (s : State) : Res :=
  liveWin (.testModeSelect port sel) .manager s (doPortTest port sel)

/-- TEST_MODE_CLEAR (R281). -/
def execTestModeClear (port : Fin 128) (s : State) : Res :=
  liveWin (.testModeClear port) .manager s (doPortTest port 0)

/-- TEST_CLEAR_END (R281). -/
def execTestClearEnd (port : Fin 128) (s : State) : Res := liveSys s fun y => y.portEvent port 5 (Sys.testEnd port)

end Sys2Proof.Machine
end

