-- ==== Sys2Proof/Machine/CmdTree.lean ====
section
/-! DEFINITION. The commands that end transactions, and those of hub handling, suspend and resume (R144, R288-R321). -/

namespace Sys2Proof.Machine

/-- A transaction ends (R144); three strikes on a hub's status-change endpoint, on the wire or at its TT, are a tree fault; packet
babble and a STALL are none (R316). -/
def Sys.transEnd (p : Nat) (out : Sys2Proof.Outcome) (x : Nat) (y : Sys) : Sys :=
  let spared := match (y.frame p).cur with
    | some c => if c.babble || out == Sys2Proof.Outcome.stall then (y.xfer? c.xid).map fun (x : Xfer) => (x.slot, x.epid) else none
    | none => none
  (y.wireEnd p out x).strikeFaults p ((y.hubsHalted p) ++ spared.toList)

/-- TRANSACTION_END (R144). -/
def execTransactionEnd (port : Fin 128) (out : Outcome) (x : Nat) (s : State) : Res :=
  liveSys s fun y =>
    if y.linkWorks port then
      (if (y.frame port).cur.isSome then (y.transEnd port out x).carry (lnkPg port) else y.transEnd port out x)
    else y

/-- BUS_BABBLE (R316). -/
def execBusBabble (port : Fin 128) (s : State) : Res :=
  liveSys s fun y => if y.linkWorks port && (y.port port).st == .enabled then y.portEvent port 5 (Sys.treeFault port 0) else y

/-- HUB_REQUEST_COMPLETE (R292). -/
def execHubRequestComplete (port : Fin 128) (tier : Word) (res : ReqRes) (s : State) : Res :=
  liveSys s fun y =>
    let t := tier.toNat
    match y.slotAt port t with
    | some h => if (y.slot h).hubRec.reqs.isEmpty || y.reqWaits 1 port t then y else (y.reqOver 1 port t).hubReqEnd port t res
    | none => y

/-- HUB_POWER_GOOD_END (R292). -/
def execHubPowerGoodEnd (port : Fin 128) (tier : Word) (s : State) : Res :=
  liveSys s (Sys.hubReady port tier.toNat)

/-- HUB_STATUS_CHANGE (R295, R296, R312, R316). -/
def execHubStatusChange (port : Fin 128) (tier : Word) (hubPort : Fin 32) (chg : HubChange) (s : State) : Res :=
  liveSys s (Sys.hubChange port tier.toNat hubPort chg)

/-- HUB_PORT_DEBOUNCE_END (R295). -/
def execHubPortDebounceEnd (port : Fin 128) (tier : Word) (connected : Bool) (s : State) : Res :=
  liveSys s (Sys.hubDebounced port tier.toNat connected)

/-- HUB_RESET_TIMEOUT (R295). -/
def execHubResetTimeout (port : Fin 128) (tier : Word) (s : State) : Res :=
  liveSys s (Sys.hubResetAt port tier.toNat 0 fun _ => Sys.requestFail port tier.toNat 1)

/-- HUB_RESET_RECOVERY_END (R295). -/
def execHubResetRecoveryEnd (port : Fin 128) (tier : Word) (s : State) : Res :=
  liveSys s (Sys.hubResetAt port tier.toNat 1 fun e => Sys.afterReset port tier.toNat e.speed)

/-- A request of PRG_PORT_SUSP (R314, R319): outside ENABLED and SUSPENDED it is ignored with CFG, and counted. -/
def Sys.suspWrite (p : Nat) (res rw : Bool) (y : Sys) : Sys :=
  match (y.port p).st with
  | .enabled | .suspended => y.suspReq p 0 res rw
  | _ => ((y.updPort p fun q => { q with rwEn := rw }).incFld (lnkPg p) 0x58 23 16).cfgErr (lnkPg p)

/-- PRG_PORT_SUSP as an access of the manager window. -/
def doPortSusp (p : Nat) (res rw : Bool) (y : Sys) : Sys :=
  y.viaPage .manager (lnkPg p) 0x58 false (Sys.suspWrite p res rw)

/-- PORT_SUSPEND_REQ (R310). -/
def execPortSuspendReq (port : Fin 128) (rwakeEn : Bool) (s : State) : Res :=
  liveWin (.portSuspendReq port rwakeEn) .manager s (doPortSusp port false rwakeEn)

/-- PORT_RESUME_REQ (R311). -/
def execPortResumeReq (port : Fin 128) (rwakeEn : Bool) (s : State) : Res :=
  liveWin (.portResumeReq port rwakeEn) .manager s (doPortSusp port true rwakeEn)

/-- SUSPEND_ENTRY_END (R310). -/
def execSuspendEntryEnd (port : Fin 128) (tier : Word) (s : State) : Res :=
  liveSys s (Sys.suspendEntry port tier.toNat)

/-- The K of a resume ends with a low-speed EOP, and SOF restarts (R311). -/
def Sys.resumeSignal (p : Nat) (y : Sys) : Sys :=
  if (y.port p).susp == .resuming && !(y.frame p).sof then
    ((y.rwakeOut p).updFrame p fun f => { f with sof := true }).emit (.bus p .lsEop)
  else y

/-- RESUME_SIGNAL_END (R311). -/
def execResumeSignalEnd (port : Fin 128) (s : State) : Res :=
  liveSys s fun y => if y.linkWorks port then y.resumeSignal port else y

/-- RESUME_RECOVERY_END (R311). -/
def execResumeRecoveryEnd (port : Fin 128) (tier : Word) (s : State) : Res :=
  liveSys s fun y => if y.linkWorks port then y.recoveryEnd port tier.toNat else y

/-- A hub port whose resume has not been reported in time is reset (R311, R316). -/
def Sys.resumeLate (p t : Nat) (y : Sys) : Sys :=
  match y.hubPortAt p t with
  | some (_, _, h) => if h.susp == .resuming && !h.told then y.treeFault p t else y
  | none => y

/-- HUB_RESUME_TIMEOUT (R311). -/
def execHubResumeTimeout (port : Fin 128) (tier : Word) (s : State) : Res :=
  liveSys s (Sys.resumeLate port tier.toNat)

/-- A remote wake, also while the link cell is in RETENTION: there it sets the wake latch that brings PHYn and PRGn ON, and
is handled when they are (R312, R315). -/
def Sys.wakeSeen (p t : Nat) (y : Sys) : Sys :=
  if y.linkWorks p then y.remoteWake p t (y.mf, y.us)
  else if y.dozes (8 + p / 16) && (y.port p).susp == .suspended && (y.port p).wakePend == 0 then
    (y.updPort p fun q => { q with wakePend := t + 1, wakeMf := y.mf, wakeUs := y.us }).latchSet (p / 16) (latchTo (p / 16))
  else y

/-- REMOTE_WAKE (R312). -/
def execRemoteWake (port : Fin 128) (tier : Word) (s : State) : Res := liveSys s (Sys.wakeSeen port tier.toNat)

end Sys2Proof.Machine
end

