-- ==== Sys2Proof/Machine/Views.lean ====
section
/-! DEFINITION. What registers read: the common header (R57-R69), and the fields that show state kept elsewhere, page by
page. A register with no entry here is plain storage. -/

namespace Sys2Proof.Machine

/-- A field value, cut to its width, at its place. -/
def fldAt (lo width v : Nat) : Nat := (v % 2 ^ width) * 2 ^ lo

/-- A truth value as bit `n`. -/
def bitAt (n : Nat) (b : Bool) : Nat := if b then 2 ^ n else 0

/-- Bits set where a test holds, from bit 0 up. -/
def bitsOf (n : Nat) (f : Nat → Bool) : Nat := (List.range n).foldl (fun a i => a + bitAt i (f i)) 0

/-! ## Header -/

/-- BLK_CAP.SPEC (R218, R243, R556). -/
def Pg.capSpec (g : Pg) : Nat :=
  match g.blk with
  | .fif => 1024 + 64 * 65536
  | .hdma => 32 + 256
  | .rdma => 8
  | .mon => if g.page == 0 && Config.commercial then 1 else 0
  | _ => 0

/-- PWR_VIEW (R69). -/
def Sys.pwrView (y : Sys) (g : Pg) : Word :=
  let t := if g.dom = 63 then none else (y.dom g.dom).target
  Word.ofN (g.dom + fldAt 8 2 (y.domCode g.dom) +
    (match t with | some (s, _) => fldAt 12 2 s.code + 16384 | none => 0))

/-- A register of the common header (R57-R69). -/
def Sys.viewHdr (y : Sys) (g : Pg) (o : Nat) : Word :=
  if o = 0 then g.blkId
  else if o = 4 then 0x100
  else if o = 8 then Word.ofN (g.capSpec + fldAt 24 4 g.blk.npages + bitAt 31 g.stagedPage)
  else if o = 0xC then
    Word.ofN (bitAt 0 (y.halted g) + bitAt 1 (y.quar g.region) + bitAt 2 (y.stagedPend g) + bitAt 3 (y.commitPend g))
  else if o = 0x30 then y.pwrView g
  else if o = 0x18 ∨ o = 0x1C ∨ o = 0x20 ∨ o = 0x24 ∨ o = 0x28 ∨ o = 0x2C then y.pgReg g o
  else 0

/-! ## Host region -/

/-- Whether a block has a forwarded cause (R562). -/
def Sys.blkErr (y : Sys) (g : Pg) : Bool := g.blockPages.any y.pgErr

/-- The lowest instance whose TMB page has a forwarded cause. -/
def Sys.tmbErr (y : Sys) : Option Nat :=
  (y.regs.find? fun e => decide (0x1000000 ≤ e.1) && e.1 % 0x1000 == 0x18 && y.unmasked e.1 e.2).map fun e =>
    (e.1 - 0x1000000) / 0x1000

/-- HST endpoint page (R574). -/
def Sys.viewHst (y : Sys) (o : Nat) : Option Word :=
  if o = 0x40 then some (Word.ofN y.errSum)
  else if o = 0x44 then
    some (Word.ofN (bitAt 0 (y.blkErr (onePg .hst 0)) + bitAt 1 (y.blkErr (onePg .imu 0)) + bitAt 2 (y.blkErr (onePg .hdma 0)) +
      bitAt 3 (y.blkErr (onePg .rng 0)) + bitAt 4 (y.blkErr (onePg .ten 0)) + bitAt 5 (y.blkErr (onePg .ldr 0)) +
      bitAt 6 y.tmbErr.isSome + bitAt 8 (y.blkErr (onePg .wsc 0)) + bitAt 9 (y.blkErr (onePg .cic 0)) +
      bitAt 10 (y.blkErr (onePg .mbx 0)) + bitAt 11 ((List.range 16).any fun c => y.pgErr (corePg c)) +
      bitAt 16 (y.blkErr (onePg .snw 0)) + bitAt 17 (y.blkErr (onePg .nvs 0)) + bitAt 18 (y.blkErr (onePg .mon 0)) +
      bitAt 19 (y.blkErr (onePg .mnt 0))))
  else if o = 0x48 then some (match y.tmbErr with | some i => Word.ofN (i + 2147483648) | none => 0)
  else none

/-- Whether an output that waits is a message (R410). -/
def Out.isMsg : Out → Bool
  | .msg .. | .msix _ => true
  | _ => false

/-- Interrupt message unit (R410). -/
def Sys.viewImu (y : Sys) (o : Nat) : Option Word :=
  let sel := y.pgReg (onePg .imu 0) 0x48
  let n := y.inst (sel.fld 11 0)
  let m := FMap.get {} (sel.fld 17 16) n.msgs
  if o = 0x40 then
    some (Word.ofN (min 256 (((y.heldOut ++ y.heldPasid).filter Out.isMsg).length + y.host.msgWait.length) +
      bitAt 16 (y.host.msixPend.any fun e => e.2)))
  else if o = 0x4C then
    some (if n.st == .free then 1
      else Word.ofN (bitAt 0 m.mask + bitAt 1 m.pend + bitAt 2 (m.lo != 0 || m.hi != 0) + fldAt 16 16 m.sent))
  else none

/-- DMA channel states (R218). -/
def ChSt.code : ChSt → Nat
  | .idle => 0 | .active => 1 | .preempted => 2 | .retry => 3 | .halted => 4 | .waitDcq => 5

/-- Whether a channel has a burst or a transfer. -/
def Chan2.busy (k : Chan2) : Bool := k.st != .idle

/-- A register of channel `c` of engine `e` at relative offset `r` (R218). -/
def Sys.viewChan (y : Sys) (e c r : Nat) : Option Word :=
  let k := y.chan e c
  let fw := e == 0 && decide (24 ≤ c)
  let stored := y.pgReg (dmaPg e c) (0x40 + 0x40 * (c % 8))
  if r = 0 then
    if fw then some ((stored &&& 0xFF43#32) ||| Word.ofN (bitAt 4 false + bitAt 5 (k.busy && k.st != .halted)))
    else if e = 0 then some ((stored &&& 3#32) ||| Word.ofN (bitAt 6 (k.busy && k.toHost)))
    else some (Word.ofN (if k.busy then fldAt 0 2 k.prio + bitAt 6 k.toHost else 0))
  else if r = 4 then
    some (Word.ofN (k.st.code + (if e = 0 then 0 else fldAt 4 3 k.kind) + bitAt 7 k.aged + fldAt 8 3 k.retries +
      (if e = 0 then 0 else fldAt 16 4 (k.port % 16)) + bitAt 20 k.toHost))
  else if fw && decide (r < 0x18) then none
  else if r = 8 then some (if k.busy then Word.ofN k.addr else 0)
  else if r = 0xC then some (if k.busy then Word.ofN (k.addr / 4294967296) else 0)
  else if r = 0x10 then some (if k.busy then Word.ofN (fldAt 0 28 k.laddr) else 0)
  else if r = 0x14 then some (if k.busy then Word.ofN k.len else 0)
  else if r = 0x18 then some (if k.busy then Word.ofN (fldAt 0 24 k.bytes) else 0)
  else if r = 0x1C then some k.err
  else none

/-- Host DMA and region DMA pages (R217, R218): engine `e`, page `p`. -/
def Sys.viewDma (y : Sys) (e p o : Nat) : Option Word :=
  let c := 8 * p + (o - 0x40) / 0x40
  if 0x40 ≤ o ∧ o < 0x240 then y.viewChan e c (o % 0x40)
  else if o = 0x240 ∧ p = 0 then
    some ((y.pgReg (dmaMain e) 0x240 &&& 0x1F#32) ||| Word.ofN (fldAt 8 3 y.pins.mps + fldAt 12 3 y.pins.mrrs))
  else if o = 0x248 ∧ p = 0 then
    some ((y.pgReg (dmaMain e) 0x248 &&& 0xFFFF#32) ||| Word.ofN (65536 * bitsOf 8 fun j => (y.chan e j).st == .halted))
  else none

/-- Holding slots that no instance has of the shared ones (R124). -/
def Sys.sharedFree (y : Sys) : Nat := 2048 - y.host.insts.foldl (fun a e => a + e.2.sharedUsed) 0

/-- Ring unit pages (R138). -/
def Sys.viewRng (y : Sys) (p o : Nat) : Option Word :=
  let sel := y.pgReg (onePg .rng 2) 0x40
  let k := ringKey (sel.fld 27 16) (sel.fld 4 0)
  let r := y.ring k
  if p = 0 ∧ o = 0x48 then
    some (Word.ofN (bitAt 0 ((y.pgReg (onePg .rng 0) 0x48).bit 0 && !y.pins.compat) + bitAt 1 y.pins.compat))
  else if p = 0 ∧ o = 0x4C then some (Word.ofN y.sharedFree)
  else if p = 2 ∧ o = 0x44 then
    some (if r.st == .none then 0
      else Word.ofN (r.st.code + fldAt 4 15 (if sel.fld 4 0 < 16 then r.head else r.wpos) + bitAt 19 (y.host.cache.contains k)))
  else if p = 2 ∧ o = 0x48 then some (Word.ofN (bitAt 0 r.viewDis))
  else none

/-- Instance states (R363). -/
def InstSt.code : InstSt → Nat
  | .free => 0 | .created => 1 | .running => 2 | .resetting => 3 | .destroying => 4

/-- Tenancy unit pages (R81, R412, R413). -/
def Sys.viewTen (y : Sys) (p o : Nat) : Option Word :=
  let i := (y.pgReg (onePg .ten 1) 0x40).fld 11 0
  let n := y.inst i
  if p = 0 then
    if o = 0x44 then some (Word.ofN (y.host.commitGen + bitAt 16 y.host.commitBusy))
    else if o = 0x48 then some (Word.ofN y.host.commitMf)
    else if o = 0x78 then
      some (Word.ofN (bitAt 0 y.host.decust.restart + fldAt 8 8 y.host.decust.min + fldAt 16 8 y.host.decust.maj))
    else if o = 0x7C then
      some ((y.pgReg tenPg 0x7C &&& 0xFFFF#32) ||| Word.ofN (fldAt 16 9 y.host.decust.events.length))
    else if o = 0x80 then
      some ((y.pgReg tenPg 0x80 &&& 0xFFFF0000#32) |||
        Word.ofN (fldAt 0 13 (y.host.insts.filter fun e => e.2.st != .free).length))
    else none
  else if p = 1 then
    if o = 0x44 then
      some (Word.ofN (n.st.code + bitAt 3 n.pool + fldAt 8 4 n.cls + fldAt 12 5 n.maxSub + fldAt 17 3 n.maxCmp +
        fldAt 20 4 n.vivMaj + fldAt 24 4 n.vivMin))
    else if o = 0x48 then some (Word.ofN (fldAt 0 20 n.pasid))
    else if o = 0x4C then
      some (Word.ofN (fldAt 0 14 (y.slotsOfInst i).length +
        fldAt 16 5 ((List.range 21).filter fun r => (y.ring (ringKey i r)).st != .none).length))
    else none
  else none

/-- LDR page 0 (R495). -/
def Sys.viewLdr (y : Sys) (o : Nat) : Option Word :=
  let l := y.ldr
  if o = 0x44 then
    some (Word.ofN (l.phase.code + fldAt 8 8 l.result + bitAt 16 (l.phase == .ready) + bitAt 17 y.pins.compat +
      bitAt 18 (hashSet y.nv.ownerHash) + bitAt 19 l.ownerChecked + bitAt 20 y.ldrMbx + bitAt 21 l.ownerLock +
      fldAt 24 8 l.fwCode))
  else if o = 0x4C then some l.image
  else if o = 0x50 then some l.build
  else if o = 0x54 then some (Word.ofN (fldAt 0 8 l.verifyMs + fldAt 16 16 l.startMs))
  else none

/-! ## Port regions -/

/-- Region control page (R575). -/
def Sys.viewPrg (y : Sys) (n o : Nat) : Option Word :=
  if o = 0x40 then
    some (Word.ofN (bitAt 0 (y.pgErr ⟨.prg, n, 0⟩) + bitAt 1 (y.pgErr (pwrPg n)) + bitAt 2 (y.blkErr (frmPg n 0)) +
      bitAt 3 (y.pgErr ⟨.rdma, n, 0⟩)))
  else if o = 0x44 then
    some (Word.ofN (bitsOf 16 (fun k => y.pgErr (lnkPg (16 * n + k))) +
      65536 * bitsOf 16 fun k => y.pgErr (fifPg (16 * n + k))))
  else none

/-- Port power controller page (R287). -/
def Sys.viewPwr (y : Sys) (n o : Nat) : Option Word :=
  let rail := fun (r : Nat) => some (Word.ofN (fldAt 0 20 (y.railUse r) + fldAt 20 8 (min 255 (y.pendList r).length)))
  if o = 0x48 then some (Word.ofN (fldAt 0 20 (y.regionUse n)))
  else if o = 0x4C then rail 0
  else if o = 0x50 then rail 1
  else if o = 0x54 then rail 2
  else if o = 0x58 then some (Word.ofN (fldAt 0 24 y.storeUse))
  else if 0x80 ≤ o ∧ o < 0xC0 then
    let p := 16 * n + (o - 0x80) / 4
    let q := y.port p
    let oc := match q.st with | .ocWait => 1 | .ocLatched => 2 | _ => 0
    some (Word.ofN (fldAt 0 8 (q.res5 / 10) + fldAt 8 8 (q.resH / 50) + fldAt 16 2 (profRail q.prof) + bitAt 18 q.vbus +
      bitAt 19 q.hpwr + bitAt 20 (y.pending p [0]) + bitAt 21 (y.pending p [1, 2]) + fldAt 22 2 oc +
      fldAt 24 4 (min 15 q.retry)))
  else if 0xC0 ≤ o ∧ o < 0x100 then
    let q := y.port (16 * n + (o - 0xC0) / 4)
    some (Word.ofN (fldAt 0 16 q.i5 + fldAt 16 16 q.ih))
  else none

/-- Suspend states (R319). -/
def SuspSt.code : SuspSt → Nat
  | .active => 0 | .suspending => 1 | .suspended => 2 | .resuming => 3

/-- Link-cell page of port `p` (R285, R319). -/
def Sys.viewLnk (y : Sys) (p o : Nat) : Option Word :=
  let q := y.port p
  let ss := y.eng.slots.filter fun e => e.2.used && e.2.port == p
  if o = 0x40 then
    some (Word.ofN (q.st.code + fldAt 4 2 (Speed.code q.speed) + bitAt 6 q.conn + bitAt 7 (y.pending p [0, 1, 2]) +
      fldAt 16 14 q.slot))
  else if o = 0x4C then some (Word.ofN (fldAt 0 3 q.test))
  else if o = 0x50 then
    some (Word.ofN (fldAt 0 4 q.step + fldAt 4 2 q.attempt + bitAt 6 q.slotWait + fldAt 8 4 q.cause + fldAt 16 7 q.addr +
      fldAt 24 8 q.config))
  else if o = 0x58 then
    some ((y.pgReg (lnkPg p) 0x58 &&& 0xFF0000#32) |||
      Word.ofN (bitAt 2 q.rwEn + fldAt 4 2 q.susp.code + fldAt 6 2 q.hold + bitAt 8 q.rwSeen))
  else if o = 0x5C then
    some ((y.pgReg (lnkPg p) 0x5C &&& 0xFF000000#32) |||
      Word.ofN (fldAt 0 7 (ss.filter fun e => e.2.addr != 0).length +
        fldAt 8 7 (ss.filter fun e => e.2.isHub && e.2.config != 0).length +
        fldAt 16 3 (ss.foldl (fun a e => max a (tierDepth e.2.tier)) 0)))
  else none

/-- Frame engine pages (R158, R161, R185). -/
def Sys.viewFrm (y : Sys) (n p o : Nat) : Option Word :=
  let tab := fun (w : Word) => let t := y.ptab (16 * n + w.fld 3 0); if w.bit 4 then t.sh else t.act
  if p ≠ 0 then none
  else if o = 0x44 then
    let r := y.pace n
    some (Word.ofN (fldAt 0 8 r.pace + fldAt 8 8 r.eff + fldAt 16 2 r.st.code))
  else if 0x4C ≤ o ∧ o < 0x5C then
    let w := y.pgReg (frmPg n 0) 0x48
    some (match (tab w).find? fun e => e.1 == w.fld 17 8 with | some e => e.2.dw ((o - 0x4C) / 4) | none => 0)
  else if o = 0x60 then
    let w := y.pgReg (frmPg n 0) 0x5C
    some (Word.ofN (fldAt 0 16 (rowLoad (tab w) (w.fld 15 8)) + fldAt 16 16 (perCap (y.port (16 * n + w.fld 3 0)).speed)))
  else if o = 0x68 then
    some (Word.ofN (fldAt 0 13 (y.regionEntries n (·.act)) + fldAt 16 13 (y.regionEntries n (·.sh))))
  else if 0x80 ≤ o ∧ o < 0xC0 then
    some ((y.pgReg (frmPg n 0) o &&& 7#32) ||| Word.ofN (fldAt 4 2 (Speed.code (y.port (16 * n + (o - 0x80) / 4)).speed)))
  else if 0xC0 ≤ o ∧ o < 0x100 then
    let f := y.frame (16 * n + (o - 0xC0) / 4)
    some (Word.ofN (fldAt 0 16 f.lastEnd + fldAt 16 16 f.lastPer))
  else none

/-- TX packet states (R227). -/
def TxSt.code : TxSt → Nat
  | .filling => 0 | .ready => 1 | .sending => 2 | .done => 3 | .dropped => 4

/-- RX packet states (R244). -/
def RxSt.code : RxSt → Nat
  | .committed => 0 | .draining => 1 | .done => 3

/-- FIFO page of port `p` (R244). -/
def Sys.viewFif (y : Sys) (p o : Nat) : Option Word :=
  let f := y.fifo p
  let w := y.pgReg (fifPg p) 0x64
  let tx := f.tx.find? fun t => t.num % 64 == w.fld 13 8
  let rx := f.rx.find? fun t => t.num % 64 == w.fld 13 8
  if o = 0x4C then some (Word.ofN (fldAt 0 11 f.txOcc + fldAt 16 7 f.tx.length + bitAt 24 f.gate))
  else if o = 0x50 then some (Word.ofN (fldAt 0 11 f.rxOcc + fldAt 16 7 f.rx.length + bitAt 24 f.urgent))
  else if o = 0x54 then some (Word.ofN (fldAt 0 11 f.txWp + fldAt 16 11 f.txRlp))
  else if o = 0x58 then some (Word.ofN (fldAt 0 11 f.rxWp + fldAt 16 11 f.rxRlp))
  else if o = 0x68 then
    some (if w.bit 0 then
        (match rx with
         | some t => Word.ofN (fldAt 0 10 t.start + fldAt 16 11 t.data.length + bitAt 27 t.poison + fldAt 28 3 t.st.code +
             2147483648)
         | none => 0)
      else
        (match tx with
         | some t => Word.ofN (fldAt 0 10 t.start + fldAt 16 11 t.len + bitAt 27 t.poison + fldAt 28 3 t.st.code + 2147483648)
         | none => 0))
  else if o = 0x6C then
    some (if w.bit 0 then
        (match rx with | some t => Word.ofN (fldAt 0 4 t.pid + fldAt 27 5 t.epid) | none => 0)
      else
        (match tx with
         | some t => Word.ofN (fldAt 0 11 t.stuff0 + fldAt 16 11 t.stuff1 + fldAt 27 5 t.epid)
         | none => 0))
  else if o = 0x70 then
    some (Word.ofN (if w.bit 0 then (rx.map (·.slot)).getD 0 else (tx.map (·.slot)).getD 0))
  else none

/-! ## Engine region -/

/-- Endpoint contexts cached: those of the open endpoints of cached devices (R421). -/
def Sys.epCached (y : Sys) : Nat :=
  y.eng.dcx.foldl (fun a n => a + ((y.slot n).eps.filter fun e => e.2.open_).length) 0

/-- WSC pages (R466). -/
def Sys.viewWsc (y : Sys) (p o : Nat) : Option Word :=
  let h := y.eng.holly
  if p = 1 then
    if 0x40 ≤ o ∧ o < 0x80 then
      some (Word.ofN (fldAt 0 13 ((h.items ++ h.ovf).filter fun i => i.prio == (o - 0x40) / 4).length))
    else none
  else if p ≠ 0 then none
  else if o = 0x44 then some (Word.ofN (fldAt 0 13 y.allItems.length + fldAt 16 13 h.ovf.length))
  else if o = 0x48 then
    some (Word.ofN (fldAt 0 13 y.activeFlows.length + fldAt 16 13 ((h.ovf.map (·.flow)).dedup).length))
  else if 0x50 ≤ o ∧ o < 0x70 then
    some ((y.pgReg wscPg o &&& 0xFFF#32) ||| Word.ofN (fldAt 16 12 (y.dUsed ((o - 0x50) / 4))))
  else if 0x70 ≤ o ∧ o < 0x80 then
    some ((y.pgReg wscPg o &&& 0x7FF#32) |||
      Word.ofN (fldAt 16 14 (h.delayed.filter fun d => d.list == (o - 0x70) / 4).length))
  else if o = 0x80 then some ((y.pgReg wscPg 0x80 &&& 0xFFFF0000#32) ||| Word.ofN (fldAt 0 14 y.dlyUsed))
  else if o = 0x84 then some (Word.ofN (fldAt 0 12 y.eng.dcx.length + fldAt 16 15 y.epCached))
  else none

/-- Core states (R423). -/
def CoreSt.code : CoreSt → Nat
  | .off => 0 | .starting => 1 | .idle => 2 | .running => 3 | .draining => 4 | .resetting => 5 | .halted => 6

/-- Core page (R467). -/
def Sys.viewCore (y : Sys) (c o : Nat) : Option Word :=
  let k := y.core c
  if o = 0x40 then some (y.pgReg (corePg c) 0x40 &&& 0xE#32)
  else if o = 0x44 then
    some (Word.ofN (k.st.code + bitAt 3 k.nsrc.isSome + bitAt 4 k.fsrc.isSome + fldAt 5 2 k.held.length +
      fldAt 8 6 (32 - k.outUsed) + fldAt 16 5 k.wprio + fldAt 24 3 k.cause))
  else if o = 0x48 then
    some (match k.cur with | some i => Word.ofN (fldAt 0 16 i.flow + fldAt 16 4 i.prio + bitAt 20 true) | none => 0)
  else none

/-- CIC pages (R468); the claim registers as they read without a claim (R457). -/
def Sys.viewCic (y : Sys) (p o : Nat) : Option Word :=
  let bank := fun (f : Nat → Bool) (a : Nat) =>
    some (Word.ofN (bitsOf 32 fun b => srcReal (32 * ((o - a) / 4) + b) && f (32 * ((o - a) / 4) + b)))
  if (p = 0 ∨ p = 1) ∧ 0x80 ≤ o ∧ o < 0xC0 then some (Word.ofN (y.delivered (p == 1) ((o - 0x80) / 4)))
  else if p = 0 ∧ 0x100 ≤ o ∧ o < 0x140 then bank y.requests 0x100
  else if p = 0 ∧ 0x140 ≤ o ∧ o < 0x180 then bank (fun s => (y.csrc s).insv.isSome) 0x140
  else if p = 2 ∧ 0x440 ≤ o ∧ o < 0x480 then bank (fun s => (y.csrc s).latch) 0x440
  else none

/-- MBX page `p` (R469), but for the lock. -/
def Sys.viewMbx (y : Sys) (p o : Nat) : Option Word :=
  let c := y.mbx (4 * p + (o - 0x40) / 0x100)
  let r := (o - 0x40) % 0x100
  if o < 0x40 ∨ 0x440 ≤ o then none
  else if r = 0 then
    some (Word.ofN (bitAt 0 c.ch.go + bitAt 1 c.ch.revoked + fldAt 4 5 c.ch.len + fldAt 24 5 c.ch.sender))
  else if r = 4 then some (Word.ofN c.lock)
  else if r = 8 then some (Word.ofN c.recv)
  else if 0x40 ≤ r ∧ r < 0x80 then some (FMap.get 0 ((r - 0x40) / 4) c.ch.data)
  else none

/-- Mailbox registers of instance `i` by manager offset (R414, R415), but for the lock. -/
def Sys.viewTmb (y : Sys) (i o : Nat) : Option Word :=
  let n := y.inst i
  let ctl := fun (c : Chan) => some (Word.ofN (bitAt 0 c.go + bitAt 1 c.revoked + fldAt 4 5 c.len + fldAt 24 5 c.sender))
  if o = 0x40 then ctl n.up
  else if 0x80 ≤ o ∧ o < 0xC0 then some (FMap.get 0 ((o - 0x80) / 4) n.up.data)
  else if o = 0xC0 then ctl n.dn
  else if 0x100 ≤ o ∧ o < 0x140 then some (FMap.get 0 ((o - 0x100) / 4) n.dn.data)
  else if o = 0x140 then
    some (Word.ofN (fldAt 0 8 n.vivMin + fldAt 8 8 n.vivMaj + bitAt 16 (n.st == .running) + fldAt 20 12 i))
  else if o = 0x144 then some (Word.ofN n.lock)
  else if o = 0x148 then some (Word.ofN (fldAt 0 6 n.vec + bitAt 8 n.agent))
  else none

/-! ## Always-on island -/

/-- Snowdrop's pages (R522, R554, R576). -/
def Sys.viewSnw (y : Sys) (p o : Nat) : Option Word :=
  let d := y.dom ((y.pgReg snw0 0x4C).fld 5 0)
  let z := y.contain
  let smb := y.nv.last 284
  match p with
  | 0 =>
    if o = 0x48 then
      some (Word.ofN (1 + bitAt 1 y.pins.railen + bitAt 2 y.pins.railpg + bitAt 3 y.pins.perst +
        bitAt 4 y.pins.d3hot))
    else if o = 0x50 then
      some (Word.ofN (fldAt 0 8 d.reqs + fldAt 8 8 d.wakes + fldAt 16 8 d.refused + fldAt 24 8 d.aborted))
    else if o = 0x54 then some d.refuser
    else if o = 0x58 then some d.rsn
    else if 0x60 ≤ o ∧ o < 0x6C then
      let w := (o - 0x60) / 4
      some (Word.ofN ((List.range 16).foldl (fun a i => if 16 * w + i < 34 then a + y.domCode (16 * w + i) * 4 ^ i else a) 0))
    else none
  | 2 =>
    if o = 0x40 then some (Word.ofN y.mf)
    else if o = 0x48 then some (Word.ofN (y.tb / 1000000))
    else if o = 0x4C then some (Word.ofN ((if smbBad smb then 0x6A else smb.fld 6 0) + bitAt 8 (smb.bit 8)))
    else none
  | 3 =>
    if o = 0x40 then some (Word.ofN (bitsOf 8 fun n => FMap.get false n z.resetting))
    else if o = 0x48 then some (Word.ofN (bitsOf 10 y.quar))
    else if o = 0x4C then
      some (Word.ofN (fldAt 0 5 z.code + fldAt 8 4 z.region + bitAt 12 z.chip + bitAt 15 z.valid + fldAt 16 16 z.detail))
    else if o = 0x50 then some z.blkId
    else if o = 0x54 then some (Word.ofN z.mf)
    else none
  | _ => none

/-- NVS pages (R73, R555). -/
def Sys.viewNvs (y : Sys) (p o : Nat) : Option Word :=
  let s := y.nv
  let j := ((p - 1) % 2) * 512 + (o - 0x800) / 4
  if p = 0 then
    if o = 0x44 then
      some (Word.ofN (fldAt 0 7 s.free + bitAt 7 (!s.want.isEmpty) + fldAt 8 7 s.migrated + fldAt 16 6 s.bufs.length))
    else none
  else if o < 0x800 then none
  else if p ≤ 2 then some (s.last j)
  else
    let sp := FMap.get 0 j s.spare
    some (Word.ofN (fldAt 0 20 (s.count j) + (if sp = 0 then 0 else fldAt 20 6 (sp - 1) + 67108864)))

/-- Monitor pages (R556). -/
def Sys.viewMon (y : Sys) (p o : Nat) : Option Word :=
  let c := fun (k : Nat) => FMap.get false k y.mari.cond
  if p = 0 ∧ 0x80 ≤ o ∧ o < 0x13C then
    let m := (o - 0x80) / 4
    some (Word.ofN (fldAt 0 16 (FMap.get 0 m y.mari.sample) + bitAt 16 (FMap.get false m y.mari.valid)))
  else if p = 2 ∧ 0x40 ≤ o ∧ o < 0x48 then
    let w := (o - 0x40) / 4
    some (Word.ofN (bitsOf 32 fun b =>
      let m := 32 * w + b
      c (3 * m) || c (3 * m + 1) || c (3 * m + 2)))
  else none

/-- Maintenance sequencer pages (R557). -/
def Sys.viewMnt (y : Sys) (p o : Nat) : Option Word :=
  let m := y.mari
  if p = 0 ∧ o = 0x40 then
    some (Word.ofN (bitsOf 4 (fun a => m.run.any fun u => MUnit.code u == a + 1) +
      256 * bitsOf 4 fun a => m.wait.any fun w => MUnit.code w.u == a + 1))
  else if p = 0 ∧ o = 0x48 then some (Word.ofN m.win)
  else if p = 3 ∧ o = 0x54 then
    some ((y.pgReg (mntPg 3) 0x54 &&& 0xFFFF#32) ||| Word.ofN (fldAt 16 5 m.tlq.length))
  else none

/-! ## Every page -/

/-- What the register at offset `o` of a page reads, before any effect of the read. -/
def Sys.view (y : Sys) (g : Pg) (o : Nat) : Word :=
  if o < 0x40 then y.viewHdr g o
  else
    (match g.blk with
     | .hst => y.viewHst o
     | .imu => y.viewImu o
     | .hdma => y.viewDma 0 g.page o
     | .rdma => y.viewDma (g.inst + 1) 0 o
     | .rng => y.viewRng g.page o
     | .ten => y.viewTen g.page o
     | .ldr => y.viewLdr o
     | .prg => y.viewPrg g.inst o
     | .pwr => y.viewPwr g.inst o
     | .lnk => y.viewLnk g.inst o
     | .frm => y.viewFrm g.inst g.page o
     | .fif => y.viewFif g.inst o
     | .wsc => y.viewWsc g.page o
     | .core => y.viewCore g.inst o
     | .cic => y.viewCic g.page o
     | .mbx => y.viewMbx g.page o
     | .snw => y.viewSnw g.page o
     | .nvs => y.viewNvs g.page o
     | .mon => y.viewMon g.page o
     | .mnt => y.viewMnt g.page o
     | .tmb => y.viewTmb g.inst o).getD (y.pgReg g o)

/-- Ring status subpage of instance `i` (R137). -/
def Sys.viewRings (y : Sys) (i o : Nat) : Word :=
  let r := fun (k : Nat) => y.ring (ringKey i k)
  let n := y.inst i
  let z := fun (q : Ring) (v : Nat) => if q.st == .none then (0 : Word) else Word.ofN v
  if o < 0x80 then
    let q := r (o / 8)
    if o % 8 < 4 then z q (fldAt 0 15 q.head + fldAt 16 3 q.st.code)
    else z q (fldAt 0 15 q.replayEnd + bitAt 15 q.replay + fldAt 16 7 q.taken.length)
  else if o < 0xC0 then
    let q := r ((o - 0x80) / 4)
    z q (bitsOf 31 fun e => ((y.slot q.slot).ep e).halted)
  else if o < 0xD0 then
    let q := r (16 + (o - 0xC0) / 4)
    z q (fldAt 0 15 q.wpos + fldAt 16 12 q.waiting.length + bitAt 28 (q.known == 0))
  else if o < 0xD4 then
    let q := r 20
    z q (fldAt 0 15 q.wpos + fldAt 16 12 (y.spilled i) + bitAt 28 n.lostPend)
  else if o < 0xD8 then Word.ofN (fldAt 0 5 n.ownUsed + fldAt 16 12 n.sharedUsed + bitAt 31 n.exhausted)
  else 0

/-- Message-store subpage of instance `i` (R408). -/
def Sys.viewMsgs (y : Sys) (i o : Nat) : Word :=
  let m := FMap.get {} (o / 16) (y.inst i).msgs
  if 64 ≤ o then 0
  else match o % 16 / 4 with
    | 0 => m.lo
    | 1 => m.hi
    | 2 => m.data
    | _ => Word.ofN (bitAt 0 m.mask + bitAt 1 m.pend + fldAt 16 16 m.sent)

end Sys2Proof.Machine
end

