-- ==== Sys2Proof/Machine/Regs.lean ====
section
/-! DEFINITION. Register writes: the access types (R11), the common header (R57-R68), staged registers (R80), the write rules of each
block's registers and the ranges of R614. -/

namespace Sys2Proof.Machine

/-! ## Access types -/

/-- A register after a write, by its RW and W1C bits (R11). -/
def RegDesc.after (d : RegDesc) (old v : Word) : Word :=
  (((old &&& ~~~(Word.ofN d.rw)) ||| (v &&& Word.ofN d.rw)) &&& ~~~(v &&& Word.ofN d.w1c))

/-- Whether a value lies outside a range that a field's description gives (R614). -/
def RegDesc.outside (d : RegDesc) (v : Word) : Bool :=
  d.ranges.any fun r => decide (v.fld r.1 r.2.1 < r.2.2.1) || decide (r.2.2.2 < v.fld r.1 r.2.1)

/-- A write of a register without a write rule of its own (R10, R11, R614). -/
def Sys.wrPlain (g : Pg) (o : Nat) (v : Word) (y : Sys) : Sys :=
  match regDesc? g.blk g.page o with
  | some d => if d.outside v then y.cfgErr g else y.setPg g o (d.after (y.pgReg g o) v)
  | none => y

/-- A write of a staged register's shadow copy; the active copies only read (R80). -/
def Sys.wrStaged (g : Pg) (o : Nat) (v : Word) (y : Sys) : Sys :=
  if 0x800 ≤ o then y
  else
    match regDesc? g.blk g.page o with
    | some d => if d.outside v then y.cfgErr g else y.stage g o (v &&& Word.ofN d.rw)
    | none => y

/-- A write of the common header (R57-R68). -/
def Sys.wrHdr (g : Pg) (o : Nat) (v : Word) (y : Sys) : Sys :=
  match o with
  | 0x10 => if v.bit 0 && g.stagedPage then y.discardPage g else y
  | 0x18 => y.setPg g 0x18 (y.pgReg g 0x18 &&& ~~~v)
  | 0x1C => (y.setPg g 0x1C v).errNotify y.errSum
  | 0x20 => if v.bit 15 then y.setFld g 0x20 15 15 0 else y
  | 0x28 => y.errInject g v
  | _ => y

/-! ## Index-based queues (R136, R413, R495, R557, R615) -/

/-- A base register of a queue: not while EN = 1; it sets both indices to 0. -/
def Sys.wrBase (g : Pg) (o size pi ci : Nat) (v : Word) (y : Sys) : Sys :=
  if (y.pgReg g size).bit 31 then y.cfgErr g else ((y.wrPlain g o v).setPg g pi 0).setPg g ci 0

/-- A size register of a queue, but for EN: `none` where the write is refused. A changed LOG2 sets both indices to 0. -/
def Sys.wrSize (g : Pg) (size pi ci : Nat) (v : Word) (y : Sys) : Option Sys :=
  let old := y.pgReg g size
  match regDesc? g.blk g.page size with
  | some d =>
    if d.outside v || (old.bit 31 && old.fld 4 0 != v.fld 4 0) then none
    else
      let y := if old.fld 4 0 = v.fld 4 0 then y else (y.setPg g pi 0).setPg g ci 0
      some (y.setPg g size ((v &&& Word.ofN d.rw).put 31 31 (old.fld 31 31)))
  | none => none

/-- A producer index that software writes. -/
def Sys.wrPi (g : Pg) (size pi ci : Nat) (v : Word) (y : Sys) : Sys :=
  let p := v.fld 16 0
  if qBad (2 ^ (y.pgReg g size).fld 4 0) p (y.pgReg g ci).toNat p then y.cfgErr g else y.setPg g pi (Word.ofN p)

/-- LDR_LDQ_SIZE.EN. -/
def Sys.ldqSetEn (en : Bool) (y : Sys) : Sys := y.setFld ldrPg 0x68 31 31 (if en then 1 else 0)

/-- MNT_TLQ_SIZE.EN: records that wait are written once it is set. -/
def Sys.tlqSetEn (en : Bool) (y : Sys) : Sys :=
  let y := y.setFld (mntPg 3) 0x48 31 31 (if en then 1 else 0)
  if en then y.tlqDrain else y

/-! ## Host region -/

/-- A firmware channel's register written by a core (R215, R217, R218). -/
def Sys.wrFw (j r : Nat) (v : Word) (y : Sys) : Sys :=
  let o := 0x40 + 0x40 * j + r
  if r = 0 then
    let y := y.wrPlain fwPg o v
    let y := if v.bit 4 then y.chanRestart 0 (24 + j) else y
    if v.bit 5 then y.fwStart j else y
  else if r = 0x14 ∧ v.fld 23 0 = 0 then y.cfgErr fwPg
  else y.wrPlain fwPg o v

/-- DMA_DCQ_BASE (R218): not while the DCQ holds entries. A changed LOG2 sets both indices to 0. -/
def Sys.wrDcqBase (v : Word) (y : Sys) : Sys :=
  if 0 < y.dcqUsed then y.cfgErr fwPg
  else
    let was := y.dcqSize
    let y := y.wrPlain fwPg 0x250 v
    if y.dcqSize = was then y else (y.setPg fwPg 0x254 0).setPg fwPg 0x258 0

/-- A host DMA or region DMA page: engine `e`, page `p` (R213, R214, R218). -/
def Sys.wrDma (org : Origin) (e p : Nat) (g : Pg) (o : Nat) (v : Word) (y : Sys) : Sys :=
  let isCore := match org with | .core _ => true | _ => false
  let j := (o - 0x40) / 0x40
  let r := (o - 0x40) % 0x40
  if o < 0x240 then
    if 0x20 ≤ r then y
    else if e = 0 ∧ p = 3 then
      if isCore then y.wrFw j r v
      else if r = 0 ∧ v = 0x10 then y.chanRestart 0 (24 + j)
      else y.accErr g
    else if r = 0 then
      if v.bit 4 && isCore then y.accErr g
      else
        let y := y.wrPlain g o v
        if v.bit 4 then y.chanRestart e (8 * p + j) else y
    else y
  else if o = 0x250 ∧ e = 0 ∧ p = 3 then y.wrDcqBase v
  else if o = 0x258 ∧ e = 0 ∧ p = 3 then y.dcqAdvance v
  else y.wrPlain g o v

/-- Ring unit pages (R138). -/
def Sys.wrRng (p o : Nat) (v : Word) (y : Sys) : Sys :=
  let g := onePg .rng p
  if p = 1 then y.wrStaged g o v
  else if p = 0 ∧ (o = 0x40 ∨ o = 0x44) then
    if y.host.rings.any fun e => e.2.st != .none then y.cfgErr g else y.wrPlain g o v
  else if p = 0 ∧ (o = 0x50 ∨ o = 0x54) then
    if (y.pgReg g 0x58).bit 31 then y.cfgErr g else y.wrPlain g o v
  else if p = 0 ∧ o = 0x58 then
    if !y.host.spq.isEmpty then y.cfgErr g
    else
      let was := y.spqSize
      let y := y.wrPlain g o v
      if y.spqSize = was then y else (y.setPg g 0x5C 0).setPg g 0x60 0
  else if p = 2 ∧ o = 0x48 then (if v.bit 0 then y.viewDisable else y)
  else y.wrPlain g o v

/-- Tenancy unit pages (R81, R84, R413, R615). -/
def Sys.wrTen (p o : Nat) (v : Word) (y : Sys) : Sys :=
  let g := onePg .ten p
  if p ≠ 0 then y.wrPlain g o v
  else
    match o with
    | 0x40 => if v.bit 31 then y.discardAll else (y.commitWrite (v.fld 15 0)).2
    | 0x50 | 0x54 => y.wrBase g o 0x58 0x5C 0x60 v
    | 0x58 => match y.wrSize g 0x58 0x5C 0x60 v with | some z => z.mcqSetEn (v.bit 31) | none => y.cfgErr g
    | 0x5C => y.wrPi g 0x58 0x5C 0x60 v
    | 0x64 | 0x68 => y.wrBase g o 0x6C 0x70 0x74 v
    | 0x6C => match y.wrSize g 0x6C 0x70 0x74 v with | some z => z.meqSetEn (v.bit 31) | none => y.cfgErr g
    | 0x74 => y.meqAdvance v
    | 0x78 => if v.bit 0 then y.mgrRestart else y
    | _ => y.wrPlain g o v

/-- LDR page 0 (R56, R475, R495). -/
def Sys.wrLdr (o : Nat) (v : Word) (y : Sys) : Sys :=
  if y.ldr.phase == .ready then y.accErr ldrPg
  else
    match o with
    | 0x40 => y.ldrGo v
    | 0x60 | 0x64 => y.wrBase ldrPg o 0x68 0x6C 0x70 v
    | 0x68 => match y.wrSize ldrPg 0x68 0x6C 0x70 v with | some z => z.ldqSetEn (v.bit 31) | none => y.cfgErr ldrPg
    | 0x6C => y.wrPi ldrPg 0x68 0x6C 0x70 v
    | _ => y.wrPlain ldrPg o v

/-- TMB page of instance `i`, by the manager or a core (R394-R399, R415). -/
def Sys.wrTmb (org : Origin) (i o : Nat) (v : Word) (y : Sys) : Sys :=
  let m := masterOf org
  if o = 0x40 then y.upCtlRecv i (v.bit 0) (v.bit 1)
  else if o = 0xC0 then y.dnCtlSend i m (v.bit 0) (v.fld 8 4)
  else if 0x100 ≤ o ∧ o < 0x140 then
    if y.dnLocked i m then y.recordErr (tmbPg i) 8 0
    else if (y.inst i).dn.go then y.recordErr (tmbPg i) 9 0
    else y.updInst i fun n => { n with dn := { n.dn with data := FMap.put 0 ((o - 0x100) / 4) v n.dn.data } }
  else if o = 0x144 then y.dnLockWrite i m (v.fld 4 0)
  else if o = 0x148 then y.updInst i fun n => { n with vec := v.fld 5 0, agent := v.bit 8 }
  else y

/-! ## Port regions -/

/-- Link-cell page of port `p` (R246, R280, R285, R319). -/
def Sys.wrLnk (p o : Nat) (v : Word) (y : Sys) : Sys :=
  match o with
  | 0x48 => y.portCmd p (v.fld 2 0)
  | 0x4C => y.testCmd p (v.fld 2 0)
  | 0x58 =>
    match v.fld 1 0 with
    | 1 => y.suspWrite p false (v.bit 2)
    | 2 => y.suspWrite p true (v.bit 2)
    | _ => y.updPort p fun q => { q with rwEn := v.bit 2 }
  | _ => y.wrPlain (lnkPg p) o v

/-- Frame engine pages (R30, R141, R176, R184). -/
def Sys.wrFrm (n p o : Nat) (v : Word) (y : Sys) : Sys :=
  let g := frmPg n p
  if 1 ≤ p then y.wrStaged g o v
  else if o = 0x40 then y.paceThr n v
  else if 0x80 ≤ o ∧ o < 0xC0 ∧ (y.frame (16 * n + (o - 0x80) / 4)).sof then y.cfgErr g
  else y.wrPlain g o v

/-- FIFO page of port `p` (R241). -/
def Sys.wrFif (p o : Nat) (v : Word) (y : Sys) : Sys :=
  let g := fifPg p
  if o = 0x40 ∨ o = 0x44 then
    if v.fld 10 0 < v.fld 26 16 ∧ v.fld 26 16 ≤ 1024 then y.wrPlain g o v else y.cfgErr g
  else y.wrPlain g o v

/-- Region control page (R571, R575): the units reset in ascending port order. -/
def Sys.wrPrg (n o : Nat) (v : Word) (y : Sys) : Sys :=
  if o = 0x4C then each (fun k (y : Sys) => if v.bit k then y.portUnit (16 * n + k) else y) (List.range 16) y
  else y.wrPlain ⟨.prg, n, 0⟩ o v

/-! ## Engine region -/

/-- The sum of IRES and the quotas (R437). -/
def Sys.entrySum (y : Sys) : Nat := y.ires + (List.range 8).foldl (fun a n => a + y.dQuota n) 0

/-- WSC pages (R437, R446, R466). -/
def Sys.wrWsc (p o : Nat) (v : Word) (y : Sys) : Sys :=
  let g := onePg .wsc p
  if p ≠ 0 then y
  else if o = 0x40 ∨ (0x50 ≤ o ∧ o < 0x70) then
    let z := y.wrPlain g o v
    if 4096 < z.entrySum then y.cfgErr g else z.entryFreed
  else if 0x70 ≤ o ∧ o < 0x80 ∧ (y.eng.holly.delayed.any fun d => d.list == (o - 0x70) / 4) then y.cfgErr g
  else y.wrPlain g o v

/-- Core page (R426, R467). -/
def Sys.wrCore (org : Origin) (c o : Nat) (v : Word) (y : Sys) : Sys :=
  let g := corePg c
  let isCore := match org with | .core _ => true | _ => false
  if o = 0x40 then
    let y := if isCore then y.setPg g 0x40 (v &&& 0xE#32) else if v &&& 0xE#32 = 0 then y else y.accErr g
    let y := if v.bit 0 then y.coreReset c 1 else y
    y.routeAll
  else if o = 0x4C ∧ !isCore then y.accErr g
  else y.wrPlain g o v

/-- A software signal (R468). -/
def Sys.swi (t : Nat) (y : Sys) : Sys := (y.updSrc (64 + t) fun z => { z with pend := true }).routeAll

/-- The pending bit of an edge source is cleared; a level source's ignores it (R468). -/
def Sys.pendClear (s : Nat) (y : Sys) : Sys :=
  if srcReal s && (y.srcCfg s).bit 2 then y.updSrc s fun z => { z with pend := false } else y

/-- CIC pages, by a core (R455-R457, R468). -/
def Sys.wrCic (p o : Nat) (v : Word) (y : Sys) : Sys :=
  let g := onePg .cic p
  if p ≤ 1 ∧ 0xC0 ≤ o ∧ o < 0x100 then y.complete (p == 1) ((o - 0xC0) / 4) (v.fld 8 0)
  else if p = 0 ∧ 0x100 ≤ o ∧ o < 0x140 then
    (each (fun b (y : Sys) => if v.bit b then y.pendClear (32 * ((o - 0x100) / 4) + b) else y) (List.range 32) y).routeAll
  else if p = 0 ∧ o = 0x180 then y.swi (v.fld 3 0)
  else if 2 ≤ p ∧ 0x40 ≤ o ∧ o < 0x440 then
    if srcReal (256 * (p - 2) + (o - 0x40) / 4) then (y.wrPlain g o v).routeAll else y
  else y

/-- The channel of an MBX page's offset, and the offset in it (R469). -/
def mbxAt (p o : Nat) : Option (Nat × Nat) :=
  if 0x40 ≤ o ∧ o < 0x440 then some (4 * p + (o - 0x40) / 0x100, (o - 0x40) % 0x100) else none

/-- Whether an access reaches a register of a channel without a receiver (R463); the channel. -/
def Sys.mbxDead (y : Sys) (g : Pg) (o : Nat) : Option Nat :=
  if g.blk == .mbx then
    match mbxAt g.page o with
    | some (j, r) => if (r == 0 || r == 4 || (decide (0x40 ≤ r) && decide (r < 0x80))) && y.noRecv j then some j else none
    | none => none
  else none

/-- MBX pages (R458-R460, R469). -/
def Sys.wrMbx (org : Origin) (p o : Nat) (v : Word) (y : Sys) : Sys :=
  let m := masterOf org
  match mbxAt p o with
  | some (j, r) =>
    if r = 0 then y.mbxCtl j m v
    else if r = 4 then y.mbxLockWrite j m (v.fld 4 0)
    else if r = 8 then y.mbxCfg j v
    else if 0x40 ≤ r ∧ r < 0x80 then y.mbxData j m ((r - 0x40) / 4) v
    else y
  | none => y

/-! ## Always-on island -/

/-- Wake latches are cleared, and the sources they hold asserted fall (R517, R523). -/
def Sys.latchClear (w : Nat) (v : Word) (y : Sys) : Sys :=
  let o := 0x48 + 4 * w
  let y := y.wrPlain (onePg .snw 1) o v
  (each (fun b (y : Sys) => if v.bit b && decide (32 * w + b < 39) then y.srcFall (256 + 32 * w + b) else y) (List.range 32) y).routeAll

/-- Snowdrop's pages (R506, R522, R523, R554, R571, R576). -/
def Sys.wrSnw (org : Origin) (p o : Nat) (v : Word) (y : Sys) : Sys :=
  let g := onePg .snw p
  match p, o with
  | 0, 0x40 => y.domReq (v.fld 5 0) (v.fld 9 8) (reqSource org)
  | 0, 0x58 =>
    if v.bit 31 then y.updDom ((y.pgReg snw0 0x4C).fld 5 0) fun m => { m with rsn := m.rsn.put 31 31 0 } else y
  | 1, 0x48 => y.latchClear 0 v
  | 1, 0x4C => y.latchClear 1 v
  | 3, 0x40 => each (fun n (y : Sys) => if v.bit n then y.regionReset n else y) (List.range 8) y
  | 3, 0x4C => if v.bit 15 then { y with contain := { y.contain with valid := false } } else y
  | _, _ => y.wrPlain g o v

/-- NVS pages (R73-R75, R492, R555): the values on pages 1 and 2 are written, COUNT on pages 3 and 4 only reads. -/
def Sys.wrNvs (org : Origin) (p o : Nat) (v : Word) (y : Sys) : Sys :=
  if (p = 1 ∨ p = 2) ∧ 0x800 ≤ o then y.nvWrite org ((p - 1) * 512 + (o - 0x800) / 4) v
  else y.wrPlain (onePg .nvs p) o v

/-- Monitor pages (R556). -/
def Sys.wrMon (p o : Nat) (v : Word) (y : Sys) : Sys :=
  if p = 2 ∧ o = 0x4C then y.wrPlain (monPg 2) o (v &&& 0x7FFF#32) else y.wrPlain (monPg p) o v

/-- Maintenance sequencer pages (R136, R557). -/
def Sys.wrMnt (p o : Nat) (v : Word) (y : Sys) : Sys :=
  let g := mntPg p
  match p, o with
  | 3, 0x40 | 3, 0x44 => y.wrBase g o 0x48 0x4C 0x50 v
  | 3, 0x48 => match y.wrSize g 0x48 0x4C 0x50 v with | some z => z.tlqSetEn (v.bit 31) | none => y.cfgErr g
  | 3, 0x50 => y.tlqCi v
  | _, _ => y.wrPlain g o v

/-! ## Every page -/

/-- Blocks whose register writes are their eligible events of R568. -/
def regStages : Blk → Bool
  | .hst | .imu | .ldr | .prg | .mon | .mnt => true
  | _ => false

/-- A write of the block-specific registers of a page. -/
def Sys.wrBlk (org : Origin) (g : Pg) (o : Nat) (v : Word) (y : Sys) : Sys :=
  match g.blk with
  | .hst | .imu | .pwr => y.wrPlain g o v
  | .hdma => y.wrDma org 0 g.page g o v
  | .rdma => y.wrDma org (g.inst + 1) 0 g o v
  | .rng => y.wrRng g.page o v
  | .ten => y.wrTen g.page o v
  | .ldr => y.wrLdr o v
  | .prg => y.wrPrg g.inst o v
  | .lnk => y.wrLnk g.inst o v
  | .frm => y.wrFrm g.inst g.page o v
  | .fif => y.wrFif g.inst o v
  | .wsc => y.wrWsc g.page o v
  | .core => y.wrCore org g.inst o v
  | .cic => y.wrCic g.page o v
  | .mbx => y.wrMbx org g.page o v
  | .tmb => y.wrTmb org g.inst o v
  | .snw => y.wrSnw org g.page o v
  | .nvs => y.wrNvs org g.page o v
  | .mon => y.wrMon g.page o v
  | .mnt => y.wrMnt g.page o v

/-- A write of a page's register that the page answers (R11, R56, R457). -/
def Sys.wr (org : Origin) (g : Pg) (o : Nat) (v : Word) (y : Sys) : Sys :=
  let isCore := match org with | .core _ => true | _ => false
  let y := if g.blk == .cic && !isCore then y.accErr g
    else if o < 0x40 then y.wrHdr g o v
    else y.wrBlk org g o v
  if regStages g.blk then y.carry g else y

/-! ## Pages without a header -/

/-- A write of the doorbell subpage (R101, R129). -/
def Sys.wrDb (i o : Nat) (v : Word) (y : Sys) : Sys :=
  if o < 0x40 then
    y.doorbell (ringKey i (o / 4)) (match v.fld 1 0 with
      | 0 => .wake
      | 1 => .enable
      | 2 => .disable
      | _ => .clearHalt (v.fld 12 8))
  else if o < 0x50 then y.doorbell (ringKey i (16 + (o - 0x40) / 4)) .returned
  else if o = 0x50 then y.doorbell (evtKey i) .returned
  else y

/-- A tenant's write of its mailbox subpage (R395, R415). -/
def Sys.wrMail (i o : Nat) (v : Word) (y : Sys) : Sys :=
  if o = 0 then y.upCtlSend i (v.bit 0) (v.fld 8 4)
  else if 0x40 ≤ o ∧ o < 0x80 then
    if (y.inst i).up.go then y
    else y.updInst i fun n => { n with up := { n.up with data := FMap.put 0 ((o - 0x40) / 4) v n.up.data } }
  else if o = 0x80 then y.dnCtlRecv i (v.bit 0) (v.bit 1)
  else y

/-- A write of the message-store subpage (R408, R409): clearing MASK with PEND = 1 sends one message. -/
def Sys.wrMsgs (i o : Nat) (v : Word) (y : Sys) : Sys :=
  let e := o / 16
  let set := fun (f : MsgEnt → MsgEnt) => y.updInst i fun n => { n with msgs := FMap.upd {} e f n.msgs }
  if 64 ≤ o then y
  else
    match o % 16 / 4 with
    | 0 => set fun m => { m with lo := v &&& ~~~3#32 }
    | 1 => set fun m => { m with hi := v }
    | 2 => set fun m => { m with data := v }
    | _ =>
      let y := set fun m => { m with mask := v.bit 0 }
      if !v.bit 0 && (FMap.get {} e (y.inst i).msgs).pend then y.sendMsg i e else y

/-- A write of the MSI-X table (R372): clearing a vector's mask with its pending bit set sends one message. -/
def Sys.wrMsix (o : Nat) (v : Word) (y : Sys) : Sys :=
  let n := o / 16
  if 64 ≤ n then y
  else if o % 16 = 12 then
    let y := y.setReg (0xFE000 + o) (v &&& 1#32)
    if !v.bit 0 && FMap.get false n y.host.msixPend then
      ({ y with host := { y.host with msixPend := FMap.put false n false y.host.msixPend } }).msix n
    else y
  else y.setReg (0xFE000 + o) (if o % 16 = 0 then v &&& ~~~3#32 else v)

end Sys2Proof.Machine
end

