-- ==== Sys2Proof/Machine/RegRead.lean ====
section
/-! DEFINITION. Register reads (R11, R12, R15, R49), and accesses to every window as their rows make them (R46-R56). -/

namespace Sys2Proof.Machine

/-! ## Reads of a page -/

/-- An RC field is cleared by its read (R11). -/
def Sys.clearRc (g : Pg) (o : Nat) (y : Sys) : Sys :=
  if o = 0x24 then y.setPg g 0x24 0
  else if g = onePg .snw 0 ∧ o = 0x50 then
    y.updDom ((y.pgReg snw0 0x4C).fld 5 0) fun m => { m with reqs := 0, wakes := 0, refused := 0, aborted := 0 }
  else if g.stagedPage && decide (0x40 ≤ o) then y
  else
    match regDesc? g.blk g.page o with
    | some d => if d.rc = 0 then y else y.setPg g o (y.pgReg g o &&& ~~~(Word.ofN d.rc))
    | none => y

/-- A read of a page's register: the value, and the state after (R11, R396, R455, R457, R460, R554). -/
def Sys.rd (org : Origin) (g : Pg) (o : Nat) (y : Sys) : Word × Sys :=
  let plain := (y.view g o, y.clearRc g o)
  match g.blk with
  | .snw => if g.page = 2 ∧ o = 0x40 then (Word.ofN y.mf, y.setPg g 0x44 (Word.ofN y.us)) else plain
  | .cic =>
    if g.page ≤ 1 ∧ 0x80 ≤ o ∧ o < 0xC0 then
      match org with
      | .core _ => let r := y.claim (g.page == 1) ((o - 0x80) / 4); (Word.ofN r.1, r.2)
      | _ => (y.view g o, y)
    else plain
  | .tmb =>
    if o = 0x144 then let r := y.dnLockRead g.inst (masterOf org); (Word.ofN r.1, r.2) else plain
  | .mbx =>
    match mbxAt g.page o with
    | some (j, 4) => let r := y.mbxLockRead j (masterOf org); (Word.ofN r.1, r.2)
    | _ => plain
  | _ => plain

/-- The NV register that a page's offset shows, if it shows a value (R73). -/
def nvAt (g : Pg) (o : Nat) : Option Nat :=
  if g.blk == .nvs && (g.page == 1 || g.page == 2) && decide (0x800 ≤ o) then some ((g.page - 1) * 512 + (o - 0x800) / 4)
  else none

/-- The writes of an NV register that an SMBus read of it waits for (R12, R551): those accepted, and those held, but for a
migration (R78). -/
def NvStore.before (s : NvStore) (j : Nat) : Nat :=
  s.pendingOf j + (if s.migrating j then 0 else (s.held.filter fun w => w.reg == j).length)

/-- A read completes. -/
def Sys.answer (org : Origin) (off : Nat) (v : Word) (y : Sys) : Sys := { y with out := .cpl org off v :: y.out }

/-- A read of a page's register with its completion. -/
def Sys.rdNow (org : Origin) (off : Nat) (g : Pg) (o : Nat) (y : Sys) : Sys :=
  match nvAt g o with
  | some j => y.answer org off (y.nv.get j)
  | none => let r := y.rd org g o; r.2.answer org off r.1

/-- The writes of an NV register that a read of it waits for (R12, R77): those accepted before it; an SMBus read also waits for those
held before it, which a window read has behind it in no case (R49). -/
def Sys.readWaits (org : Origin) (y : Sys) (j : Nat) : Nat := if org = .smbus then y.nv.before j else y.nv.pendingOf j

/-- A read of a page's register; a read of an NV register with a write in progress stalls (R12). -/
def Sys.rdOut (org : Origin) (off : Nat) (g : Pg) (o : Nat) (y : Sys) : Sys :=
  match (nvAt g o).map fun j => (j, y.readWaits org j) with
  | some (j, n + 1) => { y with nvReads := y.nvReads ++ [{ org := org, off := off, reg := j, left := n + 1 }] }
  | _ => y.rdNow org off g o

/-! ## Other targets -/

/-- A read of the message-store subpage clears SENT of a MSG_CTL register (R408). -/
def Sys.msgRc (i o : Nat) (y : Sys) : Sys :=
  if o < 64 ∧ o % 16 = 12 then
    y.updInst i fun n => { n with msgs := FMap.upd {} (o / 16) (fun m => { m with sent := 0 }) n.msgs }
  else y

/-- The pending-bit array's dword at offset `o` (R52, R372). -/
def Sys.viewPba (y : Sys) (o : Nat) : Word :=
  if o < 8 then Word.ofN (bitsOf 32 fun b => FMap.get false (8 * o + b) y.host.msixPend) else 0

/-- A mailbox dword as the tenant sees it at offset `o` of the mailbox subpage (R414). -/
def Sys.viewMail (y : Sys) (i o : Nat) : Word := if o < 0x104 then (y.viewTmb i (o + 0x40)).getD 0 else 0

/-- Four bytes of the image area (R56). -/
def Sys.imageDw (y : Sys) (o : Nat) : Word := Word.ofN (leNat ((List.range 4).map fun i => y.sramByte (o + i)))

/-- An access that an instance's subpage `base` answers (R54, R399). -/
def Sys.viaSub (i base o : Nat) (isRead : Bool) (f : Sys → Sys) (y : Sys) : Sys :=
  if y.instLets i (base + o) then f y else y.refuse .tenant (i * 0x4000 + base + o) isRead false

/-- An access to the MSI-X table or the pending-bit array at manager-window offset `off` (R52, R71). -/
def Sys.viaMsix (org : Origin) (off : Nat) (isRead : Bool) (f : Sys → Sys) (y : Sys) : Sys :=
  match org with
  | .core c => if !y.coreActs c then y else if y.pageLets org (onePg .hst 0) 0x40 isRead then f y else y.refuse org off isRead false
  | _ => if y.pageLets org (onePg .hst 0) 0x40 isRead then f y else y.refuse org off isRead false

/-- An access to an address in no defined page (R48, R551). A core that runs no code makes none. -/
def Sys.noPage (org : Origin) (off : Nat) (isRead : Bool) (y : Sys) : Sys :=
  match org with
  | .core c => if y.coreActs c then y.refuse org off isRead true else y
  | .smbus =>
    if 0xA00000 ≤ off ∧ off < 0xB00000 then
      let y := y.smbErr
      if isRead then y.answer org off 0 else y
    else y
  | _ => y.refuse org off isRead true

/-- An access to a channel without a receiver: the error response, and NORECV (R463). -/
def Sys.mbxRefuse (org : Origin) (off j : Nat) (isRead : Bool) (y : Sys) : Sys :=
  { y with out := .ur org off isRead :: y.out }.mbxNone j

/-- A page accessed by an origin: an access that reaches it runs `f`. -/
def Sys.viaAny (org : Origin) (off : Nat) (g : Pg) (o : Nat) (isRead : Bool) (f : Sys → Sys) (y : Sys) : Sys :=
  y.viaPage org g o isRead fun y =>
    match y.mbxDead g o with
    | some j => y.mbxRefuse org off j isRead
    | none => f y

/-! ## Accesses by their windows -/

/-- Record ACCESS for an access that broke R47. -/
def Sys.accAt (t : Target) (y : Sys) : Sys :=
  match t with
  | .page g _ => if y.on g.dom then y.accErr g else y
  | _ =>
    match headless t with
    | some (g, d) => y.recordErr g 4 d
    | none => y

/-- An access of a wrong size, alignment or burst length (R47): discarded, or answered with 0. The image area takes any. -/
def doAccErr (org : Origin) (off : Nat) (isRead : Bool) (y : Sys) : Sys :=
  let t := target org off
  let f := fun (y : Sys) => let y := y.accAt t; if isRead then y.answer org off 0 else y
  match t with
  | .page g o => y.viaAny org off g o isRead f
  | .msix _ | .pba _ => y.viaMsix org off isRead f
  | .db i o => y.viaSub i 0 o isRead f
  | .ringStat i o => y.viaSub i 0x1000 o isRead f
  | .mbox i o => y.viaSub i 0x2000 o isRead f
  | .msgs i o => y.viaSub i 0x3000 o isRead f
  | .image _ => y
  | .none => y.noPage org off isRead

/-- A dword write (R11, R46-R56). -/
def doRegWrite (org : Origin) (off : Nat) (v : Word) (y : Sys) : Sys :=
  match target org off with
  | .image o => doImage o [some (v.byte 0), some (v.byte 1), some (v.byte 2), some (v.byte 3)] y
  | t =>
    if off % 4 ≠ 0 then doAccErr org off false y
    else
      match t with
      | .page g o => y.viaAny org off g o false (Sys.wr org g o v)
      | .msix o => y.viaMsix org off false (Sys.wrMsix o v)
      | .pba _ => y.viaMsix org off false id
      | .db i o => y.viaSub i 0 o false (Sys.wrDb i o v)
      | .ringStat i o => y.viaSub i 0x1000 o false id
      | .mbox i o => y.viaSub i 0x2000 o false (Sys.wrMail i o v)
      | .msgs i o => y.viaSub i 0x3000 o false (Sys.wrMsgs i o v)
      | .image _ | .none => y.noPage org off false

/-- A dword read (R11, R46-R56) that reads a page's register by `rd`. -/
def readBy (rd : Origin → Nat → Pg → Nat → Sys → Sys) (org : Origin) (off : Nat) (y : Sys) : Sys :=
  match target org off with
  | .image o => if y.imageLets then y.answer org off (y.imageDw o) else y.refuse org off true false
  | t =>
    if off % 4 ≠ 0 then doAccErr org off true y
    else
      match t with
      | .page g o => y.viaAny org off g o true (rd org off g o)
      | .msix o => y.viaMsix org off true fun y => y.answer org off (if o < 0x400 then y.reg off else 0)
      | .pba o => y.viaMsix org off true fun y => y.answer org off (y.viewPba o)
      | .db i o => y.viaSub i 0 o true fun y => y.answer org off 0
      | .ringStat i o => y.viaSub i 0x1000 o true fun y => y.answer org off (y.viewRings i o)
      | .mbox i o => y.viaSub i 0x2000 o true fun y => y.answer org off (y.viewMail i o)
      | .msgs i o => y.viaSub i 0x3000 o true fun y => (y.answer org off (y.viewMsgs i o)).msgRc i o
      | .image _ | .none => y.noPage org off true

/-- A dword read (R11, R12, R46-R56). -/
def doRegRead (org : Origin) (off : Nat) (y : Sys) : Sys := readBy Sys.rdOut org off y

/-- Whether an access is answered as R11 or R47 say, rather than refused (R48, R54, R71, R399, R463, R566). -/
def Sys.answers (y : Sys) (org : Origin) (off : Nat) (isRead : Bool) : Bool :=
  match target org off with
  | .page g o => y.pageLets org g o isRead && (y.mbxDead g o).isNone
  | .msix _ | .pba _ => y.pageLets org (onePg .hst 0) 0x40 isRead
  | .db i o => y.instLets i o
  | .ringStat i o => y.instLets i (0x1000 + o)
  | .mbox i o => y.instLets i (0x2000 + o)
  | .msgs i o => y.instLets i (0x3000 + o)
  | .image _ => y.imageLets
  | .none => false

/-- An access that its target refuses, where the target does refuse it: with the response and the records of the access that
makes it. -/
def doUr (org : Origin) (off : Nat) (isRead : Bool) (y : Sys) : Sys :=
  if y.answers org off isRead then y
  else if isRead then doRegRead org off y
  else doRegWrite org off 0 y

end Sys2Proof.Machine
end

