-- ==== Sys2Proof/Machine/CmdCic.lean ====
section
/-! DEFINITION. The commands of the core interrupt controller (R447-R457). Levels that another block of this model does not drive come
with CIC_SOURCE_ASSERT and CIC_SOURCE_RELEASE. -/

namespace Sys2Proof.Machine

/-- The input of a source is raised or released from outside this model; what a block drives too stays high (R447). -/
def Sys.srcOutside (s : Nat) (high : Bool) (y : Sys) : Sys :=
  (y.updSrc s fun z => { z with ext := high }).cicLevel s (high || y.srcDriven s)

/-- CIC_SOURCE_ASSERT (R449-R453). -/
def execCicSourceAssert (src : Fin 512) (s : State) : Res :=
  liveSys s fun y =>
    if (y.dom 17).st == .off || y.halted (onePg .cic 0) then y else (y.srcOutside src true).carry (onePg .cic 0)

/-- CIC_SOURCE_RELEASE (R449, R450, R455). -/
def execCicSourceRelease (src : Fin 512) (s : State) : Res :=
  liveSys s fun y => if (y.dom 17).st == .off || y.halted (onePg .cic 0) then y else y.srcOutside src false

/-- A read of a CIC register, by the manager or a core. -/
def doCicRead (org : Origin) (off : Nat) (y : Sys) : Sys :=
  match org with
  | .manager | .core _ => doRegRead org off y
  | _ => y

/-- A write of a CIC register, by a core, or by the manager, whose write is discarded with ACCESS (R457). -/
def doCicWrite (org : Origin) (off : Nat) (v : Word) (y : Sys) : Sys :=
  match org with
  | .manager | .core _ => doRegWrite org off v y
  | _ => y

/-- CIC_CLAIMc. -/
def doCicClaim (org : Origin) (c : Nat) (y : Sys) : Sys := doCicRead org (0x920080 + 4 * c) y
/-- CIC_FCLAIMc. -/
def doCicFclaim (org : Origin) (c : Nat) (y : Sys) : Sys := doCicRead org (0x921080 + 4 * c) y
/-- CIC_COMPLETEc. -/
def doCicComplete (org : Origin) (c src : Nat) (y : Sys) : Sys := doCicWrite org (0x9200C0 + 4 * c) (Word.ofN src) y
/-- CIC_FCOMPLETEc. -/
def doCicFcomplete (org : Origin) (c src : Nat) (y : Sys) : Sys := doCicWrite org (0x9210C0 + 4 * c) (Word.ofN src) y
/-- CIC_SWI. -/
def doCicSwi (org : Origin) (t : Nat) (y : Sys) : Sys := doCicWrite org 0x920180 (Word.ofN t) y
/-- CIC_PENDw. -/
def doCicPend (org : Origin) (src : Nat) (y : Sys) : Sys :=
  doCicWrite org (0x920100 + 4 * (src / 32)) (Word.mk (src % 32) (src % 32) 1) y

/-- CIC_CLAIM (R455, R457). -/
def execCicClaim (org : Origin) (c : Fin 16) (s : State) : Res := liveWin (.cicClaim org c) org s (doCicClaim org c)

/-- CIC_FCLAIM (R455, R457). -/
def execCicFclaim (org : Origin) (c : Fin 16) (s : State) : Res := liveWin (.cicFclaim org c) org s (doCicFclaim org c)

/-- CIC_COMPLETE (R456). -/
def execCicComplete (org : Origin) (c : Fin 16) (src : Fin 512) (s : State) : Res :=
  liveWin (.cicComplete org c src) org s (doCicComplete org c src)

/-- CIC_FCOMPLETE (R456). -/
def execCicFcomplete (org : Origin) (c : Fin 16) (src : Fin 512) (s : State) : Res :=
  liveWin (.cicFcomplete org c src) org s (doCicFcomplete org c src)

/-- CIC_SWI (R468). -/
def execCicSwi (org : Origin) (target : Fin 16) (s : State) : Res := liveWin (.cicSwi org target) org s (doCicSwi org target)

/-- CIC_PEND_CLEAR (R455, R468). -/
def execCicPendClear (org : Origin) (src : Fin 512) (s : State) : Res :=
  liveWin (.cicPendClear org src) org s (doCicPend org src)

end Sys2Proof.Machine
end

