-- ==== Sys2Proof/Machine/CmdFault.lean ====
section
/-! DEFINITION. Faults that arise in storage cells and on the PCIe link (R558, R567). -/

namespace Sys2Proof.Machine

/-- An error of a protected cell; the 0 that a lost NV register now reads has its effect at once, as an accepted write's (R549,
R558). -/
def Sys.cellHit (g : Pg) (e : CellErr) (detail addr : Nat) (y : Sys) : Sys :=
  let z := y.cellFault g e detail addr
  if g.blk == .nvs && e == .multi then z.nvEffect (detail % 1024) else z

/-- CELL_FAULT (R220, R420, R549, R558, R559). -/
def execCellFault (page : Fin 8192) (err : CellErr) (detail : Fin 65536) (addr : Nat) (s : State) : Res :=
  liveSys s fun y =>
    match Pg.ofOff (page.val * 0x1000) with
    | some g => if y.halted g then y else y.cellHit g err detail addr
    | none => y

/-- A poisoned write from the link is discarded (R567, R574). -/
def Sys.poisonRx (y : Sys) : Sys := (y.recordErr (onePg .hst 0) 8 0).aer .poisonedTlp

/-- What the link delivers wrongly (R567). -/
def Sys.pcieErr (e : PcieErr) (y : Sys) : Sys :=
  match e with
  | .receiver => y.aer .receiver
  | .badTlp => y.aer .badTlp
  | .badDllp => y.aer .badDllp
  | .replayTimeout => y.aer .replayTimeout
  | .replayRollover => y.aer .replayRollover
  | .malformedTlp => y.aer .malformedTlp
  | .poisonedWrite => y.poisonRx
  | .unexpectedCompletion => y.aer .unexpectedCompletion

/-- PCIE_RECEIVE_ERROR (R567, R574). -/
def execPcieReceiveError (err : PcieErr) (s : State) : Res :=
  liveSys s fun y => if (y.dom 16).st == .off then y else (y.pcieErr err).carry (onePg .hst 0)

end Sys2Proof.Machine
end

