-- ==== Sys2Proof/Machine/CmdHolly.lean ====
section
/-! DEFINITION. The commands of Hollyhock, the delay lists, the device context cache and the cores (R421, R424-R428, R434-R436,
R443-R445). -/

namespace Sys2Proof.Machine

/-- Whether Hollyhock works. -/
def Sys.hollyWorks (y : Sys) : Bool := y.on 17 && !y.halted wscPg

/-- Hollyhock serves the first core in its order that takes an item and has a candidate (R435, R436). -/
def Sys.itemGive (y : Sys) : Sys :=
  match y.coreOrder.find? fun c => y.coreTakes c && (y.candidate c).isSome with
  | some c => match y.candidate c with | some i => (y.giveItem c i).carry wscPg | none => y
  | none => y

/-- ITEM_DISPATCH (R435, R436). -/
def execItemDispatch (s : State) : Res := liveSys s fun y => if y.hollyWorks then y.itemGive else y

/-- The running item of core `c`, where it is a record of a DISPLAY whose OP has no command of its own: it is answered REJECTED in its
turn (R338); where it is poisoned it is discarded (R331). -/
def Sys.oddRecord (c : Nat) (y : Sys) : Sys :=
  match (y.core c).cur with
  | some i =>
    let op := (byteAt i.data 0).toNat
    if i.what == .record && (y.slot i.flow).used && (y.slot i.flow).pers.code == 6 && !([0x01, 0x10, 0x11, 0x12].contains op) then
      (if i.poison then y.persPoison i.flow else (y.freshParams i.flow).dispCmd i.flow { op := op, tag := half i.data 2 })
    else y
  | none => y

/-- ITEM_END (R436): WSC_CORE_CNT.ITEMS counts it. -/
def execItemEnd (core : Fin 16) (s : State) : Res :=
  liveSys s fun y =>
    if y.coreActs core && (y.core core).cur.isSome then ((y.oddRecord core).incFld (corePg core) 0x50 15 0).itemDone core else y

/-- WATCHDOG_EXPIRY (R425). -/
def execWatchdogExpiry (core : Fin 16) (s : State) : Res :=
  liveSys s fun y => if y.coreActs core then y.watchdog core else y

/-- WSC_CORE_CTL.RESET as an access of the manager window. -/
def doCoreReset (c : Nat) (y : Sys) : Sys := y.viaPage .manager (corePg c) 0x40 false (Sys.coreReset c 1)

/-- CORE_RESET (R426). -/
def execCoreReset (core : Fin 16) (s : State) : Res := liveWin (.coreReset core) .manager s (doCoreReset core)

/-- A reload of local SRAM ends (R424). One that finds a poisoned word of the code copy quarantines the engine region (R559). -/
def Sys.reloadEnd (c : Nat) (poisoned : Bool) (y : Sys) : Sys :=
  if poisoned || y.sramPoison 0x400000 0x200000 then y.topFault 9 wscPg else (y.coreReady c).carry (corePg c)

/-- CORE_RELOAD_END (R424, R559). -/
def execCoreReloadEnd (core : Fin 16) (poisoned : Bool) (s : State) : Res :=
  liveSys s fun y => if y.on (18 + core) && (y.core core).st == .starting then y.reloadEnd core poisoned else y

/-- ALL_STOPPED_EXPIRY (R66, R428): ALL_STOPPED and UNCORR are set together, the lower bit first. -/
def execAllStoppedExpiry (s : State) : Res :=
  liveSys s fun y =>
    if y.hollyWorks && y.allStopped then ((y.recordErr wscPg 2 0).recordErr wscPg 10 0).haltBlock wscPg else y

/-- The time of the tick that DELAY_TICK serves: now, where a tick of the list begins now and items are due, else the next. -/
def Sys.tickAt (y : Sys) (j : Nat) : Nat :=
  let t := max 1 (y.dlyTick j)
  if y.tb % t = 0 ∧ (y.eng.holly.delays.any fun d => d.list == j && tickLe d.due (y.dlyNow j)) then y.tb else (y.tb / t + 1) * t

/-- The lists below `j` whose ticks begin at the same microsecond are served before it, in ascending number (R444). -/
def Sys.ticksBelow (j : Nat) (y : Sys) : Sys :=
  each (fun i (y : Sys) => if y.tb % max 1 (y.dlyTick i) = 0 then y.delayTick i else y) (List.range j) y

/-- DELAY_TICK (R444, R445). -/
def execDelayTick (list : Fin 4) (s : State) : Res :=
  liveSys s fun y => if y.hollyWorks then (({ y with tb := y.tickAt list }).ticksBelow list).delayTick list else y

/-! ## Device context cache (R421) -/

/-- Whether a slot has a transfer in progress. -/
def Sys.slotBusy (y : Sys) (n : Nat) : Bool := y.host.xfers.any fun x => x.slot == n && x.fin.isNone

/-- The context that makes room for slot `n`'s: the least recently used without a transfer in progress, else of all. -/
def Sys.dcxVictim (y : Sys) (n : Nat) : Option Nat :=
  let old := (y.eng.dcx.filter (· != n)).reverse
  match old.find? fun m => !y.slotBusy m with
  | some m => some m
  | none => old.head?

/-- Contexts leave until the cache holds what it can; `fuel` bounds them. -/
def Sys.dcxEvict (fuel n : Nat) (y : Sys) : Sys :=
  match fuel with
  | 0 => y
  | fuel + 1 =>
    if y.eng.dcx.length ≤ 2048 ∧ y.epCached ≤ 16384 then y
    else
      match y.dcxVictim n with
      | some m => ({ y with eng := { y.eng with dcx := y.eng.dcx.filter (· != m) } }).dcxEvict fuel n
      | none => y

/-- A use of slot `n`'s context: a hit makes it the most recent; a miss is counted and fetches it. -/
def Sys.dcxUse (n : Nat) (y : Sys) : Sys :=
  let hit := y.eng.dcx.contains n
  let y := { y with eng := { y.eng with dcx := n :: y.eng.dcx.filter (· != n) } }
  if hit then y else ((y.incFld wscPg 0x88 31 16).dcxEvict y.eng.dcx.length n).carry wscPg

/-- DEVICE_CONTEXT_FETCH (R421). -/
def execDeviceContextFetch (slot : Fin 8193) (s : State) : Res :=
  liveSys s fun y => if y.hollyWorks && (y.slot slot).used then y.dcxUse slot else y

end Sys2Proof.Machine
end

