-- ==== Sys2Proof/Machine/CmdMail.lean ====
section
/-! DEFINITION. The commands of the mailboxes and of the message unit (R372, R394-R410, R458-R464). -/

namespace Sys2Proof.Machine

/-- A tenant mailbox's post is an eligible event of its page (R568). -/
def doTmbPostC (i : Nat) (org : Origin) (len : Nat) (y : Sys) : Sys :=
  let z := doTmbPost i org len y
  if z.host.insts = y.host.insts then z else z.carry (tmbPg i)

/-- TMB_POST (R395-R397). -/
def execTmbPost (inst : Fin 4096) (org : Origin) (len : Fin 32) (s : State) : Res :=
  liveWin (.tmbPost inst org len) org s (doTmbPostC inst org len)

/-- TMB_FREE (R395). -/
def execTmbFree (inst : Fin 4096) (org : Origin) (s : State) : Res := liveWin (.tmbFree inst org) org s (doTmbFree inst org)

/-- TMB_DN_LOCK_ACQUIRE (R396). -/
def execTmbDnLockAcquire (inst : Fin 4096) (org : Origin) (s : State) : Res :=
  liveWin (.tmbDnLockAcquire inst org) org s (doDnLockAcquire inst org)

/-- TMB_DN_LOCK_RELEASE (R396). -/
def execTmbDnLockRelease (inst : Fin 4096) (org : Origin) (s : State) : Res :=
  liveWin (.tmbDnLockRelease inst org) org s (doDnLockRelease inst org)

/-- VIVEL_HELLO (R397, R403, R404). -/
def execVivelHello (inst : Fin 4096) (s : State) : Res := liveSys s (Sys.vivelHello inst)

/-- MSG_CTLe with MASK 0, as a write of the instance window. -/
def doMsgUnmask (i e : Nat) (y : Sys) : Sys := doRegWrite .tenant (i * 0x4000 + 0x300C + 16 * e) 0 y

/-- MSG_UNMASK (R409). -/
def execMsgUnmask (inst : Fin 4096) (e : Fin 4) (s : State) : Res :=
  liveWin (.msgUnmask inst e) .tenant s (doMsgUnmask inst e)

/-- A vector's control dword with the mask bit 0, as a write of the manager window. -/
def doMsixUnmask (v : Nat) (y : Sys) : Sys := doRegWrite .manager (0xFE00C + 16 * v) 0 y

/-- MSIX_UNMASK (R372). -/
def execMsixUnmask (vec : Fin 64) (s : State) : Res := liveWin (.msixUnmask vec) .manager s (doMsixUnmask vec)

/-- The window that a master's access uses; masters without one access internally (R16, R458). -/
def masterWin (m : Nat) : Origin := if m = 18 then .manager else .smbus

/-- An internal mailbox's post is an eligible event of its page (R568). -/
def doMbxPostC (j m len : Nat) (y : Sys) : Sys :=
  let z := doMbxPost j m len y
  if z.eng.mbx = y.eng.mbx then z else z.carry (mbxPg j)

/-- MBX_POST (R459, R460, R463). -/
def execMbxPost (j : Fin 32) (master : Fin 20) (len : Fin 32) (s : State) : Res :=
  liveWin (.mbxPost j master len) (masterWin master) s (doMbxPostC j master len)

/-- MBX_FREE (R459). -/
def execMbxFree (j : Fin 32) (master : Fin 20) (s : State) : Res :=
  liveWin (.mbxFree j master) (masterWin master) s (doMbxFree j master)

/-- MBX_LOCK_ACQUIRE (R460). -/
def execMbxLockAcquire (j : Fin 32) (master : Fin 20) (s : State) : Res :=
  liveWin (.mbxLockAcquire j master) (masterWin master) s (doMbxLock j master)

/-- MBX_LOCK_RELEASE (R460). -/
def execMbxLockRelease (j : Fin 32) (master : Fin 20) (s : State) : Res :=
  liveWin (.mbxLockRelease j master) (masterWin master) s (doMbxUnlock j master)

end Sys2Proof.Machine
end

