-- ==== Sys2Proof/Machine/CmdSmb.lean ====
section
/-! DEFINITION. The SMBus target (R549-R553). -/

namespace Sys2Proof.Machine

/-- SNW_SMB_CNT.XFERS: a transaction has been completed (R554). -/
def Sys.smbDone (y : Sys) : Sys := y.incFld (onePg .snw 2) 0x50 15 0

/-- SNW_SMB_CNT.ERRS: a PEC failure or a timeout (R554). -/
def Sys.smbCount (y : Sys) : Sys := y.incFld (onePg .snw 2) 0x50 31 16

/-- The PEC of a write (R549): a wrong one is counted; the Bool says whether the write is taken. -/
def Sys.smbPec (pec : Option Bool) (y : Sys) : Bool × Sys :=
  let req := (y.nv.last 284).bit 8
  match pec with
  | some true => (true, y)
  | some false => (!req, y.smbCount)
  | none => (!req, y)

/-- The pointer after `n` bytes (R550). Where it goes at the end of the range is not stated: a free place in it. -/
def Sys.smbStep (n : Nat) (y : Sys) : Sys :=
  if y.smb.ptr + n < 0xB00000 then { y with smb := { y.smb with ptr := y.smb.ptr + n } }
  else { y with smb := { y.smb with ptr := 0xA00000 + (Config.freeWord y.fresh).toNat % 0x100000 }, fresh := y.fresh + 1 }

/-- A dword read over SMBus (R551): the value, and the state after. Beyond the range nothing is stated: a free value. -/
def Sys.smbRead (off : Nat) (y : Sys) : Word × Sys :=
  if off < 0xB00000 then
    let z := readBy Sys.rdNow .smbus off y
    match z.out with
    | .cpl .smbus _ v :: r => (v, { z with out := r })
    | _ => (0, z)
  else (Config.freeWord y.fresh, { y with fresh := y.fresh + 1 })

/-- The NV register that an SMBus read at a manager-window offset reaches. -/
def smbNv (off : Nat) : Option Nat :=
  match target .smbus off with
  | .page g o => nvAt g o
  | _ => none

/-- A Block Read goes on (R550, R551): dword after dword from the pointer on, until one has writes before it that are not durable;
with all of them read its bytes go out and the pointer moves. -/
def Sys.smbGo (fuel : Nat) (y : Sys) : Sys :=
  match fuel, y.smb.run with
  | 0, _ | _, none => y
  | fuel + 1, some r =>
    if 0 < r.left then y
    else if r.n ≤ r.got.length then
      ((({ y with smb := { y.smb with run := none } }).emit (.smb (dwBytes r.got))).smbStep (4 * r.n)).smbDone
    else
      let off := y.smb.ptr + 4 * r.got.length
      let w := match smbNv off with | some j => (j, y.nv.before j) | none => (0, 0)
      if 0 < w.2 && !r.waited then
        { y with smb := { y.smb with run := some { r with reg := w.1, left := w.2, waited := true } } }
      else
        let a := y.smbRead off
        ({ a.2 with smb := { a.2.smb with run := some { r with got := r.got ++ [a.1], waited := false } } }).smbGo fuel

/-- PTR (R550). -/
def Sys.smbPtr (w : Option Word) (pec : Option Bool) (y : Sys) : Sys :=
  match w with
  | none => (y.emit (.smb (dwBytes [Word.ofN y.smb.ptr]))).smbDone
  | some v =>
    if v.toNat < 0xA00000 ∨ 0xB00000 ≤ v.toNat then y.emit .smbNak
    else
      let r := y.smbPec pec
      (if r.1 then { r.2 with smb := { r.2.smb with ptr := v.toNat } } else r.2).smbDone

/-- DATA (R550, R551). -/
def Sys.smbData (w : Option Word) (pec : Option Bool) (y : Sys) : Sys :=
  match w with
  | none => ({ y with smb := { y.smb with run := some { n := 1 } } }).smbGo 3
  | some v =>
    let r := y.smbPec pec
    (if r.1 then (doRegWrite .smbus r.2.smb.ptr v r.2).smbStep 4 else r.2).smbDone

/-- BURST (R550, R551). -/
def Sys.smbBurst (y : Sys) : Sys := ({ y with smb := { y.smb with run := some { n := 8 } } }).smbGo 10

/-- Monitors of a range with a sample. -/
def Sys.sampled (y : Sys) (lo n : Nat) : List Nat := ((List.range n).map (lo + ·)).filter fun m => FMap.get false m y.mari.valid

/-- The first monitor of a list whose sample is greatest (or least, with `neg`). -/
def Sys.peak (y : Sys) (neg : Bool) : List Nat → Option Nat
  | [] => none
  | m :: r =>
    let v := fun (m : Nat) => let s := monInt m (FMap.get 0 m y.mari.sample); if neg then -s else s
    match y.peak neg r with
    | none => some m
    | some k => if v m < v k then some k else some m

/-- A sample of SUMMARY; without one its value is not stated: free dword `d`. -/
def Sys.peakVal (y : Sys) (m : Option Nat) (d : Nat) : Nat × Nat :=
  match m with
  | some m => (FMap.get 0 m y.mari.sample, m)
  | none => ((Config.freeWord (y.fresh + d)).fld 15 0, (Config.freeWord (y.fresh + d)).fld 23 16)

/-- FLAGS of SUMMARY (R552). -/
def Sys.smbFlags (y : Sys) : Nat :=
  let c := fun (k : Nat) => FMap.get false k y.mari.cond
  let any := fun (lo n : Nat) (f : Nat → Bool) => ((List.range n).map (lo + ·)).any f
  bitAt 0 (any 0 13 fun m => c (3 * m)) + bitAt 1 (any 0 13 fun m => c (3 * m + 2)) +
    bitAt 2 (any 13 24 fun m => c (3 * m) || c (3 * m + 1)) + bitAt 3 (any 37 10 fun m => c (3 * m) || c (3 * m + 1)) +
    bitAt 4 ((y.pgReg nvsPg 0x18).bit 8) + bitAt 5 (decide (y.nv.free ≤ (y.pgReg nvsPg 0x40).fld 14 8)) +
    bitAt 6 y.mari.everUnc + bitAt 7 y.mari.everTrip

/-- SUMMARY's bytes (R552). Before the first window has closed its number is not stated: a free value. -/
def Sys.summary (y : Sys) : List Byte :=
  let t := y.peakVal (y.peak false (y.sampled 0 13)) 0
  let vin := y.peakVal (y.sampled 13 1).head? 1
  let vc := y.peakVal (y.peak true (y.sampled 15 12)) 2
  let p := y.peakVal (y.peak true (y.sampled 37 10)) 3
  let win := if y.mari.win = 0 then Config.freeWord (y.fresh + 4) else Word.ofN (y.mari.win - 1)
  let sensor := if (y.sampled 37 10).isEmpty then p.2 else p.2 - 37
  let b := fun (n : Nat) => BitVec.ofNat 8 n
  [b t.1, b (t.1 / 256), b t.2, b y.smbFlags, b vin.1, b (vin.1 / 256), b vc.1, b (vc.1 / 256), b p.1, b sensor, b y.nv.free,
   b y.ldr.phase.code] ++ dwBytes [win, Word.ofN (y.tb / 1000000)] ++ List.replicate 12 0

/-- SUMMARY (R550, R552). -/
def Sys.smbSummary (y : Sys) : Sys := ({ (y.emit (.smb y.summary)) with fresh := y.fresh + 5 }).smbDone

/-- The target wins an Alert Response Address read (R553). The lowest bit of the byte it sends is not stated: a free value. -/
def Sys.alertRead (y : Sys) : Sys :=
  let w := y.nv.last 284
  let a := if smbBad w then 0x6A else w.fld 6 0
  let b := BitVec.ofNat 8 (2 * a + (Config.freeWord y.fresh).fld 0 0)
  (({ y with smb := { y.smb with alert := false }, fresh := y.fresh + 1 }).emit (.smb [b])).smbDone

/-- Whether the SMBus target acts: not in a boundary test, which has its balls (R590, R591), and not while it stretches SCL. -/
def Sys.smbOn (y : Sys) : Bool := !y.jtag.test && y.smb.run.isNone

/-- SMB_PTR (R549, R550). -/
def execSmbPtr (write : Option Word) (pecOk : Option Bool) (s : State) : Res :=
  liveSys s fun y => if y.smbOn then y.smbPtr write pecOk else y

/-- SMB_DATA (R549-R551). -/
def execSmbData (write : Option Word) (pecOk : Option Bool) (s : State) : Res :=
  liveSys s fun y => if y.smbOn then y.smbData write pecOk else y

/-- SMB_BURST (R550, R551). -/
def execSmbBurst (s : State) : Res := liveSys s fun y => if y.smbOn then y.smbBurst else y

/-- SMB_SUMMARY (R550, R552). -/
def execSmbSummary (s : State) : Res := liveSys s fun y => if y.smbOn then y.smbSummary else y

/-- SMB_TIMEOUT (R550, R554): nothing but the count changes; a read that still stretches SCL is over. -/
def execSmbTimeout (s : State) : Res :=
  liveSys s fun y => if y.jtag.test then y else ({ y with smb := { y.smb with run := none } }).smbCount

/-- ALERT_RESPONSE (R553): the target answers while it asserts SMBALERT#. -/
def execAlertResponse (s : State) : Res := liveSys s fun y => if y.smbOn && y.smb.alert then y.alertRead else y

end Sys2Proof.Machine
end

