-- ==== Sys2Proof/Machine/CmdRegs.lean ====
section
/-! DEFINITION. The commands that are register accesses of any page, staged registers and commits, and the acceptance of a held NV
write with the window accesses that waited behind it (R11-R13, R47-R56, R60-R62, R75, R78, R80-R85, R568). -/

namespace Sys2Proof.Machine

/-! ## Accesses -/

/-- REGISTER_WRITE (R11, R614). -/
def execRegisterWrite (org : Origin) (off : Fin 67108864) (val : Word) (s : State) : Res :=
  liveWin (.registerWrite org off val) org s (doRegWrite org off val)

/-- REGISTER_READ (R11, R12, R49). -/
def execRegisterRead (org : Origin) (off : Fin 67108864) (s : State) : Res :=
  liveWin (.registerRead org off) org s (doRegRead org off)

/-- ACCESS_ERROR (R47). -/
def execAccessError (org : Origin) (off : Fin 67108864) (isRead : Bool) (s : State) : Res :=
  liveWin (.accessError org off isRead) org s (doAccErr org off isRead)

/-- UNSUPPORTED_REQUEST (R48, R54, R71, R418). -/
def execUnsupportedRequest (org : Origin) (off : Fin 67108864) (isRead : Bool) (s : State) : Res :=
  liveWin (.unsupportedRequest org off isRead) org s (doUr org off isRead)

/-! ## Staged registers -/

/-- Whether an offset names a staged register's shadow copy (R80). -/
def isStaged (org : Origin) (off : Nat) : Bool :=
  match target org off with
  | .page g o => g.stagedPage && decide (0x40 ≤ o) && decide (o < 0x800) && (regDesc? g.blk g.page o).isSome
  | _ => false

/-- A write of a staged register. -/
def doStaged (org : Origin) (off : Nat) (v : Word) (y : Sys) : Sys := if isStaged org off then doRegWrite org off v y else y

/-- STAGED_WRITE (R80). -/
def execStagedWrite (org : Origin) (off : Fin 67108864) (val : Word) (s : State) : Res :=
  liveWin (.stagedWrite org off val) org s (doStaged org off val)

/-- A write of a common-header register of the page at `page` × 0x1000. -/
def doHeader (org : Origin) (page o : Nat) (v : Word) (y : Sys) : Sys :=
  match target org (page * 0x1000) with
  | .page _ _ => doRegWrite org (page * 0x1000 + o) v y
  | _ => y

/-- DISCARD (R62). -/
def execDiscard (org : Origin) (page : Fin 8192) (s : State) : Res :=
  liveWin (.discard org page) org s (doHeader org page 0x10 1)

/-- TEN_COMMIT as an access of the manager window. -/
def doTenCommit (gen : Nat) (y : Sys) : Sys :=
  y.viaPage .manager tenPg 0x40 false fun y => ((y.commitWrite gen).2).carry tenPg

/-- TEN_COMMIT (R82, R84, R393). -/
def execTenCommit (gen : Fin 65536) (s : State) : Res := liveWin (.tenCommit gen) .manager s (doTenCommit gen)

/-- TEN_COMMIT.DISCARD_ALL as an access of the manager window. -/
def doDiscardAll (y : Sys) : Sys := y.viaPage .manager tenPg 0x40 false Sys.discardAll

/-- DISCARD_ALL (R81, R84). -/
def execDiscardAll (s : State) : Res := liveWin .discardAll .manager s doDiscardAll

/-- The commit point is a microframe boundary of the timebase: the next, where it has not passed (R82). -/
def Sys.toCommit (y : Sys) : Sys :=
  if (y.host.commitMf + 4294967296 - y.mf) % 4294967296 = 1 then { y with tb := (y.tb / 125 + 1) * 125 } else y

/-- COMMIT_POINT (R82, R83). -/
def execCommitPoint (s : State) : Res :=
  liveSys s fun y =>
    if y.on 16 && !y.halted tenPg && y.host.commitBusy && !y.host.commitPast then y.toCommit.commitPoint else y

/-- ERROR_INJECT (R68, R568, R569). -/
def execErrorInject (org : Origin) (page : Fin 8192) (val : Word) (s : State) : Res :=
  liveWin (.errorInject org page val) org s (doHeader org page 0x28 val)

/-! ## Held NV writes (R49, R75, R78) -/

/-- The effect of a window access that had waited. Every constructor that can wait has its access here; the others never do. -/
def waited : Instr → Sys → Sys
  | .registerWrite org off v => doRegWrite org off v
  | .registerRead org off => doRegRead org off
  | .accessError org off r => doAccErr org off r
  | .unsupportedRequest org off r => doUr org off r
  | .nvWrite org j v => doNvWrite org j v
  | .stagedWrite org off v => doStaged org off v
  | .discard org page => doHeader org page 0x10 1
  | .tenCommit gen => doTenCommit gen
  | .discardAll => doDiscardAll
  | .errorInject org page v => doHeader org page 0x28 v
  | .imageWrite off d => doImage off d
  | .paceThrWrite n v => doPaceThrWrite n v
  | .dbWake i r => doDbWake i r
  | .dbEnable i r => doDbEnable i r
  | .dbDisable i r => doDbDisable i r
  | .dbClearHalt i r e => doDbClearHalt i r e
  | .dbCmp i c => doDbCmp i c
  | .dbEvt i => doDbEvt i
  | .rngViewDisable => doViewDisable
  | .channelRestart org e c => doChanRestart org e c
  | .powerOn p => doPortCmd p 1
  | .powerOff p => doPortCmd p 2
  | .resetCmd p => doPortCmd p 3
  | .disableCmd p => doPortCmd p 4
  | .testModeSelect p sel => doPortTest p sel
  | .testModeClear p => doPortTest p 0
  | .portSuspendReq p rw => doPortSusp p false rw
  | .portResumeReq p rw => doPortSusp p true rw
  | .meqCiWrite v => doMeqCi v
  | .mcqEnable en => doMcqEn en
  | .meqEnable en => doMeqEn en
  | .mgrRestart => doMgrRestart
  | .tmbPost i org len => doTmbPostC i org len
  | .tmbFree i org => doTmbFree i org
  | .tmbDnLockAcquire i org => doDnLockAcquire i org
  | .tmbDnLockRelease i org => doDnLockRelease i org
  | .msgUnmask i e => doMsgUnmask i e
  | .msixUnmask v => doMsixUnmask v
  | .mbxPost j m len => doMbxPostC j m len
  | .mbxFree j m => doMbxFree j m
  | .mbxLockAcquire j m => doMbxLock j m
  | .mbxLockRelease j m => doMbxUnlock j m
  | .coreReset c => doCoreReset c
  | .cicClaim org c => doCicClaim org c
  | .cicFclaim org c => doCicFclaim org c
  | .cicComplete org c src => doCicComplete org c src
  | .cicFcomplete org c src => doCicFcomplete org c src
  | .cicSwi org t => doCicSwi org t
  | .cicPendClear org src => doCicPend org src
  | .ldrGo v => doLdrGo v
  | .domainRequest org d st => doDomReq org d st
  | .regionReset n => doRegionReset n
  | .portUnitReset p => doPortUnit p
  | .tlqCiWrite v => doTlqCi .manager v
  | .tbMfRead org => doTbMfRead org
  | _ => id

/-- What waited runs in order, until an NV write among it is held. -/
def Sys.waitRun (y : Sys) : Sys :=
  let cs := y.waitq
  each (fun c (y : Sys) => if y.nv.held.isEmpty && y.waitq.isEmpty then waited c y else { y with waitq := y.waitq ++ [c] }) cs
    { y with waitq := [] }

/-- NV_WRITE_DURABLE (R76, R77, R534, R537). -/
def execNvWriteDurable (s : State) : Res :=
  liveSys s fun y => if y.nv.bufs.isEmpty then y else (y.nvDurable.smbGo 10).carry nvsPg

/-- NV_WRITE_ACCEPT (R75, R78). -/
def execNvWriteAccept (s : State) : Res :=
  liveSys s fun y =>
    let r := y.nvTakeHeld
    (if r.1 && r.2.nv.held.isEmpty then r.2.waitRun else r.2).smbGo 10

end Sys2Proof.Machine
end

