-- ==== Sys2Proof/Machine/Dispatch.lean ====
section
/-! DEFINITION. One arm per command: each calls its own meaning. -/

namespace Sys2Proof.Machine

/-- What a command does to everything but the queue. -/
def exec (i : Instr) (s : State) : Host.Outcome State Fault Refusal :=
  match i with
  | .registerWrite org off val => Sys2Proof.Machine.execRegisterWrite org off val s
  | .accessError org off isRead => Sys2Proof.Machine.execAccessError org off isRead s
  | .unsupportedRequest org off isRead => Sys2Proof.Machine.execUnsupportedRequest org off isRead s
  | .nvWrite org j val => Sys2Proof.Machine.execNvWrite org j val s
  | .nvWriteAccept => Sys2Proof.Machine.execNvWriteAccept s
  | .nvWriteDurable => Sys2Proof.Machine.execNvWriteDurable s
  | .stagedWrite org off val => Sys2Proof.Machine.execStagedWrite org off val s
  | .discard org page => Sys2Proof.Machine.execDiscard org page s
  | .tenCommit gen => Sys2Proof.Machine.execTenCommit gen s
  | .discardAll => Sys2Proof.Machine.execDiscardAll s
  | .commitPoint => Sys2Proof.Machine.execCommitPoint s
  | .errorInject org page val => Sys2Proof.Machine.execErrorInject org page val s
  | .imageWrite off data => Sys2Proof.Machine.execImageWrite off data s
  | .paceEvaluation region pace => Sys2Proof.Machine.execPaceEvaluation region pace s
  | .paceThrWrite region val => Sys2Proof.Machine.execPaceThrWrite region val s
  | .frameStart port => Sys2Proof.Machine.execFrameStart port s
  | .transactionEnd port out x => Sys2Proof.Machine.execTransactionEnd port out x s
  | .inPacket port data pid good => Sys2Proof.Machine.execInPacket port data pid good s
  | .busBabble port => Sys2Proof.Machine.execBusBabble port s
  | .dbWake inst ring => Sys2Proof.Machine.execDbWake inst ring s
  | .dbEnable inst ring => Sys2Proof.Machine.execDbEnable inst ring s
  | .dbDisable inst ring => Sys2Proof.Machine.execDbDisable inst ring s
  | .dbClearHalt inst ring epid => Sys2Proof.Machine.execDbClearHalt inst ring epid s
  | .dbCmp inst c => Sys2Proof.Machine.execDbCmp inst c s
  | .dbEvt inst => Sys2Proof.Machine.execDbEvt inst s
  | .rngViewDisable => Sys2Proof.Machine.execRngViewDisable s
  | .descriptorFetch inst ring rd => Sys2Proof.Machine.execDescriptorFetch inst ring rd s
  | .contextFetch inst ring rd => Sys2Proof.Machine.execContextFetch inst ring rd s
  | .dispatch inst ring entry => Sys2Proof.Machine.execDispatch inst ring entry s
  | .transferTimeout inst ring entry => Sys2Proof.Machine.execTransferTimeout inst ring entry s
  | .flushingReadDone inst ok => Sys2Proof.Machine.execFlushingReadDone inst ok s
  | .modIntervalExpiry inst ring => Sys2Proof.Machine.execModIntervalExpiry inst ring s
  | .entryScanRead inst ring rd => Sys2Proof.Machine.execEntryScanRead inst ring rd s
  | .eventDelivery => Sys2Proof.Machine.execEventDelivery s
  | .spqWalk => Sys2Proof.Machine.execSpqWalk s
  | .dmaBurstStart eng ch => Sys2Proof.Machine.execDmaBurstStart eng ch s
  | .dmaReadCompletion eng ch rd => Sys2Proof.Machine.execDmaReadCompletion eng ch rd s
  | .dmaBurstEnd eng ch => Sys2Proof.Machine.execDmaBurstEnd eng ch s
  | .dmaAgeing eng ch => Sys2Proof.Machine.execDmaAgeing eng ch s
  | .channelRestart org eng ch => Sys2Proof.Machine.execChannelRestart org eng ch s
  | .firmwareDmaStart core ch => Sys2Proof.Machine.execFirmwareDmaStart core ch s
  | .dcqCiWrite core val => Sys2Proof.Machine.execDcqCiWrite core val s
  | .pasidEnableChange en => Sys2Proof.Machine.execPasidEnableChange en s
  | .powerOn port => Sys2Proof.Machine.execPowerOn port s
  | .powerOff port => Sys2Proof.Machine.execPowerOff port s
  | .resetCmd port => Sys2Proof.Machine.execResetCmd port s
  | .disableCmd port => Sys2Proof.Machine.execDisableCmd port s
  | .vbusStaggerStep region => Sys2Proof.Machine.execVbusStaggerStep region s
  | .hpwrStaggerStep => Sys2Proof.Machine.execHpwrStaggerStep s
  | .powerGoodWaitEnd port => Sys2Proof.Machine.execPowerGoodWaitEnd port s
  | .connect port speed => Sys2Proof.Machine.execConnect port speed s
  | .debounceEnd port => Sys2Proof.Machine.execDebounceEnd port s
  | .disconnect port => Sys2Proof.Machine.execDisconnect port s
  | .enumStart => Sys2Proof.Machine.execEnumStart s
  | .resetSignalEnd port chirp => Sys2Proof.Machine.execResetSignalEnd port chirp s
  | .resetRecoveryEnd port connected => Sys2Proof.Machine.execResetRecoveryEnd port connected s
  | .slotGrant => Sys2Proof.Machine.execSlotGrant s
  | .enumRequestComplete port tier res => Sys2Proof.Machine.execEnumRequestComplete port tier res s
  | .enumRequestTimeout port tier => Sys2Proof.Machine.execEnumRequestTimeout port tier s
  | .setAddressRecoveryEnd port tier => Sys2Proof.Machine.execSetAddressRecoveryEnd port tier s
  | .portMeasurement port c5 ch => Sys2Proof.Machine.execPortMeasurement port c5 ch s
  | .ocHardTrip port => Sys2Proof.Machine.execOcHardTrip port s
  | .ocRetryExpiry port => Sys2Proof.Machine.execOcRetryExpiry port s
  | .ocRetryClear port => Sys2Proof.Machine.execOcRetryClear port s
  | .testModeSelect port sel => Sys2Proof.Machine.execTestModeSelect port sel s
  | .testModeClear port => Sys2Proof.Machine.execTestModeClear port s
  | .testClearEnd port => Sys2Proof.Machine.execTestClearEnd port s
  | .hubRequestComplete port tier res => Sys2Proof.Machine.execHubRequestComplete port tier res s
  | .hubPowerGoodEnd port tier => Sys2Proof.Machine.execHubPowerGoodEnd port tier s
  | .hubStatusChange port tier hubPort chg => Sys2Proof.Machine.execHubStatusChange port tier hubPort chg s
  | .hubPortDebounceEnd port tier connected => Sys2Proof.Machine.execHubPortDebounceEnd port tier connected s
  | .hubResetTimeout port tier => Sys2Proof.Machine.execHubResetTimeout port tier s
  | .hubResetRecoveryEnd port tier => Sys2Proof.Machine.execHubResetRecoveryEnd port tier s
  | .portSuspendReq port rwakeEn => Sys2Proof.Machine.execPortSuspendReq port rwakeEn s
  | .portResumeReq port rwakeEn => Sys2Proof.Machine.execPortResumeReq port rwakeEn s
  | .suspendEntryEnd port tier => Sys2Proof.Machine.execSuspendEntryEnd port tier s
  | .resumeSignalEnd port => Sys2Proof.Machine.execResumeSignalEnd port s
  | .resumeRecoveryEnd port tier => Sys2Proof.Machine.execResumeRecoveryEnd port tier s
  | .hubResumeTimeout port tier => Sys2Proof.Machine.execHubResumeTimeout port tier s
  | .remoteWake port tier => Sys2Proof.Machine.execRemoteWake port tier s
  | .scanKbdReport slot rep poison => Sys2Proof.Machine.execScanKbdReport slot rep poison s
  | .scanPosReport slot rep => Sys2Proof.Machine.execScanPosReport slot rep s
  | .scanGapExpiry slot => Sys2Proof.Machine.execScanGapExpiry slot s
  | .scaleReport slot rep => Sys2Proof.Machine.execScaleReport slot rep s
  | .scaleStabilityExpiry slot timer => Sys2Proof.Machine.execScaleStabilityExpiry slot timer s
  | .printerStatusBlock slot blk poison => Sys2Proof.Machine.execPrinterStatusBlock slot blk poison s
  | .printerStatusPoll slot => Sys2Proof.Machine.execPrinterStatusPoll slot s
  | .printerOutNotice slot => Sys2Proof.Machine.execPrinterOutNotice slot s
  | .powerChangeNotice slot => Sys2Proof.Machine.execPowerChangeNotice slot s
  | .printerIdleExpiry slot => Sys2Proof.Machine.execPrinterIdleExpiry slot s
  | .drawerSenseReport slot rep poison => Sys2Proof.Machine.execDrawerSenseReport slot rep poison s
  | .drawerSenseExpiry slot => Sys2Proof.Machine.execDrawerSenseExpiry slot s
  | .kick slot tag pulseMs => Sys2Proof.Machine.execKick slot tag pulseMs s
  | .kickGapExpiry slot => Sys2Proof.Machine.execKickGapExpiry slot s
  | .pulseExpiry slot => Sys2Proof.Machine.execPulseExpiry slot s
  | .openWaitExpiry slot => Sys2Proof.Machine.execOpenWaitExpiry slot s
  | .clear slot tag => Sys2Proof.Machine.execClear slot tag s
  | .text slot tag line col chars => Sys2Proof.Machine.execText slot tag line col chars s
  | .bright slot tag level => Sys2Proof.Machine.execBright slot tag level s
  | .keyboardReport slot rep poison => Sys2Proof.Machine.execKeyboardReport slot rep poison s
  | .personalityRequestComplete slot res => Sys2Proof.Machine.execPersonalityRequestComplete slot res s
  | .mcqTake rd => Sys2Proof.Machine.execMcqTake rd s
  | .hello idx => Sys2Proof.Machine.execHello idx s
  | .createInstance idx => Sys2Proof.Machine.execCreateInstance idx s
  | .destroyInstance idx => Sys2Proof.Machine.execDestroyInstance idx s
  | .resetInstance idx => Sys2Proof.Machine.execResetInstance idx s
  | .vivelAgree idx => Sys2Proof.Machine.execVivelAgree idx s
  | .createRing idx => Sys2Proof.Machine.execCreateRing idx s
  | .destroyRing idx => Sys2Proof.Machine.execDestroyRing idx s
  | .assignDevice idx => Sys2Proof.Machine.execAssignDevice idx s
  | .unassignDevice idx => Sys2Proof.Machine.execUnassignDevice idx s
  | .selectConfig idx => Sys2Proof.Machine.execSelectConfig idx s
  | .openEndpoint idx => Sys2Proof.Machine.execOpenEndpoint idx s
  | .closeEndpoint idx => Sys2Proof.Machine.execCloseEndpoint idx s
  | .normalise idx hid => Sys2Proof.Machine.execNormalise idx hid s
  | .unbind idx => Sys2Proof.Machine.execUnbind idx s
  | .sealDevice idx => Sys2Proof.Machine.execSealDevice idx s
  | .loadParams idx rd => Sys2Proof.Machine.execLoadParams idx rd s
  | .portCmd idx => Sys2Proof.Machine.execPortCmd idx s
  | .suspend idx => Sys2Proof.Machine.execSuspend idx s
  | .resume idx => Sys2Proof.Machine.execResume idx s
  | .deviceReset idx => Sys2Proof.Machine.execDeviceReset idx s
  | .bindQueue idx => Sys2Proof.Machine.execBindQueue idx s
  | .commit idx => Sys2Proof.Machine.execCommit idx s
  | .meqCiWrite val => Sys2Proof.Machine.execMeqCiWrite val s
  | .mcqEnable en => Sys2Proof.Machine.execMcqEnable en s
  | .meqEnable en => Sys2Proof.Machine.execMeqEnable en s
  | .mgrRestart => Sys2Proof.Machine.execMgrRestart s
  | .tmbPost inst org len => Sys2Proof.Machine.execTmbPost inst org len s
  | .tmbFree inst org => Sys2Proof.Machine.execTmbFree inst org s
  | .tmbDnLockAcquire inst org => Sys2Proof.Machine.execTmbDnLockAcquire inst org s
  | .tmbDnLockRelease inst org => Sys2Proof.Machine.execTmbDnLockRelease inst org s
  | .vivelHello inst => Sys2Proof.Machine.execVivelHello inst s
  | .msgUnmask inst e => Sys2Proof.Machine.execMsgUnmask inst e s
  | .msixUnmask vec => Sys2Proof.Machine.execMsixUnmask vec s
  | .mbxPost j master len => Sys2Proof.Machine.execMbxPost j master len s
  | .mbxFree j master => Sys2Proof.Machine.execMbxFree j master s
  | .mbxLockAcquire j master => Sys2Proof.Machine.execMbxLockAcquire j master s
  | .mbxLockRelease j master => Sys2Proof.Machine.execMbxLockRelease j master s
  | .itemDispatch => Sys2Proof.Machine.execItemDispatch s
  | .itemEnd core => Sys2Proof.Machine.execItemEnd core s
  | .watchdogExpiry core => Sys2Proof.Machine.execWatchdogExpiry core s
  | .coreReset core => Sys2Proof.Machine.execCoreReset core s
  | .coreReloadEnd core poisoned => Sys2Proof.Machine.execCoreReloadEnd core poisoned s
  | .allStoppedExpiry => Sys2Proof.Machine.execAllStoppedExpiry s
  | .delayTick list => Sys2Proof.Machine.execDelayTick list s
  | .deviceContextFetch slot => Sys2Proof.Machine.execDeviceContextFetch slot s
  | .cicSourceAssert src => Sys2Proof.Machine.execCicSourceAssert src s
  | .cicClaim org c => Sys2Proof.Machine.execCicClaim org c s
  | .cicFclaim org c => Sys2Proof.Machine.execCicFclaim org c s
  | .cicComplete org c src => Sys2Proof.Machine.execCicComplete org c src s
  | .cicFcomplete org c src => Sys2Proof.Machine.execCicFcomplete org c src s
  | .cicSwi org target => Sys2Proof.Machine.execCicSwi org target s
  | .cicPendClear org src => Sys2Proof.Machine.execCicPendClear org src s
  | .powerOnResetEnd compat testen => Sys2Proof.Machine.execPowerOnResetEnd compat testen s
  | .vinFail kept => Sys2Proof.Machine.execVinFail kept s
  | .perstAssert => Sys2Proof.Machine.execPerstAssert s
  | .perstDeassert => Sys2Proof.Machine.execPerstDeassert s
  | .loaderWindowReady => Sys2Proof.Machine.execLoaderWindowReady s
  | .ldrGo val => Sys2Proof.Machine.execLdrGo val s
  | .ldqCopy entry rd => Sys2Proof.Machine.execLdqCopy entry rd s
  | .ldqGo entry => Sys2Proof.Machine.execLdqGo entry s
  | .verificationEnd ms sramErr => Sys2Proof.Machine.execVerificationEnd ms sramErr s
  | .managerReady ms => Sys2Proof.Machine.execManagerReady ms s
  | .fwFail code ms => Sys2Proof.Machine.execFwFail code ms s
  | .fwTimeout => Sys2Proof.Machine.execFwTimeout s
  | .domainRequest org dom st => Sys2Proof.Machine.execDomainRequest org dom st s
  | .quiesceDrainEnd dom => Sys2Proof.Machine.execQuiesceDrainEnd dom s
  | .drainTimeout dom => Sys2Proof.Machine.execDrainTimeout dom s
  | .domainTransitionEnd dom => Sys2Proof.Machine.execDomainTransitionEnd dom s
  | .wakeLatch src => Sys2Proof.Machine.execWakeLatch src s
  | .d3hotEntry => Sys2Proof.Machine.execD3hotEntry s
  | .d0Entry => Sys2Proof.Machine.execD0Entry s
  | .railpgGood => Sys2Proof.Machine.execRailpgGood s
  | .railpgLoss => Sys2Proof.Machine.execRailpgLoss s
  | .marigoldUnitStart => Sys2Proof.Machine.execMarigoldUnitStart s
  | .wearMigrationEnd j badSpares => Sys2Proof.Machine.execWearMigrationEnd j badSpares s
  | .telDue => Sys2Proof.Machine.execTelDue s
  | .telUnitEnd samples => Sys2Proof.Machine.execTelUnitEnd samples s
  | .tlqCiWrite val => Sys2Proof.Machine.execTlqCiWrite val s
  | .scrubLineDue mem => Sys2Proof.Machine.execScrubLineDue mem s
  | .scrubUnitEnd mem corrected multi => Sys2Proof.Machine.execScrubUnitEnd mem corrected multi s
  | .scrubPeriodEnd mem => Sys2Proof.Machine.execScrubPeriodEnd mem s
  | .calPeriodExpiry region => Sys2Proof.Machine.execCalPeriodExpiry region s
  | .calStepEnd port atEnd => Sys2Proof.Machine.execCalStepEnd port atEnd s
  | .calDeferExpiry port => Sys2Proof.Machine.execCalDeferExpiry port s
  | .fullCalibrationEnd region => Sys2Proof.Machine.execFullCalibrationEnd region s
  | .tbMfRead org => Sys2Proof.Machine.execTbMfRead org s
  | .smbPtr write pecOk => Sys2Proof.Machine.execSmbPtr write pecOk s
  | .smbData write pecOk => Sys2Proof.Machine.execSmbData write pecOk s
  | .smbBurst => Sys2Proof.Machine.execSmbBurst s
  | .smbSummary => Sys2Proof.Machine.execSmbSummary s
  | .smbTimeout => Sys2Proof.Machine.execSmbTimeout s
  | .alertResponse => Sys2Proof.Machine.execAlertResponse s
  | .functionReset => Sys2Proof.Machine.execFunctionReset s
  | .regionReset region => Sys2Proof.Machine.execRegionReset region s
  | .portUnitReset port => Sys2Proof.Machine.execPortUnitReset port s
  | .extest => Sys2Proof.Machine.execExtest s
  | .idcode => Sys2Proof.Machine.execIdcode s
  | .samplePreload balls => Sys2Proof.Machine.execSamplePreload balls s
  | .clamp => Sys2Proof.Machine.execClamp s
  | .highz => Sys2Proof.Machine.execHighz s
  | .bypass => Sys2Proof.Machine.execBypass s
  | .tapReset => Sys2Proof.Machine.execTapReset s
  | .cellFault page err detail addr => Sys2Proof.Machine.execCellFault page err detail addr s
  | .cicSourceRelease src => Sys2Proof.Machine.execCicSourceRelease src s
  | .pcieReceiveError err => Sys2Proof.Machine.execPcieReceiveError err s
  | .registerRead org off => Sys2Proof.Machine.execRegisterRead org off s

end Sys2Proof.Machine
end

