-- ==== Sys2Proof/Machine/Step.lean ====
section
/-! DEFINITION. One step: the command at the front of the queue runs on the state with the queue's rest; with nothing
waiting, one microsecond of the timebase passes. -/

namespace Sys2Proof.Machine

/-- The state with `c` at the front of the queue. -/
def State.enqueueFront (s : State) (c : Instr) : State := { s with pending := c :: s.pending }

/-- One tick of the timebase (R24), in which the interrupt controller samples its sources (R449).  DESIGN CHOICE (log 2): it is what a
step does on an empty queue. -/
def State.tick (s : State) : State :=
  if s.vin then { s with sys := { s.sys with tb := s.sys.tb + 1 }.cicSample } else s

/-- One step. -/
def step (s : State) : Host.Outcome State Fault Refusal :=
  match s.pending with
  | [] => .next s.tick
  | c :: rest => exec c { s with pending := rest }

/-- The state with the command that the word spells at the front of its queue; unchanged where it spells none. -/
def State.withFetchWord (s : State) (nbits w : Nat) : State :=
  match decodeTableWord nbits w with
  | some c => s.enqueueFront c
  | none => s

end Sys2Proof.Machine
end

