-- ==== Sys2Proof/Safety.lean ====
section
/-! DEFINITION. What a safe run is: no step stops; and the forms in which the block's storage is held. -/

namespace Sys2Proof.Machine

/-- The step answers a next state. -/
def Runs (s : State) : Prop := ∃ t, step s = .next t

/-- The chip operates as the manual states: VIN is in range (R497) and no factory test mode holds (R588). -/
def State.operates (s : State) : Bool := s.vin && !s.testen

/-- As `operates`, and no write waits for a buffer of the NV store, behind which an access through the windows would wait (R75). -/
def State.serves (s : State) (org : Origin) : Bool := s.operates && !winWaits s.sys org

/-- No error injection is armed on the block of page `g` (R568). -/
def Sys.unarmed (y : Sys) (g : Pg) : Bool :=
  g.blockPages.all fun q => !y.armed q 0 && !y.armed q 1 && !y.armed q 2

/-- Nothing differs but register contents, what has left the chip or waits to leave it, the pending bits of masked vectors, and the AER
status bits: what recording an error can change. -/
def Sys.reportsOnly (y t : Sys) : Prop :=
  t = { y with regs := t.regs, out := t.out, heldOut := t.heldOut,
               pins := { y.pins with aerCor := t.pins.aerCor, aerUnc := t.pins.aerUnc },
               host := { y.host with msixPend := t.host.msixPend } }

/-- As `reportsOnly`, and the host region's records: what an event for the manager or a tenant can change. -/
def Sys.tellsOnly (y t : Sys) : Prop :=
  t = { y with regs := t.regs, out := t.out, heldOut := t.heldOut,
               pins := { y.pins with aerCor := t.pins.aerCor, aerUnc := t.pins.aerUnc },
               host := t.host }

/-- No device, enumeration or transaction is on port `p`, no entry of its table is marked to leave, and no power request or manager
command waits. -/
def Sys.vacant (y : Sys) (p : Nat) : Prop :=
  y.slotsOf p = [] ∧ (∀ e ∈ y.usb.enums, e.port ≠ p) ∧ (y.port p).st.device = false ∧ (y.port p).susp = .active ∧
    (y.frame p).cur = none ∧ (y.frame p).cspOrder = [] ∧ (y.ptab p).leave = [] ∧ y.host.commitPast = false ∧ y.host.decust.cmds = [] ∧ y.usb.power.pend = []

/-- Slot `n` holds a device bound to personality `c` with the parameters of the table in force, and the chip has not failed. -/
def Sys.bound (y : Sys) (n c : Nat) : Prop :=
  y.contain.chipFault = false ∧ (y.slot n).used = true ∧ (y.slot n).pers.code = c ∧ y.freshParams n = y

/-- As `bound`, and the item of kind `k` that a core handles for the device, if one does, is not poisoned (R331). -/
def Sys.handles (y : Sys) (n c : Nat) (k : ItemK) : Prop := y.bound n c ∧ (y.itemNow n k).any (·.poison) = false

/-- Slot `n`'s personality as a report finds it: events name the endpoint of the report that a core handles (R362). -/
def Sys.persOf (y : Sys) (n : Nat) : Pers :=
  match y.itemNow n .report with
  | some i => { (y.slot n).pers with inEpid := i.epid }
  | none => (y.slot n).pers

/-- A personality whose timer `k` has been armed for `ms` from microsecond `t` on (R332). -/
def Sys.arms (y : Sys) (k : PTimer) (t ms : Nat) (p : Pers) : Pers :=
  { p with timers := FMap.put 0 k.tag (y.persDue t ms + 1) p.timers }

/-- A personality whose timer `k` is over. -/
def Pers.stops (p : Pers) (k : PTimer) : Pers := { p with timers := FMap.put 0 k.tag 0 p.timers }

/-- Instance `i` runs slot `n` and takes the events of the present revision (R406). -/
def Sys.hears (y : Sys) (n i : Nat) : Prop :=
  (y.slot n).inst = some i ∧ (y.inst i).st = .running ∧ y.is1x i = false

/-- A personality's event with its time, slot and port (R111, R362). -/
def Sys.persEv (y : Sys) (n ty epid time : Nat) (p : List Word) : Ev :=
  { ty := ty, mf := (time / 125) % 4294967296, us := time % 125, slot := n, port := (y.slot n).port, epid := epid, p := p }

/-- Exactly the events `es` of instance `i` wait more than before. -/
def Sys.evAdded (y t : Sys) (i : Nat) (es : List Ev) : Prop :=
  t.host.evq = y.host.evq ++ es.map fun e => { inst := i, seq := 0, ev := e }

/-- No slot but `n` has changed. -/
def Sys.keepsSlots (y t : Sys) (n : Nat) : Prop := ∀ m, m ≠ n → t.slot m = y.slot m

/-- The tenancy unit, HOST ON, holds the one command `c`, copied from MCQ entry `idx` with OPCODE `op`; it may start. -/
def Sys.holds (y : Sys) (idx op : Nat) (c : DCmd) : Prop :=
  y.tenWorks = true ∧ y.hostOn = true ∧ y.host.decust.cmds = [c] ∧ y.host.decust.restart = false ∧ c.idx = idx ∧ c.op = op ∧
    y.decStarts c = true

/-- The response record `dws` is written into MEQ, or waits on chip while MEQ's EN = 0 (R615), no QUEUE channel is idle (R188) or an
earlier response waits. -/
def Sys.responded (y t : Sys) (dws : List Word) : Prop :=
  (y.meqEn = true → t.queueChan = true → y.host.decust.resps = [] →
    ∃ k, .mem none false false (lohi (y.pgReg tenPg 0x64) (y.pgReg tenPg 0x68) + 64 * k)
      (dwBytes (Word.ofN 2 :: List.replicate 7 0 ++ dws)) ∈ t.out) ∧
  (y.meqEn = false ∨ (y.queueChan = false ∧ t.queueChan = false) ∨ y.host.decust.resps ≠ [] →
    t.host.decust.resps = y.host.decust.resps ++ [.resp dws])

/-- Command `c` is over, answered with status `st` and results `res` (R368). -/
def Sys.answered (y t : Sys) (c : DCmd) (st : Nat) (res : List Word) : Prop :=
  t.host.decust.cmds = [] ∧ y.responded t (y.respDws c.op c.tag c.idx st res)

/-- Master `m` reaches channel `j`'s register at relative offset `o` (R458, R461, R463). -/
def Sys.reaches (y : Sys) (j m o : Nat) (isRead : Bool) : Bool :=
  !y.noRecv j &&
    (if m = 18 then y.pageLets .manager (mbxPg j) (mbxOff j + o) isRead
     else if h : 1 ≤ m ∧ m ≤ 16 then y.pageLets (.core ⟨m - 1, by omega⟩) (mbxPg j) (mbxOff j + o) isRead
     else decide (m ≠ 0) && !y.halted (mbxPg j) && (y.on 17 || y.isRet 17) && !y.contain.chipFault && !(m == 19 && y.masterDown 19))

/-- No DMA channel but channel `c` of engine `e` carries a burst. -/
def Sys.lone (y : Sys) (e c : Nat) : Prop := ∀ m ∈ y.usb.dma, m.1 ≠ e * 32 + c → m.2.carries = false

/-- A command is carried out and leaves the block as `P` says; the queue, VIN and TESTEN stay as they are. -/
def Does (c : Instr) (s : State) (P : Sys → Prop) : Prop := ∃ t, exec c s = .next { s with sys := t } ∧ P t

/-- A command that is neither the end of power-on reset nor the failure of VIN. -/
def ordinary : Instr → Bool
  | .powerOnResetEnd .. | .vinFail _ => false
  | _ => true

/-- The canonical form of the shared SRAM: one cell an offset, in order, and no 0 listed while unlisted bytes read 0. -/
def Sram.canon (m : Sram) : Bool :=
  if m.zero then FMap.canon (fun _ => 0) m.cells else FMap.rising m.cells

/-- Equal contents of the register file, of the shared SRAM and of the cores' local SRAM are equal data. -/
def Sys.storageCanon (y : Sys) : Bool :=
  FMap.canon regReset y.regs && y.eng.sram.canon && FMap.canon (fun _ => none) y.eng.lsram

end Sys2Proof.Machine
end

