-- ==== Sys2Proof/Certificates/Slice0/Obligations.lean ====
section
/-! DEFINITION. What is to be proved of the model: a statement for every family of commands and every kind of state, each with the
states and operands it is said of, and what stays as it was. -/

open Sys2Proof Sys2Proof.Machine

/-! ## The machine -/

/-- A step of a state whose queue begins with `c` is `c` on the state with the queue's rest. -/
def Obligations.step_runs_front : Prop :=
  ∀ (s : State) (c : Instr), step (s.enqueueFront c) = exec c s

/-- DESIGN CHOICE (log 2): on an empty queue one microsecond of the timebase passes (R24), at which the interrupt
controller samples its inputs (R449), and nothing else changes; with SCHED OFF, time alone changes. While VIN is
out of range nothing passes (R497). -/
def Obligations.empty_queue_ticks : Prop :=
  ∀ s : State, s.pending = [] →
    step s = .next (if s.vin then { s with sys := { s.sys with tb := s.sys.tb + 1 }.cicSample } else s) ∧
    (s.vin = true → (s.sys.dom 17).st = .off → step s = .next { s with sys := { s.sys with tb := s.sys.tb + 1 } })

/-- Outside the factory test mode every command of the table completes: `exec` answers a next state in every state and with every operand
and leaves the queue's rest as it was; so no step stops, and the queue loses exactly its first command. It rests on the model's readings
of log 1. -/
def Obligations.commands_complete_in_turn : Prop :=
  (∀ (s : State) (c : Instr), s.testen = false → ∃ t, exec c s = .next t ∧ t.pending = s.pending) ∧
  ∀ s : State, s.testen = false → ∃ t, step s = .next t ∧ t.pending = s.pending.tail

/-- TESTEN is sampled at the end of power-on reset and at no other time (R588): a step that is not that end keeps what was sampled,
and power-on reset clears it. -/
def Obligations.testen_sampled_at_power_on_only : Prop :=
  ∀ s t : State, step s = .next t →
    (t.testen = s.testen ∧ t.vin = s.vin) ∨
    (∃ compat te r, s.pending = .powerOnResetEnd compat te :: r ∧ t.testen = te ∧ t.vin = true) ∨
    (∃ kept r, s.pending = .vinFail kept :: r ∧ t.testen = false ∧ t.vin = false)

/-- Out of service nothing is done. In the factory test mode no statement about operation holds (R588): every command but the end of
power-on reset and the failure of VIN stops. While VIN is out of range Snowdrop is held in power-on reset (R497): no command but these two
changes anything. It rests on the model's readings of log 7. -/
def Obligations.stopped_or_held_out_of_service : Prop :=
  (∀ (s : State) (c : Instr), s.testen = true → ordinary c = true → exec c s = .fault .factoryTest) ∧
  ∀ (s : State) (c : Instr), s.vin = false → s.testen = false → ordinary c = true → exec c s = .next s

/-- The register file, the shared SRAM and the cores' local SRAM keep their canonical form, whatever a step does. It rests on the model's
readings of log 5. -/
def Obligations.storage_stays_canonical : Prop :=
  ∀ s t : State, s.sys.storageCanon = true → step s = .next t → t.sys.storageCanon = true

/-- The canonical form holds after reset. -/
def Obligations.reset_storage_canonical : Prop := State.reset.sys.storageCanon = true

/-! ## Register accesses -/

/-- A read of a page's first two registers (R57-R59) answers in every state of the page's domain, for every page of the manager
window, and changes nothing. -/
def Obligations.page_directory_reads : Prop :=
  ∀ (s : State) (off : Fin 67108864) (g : Pg) (o : Nat), s.serves .manager = true → s.sys.hostOn = true →
    target .manager off = .page g o → (o = 0 ∨ o = 4) →
    exec (.registerRead .manager off) s = .next { s with sys :=
      { s.sys with out := .cpl .manager off (if o = 0 then g.blkId else 0x100) :: s.sys.out } }

/-- A write of ERR_STAT clears the bits written as 1 and no other, on every page of the manager window that takes the write; CIC
pages take none from the manager (R11, R63, R457). -/
def Obligations.error_flags_write_one_to_clear : Prop :=
  ∀ (s : State) (off : Fin 67108864) (v : Word) (g : Pg), s.serves .manager = true → target .manager off = .page g 0x18 →
    s.sys.pageLets .manager g 0x18 false = true → s.sys.unarmed g = true → g.blk ≠ .cic →
    ∃ t, exec (.registerWrite .manager off v) s = .next { s with sys := t } ∧
      t = { s.sys with regs := t.regs } ∧ t.pgReg g 0x18 = s.sys.pgReg g 0x18 &&& ~~~v ∧
      ∀ a, a ≠ g.base + 0x18 → t.reg a = s.sys.reg a

/-- An access of a wrong size, alignment or burst length to a page that answers is discarded, or reads 0; either way it sets ACCESS in
that page's ERR_STAT and no other bit (R47). A request to an address of the manager window in no defined page completes with UR, and AER
logs it (R48, R567). It rests on the model's readings of log 42. -/
def Obligations.bad_accesses_are_reported : Prop :=
  (∀ (s : State) (off : Fin 67108864) (isRead : Bool) (g : Pg) (o : Nat), s.serves .manager = true →
     target .manager off = .page g o → s.sys.pageLets .manager g o isRead = true → s.sys.on g.dom = true →
     s.sys.mbxDead g o = none →
     ∃ t, exec (.accessError .manager off isRead) s = .next { s with sys := t } ∧
       s.sys.reportsOnly t ∧ t.pgReg g 0x18 = (s.sys.pgReg g 0x18).put 4 4 1 ∧
       (isRead = true → t.out.head? = some (.cpl .manager off 0))) ∧
  ∀ (s : State) (off : Fin 67108864) (isRead : Bool), s.serves .manager = true → s.sys.hostOn = true →
    target .manager off = .none →
    ∃ t, exec (.unsupportedRequest .manager off isRead) s = .next { s with sys := t } ∧
      t.out = .aer .unsupportedRequest .cor :: .ur .manager off isRead :: s.sys.out ∧
      t = { s.sys with out := t.out, pins := { s.sys.pins with aerCor := t.pins.aerCor, aerUnc := t.pins.aerUnc } }

/-! ## The persistent store -/

/-- A write of NVS_NVj that reaches the store, of a register that takes the origin's writes and is not being migrated: it takes a buffer
where no write is held and one is free, and is held where none is (R75, R76, R78, R492). A write of the durable value with none on its way
changes nothing in the store; what an accepted write changes elsewhere at once comes after (R248, R255, R549). A write of an owner key
register by an origin that may not write it is discarded with ACCESS (R492). -/
def Obligations.nv_writes_are_taken_or_guarded : Prop :=
  (∀ (s : State) (j : Fin 1024) (v : Word), s.serves .manager = true →
     s.sys.pageLets .manager (nvPage j) (nvOff j) false = true → ¬ (272 ≤ j.val ∧ j.val < 284 ∧ s.sys.ownerWrites .manager = false) →
     let n := s.sys.nv
     let w : NvW := { reg := j, val := v &&& nvMask j }
     let t : Sys :=
       if nvMask j = 0 then s.sys
       else if n.migrating j = true then { s.sys with nv := { n with held := n.held ++ [{ w with once := n.atOnce w }] } }
       else if n.atOnce w = true then s.sys.nvEffect j
       else if n.goesBy w = true then ({ s.sys with nv := { n with bufs := n.bufs ++ [w] } } : Sys).nvEffect j
       else { s.sys with nv := { n with held := n.held ++ [w] } }
     exec (.nvWrite .manager j v) s = .next { s with sys := t }) ∧
  ∀ (s : State) (j : Fin 1024) (v : Word), s.serves .manager = true →
    s.sys.pageLets .manager (nvPage j) (nvOff j) false = true → 272 ≤ j.val → j.val < 284 → s.sys.ownerWrites .manager = false →
    ∃ t, exec (.nvWrite .manager j v) s = .next { s with sys := t } ∧ s.sys.reportsOnly t ∧
      t.pgReg (nvPage j) 0x18 = (s.sys.pgReg (nvPage j) 0x18).put 4 4 1

/-- A held write of a register that is not being migrated takes a buffer as soon as one is free (R75, R78); the accesses behind it go on
once none is held. The oldest accepted write becomes durable: its register reads the new value, its COUNT is one more, every other
register keeps its value and COUNT (R76, R77), and where no read waits nothing but the store and the window's activity counts changes.
Here COUNT stays below the warning threshold of R537. It rests on the model's readings of log 75. -/
def Obligations.nv_writes_move_on : Prop :=
  (∀ (s : State) (w : NvW) (r : List NvW), s.operates = true → s.sys.nv.held = w :: r → s.sys.nv.canTake w = true →
     w.once = false →
     let z := ({ s.sys with nv := { s.sys.nv with held := r, bufs := s.sys.nv.bufs ++ [w] } } : Sys).nvEffect w.reg
     exec .nvWriteAccept s = .next { s with sys := (if z.nv.held = [] then z.waitRun else z).smbGo 10 }) ∧
  ∀ (s : State) (w : NvW) (r : List NvW), s.operates = true → s.sys.nv.bufs = w :: r → s.sys.unarmed nvsPg = true →
    s.sys.nv.count w.reg + 1 < (s.sys.pgReg nvsPg 0x40).fld 6 0 * 10000 → s.sys.nv.count w.reg + 1 < nvLife → s.sys.smb.run = none →
    ∃ t, exec .nvWriteDurable s = .next { s with sys := t } ∧
      t.nv.get w.reg = w.val ∧ t.nv.count w.reg = s.sys.nv.count w.reg + 1 ∧ t.nv.bufs = r ∧
      (∀ k, k ≠ w.reg → t.nv.get k = s.sys.nv.get k ∧ t.nv.count k = s.sys.nv.count k) ∧
      (s.sys.nvReads = [] → t = { s.sys with nv := t.nv, mari := t.mari })

/-- VIN fails before the accepted writes are durable (R79): every register holds the value it held, or the value of one of its accepted
writes in full, never a mixture. COUNT matches: it stays with the old value, and with a new one it has risen by at least one and at most
by the number of the register's accepted writes, so by exactly one where there was one. No write waits any more. -/
def Obligations.vin_failure_leaves_whole_values : Prop :=
  ∀ (s : State) (kept : List Bool), ∃ t : Sys, exec (.vinFail kept) s = .next { s with sys := t, vin := false, testen := false } ∧
    t.nv.bufs = [] ∧ t.nv.held = [] ∧
    ∀ j, (t.nv.get j = s.sys.nv.get j ∧ t.nv.count j = s.sys.nv.count j) ∨
      ∃ w ∈ s.sys.nv.bufs, w.reg = j ∧ t.nv.get j = w.val ∧
        (s.sys.nv.count j + s.sys.nv.pendingOf j ≤ nvLife →
          s.sys.nv.count j < t.nv.count j ∧ t.nv.count j ≤ s.sys.nv.count j + s.sys.nv.pendingOf j)

/-! ## The frame engine -/

/-- An evaluation of a region's pace, at the next microframe boundary that has had none: PACE, PACE_EFF and the state that R29's table
gives are recorded for that region alone and show in FRM_PACE_STAT; an entry into SHED or STOPPED is counted, STOPPED is recorded as the
region's error, and with the manager's event queue disabled the events of R31's order wait on chip with their payload; the rest of the
machine but its host records is unchanged (R29, R31, R185). It rests on the model's readings of log 3. -/
def Obligations.pace_is_judged_by_the_table : Prop :=
  ∀ (s : State) (n : Fin 8) (v : Fin 256), s.operates = true → s.sys.on n = true → s.sys.halted (frmPg n 0) = false →
    s.sys.contain.chipFault = false →
    let old := s.sys.pace n
    let thr := s.sys.pgReg (frmPg n 0) 0x40
    let shed := thr.fld 7 0
    let stop := thr.fld 15 8
    let new : PaceSt := match old.st with
      | .normal => if v.val < stop then .stopped else if v.val < shed then .shed else .normal
      | .shed => if v.val < stop then .stopped else if shed + 8 ≤ v.val then .normal else .shed
      | .stopped => if stop + 8 ≤ v.val then .shed else .stopped
    let code : Nat := match new with | .normal => 0 | .shed => 1 | .stopped => 2
    let eff := max (v.val - 8) 1
    let told : List (Nat × Nat) := match old.st, new with
      | .normal, .shed => [(0x0E, 1)]
      | .normal, .stopped => [(0x0F, 1)]
      | .shed, .normal => [(0x0E, 0)]
      | .shed, .stopped => [(0x0E, 0), (0x0F, 1)]
      | .stopped, .shed => [(0x0F, 0), (0x0E, 1)]
      | _, _ => []
    let tb := nextBoundary (fun _ => true) s.sys.tb old.at_
    let z : Sys := { s.sys with tb := tb }
    ∃ t : Sys, exec (.paceEvaluation n v) s = .next { s with sys := t } ∧
      t.tb = tb ∧ (t.pace n).at_ = tb + 1 ∧ (t.pace n).pace = v ∧ (t.pace n).eff = eff ∧ (t.pace n).st = new ∧
      t.viewFrm n 0 0x44 = some (Word.ofN (v.val + eff * 256 + code * 65536)) ∧
      t.pgReg (frmPg n 0) 0x64 = (if new = old.st ∨ new = .normal then s.sys.pgReg (frmPg n 0) 0x64
        else if new = .shed then (s.sys.pgReg (frmPg n 0) 0x64).put 15 0 (satInc 0xFFFF ((s.sys.pgReg (frmPg n 0) 0x64).fld 15 0))
        else (s.sys.pgReg (frmPg n 0) 0x64).put 31 16 (satInc 0xFFFF ((s.sys.pgReg (frmPg n 0) 0x64).fld 31 16))) ∧
      (new = .stopped → old.st ≠ .stopped → (t.pgReg (frmPg n 0) 0x18).bit 8 = true) ∧
      (s.sys.meqEn = false → (s.sys.dom 16).st ≠ .off → s.sys.host.decust.events.length ≤ 254 →
        t.host.decust.events = s.sys.host.decust.events ++ told.map fun e =>
          .event { ty := e.1, mf := z.mf, us := 0, slot := 0, port := 0, epid := 0,
                   p := [Word.ofN (n.val + e.2 * 8 + code * 16 + v.val * 256 + eff * 65536), Word.ofN (shed + stop * 256)] } none) ∧
      (∀ m, m ≠ n.val → t.pace m = s.sys.pace m) ∧
      ({ s.sys with tb := tb, usb := { s.sys.usb with pace := t.usb.pace } } : Sys).tellsOnly t

/-- The pace thresholds (R30): they reset to 72 and 40; a write that keeps PACE_STOP + 8 ≤ PACE_SHED sets the pair and nothing else; a
write that breaks that order keeps the previous pair and records an error in the frame engine's ERR_STAT. -/
def Obligations.pace_thresholds_keep_their_order : Prop :=
  (∀ n : Fin 8, State.reset.sys.pgReg (frmPg n 0) 0x40 = 72 + 40 * 256) ∧
  ∀ (s : State) (n : Fin 8) (v : Word), s.serves .manager = true → s.sys.pageLets .manager (frmPg n 0) 0x40 false = true →
    (v.fld 15 8 + 8 ≤ v.fld 7 0 →
      exec (.paceThrWrite n v) s = .next { s with sys := s.sys.setPg (frmPg n 0) 0x40 (v &&& 0xFFFF#32) }) ∧
    (v.fld 7 0 < v.fld 15 8 + 8 →
      ∃ t, exec (.paceThrWrite n v) s = .next { s with sys := t } ∧ s.sys.reportsOnly t ∧
        t.pgReg (frmPg n 0) 0x40 = s.sys.pgReg (frmPg n 0) 0x40 ∧
        t.pgReg (frmPg n 0) 0x18 = (s.sys.pgReg (frmPg n 0) 0x18).put 3 3 1)

/-- A write of FRM_PORT_CFGk, which holds PHASE, while the port sends SOF or keep-alive is discarded and sets CFG in the frame engine's
ERR_STAT; PHASE resets to 0 (R141). -/
def Obligations.phase_is_fixed_while_sof_runs : Prop :=
  (∀ p : Fin 128, State.reset.sys.phase p = 0) ∧
  ∀ (s : State) (p : Fin 128) (off : Fin 67108864) (v : Word), s.serves .manager = true →
    target .manager off = .page (frmPg (p.val / 16) 0) (0x80 + 4 * (p.val % 16)) →
    s.sys.pageLets .manager (frmPg (p.val / 16) 0) (0x80 + 4 * (p.val % 16)) false = true → (s.sys.frame p).sof = true →
    ∃ t, exec (.registerWrite .manager off v) s = .next { s with sys := t } ∧ s.sys.reportsOnly t ∧
      t.phase p = s.sys.phase p ∧
      t.pgReg (frmPg (p.val / 16) 0) 0x18 = (s.sys.pgReg (frmPg (p.val / 16) 0) 0x18).put 3 3 1

/-- A (micro)frame begins on a port that sends SOF: time comes to the port's next start, the frame has its index, and its SOF or
keep-alive goes out, whatever is then served. Where nothing is to be served, the port's own records alone change (R140, R142, R145). Said
of a port that is not entering SUSPENDED, while Decust has no command in progress. It rests on the model's readings of logs 3, 68. -/
def Obligations.idle_frame_sends_sof : Prop :=
  ∀ (s : State) (p : Fin 128), s.operates = true → s.sys.linkWorks p = true → (s.sys.frame p).sof = true →
    (s.sys.frame p).cur = none → (s.sys.port p).susp ≠ .suspending → (s.sys.port p).test ≠ 5 → s.sys.host.decust.cmds = [] →
    let z : Sys := { s.sys with tb := nextBoundary (s.sys.beginsAt p) s.sys.tb (s.sys.frame p).at_ }
    let sof : Out := .bus p (if (s.sys.port p).speed = .low then .keepAlive
      else .sof ((if s.sys.portHs p then z.perIndex p / 8 else z.perIndex p) % 2048))
    let begins := fun (t : Sys) => t.tb = z.tb ∧ (t.frame p).at_ = z.tb + 1 ∧ (t.frame p).n = z.perIndex p ∧ (t.frame p).mf = z.mf
    (Does (.frameStart p) s fun t => begins t ∧ sof ∈ t.out) ∧
    ((s.sys.port p).wakePend = 0 → s.sys.host.commitBusy = false → s.sys.host.commitPast = false →
      s.sys.host.xfers = [] → s.sys.eng.slots = [] → s.sys.ptab p = {} → (s.sys.fifo p).tx = [] →
      s.sys.unarmed (frmPg (p.val / 16) 0) = true → Does (.frameStart p) s fun t =>
        begins t ∧ (t.frame p).cur = none ∧ (t.frame p).x = sofCharge (s.sys.port p).speed ∧ t.out = sof :: s.sys.out ∧
        (∀ q, q ≠ p.val → t.frame q = s.sys.frame q) ∧ t = { s.sys with tb := t.tb, out := t.out, usb := t.usb })

/-! ## Staged registers, commits, injection -/

/-- A write of a staged register fills its shadow copy and sets STAGED_PEND; the active copy and everything else stay (R80). A value
outside the ranges of R614 is discarded with CFG. -/
def Obligations.staged_write_fills_the_shadow : Prop :=
  ∀ (s : State) (off : Fin 67108864) (v : Word) (g : Pg) (o : Nat) (d : RegDesc), s.serves .manager = true →
    target .manager off = .page g o → off.val % 4 = 0 → s.sys.pageLets .manager g o false = true → g.stagedPage = true →
    0x40 ≤ o → o < 0x800 → regDesc? g.blk g.page o = some d →
    (d.outside v = false → Does (.stagedWrite .manager off v) s fun t =>
      t.pgReg g o = v &&& Word.ofN d.rw ∧ t.stagedPend g = true ∧ (∀ a, a ≠ g.base + o → t.reg a = s.sys.reg a) ∧
      (∀ h : Pg, h.base ≠ g.base → t.stagedPend h = s.sys.stagedPend h) ∧
      t = { s.sys with regs := t.regs, host := { s.sys.host with staged := t.host.staged } }) ∧
    (d.outside v = true → Does (.stagedWrite .manager off v) s fun t =>
      s.sys.reportsOnly t ∧ t.pgReg g 0x18 = (s.sys.pgReg g 0x18).put 3 3 1)

/-- DISCARD (R62, R177): ignored while the page has COMMIT_PEND = 1; else every shadow copy of the page returns to its active copy,
STAGED_PEND clears, and no register outside the page's shadow copies changes. On the page of the periodic tables this is said where no
staged edit opens an endpoint, which would close it. DISCARD_ALL while no commit is in progress does it to every page with STAGED_PEND
(R81); said where no periodic-table edit is staged. -/
def Obligations.discards_return_the_shadows : Prop :=
  (∀ (s : State) (page : Fin 8192) (g : Pg), s.serves .manager = true → target .manager (page.val * 0x1000) = .page g 0 →
     g.stagedPage = true → s.sys.pageLets .manager g 0x10 false = true →
     (s.sys.commitPend g = true → exec (.discard .manager page) s = .next s) ∧
     (s.sys.commitPend g = false →
       (g.blk = .frm ∧ g.page = 3 → ∀ k < 16, (s.sys.ptab (16 * g.inst + k)).sh.all (fun x =>
         tabHas (s.sys.ptab (16 * g.inst + k)).act x.2.slot x.2.epid) = true) →
       Does (.discard .manager page) s fun t => t.stagedPend g = false ∧
         (∀ o, 0x40 ≤ o → o < 0x800 → t.pgReg g o = s.sys.pgReg g (o + 0x800)) ∧
         (∀ a, ¬ (g.base + 0x40 ≤ a ∧ a < g.base + 0x800) → t.reg a = s.sys.reg a) ∧
         (g.blk = .frm ∧ g.page = 3 → ∀ k < 16, (t.ptab (16 * g.inst + k)).sh = (s.sys.ptab (16 * g.inst + k)).act ∧
           (t.ptab (16 * g.inst + k)).act = (s.sys.ptab (16 * g.inst + k)).act))) ∧
  ∀ s : State, s.serves .manager = true → s.sys.pageLets .manager tenPg 0x40 false = true → s.sys.host.commitBusy = false →
    s.sys.host.capPages = [] → (∀ p, (s.sys.ptab p).sh = (s.sys.ptab p).act) →
    Does .discardAll s fun t => (∀ g ∈ stagedPages, t.stagedPend g = false) ∧
      (∀ g ∈ stagedPages, s.sys.stagedPend g = true → ∀ o, 0x40 ≤ o → o < 0x800 → t.pgReg g o = s.sys.pgReg g (o + 0x800)) ∧
      (∀ g ∈ stagedPages, s.sys.stagedPend g = false → ∀ o, 0x40 ≤ o → o < 0x800 → t.pgReg g o = s.sys.pgReg g o) ∧
      ∀ a, a % 0x1000 < 0x40 ∨ 0x800 ≤ a % 0x1000 → t.reg a = s.sys.reg a

/-- While BUSY = 1, a write to TEN_COMMIT, with DISCARD_ALL or without, is discarded and sets CFG in the TEN block's ERR_STAT (R84). -/
def Obligations.commit_writes_wait_for_busy : Prop :=
  ∀ (s : State) (gen : Fin 65536), s.serves .manager = true → s.sys.pageLets .manager tenPg 0x40 false = true →
    s.sys.unarmed tenPg = true → s.sys.host.commitBusy = true →
    ∀ c ∈ [Instr.tenCommit gen, Instr.discardAll], Does c s fun t =>
      s.sys.reportsOnly t ∧ t.pgReg tenPg 0x18 = (s.sys.pgReg tenPg 0x18).put 3 3 1

/-- A commit captures the shadow copies of every page with STAGED_PEND, clears those bits, sets BUSY, GEN and the commit point, the
next microframe boundary, and changes no register yet (R82). One that would change what a pool-locked instance uses is refused: CFG,
COMMIT_REFUSED, and the lowest such instance with GEN in TEN_COMMIT_REFUSE (R393). At the commit point
each captured register that governs no port takes its captured value as its active copy, and BUSY clears when nothing is left to apply
(R83); said where the commit captured no periodic table, no captured register governs a port and no port of a captured page sends SOF. -/
def Obligations.commits_capture_then_activate : Prop :=
  (∀ (s : State) (gen : Fin 65536), s.serves .manager = true → s.sys.pageLets .manager tenPg 0x40 false = true →
     s.sys.unarmed tenPg = true → s.sys.host.commitBusy = false →
     (s.sys.lockRefuses = none → Does (.tenCommit gen) s fun t =>
       t.host.commitBusy = true ∧ t.host.commitGen = gen.val ∧ t.host.commitMf = (s.sys.mf + 1) % 4294967296 ∧
       (∀ g ∈ stagedPages, t.stagedPend g = false) ∧
       (∀ g ∈ stagedPages, s.sys.stagedPend g = true → ∀ o ∈ s.sys.changed g, ∃ c ∈ t.host.capRegs, c.off = o ∧ c.val = s.sys.reg o) ∧
       (∀ c ∈ t.host.capRegs, ∃ g ∈ stagedPages, s.sys.stagedPend g = true ∧ c.off ∈ s.sys.changed g) ∧
       t = { s.sys with host := t.host }) ∧
     (∀ i, s.sys.lockRefuses = some i → Does (.tenCommit gen) s fun t => s.sys.reportsOnly t ∧
       t.pgReg tenPg 0x18 = ((s.sys.pgReg tenPg 0x18).put 3 3 1).put 8 8 1 ∧
       t.pgReg tenPg 0x4C = Word.ofN (i + gen.val * 4096 + 2147483648))) ∧
  ∀ s : State, s.operates = true → s.sys.on 16 = true → s.sys.halted tenPg = false → s.sys.host.commitBusy = true →
    s.sys.host.commitPast = false → s.sys.host.capTabs = [] → (∀ c ∈ s.sys.host.capRegs, c.left = []) →
    (∀ c ∈ s.sys.host.capPorts, (s.sys.frame c.2).sof = false) → (s.sys.host.capRegs.map (·.off)).Nodup → s.sys.host.decust.cmds = [] → s.sys.eng.slots = [] →
    Does .commitPoint s fun t => t.host.commitBusy = false ∧ t.host.capPages = [] ∧
      (∀ c ∈ s.sys.host.capRegs, t.reg (c.off + 0x800) = c.val) ∧
      (∀ a, (∀ c ∈ s.sys.host.capRegs, a ≠ c.off + 0x800) → t.reg a = s.sys.reg a) ∧
      t = { s.sys with tb := t.tb, regs := t.regs, host := t.host }

/-- A write of ERR_INJECT (R68, R568): without ARM it stores CAUSE and MODE; with ARM and a cause the block can inject it arms the
injection, or in MODE 2 records the cause at once and clears ARM; any other is discarded with CFG. Said of the blocks in which a register
write is not itself an eligible event (log 38). -/
def Obligations.injection_is_armed_or_recorded : Prop :=
  ∀ (s : State) (page : Fin 8192) (g : Pg) (v : Word), s.serves .manager = true →
    target .manager (page.val * 0x1000) = .page g 0 → s.sys.pageLets .manager g 0x28 false = true → g.blk ≠ .cic →
    regStages g.blk = false →
    let c := v.fld 4 0
    let kept := Word.ofN (c + v.fld 9 8 * 256 + (if v.bit 16 then 65536 else 0))
    (v.bit 16 = false ∨ (canInject g.blk (v.fld 9 8) c = true ∧ v.fld 9 8 ≠ 2) →
      exec (.errorInject .manager page v) s = .next { s with sys := s.sys.setPg g 0x28 kept }) ∧
    (v.bit 16 = true → canInject g.blk (v.fld 9 8) c = true → v.fld 9 8 = 2 →
      Does (.errorInject .manager page v) s fun t => s.sys.reportsOnly t ∧ t.pgReg g 0x28 = kept.put 16 16 0 ∧
        t.pgReg g 0x18 = (s.sys.pgReg g 0x18).put c c 1) ∧
    (v.bit 16 = true → canInject g.blk (v.fld 9 8) c = false →
      Does (.errorInject .manager page v) s fun t => s.sys.reportsOnly t ∧ t.pgReg g 0x28 = s.sys.pgReg g 0x28 ∧
        t.pgReg g 0x18 = (s.sys.pgReg g 0x18).put 3 3 1)

/-! ## Transactions -/

/-- A transaction ends on a port whose (micro)frame has nothing more to serve (R144): the position is the one reported and the wire is
free. A NAK to a bulk or control IN ends its endpoint's service for the (micro)frame (R166) and moves nothing else; an ACK to a PING lets
data follow (R171); an ACK to a SETUP opens the data stage, or the status stage of a transfer without data, at toggle 1 (R97, R229). An
answer ends a row of errors (R107). Said where no control transfer of the chip's own waits on the port, no packet of it holds a word of
bad parity, and, of the SETUP, none has aged. It rests on the model's readings of log 68. -/
def Obligations.transactions_end_as_reported : Prop :=
  ∀ (s : State) (p : Fin 128) (x : Nat) (c : CurTx) (z : Xfer), s.operates = true → s.sys.linkWorks p = true →
    (s.sys.frame p).cur = some c → c.kind = .service → s.sys.xfer? c.xid = some z → z.fin = none → z.cut = none → z.always = false →
    z.chip = none → (∀ a ∈ s.sys.host.xfers, a.port = p.val → a.chip = none) → (∀ k ∈ (s.sys.fifo p).tx, k.bad = []) →
    (s.sys.frame p).ended = true → (s.sys.frame p).due = [] → (s.sys.frame p).csp = [] → s.sys.unarmed (lnkPg p) = true →
    let f := s.sys.frame p
    let ep := (s.sys.slot z.slot).ep z.epid
    let calm := s.sys.host.xfers.map fun a => if a.id == c.xid then { a with strikes := 0 } else a
    (c.form = .in_ → ep.ty = .bulk ∨ ep.ty = .control → z.ty ≠ 3 → Does (.transactionEnd p .nak x) s fun t =>
      t.frame p = { f with cur := none, x := x, naked := z.nakKey :: f.naked } ∧ (∀ q, q ≠ p.val → t.frame q = s.sys.frame q) ∧
      t = { s.sys with usb := { s.sys.usb with frame := t.usb.frame }, host := { s.sys.host with xfers := calm } }) ∧
    (c.form = .ping → Does (.transactionEnd p .ack x) s fun t =>
      t.frame p = { f with cur := none, x := x } ∧ (t.slot z.slot).ep z.epid = { ep with ping := false } ∧
      (∀ n, n ≠ z.slot → t.slot n = s.sys.slot n) ∧
      t = { s.sys with usb := { s.sys.usb with frame := t.usb.frame }, host := { s.sys.host with xfers := calm }, eng := t.eng }) ∧
    (c.form = .setup → z.stage = .setup → (s.sys.fifo p).age = 0 → Does (.transactionEnd p .ack x) s fun t =>
      (t.frame p).cur = none ∧ (t.frame p).x = x ∧ ((t.slot z.slot).ep z.epid).tog = true ∧
      (t.xfer? c.xid).map (·.stage) = some (if z.total = 0 then .status else .data) ∧ t.out = s.sys.out ∧ t.regs = s.sys.regs)

/-- An IN packet comes in for the data stage of an IN transaction without a split, of a ring or of the chip's own (R235). A corrupt one
is discarded and counted, and nothing else happens; one longer than the maximum packet size is discarded, counted and marks babble. On
an endpoint that is not isochronous, one with the other toggle is acknowledged, discarded and counted as a duplicate, and a good one is
acknowledged, takes its packet-list entry in the RX FIFO, moves the toggle and counts into the transfer. An isochronous one is taken
without an acknowledgement. -/
def Obligations.in_packets_are_judged : Prop :=
  ∀ (s : State) (p : Fin 128) (data : List Byte) (pid : Pid) (c : CurTx) (z : Xfer), s.operates = true →
    (s.sys.frame p).cur = some c → c.form = .in_ → c.inDone = false → c.babble = false → s.sys.xfer? c.xid = some z →
    z.token = .in_ → z.split.acc = [] → s.sys.unarmed (fifPg p) = true →
    let mps := s.sys.mpsOf z
    let ep := s.sys.epOf z
    let taken := fun (t : Sys) => (t.frame p).cur = some { c with inDone := true } ∧ (t.fifo p).rxNum = (s.sys.fifo p).rxNum + 1 ∧
      (data ≠ [] → ∃ k : RxPkt, (t.fifo p).rx = (s.sys.fifo p).rx ++ [k] ∧ k.data = data ∧ k.slot = z.slot ∧ k.epid = z.epid ∧
        k.xid = z.id ∧ k.pid = pidCode pid ∧ k.st = .committed) ∧ t.regs = s.sys.regs
    (data.length ≤ mps → Does (.inPacket p data pid false) s fun t =>
      t = s.sys.incFld (fifPg p) 0x60 15 0) ∧
    (mps < data.length → ∀ good, Does (.inPacket p data pid good) s fun t =>
      t = (s.sys.incFld (fifPg p) 0x60 15 0).updFrame p fun f => { f with cur := some { c with babble := true } }) ∧
    (z.ty ≠ 3 → data.length ≤ mps → pid = togPid (!ep.tog) → Does (.inPacket p data pid true) s fun t =>
      t.out = .bus p .ack :: s.sys.out ∧ (t.frame p).cur = some { c with inDone := true } ∧
      t.pgReg (fifPg p) 0x60 = (s.sys.pgReg (fifPg p) 0x60).put 31 16 (satInc 65535 ((s.sys.pgReg (fifPg p) 0x60).fld 31 16)) ∧
      t = { s.sys with out := t.out, regs := t.regs, usb := { s.sys.usb with frame := t.usb.frame } }) ∧
    (z.ty ≠ 3 → data.length ≤ mps → pid = togPid ep.tog → Does (.inPacket p data pid true) s fun t =>
      t.out = .bus p .ack :: s.sys.out ∧ taken t ∧ ∃ v, t.xfer? c.xid = some v ∧ (t.epOf v).tog = !ep.tog ∧
        v.recvd = (if z.always then z.recvd else z.recvd + data.length)) ∧
    (z.ty = 3 → z.always = false → data.length ≤ mps → pid = .data0 → Does (.inPacket p data pid true) s fun t =>
      t.out = s.sys.out ∧ taken t ∧ ∃ v, t.xfer? c.xid = some v ∧ t.epOf v = ep ∧ v.rxDone = true ∧ v.recvd = z.recvd + data.length)

/-- Babble on the bus of an enabled port (R316): the port is reset and its device queued for re-presentation or enumeration; at the
second such event within 10 s it is disabled. It is discarded where an event that goes before it has changed the port's state at the
same moment (R247; what falls together is the model's choice, log 69). -/
def Obligations.babble_is_contained_at_the_port : Prop :=
  ∀ (s : State) (p : Fin 128), s.operates = true → s.sys.linkWorks p = true → (s.sys.port p).st = .enabled →
    let again := 0 < (s.sys.port p).faultAt ∧ s.sys.tb < (s.sys.port p).faultAt - 1 + 10000000
    (s.sys.moot p 5 = true → exec (.busBabble p) s = .next s) ∧
    (s.sys.moot p 5 = false → ¬ again → Does (.busBabble p) s fun t => (t.port p).st = .queued) ∧
    (s.sys.moot p 5 = false → again → Does (.busBabble p) s fun t => (t.port p).st = .disabled ∧ (t.port p).susp = .active)

/-! ## Root ports -/

/-- Port power (R246, R257, R260, R261). POWER_ON of an OFF port whose base reservation fits: the port is POWERED under its profile with
that reservation, and VBUSEN rises at once or waits for its step; one that does not fit stays OFF with the request pending. POWER_OFF of
a port without a device: OFF, nothing reserved, VBUSEN and HPWREN low. A stagger step raises the next enable in order whose PRGn is ON (R250), or ends the
spacing; the end of the power-good wait lets connects be seen. -/
def Obligations.port_power_is_granted_and_staggered : Prop :=
  (∀ (s : State) (p : Fin 128), s.serves .manager = true → s.sys.pageLets .manager (lnkPg p) 0x48 false = true →
    (s.sys.port p).st = .off → (s.sys.port p).res5 = 0 → (s.sys.nvProfile p).bit 0 = false → s.sys.pending p [0] = false →
    s.sys.moot p 5 = false → s.sys.cellHalt p = false → (∀ c ∈ s.sys.host.decust.cmds, c.wait ≠ .powered p) →
    let w := s.sys.nvProfile p
    (s.sys.pendList 0 = [] → s.sys.firstBroken p 0 (baseMa w) = none → Does (.powerOn p) s fun t =>
      (t.port p).st = .powered ∧ (t.port p).prof = w ∧ (t.port p).res5 = baseMa w ∧
      (if FMap.get false (p.val / 16) s.sys.usb.power.stag5Run = true ∨ s.sys.on (p.val / 16) = false then
          p.val ∈ FMap.get [] (p.val / 16) t.usb.power.stag5
       else (t.port p).vbus = true ∧ (t.port p).pg = false) ∧ ∀ q, q ≠ p.val → t.port q = s.sys.port q) ∧
    (s.sys.pendList 0 ≠ [] ∨ (s.sys.firstBroken p 0 (baseMa w)).isSome = true → Does (.powerOn p) s fun t =>
      (t.port p).st = .off ∧ (∃ r : PwReq, t.pendList 0 = s.sys.pendList 0 ++ [r] ∧ r.port = p.val ∧ r.amount = baseMa w ∧ r.kind = .base) ∧
      ∀ q, q ≠ p.val → t.port q = s.sys.port q)) ∧
  (∀ (s : State) (p : Fin 128), s.serves .manager = true → s.sys.pageLets .manager (lnkPg p) 0x48 false = true →
    s.sys.vacant p → (s.sys.port p).st ≠ .off → (s.sys.port p).hpwr = false → s.sys.moot p 1 = false → Does (.powerOff p) s fun t =>
      (t.port p).st = .off ∧ (t.port p).vbus = false ∧ (t.port p).hpwr = false ∧ (t.port p).res5 = 0 ∧ (t.port p).resH = 0 ∧
      (t.port p).speed = .none ∧ (t.frame p).sof = false ∧ t.regs = s.sys.regs ∧ t.out = s.sys.out) ∧
  (∀ (s : State) (n : Fin 8), s.operates = true → s.sys.on n = true →
    (∀ p r, FMap.get [] n.val s.sys.usb.power.stag5 = p :: r → Does (.vbusStaggerStep n) s fun t =>
      t.port p = { s.sys.port p with vbus := true, pg := false } ∧ FMap.get [] n.val t.usb.power.stag5 = r ∧
      (∀ q, q ≠ p → t.port q = s.sys.port q) ∧ t = { s.sys with usb := { s.sys.usb with power := t.usb.power, ports := t.usb.ports } }) ∧
    (FMap.get [] n.val s.sys.usb.power.stag5 = [] → Does (.vbusStaggerStep n) s fun t =>
      FMap.get false n.val t.usb.power.stag5Run = false ∧ t = { s.sys with usb := { s.sys.usb with power := t.usb.power } })) ∧
  (∀ s : State, s.operates = true →
    (∀ p, (s.sys.usb.power.stagH.find? fun q => s.sys.on (q / 16)) = some p → Does .hpwrStaggerStep s fun t =>
      (t.port p).hpwr = true ∧ t.usb.power.stagH = s.sys.usb.power.stagH.filter (· != p) ∧ ∀ q, q ≠ p → t.port q = s.sys.port q) ∧
    ((∀ q ∈ s.sys.usb.power.stagH, s.sys.on (q / 16) = false) → Does .hpwrStaggerStep s fun t =>
      t.usb.power.stagHRun = false ∧ t = { s.sys with usb := { s.sys.usb with power := t.usb.power } })) ∧
  (∀ (s : State) (p : Fin 128), s.operates = true → (s.sys.port p).vbus = true →
    exec (.powerGoodWaitEnd p) s = .next { s with sys := s.sys.updPort p fun q => { q with pg := true } })

/-- Connects (R246, R262-R264, R266): a pull-up on a powered port after the power-good wait begins debounce; 100 ms of it put the port in
QUEUED, count the attach and place it in the attach order; a disconnect in debounce returns the port to POWERED, and one of a port with a
device unplugs it: the port shows no speed and no connection, POWERED, or OFF while its base request is pending. An event is discarded
where one that goes before it in R247's order has changed the port's state at the same moment. It rests on the model's readings of log 69.
-/
def Obligations.connects_are_debounced_and_queued : Prop :=
  ∀ (s : State) (p : Fin 128), s.operates = true → s.sys.linkWorks p = true →
    (∀ sp, (s.sys.port p).vbus = true → (s.sys.port p).pg = true → sp ≠ .none → (s.sys.port p).st = .powered →
      (s.sys.port p).evAt ≠ s.sys.tb + 1 →
      Does (.connect p sp) s fun t =>
        t.port p = { s.sys.port p with conn := true, st := .debounce, speed := (if sp = .low then .low else .full), evAt := s.sys.tb + 1,
                                       evRank := 5, evWas := .powered, evPow := true, evRun5 := (s.sys.port p).run5, evRunH := (s.sys.port p).runH } ∧
        (∀ q, q ≠ p.val → t.port q = s.sys.port q) ∧ t = { s.sys with usb := { s.sys.usb with ports := t.usb.ports } }) ∧
    ((s.sys.port p).st = .debounce → (s.sys.port p).conn = true → (s.sys.port p).evAt ≠ s.sys.tb + 1 → Does (.debounceEnd p) s fun t =>
      t.port p = { s.sys.port p with st := .queued, attempt := 0, attKey := s.sys.attachKey p, evAt := s.sys.tb + 1, evRank := 5,
                                     evWas := .debounce, evPow := (s.sys.port p).vbus || (s.sys.port p).hpwr,
                                     evRun5 := (s.sys.port p).run5, evRunH := (s.sys.port p).runH } ∧
      t.usb.enums = s.sys.usb.enums ++ [{ port := p, tier := 0, order := s.sys.attachKey p, attempt := 0 }] ∧
      t.pgReg (lnkPg p) 0x44 = (s.sys.pgReg (lnkPg p) 0x44).put 0 0 1 ∧
      t.pgReg (lnkPg p) 0x54 = (s.sys.pgReg (lnkPg p) 0x54).put 7 0 (satInc 255 ((s.sys.pgReg (lnkPg p) 0x54).fld 7 0)) ∧
      t = { s.sys with regs := t.regs, usb := { s.sys.usb with ports := t.usb.ports, enums := t.usb.enums } }) ∧
    ((s.sys.port p).st = .debounce → (s.sys.port p).evAt ≠ s.sys.tb + 1 → Does (.disconnect p) s fun t =>
      t.port p = { s.sys.port p with conn := false, st := .powered, speed := .none, evAt := s.sys.tb + 1, evRank := 2,
                                     evWas := .debounce, evPow := (s.sys.port p).vbus || (s.sys.port p).hpwr,
                                     evRun5 := (s.sys.port p).run5, evRunH := (s.sys.port p).runH } ∧
      t.pgReg (lnkPg p) 0x44 = (s.sys.pgReg (lnkPg p) 0x44).put 0 0 1 ∧
      t.pgReg (lnkPg p) 0x54 = (s.sys.pgReg (lnkPg p) 0x54).put 15 8 (satInc 255 ((s.sys.pgReg (lnkPg p) 0x54).fld 15 8)) ∧
      t = { s.sys with regs := t.regs, usb := { s.sys.usb with ports := t.usb.ports } }) ∧
    ((s.sys.port p).st.device = true → s.sys.inSe0 p = false → s.sys.moot p 2 = false → Does (.disconnect p) s fun t =>
      ((t.port p).st = .powered ∨ ((t.port p).st = .off ∧ (t.port p).vbus = false)) ∧ (t.port p).conn = false ∧
      (t.port p).speed = .none ∧ (t.port p).susp = .active) ∧
    (s.sys.moot p 5 = true → (∀ sp, (s.sys.port p).conn = true → Does (.connect p sp) s fun t =>
        (∀ q, t.port q = s.sys.port q) ∧ t = { s.sys with usb := { s.sys.usb with ports := t.usb.ports } }) ∧
      ∀ c ∈ [Instr.debounceEnd p, Instr.resetRecoveryEnd p true], exec c s = .next s) ∧
    (s.sys.moot p 2 = true → ∀ c ∈ [Instr.disconnect p, Instr.resetRecoveryEnd p false], exec c s = .next s)

/-- Resets (R246, R267, R273, R275). RESET of an enabled, suspended or disabled port queues it, DISABLE an enabled or suspended one disables it, by the
state in which R247's order has the command find the port (log 69); either command in another state only sets CFG. The end of SE0 settles the speed and lets SOF run; the end of the recovery enables the port and
gives a new device the lowest free slot, or, with the device gone, unplugs the port. -/
def Obligations.port_resets_run : Prop :=
  (∀ (s : State) (p : Fin 128), s.serves .manager = true → s.sys.pageLets .manager (lnkPg p) 0x48 false = true →
    (s.sys.moot p 4 = false → s.sys.stBefore p 4 = .enabled ∨ s.sys.stBefore p 4 = .suspended ∨ s.sys.stBefore p 4 = .disabled → Does (.resetCmd p) s fun t => (t.port p).st = .queued ∧ (t.port p).slotWait = false) ∧
    (s.sys.moot p 3 = false → s.sys.stBefore p 3 = .enabled ∨ s.sys.stBefore p 3 = .suspended → Does (.disableCmd p) s fun t => (t.port p).st = .disabled ∧ (t.port p).susp = .active) ∧
    (∀ c r l, (c, r, l) ∈ [(Instr.resetCmd p, 4, [PortSt.enabled, .suspended, .disabled]), (Instr.disableCmd p, 3, [.enabled, .suspended])] →
      s.sys.moot p r = true ∨ s.sys.stBefore p r ∉ l → Does c s fun t =>
        s.sys.reportsOnly t ∧ t.pgReg (lnkPg p) 0x18 = (s.sys.pgReg (lnkPg p) 0x18).put 3 3 1)) ∧
  ∀ (s : State) (p : Fin 128), s.operates = true → s.sys.linkWorks p = true → (s.sys.port p).st = .resetting →
    (∀ chirp, (s.sys.frame p).sof = false → Does (.resetSignalEnd p chirp) s fun t =>
      let hs := chirp && (s.sys.port p).speed != .low && !(s.sys.port p).prof.bit 4
      t.port p = { s.sys.port p with speed := (if hs then .high else if (s.sys.port p).speed = .low then .low else .full) } ∧
      t.frame p = { s.sys.frame p with sof := true } ∧ t.out = (if hs then [.bus p .chirpReply] else []) ++ s.sys.out ∧
      t = { s.sys with out := t.out, usb := { s.sys.usb with ports := t.usb.ports, frame := t.usb.frame, enums := t.usb.enums } }) ∧
    (∀ e n, (s.sys.frame p).sof = true → s.sys.enumAt p 0 = some e → e.represent = false → s.sys.slotFree = some n →
      s.sys.moot p 5 = false → Does (.resetRecoveryEnd p true) s fun t => (t.port p).st = .enabled ∧ (t.slot n).used = true ∧ (t.slot n).port = p.val ∧
        (t.slot n).tier = 0 ∧ (t.slot n).speed = (s.sys.port p).speed ∧ (t.enumAt p 0).map (fun e => (e.slot, e.step)) = some (n, 3) ∧
        t.pgReg (lnkPg p) 0x44 = (s.sys.pgReg (lnkPg p) 0x44).put 3 3 1) ∧
    ((s.sys.frame p).sof = true → s.sys.moot p 2 = false → Does (.resetRecoveryEnd p false) s fun t =>
      ((t.port p).st = .powered ∨ ((t.port p).st = .off ∧ (t.port p).vbus = false)) ∧ (t.port p).conn = false ∧
      (t.port p).speed = .none)

/-- Enumeration (R264, R267, R268, R271): the first device in order takes its place and starts, with a bus reset on a root port, or goes
on at step 3; a freed slot goes to the first device held for one; an answer to SET_ADDRESS puts the address in force, whose recovery
leads to step 5; a request that fails, or is answered too late, is counted and issued again while it has failed less than twice, and
its timeout runs also while its region is STOPPED (R32). A start on a root port is discarded where an event of that moment that
goes before it has changed the port's state (R247, log 69). -/
def Obligations.enumerations_advance : Prop :=
  (∀ (s : State) (e : Enum), s.operates = true → s.sys.nextStart = some e →
    (e.tier = 0 → s.sys.moot e.port 5 = true → exec .enumStart s = .next s) ∧
    (e.tier ≠ 0 ∨ s.sys.moot e.port 5 = false → Does .enumStart s fun t =>
      (t.enumAt e.port e.tier).map (fun e => (e.st, e.place, e.step)) = some (.running, true, if e.step = 3 then 3 else 1)) ∧
    (e.tier = 0 → e.step ≠ 3 → s.sys.moot e.port 5 = false → Does .enumStart s fun t =>
      (t.port e.port).st = .resetting ∧ t.out.head? = some (.bus e.port .reset) ∧ (t.port e.port).addr = 0 ∧
      (t.frame e.port).sof = false)) ∧
  (∀ (s : State) (e : Enum) (n : Nat), s.operates = true → s.sys.enumAt e.port e.tier = some e → e.st = .slotWait →
    (∀ f ∈ s.sys.usb.enums, f.st = .slotWait → f = e ∨ e.order < f.order) → s.sys.slotFree = some n → Does .slotGrant s fun t =>
      (t.slot n).used = true ∧ (t.slot n).port = e.port ∧ (t.slot n).tier = e.tier ∧ (t.slot n).speed = e.speed ∧ (t.slot n).addr = 0 ∧
      (t.enumAt e.port e.tier).map (fun e => (e.slot, e.step)) = some (n, 3)) ∧
  (∀ (s : State) (p : Fin 128) (tier : Word) (e : Enum), s.operates = true → s.sys.linkWorks p = true →
    s.sys.enumAt p tier.toNat = some e → s.sys.reqQueued 0 p tier.toNat = false →
    (∀ b, s.sys.reqWaits 0 p tier.toNat = false → e.st = .running → e.step = 4 → e.sub = 0 →
      Does (.enumRequestComplete p tier (.ok b)) s fun t =>
        (t.slot e.slot).addr = e.addr ∧ (t.enumAt p tier.toNat).map (fun e => (e.step, e.sub, e.tries)) = some (4, 1, 0) ∧
        (tier = 0 → (t.port p).addr = e.addr)) ∧
    (s.sys.reqWaits 0 p tier.toNat = false → e.asks = true → e.step ≠ 10 → e.tries < 2 → ∀ r, r = .stall ∨ r = .failed →
      Does (.enumRequestComplete p tier r) s fun t =>
        (t.enumAt p tier.toNat).map (fun e => (e.step, e.sub, e.tries)) = some (e.step, e.sub, e.tries + 1)) ∧
    (e.asks = true → e.step ≠ 10 → e.tries < 2 → s.sys.hubStepAt p tier.toNat = false → Does (.enumRequestTimeout p tier) s fun t =>
      (t.enumAt p tier.toNat).map (fun e => (e.step, e.sub, e.tries)) = some (e.step, e.sub, e.tries + 1)) ∧
    (e.st = .running → e.step = 4 → e.sub = 1 → Does (.setAddressRecoveryEnd p tier) s fun t =>
      (t.enumAt p tier.toNat).map (fun e => (e.step, e.sub, e.tries)) = some (5, 0, 0)))

/-- Overcurrent (R251, R277, R278). A measurement is kept, and a current above its limit counts towards OC_HOLD; a hard trip of a port
without a device switches it off, latched where OCPOL leaves no retry; a retry counts and powers the port again; 60 s of power return the
count to 0. It rests on the model's readings of log 69. -/
def Obligations.overcurrent_trips_and_retries : Prop :=
  (∀ (s : State) (p : Fin 128) (c5 ch : Fin 1024), s.operates = true → s.sys.pwrWorks p = true → (s.sys.pwrCtl p).bit 20 = true →
    s.sys.unarmed (pwrPg (p.val / 16)) = true → (s.sys.port p).vbus = true → s.sys.evBeats p 0 = false →
    let q := s.sys.port p
    let i5 := c5.val * (s.sys.pgReg (pwrPg (p.val / 16)) 0x44).fld 15 0 / 1024
    let ih := ch.val * (s.sys.pgReg (pwrPg (p.val / 16)) 0x44).fld 31 16 / 1024
    let r5 := if profI5 q.prof < i5 then q.run5 + 1 else 0
    let rH := if profHigh q.prof = true ∧ profIH q.prof < ih then q.runH + 1 else 0
    r5 < profHold q.prof → rH < profHold q.prof → Does (.portMeasurement p c5 ch) s fun t =>
      t.port p = { q with i5 := i5, ih := ih, run5 := r5, runH := rH } ∧ (∀ k, k ≠ p.val → t.port k = s.sys.port k) ∧
      t = { s.sys with usb := { s.sys.usb with ports := t.usb.ports } }) ∧
  (∀ (s : State) (p : Fin 128), s.operates = true → s.sys.pwrWorks p = true → s.sys.vacant p → (s.sys.port p).vbus = true →
    (s.sys.port p).hpwr = false → Does (.ocHardTrip p) s fun t =>
      (t.port p).st = (if profPol (s.sys.port p).prof = 1 ∨ (profPol (s.sys.port p).prof = 0 ∧ 3 ≤ (s.sys.port p).retry) then .ocLatched
        else .ocWait) ∧
      (t.port p).vbus = false ∧ (t.port p).res5 = 0 ∧ (t.port p).retry = (s.sys.port p).retry ∧ (t.pgReg (lnkPg p) 0x44).fld 2 2 = 1) ∧
  (∀ (s : State) (p : Fin 128), s.operates = true → (s.sys.port p).st = .ocWait → (s.sys.port p).res5 = 0 →
    (s.sys.nvProfile p).bit 0 = false → s.sys.pendList 0 = [] → s.sys.moot p 5 = false → s.sys.cellHalt p = false →
    (s.sys.updPort p fun q => { q with st := .off, retry := q.retry + 1 }).firstBroken p 0
      (baseMa (s.sys.nvProfile p)) = none →
    Does (.ocRetryExpiry p) s fun t => (t.port p).st = .powered ∧ (t.port p).retry = (s.sys.port p).retry + 1 ∧
      (t.port p).res5 = baseMa (s.sys.nvProfile p)) ∧
  (∀ (s : State) (p : Fin 128), s.operates = true → (s.sys.port p).vbus = true →
    exec (.ocRetryClear p) s = .next { s with sys := s.sys.updPort p fun q => { q with retry := 0 } })

/-- Test modes (R280, R281): SEL 1-5 in POWERED, DISABLED or SUSPENDED puts the port in TEST and drives the pattern; 6 and 7, and any
selection elsewhere, set CFG alone; clearing SEL takes VBUSEN low, and 100 ms later the port is POWERED and VBUSEN is to rise. -/
def Obligations.test_modes_are_entered_and_left : Prop :=
  (∀ (s : State) (p : Fin 128) (sel : Fin 8), s.serves .manager = true → s.sys.pageLets .manager (lnkPg p) 0x4C false = true →
    sel.val ≠ 0 →
    let here := (s.sys.port p).st = .powered ∨ (s.sys.port p).st = .disabled ∨ (s.sys.port p).st = .suspended
    (here → sel.val < 6 → s.sys.moot p 5 = false → Does (.testModeSelect p sel) s fun t =>
      (t.port p).st = .test ∧ (t.port p).test = sel.val ∧ (t.port p).speed = .none ∧
      t.out.head? = some (.bus p (.pattern sel))) ∧
    (¬ here ∨ 6 ≤ sel.val ∨ s.sys.moot p 5 = true → Does (.testModeSelect p sel) s fun t =>
      s.sys.reportsOnly t ∧ t.pgReg (lnkPg p) 0x18 = (s.sys.pgReg (lnkPg p) 0x18).put 3 3 1)) ∧
  (∀ (s : State) (p : Fin 128), s.serves .manager = true → s.sys.pageLets .manager (lnkPg p) 0x4C false = true →
    (s.sys.port p).test ≠ 0 → (s.sys.port p).st = .test → (s.sys.frame p).cur = none → (s.sys.frame p).cspOrder = [] →
    s.sys.host.commitPast = false → (s.sys.ptab p).leave = [] → Does (.testModeClear p) s fun t =>
      t.port p = { s.sys.port p with vbus := false, pg := false, conn := false, test := 0, testClr := true } ∧
      (∀ q, q ≠ p.val → t.port q = s.sys.port q) ∧
      t.frame p = { s.sys.frame p with sof := false, due := [], csp := [], ended := true } ∧
      (∀ q, q ≠ p.val → t.frame q = s.sys.frame q) ∧ t.regs = s.sys.regs ∧ t.out = s.sys.out ∧ t.eng = s.sys.eng) ∧
  (∀ (s : State) (p : Fin 128), s.operates = true → (s.sys.port p).st = .test → (s.sys.port p).testClr = true →
    s.sys.moot p 5 = false → Does (.testClearEnd p) s fun t => (t.port p).st = .powered ∧ (t.port p).testClr = false ∧
      (if FMap.get false (p.val / 16) s.sys.usb.power.stag5Run = true ∨ s.sys.on (p.val / 16) = false then
          p.val ∈ FMap.get [] (p.val / 16) t.usb.power.stag5
       else (t.port p).vbus = true ∧ (t.port p).pg = false))

/-! ## Hubs, suspend and resume -/

/-- Hub handling (R271, R292, R295, R296): a hub's request that completes leaves its list, a failed one is issued again twice; the end of
H5's wait brings a new hub into service; a connect reported on a port without a device begins its debounce and has its CLEAR_FEATURE
placed behind the control transfers that wait, once it has a result entry; the debounce's end queues the device; a reset that is not
reported in time is asked for again; the end of a reset's recovery gives the device the lowest free slot. It rests on the model's readings
of log 69. -/
def Obligations.hubs_are_handled : Prop :=
  (∀ (s : State) (p : Fin 128) (tier : Word) (h : Nat) (r : HReq) (rest : List HReq), s.operates = true →
    s.sys.slotAt p tier.toNat = some h → (s.sys.slot h).hubRec.reqs = r :: rest → s.sys.reqWaits 1 p tier.toNat = false →
    r.kind ≠ .step → (∀ hp, r.kind ≠ .portReset hp) →
    (∀ b, Does (.hubRequestComplete p tier (.ok b)) s fun t => (t.slot h).hubRec.reqs = rest ∧
      ∀ n e, r.kind = .clearTt n e → ((t.slot n).ep e).ttClear = false) ∧
    (r.tries < 2 → ∀ k, k = .stall ∨ k = .failed → Does (.hubRequestComplete p tier k) s fun t =>
      (t.slot h).hubRec.reqs = { r with tries := r.tries + 1 } :: rest)) ∧
  (∀ (s : State) (p : Fin 128) (tier : Word) (e : Enum), s.operates = true → s.sys.enumAt p tier.toNat = some e →
    e.st = .running → e.step = 15 → e.sub = 100 → e.represent = false → Does (.hubPowerGoodEnd p tier) s fun t =>
      (t.slot e.slot).isHub = true ∧ (t.slot e.slot).served = true ∧ t.enumAt p tier.toNat = none) ∧
  (∀ (s : State) (p : Fin 128) (tier : Word) (h : Nat) (hp : Fin 32), s.operates = true → s.sys.slotAt p tier.toNat = some h →
    (s.sys.slot h).isHub = true → hp.val ≠ 0 → hp.val ≤ (s.sys.slot h).hubRec.nports → s.sys.slotQuiet h = false →
    (s.sys.hubPort h hp).conn = false → Does (.hubStatusChange p tier hp (.connection true)) s fun t =>
      t.hubPort h hp = { s.sys.hubPort h hp with deb := true } ∧
      (s.sys.eng.holly.ctlWait = [] → s.sys.iCan = true →
        ∃ x : Xfer, t.host = { s.sys.host with xfers := s.sys.host.xfers ++ [x], nextX := s.sys.host.nextX + 1 } ∧
        x.setup = setupPkt 0x23 1 16 hp 0 ∧ x.port = (s.sys.slot h).port ∧ x.chip.map (·.tier) = some (s.sys.slot h).tier ∧
        x.stage = .setup ∧ x.begun = false ∧ x.fin = none) ∧
      (s.sys.eng.holly.ctlWait ≠ [] ∨ s.sys.iCan = false → t.host = s.sys.host ∧
        t.eng.holly = { s.sys.eng.holly with ctlWait := s.sys.eng.holly.ctlWait ++
          [{ own := 1, port := (s.sys.slot h).port, tier := (s.sys.slot h).tier, setup := setupPkt 0x23 1 16 hp 0, data := [], free := true }] }) ∧
      (∀ n, n ≠ h → t.slot n = s.sys.slot n) ∧ t = { s.sys with host := t.host, eng := t.eng }) ∧
  (∀ (s : State) (p : Fin 128) (tier : Word) (h hp : Nat) (q : HubPort), s.operates = true →
    s.sys.hubPortAt p tier.toNat = some (h, hp, q) → q.deb = true →
    (s.sys.slotAt p tier.toNat = none → Does (.hubPortDebounceEnd p tier false) s fun t => t.hubPort h hp = { q with deb := false, conn := false, attKey := s.sys.attachKey p } ∧
      t.usb = s.sys.usb) ∧
    (s.sys.slotAt p tier.toNat = none → Does (.hubPortDebounceEnd p tier true) s fun t =>
      t.hubPort h hp = { q with deb := false, conn := true, attKey := s.sys.attachKey p } ∧
      t.usb.enums = s.sys.usb.enums ++ [{ port := p, tier := tier.toNat, order := s.sys.attachKey p, attempt := 0 }])) ∧
  (∀ (s : State) (p : Fin 128) (tier : Word) (e : Enum), s.operates = true → s.sys.enumAt p tier.toNat = some e → tier.toNat ≠ 0 →
    e.st = .running → e.step = 1 →
    (∀ h hp q, e.sub = 0 → e.tries < 2 → s.sys.hubPortAt p tier.toNat = some (h, hp, q) → Does (.hubResetTimeout p tier) s fun t =>
      (t.slot h).hubRec.reqs = (s.sys.slot h).hubRec.reqs ++ [{ kind := .portReset hp, setup := setupPkt 0x23 3 4 hp 0 }] ∧
      (t.enumAt p tier.toNat).map (·.tries) = some (e.tries + 1)) ∧
    (∀ n, e.sub = 1 → e.represent = false → s.sys.slotFree = some n → Does (.hubResetRecoveryEnd p tier) s fun t =>
      (t.slot n).used = true ∧ (t.slot n).port = p.val ∧ (t.slot n).tier = tier.toNat ∧ (t.slot n).speed = e.speed ∧
      (t.enumAt p tier.toNat).map (fun e => (e.slot, e.step)) = some (n, 3)))

/-- Suspend and resume (R309-R314, R316). Every request is counted and sets RWAKE_EN; a SUSPEND of an ACTIVE port begins SUSPENDING, a
RESUME of a SUSPENDED one drives K; one that meets the opposite transition is held. The suspend entry ends in SUSPENDED, or at once in
RESUMING where a resume is held; the end of K sends its low-speed EOP and restarts SOF, the end of the recovery makes the port ACTIVE; a
hub port's resume that is not reported in time resets it; a device's wake resumes its port. A request in a state without a device is
counted and sets CFG. It rests on the model's readings of log 70. -/
def Obligations.ports_suspend_and_resume : Prop :=
  (∀ (s : State) (p : Fin 128) (rw : Bool), s.serves .manager = true → s.sys.pageLets .manager (lnkPg p) 0x58 false = true →
    let counted := fun (t : Sys) => (t.pgReg (lnkPg p) 0x58).fld 23 16 = satInc 255 ((s.sys.pgReg (lnkPg p) 0x58).fld 23 16) ∧
      (t.port p).rwEn = rw
    let here := (s.sys.port p).st = .enabled ∨ (s.sys.port p).st = .suspended
    (here → (s.sys.port p).susp = .active → (s.sys.frame p).sof = true → Does (.portSuspendReq p rw) s fun t =>
      (t.port p).susp = .suspending ∧ (t.port p).hold = 0 ∧ counted t) ∧
    (here → (s.sys.port p).susp = .resuming → Does (.portSuspendReq p rw) s fun t =>
      t.port p = { s.sys.port p with rwEn := rw, hold := 1 } ∧ counted t) ∧
    (here → (s.sys.port p).susp = .suspended → Does (.portResumeReq p rw) s fun t =>
      (t.port p).susp = .resuming ∧ (t.port p).wakeRun = false ∧ t.out = .bus p .resumeK :: s.sys.out ∧ counted t) ∧
    (here → (s.sys.port p).susp = .suspending → Does (.portResumeReq p rw) s fun t =>
      t.port p = { s.sys.port p with rwEn := rw, hold := 2 } ∧ counted t) ∧
    (¬ here → ∀ c ∈ [Instr.portSuspendReq p rw, Instr.portResumeReq p rw], Does c s fun t =>
      counted t ∧ (t.pgReg (lnkPg p) 0x18).fld 3 3 = 1 ∧ (t.port p).susp = (s.sys.port p).susp)) ∧
  (∀ (s : State) (p : Fin 128), s.operates = true → (s.sys.port p).susp = .suspending → (s.sys.frame p).sof = false →
    s.sys.host.decust.cmds = [] →
    ((s.sys.port p).hold ≠ 2 → Does (.suspendEntryEnd p 0) s fun t =>
      t.port p = { s.sys.port p with st := .suspended, susp := .suspended, hold := 0 } ∧
      t = { s.sys with usb := { s.sys.usb with ports := t.usb.ports } }) ∧
    ((s.sys.port p).hold = 2 → Does (.suspendEntryEnd p 0) s fun t =>
      (t.port p).st = .suspended ∧ (t.port p).susp = .resuming ∧ t.out = .bus p .resumeK :: s.sys.out)) ∧
  (∀ (s : State) (p : Fin 128), s.operates = true → s.sys.linkWorks p = true → (s.sys.port p).susp = .resuming →
    ((s.sys.frame p).sof = true → exec (.resumeSignalEnd p) s = .next s) ∧
    ((s.sys.frame p).sof = false → (s.sys.port p).wakePend = 0 → exec (.resumeSignalEnd p) s =
      .next { s with sys := (s.sys.updFrame p fun f => { f with sof := true }).emit (.bus p .lsEop) })) ∧
  (∀ (s : State) (p : Fin 128), s.operates = true → s.sys.linkWorks p = true → (s.sys.port p).susp = .resuming →
    (s.sys.frame p).sof = true → (s.sys.port p).hold = 0 → (s.sys.port p).wakePend = 0 → s.sys.host.decust.cmds = [] →
    Does (.resumeRecoveryEnd p 0) s fun t =>
      t.port p = { s.sys.port p with st := .enabled, susp := .active, hold := 0, wakeRun := false }) ∧
  (∀ (s : State) (p : Fin 128) (tier : Word) (h hp : Nat) (q : HubPort), s.operates = true → tier.toNat ≠ 0 →
    s.sys.hubPortAt p tier.toNat = some (h, hp, q) → q.susp = .resuming → q.told = false → s.sys.resettable p tier.toNat = true →
    ¬ (0 < q.faultAt ∧ s.sys.tb < q.faultAt - 1 + 10000000) → Does (.hubResumeTimeout p tier) s fun t =>
      ∃ e ∈ t.usb.enums, e.port = p.val ∧ e.tier = tier.toNat ∧ e.st = .queued) ∧
  ∀ (s : State) (p : Fin 128) (tier : Word), s.operates = true → s.sys.linkWorks p = true → (s.sys.port p).susp = .suspended →
    Does (.remoteWake p tier) s fun t => (t.port p).susp = .resuming ∧ (t.port p).wakeRun = true ∧ (t.port p).wakePend = tier.toNat + 1 ∧
      t.out.head? = some (.bus p .resumeK)

/-! ## Rings -/

/-- Doorbells of an instance that answers (R91, R101, R102, R105, R114, R129, R131, R134, R612), and the manager's DISABLE (R138). WAKE
lets a RUNNING ring read on and does nothing to another; ENABLE starts a DISABLED or HALTED ring from HEAD and is recorded by a STOPPING
one; DISABLE takes a RUNNING ring without anything outstanding to DISABLED, its taken entries discarded; CLEAR_HALT clears the endpoint's
halt; DB_CMP and DB_EVT start a scan while an entry is not known free, DB_EVT makes a walk due while events are spilled. All this where the
ring's context is on chip; where it is not, the doorbell waits for it. One for a ring that does not exist is discarded. -/
def Obligations.doorbells_act_on_their_rings : Prop :=
  (∀ (s : State) (i : Fin 4096) (r : Fin 16), s.serves .tenant = true → s.sys.hostOn = true → s.sys.contain.chipFault = false →
    s.sys.instHere i = true →
    let k := ringKey i r
    let g := s.sys.ring k
    let others := fun (t : Sys) => (∀ j, j ≠ k → t.ring j = s.sys.ring j) ∧
      t = { s.sys with host := { s.sys.host with rings := t.host.rings, cache := t.host.cache } }
    (g.st = .none → ∀ e : Fin 32, ∀ c ∈ [Instr.dbWake i r, Instr.dbEnable i r, Instr.dbDisable i r, Instr.dbClearHalt i r e],
      exec c s = .next s) ∧
    (g.st ≠ .none → s.sys.cached k = false →
      ∀ c ∈ [(Instr.dbWake i r, DbOp.wake), (Instr.dbEnable i r, DbOp.enable), (Instr.dbDisable i r, DbOp.disable)],
        Does c.1 s fun t => t.host.dbWait = s.sys.host.dbWait ++ [(k, c.2)] ∧ t.host.rings = s.sys.host.rings) ∧
    (s.sys.cached k = true →
      (g.st = .running → Does (.dbWake i r) s fun t => t.ring k = { g with stopped := false } ∧ others t) ∧
      (g.st ≠ .running → Does (.dbWake i r) s fun t => t.ring k = g ∧ others t) ∧
      (g.st = .disabled ∨ g.st = .halted → Does (.dbEnable i r) s fun t =>
        (t.ring k).st = .running ∧ (t.ring k).fetch = g.head ∧ (t.ring k).bad = false ∧ (t.ring k).stopped = false ∧ others t) ∧
      (g.st = .stopping → Does (.dbEnable i r) s fun t => t.ring k = { g with enableRec := true } ∧ others t) ∧
      (g.st = .stopping → Does (.dbDisable i r) s fun t => t.ring k = { g with enableRec := false } ∧ others t) ∧
      (g.st = .running → s.sys.ringBusy k = false → g.toHalt = false → g.destroying = false →
        (s.sys.ring (ringKey i (16 + g.cmp))).waiting = [] → Does (.dbDisable i r) s fun t =>
        (t.ring k).st = .disabled ∧ (t.ring k).taken = [] ∧ (t.ring k).fetch = g.fetch ∧ others t) ∧
      (∀ e : Fin 32, g.st = .disabled ∨ g.st = .running ∨ g.st = .stopping ∨ g.st = .halted → Does (.dbClearHalt i r e) s fun t =>
        (t.slot g.slot).ep e = { (s.sys.slot g.slot).ep e with halted := false } ∧ (∀ n, n ≠ g.slot → t.slot n = s.sys.slot n) ∧
        t.host.rings = s.sys.host.rings ∧ t.usb = s.sys.usb))) ∧
  (∀ (s : State) (i : Fin 4096), s.serves .tenant = true → s.sys.hostOn = true → s.sys.contain.chipFault = false →
    s.sys.instHere i = true →
    (∀ c : Fin 4, (s.sys.ring (ringKey i (16 + c.val))).st ≠ .none → s.sys.cached (ringKey i (16 + c.val)) = true →
      (s.sys.ring (ringKey i (16 + c.val))).known < (s.sys.ring (ringKey i (16 + c.val))).size → Does (.dbCmp i c) s fun t =>
        t.ring (ringKey i (16 + c.val)) = { s.sys.ring (ringKey i (16 + c.val)) with scanning := true } ∧
        ∀ j, j ≠ ringKey i (16 + c.val) → t.ring j = s.sys.ring j) ∧
    ((s.sys.ring (evtKey i)).st ≠ .none → s.sys.cached (evtKey i) = true →
      (s.sys.ring (evtKey i)).known < (s.sys.ring (evtKey i)).size → Does (.dbEvt i) s fun t =>
      t.ring (evtKey i) = { s.sys.ring (evtKey i) with scanning := true } ∧
      t.host.walkDue = (s.sys.host.walkDue || decide (0 < s.sys.spilled i)) ∧ ∀ j, j ≠ evtKey i → t.ring j = s.sys.ring j)) ∧
  ∀ s : State, s.serves .manager = true → s.sys.pageLets .manager (onePg .rng 2) 0x48 false = true →
    let sel := s.sys.pgReg (onePg .rng 2) 0x40
    let k := ringKey (sel.fld 27 16) (sel.fld 4 0)
    sel.fld 4 0 < 16 → (s.sys.ring k).st = .running → s.sys.cached k = true → s.sys.ringBusy k = false → (s.sys.ring k).toHalt = false →
    (s.sys.ring k).destroying = false → (s.sys.ring (ringKey (sel.fld 27 16) (16 + (s.sys.ring k).cmp))).waiting = [] →
    Does .rngViewDisable s fun t => (t.ring k).st = .disabled ∧ (t.ring k).taken = [] ∧ ∀ j, j ≠ k → t.ring j = s.sys.ring j

/-- Submission rings (R91, R102-R104, R107, R108, R112, R124). A read of one entry that a FETCH channel carries, and that still has bytes
to come: one that brings OWN = 1 takes the entry, one with OWN = 0 stops fetching, one that brings poison halts the ring; a context
read is counted and caches the context; a dispatch of a bulk or interrupt entry takes a holding slot and adds an unfinished transfer, or
without a slot leaves the instance exhausted; a timeout marks a transfer on the wire to finish at its packet boundary. -/
def Obligations.submission_rings_take_and_dispatch : Prop :=
  (∀ (s : State) (i : Fin 4096) (r : Fin 16) (c : Nat), s.operates = true → s.sys.ringUnit = true →
    s.sys.unarmed (onePg .rng 0) = true →
    let k := ringKey i r
    let g := s.sys.ring k
    let b := s.sys.chan 0 c
    s.sys.hostCarrier (.desc k) = some c → b.len = 32 → b.addr = g.base + 32 * g.fetch → b.got < b.req →
    b.st ≠ .preempted → g.takes = true →
    (∀ d, d.length = 8 → (d.getD 0 0).bit 0 = true →
      malformed? d ((s.sys.slot g.slot).ep (dEpid d)) (openChain g.taken) = none → Does (.descriptorFetch i r (.ok d)) s fun t =>
        (t.ring k).fetch = (g.fetch + 1) % g.size ∧ (t.ring k).st = .running ∧ (t.chan 0 c).st = .idle ∧
        (∃ u : Taken, (t.ring k).taken = g.taken ++ [u] ∧ u.idx = g.fetch ∧ u.dws = d ∧ u.disp = false) ∧
        ∀ j, j ≠ k → t.ring j = s.sys.ring j) ∧
    (∀ d, d.length = 8 → (d.getD 0 0).bit 0 = false → g.replayLeft = 0 →
      Does (.descriptorFetch i r (.ok d)) s fun t => t.ring k = { g with stopped := true } ∧ ∀ j, j ≠ k → t.ring j = s.sys.ring j) ∧
    (g.taken = [] → s.sys.ringBusy k = false → g.destroying = false → g.enableRec = false →
      Does (.descriptorFetch i r .poison) s fun t => (t.ring k).st = .halted ∧ .aer .poisonedTlp .cor ∈ t.out)) ∧
  (∀ (s : State) (i : Fin 4096) (r : Fin 32) (ws : List Word) (c : Nat), s.operates = true → s.sys.ringUnit = true →
    let k := ringKey i r
    (s.sys.ring k).st ≠ .none → s.sys.host.cache.contains k = false → s.sys.host.cache.length < 8192 →
    s.sys.hostCarrier (.ctx k) = some c → (s.sys.chan 0 c).got < (s.sys.chan 0 c).req → (s.sys.chan 0 c).st ≠ .preempted → (∀ w ∈ s.sys.host.dbWait, w.1 ≠ k) →
    (s.sys.ring k).waiting = [] →
    Does (.contextFetch i r (.ok ws)) s fun t => t.host.cache = k :: s.sys.host.cache ∧ (t.chan 0 c).st = .idle ∧
      t.pgReg (onePg .rng 0) 0x68 = Word.ofN (satInc 4294967295 (s.sys.pgReg (onePg .rng 0) 0x68).toNat) ∧
      (s.sys.host.ctxOut = [] → s.sys.host.fetchQ = [] → s.sys.fetchNext = none →
        t = { s.sys with regs := t.regs, usb := { s.sys.usb with dma := t.usb.dma }, host := { s.sys.host with cache := t.host.cache } })) ∧
  (∀ (s : State) (i : Fin 4096) (r : Fin 16) (n : Fin 32768) (u : Taken), s.operates = true → s.sys.ringUnit = true →
    s.sys.unarmed (onePg .rng 0) = true →
    let k := ringKey i r
    let g := s.sys.ring k
    g.st = .running → s.sys.dispatchable k n = some [u] → dType u.dws = 1 → dFence u.dws = false → u.refuse = 0 →
    ((s.sys.slot g.slot).ep (dEpid u.dws)).open_ = true →
    (∀ own, s.sys.holdFor i = some own → Does (.dispatch i r n) s fun t =>
      (∃ x : Xfer, t.host.xfers = s.sys.host.xfers ++ [x] ∧ x.id = s.sys.host.nextX ∧ x.inst = some i.val ∧ x.ring = r.val ∧
        x.first = n.val ∧ x.slot = g.slot ∧ x.epid = dEpid u.dws ∧ x.total = dLen u.dws ∧ x.fin = none ∧ x.begun = false ∧ x.own = own) ∧
      (if own then (t.inst i).ownUsed = (s.sys.inst i).ownUsed + 1 else (t.inst i).sharedUsed = (s.sys.inst i).sharedUsed + 1)) ∧
    (s.sys.holdFor i = none → Does (.dispatch i r n) s fun t =>
      t.inst i = { s.sys.inst i with exhausted := true } ∧ t.host.xfers = s.sys.host.xfers ∧ t.host.rings = s.sys.host.rings)) ∧
  ∀ (s : State) (i : Fin 4096) (r : Fin 16) (n : Fin 32768) (x : Xfer), s.operates = true → s.sys.xferAt i r n = some x → x.ty < 3 →
    (x.entries.headD (0, 0)).2.fld 31 16 ≠ 0 → s.sys.xfer? x.id = some x → s.sys.onWire x = true →
    exec (.transferTimeout i r n) s = .next { s with sys := s.sys.updX x.id fun x => { x with cut := some 14 } }

/-- Completions and events (R109, R113, R114, R117-R119, R612). A flushing read that is done releases the record of the one transfer it
covers, with the transfer's status, or HOST_BUS_ERR where it failed; the end of a moderation interval lets the next message go, and sends
the one due; a scan makes the entries it read as returned known free, up to the first that is not; the oldest event goes into its
instance's event ring where an entry is known free and nothing is spilled, to SPQ otherwise, and nowhere for an instance that is gone; a
walk delivers the spilled event that is next in its instance's order. A report with nothing outstanding changes nothing. It rests on the
model's readings of log 64. -/
def Obligations.completions_and_events_reach_their_rings : Prop :=
  (∀ (s : State) (i : Fin 4096) (ok : Bool), s.operates = true →
    ((s.sys.inst i).flushing = false → exec (.flushingReadDone i ok) s = .next s) ∧
    ∀ (x : Xfer) (st : Nat), s.sys.contain.chipFault = false → s.sys.recOpen = true →
    (s.sys.inst i).flushing = true → (s.sys.inst i).st = .running → s.sys.host.xfers = [x] → x.inst = some i.val → x.flush = 2 →
    x.fin = some st → x.silent = false → (x.isIn = true → s.sys.rxPending x.port x.id = false ∧ s.sys.drainBusy x.id = false) →
    x.ring < 16 → x.cmp < 4 → (s.sys.slot x.slot).pers.code ≠ 4 →
    let ck := ringKey i (16 + x.cmp)
    (s.sys.ring ck).known = 0 → (s.sys.ring x.rkey).st = .running → (s.sys.ring x.rkey).destroying = false →
    Does (.flushingReadDone i ok) s fun t => t.host.xfers = [] ∧ (t.inst i).flushing = false ∧
      ∃ c : CRec, (t.ring ck).waiting = recIns c (s.sys.ring ck).waiting ∧ c.xid = x.id ∧ c.status = (if ok then st else 10) ∧
        c.sring = x.ring ∧ c.entry = x.last ∧ c.bytes = x.bytes ∧ c.fseq = x.fseq) ∧
  (∀ (s : State) (i : Fin 4096) (r : Fin 32), s.operates = true →
    let k := ringKey i r
    let done := s.sys.updRing k fun g => { g with modRun := false, modDue := false }
    exec (.modIntervalExpiry i r) s = .next { s with sys :=
      if (s.sys.ring k).modRun = true then (if (s.sys.ring k).modDue = true then done.ringMsg k else done) else s.sys }) ∧
  (∀ (s : State) (i : Fin 4096) (r : Fin 32), s.operates = true → s.sys.ringUnit = true →
    let k := ringKey i r
    let g := s.sys.ring k
    let same := fun (t : Sys) => ∀ j, j ≠ k → t.ring j = s.sys.ring j
    (s.sys.hostCarrier (.scan k) = none → g.scanning = false → s.sys.host.fetchQ = [] → ∀ rd,
      Does (.entryScanRead i r rd) s fun t => t.host.rings = s.sys.host.rings) ∧
    ∀ c, g.scanning = true → s.sys.hostCarrier (.scan k) = some c → (s.sys.chan 0 c).got < (s.sys.chan 0 c).req →
      (s.sys.chan 0 c).st ≠ .preempted → (s.sys.chan 0 c).addr = g.base + entryBytes k * ((g.wpos + g.known) % g.size) → g.waiting = [] →
      (∀ m, m ≤ 8 → g.known + m ≤ g.size → Does (.entryScanRead i r (.ok (List.replicate m true))) s fun t =>
        t.ring k = { g with known := g.known + m, scanning := decide (g.known + m < g.size) } ∧ same t) ∧
      (∀ m os, m < 8 → g.known + m < g.size → Does (.entryScanRead i r (.ok (List.replicate m true ++ false :: os))) s fun t =>
        t.ring k = { g with known := g.known + m, scanning := false } ∧ same t) ∧
      Does (.entryScanRead i r .poison) s fun t => t.ring k = { g with scanning := false } ∧ same t) ∧
  (∀ s : State, s.operates = true → s.sys.ringUnit = true → (s.sys.host.evq = [] → exec .eventDelivery s = .next s) ∧
    ∀ (e : Spill) (rest : List Spill), s.sys.host.evq = e :: rest →
    let g := s.sys.ring (evtKey e.inst)
    ((s.sys.inst e.inst).st = .free ∨ (s.sys.inst e.inst).st = .destroying →
      exec .eventDelivery s = .next { s with sys := { s.sys with host := { s.sys.host with evq := rest } } }) ∧
    ((s.sys.inst e.inst).st = .running →
      (s.sys.recOpen = true → g.st = .running → 0 < g.known → s.sys.spilled e.inst = 0 → s.sys.cached (evtKey e.inst) = true →
        Does .eventDelivery s fun t => t.host.evq = rest ∧
        (t.ring (evtKey e.inst)).wpos = (g.wpos + 1) % g.size ∧ (t.ring (evtKey e.inst)).known = g.known - 1 ∧
        (t.inst e.inst).lostPend = false ∧ t.host.spq = s.sys.host.spq) ∧
      (s.sys.recChan = true → g.known = 0 ∨ g.st ≠ .running ∨ 0 < s.sys.spilled e.inst →
        s.sys.spilled e.inst < (s.sys.pgReg (onePg .rng 1) 0x880).fld 11 0 → s.sys.host.spq.length < s.sys.spqSize →
        (s.sys.pgReg (onePg .rng 0) 0x58).bit 31 = true → Does .eventDelivery s fun t => t.host.evq = rest ∧
          t.host.spq = s.sys.host.spq ++ [{ inst := e.inst, seq := g.nextSpill, ev := e.ev }] ∧
          (t.ring (evtKey e.inst)).nextSpill = (g.nextSpill + 1) % 65536))) ∧
  ∀ s : State, s.operates = true → s.sys.ringUnit = true → (s.sys.host.walkDue = false → exec .spqWalk s = .next s) ∧
    ∀ e : Spill, s.sys.recOpen = true → s.sys.host.walkDue = true → s.sys.host.spq = [e] → e.dead = false →
    let g := s.sys.ring (evtKey e.inst)
    s.sys.cached (evtKey e.inst) = true → e.seq = g.nextDeliver → g.st = .running → 0 < g.known → Does .spqWalk s fun t =>
      t.host.spq = [] ∧ (t.ring (evtKey e.inst)).wpos = (g.wpos + 1) % g.size ∧
      (t.ring (evtKey e.inst)).nextDeliver = (g.nextDeliver + 1) % 65536 ∧ t.host.walkDue = false

/-! ## DMA -/

/-- Region DMA (R189, R191, R192, R194-R197, R201, R208, R209, R213): an idle channel takes the request chosen by priority and rotation as
its burst and, with no other burst under way, asks for its first bytes; where a writing burst of higher priority moves on its engine's
data path it is PREEMPTED and asks for nothing; an ageing burst runs at priority 0; the oldest read that fails is issued again while
retries are left, and then its channel halts; the end of a fill whose transfer has gone leaves the channel IDLE; RESTART of a halted
channel makes it IDLE, its error kept, and does nothing to another. It rests on the model's readings of log 64. -/
def Obligations.region_bursts_run : Prop :=
  (∀ (s : State) (e : Fin 9) (c : Fin 32) (r : Req), s.operates = true → s.sys.dmaWorks e = true → e.val ≠ 0 → c.val < 8 →
    (s.sys.chan e c).st = .idle → s.sys.pickReq (e.val - 1) = some r → s.sys.unarmed (dmaMain e) = true →
    let prio := s.sys.kindPrio (e.val - 1) r.kind
    (s.sys.lone e c → Does (.dmaBurstStart e c) s fun t =>
      (t.chan e c).st = .active ∧ (t.chan e c).xid = r.x.id ∧ (t.chan e c).addr = r.addr ∧ (t.chan e c).len = r.len ∧
      (t.chan e c).bytes = 0 ∧ (t.chan e c).prio = prio ∧ FMap.get 31 (e.val - 1) t.usb.rot = r.fifo ∧
      (r.fifo % 2 = 0 → r.setup = false → s.sys.hostOn = true → s.sys.pins.pasidEn = true →
        ∀ a n, (tlpsOf s.sys.maxRead r.addr (min r.len 256)).head? = some (a, n) → .rd (s.sys.pfx r.x.inst) a n ∈ t.out)) ∧
    (∀ m ∈ s.sys.usb.dma, m.1 ≠ e.val * 32 + c.val → m.1 / 32 = e.val → m.2.st = .active → m.2.toHost = true → 0 < m.2.len →
      s.sys.linkFree m.2 = true → m.2.prio < prio → Does (.dmaBurstStart e c) s fun t =>
        (t.chan e c).st = .preempted ∧ (t.chan e c).req = 0 ∧ (t.chan e c).xid = r.x.id ∧ (t.chan e c).len = r.len)) ∧
  (∀ (s : State) (e : Fin 9) (c : Fin 32), s.operates = true → s.sys.dmaRuns e = true → (s.sys.chan e c).reads = true →
    e.val ≠ 0 ∨ 24 ≤ c.val → (s.sys.chan e c).retries < s.sys.dmaRetry e → Does (.dmaReadCompletion e c .ur) s fun t =>
      let k := s.sys.chan e c
      (t.chan e c).st = .retry ∧ (t.chan e c).retries = k.retries + 1 ∧ t.regs = s.sys.regs ∧
      (s.sys.hostOn = true → s.sys.pins.pasidEn = true →
        ∀ m r, k.outst = m :: r → .rd (s.sys.pfx k.inst) (k.addr + k.bst + k.got) m ∈ t.out)) ∧
  (∀ (s : State) (e : Fin 9) (c : Fin 32), s.operates = true → s.sys.dmaRuns e = true → (s.sys.chan e c).reads = true → e.val ≠ 0 →
    s.sys.dmaRetry e ≤ (s.sys.chan e c).retries → s.sys.xfer? (s.sys.chan e c).xid = none →
    (∃ j < 8, j ≠ c.val ∧ (s.sys.chan e j).st ≠ .halted) → (s.sys.chan e c).inst = none → Does (.dmaReadCompletion e c .ca) s fun t =>
      (t.chan e c).st = .halted ∧ (t.pgReg (dmaPg e c) 0x18).fld 8 8 = 1) ∧
  (∀ (s : State) (e : Fin 9) (c : Fin 32), s.operates = true → s.sys.dmaRuns e = true → (s.sys.chan e c).carries = true →
    (s.sys.pgReg (dmaMain e) 0x240).bit 4 = true →
    exec (.dmaAgeing e c) s = .next { s with sys := (s.sys.updChan e c fun k => { k with aged := true, prio := 0 }).arb }) ∧
  (∀ (s : State) (e : Fin 9) (c : Fin 32), s.operates = true → s.sys.dmaRuns e = true → e.val ≠ 0 →
    let k := s.sys.chan e c
    k.st = .active → k.toHost = false → 0 < k.len → k.setup = true ∨ k.bytes - k.bst = k.len →
    k.inst = none → s.sys.xfer? k.xid = none → Does (.dmaBurstEnd e c) s fun t => t.chan e c = { st := .idle, err := k.err }) ∧
  ∀ (s : State) (e : Fin 9) (c : Fin 32), s.serves .manager = true → e.val = 0 ∨ c.val < 8 →
    s.sys.pageLets .manager (dmaPg e c) (0x40 + 0x40 * (c.val % 8)) false = true →
    ((s.sys.chan e c).st = .halted → e.val ≠ 0 ∨ 24 ≤ c.val → exec (.channelRestart .manager e c) s =
      .next { s with sys := s.sys.updChan e c fun k => { st := .idle, err := k.err } }) ∧
    ((s.sys.chan e c).st = .halted → Does (.channelRestart .manager e c) s fun t => (t.chan e c).st ≠ .halted) ∧
    ((s.sys.chan e c).st ≠ .halted → exec (.channelRestart .manager e c) s = .next s)

/-- Firmware transfers (R196, R199, R201, R214-R216, R417, R614). START samples the channel's registers: with a DCQ entry free the channel
is ACTIVE, else it waits for one, and a length of 0 or a local range outside one memory sets CFG. A burst takes at most 512 bytes and asks
for them; read data goes into the local memory, and a write leaves as the TLPs of its range; the last burst of a transfer writes its DCQ
record and leaves the channel IDLE. A write of DMA_DCQ_CI frees entries, with which waiting channels start. It rests on the model's
readings of logs 46, 64. -/
def Obligations.firmware_transfers_run : Prop :=
  (∀ (s : State) (k : Fin 16) (j : Fin 8), s.operates = true → s.sys.coreActs k = true →
    s.sys.pageLets (.core k) fwPg (0x40 + 0x40 * j.val) false = true → (s.sys.chan 0 (24 + j.val)).st = .idle →
    let la := (s.sys.pgReg fwPg (0x50 + 0x40 * j.val)).fld 27 0
    let n := (s.sys.pgReg fwPg (0x54 + 0x40 * j.val)).fld 23 0
    (n ≠ 0 → localOk la n = true → Does (.firmwareDmaStart k j) s fun t =>
      (t.chan 0 (24 + j.val)).st = (if s.sys.dcqFree then .active else .waitDcq) ∧ (t.chan 0 (24 + j.val)).total = n ∧
      (t.chan 0 (24 + j.val)).laddr = la ∧ (t.chan 0 (24 + j.val)).bytes = 0 ∧
      (if s.sys.dcqFree then t.usb.dcqRsv = s.sys.usb.dcqRsv + 1 else t.usb.dcqWait = s.sys.usb.dcqWait ++ [j.val]) ∧
      t.regs = s.sys.regs) ∧
    (n = 0 ∨ localOk la n = false → Does (.firmwareDmaStart k j) s fun t =>
      s.sys.reportsOnly t ∧ t.pgReg fwPg 0x18 = (s.sys.pgReg fwPg 0x18).put 3 3 1)) ∧
  (∀ (s : State) (c : Fin 32), s.operates = true → 24 ≤ c.val →
    let k := s.sys.chan 0 c
    let n := min 512 (k.total - k.bytes)
    (s.sys.dmaWorks 0 = true → k.st = .active → k.len = 0 → k.toHost = false → k.inst = none → k.link = true → k.setup = false →
      s.sys.hostOn = true → k.bytes < k.total → s.sys.lone 0 c → s.sys.unarmed (dmaPg 0 c) = true →
      Does (.dmaBurstStart 0 c) s fun t => (t.chan 0 c).st = .active ∧ (t.chan 0 c).len = n ∧ (t.chan 0 c).bst = k.bytes ∧
        (t.chan 0 c).bytes = k.bytes ∧ (t.chan 0 c).prio = (s.sys.pgReg fwPg (0x40 + 0x40 * (c.val - 24))).fld 1 0 ∧
        ∀ a m, (tlpsOf s.sys.maxRead (k.addr + k.bytes) (min n 256)).head? = some (a, m) → .rd none a m ∈ t.out) ∧
    (∀ bs, s.sys.dmaRuns 0 = true → k.reads = true → k.st ≠ .preempted → s.sys.lone 0 c → k.buf = [] → k.req = k.len →
      bs.length = k.len - k.got → 0x800000 ≤ k.laddr + k.bytes → k.laddr + k.bytes + bs.length ≤ 0x1000000 →
      s.sys.unarmed (dmaPg 0 c) = true → s.sys.unarmed (onePg .wsc 0) = true → Does (.dmaReadCompletion 0 c (.ok bs)) s fun t =>
        t.chan 0 c = { k with st := .active, bytes := k.bytes + bs.length, outst := outTake bs.length k.outst,
                              retries := if (outTake bs.length k.outst).length < k.outst.length then 0 else k.retries } ∧ t.localBytes (k.laddr + k.bytes) bs.length = bs ∧
        t.regs = s.sys.regs) ∧
    (s.sys.dmaRuns 0 = true → k.st = .active → 0 < k.len → k.toHost = false → k.bytes - k.bst = k.len → k.bytes < k.total →
      exec (.dmaBurstEnd 0 c) s = .next { s with sys := (s.sys.updChan 0 c fun k => { k with len := 0 }).arb }) ∧
    (s.sys.dmaRuns 0 = true → k.st = .active → 0 < k.len → k.toHost = false → k.bytes - k.bst = k.len → k.total ≤ k.bytes →
      Does (.dmaBurstEnd 0 c) s fun t => t.chan 0 c = { st := .idle, err := k.err } ∧ t.usb.dcqRsv = s.sys.usb.dcqRsv - 1 ∧
        t.pgReg fwPg 0x254 = Word.ofN (advIdx s.sys.dcqSize (s.sys.pgReg fwPg 0x254).toNat)) ∧
    (s.sys.dmaRuns 0 = true → k.st = .active → 0 < k.len → k.toHost = true → k.inst = none → s.sys.hostOn = true →
      Does (.dmaBurstEnd 0 c) s fun t =>
        ∀ a m, (a, m) ∈ tlpsOf s.sys.maxPayload (k.addr + k.bytes) k.len → ∃ bad, .mem none false bad a
          (((s.sys.localBytes (k.laddr + k.bytes) k.len).drop (a - (k.addr + k.bytes))).take m) ∈ t.out)) ∧
  ∀ (s : State) (k : Fin 16) (v : Word), s.operates = true → s.sys.coreActs k = true → s.sys.pageLets (.core k) fwPg 0x258 false = true →
    let pi := (s.sys.pgReg fwPg 0x254).toNat
    (qBad s.sys.dcqSize pi (v.fld 16 0) (v.fld 16 0) = true → Does (.dcqCiWrite k v) s fun t =>
      s.sys.reportsOnly t ∧ t.pgReg fwPg 0x18 = (s.sys.pgReg fwPg 0x18).put 3 3 1) ∧
    (qBad s.sys.dcqSize pi (v.fld 16 0) (v.fld 16 0) = false → Does (.dcqCiWrite k v) s fun t =>
      t.pgReg fwPg 0x258 = Word.ofN (v.fld 16 0) ∧ t.pgReg fwPg 0x254 = s.sys.pgReg fwPg 0x254 ∧
      ∀ j r, s.sys.usb.dcqWait = j :: r → j ∉ r → t.dcqUsed + s.sys.usb.dcqRsv < s.sys.dcqSize → (t.chan 0 (24 + j)).st = .active)

/-- PASID Enable (R204): clearing it changes nothing else; once it is set, what waited for it is issued in order, each request as HOST
lets it out. Said of the writes that wait; no channel carries a burst and nothing finished waits to be reported. It rests on the model's
readings of log 10. -/
def Obligations.pasid_enable_releases_in_order : Prop :=
  ∀ s : State, s.operates = true →
    exec (.pasidEnableChange false) s = .next { s with sys := { s.sys with pins := { s.sys.pins with pasidEn := false } } } ∧
    (s.sys.hostOn = true → s.sys.contain.chipFault = false →
      (∀ i, (s.sys.inst i).st ≠ .resetting ∧ (s.sys.inst i).st ≠ .destroying) → (∀ m ∈ s.sys.usb.dma, m.2.carries = false) →
      (∀ x ∈ s.sys.host.xfers, x.fin = none ∧ x.flush ≠ 1) → (∀ r ∈ s.sys.host.rings, r.2.waiting = []) →
      s.sys.host.msgWait = [] → s.sys.host.fetchQ = [] → s.sys.host.ctxOut = [] → s.sys.fetchNext = none →
      Does (.pasidEnableChange true) s fun t =>
        t.heldPasid = [] ∧ t.out = s.sys.heldPasid.reverse ++ s.sys.out ∧
        t = { s.sys with out := t.out, heldPasid := [], pins := { s.sys.pins with pasidEn := true } })

/-! ## Delay lists -/

/-- A write to WSC_DLYj.TICK while list j holds items, or with a value outside 1-1,024, is discarded and sets CFG (R446); any other is
stored and changes nothing else. -/
def Obligations.delay_ticks_are_guarded : Prop :=
  ∀ (s : State) (j : Fin 4) (off : Fin 67108864) (v : Word), s.serves .manager = true →
    target .manager off = .page wscPg (0x70 + 4 * j.val) → s.sys.pageLets .manager wscPg (0x70 + 4 * j.val) false = true →
    ((∃ d ∈ s.sys.eng.holly.delays, d.list = j.val) ∨ v.fld 10 0 < 1 ∨ 1024 < v.fld 10 0 →
      Does (.registerWrite .manager off v) s fun t => s.sys.reportsOnly t ∧ s.sys.dlyTick j = t.dlyTick j ∧
        t.pgReg wscPg 0x18 = (s.sys.pgReg wscPg 0x18).put 3 3 1) ∧
    ((∀ d ∈ s.sys.eng.holly.delays, d.list ≠ j.val) → 1 ≤ v.fld 10 0 → v.fld 10 0 ≤ 1024 →
      Does (.registerWrite .manager off v) s fun t => t.dlyTick j = v.fld 10 0 ∧ t = { s.sys with regs := t.regs } ∧
        ∀ a, a ≠ wscPg.base + 0x70 + 4 * j.val → t.reg a = s.sys.reg a)

/-! ## Personalities -/

/-- Scanners (R331, R345-R349). A key that its keymap gives a character (which one is free) joins the scan, or begins one where no prefix
is configured, and the gap timer starts; a suffix ends the scan, whose data is reported; a roll-over report changes nothing. A
point-of-sale report that continues joins the scan and one that does not ends it. The end of the gap ends a scan or a partial prefix. A
poisoned report is discarded with the partial scan. Times are those at which the report handled was received (R346, R442); an expiry that
a later event has superseded, or that is not due, does nothing (R332). It rests on the model's readings of logs 16, 75. -/
def Obligations.scans_collect_and_report : Prop :=
  (∀ (s : State) (n : Fin 8193) (rep : List Byte), s.operates = true → s.sys.bound n 1 →
    let p := s.sys.persOf n
    let q := p.scan
    let now := s.sys.reportAt n
    let sound := !(s.sys.itemNow n .report).any (·.poison)
    let holds := fun (t : Sys) (z : Pers) => t.slot n = { s.sys.slot n with pers := z }
    (sound = true → rollOver (bootKeys rep) = true → Does (.scanKbdReport n rep false) s fun t => s.sys.keepsSlots t n ∧ holds t p) ∧
    (∀ k : Byte, sound = true → rollOver (bootKeys rep) = false → pressed q.prev (bootKeys rep) = [k] → p.b 0 = 0 →
      let v := scanChar (p.b 10) k (byteAt rep 0)
      let c := BitVec.ofNat 8 v
      (p.b 1 = 0 → Does (.scanKbdReport n rep false) s fun t => s.sys.keepsSlots t n ∧
        (v = 0 → holds t { p with scan := { q with prev := bootKeys rep } }) ∧
        (v ≠ 0 → holds t (s.sys.arms .gap now (p.h 12) { p with scan := { q with
          prev := bootKeys rep
          active := true
          data := if q.active then q.data ++ [c] else [c]
          start := if q.active then q.start else now
          gap := s.sys.persDue now (p.h 12) } }))) ∧
      (∀ i, s.sys.hears n i → p.b 1 = 1 → p.suffix_ = [c] → p.b 11 % 2 = 0 → q.active = true → q.sym = [] → q.recent = [] →
        0 < q.data.length → q.data.length ≤ 16 → q.data.length ≤ p.b 14 → Does (.scanKbdReport n rep false) s fun t =>
          (v = 0 → holds t { p with scan := { q with prev := bootKeys rep } }) ∧
          (v ≠ 0 → holds t (({ p with scan := { prev := bootKeys rep } } : Pers).stops .gap) ∧ s.sys.evAdded t i [s.sys.persEv n 0x40 p.inEpid q.start
            [Word.ofN q.data.length, charDw q.data 0, charDw q.data 1, charDw q.data 2, charDw q.data 3]]))) ∧
    (∀ bad, bad = true ∨ sound = false → Does (.scanKbdReport n rep bad) s fun t => s.sys.keepsSlots t n ∧
      (t.slot n).pers.scan = { prev := q.prev } ∧ ∀ i, (s.sys.slot n).inst = some i → (t.inst i).lostPend = true)) ∧
  (∀ (s : State) (n : Fin 8193) (rep : PosReport), s.operates = true → s.sys.handles n 2 .report → rep.poison = false →
    let p := s.sys.persOf n
    let q := p.scan
    let now := s.sys.reportAt n
    let sym := if rep.sym2 != 0 then [rep.sym2, rep.sym3] else q.sym
    let start := if q.data.isEmpty then now else q.start
    let data := q.data ++ rep.decoded
    (rep.cont = true → Does (.scanPosReport n rep) s fun t => s.sys.keepsSlots t n ∧ t.slot n = { s.sys.slot n with pers :=
      (s.sys.arms .gap now (p.h 12) { p with scan :=
        { q with active := true, data := data, start := start, sym := sym, gap := s.sys.persDue now (p.h 12) } }) }) ∧
    (∀ i, s.sys.hears n i → rep.cont = false → p.b 0 = 0 → p.b 1 = 0 → 0 < rep.decoded.length → data.length ≤ 16 →
      data.length ≤ p.b 14 → Does (.scanPosReport n rep) s fun t =>
        s.sys.evAdded t i [s.sys.persEv n 0x40 p.inEpid start
          [Word.ofN (data.length + (if sym.isEmpty then 0 else 4) * 4096 + (byteAt sym 0).toNat * 65536 +
            (byteAt sym 1).toNat * 16777216), charDw data 0, charDw data 1, charDw data 2, charDw data 3]] ∧
        s.sys.keepsSlots t n ∧ (t.slot n).pers.scan = { prev := q.prev })) ∧
  ∀ (s : State) (n : Fin 8193) (c : Nat), s.operates = true → c = 1 ∨ c = 2 → s.sys.handles n c .expiry →
    let q := (s.sys.slot n).pers.scan
    let up := s.sys.timerUp n .gap
    (q.gap = 0 ∨ up = false → exec (.scanGapExpiry n) s = .next s) ∧
    (q.gap ≠ 0 → up = true → q.active = false → Does (.scanGapExpiry n) s fun t => s.sys.keepsSlots t n ∧
      (t.slot n).pers.scan = { q with recent := [], gap := 0 }) ∧
    (q.gap ≠ 0 → up = true → q.active = true → Does (.scanGapExpiry n) s fun t => s.sys.keepsSlots t n ∧
      (t.slot n).pers.scan = { prev := q.prev })

/-- The scale and the keyboard (R350, R351, R361). A report beyond the scale's range or with a fault leaves the scale BAD; a steady one
begins a candidate with its timer; the end of that timer makes the weight STABLE and reports it, or ZERO at zero. A keyboard report's
presses are reported and it becomes the previous report; a roll-over report changes nothing. It rests on the model's readings of logs 20,
75. -/
def Obligations.weights_and_keys_are_judged : Prop :=
  (∀ (s : State) (n : Fin 8193) (r : ScaleReport), s.operates = true → s.sys.handles n 3 .report → r.poison = false →
    let p := s.sys.persOf n
    let now := s.sys.reportAt n
    let c := p.scale
    (scaleReason r ≠ 0 → c.st = .bad → Does (.scaleReport n r) s fun t => s.sys.keepsSlots t n ∧
      (t.slot n).pers.scale = { c with cand := none }) ∧
    (∀ i, s.sys.hears n i → scaleReason r ≠ 0 → c.st = .stable → scaleBig r = false → Does (.scaleReport n r) s fun t =>
      s.sys.evAdded t i [s.sys.persEv n 0x42 p.inEpid now (s.sys.scaleDws r ++ [Word.ofN (scaleReason r)])] ∧
      (t.slot n).pers.scale = { c with st := .bad, cand := none }) ∧
    (scaleReason r = 0 → r.st = .stable → c.st = .bad → c.cand = none → Does (.scaleReport n r) s fun t =>
      s.sys.keepsSlots t n ∧ (t.slot n).pers.scale = { c with timer := c.timer + 1,
                                                                   cand := some
                                                                    { v := r.v, last := r, timer := c.timer + 1,
                                                                      due := s.sys.persDue now (p.h 0) } })) ∧
  (∀ (s : State) (n : Fin 8193) (tm : Nat) (c : ScaleCand), s.operates = true → s.sys.handles n 3 .expiry →
    let p := (s.sys.slot n).pers
    p.scale.cand = some c → c.timer = tm → tm ≠ 0 → s.sys.timerUp n .stab = true →
    (gapOf c.last.v 0 ≤ (p.h 4 : Int) → Does (.scaleStabilityExpiry n tm) s fun t => s.sys.keepsSlots t n ∧
      (t.slot n).pers.scale = { p.scale with st := .zero, shown := c.last.v, cand := some { c with timer := 0 } }) ∧
    (∀ i m, s.sys.hears n i → (p.h 4 : Int) < gapOf c.last.v 0 → scaleMg c.last = some m → (leNat (p.seq 6 4) : Int) ≤ m →
      p.scale.st = .bad → scaleBig c.last = false → Does (.scaleStabilityExpiry n tm) s fun t =>
        s.sys.evAdded t i [s.sys.persEv n 0x41 p.inEpid c.due (s.sys.scaleDws c.last ++ [Word.ofN (p.scale.seq % 65536)])] ∧
        (t.slot n).pers.scale = { p.scale with st := .stable, shown := c.last.v, seq := p.scale.seq + 1,
                                               cand := some { c with timer := 0 } })) ∧
  ∀ (s : State) (n : Fin 8193) (rep : List Byte), s.operates = true → s.sys.handles n 7 .report →
    let p := s.sys.persOf n
    (rollOver (bootKeys rep) = true → Does (.keyboardReport n rep false) s fun t => s.sys.keepsSlots t n ∧ (t.slot n).pers = p) ∧
    (∀ i k, s.sys.hears n i → rollOver (bootKeys rep) = false → p.b 1 % 2 = 0 → pressed p.keys (bootKeys rep) = [k] →
      BitVec.ofNat 8 p.mods = byteAt rep 0 → Does (.keyboardReport n rep false) s fun t =>
        s.sys.evAdded t i [s.sys.persEv n 0x48 p.inEpid (s.sys.reportAt n) [Word.ofN (k.toNat + (byteAt rep 0).toNat * 256 + 65536),
          Word.ofN (keyPoint (p.b 0) k (byteAt rep 0))]] ∧
        s.sys.keepsSlots t n ∧ (t.slot n).pers = { p with keys := bootKeys rep, mods := (byteAt rep 0).toNat })

/-- The printer (R352-R355, R439). A status block gives the bits whose locators are valid; a due poll queues its request; the notice of
OUT completions adds their sum to the job and starts IDLE_MS; the notice of a power change shows NO_HPWR; the end of IDLE_MS ends the
job of a healthy printer, and waits for health otherwise. -/
def Obligations.printers_report_status_and_jobs : Prop :=
  ∀ (s : State) (n : Fin 8193), s.operates = true → (∀ k ∈ [ItemK.report, .notice, .expiry], s.sys.handles n 4 k) →
    let p := (s.sys.slot n).pers
    let q := p.prn
    let up := s.sys.timerUp n
    (∀ blk : List Byte, blk.length ≠ p.b 4 ∨ blk = [] → Does (.printerStatusBlock n blk false) s fun t => s.sys.keepsSlots t n ∧
      t.slot n = { s.sys.slot n with pers := s.sys.persOf n }) ∧
    (∀ blk : List Byte, blk.length = p.b 4 → blk ≠ [] → Does (.printerStatusBlock n blk false) s fun t => s.sys.keepsSlots t n ∧
      (∀ b ∈ [(3, 5), (4, 7), (5, 8), (6, 9), (7, 10)],
        Nat.testBit (t.slot n).pers.prn.status b.1 = (locBit (p.b b.2) blk).getD (Nat.testBit q.status b.1)) ∧
      Nat.testBit (t.slot n).pers.prn.status 2 = ((locBit (p.b 6) blk).getD q.blkOut || q.pollOut) ∧
      ∀ b ∈ [0, 1, 8], Nat.testBit (t.slot n).pers.prn.status b = Nat.testBit q.status b) ∧
    (p.h 0 = 0 ∨ up .poll = false → exec (.printerStatusPoll n) s = .next s) ∧
    (p.h 0 ≠ 0 → up .poll = true → Does (.printerStatusPoll n) s fun t => s.sys.keepsSlots t n ∧
      t.slot n = { s.sys.slot n with pers := (s.sys.arms .poll s.sys.tb (p.h 0) { p with req := p.req ++ [.poll] }) }) ∧
    Does (.printerOutNotice n) s (fun t => s.sys.keepsSlots t n ∧ (t.slot n).notice = 0 ∧ (t.slot n).outNotice = false ∧
      (t.slot n).pers.prn.job = min 4294967295 (q.job + (s.sys.slot n).notice) ∧
      ((s.sys.slot n).outNotice = true → p.b 9 < 128 → 0 < q.job + (s.sys.slot n).notice → (t.slot n).pers.prn.idleDue = true ∧ (t.slot n).pers.prn.idleWait = false)) ∧
    Does (.powerChangeNotice n) s (fun t => s.sys.keepsSlots t n ∧ (t.slot n).pwrNotice = false ∧
      Nat.testBit (t.slot n).pers.prn.status 8 = s.sys.noHpwr n ∧
      ∀ b, b < 8 → Nat.testBit (t.slot n).pers.prn.status b = Nat.testBit q.status b) ∧
    (q.idleDue = false ∨ up .idle = false → exec (.printerIdleExpiry n) s = .next s) ∧
    (q.idleDue = true → up .idle = true → healthy q.status = false → Does (.printerIdleExpiry n) s fun t => s.sys.keepsSlots t n ∧
      t.slot n = { s.sys.slot n with pers := ({ p with prn := { q with idleDue := false, idleWait := true } } : Pers).stops .idle }) ∧
    (∀ i, s.sys.hears n i → q.idleDue = true → up .idle = true → healthy q.status = true → Does (.printerIdleExpiry n) s fun t =>
      s.sys.evAdded t i [s.sys.persEv n 0x46 0 s.sys.tb [Word.ofN q.job, Word.ofN q.status]] ∧
      (t.slot n).pers = ({ p with prn := { q with job := 0, idleDue := false, idleWait := false } } : Pers).stops .idle)

/-- The drawer (R356-R358). A level that differs from the accepted one becomes the candidate and one that agrees clears it; after
SENSE_MS the candidate is accepted and the opening reported. A KICK of an open drawer is answered ALREADY OPEN, a KICK during another
waits in its place, and the others begin with OPEN_DATA; the end of the gap sends it, the end of the pulse sends RELEASE_DATA or owes
it to a suspended device, and the end of OPEN_WAIT_MS reports the failure to open. -/
def Obligations.drawers_are_kicked_and_sensed : Prop :=
  ∀ (s : State) (n : Fin 8193), s.operates = true → (∀ k ∈ [ItemK.report, .record, .expiry], s.sys.handles n 5 k) →
    let p := (s.sys.slot n).pers
    let r := s.sys.persOf n
    let d := p.drw
    let up := s.sys.timerUp n
    let gets := fun (t : Sys) (z : Pers) => s.sys.keepsSlots t n ∧ t.slot n = { s.sys.slot n with pers := z }
    let with_ := fun (z : Pers) (e : Drawer) (rs : List PReq) => ({ z with drw := e, req := z.req ++ rs } : Pers)
    (∀ rep : List Byte,
      (locBit (p.b 8) rep = none → Does (.drawerSenseReport n rep false) s fun t => gets t r) ∧
      (∀ v, locBit (p.b 8) rep = some v → d.acc = some v → Does (.drawerSenseReport n rep false) s fun t =>
        gets t ((with_ r { d with cand := none } []).stops .sense)) ∧
      (∀ v, locBit (p.b 8) rep = some v → d.acc ≠ some v → Does (.drawerSenseReport n rep false) s fun t =>
        gets t (if d.cand = some v then r
          else s.sys.arms .sense (s.sys.reportAt n) (p.h 6) (with_ r { d with cand := some v } [])))) ∧
    (d.cand = none ∨ up .sense = false → exec (.drawerSenseExpiry n) s = .next s) ∧
    (∀ i, s.sys.hears n i → up .sense = true → d.cand = some true → d.acc = some false → d.waitOpen = false → Does (.drawerSenseExpiry n) s fun t =>
      gets t ((with_ p { d with acc := some true, cand := none, openAt := some s.sys.tb } []).stops .sense) ∧
      s.sys.evAdded t i [s.sys.persEv n 0x44 p.inEpid s.sys.tb [0]]) ∧
    (∀ i u, s.sys.hears n i → up .sense = true → d.cand = some false → d.acc = some true → d.openAt = some u → Does (.drawerSenseExpiry n) s fun t =>
      gets t ((with_ p { d with acc := some false, cand := none, openAt := none } []).stops .sense) ∧
      s.sys.evAdded t i [s.sys.persEv n 0x45 p.inEpid s.sys.tb [0, Word.ofN ((s.sys.tb - u) / 1000)]]) ∧
    (∀ tag ms : Fin 65536,
      (d.kick ≠ .none → Does (.kick n tag ms) s fun t => gets t (with_ p { d with next := some (tag.val, ms.val) } [])) ∧
      (∀ i, s.sys.hears n i → d.kick = .none → d.waitOpen = false → d.acc = some true → Does (.kick n tag ms) s fun t =>
        gets t p ∧ s.sys.evAdded t i [s.sys.persEv n 0x44 p.cmdEpid s.sys.tb [Word.ofN (2 + tag.val * 65536)]]) ∧
      (d.kick = .none → d.waitOpen = false → d.acc ≠ some true → d.lastPulse = none → Does (.kick n tag ms) s fun t =>
        gets t (with_ p { d with tag := tag, failed := false, kick := .openReq,
                                 pulse := if ms.val = 0 then p.h 0 else max 10 (min 500 ms.val) } [.kickOpen]))) ∧
    (d.kick = .gap → up .kickGap = true → Does (.kickGapExpiry n) s fun t =>
      gets t ((with_ p { d with kick := .openReq } [.kickOpen]).stops .kickGap)) ∧
    (d.kick ≠ .gap ∨ up .kickGap = false → exec (.kickGapExpiry n) s = .next s) ∧
    (d.kick = .pulse → up .pulse = true → s.sys.slotQuiet n = false → Does (.pulseExpiry n) s fun t =>
      gets t ((with_ p { d with kick := .release } [.kickRelease]).stops .pulse)) ∧
    (d.kick = .pulse → up .pulse = true → s.sys.slotQuiet n = true → Does (.pulseExpiry n) s fun t =>
      gets t ((with_ p { d with kick := .releaseOwed } []).stops .pulse)) ∧
    (d.kick ≠ .pulse ∨ up .pulse = false → exec (.pulseExpiry n) s = .next s) ∧
    (d.waitOpen = false ∨ up .openWait = false → exec (.openWaitExpiry n) s = .next s) ∧
    (∀ i, s.sys.hears n i → d.waitOpen = true → up .openWait = true → d.kick ≠ .none → Does (.openWaitExpiry n) s fun t =>
      gets t ((with_ p { d with waitOpen := false } []).stops .openWait) ∧
      s.sys.evAdded t i [s.sys.persEv n 0x45 p.cmdEpid s.sys.tb [Word.ofN (1 + d.tag * 65536), 0]])

/-- The display and the personalities' requests (R325, R359, R360). A command whose data the parameters give waits in the queue and, at
its head, is sent as a request; one they reject is acknowledged REJECTED. A request that fails is repeated twice; one that succeeds
lets the next request of the slot go. -/
def Obligations.displays_and_requests_run : Prop :=
  (∀ (s : State) (n : Fin 8193) (c : Instr) (k : DispCmd), s.operates = true → s.sys.handles n 6 .record →
    (∃ tag ms : Fin 65536, c = .kick n tag ms ∧ k = { op := 0x01, tag := tag }) ∨
    (∃ tag : Fin 65536, c = .clear n tag ∧ k = { op := 0x10, tag := tag }) ∨
    (∃ (tag : Fin 65536) (line col : Fin 256) (cs : List Byte), c = .text n tag line col cs ∧
      k = { op := 0x11, tag := tag, a := line, col := col, chars := cs }) ∨
    (∃ (tag : Fin 65536) (level : Fin 256), c = .bright n tag level ∧ k = { op := 0x12, tag := tag, a := level }) →
    let p := (s.sys.slot n).pers
    (p.disp ≠ [] → exec c s = .next { s with sys := s.sys.updPers n fun p => { p with disp := p.disp ++ [k] } }) ∧
    (p.disp = [] → (p.dispData k).isSome = true → Does c s fun t => s.sys.keepsSlots t n ∧
      t.slot n = { s.sys.slot n with pers := { p with disp := [k], req := p.req ++ [.display] } }) ∧
    (∀ i, s.sys.hears n i → p.disp = [] → p.dispData k = none → Does c s fun t => s.sys.keepsSlots t n ∧
      t.slot n = s.sys.slot n ∧
      s.sys.evAdded t i [s.sys.persEv n 0x49 p.cmdEpid s.sys.tb [Word.ofN (k.tag + k.op * 65536 + 2 * 16777216)]])) ∧
  ∀ (s : State) (n : Fin 8193) (r : PReq) (rest : List PReq) (res : ReqRes), s.operates = true → s.sys.on 17 = true →
    let d := s.sys.slot n
    d.pers.req = r :: rest → s.sys.reqWaits 2 d.port d.tier = false → r = .report ∨ r = .protocol → s.sys.normWaiting n = [] →
    d.pers.code = 0 ∨ s.sys.freshParams n = s.sys →
    (∀ bs, res = .ok bs → Does (.personalityRequestComplete n res) s fun t => s.sys.keepsSlots t n ∧
      t.slot n = { d with pers := { d.pers with req := rest, tries := 0 } }) ∧
    (res = .stall ∨ res = .failed → d.pers.tries < 2 → Does (.personalityRequestComplete n res) s fun t => s.sys.keepsSlots t n ∧
      t.slot n = { d with pers := { d.pers with tries := d.pers.tries + 1 } })

/-! ## Decust -/

/-- The queues of Decust (R136, R369, R371, R374, R400, R615). MCQ's next entry, as a QUEUE channel reads it, is copied on chip and its
entry freed; one whose read brings poison is answered HOST_BUS_ERR, one with a reserved OPCODE NOT_SUPPORTED. A consumer index outside
MEQ's range is refused with CFG; another takes effect. EN of MCQ and MEQ takes the value written, and a response that waited is written
once MEQ's is 1. MGR_RESTART drops the responses that wait; it ends at once where no command is in progress, and waits otherwise. It rests
on the model's readings of logs 43, 64, 65. -/
def Obligations.decust_queues_move : Prop :=
  (∀ (s : State) (rd : DwRes) (ch : Nat), s.operates = true → s.sys.mcqTakes = true → s.sys.unarmed tenPg = true →
    s.sys.hostCarrier .mcq = some ch → (s.sys.chan 0 ch).got < (s.sys.chan 0 ch).req → (s.sys.chan 0 ch).st ≠ .preempted →
    let ci := (s.sys.pgReg tenPg 0x60).toNat
    let d := s.sys.host.decust
    let next := fun (t : Sys) => t.pgReg tenPg 0x60 = Word.ofN (advIdx s.sys.mcqSize ci)
    (∀ ws, rd = .ok ws → d.cmds = [] →
      let c : DCmd := { seq := d.nseq, idx := ci % 65536, dws := ws.take 16 }
      (c.keys ≠ [] → Does (.mcqTake rd) s fun t => next t ∧
        (t.chan 0 ch).st = .idle ∧ t = { s.sys with
          regs := t.regs, usb := { s.sys.usb with dma := t.usb.dma },
          host := { s.sys.host with decust := { d with cmds := [c], nseq := d.nseq + 1 } } }) ∧
      (c.keys = [] → (c.fence = true → d.resps = []) → Does (.mcqTake rd) s fun t => next t ∧ s.sys.answered t c 1 [])) ∧
    (rd = .poison → Does (.mcqTake rd) s fun t => next t ∧ t.host.decust.cmds = d.cmds ∧ (t.chan 0 ch).st = .halted ∧
      s.sys.responded t (s.sys.respDws 0 0 (ci % 65536) 0x10 []))) ∧
  (∀ (s : State) (v : Word), s.serves .manager = true → s.sys.pageLets .manager tenPg 0x74 false = true →
    let pi := (s.sys.pgReg tenPg 0x70).toNat
    (qBad s.sys.meqSize pi (v.fld 16 0) (v.fld 16 0) = true → Does (.meqCiWrite v) s fun t =>
      s.sys.reportsOnly t ∧ t.pgReg tenPg 0x18 = (s.sys.pgReg tenPg 0x18).put 3 3 1) ∧
    (qBad s.sys.meqSize pi (v.fld 16 0) (v.fld 16 0) = false → s.sys.host.decust.resps = [] → s.sys.host.decust.events = [] →
      s.sys.host.decust.cmds = [] → Does (.meqCiWrite v) s fun t => t.pgReg tenPg 0x74 = Word.ofN (v.fld 16 0) ∧
        t = { s.sys with regs := t.regs })) ∧
  (∀ (s : State) (en : Bool), s.serves .manager = true →
    (s.sys.pageLets .manager tenPg 0x58 false = true → Does (.mcqEnable en) s fun t =>
      t.pgReg tenPg 0x58 = (s.sys.pgReg tenPg 0x58).put 31 31 (if en then 1 else 0) ∧ t = { s.sys with regs := t.regs }) ∧
    (s.sys.pageLets .manager tenPg 0x6C false = true → en = false → Does (.meqEnable en) s fun t =>
      t.pgReg tenPg 0x6C = (s.sys.pgReg tenPg 0x6C).put 31 31 0 ∧ t = { s.sys with regs := t.regs }) ∧
    (∀ dws, s.sys.pageLets .manager tenPg 0x6C false = true → en = true → s.sys.queueChan = true →
      s.sys.host.decust.cmds = [] → s.sys.host.decust.again = false → s.sys.host.decust.resps = [.resp dws] → s.sys.host.decust.events = [] →
      dws.length = 8 → Does (.meqEnable en) s fun t => t.host.decust.resps = [] ∧
        t.pgReg tenPg 0x70 = Word.ofN (advIdx s.sys.meqSize (s.sys.pgReg tenPg 0x70).toNat) ∧
        .mem none false false (lohi (s.sys.pgReg tenPg 0x64) (s.sys.pgReg tenPg 0x68) +
            64 * ((s.sys.pgReg tenPg 0x70).toNat % 65536)) (dwBytes (Word.ofN 2 :: List.replicate 7 0 ++ dws)) ∈ t.out)) ∧
  ∀ s : State, s.serves .manager = true → s.sys.pageLets .manager tenPg 0x78 false = true →
    (s.sys.host.decust.cmds = [] → s.sys.eng.mbx = [] → (∀ i, (s.sys.inst i).dn.sender ≠ 18) → Does .mgrRestart s fun t =>
      t.host.decust.maj = 0 ∧ t.host.decust.restart = false ∧ t.host.decust.resps = [] ∧ t.host.decust.events = [] ∧
      t.host.decust.lost = (s.sys.host.decust.lost || !s.sys.host.decust.events.isEmpty) ∧
      t.pgReg tenPg 0x5C = 0 ∧ t.pgReg tenPg 0x60 = 0 ∧ t.pgReg tenPg 0x70 = 0 ∧ t.pgReg tenPg 0x74 = 0 ∧
      (t.pgReg tenPg 0x58).bit 31 = false ∧ (t.pgReg tenPg 0x6C).bit 31 = false ∧ ∀ i, (t.inst i).lock ≠ 18) ∧
    (s.sys.host.decust.cmds ≠ [] → s.sys.host.decust.cmds.all (fun c => !c.keys.isEmpty) = true → exec .mgrRestart s =
      .next { s with sys := s.sys.updDec fun d => { d with restart := true, resps := [] } })

/-- Versions, instances and rings (R363, R380, R381, R404, R405, R488, R613), each command answered. HELLO agrees version 1 or 2,
whichever the manager speaks, and MAJOR 0 is refused with VERSION. CREATE_INSTANCE with a free number and PASID gives a CREATED instance
with the fields asked for; DESTROY_INSTANCE frees one without devices, RESET_INSTANCE makes it CREATED again without its rings, its PASID
kept. VIVEL_AGREE makes a CREATED instance RUNNING at a version within its maximum, answers STATE in RUNNING and VERSION above the
maximum. CREATE_RING makes a submission ring DISABLED, a completion or event ring RUNNING (DEDUCED, log 67), with the fields asked for;
DESTROY_RING removes a ring that nothing keeps, and answers STATE for a completion ring to which one is bound. It rests on the model's
readings of log 66. -/
def Obligations.instances_and_rings_are_managed : Prop :=
  ∀ (s : State) (idx : Fin 65536) (c : DCmd), s.operates = true →
    let i := c.f 1 11 0
    let k := ringKey i (c.f 1 20 16)
    let n := s.sys.inst i
    let does := fun (o : Instr) (st : Nat) (res : List Word) (P : Sys → Prop) =>
      Does o s fun t => s.sys.answered t c st res ∧ P t
    (s.sys.holds idx 0x01 c → c.clean false [(1, 0xFFFF)] = true → s.sys.host.decust.maj = 0 →
      let v := if c.f 1 7 0 = 1 then 1 else 2
      (c.f 1 7 0 ≠ 0 → does (.hello idx) 0 [Word.ofN v] fun t => t.host.decust.maj = v ∧ t.host.decust.min = 0) ∧
      (c.f 1 7 0 = 0 → does (.hello idx) 0x0E [] fun t => t.host.decust.maj = 0)) ∧
    (s.sys.holds idx 0x02 c → s.sys.host.decust.maj = 2 → c.auto = false →
      c.clean false [(1, 0x0FFFFFFF), (2, 0x000FFFFF), (3, 0x003FFFFF)] = true → c.f 1 24 20 ≤ 16 → 1 ≤ c.f 1 27 25 →
      c.f 1 27 25 ≤ 4 → vivels.contains (c.f 3 7 0, c.f 3 15 8) = true → (c.dw 1).bit 12 = true → (c.dw 1).bit 14 = false →
      n.st = .free → (∀ e ∈ s.sys.host.insts, e.2.st ≠ .free → e.2.pasid ≠ c.f 2 19 0) → s.sys.ctxBase ≠ 0 →
      s.sys.pins.pasidEn = true → does (.createInstance idx) 0 [Word.ofN i, 0] fun t =>
        t.inst i = { st := .created, pasid := c.f 2 19 0, pool := (c.dw 1).bit 13 || s.sys.pins.compat, cls := c.f 1 19 16,
                     maxSub := c.f 1 24 20, maxCmp := c.f 1 27 25, vivMaxMaj := c.f 3 7 0, vivMaxMin := c.f 3 15 8,
                     agent := (c.dw 1).bit 15, vec := c.f 3 21 16 } ∧ ∀ j, j ≠ i → t.inst j = s.sys.inst j) ∧
    (s.sys.host.decust.maj = 2 → c.auto = false → c.clean false [(1, 0xFFF)] = true → n.st = .created ∨ n.st = .running →
      s.sys.slotsOfInst i = [] → s.sys.host.xfers = [] → n.up.go = false → n.dn.go = false → s.sys.instBursts i = false →
      let rest := fun (t : Sys) => (∀ j, j ≠ i → t.inst j = s.sys.inst j) ∧ ∀ r, r < 32 → (t.ring (ringKey i r)).st = .none
      (s.sys.holds idx 0x03 c → does (.destroyInstance idx) 0 [0] fun t => t.inst i = {} ∧ rest t) ∧
      (s.sys.holds idx 0x04 c → does (.resetInstance idx) 0 [] fun t => rest t ∧ (t.inst i).st = .created ∧
        (t.inst i).pasid = n.pasid ∧ (t.inst i).vivMaj = 0 ∧ (t.inst i).ownUsed = 0 ∧ (t.inst i).sharedUsed = 0 ∧
        (t.inst i).exhausted = false)) ∧
    (s.sys.holds idx 0x06 c → s.sys.host.decust.maj = 2 → c.auto = false → c.clean false [(1, 0xFFF), (2, 0xFFFF)] = true →
      let v := (c.f 2 7 0, c.f 2 15 8)
      vivels.contains v = true → s.sys.pins.compat = false →
      (n.st = .created → verLe v (n.vivMaxMaj, n.vivMaxMin) = true → does (.vivelAgree idx) 0 [] fun t =>
        t.inst i = { n with st := .running, vivMaj := v.1, vivMin := v.2 } ∧ ∀ j, j ≠ i → t.inst j = s.sys.inst j) ∧
      (n.st = .running → verLe v (n.vivMaxMaj, n.vivMaxMin) = true → does (.vivelAgree idx) 5 [] fun t => t.inst i = n) ∧
      (n.st = .created → verLe v (n.vivMaxMaj, n.vivMaxMin) = false → does (.vivelAgree idx) 0x0E [] fun t => t.inst i = n)) ∧
    (s.sys.holds idx 0x08 c → s.sys.host.decust.maj = 2 → c.auto = false → n.st = .created ∨ n.st = .running → 4 ≤ c.f 1 27 24 →
      (s.sys.ring k).st = .none → s.sys.host.cache.length < 8192 →
      let base := (c.dw 2).toNat + (c.dw 3).toNat * 4294967296
      let others := fun (t : Sys) => ∀ j, j ≠ k → t.ring j = s.sys.ring j
      (c.f 1 20 16 < 16 → c.f 1 20 16 < n.maxSub → slotOk (c.f 4 13 0) = true → s.sys.inService (c.f 4 13 0) = true →
        (s.sys.slot (c.f 4 13 0)).inst = some i → (s.sys.ring (ringKey i (16 + c.f 4 17 16))).st ≠ .none →
        c.clean false [(1, 0x0F1F0FFF), (2, 0xFFFFF000), (3, 0xFFFFFFFF), (4, 0x00033FFF)] = true →
        does (.createRing idx) 0 [] fun t => others t ∧
          t.ring k = { st := .disabled, log2 := c.f 1 27 24, base := base, slot := c.f 4 13 0, cmp := c.f 4 17 16 }) ∧
      (16 ≤ c.f 1 20 16 → c.f 1 20 16 < 16 + n.maxCmp ∨ c.f 1 20 16 = 20 → n.maxCmp ≤ 4 →
        c.clean false [(1, 0x0F1F0FFF), (2, 0xFFFFF000), (3, 0xFFFFFFFF), (4, 0xFFFF0007)] = true →
        does (.createRing idx) 0 [] fun t => others t ∧ (t.ring k).st = .running ∧ (t.ring k).base = base ∧
          (t.ring k).log2 = c.f 1 27 24 ∧ (t.ring k).known = 2 ^ c.f 1 27 24 ∧ (t.ring k).wpos = 0 ∧
          (t.ring k).msg = c.f 4 1 0 ∧ (t.ring k).msgEn = (c.dw 4).bit 2 ∧ (t.ring k).mod = c.f 4 31 16)) ∧
    (s.sys.holds idx 0x09 c → s.sys.host.decust.maj = 2 → c.auto = false → c.clean false [(1, 0x001F0FFF)] = true →
      n.st = .created ∨ n.st = .running → (s.sys.ring k).st ≠ .none → s.sys.host.xfers = [] →
      (c.f 1 20 16 < 16 → (s.sys.ring (ringKey i (16 + (s.sys.ring k).cmp))).waiting = [] → does (.destroyRing idx) 0 [] fun t =>
        t.ring k = {}) ∧
      (c.f 1 20 16 = 20 → does (.destroyRing idx) 0 [] fun t => (t.ring k).st = .none ∧ ∀ j, j ≠ k → t.ring j = s.sys.ring j) ∧
      (16 ≤ c.f 1 20 16 → c.f 1 20 16 < 20 → (∃ r < 16, (s.sys.ring (ringKey i r)).st ≠ .none ∧
          (s.sys.ring (ringKey i r)).cmp = c.f 1 20 16 - 16) → does (.destroyRing idx) 5 [] fun t => t.ring k = s.sys.ring k))

/-- Devices, endpoints, ports and commits by command (R309-R311, R323, R324, R326, R339, R340, R376, R377, R386-R391). ASSIGN_DEVICE gives
a configured device to an instance, UNASSIGN_DEVICE takes it back and orphans its rings, each with its event; NORMALISE binds the
personality chosen, seals the device or is refused; UNBIND unbinds, SEAL_DEVICE seals a device that is not bound. SELECT_CONFIG,
DEVICE_RESET, SUSPEND and RESUME wait for what they have begun, the last two answering at once where nothing is to be done. OPEN_ENDPOINT
opens a control or bulk endpoint on its queue, CLOSE_ENDPOINT closes one without a transfer; LOAD_PARAMS waits for a DCQ entry, takes a
table that passes its checks and no other, and appends the record of its read; PORT_CMD powers an OFF port; BIND_QUEUE stages a queue's
binding; COMMIT begins a commit or answers the refusal of R393. It rests on the model's readings of logs 56, 57, 58, 59, 60, 62. -/
def Obligations.devices_and_ports_follow_commands : Prop :=
  ∀ (s : State) (idx : Fin 65536) (c : DCmd), s.operates = true → s.sys.host.decust.maj = 2 →
    let does := fun (o : Instr) (st : Nat) (res : List Word) (P : Sys → Prop) =>
      Does o s fun t => s.sys.answered t c st res ∧ P t
    let waits := fun (t : Sys) (w : CWait) (res : List Word) => t.host.decust.cmds = [{ c with wait := w, res := res }]
    (let n := c.f 1 13 0
     let z := s.sys.slot n
     let closed := ∀ e ∈ z.eps, e.2.open_ = false
     slotOk n = true → s.sys.inService n = true →
      (s.sys.holds idx 0x0C c → c.clean false [(1, 0x0FFF3FFF)] = true → z.hubDev = false → z.config ≠ 0 →
        s.sys.instLive (c.f 1 27 16) = true → z.inst = none → z.pers.code = 0 →
        does (.assignDevice idx) 0 [Word.ofN z.port, Word.ofN z.tier] fun t => s.sys.keepsSlots t n ∧
          t.slot n = { z with inst := some (c.f 1 27 16) } ∧
          ((s.sys.inst (c.f 1 27 16)).st = .running → ∃ e, s.sys.evAdded t (c.f 1 27 16) [e] ∧ e.ty = 1 ∧ e.slot = n)) ∧
      (∀ i, s.sys.holds idx 0x0D c → c.clean false [(1, 0x3FFF)] = true → z.inst = some i → closed → s.sys.host.xfers = [] →
        does (.unassignDevice idx) 0 [] fun t => s.sys.keepsSlots t n ∧ (t.slot n).inst = none ∧ (t.slot n).pers = {} ∧
          (∀ k, k % 32 < 16 → (s.sys.ring k).slot = n → (s.sys.ring k).st ≠ .none → (t.ring k).st = .orphaned) ∧
          ((s.sys.inst i).st = .running → ∃ e, s.sys.evAdded t i [e] ∧ e.ty = 2 ∧ e.slot = n)) ∧
      (s.sys.holds idx 0x0E c → c.clean false [(1, 0x00FF3FFF)] = true → z.away = false → s.sys.phyOn z.port = true →
        s.sys.on 17 = true → c.f 1 23 16 = 0 → closed → Does (.selectConfig idx) s fun t =>
          waits t (.request n) [] ∧ (t.slot n).pers = {} ∧ s.sys.keepsSlots t n) ∧
      (∀ hid, s.sys.holds idx 0x12 c → c.clean false [(1, 0x3FFF)] = true → z.isSealed = false → z.away = false → z.canUnbind = true →
        s.sys.phyOn z.port = true → s.sys.on 17 = true → s.sys.needsHid n = false →
          (∀ code ent pr ps, s.sys.choose n [] = .bind code ent pr ps → code = 4 ∨ code = 5 ∨ code = 6 →
            s.sys.versionBinds n code = true → s.sys.bindable n code [] = true → Does (.normalise idx hid) s fun t =>
              let res := [Word.ofN (code + (t.slot n).pers.cmdEpid * 256), Word.ofN ent]
              (if code = 4 ∧ half ps 0 ≠ 0 then waits t (.request n) res else s.sys.answered t c 0 res) ∧ s.sys.keepsSlots t n ∧
              (t.slot n).pers.code = code ∧ (t.slot n).pers.entry = ent ∧ (t.slot n).pers.prio = pr ∧ (t.slot n).pers.params = ps) ∧
          (s.sys.choose n [] = .sealIt → does (.normalise idx hid) 0x0A [] fun t => t.slot n = { z with isSealed := true }) ∧
          (s.sys.choose n [] = .none_ → does (.normalise idx hid) 5 [] fun t => t.slot n = z)) ∧
      (s.sys.holds idx 0x13 c → c.clean false [(1, 0x3FFF)] = true → z.pers.code ≠ 0 → z.canUnbind = true →
        does (.unbind idx) 0 [] fun t => (t.slot n).pers = {} ∧ s.sys.keepsSlots t n) ∧
      (s.sys.holds idx 0x14 c → c.clean false [(1, 0x3FFF)] = true →
        (z.pers.code = 0 → does (.sealDevice idx) 0 [] fun t => t.slot n = { z with isSealed := true } ∧ s.sys.keepsSlots t n) ∧
        (z.pers.code ≠ 0 → does (.sealDevice idx) 5 [] fun t => t.slot n = z)) ∧
      (s.sys.holds idx 0x1B c → c.clean false [(1, 0x3FFF)] = true → z.tier = 0 → (s.sys.port z.port).st = .enabled →
        s.sys.phyOn z.port = true → s.sys.slotsOf z.port = [n] → s.sys.slotAt z.port 0 = some n →
        Does (.deviceReset idx) s fun t => waits t (.represent n) [] ∧ (t.port z.port).st = .queued ∧
          ∃ e ∈ t.usb.enums, e.port = z.port ∧ e.tier = 0 ∧ e.slot = n ∧ e.represent = true)) ∧
    (let i := c.f 1 11 0
     let e := c.f 1 20 16
     let n := c.f 2 13 0
     let z := s.sys.slot n
     slotOk n = true → s.sys.inService n = true → s.sys.instLive i = true → z.inst = some i → z.names e = true → e ≠ 31 →
      (s.sys.holds idx 0x10 c → c.clean true [(1, 0x131F0FFF), (2, 0x000F3FFF), (3, 0x000703FF)] = true → (z.epTy e).per = false →
        c.f 1 25 24 = 0 → qInst (s.sys.qcfgSh (z.port / 16) (c.f 3 9 0)) = i →
        qPort (s.sys.qcfgSh (z.port / 16) (c.f 3 9 0)) = z.port % 16 → (z.ep e).open_ = false →
        does (.openEndpoint idx) 0 [Word.ofN (if z.isSealed then 2 else 0)] fun t =>
          ((t.slot n).ep e).open_ = true ∧ ((t.slot n).ep e).active = false ∧ ((t.slot n).ep e).ty = z.epTy e ∧
          ((t.slot n).ep e).queue = c.f 3 9 0 ∧ ((t.slot n).ep e).prio = c.f 3 18 16 ∧
          ((t.slot n).ep e).mode = (if z.isSealed then .sealed else .raw) ∧
          (∀ f, f ≠ e → (t.slot n).ep f = z.ep f) ∧ s.sys.keepsSlots t n) ∧
      (s.sys.holds idx 0x11 c → c.clean true [(1, 0x001F0FFF), (2, 0x00003FFF)] = true → (z.ep e).open_ = true →
        (z.ep e).closing = false → (z.ep e).ty.per = false → s.sys.host.xfers = [] → does (.closeEndpoint idx) 0 [] fun t =>
          ((t.slot n).ep e).open_ = false ∧ ((t.slot n).ep e).active = false ∧ (∀ f, f ≠ e → (t.slot n).ep f = z.ep f) ∧
          s.sys.keepsSlots t n)) ∧
    (s.sys.holds idx 0x15 c → c.clean false [(1, 0xFFFFFFFF), (2, 0xFFFFFFFF), (3, 0x000FFFFF)] = true → s.sys.on 17 = true →
      (s.sys.dcqFree = false → s.sys.hostCarrier .params = none → ∀ rd, exec (.loadParams idx rd) s = .next s) ∧
      ∀ ch bs, s.sys.hostCarrier .params = some ch → (s.sys.chan 0 ch).got < (s.sys.chan 0 ch).req →
        (s.sys.chan 0 ch).st ≠ .preempted →
        let told := fun (t : Sys) => (t.chan 0 ch).st = .idle ∧
          t.pgReg fwPg 0x254 = Word.ofN (advIdx s.sys.dcqSize (s.sys.pgReg fwPg 0x254).toNat)
        (∀ id es, readTable (bs.take (c.f 3 19 0)) = some (id, es) → does (.loadParams idx (.ok bs)) 0
          [Word.ofN id, Word.ofN es.length] fun t => t.eng.tableId = id ∧ t.eng.table = es ∧ told t) ∧
        (readTable (bs.take (c.f 3 19 0)) = none → does (.loadParams idx (.ok bs)) 0x0F [] fun t =>
          t.eng.tableId = s.sys.eng.tableId ∧ t.eng.table = s.sys.eng.table ∧ told t) ∧
        does (.loadParams idx (.poison bs)) 0x10 [] fun t =>
          t.eng.tableId = s.sys.eng.tableId ∧ t.eng.table = s.sys.eng.table ∧ told t) ∧
    (let p := c.f 1 6 0
     let q := s.sys.port p
     c.dw 2 = 0 → s.sys.phyOn p = true →
      (s.sys.holds idx 0x18 c → c.clean false [(1, 0x77F), (2, 0x0FFFFFFF)] = true → c.f 1 10 8 = 1 → (s.sys.nvProfile p).bit 0 = false →
        s.sys.moot p 5 = false → s.sys.cellHalt p = false → (q.st = .off → q.res5 = 0 → s.sys.pendList 0 = [] →
          s.sys.firstBroken p 0 (baseMa (s.sys.nvProfile p)) = none →
          does (.portCmd idx) 0 [1] fun t => (t.port p).st = .powered ∧ ∀ r, r ≠ p → t.port r = s.sys.port r) ∧
        (q.st = .powered ∨ q.st = .enabled → does (.portCmd idx) 5 [] fun t => t.usb = s.sys.usb)) ∧
      (q.st = .enabled →
        (s.sys.holds idx 0x19 c → c.clean false [(1, 0x17F), (2, 0x0FFFFFFF)] = true →
          (q.susp = .active → (s.sys.frame p).sof = true → Does (.suspend idx) s fun t =>
            waits t (.suspended p 0) [] ∧ (t.port p).susp = .suspending ∧ (t.port p).rwEn = (c.dw 1).bit 8) ∧
          (q.susp = .suspended → does (.suspend idx) 0 [] fun t => (t.port p).susp = .suspended)) ∧
        (s.sys.holds idx 0x1A c → c.clean false [(1, 0x7F), (2, 0x0FFFFFFF)] = true →
          (q.susp = .active → does (.resume idx) 0 [0] fun t => t.port p = q) ∧
          (q.susp = .suspended → Does (.resume idx) s fun t =>
            waits t (.resumed p 0) [] ∧ (t.port p).susp = .resuming ∧ .bus p .resumeK ∈ t.out)))) ∧
    (let n := c.f 1 2 0
     let q := c.f 1 25 16
     s.sys.holds idx 0x20 c → c.auto = false → c.clean true [(1, 0x03FF0007), (2, 0x000F0FFF), (3, 0x00003FFF)] = true →
      s.sys.instLive (c.f 2 11 0) = true → s.sys.on n = true → s.sys.locked (c.f 2 11 0) = false →
      s.sys.locked (qInst (s.sys.qcfgAct n q)) = false →
      s.sys.queueUsed n q (fun j p => j != c.f 2 11 0 || p % 16 != c.f 2 19 16) = false → does (.bindQueue idx) 0 [] fun t =>
        t.qcfgSh n q = Word.ofN (c.f 3 7 0 + c.f 3 13 8 * 256 + c.f 2 19 16 * 65536 + c.f 2 11 0 * 1048576) ∧
        t.stagedPend (qcfgAt n q).1 = true ∧ t.qcfgAct n q = s.sys.qcfgAct n q) ∧
    (s.sys.holds idx 0x22 c → c.clean false [] = true → s.sys.host.commitBusy = false →
      (s.sys.lockRefuses = none → Does (.commit idx) s fun t => waits t .commitDone [Word.ofN c.gen] ∧
        t.host.commitBusy = true ∧ t.host.commitGen = c.gen ∧ t.host.commitMf = (s.sys.mf + 1) % 4294967296) ∧
      (∀ i, s.sys.lockRefuses = some i → does (.commit idx) 0x0B [Word.ofN c.gen] fun t => t.host.commitBusy = false ∧
        (t.pgReg tenPg 0x18).fld 8 8 = 1))

/-! ## Mailboxes and messages -/

/-- Tenant mailboxes, internal mailboxes and messages (R372, R394-R398, R403, R404, R408, R409, R458-R460). A post of 1 to 16 dwords on an
idle channel sets GO with the sender and LEN and tells the receiver; on a busy UP channel it does nothing; a DOWN channel locked by
another master refuses it with LOCKED. The receiver's free clears GO. A read of a free lock takes it, a write of 0 by its owner releases
it. The firmware agent answers a HELLO with the newest version both sides allow. Clearing a mask with its message pending sends it. It
rests on the model's readings of logs 19, 70. -/
def Obligations.messages_are_posted_and_freed : Prop :=
  (∀ (s : State) (i : Fin 4096) (len : Fin 32), s.serves .tenant = true →
    let n := s.sys.inst i
    let others := fun (t : Sys) => ∀ j, j ≠ i.val → t.inst j = s.sys.inst j
    (s.sys.instLets i 0x2000 = true →
      (n.up.go = true → exec (.tmbPost i .tenant len) s = .next s) ∧
      (n.up.go = false → n.agent = false → 1 ≤ len.val → len.val ≤ 16 → s.sys.unarmed (tmbPg i) = true →
        Does (.tmbPost i .tenant len) s fun t => others t ∧
          t.inst i = { n with up := { n.up with go := true, sender := 0, len := len, again := false } } ∧
          (s.sys.meqEn = false → s.sys.host.decust.events.length < 256 → ∃ e, e.ty = 0xB ∧
            t.host.decust.events = s.sys.host.decust.events ++ [.event e (some n.vec)]))) ∧
    (s.sys.instLets i 0x2080 = true → exec (.tmbFree i .tenant) s =
      .next { s with sys := s.sys.updInst i fun n => { n with dn := { n.dn with go := false } } })) ∧
  (∀ (s : State) (i : Fin 4096) (org : Origin), s.serves org = true → org = .manager ∨ (∃ k, org = .core k) →
    let n := s.sys.inst i
    let m := masterOf org
    (∀ len : Fin 32, s.sys.pageLets org (tmbPg i) 0xC0 false = true →
      (n.lock = 0 ∨ n.lock = m → n.dn.go = false → 1 ≤ len.val → len.val ≤ 16 → n.st = .running → s.sys.hostOn = true →
        s.sys.contain.chipFault = false → s.sys.unarmed (tmbPg i) = true → Does (.tmbPost i org len) s fun t =>
          t.inst i = { n with dn := { n.dn with go := true, sender := m, len := len } } ∧
          (∃ e, e.ty = 0xB ∧ s.sys.evAdded t i [e]) ∧ ∀ j, j ≠ i.val → t.inst j = s.sys.inst j) ∧
      (n.lock ≠ 0 → n.lock ≠ m → Does (.tmbPost i org len) s fun t => s.sys.reportsOnly t ∧
        t.pgReg (tmbPg i) 0x18 = (s.sys.pgReg (tmbPg i) 0x18).put 8 8 1)) ∧
    (s.sys.pageLets org (tmbPg i) 0x40 false = true → exec (.tmbFree i org) s =
      .next { s with sys := s.sys.updInst i fun n => { n with up := { n.up with go := false } } }) ∧
    (s.sys.pageLets org (tmbPg i) 0x144 true = true →
      exec (.tmbDnLockAcquire i org) s =
        .next { s with sys := { (if n.lock = 0 then s.sys.updInst i fun n => { n with lock := m } else s.sys) with
                                out := .cpl org ((tmbPg i).base + 0x144) (Word.ofN (if n.lock = m then 0 else n.lock)) ::
                                  s.sys.out } }) ∧
    (s.sys.pageLets org (tmbPg i) 0x144 false = true →
      exec (.tmbDnLockRelease i org) s = 
        .next { s with sys := (if n.lock = m then s.sys.updInst i fun n => { n with lock := 0 } else s.sys) })) ∧
  (∀ (s : State) (i : Fin 4096) (v : Nat × Nat), s.operates = true → s.sys.contain.chipFault = false →
    let n := s.sys.inst i
    let d := FMap.get 0 1 n.up.data
    n.up.go = true → s.sys.toAgent i n.up = true → s.sys.liveCores ≠ [] → n.dn.go = false → n.lock = 0 → n.st = .created →
    s.sys.vivelFor i (d.fld 15 8, d.fld 7 0) (d.fld 31 24, d.fld 23 16) = some v → s.sys.isRet 16 = false →
    Does (.vivelHello i) s fun t => (t.inst i).st = .running ∧ ((t.inst i).vivMaj, (t.inst i).vivMin) = v ∧
      (t.inst i).up.go = false ∧ (t.inst i).dn.go = true ∧ (t.inst i).dn.len = 3 ∧
      (∃ k : Fin 16, s.sys.coreActs k = true ∧ (t.inst i).dn.sender = k.val + 1) ∧
      FMap.get 0 0 (t.inst i).dn.data = Word.ofN (2 + (FMap.get 0 0 n.up.data).fld 31 16 * 65536) ∧
      FMap.get 0 1 (t.inst i).dn.data = Word.ofN (v.2 * 256 + v.1 * 65536) ∧ ∃ e, e.ty = 0xB ∧ s.sys.evAdded t i [e]) ∧
  (∀ (s : State) (i : Fin 4096) (e : Fin 4), s.serves .tenant = true → s.sys.instLets i (0x300C + 16 * e) = true →
    let m := FMap.get {} e (s.sys.inst i).msgs
    (m.pend = false → Does (.msgUnmask i e) s fun t => FMap.get {} e (t.inst i).msgs = { m with mask := false } ∧
      t.out = s.sys.out) ∧
    (m.pend = true → m.lo ≠ 0 ∨ m.hi ≠ 0 → s.sys.pins.pasidEn = true → Does (.msgUnmask i e) s fun t =>
      FMap.get {} e (t.inst i).msgs = { m with mask := false, pend := false, sent := satInc 65535 m.sent } ∧
      t.out = .msg { inst := i, pasid := (s.sys.inst i).pasid } (lohi m.lo m.hi) m.data :: s.sys.out)) ∧
  (∀ (s : State) (v : Fin 64), s.serves .manager = true → s.sys.pageLets .manager (onePg .hst 0) 0x40 false = true →
    (FMap.get false v s.sys.host.msixPend = false → Does (.msixUnmask v) s fun t => t.reg (0xFE00C + 16 * v) = 0 ∧
      t = { s.sys with regs := t.regs }) ∧
    (FMap.get false v s.sys.host.msixPend = true → Does (.msixUnmask v) s fun t => t.reg (0xFE00C + 16 * v) = 0 ∧
      FMap.get false v t.host.msixPend = false ∧ t.out = .msix v :: s.sys.out)) ∧
  ∀ (s : State) (j : Fin 32) (m : Fin 20), s.serves (masterWin m) = true →
    let c := s.sys.mbx j
    let others := fun (t : Sys) => ∀ k, k ≠ j.val → t.mbx k = s.sys.mbx k
    (∀ len : Fin 32, s.sys.reaches j m 0 false = true →
      (c.recv ≠ 0 → m.val ≠ c.recv → c.lock = 0 ∨ c.lock = m → c.ch.go = false → 1 ≤ len.val → len.val ≤ 16 →
        s.sys.unarmed (mbxPg j) = true → Does (.mbxPost j m len) s fun t => others t ∧
          t.mbx j = { c with ch := { c.ch with go := true, sender := m, len := len } }) ∧
      (m.val = c.recv → c.lock = 0 ∨ c.lock = m → Does (.mbxPost j m len) s fun t => s.sys.reportsOnly t ∧
        t.pgReg (mbxPg j) 0x18 = (s.sys.pgReg (mbxPg j) 0x18).put 4 4 1)) ∧
    (s.sys.reaches j m 0 false = true →
      (m.val = c.recv → c.lock = 0 ∨ c.lock = m → exec (.mbxFree j m) s =
        .next { s with sys := s.sys.updMbx j fun c => { c with ch := { c.ch with go := false } } }) ∧
      (m.val ≠ c.recv → c.lock = 0 ∨ c.lock = m → Does (.mbxFree j m) s fun t => s.sys.reportsOnly t ∧
        t.pgReg (mbxPg j) 0x18 = (s.sys.pgReg (mbxPg j) 0x18).put 4 4 1)) ∧
    (s.sys.reaches j m 0 false = true → c.lock ≠ 0 → c.lock ≠ m → ∀ len : Fin 32, ∀ o ∈ [Instr.mbxPost j m len, .mbxFree j m],
      Does o s fun t => s.sys.reportsOnly t ∧ t.pgReg (mbxPg j) 0x18 = (s.sys.pgReg (mbxPg j) 0x18).put 8 8 1) ∧
    (s.sys.reaches j m 4 true = true → Does (.mbxLockAcquire j m) s fun t => others t ∧
      t.mbx j = { c with lock := (if c.lock = 0 then m.val else c.lock) } ∧
      ∃ org off, t.out = .cpl org off (Word.ofN (if c.lock = m then 0 else c.lock)) :: s.sys.out) ∧
    (s.sys.reaches j m 4 false = true → exec (.mbxLockRelease j m) s = 
      .next { s with sys := (if c.lock = m then s.sys.updMbx j fun c => { c with lock := 0 } else s.sys) })

/-! ## Hollyhock, cores and the interrupt controller -/

/-- Work (R421, R424-R426, R428, R431-R436, R440, R444, R559). A dispatch gives the core chosen its candidate; the end of an item counts
it and starts the next one prefetched; the watchdog and CORE_RESET drop a core's work, its prefetched items going back, and note the
cause; the end of a reload makes a core IDLE, and poison in it fails the chip; ALL_STOPPED halts the engine; a tick moves what is due into
its flows; a miss of the device context cache is counted. It rests on the model's readings of logs 29, 31, 52, 53, 54. -/
def Obligations.items_run_on_cores : Prop :=
  (∀ (s : State) (c : Nat) (i : Item), s.operates = true → s.sys.hollyWorks = true → s.sys.unarmed wscPg = true →
    (s.sys.coreOrder.find? fun c => s.sys.coreTakes c && (s.sys.candidate c).isSome) = some c → s.sys.candidate c = some i →
    Does .itemDispatch s fun t =>
      t.core c = (if (s.sys.core c).cur = none then { s.sys.core c with cur := some i, st := .running }
        else { s.sys.core c with slots := (s.sys.core c).slots ++ [i] }) ∧
      t.eng.holly = { s.sys.eng.holly with items := s.sys.eng.holly.items.filter (fun j => j.seq != i.seq), rot := c } ∧
      ∀ d, d ≠ c → t.core d = s.sys.core d) ∧
  (∀ (s : State) (c : Fin 16) (i : Item), s.operates = true → s.sys.coreActs c = true → (s.sys.core c).cur = some i →
    ¬ (i.what = .record ∧ (s.sys.slot i.flow).pers.code = 6) → Does (.itemEnd c) s fun t =>
      t.core c = (match (s.sys.core c).slots with
        | j :: r => { s.sys.core c with cur := some j, slots := r }
        | [] => { s.sys.core c with cur := none, st := if (s.sys.core c).st = .running then .idle else (s.sys.core c).st }) ∧
      (t.pgReg (corePg c) 0x50).fld 15 0 = satInc 65535 ((s.sys.pgReg (corePg c) 0x50).fld 15 0) ∧
      ∀ d, d ≠ c.val → t.core d = s.sys.core d) ∧
  (∀ (s : State) (c : Fin 16), s.operates = true → s.sys.coreActs c = true →
    ((s.sys.pgReg wscPg 0x4C).fld 15 0 = 0 ∨ (s.sys.core c).cur = none → exec (.watchdogExpiry c) s = .next s) ∧
    ((s.sys.pgReg wscPg 0x4C).fld 15 0 ≠ 0 → (s.sys.core c).cur ≠ none → (s.sys.core c).st = .running →
      Does (.watchdogExpiry c) s fun t => (t.core c).st = .idle ∧ (t.core c).cause = 2 ∧ (t.core c).cur = none ∧
        (t.core c).slots = [] ∧ (∀ j ∈ (s.sys.core c).slots, j ∈ t.eng.holly.items) ∧ (t.pgReg wscPg 0x18).bit 9 = true)) ∧
  (∀ (s : State) (c : Fin 16), s.serves .manager = true → s.sys.pageLets .manager (corePg c) 0x40 false = true →
    ((s.sys.core c).st = .running ∨ (s.sys.core c).st = .idle → Does (.coreReset c) s fun t =>
      (t.core c).st = .idle ∧ (t.core c).cause = 1 ∧ (t.core c).cur = none ∧ (t.core c).slots = [] ∧
      (∀ j ∈ (s.sys.core c).slots, j ∈ t.eng.holly.items) ∧
      (t.pgReg (corePg c) 0x50).fld 23 16 = satInc 255 ((s.sys.pgReg (corePg c) 0x50).fld 23 16)) ∧
    ((s.sys.core c).st = .halted → Does (.coreReset c) s fun t => (t.core c).st = .starting ∧ t.halted (corePg c) = false)) ∧
  (∀ (s : State) (c : Fin 16), s.operates = true → s.sys.on (18 + c) = true → (s.sys.core c).st = .starting →
    (s.sys.sramPoison 0x400000 0x200000 = false → s.sys.unarmed (corePg c) = true → Does (.coreReloadEnd c false) s fun t =>
      (t.core c).st = .idle ∧ ∀ e ∈ t.eng.lsram, e.1 / 0x40000 ≠ c.val) ∧
    (s.sys.contain.chipFault = false → Does (.coreReloadEnd c true) s fun t => t.quar 9 = true ∧ t.contain.chipFault = true)) ∧
  (∀ s : State, s.operates = true → s.sys.hollyWorks = true →
    (s.sys.allStopped = true → Does .allStoppedExpiry s fun t => t.halted wscPg = true) ∧
    (s.sys.allStopped = false → exec .allStoppedExpiry s = .next s)) ∧
  (∀ (s : State) (j : Fin 4), s.operates = true → s.sys.hollyWorks = true → s.sys.eng.holly.late = [] →
    (∀ i, i < j.val → s.sys.tickAt j % max 1 (s.sys.dlyTick i) ≠ 0) → Does (.delayTick j) s fun t => t.tb = s.sys.tickAt j ∧
      (t.eng.holly.delays = s.sys.eng.holly.delays.filter fun d => !(d.list == j.val && tickLe d.due (t.dlyNow j))) ∧
      ∀ d, (s.sys.eng.holly.delays.filter fun d => d.list == j.val && tickLe d.due (t.dlyNow j)) = [d] →
        (s.sys.eng.holly.expired = [] → s.sys.iCan = true →
          ∃ i ∈ t.eng.holly.items ++ t.eng.holly.ovf, i.flow = d.flow ∧ i.prio = d.prio ∧ i.seq = s.sys.eng.holly.seq) ∧
        (s.sys.iCan = false → t.eng.holly.expired = s.sys.eng.holly.expired ++ [d])) ∧
  ∀ (s : State) (n : Fin 8193), s.operates = true → s.sys.hollyWorks = true → (s.sys.slot n).used = true →
    let y := { s.sys with eng := { s.sys.eng with dcx := n.val :: s.sys.eng.dcx.filter (· != n.val) } }
    (s.sys.eng.dcx.contains n.val = true → exec (.deviceContextFetch n) s = .next { s with sys := y }) ∧
    (s.sys.eng.dcx.contains n.val = false → y.eng.dcx.length ≤ 2048 → y.epCached ≤ 16384 → s.sys.unarmed wscPg = true →
      Does (.deviceContextFetch n) s fun t => t.eng = y.eng ∧ t = { y with regs := t.regs } ∧
        (t.pgReg wscPg 0x88).fld 31 16 = satInc 65535 ((s.sys.pgReg wscPg 0x88).fld 31 16))

/-- Interrupt sources (R449-R457, R468). An assertion sets an accepted level, and the pending bit of an edge source; the requesting source
goes to the eligible core chosen. A claim by a core answers the source delivered and clears its pending bit, or 511; the manager's read of
the register shows the source and changes nothing. Completing the source in service frees the core, another is recorded; a software signal
pends its source, a clear ends an edge source's request; the manager's writes are discarded with ACCESS. It rests on the model's readings
of logs 47, 48. -/
def Obligations.interrupt_sources_are_delivered : Prop :=
  (∀ (s : State) (n : Fin 512), s.operates = true → (s.sys.dom 17).st ≠ .off → s.sys.halted (onePg .cic 0) = false →
    let z := s.sys.csrc n
    let edge := (s.sys.srcCfg n).bit 2
    (srcReal n = true → srcDom n = 63 ∨ s.sys.on (srcDom n) = true → s.sys.unarmed (onePg .cic 0) = true → n.val < 256 →
      0 < s.sys.srcFilt n → z.inp = false → Does (.cicSourceAssert n) s fun t =>
        (t.csrc n).inp = true ∧ (t.csrc n).since = s.sys.tb ∧ (t.csrc n).lvl = z.lvl ∧ (t.csrc n).pend = z.pend) ∧
    (srcReal n = true → srcDom n = 63 ∨ s.sys.on (srcDom n) = true → s.sys.unarmed (onePg .cic 0) = true → s.sys.srcFilt n = 0 →
      Does (.cicSourceAssert n) s fun t => (t.csrc n).lvl = true ∧ (t.csrc n).pend = (z.pend || (edge && !z.lvl)) ∧
        ∀ c, s.sys.on 17 = true → (∀ e ∈ s.sys.eng.cic.src, e.1 ≠ n.val → s.sys.requests e.1 = false) →
          (s.sys.srcCfg n).bit 0 = true → z.insv = none → z.lvl = false → z.inp = false →
          let fast := (s.sys.srcCfg n).bit 1
          firstMax (fun c => (s.sys.core c).wprio)
            ((coresAfter (if fast then s.sys.eng.cic.rotF else s.sys.eng.cic.rotN)).filter (s.sys.eligible n)) = some c →
          (t.csrc n).insv = some (c, fast) ∧ (if fast then (t.core c).fsrc else (t.core c).nsrc) = some n.val ∧
          (if fast then (t.core c).fvec else (t.core c).nvec) = (s.sys.pgReg ⟨.core, c, 0⟩ 0x4C).toNat + 16 * n.val) ∧
    (n.val < 256 → srcDom n = 63 ∨ s.sys.on (srcDom n) = true → s.sys.srcFilt n = 0 → s.sys.srcDriven n = false →
      Does (.cicSourceRelease n) s fun t => (t.csrc n).lvl = false ∧ (t.csrc n).pend = z.pend) ∧
    (s.sys.srcDriven n = true → Does (.cicSourceRelease n) s fun t => (t.csrc n).inp = true ∧ (t.csrc n).ext = false)) ∧
  (∀ (s : State) (k c : Fin 16), s.operates = true →
    (s.sys.pageLets (.core k) (onePg .cic 0) (0x80 + 4 * c) true = true →
      (∀ n, (s.sys.core c).nsrc = some n → (s.sys.core c).nclaimed = false → s.sys.requests n = true → (s.sys.srcCfg n).bit 0 = true →
        Does (.cicClaim (.core k) c) s fun t => t.out = .cpl (.core k) (0x920080 + 4 * c) (Word.ofN n) :: s.sys.out ∧
          t.core c = { s.sys.core c with nclaimed := true } ∧
          t.csrc n = { s.sys.csrc n with pend := (s.sys.csrc n).pend && !(s.sys.srcCfg n).bit 2 }) ∧
      ((s.sys.core c).nsrc = none → Does (.cicClaim (.core k) c) s fun t =>
        t.out = .cpl (.core k) (0x920080 + 4 * c) (Word.ofN 511) :: s.sys.out ∧ t.eng = s.sys.eng ∧
        (t.pgReg (onePg .cic 0) 0x184).fld 15 0 = satInc 65535 ((s.sys.pgReg (onePg .cic 0) 0x184).fld 15 0))) ∧
    (s.sys.pageLets (.core k) (onePg .cic 1) (0x80 + 4 * c) true = true →
      (∀ n, (s.sys.core c).fsrc = some n → (s.sys.core c).fclaimed = false → s.sys.requests n = true → (s.sys.srcCfg n).bit 0 = true →
        Does (.cicFclaim (.core k) c) s fun t => t.out = .cpl (.core k) (0x921080 + 4 * c) (Word.ofN n) :: s.sys.out ∧
          t.core c = { s.sys.core c with fclaimed := true } ∧
          t.csrc n = { s.sys.csrc n with pend := (s.sys.csrc n).pend && !(s.sys.srcCfg n).bit 2 }) ∧
      ((s.sys.core c).fsrc = none → Does (.cicFclaim (.core k) c) s fun t =>
        t.out = .cpl (.core k) (0x921080 + 4 * c) (Word.ofN 511) :: s.sys.out ∧ t.eng = s.sys.eng)) ∧
    (∀ (n : Fin 512) (fast : Bool), s.sys.pageLets (.core k) (onePg .cic (if fast then 1 else 0)) (0xC0 + 4 * c) false = true →
      let o : Instr := if fast then .cicFcomplete (.core k) c n else .cicComplete (.core k) c n
      ((s.sys.csrc n).insv = some (c.val, fast) → (∀ e ∈ s.sys.eng.cic.src, s.sys.requests e.1 = false) → Does o s fun t =>
        t.csrc n = { s.sys.csrc n with insv := none } ∧ (t.core c).handling fast = false ∧ t.regs = s.sys.regs) ∧
      ((s.sys.csrc n).insv ≠ some (c.val, fast) → Does o s fun t => s.sys.reportsOnly t ∧
        t.pgReg (onePg .cic 0) 0x18 = (s.sys.pgReg (onePg .cic 0) 0x18).put 8 8 1)) ∧
    (s.sys.pageLets (.core k) (onePg .cic 0) 0x180 false = true → Does (.cicSwi (.core k) c) s fun t =>
      (t.csrc (64 + c)).pend = true) ∧
    (∀ n : Fin 512, s.sys.pageLets (.core k) (onePg .cic 0) (0x100 + 4 * (n.val / 32)) false = true →
      Does (.cicPendClear (.core k) n) s fun t =>
        (t.csrc n).pend = (if srcReal n && (s.sys.srcCfg n).bit 2 then false else (s.sys.csrc n).pend))) ∧
  ∀ (s : State) (c : Fin 16) (n : Fin 512), s.serves .manager = true →
    (s.sys.pageLets .manager (onePg .cic 0) (0x80 + 4 * c) true = true → exec (.cicClaim .manager c) s = .next { s with sys :=
      { s.sys with out := .cpl .manager (0x920080 + 4 * c) (Word.ofN (s.sys.delivered false c)) :: s.sys.out } }) ∧
    (s.sys.pageLets .manager (onePg .cic 0) 0x180 false = true → Does (.cicSwi .manager c) s fun t => s.sys.reportsOnly t ∧
      t.pgReg (onePg .cic 0) 0x18 = (s.sys.pgReg (onePg .cic 0) 0x18).put 4 4 1) ∧
    (s.sys.pageLets .manager (onePg .cic 0) (0xC0 + 4 * c) false = true → Does (.cicComplete .manager c n) s fun t =>
      s.sys.reportsOnly t ∧ t.pgReg (onePg .cic 0) 0x18 = (s.sys.pgReg (onePg .cic 0) 0x18).put 4 4 1)

/-! ## Boot and power domains -/

/-- Power-on, supplies and PERST# (R470-R473, R498, R499, R505, R573). Power-on reset leaves registers and blocks as after reset and keeps
the NV store; PERST# and a loss of the supplies turn every domain OFF, the loss being recorded and waiting for PERST#; with RAILEN driven,
RAILPG high and PERST# high HOST and SCHED are ON. It rests on the model's readings of log 26. -/
def Obligations.power_and_perst_bring_the_chip_up : Prop :=
  (∀ (s : State) (compat : Bool), smbBad (s.sys.nv.last 284) = false → ∃ y,
    exec (.powerOnResetEnd compat false) s = .next { s with sys := y, vin := true, testen := false } ∧
    y.regs = [] ∧ y.usb = {} ∧ y.host = {} ∧ y.ldr = {} ∧ y.doms = [] ∧ y.contain = {} ∧ y.nv = s.sys.nv ∧ y.tb = 0 ∧
    y.pins = { compat := compat }) ∧
  (∀ s : State, s.operates = true →
    let down := fun (t : Sys) => (∀ d, d < 34 → (t.dom d).st = .off ∧ (t.dom d).trans = .none) ∧ t.ldr = {} ∧ t.usb = {} ∧ t.host = {} ∧
      t.nv = s.sys.nv ∧ t.tb = s.sys.tb ∧ t.pins.railen = false
    Does .perstAssert s (fun t => down t ∧ t.pins.perst = true ∧ t.contain.chipFault = false ∧
      (t.pgReg snw3 0x44).fld 7 0 = satInc 255 ((s.sys.pgReg snw3 0x44).fld 7 0)) ∧
    (s.sys.jtag.test = false →
      (s.sys.pins.railen = true → Does .railpgLoss s fun t => down t ∧ t.pins.needPerst = true ∧ t.pins.railpg = false ∧
        (t.pgReg snw0 0x18).bit 8 = true) ∧
      (s.sys.pins.railen = false → exec .railpgLoss s =
        .next { s with sys := { s.sys with pins := { s.sys.pins with railpg := false } } }) ∧
      (s.sys.pins.railen = true → s.sys.pins.perst = false → (s.sys.dom 16).st = .off → Does .railpgGood s fun t =>
        t.on 16 = true ∧ t.on 17 = true ∧ t.pins.railpg = true ∧ ∀ d, d ≠ 16 → d ≠ 17 → t.dom d = s.sys.dom d) ∧
      (s.sys.pins.railpg = true → s.sys.pins.needPerst = false → s.sys.mari.tripped = false → (s.sys.dom 16).st = .off →
        Does .perstDeassert s fun t => t.pins.perst = false ∧ t.pins.railen = true ∧ t.on 16 = true ∧ t.on 17 = true) ∧
      (s.sys.pins.needPerst = true → Does .perstDeassert s fun t => t.pins.perst = false ∧ t.pins.railen = s.sys.pins.railen ∧
        ∀ d, t.dom d = s.sys.dom d))) ∧
  ∀ s : State, s.operates = true → s.sys.hostOn = true → s.sys.ldr.phase = .notReady → exec .loaderWindowReady s =
    .next { s with sys := s.sys.updLdr fun l => { l with phase := .loading, ownerLock := hashSet s.sys.nv.ownerHash } }

/-- The image area (R56, R474, R475): in LOADING a write stores the bytes whose byte enables are set and no other; in VERIFYING it is
discarded with ACCESS in the LDR page. The loader (R474-R477, R482-R486). LDR_GO in LOADING with its value and an empty queue starts
verification, any other sets CFG, and ACCESS in READY; an LDQ COPY stores its bytes, a bad one copies nothing, either way its entry is
finished; GO starts verification. The verdict of R482 decides: a failure returns to LOADING with its code, acceptance places the sections
and starts firmware on the cores. A firmware failure turns every domain below HOST and SCHED OFF; MANAGER_READY retires the loader. It
rests on the model's readings of logs 12, 13, 14, 25. -/
def Obligations.the_image_is_written_and_run : Prop :=
  (∀ (s : State) (off : Nat) (data : List (Option Byte)), s.serves .loader = true → s.sys.imageLets = true →
     off + data.length ≤ imageLen →
     (s.sys.ldr.phase = .loading → s.sys.unarmed (onePg .wsc 0) = true → Does (.imageWrite off data) s fun t =>
       (∀ i b, data[i]? = some (some b) → t.sramByte (off + i) = b) ∧
       (∀ a, (a < off ∨ off + data.length ≤ a ∨ data[a - off]? = some none) → t.sramByte a = s.sys.sramByte a) ∧
       t = { s.sys with eng := { s.sys.eng with sram := t.eng.sram } }) ∧
     (s.sys.ldr.phase = .verifying → s.sys.unarmed (onePg .wsc 0) = true → Does (.imageWrite off data) s fun t =>
       s.sys.reportsOnly t ∧ t.pgReg ldrPg 0x18 = (s.sys.pgReg ldrPg 0x18).put 4 4 1)) ∧
  (∀ (s : State) (v : Word), s.serves .loader = true → s.sys.pageLets .loader ldrPg 0x40 false = true →
    (s.sys.ldr.phase = .loading → s.sys.ldqUsed = 0 → v = 0x4F47 → Does (.ldrGo v) s fun t =>
      t.ldr = { s.sys.ldr with phase := .verifying, hash := s.sys.nv.ownerHash, go := false } ∧
      (t.pgReg ldrPg 0x58).fld 7 0 = satInc 255 ((s.sys.pgReg ldrPg 0x58).fld 7 0)) ∧
    (s.sys.ldr.phase ≠ .ready → s.sys.ldr.phase ≠ .loading ∨ s.sys.ldqUsed ≠ 0 ∨ v ≠ 0x4F47 → Does (.ldrGo v) s fun t =>
      s.sys.reportsOnly t ∧ t.pgReg ldrPg 0x18 = (s.sys.pgReg ldrPg 0x18).put 3 3 1) ∧
    (s.sys.ldr.phase = .ready → Does (.ldrGo v) s fun t =>
      s.sys.reportsOnly t ∧ t.pgReg ldrPg 0x18 = (s.sys.pgReg ldrPg 0x18).put 4 4 1)) ∧
  (∀ (s : State) (e : List Word) (rd : ReadRes), s.operates = true → s.sys.ldqTakes = true → s.sys.halted ldrPg = false →
    let done := fun (t : Sys) (st : Nat) => .mem none false false (s.sys.ldqAddr + 24) (dwBytes [Word.ofN st]) ∈ t.out ∧
      t.pgReg ldrPg 0x70 = Word.ofN (advIdx s.sys.ldqSize (s.sys.pgReg ldrPg 0x70).toNat)
    ((e.getD 0 0).fld 7 0 ≠ 2 → copyBad e = true → Does (.ldqCopy e rd) s fun t => done t 2 ∧ t.eng.sram = s.sys.eng.sram) ∧
    (∀ bs ch, (e.getD 0 0).fld 7 0 = 1 → copyBad e = false → rd = .ok bs → bs.length = (e.getD 2 0).fld 22 0 →
      s.sys.unarmed (onePg .wsc 0) = true →
      let z := s.sys.hostLong 16 .image (lohi (e.getD 3 0) (e.getD 4 0)) bs.length
      z.hostCarrier .image = some ch → (z.chan 0 ch).got < (z.chan 0 ch).req → (z.chan 0 ch).st ≠ .preempted → Does (.ldqCopy e rd) s fun t => done t 0 ∧
        ∀ i, i < bs.length → t.sramByte ((e.getD 1 0).fld 22 0 + i) = byteAt bs i) ∧
    ((e.getD 0 0).fld 7 0 = 2 → Does (.ldqGo e) s fun t =>
      t.ldr = { s.sys.ldr with phase := .verifying, hash := s.sys.nv.ownerHash, go := true })) ∧
  (∀ (s : State) (ms : Fin 256), s.operates = true → s.sys.inPhase .verifying = true →
    let v := verdict s.sys.sramByte s.sys.ldr.hash
    Does (.verificationEnd ms true) s (fun t => t.ldr.phase = .loading ∧ t.ldr.result = 0x32) ∧
    (s.sys.imgBad 256 = true → Does (.verificationEnd ms false) s fun t => t.ldr.phase = .loading ∧ t.ldr.result = 0x32) ∧
    (s.sys.eng.sram.poison = [] → Does (.verificationEnd ms false) s fun t => t.ldr.result = v ∧ t.ldr.verifyMs = ms ∧
      (if v = 1 then t.ldr.phase = .starting ∧ t.ldr.image = imgDw s.sys.sramByte 0xC ∧ (∀ d, d < 16 ∨ 18 ≤ d ∧ d < 34 → t.on d = true) ∧
          (∀ c, c < 16 → (t.core c).st = .starting) ∧
          ∀ x, imgSects s.sys.sramByte = [x] → ∀ i, i < x.len → t.sramByte (x.dest + i) = s.sys.sramByte (x.src + i)
        else t.ldr.phase = .loading ∧ (t.pgReg ldrPg 0x18).bit 8 = true))) ∧
  ∀ s : State, s.operates = true → s.sys.inPhase .starting = true →
    let failed := fun (t : Sys) (code fw ms : Nat) => t.ldr.phase = .loading ∧ t.ldr.result = code ∧ t.ldr.fwCode = fw ∧
      t.ldr.startMs = ms ∧ (∀ d, d < 16 ∨ 18 ≤ d ∧ d < 34 → (t.dom d).st = .off) ∧ (t.pgReg ldrPg 0x18).bit 8 = true
    (∀ (code : Fin 256) (ms : Fin 65536), Does (.fwFail code ms) s fun t => failed t 0x31 code ms) ∧
    Does .fwTimeout s (fun t => failed t 0x30 0 1000) ∧
    ∀ ms : Fin 65536, Does (.managerReady ms) s fun t => t.ldr.phase = .ready ∧ t.ldr.startMs = ms ∧ t.mari.uncal = []

/-- Power domains (R503-R517, R522). A request in the manager's words is counted: one with a reserved value sets CFG, one that R503 or
R510 refuses leaves the domain as it is with its reason recorded, an accepted one begins QUIESCE or the exit. A drain that has finished
begins COMMIT, one that takes too long aborts the entry; the end of a transition is the state reached, OFF losing what the domain held. A
wake latch that is enabled brings its domain ON; D3hot takes HOST to RETENTION, D0 brings it back. It rests on the model's readings of
logs 21, 35. -/
def Obligations.domains_change_state : Prop :=
  (∀ (s : State) (d : Fin 64) (st : Fin 4), s.serves .manager = true → s.sys.pageLets .manager snw0 0x40 false = true →
    let o : Instr := .domainRequest .manager d st
    let m := s.sys.dom d
    let to_ := domStOf st
    let refused := fun (reason : Nat) (t : Sys) => (t.dom d).st = m.st ∧ (t.dom d).trans = m.trans ∧
      (t.dom d).reqs = satInc 255 m.reqs ∧ (t.dom d).refused = satInc 255 m.refused ∧
      (t.dom d).rsn = Word.ofN (reason + 16 + to_.code * 256 + 2147483648)
    (34 ≤ d.val ∨ st.val = 3 → Does o s fun t => s.sys.reportsOnly t ∧
      t.pgReg snw0 0x18 = (s.sys.pgReg snw0 0x18).put 3 3 1) ∧
    (d.val < 34 → st.val < 3 → ¬ (to_ = .ret ∧ m.st = .off ∧ m.trans = .none) →
      (s.sys.ldr.phase ≠ .ready → Does o s (refused 1)) ∧
      (s.sys.ldr.phase = .ready → d.val = 16 → Does o s (refused 4)) ∧
      (s.sys.ldr.phase = .ready → d.val ≠ 16 → s.sys.contain.chipFault = false → m.trans = .none →
        (to_ = m.st → Does o s fun t => t.dom d = { m with reqs := satInc 255 m.reqs }) ∧
        (to_ = .on → m.st ≠ .on → d.val < 8 ∨ d.val = 17 ∨ (∃ p, domParent d = some p ∧ s.sys.on p = true) →
          (d.val < 16 → s.sys.quar (d.val % 8) = false) → s.sys.pins.railpg = true → Does o s fun t =>
            (t.dom d).trans = .exit ∧ (t.dom d).st = m.st ∧ (t.dom d).reqs = satInc 255 m.reqs) ∧
        (∀ r, to_ ≠ m.st → to_ ≠ .on → s.sys.entryRefused d to_ = some r → Does o s (refused r.reason)) ∧
        (to_ ≠ m.st → to_ ≠ .on → s.sys.entryRefused d to_ = none → (∀ c ∈ domChildren d, s.sys.childDown to_ c = true) →
          Does o s fun t => (t.dom d).trans = .quiesce to_ ∧ (t.dom d).st = m.st ∧ ∀ e, e ≠ d.val → t.dom e = s.sys.dom e)) ∧
      (s.sys.ldr.phase = .ready → d.val ≠ 16 → s.sys.contain.chipFault = false → m.trans ≠ .none → Does o s fun t =>
        t.dom d = { m with reqs := satInc 255 m.reqs, target := some (to_, 0) }))) ∧
  (∀ (s : State) (d : Fin 34) (to_ : DomSt), s.operates = true →
    let m := s.sys.dom d
    (m.trans = .quiesce to_ → s.sys.drained d = true → exec (.quiesceDrainEnd d) s =
      .next { s with sys := s.sys.updDom d fun m => { m with trans := .commit to_ } }) ∧
    (s.sys.drained d = false → exec (.quiesceDrainEnd d) s = .next s) ∧
    (d.val ≠ 17 → s.sys.drained d = true → exec (.drainTimeout d) s = .next s) ∧
    (m.trans = .quiesce to_ → d.val ≠ 16 → d.val = 17 ∨ s.sys.drained d = false → m.target = none → (∀ p u, domParent d = some p → (s.sys.dom p).trans ≠ .waitChild u) →
      Does (.drainTimeout d) s fun t => (t.dom d).st = m.st ∧ (t.dom d).trans = .none ∧ (t.dom d).aborted = satInc 255 m.aborted ∧
        (t.dom d).rsn = Word.ofN (8 + 32 + to_.code * 256 + m.src * 1024 + 2147483648)) ∧
    (m.trans = .commit .ret → m.wake = false → m.target = none → Does (.domainTransitionEnd d) s fun t =>
      (t.dom d).st = .ret ∧ (t.dom d).trans = .none) ∧
    (m.trans = .commit .off → m.wake = false → m.target = none → d.val < 8 → Does (.domainTransitionEnd d) s fun t =>
      (t.dom d).st = .off ∧ (t.dom d).trans = .none ∧ ∀ p, p / 16 = d.val → t.port p = {}) ∧
    (m.trans = .commit .off → m.wake = false → m.target = none → 18 ≤ d.val → Does (.domainTransitionEnd d) s fun t =>
      (t.dom d).st = .off ∧ (t.core (d.val - 18)).st = .off ∧ (t.core (d.val - 18)).cause = 4 ∧
      ∀ e ∈ t.eng.lsram, e.1 / 0x40000 ≠ d.val - 18) ∧
    (m.trans = .exit → m.target = none → s.sys.calibrating d = false → Does (.domainTransitionEnd d) s fun t => t.on d = true) ∧
    (m.trans = .exit → s.sys.calibrating d = true → exec (.domainTransitionEnd d) s = .next s)) ∧
  (∀ (s : State) (w : WakeSrc), s.operates = true →
    (s.sys.latchOf w = none → exec (.wakeLatch w) s = .next s) ∧
    (∀ l to_, s.sys.latchOf w = some (l, to_) → l < 39 → Does (.wakeLatch w) s fun t =>
      (t.pgReg (onePg .snw 1) (0x48 + 4 * (l / 32))).bit (l % 32) = true ∧ (t.csrc (256 + l)).lvl = true) ∧
    (∀ n : Fin 8, w = .line n → s.sys.latchOf w = some (n.val, latchTo n) → (s.sys.pgReg (onePg .snw 1) 0x40).bit n = true →
      s.sys.on n = true → s.sys.isRet (8 + n) = true → s.sys.pins.railpg = true → Does (.wakeLatch w) s fun t =>
        (t.dom (8 + n)).trans = .exit ∧ (t.dom (8 + n)).wakes = satInc 255 (s.sys.dom (8 + n)).wakes) ∧
    (w = .tmbGo → s.sys.isRet 16 = true → (s.sys.pgReg (onePg .snw 1) 0x44).bit 3 = true → Does (.wakeLatch w) s fun t =>
      t.pins.pmeStatus = true)) ∧
  ∀ s : State, s.operates = true →
    ((s.sys.dom 16).st = .off → exec .d3hotEntry s = .next s ∧ exec .d0Entry s = .next s) ∧
    ((s.sys.dom 16).st = .on → (s.sys.dom 16).trans = .none → Does .d3hotEntry s fun t => t.pins.d3hot = true ∧
      t.dom 16 = { s.sys.dom 16 with trans := .quiesce .ret } ∧ ∀ d, d ≠ 16 → t.dom d = s.sys.dom d) ∧
    ((s.sys.dom 16).st = .ret → (s.sys.dom 16).trans = .none → Does .d0Entry s fun t => t.pins.d3hot = false ∧
      t.dom 16 = { s.sys.dom 16 with trans := .exit } ∧ ∀ d, d ≠ 16 → t.dom d = s.sys.dom d)

/-! ## Marigold, telemetry and the timebase -/

/-- Maintenance units (R524-R537, R557). The unit that starts is one that can, of the best precedence (WEAR, CAL, SCRUB, TEL, but a TEL
that has waited 20 µs before CAL); a scrub line is requested in order, counts what it corrected in MNT_SCRUB_CNT and records CORR, and a
multi-bit error in a core's local SRAM halts the core; a pass that outlasts its period sets SCRUB_LATE; a period's end requests five steps
on each port of the region, one at a time; a step counts, and at the end of a trim's range sets CAL_RANGE; a migration puts the next spare
behind its register, with its value kept and COUNT 0. It rests on the model's readings of log 25. -/
def Obligations.maintenance_units_run : Prop :=
  (∀ s : State, s.operates = true →
    (s.sys.halted (mntPg 0) = true → exec .marigoldUnitStart s = .next s) ∧
    (s.sys.halted (mntPg 0) = false → (∀ w ∈ s.sys.mari.wait, s.sys.unitAble w.u = false) → exec .marigoldUnitStart s = .next s) ∧
    (s.sys.halted (mntPg 0) = false → ∀ v ∈ s.sys.mari.wait, s.sys.unitAble v.u = true →
      ∃ w ∈ s.sys.mari.wait, s.sys.unitAble w.u = true ∧ s.sys.unitRank w ≤ s.sys.unitRank v ∧
        exec .marigoldUnitStart s = .next { s with sys := { s.sys with mari :=
          { s.sys.mari with wait := dropWait w.u s.sys.mari.wait, run := s.sys.mari.run ++ [w.u] } } })) ∧
  (∀ (s : State) (j : Fin 1024), s.operates = true →
    (MUnit.wear j ∉ s.sys.mari.run → exec (.wearMigrationEnd j 0) s = .next s) ∧
    (MUnit.wear j ∈ s.sys.mari.run → s.sys.nv.taken < 64 → Does (.wearMigrationEnd j 0) s fun t =>
      t.nv = { s.sys.nv with
        taken := s.sys.nv.taken + 1
        migrated := s.sys.nv.migrated + 1
        want := s.sys.nv.want.filter (· != j.val)
        spare := FMap.put 0 j.val (s.sys.nv.taken + 1) s.sys.nv.spare
        cnt := FMap.put 0 j.val 0 s.sys.nv.cnt
        warned := FMap.put false j.val false s.sys.nv.warned } ∧
      t.mari.run = s.sys.mari.run.erase (.wear j))) ∧
  (∀ (s : State) (mem : Fin 17), s.operates = true →
    let l := FMap.get 0 mem.val s.sys.mari.scrubLine
    let g := if mem.val = 16 then onePg .wsc 0 else ⟨.core, mem.val, 0⟩
    let n := s.sys.pgReg (mntPg 1) 0x44
    (s.sys.halted (mntPg 0) = false → (s.sys.dom (memDom mem)).st ≠ .off → FMap.get false mem.val s.sys.mari.scrubDone = false →
      l < scrubLen mem → exec (.scrubLineDue mem) s = .next { s with sys := { s.sys with mari :=
        { s.sys.mari with wait := s.sys.mari.wait ++ [{ u := .scrub mem l, since := s.sys.tb }],
                          scrubLine := FMap.put 0 mem.val (l + 1) s.sys.mari.scrubLine } } }) ∧
    ((s.sys.dom (memDom mem)).st = .off → exec (.scrubLineDue mem) s = .next s) ∧
    (∀ k c, s.sys.scrubRun mem = some k → Does (.scrubUnitEnd mem c 0) s fun t =>
      t.mari.run = s.sys.mari.run.erase (.scrub mem k) ∧
      t.pgReg (mntPg 1) 0x44 = Word.ofN (min 65535 (n.fld 15 0 + c) + n.fld 31 16 * 65536) ∧
      t.pgReg g 0x18 = (if 0 < c.val then (s.sys.pgReg g 0x18).put 0 0 1 else s.sys.pgReg g 0x18) ∧
      t.mari.everUnc = s.sys.mari.everUnc) ∧
    (∀ k c m, s.sys.scrubRun mem = some k → 0 < m.val → mem.val < 16 → Does (.scrubUnitEnd mem c m) s fun t =>
      t.mari.everUnc = true ∧ (t.core mem).st = .halted ∧ (t.pgReg g 0x18).bit 2 = true ∧
      t.pgReg (mntPg 1) 0x44 = Word.ofN (min 65535 (n.fld 15 0 + c) + min 65535 (n.fld 31 16 + m) * 65536)) ∧
    (s.sys.on (memDom mem) = true → FMap.get false mem.val s.sys.mari.scrubDone = true → exec (.scrubPeriodEnd mem) s =
      .next { s with sys := { s.sys with mari :=
        { s.sys.mari with scrubDone := FMap.put false mem.val false s.sys.mari.scrubDone } } }) ∧
    (s.sys.on (memDom mem) = true → FMap.get false mem.val s.sys.mari.scrubDone = false → Does (.scrubPeriodEnd mem) s fun t =>
      t.pgReg (mntPg 0) 0x18 = (s.sys.pgReg (mntPg 0) 0x18).put 8 8 1 ∧ FMap.get false mem.val t.mari.scrubLate = true)) ∧
  (∀ (s : State) (n : Fin 8), s.operates = true →
    (s.sys.on (8 + n) = true → s.sys.halted (mntPg 0) = false → Does (.calPeriodExpiry n) s fun t =>
      ∀ p, (p / 16 = n.val → FMap.get 0 p t.mari.calLeft = 5 ∧
          (FMap.get 0 p s.sys.mari.calLeft = 0 → ∃ w ∈ t.mari.wait, w.u = .cal p)) ∧
        (p / 16 ≠ n.val → FMap.get 0 p t.mari.calLeft = FMap.get 0 p s.sys.mari.calLeft)) ∧
    (FMap.get false n.val s.sys.mari.uncal = false → exec (.fullCalibrationEnd n) s = .next s) ∧
    (FMap.get false n.val s.sys.mari.uncal = true → s.sys.on (8 + n) = true → Does (.fullCalibrationEnd n) s fun t =>
      FMap.get false n.val t.mari.uncal = false ∧
      ∀ m, m ≠ n.val → FMap.get false m t.mari.uncal = FMap.get false m s.sys.mari.uncal)) ∧
  ∀ (s : State) (p : Fin 128), s.operates = true →
    let l := FMap.get 0 p.val s.sys.mari.calLeft
    let n := s.sys.pgReg (mntPg 2) 0x44
    (MUnit.cal p ∉ s.sys.mari.run → ∀ e, exec (.calStepEnd p e) s = .next s) ∧
    (MUnit.cal p ∈ s.sys.mari.run → ∀ e, Does (.calStepEnd p e) s fun t =>
      FMap.get 0 p.val t.mari.calLeft = l - 1 ∧ t.mari.run = s.sys.mari.run.erase (.cal p) ∧
      t.mari.wait = s.sys.mari.wait ++ (if 1 < l then [{ u := .cal p, since := s.sys.tb }] else []) ∧
      t.pgReg (mntPg 2) 0x44 = n.put 15 0 (satInc 65535 (n.fld 15 0)) ∧
      t.pgReg (mntPg 0) 0x18 = (if e then (s.sys.pgReg (mntPg 0) 0x18).put 9 9 1 else s.sys.pgReg (mntPg 0) 0x18)) ∧
    ((∀ w ∈ s.sys.mari.wait, w.u = .cal p → w.counted = true) → exec (.calDeferExpiry p) s = .next s) ∧
    ((∃ w ∈ s.sys.mari.wait, w.u = .cal p ∧ w.counted = false) → Does (.calDeferExpiry p) s fun t =>
      (∀ w ∈ t.mari.wait, w.u = .cal p → w.counted = true) ∧ t.mari.cnt.calDefer = s.sys.mari.cnt.calDefer + 1 ∧
      t.pgReg (mntPg 2) 0x44 = n.put 31 16 (satInc 65535 (n.fld 31 16)))

/-- Telemetry (R15, R24, R136, R539-R545, R554, R557). A TEL unit falls due at each millisecond with the thresholds then in force; at its
end each live monitor takes its sample (8 bits of it at a pace monitor), which joins the window's sum and count, and a monitor whose
domain is not ON holds none; the sample due at a window's end closes it; two samples in a row above 135 °C turn everything off, also while
MON or MNT has halted, when nothing else comes of a sample (R560, log 106). TLQ's consumer index is kept within the queue. A read of
SNW_TB_MF latches the offset of the same moment. It rests on the model's readings of logs 3, 43. -/
def Obligations.telemetry_samples_and_reports : Prop :=
  (∀ s : State, s.operates = true →
    let due := s.sys.mari.telNext
    (s.sys.halted (mntPg 0) = false → s.sys.halted (monPg 0) = false → Does .telDue s fun t =>
      t.tb = max s.sys.tb (1000 * due) ∧ t.mari.telNext = due + 1 ∧ t.regs = s.sys.regs ∧
      t.mari.wait = s.sys.mari.wait ++ [{
        u := .tel due ((List.range 47).map fun m => s.sys.pgReg (monPg 1) (0x40 + 4 * m))
          ((List.range 13).map fun m => s.sys.pgReg (monPg 1) (0x100 + 4 * m)) (s.sys.pgReg (monPg 0) 0x40)
        since := t.tb }]) ∧
    (s.sys.halted (mntPg 0) = true ∨ s.sys.halted (monPg 0) = true → exec .telDue s = .next { s with sys := { s.sys with
      tb := max s.sys.tb (1000 * due)
      mari := { s.sys.mari with telNext := due + 1 } } })) ∧
  (∀ (s : State) (v : List Nat), s.operates = true →
    (s.sys.monWorks = true → s.sys.telRun = none → exec (.telUnitEnd v) s = .next s) ∧
    (s.sys.monWorks = false →
      (s.sys.tooHot v = false → exec (.telUnitEnd v) s =
        .next { s with sys := { s.sys with mari := { s.sys.mari with temps := v.take 13 } } }) ∧
      (s.sys.tooHot v = true → s.sys.mari.tripped = false → Does (.telUnitEnd v) s fun t =>
        t.mari.tripped = true ∧ t.pins.railen = false ∧ ∀ d, d < 34 → (t.dom d).st = .off)) ∧
    ∀ due lim crit ctl, s.sys.monWorks = true → s.sys.telRun = some (.tel due lim crit ctl) →
      let m := s.sys.mari
      (s.sys.tooHot v = false → s.sys.on 17 = true → due ≠ m.winStart + m.winLen → Does (.telUnitEnd v) s fun t =>
        t.mari.nSamples = m.nSamples + 1 ∧ t.mari.run = m.run.erase (.tel due lim crit ctl) ∧
        ∀ k < 47, (paceDom k = 63 ∨ s.sys.on (paceDom k) = true →
            FMap.get 0 k t.mari.sample = v.getD k 0 % (if 37 ≤ k then 256 else 65536) ∧ FMap.get false k t.mari.valid = true ∧
            FMap.get 0 k t.mari.cnts = FMap.get 0 k m.cnts + 1 ∧
            FMap.get 0 k t.mari.sums = FMap.get 0 k m.sums + monInt k (v.getD k 0 % (if 37 ≤ k then 256 else 65536))) ∧
          (paceDom k ≠ 63 → s.sys.on (paceDom k) = false → FMap.get false k t.mari.valid = false ∧
            FMap.get 0 k t.mari.cnts = FMap.get 0 k m.cnts)) ∧
      (due = m.winStart + m.winLen → Does (.telUnitEnd v) s fun t =>
        t.mari.win = m.win + 1 ∧ t.mari.winStart = due ∧ t.mari.nSamples = 0 ∧ t.mari.cnts = [] ∧ t.mari.snap = none) ∧
      (s.sys.tooHot v = true → m.tripped = false → Does (.telUnitEnd v) s fun t =>
        t.mari.tripped = true ∧ t.mari.everTrip = true ∧ t.pins.railen = false ∧ t.pins.needPerst = true ∧ t.ldr.phase = .notReady ∧
        (∀ d, d < 34 → (t.dom d).st = .off ∧ (t.dom d).trans = .none) ∧ (t.pgReg (onePg .snw 0) 0x18).bit 9 = true)) ∧
  (∀ (s : State) (v : Word), s.serves .manager = true → s.sys.pageLets .manager (mntPg 3) 0x50 false = true →
    let sz := s.sys.tlqSize
    let pi := (s.sys.pgReg (mntPg 3) 0x4C).toNat
    (sz ≤ v.fld 15 0 ∨ sz < inUse sz pi (v.fld 16 0) → Does (.tlqCiWrite v) s fun t => s.sys.reportsOnly t ∧
      t.pgReg (mntPg 3) 0x50 = s.sys.pgReg (mntPg 3) 0x50 ∧ t.pgReg (mntPg 3) 0x18 = (s.sys.pgReg (mntPg 3) 0x18).put 3 3 1) ∧
    (v.fld 15 0 < sz → inUse sz pi (v.fld 16 0) ≤ sz → s.sys.mari.tlq = [] → exec (.tlqCiWrite v) s =
      .next { s with sys := s.sys.setPg (mntPg 3) 0x50 (Word.ofN (v.fld 16 0)) })) ∧
  ∀ s : State, s.serves .manager = true → s.sys.pageLets .manager (onePg .snw 2) 0x40 true = true →
    Does (.tbMfRead .manager) s fun t => t = { s.sys with regs := t.regs, out := t.out } ∧
      t.out = .cpl .manager 0xA02040 (Word.ofN (s.sys.tb / 125)) :: s.sys.out ∧
      t.pgReg (onePg .snw 2) 0x44 = Word.ofN (s.sys.tb % 125) ∧ ∀ a, a ≠ 0xA02044 → t.reg a = s.sys.reg a

/-! ## SMBus, resets, the test access port and storage faults -/

/-- The SMBus target (R549-R554). PTR holds an offset of the always-on range, and one outside it is not acknowledged; DATA reads and
writes at PTR, which advances by 4, BURST by 32; a wrong PEC is counted and, with PEC_REQ = 1, discards the write; SUMMARY gives the
hottest sample, the flags, the free spares, the boot phase and the uptime; a timeout counts and changes nothing else; a won Alert Response
deasserts SMBALERT#. A read of an NV register with writes that are not durable waits, and until it ends the target takes nothing but a
timeout, which ends it. In a boundary test the target is silent. It rests on the model's readings of logs 9, 50, 51. -/
def Obligations.smbus_target_answers : Prop :=
  (∀ (s : State) (w : Option Word) (pec : Option Bool), s.operates = true → s.sys.jtag.test = true →
    ∀ c ∈ [Instr.smbPtr w pec, .smbData w pec, .smbBurst, .smbSummary, .smbTimeout, .alertResponse], exec c s = .next s) ∧
  (∀ (s : State) (w : Option Word) (pec : Option Bool), s.operates = true → s.sys.jtag.test = false → s.sys.smb.run ≠ none →
    (∀ c ∈ [Instr.smbPtr w pec, .smbData w pec, .smbBurst, .smbSummary, .alertResponse], exec c s = .next s) ∧
    Does .smbTimeout s fun t => t = { s.sys with regs := t.regs, smb := { s.sys.smb with run := none } }) ∧
  ∀ s : State, s.operates = true → s.sys.jtag.test = false → s.sys.smb.run = none →
    let cnt := s.sys.pgReg (onePg .snw 2) 0x50
    let done := fun (t : Sys) => t.pgReg (onePg .snw 2) 0x50 = cnt.put 15 0 (satInc 65535 (cnt.fld 15 0))
    let ptr := s.sys.smb.ptr
    (∀ pec, Does (.smbPtr none pec) s fun t => t = { s.sys with regs := t.regs, out := t.out } ∧ done t ∧
      t.out = .smb (dwBytes [Word.ofN ptr]) :: s.sys.out) ∧
    (∀ (v : Word) (pec : Option Bool),
      (v.toNat < 0xA00000 ∨ 0xB00000 ≤ v.toNat → exec (.smbPtr (some v) pec) s =
        .next { s with sys := { s.sys with out := .smbNak :: s.sys.out } }) ∧
      (0xA00000 ≤ v.toNat → v.toNat < 0xB00000 →
        (pec = some true ∨ pec = none ∧ (s.sys.nv.last 284).bit 8 = false → Does (.smbPtr (some v) pec) s fun t =>
          t = { s.sys with regs := t.regs, smb := { s.sys.smb with ptr := v.toNat } } ∧ done t) ∧
        (pec = none → (s.sys.nv.last 284).bit 8 = true → Does (.smbPtr (some v) pec) s fun t =>
          t = { s.sys with regs := t.regs } ∧ done t) ∧
        (pec = some false → Does (.smbPtr (some v) pec) s fun t =>
          t.smb.ptr = (if (s.sys.nv.last 284).bit 8 then ptr else v.toNat) ∧
          (t.pgReg (onePg .snw 2) 0x50).fld 31 16 = satInc 65535 (cnt.fld 31 16) ∧
          (t.pgReg (onePg .snw 2) 0x50).fld 15 0 = satInc 65535 (cnt.fld 15 0)))) ∧
    (∀ (j : Nat) (pec : Option Bool), smbNv ptr = some j → 0 < s.sys.nv.before j → exec (.smbData none pec) s =
      .next { s with sys := { s.sys with smb := { s.sys.smb with
        run := some { n := 1, reg := j, left := s.sys.nv.before j, waited := true } } } }) ∧
    (∀ (g : Pg) (pec : Option Bool), target .smbus ptr = .page g 0 →
      (Does (.smbData none pec) s fun t => t = { s.sys with regs := t.regs, out := t.out, smb := t.smb } ∧ done t ∧
        t.out = .smb (dwBytes [g.blkId]) :: s.sys.out ∧ t.smb = { s.sys.smb with ptr := ptr + 4 }) ∧
      (Does .smbBurst s fun t => (∃ bs, .smb bs ∈ t.out ∧ bs.length = 32 ∧ bs.take 4 = dwBytes [g.blkId]) ∧
        t.smb = { s.sys.smb with ptr := ptr + 32 })) ∧
    (∀ (g : Pg) (v : Word), target .smbus ptr = .page g 0x18 → s.sys.unarmed g = true →
      Does (.smbData (some v) (some true)) s fun t => t = { s.sys with regs := t.regs, smb := { s.sys.smb with ptr := ptr + 4 } } ∧
        t.pgReg g 0x18 = s.sys.pgReg g 0x18 &&& ~~~v) ∧
    (Does .smbSummary s fun t => done t ∧ ∃ bs, t.out = .smb bs :: s.sys.out ∧ bs.length = 32 ∧
      bs.getD 3 0 = BitVec.ofNat 8 s.sys.smbFlags ∧ bs.getD 10 0 = BitVec.ofNat 8 s.sys.nv.free ∧
      bs.getD 11 0 = BitVec.ofNat 8 s.sys.ldr.phase.code ∧ (bs.drop 16).take 4 = dwBytes [Word.ofN (s.sys.tb / 1000000)] ∧
      ∀ m < 13, FMap.get false m s.sys.mari.valid = true → ∃ k < 13, FMap.get false k s.sys.mari.valid = true ∧
        monInt m (FMap.get 0 m s.sys.mari.sample) ≤ monInt k (FMap.get 0 k s.sys.mari.sample) ∧
        bs.take 3 = [BitVec.ofNat 8 (FMap.get 0 k s.sys.mari.sample), BitVec.ofNat 8 (FMap.get 0 k s.sys.mari.sample / 256),
          BitVec.ofNat 8 k]) ∧
    (Does .smbTimeout s fun t => t = { s.sys with regs := t.regs } ∧
      t.pgReg (onePg .snw 2) 0x50 = cnt.put 31 16 (satInc 65535 (cnt.fld 31 16))) ∧
    (s.sys.smb.alert = false → exec .alertResponse s = .next s) ∧
    (s.sys.smb.alert = true → Does .alertResponse s fun t => t.smb = { s.sys.smb with alert := false } ∧ done t ∧
      ∃ b : Byte, t.out = .smb [b] :: s.sys.out ∧
        b.toNat / 2 = (if smbBad (s.sys.nv.last 284) then 0x6A else (s.sys.nv.last 284).fld 6 0))

/-- Resets (R570-R573, R576). A function reset leaves HOST and SCHED ON and every other domain OFF, the loader in LOADING and no fault; a
region reset takes PRGn and PHYn to OFF, clears the quarantine and begins PRGn's exit; one that is refused is counted and nothing else; a
port unit reset takes the port to OFF and clears the halts and error registers of its two pages. It rests on the model's readings of log
23. -/
def Obligations.resets_reach_their_scope : Prop :=
  (∀ s : State, s.operates = true →
    ((s.sys.dom 16).st = .off ∨ s.sys.ldr.phase = .notReady → exec .functionReset s = .next s) ∧
    ((s.sys.dom 16).st ≠ .off → s.sys.ldr.phase ≠ .notReady → Does .functionReset s fun t =>
      (∀ d, d < 34 → (t.dom d).st = (if d = 16 ∨ d = 17 then .on else .off) ∧ (t.dom d).trans = .none) ∧ t.ldr.phase = .loading ∧
      t.contain.chipFault = false ∧ t.contain.quar = [] ∧ t.usb = {} ∧ t.host = {} ∧ t.eng.slots = [] ∧ t.nv = s.sys.nv ∧
      t.tb = s.sys.tb ∧
      (t.pgReg (onePg .snw 3) 0x44).fld 15 8 = satInc 255 ((s.sys.pgReg (onePg .snw 3) 0x44).fld 15 8))) ∧
  (∀ (s : State) (n : Fin 8), s.serves .manager = true → s.sys.pageLets .manager (onePg .snw 3) 0x40 false = true →
    let w := s.sys.pgReg (onePg .snw 3) 0x44
    (s.sys.ldr.phase ≠ .ready ∨ s.sys.contain.chipFault = true ∨ FMap.get false n.val s.sys.contain.resetting = true →
      Does (.regionReset n) s fun t => t = { s.sys with regs := t.regs } ∧
        t.pgReg (onePg .snw 3) 0x44 = w.put 23 16 (satInc 255 (w.fld 23 16))) ∧
    (s.sys.ldr.phase = .ready → s.sys.contain.chipFault = false → FMap.get false n.val s.sys.contain.resetting = false →
      Does (.regionReset n) s fun t => (t.dom n).st = .off ∧ (t.dom n).trans = .exit ∧ (t.dom (8 + n)).st = .off ∧
        (t.dom (8 + n)).trans = .waitParent ∧ t.quar n = false ∧ FMap.get false n.val t.contain.resetting = true ∧
        (∀ p, p / 16 = n.val → t.port p = {}) ∧ (t.pgReg (onePg .snw 3) 0x44).fld 23 16 = satInc 255 (w.fld 23 16))) ∧
  ∀ (s : State) (p : Fin 128), s.serves .manager = true → s.sys.pageLets .manager ⟨.prg, p.val / 16, 0⟩ 0x4C false = true →
    (s.sys.quar (p.val / 16) = true → exec (.portUnitReset p) s = .next s) ∧
    (s.sys.quar (p.val / 16) = false → s.sys.contain.chipFault = false → FMap.get false (p.val / 16) s.sys.contain.resetting = false →
      s.sys.ldr.phase ≠ .ready ∨ (s.sys.nv.last p).bit 0 = true ∨ (s.sys.nv.last p).bit 1 = true →
      Does (.portUnitReset p) s fun t => (t.port p).st = .off ∧ t.halted (lnkPg p) = false ∧ t.halted (fifPg p) = false ∧
        ∀ g ∈ [lnkPg p, fifPg p], t.pgReg g 0x18 = 0 ∧ t.pgReg g 0x20 = 0 ∧ t.pgReg g 0x24 = 0 ∧ t.pgReg g 0x2C = 0)

/-- The test access port (R589-R591). EXTEST, CLAMP and HIGHZ begin a boundary test while PERST# is asserted, with RAILEN high, and act as
BYPASS otherwise; any other instruction ends a test. IDCODE shifts out 1F128001H, SAMPLE/PRELOAD the captured boundary register, which
EXTEST drives and shifts too (its port-region cells read 0 until RAILPG is high), and the others one 0. It rests on the model's readings
of log 27. -/
def Obligations.tap_selects_its_registers : Prop :=
  (∀ (s : State) (c : Instr) (j : JIns), s.operates = true →
    (c = .extest ∧ j = .extest) ∨ (c = .clamp ∧ j = .clamp) ∨ (c = .highz ∧ j = .highz) →
    (s.sys.pins.perst = false → exec c s = .next { s with sys := { s.sys with
      jtag := { s.sys.jtag with ir := .bypass, bypass := false }
      out := .tdo [false] :: s.sys.out } }) ∧
    (s.sys.pins.perst = true → Does c s fun t => t.jtag.ir = j ∧ t.jtag.test = true ∧ t.pins.railen = true ∧
      t.jtag.bound = s.sys.jtag.bound ∧ (∀ n, n < 8 → (t.dom n).st = (if s.sys.pins.railpg then .on else .off)) ∧
      (∀ d, 8 ≤ d → t.dom d = s.sys.dom d) ∧
      t.out = .tdo (if c = .extest then
          let cells := (s.sys.jtag.bound ++ List.replicate 422 false).take 422
          if s.sys.pins.railpg then cells else cells.take 6 ++ List.replicate 416 false
        else [false]) :: s.sys.out)) ∧
  ∀ s : State, s.operates = true →
    (∀ (balls : List Bool) (c : Instr) (j : JIns),
      (c = .idcode ∧ j = .idcode) ∨ (c = .tapReset ∧ j = .idcode) ∨ (c = .bypass ∧ j = .bypass) ∨ (c = .samplePreload balls ∧ j = .sample) →
      Does c s fun t => t.jtag.ir = j ∧ t.jtag.test = false ∧
        (s.sys.jtag.test = false → t.doms = s.sys.doms ∧ t.pins = s.sys.pins) ∧
        (s.sys.jtag.test = true → t.pins.railen = false ∧ ∀ n, n < 8 → (t.dom n).st = .off)) ∧
    (Does .idcode s fun t => t.out = .tdo ((List.range 32).map fun i => (0x1F128001#32).getLsbD i) :: s.sys.out) ∧
    (Does .bypass s fun t => t.out = .tdo [false] :: s.sys.out ∧ t.jtag.bypass = false) ∧
    (Does .tapReset s fun t => t.out = s.sys.out) ∧
    ∀ balls : List Bool, s.sys.jtag.test = false → Does (.samplePreload balls) s fun t =>
      t.out = .tdo t.jtag.bound :: s.sys.out ∧ t.jtag.bound.length = 422 ∧
      (∀ i < 6, t.jtag.bound.getD i false = balls.getD i false) ∧
      ∀ i, 6 ≤ i → i < 422 → t.jtag.bound.getD i false = (balls.getD i false && s.sys.on (min 7 ((i - 6) / 52)))

/-- Errors of storage cells and of the link (R220, R420, R558, R560, R567). A corrected error sets CORR in its page and nothing but what
reports it; a multi-bit error poisons a word of a FIFO or of shared SRAM, makes an NV register read 0, and halts the block of any other
cell, whose pages stay as they are once halted. A link error is logged in AER; a poisoned write is recorded by the HST block too. It rests
on the model's readings of logs 9, 41, 55, 74. -/
def Obligations.storage_and_link_faults_are_contained : Prop :=
  (∀ (s : State) (page : Fin 8192) (e : CellErr) (d : Fin 65536) (a : Nat), s.operates = true →
    (Pg.ofOff (page.val * 0x1000) = none → exec (.cellFault page e d a) s = .next s) ∧
    ∀ g, Pg.ofOff (page.val * 0x1000) = some g →
      (s.sys.halted g = true → exec (.cellFault page e d a) s = .next s) ∧
      (g.dom ≠ 63 → (s.sys.dom g.dom).st = .off → exec (.cellFault page e d a) s = .next s) ∧
      (s.sys.halted g = false → g.dom = 63 ∨ (s.sys.dom g.dom).st ≠ .off →
        (e = .single → secded g.blk = true → Does (.cellFault page e d a) s fun t => s.sys.reportsOnly t ∧
          t.pgReg g 0x18 = (s.sys.pgReg g 0x18).put 0 0 1) ∧
        (e = .multi → g.blk = .nvs → Does (.cellFault page e d a) s fun t => t.nv.get (d.val % 1024) = 0 ∧
          (∀ k, k ≠ d.val % 1024 → t.nv.get k = s.sys.nv.get k) ∧ (t.pgReg g 0x18).bit 2 = true ∧ t.halted g = false) ∧
        (e = .multi → g.blk = .wsc → d.val = 0 → 0x400000 ≤ a → a < 0x800000 → Does (.cellFault page e d a) s fun t =>
          a / 8 ∈ t.eng.sram.poison ∧ t.eng.slots = s.sys.eng.slots ∧ t.usb = s.sys.usb) ∧
        (g.blk = .fif → d.val = 0 → Does (.cellFault page e d a) s fun t =>
          t = { s.sys with usb := { s.sys.usb with fifo := t.usb.fifo } } ∧
          (∀ p, p ≠ g.inst → t.fifo p = s.sys.fifo p) ∧
          (t.fifo g.inst).tx.length = (s.sys.fifo g.inst).tx.length ∧ (t.fifo g.inst).rx.length = (s.sys.fifo g.inst).rx.length) ∧
        (e = .multi → g.blk = .core → Does (.cellFault page e d a) s fun t => (t.core g.inst).st = .halted ∧ t.halted g = true ∧
          t.pgReg g 0x18 = (s.sys.pgReg g 0x18).put 2 2 1) ∧
        (g.blk = .mon ∨ g.blk = .mnt ∨ g.blk = .tmb ∨ g.blk = .mbx → e = .multi → Does (.cellFault page e d a) s fun t =>
          t.halted g = true ∧ t.pgReg g 0x18 = (s.sys.pgReg g 0x18).put 2 2 1 ∧ t.usb = s.sys.usb ∧ t.eng = s.sys.eng) ∧
        (g.blk = .snw → Does (.cellFault page e d a) s fun t => t.contain.chipFault = true))) ∧
  ∀ (s : State) (e : PcieErr), s.operates = true →
    ((s.sys.dom 16).st = .off → exec (.pcieReceiveError e) s = .next s) ∧
    ((s.sys.dom 16).st ≠ .off → s.sys.unarmed (onePg .hst 0) = true →
      (e = .poisonedWrite → Does (.pcieReceiveError e) s fun t => .aer .poisonedTlp .cor ∈ t.out ∧ s.sys.reportsOnly t ∧
        t.pgReg (onePg .hst 0) 0x18 = (s.sys.pgReg (onePg .hst 0) 0x18).put 8 8 1) ∧
      (∀ b, (e = .receiver ∧ b = 0) ∨ (e = .badTlp ∧ b = 6) ∨ (e = .badDllp ∧ b = 7) ∨ (e = .replayRollover ∧ b = 8) ∨
          (e = .replayTimeout ∧ b = 12) → Does (.pcieReceiveError e) s fun t =>
        t = { s.sys with out := t.out, pins := { s.sys.pins with aerCor := s.sys.pins.aerCor ||| 2 ^ b } } ∧
        ∃ x, t.out = .aer x .cor :: s.sys.out) ∧
      (e = .malformedTlp → Does (.pcieReceiveError e) s fun t => t.out = .aer .malformedTlp .fatal :: s.sys.out ∧
        t.pins.aerUnc = s.sys.pins.aerUnc ||| 2 ^ 18) ∧
      (e = .unexpectedCompletion → Does (.pcieReceiveError e) s fun t =>
        t.out = .aer .unexpectedCompletion .cor :: s.sys.out ∧ t.pins.aerUnc = s.sys.pins.aerUnc ||| 2 ^ 16))
end

