-- ==== Sys2Proof/Laws/FMap.lean ====
section
/-! SUPPORT. Laws of the sparse table: what is read after a change, and that every change keeps the canonical form. -/

namespace Sys2Proof.Machine.FMap

variable {α : Type}

@[simp] theorem get_nil (d : α) (k : Nat) : get d k ([] : FMap α) = d := rfl

theorem get_del_self (d : α) (k : Nat) (m : FMap α) : get d k (del k m) = d := by
  induction m with
  | nil => rfl
  | cons e r ih =>
    obtain ⟨j, v⟩ := e
    by_cases h : j = k <;> simp [del, get, h, ih]

theorem get_del_ne (d : α) {k j : Nat} (h : j ≠ k) (m : FMap α) : get d j (del k m) = get d j m := by
  induction m with
  | nil => rfl
  | cons e r ih =>
    obtain ⟨i, v⟩ := e
    by_cases hk : i = k
    · subst hk; simp [del, get, ih, Ne.symm h]
    · simp [del, get, hk, ih]

theorem get_ins_self (d : α) (k : Nat) (v : α) (m : FMap α) (h : ∀ e ∈ m, e.1 ≠ k) : get d k (ins k v m) = v := by
  induction m with
  | nil => simp [ins, get]
  | cons e r ih =>
    obtain ⟨i, w⟩ := e
    have hi : i ≠ k := h (i, w) (by simp)
    by_cases hk : k < i
    · simp [ins, get, hk]
    · simp [ins, get, hk, hi, ih fun e he => h e (by simp [he])]

theorem get_ins_ne (d : α) {k j : Nat} (h : j ≠ k) (v : α) (m : FMap α) : get d j (ins k v m) = get d j m := by
  induction m with
  | nil => simp [ins, get, Ne.symm h]
  | cons e r ih =>
    obtain ⟨i, w⟩ := e
    by_cases hk : k < i
    · simp [ins, get, hk, Ne.symm h]
    · simp [ins, get, hk, ih]

theorem mem_del {k : Nat} {m : FMap α} {e : Nat × α} (h : e ∈ del k m) : e ∈ m ∧ e.1 ≠ k := by
  induction m with
  | nil => simp [del] at h
  | cons a r ih =>
    obtain ⟨i, w⟩ := a
    by_cases hk : i = k
    · simp only [del, hk, if_true] at h
      exact ⟨List.mem_cons_of_mem _ (ih h).1, (ih h).2⟩
    · simp only [del, hk, if_false, List.mem_cons] at h
      rcases h with rfl | h
      · exact ⟨by simp, hk⟩
      · exact ⟨List.mem_cons_of_mem _ (ih h).1, (ih h).2⟩

theorem mem_ins {k : Nat} {v : α} {m : FMap α} {e : Nat × α} (h : e ∈ ins k v m) : e = (k, v) ∨ e ∈ m := by
  induction m with
  | nil => simpa [ins] using h
  | cons a r ih =>
    obtain ⟨i, w⟩ := a
    by_cases hk : k < i
    · simpa [ins, hk] using h
    · simp only [ins, hk, if_false, List.mem_cons] at h
      rcases h with rfl | h
      · simp
      · rcases ih h with rfl | h <;> simp [*]

variable [DecidableEq α]

@[simp] theorem get_put_self (d : α) (k : Nat) (v : α) (m : FMap α) : get d k (put d k v m) = v := by
  unfold put
  split
  · subst_vars; exact get_del_self _ k m
  · exact get_ins_self _ _ _ _ fun e he => (mem_del he).2

theorem get_put_ne (d : α) {d' : α} {k j : Nat} (h : j ≠ k) (v : α) (m : FMap α) :
    get d j (put d' k v m) = get d j m := by
  unfold put
  split
  · exact get_del_ne d h m
  · rw [get_ins_ne d h, get_del_ne d h]

@[simp] theorem get_upd_self (d : α) (k : Nat) (f : α → α) (m : FMap α) : get d k (upd d k f m) = f (get d k m) :=
  get_put_self _ _ _ _

theorem get_upd_ne (d : α) {k j : Nat} (h : j ≠ k) (f : α → α) (m : FMap α) : get d j (upd d k f m) = get d j m :=
  get_put_ne d h _ _

/-! ## The canonical form -/

theorem canon_cons {d : Nat → α} {k : Nat} {v : α} {r : FMap α} :
    canon d ((k, v) :: r) = true ↔ v ≠ d k ∧ (∀ e ∈ r, k < e.1) ∧ canon d r = true := by
  simp [canon, and_assoc]

theorem canon_del {d : Nat → α} (k : Nat) {m : FMap α} (h : canon d m = true) : canon d (del k m) = true := by
  induction m with
  | nil => rfl
  | cons a r ih =>
    obtain ⟨i, w⟩ := a
    have h' := canon_cons.1 h
    by_cases hk : i = k
    · simp [del, hk, ih h'.2.2]
    · simp only [del, hk, if_false]
      exact canon_cons.2 ⟨h'.1, fun e he => h'.2.1 e (mem_del he).1, ih h'.2.2⟩

theorem canon_ins {d : Nat → α} {k : Nat} {v : α} {m : FMap α} (hv : v ≠ d k) (hk : ∀ e ∈ m, e.1 ≠ k)
    (h : canon d m = true) : canon d (ins k v m) = true := by
  induction m with
  | nil => simp [ins, canon, hv]
  | cons a r ih =>
    obtain ⟨i, w⟩ := a
    have h' := canon_cons.1 h
    have hi : i ≠ k := hk (i, w) (by simp)
    by_cases hlt : k < i
    · simp only [ins, hlt, if_true]
      refine canon_cons.2 ⟨hv, fun e he => ?_, h⟩
      rcases List.mem_cons.1 he with rfl | he
      · exact hlt
      · exact lt_trans hlt (h'.2.1 e he)
    · simp only [ins, hlt, if_false]
      refine canon_cons.2 ⟨h'.1, fun e he => ?_, ih (fun e he => hk e (by simp [he])) h'.2.2⟩
      rcases mem_ins he with rfl | he
      · show i < k; omega
      · exact h'.2.1 e he

/-- A write keeps the canonical form. -/
theorem canon_put {d : Nat → α} (k : Nat) (v : α) {m : FMap α} (h : canon d m = true) :
    canon d (put (d k) k v m) = true := by
  unfold put
  split
  · exact canon_del k h
  · exact canon_ins ‹_› (fun e he => (mem_del he).2) (canon_del k h)

/-- Taking entries out keeps the canonical form. -/
theorem canon_filter {d : Nat → α} (p : Nat × α → Bool) {m : FMap α} (h : canon d m = true) :
    canon d (m.filter p) = true := by
  induction m with
  | nil => rfl
  | cons a r ih =>
    obtain ⟨i, w⟩ := a
    have h' := canon_cons.1 h
    by_cases hp : p (i, w) = true
    · rw [List.filter_cons_of_pos hp]
      exact canon_cons.2 ⟨h'.1, fun e he => h'.2.1 e (List.mem_filter.1 he).1, ih h'.2.2⟩
    · rw [List.filter_cons_of_neg (by simpa using hp)]
      exact ih h'.2.2

/-- A write of a run of keys keeps the canonical form. -/
theorem canon_putAll {d : α} (vs : List α) : ∀ (k : Nat) {m : FMap α}, canon (fun _ => d) m = true →
    canon (fun _ => d) (putAll d k vs m) = true := by
  induction vs with
  | nil => intro k m h; exact h
  | cons v r ih => intro k m h; exact ih (k + 1) (canon_put (d := fun _ => d) k v h)

/-! ## Rising keys -/

theorem rising_cons {β : Type} {k : Nat} {v : β} {r : FMap β} :
    rising ((k, v) :: r) = true ↔ (∀ e ∈ r, k < e.1) ∧ rising r = true := by
  simp [rising]

theorem rising_del {β : Type} (k : Nat) {m : FMap β} (h : rising m = true) : rising (del k m) = true := by
  induction m with
  | nil => rfl
  | cons a r ih =>
    obtain ⟨i, w⟩ := a
    have h' := rising_cons.1 h
    by_cases hk : i = k
    · simp [del, hk, ih h'.2]
    · simp only [del, hk, if_false]
      exact rising_cons.2 ⟨fun e he => h'.1 e (mem_del he).1, ih h'.2⟩

theorem rising_ins {β : Type} {k : Nat} {v : β} {m : FMap β} (hk : ∀ e ∈ m, e.1 ≠ k) (h : rising m = true) :
    rising (ins k v m) = true := by
  induction m with
  | nil => simp [ins, rising]
  | cons a r ih =>
    obtain ⟨i, w⟩ := a
    have h' := rising_cons.1 h
    have hi : i ≠ k := hk (i, w) (by simp)
    by_cases hlt : k < i
    · simp only [ins, hlt, if_true]
      refine rising_cons.2 ⟨fun e he => ?_, h⟩
      rcases List.mem_cons.1 he with rfl | he
      · exact hlt
      · exact lt_trans hlt (h'.1 e he)
    · simp only [ins, hlt, if_false]
      refine rising_cons.2 ⟨fun e he => ?_, ih (fun e he => hk e (by simp [he])) h'.2⟩
      rcases mem_ins he with rfl | he
      · show i < k; omega
      · exact h'.1 e he

end Sys2Proof.Machine.FMap
end

