-- ==== Sys2Proof/Laws/State.lean ====
section
/-! SUPPORT. The parts of the block that each named update leaves alone, what it puts in its own place, and the outcome of a
command in a chip that operates. -/

namespace Sys2Proof.Machine

/-! ## Outcomes -/

theorem live_next {s : State} (t : State) (hv : s.vin = true) (ht : s.testen = false) : live s t = .next t := by
  simp [live, hv, ht]

theorem liveSys_next {s : State} (f : Sys → Sys) (hv : s.vin = true) (ht : s.testen = false) :
    liveSys s f = .next { s with sys := f s.sys } := live_next _ hv ht

theorem liveWin_next {s : State} {c : Instr} {org : Origin} (f : Sys → Sys) (hv : s.vin = true) (ht : s.testen = false)
    (hw : winWaits s.sys org = false) : liveWin c org s f = .next { s with sys := f s.sys } := by
  simp [liveWin, liveSys_next _ hv ht, hw]

/-- Whatever a command does to the block, the queue, VIN and TESTEN stay. -/
theorem liveSys_parts {s t : State} {f : Sys → Sys} (h : liveSys s f = .next t) :
    t.pending = s.pending ∧ t.vin = s.vin ∧ t.testen = s.testen ∧ (t.sys = f s.sys ∨ t = s) := by
  unfold liveSys live at h
  split at h
  · cases h
  · split at h <;> cases h <;> simp

/-- A command stops only in the factory test mode. -/
theorem liveSys_stops {s : State} {f : Sys → Sys} {r : Fault} (h : liveSys s f = .fault r) : s.testen = true := by
  unfold liveSys live at h
  split at h
  · assumption
  · split at h <;> cases h

theorem liveSys_ne_refused {s : State} {f : Sys → Sys} {r : Refusal} : liveSys s f ≠ .refused r := by
  unfold liveSys live
  split
  · simp
  · split <;> simp

/-! ## Named updates -/

section
variable (off : Nat) (v : Word) (y : Sys)
@[simp] theorem setReg_nv : (y.setReg off v).nv = y.nv := rfl
@[simp] theorem setReg_tb : (y.setReg off v).tb = y.tb := rfl
@[simp] theorem setReg_pins : (y.setReg off v).pins = y.pins := rfl
@[simp] theorem setReg_out : (y.setReg off v).out = y.out := rfl
@[simp] theorem setReg_heldOut : (y.setReg off v).heldOut = y.heldOut := rfl
@[simp] theorem setReg_heldPasid : (y.setReg off v).heldPasid = y.heldPasid := rfl
@[simp] theorem setReg_waitq : (y.setReg off v).waitq = y.waitq := rfl
@[simp] theorem setReg_nvReads : (y.setReg off v).nvReads = y.nvReads := rfl
@[simp] theorem setReg_doms : (y.setReg off v).doms = y.doms := rfl
@[simp] theorem setReg_contain : (y.setReg off v).contain = y.contain := rfl
@[simp] theorem setReg_ldr : (y.setReg off v).ldr = y.ldr := rfl
@[simp] theorem setReg_mari : (y.setReg off v).mari = y.mari := rfl
@[simp] theorem setReg_smb : (y.setReg off v).smb = y.smb := rfl
@[simp] theorem setReg_jtag : (y.setReg off v).jtag = y.jtag := rfl
@[simp] theorem setReg_host : (y.setReg off v).host = y.host := rfl
@[simp] theorem setReg_usb : (y.setReg off v).usb = y.usb := rfl
@[simp] theorem setReg_eng : (y.setReg off v).eng = y.eng := rfl
@[simp] theorem setReg_fresh : (y.setReg off v).fresh = y.fresh := rfl
end

section
variable (d : Nat) (f : Dom → Dom) (y : Sys)
@[simp] theorem updDom_nv : (y.updDom d f).nv = y.nv := rfl
@[simp] theorem updDom_tb : (y.updDom d f).tb = y.tb := rfl
@[simp] theorem updDom_pins : (y.updDom d f).pins = y.pins := rfl
@[simp] theorem updDom_regs : (y.updDom d f).regs = y.regs := rfl
@[simp] theorem updDom_out : (y.updDom d f).out = y.out := rfl
@[simp] theorem updDom_heldOut : (y.updDom d f).heldOut = y.heldOut := rfl
@[simp] theorem updDom_heldPasid : (y.updDom d f).heldPasid = y.heldPasid := rfl
@[simp] theorem updDom_waitq : (y.updDom d f).waitq = y.waitq := rfl
@[simp] theorem updDom_nvReads : (y.updDom d f).nvReads = y.nvReads := rfl
@[simp] theorem updDom_contain : (y.updDom d f).contain = y.contain := rfl
@[simp] theorem updDom_ldr : (y.updDom d f).ldr = y.ldr := rfl
@[simp] theorem updDom_mari : (y.updDom d f).mari = y.mari := rfl
@[simp] theorem updDom_smb : (y.updDom d f).smb = y.smb := rfl
@[simp] theorem updDom_jtag : (y.updDom d f).jtag = y.jtag := rfl
@[simp] theorem updDom_host : (y.updDom d f).host = y.host := rfl
@[simp] theorem updDom_usb : (y.updDom d f).usb = y.usb := rfl
@[simp] theorem updDom_eng : (y.updDom d f).eng = y.eng := rfl
@[simp] theorem updDom_fresh : (y.updDom d f).fresh = y.fresh := rfl
end

section
variable (i : Nat) (f : Inst → Inst) (y : Sys)
@[simp] theorem updInst_nv : (y.updInst i f).nv = y.nv := rfl
@[simp] theorem updInst_tb : (y.updInst i f).tb = y.tb := rfl
@[simp] theorem updInst_pins : (y.updInst i f).pins = y.pins := rfl
@[simp] theorem updInst_regs : (y.updInst i f).regs = y.regs := rfl
@[simp] theorem updInst_out : (y.updInst i f).out = y.out := rfl
@[simp] theorem updInst_heldOut : (y.updInst i f).heldOut = y.heldOut := rfl
@[simp] theorem updInst_heldPasid : (y.updInst i f).heldPasid = y.heldPasid := rfl
@[simp] theorem updInst_waitq : (y.updInst i f).waitq = y.waitq := rfl
@[simp] theorem updInst_nvReads : (y.updInst i f).nvReads = y.nvReads := rfl
@[simp] theorem updInst_doms : (y.updInst i f).doms = y.doms := rfl
@[simp] theorem updInst_contain : (y.updInst i f).contain = y.contain := rfl
@[simp] theorem updInst_ldr : (y.updInst i f).ldr = y.ldr := rfl
@[simp] theorem updInst_mari : (y.updInst i f).mari = y.mari := rfl
@[simp] theorem updInst_smb : (y.updInst i f).smb = y.smb := rfl
@[simp] theorem updInst_jtag : (y.updInst i f).jtag = y.jtag := rfl
@[simp] theorem updInst_usb : (y.updInst i f).usb = y.usb := rfl
@[simp] theorem updInst_eng : (y.updInst i f).eng = y.eng := rfl
@[simp] theorem updInst_fresh : (y.updInst i f).fresh = y.fresh := rfl
end

section
variable (k : Nat) (f : Ring → Ring) (y : Sys)
@[simp] theorem updRing_nv : (y.updRing k f).nv = y.nv := rfl
@[simp] theorem updRing_tb : (y.updRing k f).tb = y.tb := rfl
@[simp] theorem updRing_pins : (y.updRing k f).pins = y.pins := rfl
@[simp] theorem updRing_regs : (y.updRing k f).regs = y.regs := rfl
@[simp] theorem updRing_out : (y.updRing k f).out = y.out := rfl
@[simp] theorem updRing_heldOut : (y.updRing k f).heldOut = y.heldOut := rfl
@[simp] theorem updRing_heldPasid : (y.updRing k f).heldPasid = y.heldPasid := rfl
@[simp] theorem updRing_waitq : (y.updRing k f).waitq = y.waitq := rfl
@[simp] theorem updRing_nvReads : (y.updRing k f).nvReads = y.nvReads := rfl
@[simp] theorem updRing_doms : (y.updRing k f).doms = y.doms := rfl
@[simp] theorem updRing_contain : (y.updRing k f).contain = y.contain := rfl
@[simp] theorem updRing_ldr : (y.updRing k f).ldr = y.ldr := rfl
@[simp] theorem updRing_mari : (y.updRing k f).mari = y.mari := rfl
@[simp] theorem updRing_smb : (y.updRing k f).smb = y.smb := rfl
@[simp] theorem updRing_jtag : (y.updRing k f).jtag = y.jtag := rfl
@[simp] theorem updRing_usb : (y.updRing k f).usb = y.usb := rfl
@[simp] theorem updRing_eng : (y.updRing k f).eng = y.eng := rfl
@[simp] theorem updRing_fresh : (y.updRing k f).fresh = y.fresh := rfl
end

section
variable (f : Xfer → Xfer) (y : Sys)
@[simp] theorem mapX_nv : (y.mapX f).nv = y.nv := rfl
@[simp] theorem mapX_tb : (y.mapX f).tb = y.tb := rfl
@[simp] theorem mapX_pins : (y.mapX f).pins = y.pins := rfl
@[simp] theorem mapX_regs : (y.mapX f).regs = y.regs := rfl
@[simp] theorem mapX_out : (y.mapX f).out = y.out := rfl
@[simp] theorem mapX_heldOut : (y.mapX f).heldOut = y.heldOut := rfl
@[simp] theorem mapX_heldPasid : (y.mapX f).heldPasid = y.heldPasid := rfl
@[simp] theorem mapX_waitq : (y.mapX f).waitq = y.waitq := rfl
@[simp] theorem mapX_nvReads : (y.mapX f).nvReads = y.nvReads := rfl
@[simp] theorem mapX_doms : (y.mapX f).doms = y.doms := rfl
@[simp] theorem mapX_contain : (y.mapX f).contain = y.contain := rfl
@[simp] theorem mapX_ldr : (y.mapX f).ldr = y.ldr := rfl
@[simp] theorem mapX_mari : (y.mapX f).mari = y.mari := rfl
@[simp] theorem mapX_smb : (y.mapX f).smb = y.smb := rfl
@[simp] theorem mapX_jtag : (y.mapX f).jtag = y.jtag := rfl
@[simp] theorem mapX_usb : (y.mapX f).usb = y.usb := rfl
@[simp] theorem mapX_eng : (y.mapX f).eng = y.eng := rfl
@[simp] theorem mapX_fresh : (y.mapX f).fresh = y.fresh := rfl
end

section
variable (f : Decust → Decust) (y : Sys)
@[simp] theorem updDec_nv : (y.updDec f).nv = y.nv := rfl
@[simp] theorem updDec_tb : (y.updDec f).tb = y.tb := rfl
@[simp] theorem updDec_pins : (y.updDec f).pins = y.pins := rfl
@[simp] theorem updDec_regs : (y.updDec f).regs = y.regs := rfl
@[simp] theorem updDec_out : (y.updDec f).out = y.out := rfl
@[simp] theorem updDec_heldOut : (y.updDec f).heldOut = y.heldOut := rfl
@[simp] theorem updDec_heldPasid : (y.updDec f).heldPasid = y.heldPasid := rfl
@[simp] theorem updDec_waitq : (y.updDec f).waitq = y.waitq := rfl
@[simp] theorem updDec_nvReads : (y.updDec f).nvReads = y.nvReads := rfl
@[simp] theorem updDec_doms : (y.updDec f).doms = y.doms := rfl
@[simp] theorem updDec_contain : (y.updDec f).contain = y.contain := rfl
@[simp] theorem updDec_ldr : (y.updDec f).ldr = y.ldr := rfl
@[simp] theorem updDec_mari : (y.updDec f).mari = y.mari := rfl
@[simp] theorem updDec_smb : (y.updDec f).smb = y.smb := rfl
@[simp] theorem updDec_jtag : (y.updDec f).jtag = y.jtag := rfl
@[simp] theorem updDec_usb : (y.updDec f).usb = y.usb := rfl
@[simp] theorem updDec_eng : (y.updDec f).eng = y.eng := rfl
@[simp] theorem updDec_fresh : (y.updDec f).fresh = y.fresh := rfl
end

section
variable (p : Nat) (f : Port → Port) (y : Sys)
@[simp] theorem updPort_nv : (y.updPort p f).nv = y.nv := rfl
@[simp] theorem updPort_tb : (y.updPort p f).tb = y.tb := rfl
@[simp] theorem updPort_pins : (y.updPort p f).pins = y.pins := rfl
@[simp] theorem updPort_regs : (y.updPort p f).regs = y.regs := rfl
@[simp] theorem updPort_out : (y.updPort p f).out = y.out := rfl
@[simp] theorem updPort_heldOut : (y.updPort p f).heldOut = y.heldOut := rfl
@[simp] theorem updPort_heldPasid : (y.updPort p f).heldPasid = y.heldPasid := rfl
@[simp] theorem updPort_waitq : (y.updPort p f).waitq = y.waitq := rfl
@[simp] theorem updPort_nvReads : (y.updPort p f).nvReads = y.nvReads := rfl
@[simp] theorem updPort_doms : (y.updPort p f).doms = y.doms := rfl
@[simp] theorem updPort_contain : (y.updPort p f).contain = y.contain := rfl
@[simp] theorem updPort_ldr : (y.updPort p f).ldr = y.ldr := rfl
@[simp] theorem updPort_mari : (y.updPort p f).mari = y.mari := rfl
@[simp] theorem updPort_smb : (y.updPort p f).smb = y.smb := rfl
@[simp] theorem updPort_jtag : (y.updPort p f).jtag = y.jtag := rfl
@[simp] theorem updPort_host : (y.updPort p f).host = y.host := rfl
@[simp] theorem updPort_eng : (y.updPort p f).eng = y.eng := rfl
@[simp] theorem updPort_fresh : (y.updPort p f).fresh = y.fresh := rfl
end

section
variable (p : Nat) (f : PFrame → PFrame) (y : Sys)
@[simp] theorem updFrame_nv : (y.updFrame p f).nv = y.nv := rfl
@[simp] theorem updFrame_tb : (y.updFrame p f).tb = y.tb := rfl
@[simp] theorem updFrame_pins : (y.updFrame p f).pins = y.pins := rfl
@[simp] theorem updFrame_regs : (y.updFrame p f).regs = y.regs := rfl
@[simp] theorem updFrame_out : (y.updFrame p f).out = y.out := rfl
@[simp] theorem updFrame_heldOut : (y.updFrame p f).heldOut = y.heldOut := rfl
@[simp] theorem updFrame_heldPasid : (y.updFrame p f).heldPasid = y.heldPasid := rfl
@[simp] theorem updFrame_waitq : (y.updFrame p f).waitq = y.waitq := rfl
@[simp] theorem updFrame_nvReads : (y.updFrame p f).nvReads = y.nvReads := rfl
@[simp] theorem updFrame_doms : (y.updFrame p f).doms = y.doms := rfl
@[simp] theorem updFrame_contain : (y.updFrame p f).contain = y.contain := rfl
@[simp] theorem updFrame_ldr : (y.updFrame p f).ldr = y.ldr := rfl
@[simp] theorem updFrame_mari : (y.updFrame p f).mari = y.mari := rfl
@[simp] theorem updFrame_smb : (y.updFrame p f).smb = y.smb := rfl
@[simp] theorem updFrame_jtag : (y.updFrame p f).jtag = y.jtag := rfl
@[simp] theorem updFrame_host : (y.updFrame p f).host = y.host := rfl
@[simp] theorem updFrame_eng : (y.updFrame p f).eng = y.eng := rfl
@[simp] theorem updFrame_fresh : (y.updFrame p f).fresh = y.fresh := rfl
end

section
variable (p : Nat) (f : Fifo → Fifo) (y : Sys)
@[simp] theorem updFifo_nv : (y.updFifo p f).nv = y.nv := rfl
@[simp] theorem updFifo_tb : (y.updFifo p f).tb = y.tb := rfl
@[simp] theorem updFifo_pins : (y.updFifo p f).pins = y.pins := rfl
@[simp] theorem updFifo_regs : (y.updFifo p f).regs = y.regs := rfl
@[simp] theorem updFifo_out : (y.updFifo p f).out = y.out := rfl
@[simp] theorem updFifo_heldOut : (y.updFifo p f).heldOut = y.heldOut := rfl
@[simp] theorem updFifo_heldPasid : (y.updFifo p f).heldPasid = y.heldPasid := rfl
@[simp] theorem updFifo_waitq : (y.updFifo p f).waitq = y.waitq := rfl
@[simp] theorem updFifo_nvReads : (y.updFifo p f).nvReads = y.nvReads := rfl
@[simp] theorem updFifo_doms : (y.updFifo p f).doms = y.doms := rfl
@[simp] theorem updFifo_contain : (y.updFifo p f).contain = y.contain := rfl
@[simp] theorem updFifo_ldr : (y.updFifo p f).ldr = y.ldr := rfl
@[simp] theorem updFifo_mari : (y.updFifo p f).mari = y.mari := rfl
@[simp] theorem updFifo_smb : (y.updFifo p f).smb = y.smb := rfl
@[simp] theorem updFifo_jtag : (y.updFifo p f).jtag = y.jtag := rfl
@[simp] theorem updFifo_host : (y.updFifo p f).host = y.host := rfl
@[simp] theorem updFifo_eng : (y.updFifo p f).eng = y.eng := rfl
@[simp] theorem updFifo_fresh : (y.updFifo p f).fresh = y.fresh := rfl
end

section
variable (p : Nat) (f : PTab → PTab) (y : Sys)
@[simp] theorem updPtab_nv : (y.updPtab p f).nv = y.nv := rfl
@[simp] theorem updPtab_tb : (y.updPtab p f).tb = y.tb := rfl
@[simp] theorem updPtab_pins : (y.updPtab p f).pins = y.pins := rfl
@[simp] theorem updPtab_regs : (y.updPtab p f).regs = y.regs := rfl
@[simp] theorem updPtab_out : (y.updPtab p f).out = y.out := rfl
@[simp] theorem updPtab_heldOut : (y.updPtab p f).heldOut = y.heldOut := rfl
@[simp] theorem updPtab_heldPasid : (y.updPtab p f).heldPasid = y.heldPasid := rfl
@[simp] theorem updPtab_waitq : (y.updPtab p f).waitq = y.waitq := rfl
@[simp] theorem updPtab_nvReads : (y.updPtab p f).nvReads = y.nvReads := rfl
@[simp] theorem updPtab_doms : (y.updPtab p f).doms = y.doms := rfl
@[simp] theorem updPtab_contain : (y.updPtab p f).contain = y.contain := rfl
@[simp] theorem updPtab_ldr : (y.updPtab p f).ldr = y.ldr := rfl
@[simp] theorem updPtab_mari : (y.updPtab p f).mari = y.mari := rfl
@[simp] theorem updPtab_smb : (y.updPtab p f).smb = y.smb := rfl
@[simp] theorem updPtab_jtag : (y.updPtab p f).jtag = y.jtag := rfl
@[simp] theorem updPtab_host : (y.updPtab p f).host = y.host := rfl
@[simp] theorem updPtab_eng : (y.updPtab p f).eng = y.eng := rfl
@[simp] theorem updPtab_fresh : (y.updPtab p f).fresh = y.fresh := rfl
end

section
variable (e c : Nat) (f : Chan2 → Chan2) (y : Sys)
@[simp] theorem updChan_nv : (y.updChan e c f).nv = y.nv := rfl
@[simp] theorem updChan_tb : (y.updChan e c f).tb = y.tb := rfl
@[simp] theorem updChan_pins : (y.updChan e c f).pins = y.pins := rfl
@[simp] theorem updChan_regs : (y.updChan e c f).regs = y.regs := rfl
@[simp] theorem updChan_out : (y.updChan e c f).out = y.out := rfl
@[simp] theorem updChan_heldOut : (y.updChan e c f).heldOut = y.heldOut := rfl
@[simp] theorem updChan_heldPasid : (y.updChan e c f).heldPasid = y.heldPasid := rfl
@[simp] theorem updChan_waitq : (y.updChan e c f).waitq = y.waitq := rfl
@[simp] theorem updChan_nvReads : (y.updChan e c f).nvReads = y.nvReads := rfl
@[simp] theorem updChan_doms : (y.updChan e c f).doms = y.doms := rfl
@[simp] theorem updChan_contain : (y.updChan e c f).contain = y.contain := rfl
@[simp] theorem updChan_ldr : (y.updChan e c f).ldr = y.ldr := rfl
@[simp] theorem updChan_mari : (y.updChan e c f).mari = y.mari := rfl
@[simp] theorem updChan_smb : (y.updChan e c f).smb = y.smb := rfl
@[simp] theorem updChan_jtag : (y.updChan e c f).jtag = y.jtag := rfl
@[simp] theorem updChan_host : (y.updChan e c f).host = y.host := rfl
@[simp] theorem updChan_eng : (y.updChan e c f).eng = y.eng := rfl
@[simp] theorem updChan_fresh : (y.updChan e c f).fresh = y.fresh := rfl
end

section
variable (f : Power → Power) (y : Sys)
@[simp] theorem updPower_nv : (y.updPower f).nv = y.nv := rfl
@[simp] theorem updPower_tb : (y.updPower f).tb = y.tb := rfl
@[simp] theorem updPower_pins : (y.updPower f).pins = y.pins := rfl
@[simp] theorem updPower_regs : (y.updPower f).regs = y.regs := rfl
@[simp] theorem updPower_out : (y.updPower f).out = y.out := rfl
@[simp] theorem updPower_heldOut : (y.updPower f).heldOut = y.heldOut := rfl
@[simp] theorem updPower_heldPasid : (y.updPower f).heldPasid = y.heldPasid := rfl
@[simp] theorem updPower_waitq : (y.updPower f).waitq = y.waitq := rfl
@[simp] theorem updPower_nvReads : (y.updPower f).nvReads = y.nvReads := rfl
@[simp] theorem updPower_doms : (y.updPower f).doms = y.doms := rfl
@[simp] theorem updPower_contain : (y.updPower f).contain = y.contain := rfl
@[simp] theorem updPower_ldr : (y.updPower f).ldr = y.ldr := rfl
@[simp] theorem updPower_mari : (y.updPower f).mari = y.mari := rfl
@[simp] theorem updPower_smb : (y.updPower f).smb = y.smb := rfl
@[simp] theorem updPower_jtag : (y.updPower f).jtag = y.jtag := rfl
@[simp] theorem updPower_host : (y.updPower f).host = y.host := rfl
@[simp] theorem updPower_eng : (y.updPower f).eng = y.eng := rfl
@[simp] theorem updPower_fresh : (y.updPower f).fresh = y.fresh := rfl
end

section
variable (f : List Enum → List Enum) (y : Sys)
@[simp] theorem updEnums_nv : (y.updEnums f).nv = y.nv := rfl
@[simp] theorem updEnums_tb : (y.updEnums f).tb = y.tb := rfl
@[simp] theorem updEnums_pins : (y.updEnums f).pins = y.pins := rfl
@[simp] theorem updEnums_regs : (y.updEnums f).regs = y.regs := rfl
@[simp] theorem updEnums_out : (y.updEnums f).out = y.out := rfl
@[simp] theorem updEnums_heldOut : (y.updEnums f).heldOut = y.heldOut := rfl
@[simp] theorem updEnums_heldPasid : (y.updEnums f).heldPasid = y.heldPasid := rfl
@[simp] theorem updEnums_waitq : (y.updEnums f).waitq = y.waitq := rfl
@[simp] theorem updEnums_nvReads : (y.updEnums f).nvReads = y.nvReads := rfl
@[simp] theorem updEnums_doms : (y.updEnums f).doms = y.doms := rfl
@[simp] theorem updEnums_contain : (y.updEnums f).contain = y.contain := rfl
@[simp] theorem updEnums_ldr : (y.updEnums f).ldr = y.ldr := rfl
@[simp] theorem updEnums_mari : (y.updEnums f).mari = y.mari := rfl
@[simp] theorem updEnums_smb : (y.updEnums f).smb = y.smb := rfl
@[simp] theorem updEnums_jtag : (y.updEnums f).jtag = y.jtag := rfl
@[simp] theorem updEnums_host : (y.updEnums f).host = y.host := rfl
@[simp] theorem updEnums_eng : (y.updEnums f).eng = y.eng := rfl
@[simp] theorem updEnums_fresh : (y.updEnums f).fresh = y.fresh := rfl
end

section
variable (n : Nat) (f : Slot → Slot) (y : Sys)
@[simp] theorem updSlot_nv : (y.updSlot n f).nv = y.nv := rfl
@[simp] theorem updSlot_tb : (y.updSlot n f).tb = y.tb := rfl
@[simp] theorem updSlot_pins : (y.updSlot n f).pins = y.pins := rfl
@[simp] theorem updSlot_regs : (y.updSlot n f).regs = y.regs := rfl
@[simp] theorem updSlot_out : (y.updSlot n f).out = y.out := rfl
@[simp] theorem updSlot_heldOut : (y.updSlot n f).heldOut = y.heldOut := rfl
@[simp] theorem updSlot_heldPasid : (y.updSlot n f).heldPasid = y.heldPasid := rfl
@[simp] theorem updSlot_waitq : (y.updSlot n f).waitq = y.waitq := rfl
@[simp] theorem updSlot_nvReads : (y.updSlot n f).nvReads = y.nvReads := rfl
@[simp] theorem updSlot_doms : (y.updSlot n f).doms = y.doms := rfl
@[simp] theorem updSlot_contain : (y.updSlot n f).contain = y.contain := rfl
@[simp] theorem updSlot_ldr : (y.updSlot n f).ldr = y.ldr := rfl
@[simp] theorem updSlot_mari : (y.updSlot n f).mari = y.mari := rfl
@[simp] theorem updSlot_smb : (y.updSlot n f).smb = y.smb := rfl
@[simp] theorem updSlot_jtag : (y.updSlot n f).jtag = y.jtag := rfl
@[simp] theorem updSlot_host : (y.updSlot n f).host = y.host := rfl
@[simp] theorem updSlot_usb : (y.updSlot n f).usb = y.usb := rfl
@[simp] theorem updSlot_fresh : (y.updSlot n f).fresh = y.fresh := rfl
end

section
variable (c : Nat) (f : Core → Core) (y : Sys)
@[simp] theorem updCore_nv : (y.updCore c f).nv = y.nv := rfl
@[simp] theorem updCore_tb : (y.updCore c f).tb = y.tb := rfl
@[simp] theorem updCore_pins : (y.updCore c f).pins = y.pins := rfl
@[simp] theorem updCore_regs : (y.updCore c f).regs = y.regs := rfl
@[simp] theorem updCore_out : (y.updCore c f).out = y.out := rfl
@[simp] theorem updCore_heldOut : (y.updCore c f).heldOut = y.heldOut := rfl
@[simp] theorem updCore_heldPasid : (y.updCore c f).heldPasid = y.heldPasid := rfl
@[simp] theorem updCore_waitq : (y.updCore c f).waitq = y.waitq := rfl
@[simp] theorem updCore_nvReads : (y.updCore c f).nvReads = y.nvReads := rfl
@[simp] theorem updCore_doms : (y.updCore c f).doms = y.doms := rfl
@[simp] theorem updCore_contain : (y.updCore c f).contain = y.contain := rfl
@[simp] theorem updCore_ldr : (y.updCore c f).ldr = y.ldr := rfl
@[simp] theorem updCore_mari : (y.updCore c f).mari = y.mari := rfl
@[simp] theorem updCore_smb : (y.updCore c f).smb = y.smb := rfl
@[simp] theorem updCore_jtag : (y.updCore c f).jtag = y.jtag := rfl
@[simp] theorem updCore_host : (y.updCore c f).host = y.host := rfl
@[simp] theorem updCore_usb : (y.updCore c f).usb = y.usb := rfl
@[simp] theorem updCore_fresh : (y.updCore c f).fresh = y.fresh := rfl
end

section
variable (f : Holly → Holly) (y : Sys)
@[simp] theorem updHolly_nv : (y.updHolly f).nv = y.nv := rfl
@[simp] theorem updHolly_tb : (y.updHolly f).tb = y.tb := rfl
@[simp] theorem updHolly_pins : (y.updHolly f).pins = y.pins := rfl
@[simp] theorem updHolly_regs : (y.updHolly f).regs = y.regs := rfl
@[simp] theorem updHolly_out : (y.updHolly f).out = y.out := rfl
@[simp] theorem updHolly_heldOut : (y.updHolly f).heldOut = y.heldOut := rfl
@[simp] theorem updHolly_heldPasid : (y.updHolly f).heldPasid = y.heldPasid := rfl
@[simp] theorem updHolly_waitq : (y.updHolly f).waitq = y.waitq := rfl
@[simp] theorem updHolly_nvReads : (y.updHolly f).nvReads = y.nvReads := rfl
@[simp] theorem updHolly_doms : (y.updHolly f).doms = y.doms := rfl
@[simp] theorem updHolly_contain : (y.updHolly f).contain = y.contain := rfl
@[simp] theorem updHolly_ldr : (y.updHolly f).ldr = y.ldr := rfl
@[simp] theorem updHolly_mari : (y.updHolly f).mari = y.mari := rfl
@[simp] theorem updHolly_smb : (y.updHolly f).smb = y.smb := rfl
@[simp] theorem updHolly_jtag : (y.updHolly f).jtag = y.jtag := rfl
@[simp] theorem updHolly_host : (y.updHolly f).host = y.host := rfl
@[simp] theorem updHolly_usb : (y.updHolly f).usb = y.usb := rfl
@[simp] theorem updHolly_fresh : (y.updHolly f).fresh = y.fresh := rfl
end

section
variable (n : Nat) (f : CSrc → CSrc) (y : Sys)
@[simp] theorem updSrc_nv : (y.updSrc n f).nv = y.nv := rfl
@[simp] theorem updSrc_tb : (y.updSrc n f).tb = y.tb := rfl
@[simp] theorem updSrc_pins : (y.updSrc n f).pins = y.pins := rfl
@[simp] theorem updSrc_regs : (y.updSrc n f).regs = y.regs := rfl
@[simp] theorem updSrc_out : (y.updSrc n f).out = y.out := rfl
@[simp] theorem updSrc_heldOut : (y.updSrc n f).heldOut = y.heldOut := rfl
@[simp] theorem updSrc_heldPasid : (y.updSrc n f).heldPasid = y.heldPasid := rfl
@[simp] theorem updSrc_waitq : (y.updSrc n f).waitq = y.waitq := rfl
@[simp] theorem updSrc_nvReads : (y.updSrc n f).nvReads = y.nvReads := rfl
@[simp] theorem updSrc_doms : (y.updSrc n f).doms = y.doms := rfl
@[simp] theorem updSrc_contain : (y.updSrc n f).contain = y.contain := rfl
@[simp] theorem updSrc_ldr : (y.updSrc n f).ldr = y.ldr := rfl
@[simp] theorem updSrc_mari : (y.updSrc n f).mari = y.mari := rfl
@[simp] theorem updSrc_smb : (y.updSrc n f).smb = y.smb := rfl
@[simp] theorem updSrc_jtag : (y.updSrc n f).jtag = y.jtag := rfl
@[simp] theorem updSrc_host : (y.updSrc n f).host = y.host := rfl
@[simp] theorem updSrc_usb : (y.updSrc n f).usb = y.usb := rfl
@[simp] theorem updSrc_fresh : (y.updSrc n f).fresh = y.fresh := rfl
end

section
variable (f : Mari → Mari) (y : Sys)
@[simp] theorem updMari_nv : (y.updMari f).nv = y.nv := rfl
@[simp] theorem updMari_tb : (y.updMari f).tb = y.tb := rfl
@[simp] theorem updMari_pins : (y.updMari f).pins = y.pins := rfl
@[simp] theorem updMari_regs : (y.updMari f).regs = y.regs := rfl
@[simp] theorem updMari_out : (y.updMari f).out = y.out := rfl
@[simp] theorem updMari_heldOut : (y.updMari f).heldOut = y.heldOut := rfl
@[simp] theorem updMari_heldPasid : (y.updMari f).heldPasid = y.heldPasid := rfl
@[simp] theorem updMari_waitq : (y.updMari f).waitq = y.waitq := rfl
@[simp] theorem updMari_nvReads : (y.updMari f).nvReads = y.nvReads := rfl
@[simp] theorem updMari_doms : (y.updMari f).doms = y.doms := rfl
@[simp] theorem updMari_contain : (y.updMari f).contain = y.contain := rfl
@[simp] theorem updMari_ldr : (y.updMari f).ldr = y.ldr := rfl
@[simp] theorem updMari_smb : (y.updMari f).smb = y.smb := rfl
@[simp] theorem updMari_jtag : (y.updMari f).jtag = y.jtag := rfl
@[simp] theorem updMari_host : (y.updMari f).host = y.host := rfl
@[simp] theorem updMari_usb : (y.updMari f).usb = y.usb := rfl
@[simp] theorem updMari_eng : (y.updMari f).eng = y.eng := rfl
@[simp] theorem updMari_fresh : (y.updMari f).fresh = y.fresh := rfl
end

section
variable (g : Pg) (o : Nat) (v : Word) (y : Sys)
@[simp] theorem setPg_nv : (y.setPg g o v).nv = y.nv := rfl
@[simp] theorem setPg_tb : (y.setPg g o v).tb = y.tb := rfl
@[simp] theorem setPg_pins : (y.setPg g o v).pins = y.pins := rfl
@[simp] theorem setPg_out : (y.setPg g o v).out = y.out := rfl
@[simp] theorem setPg_heldOut : (y.setPg g o v).heldOut = y.heldOut := rfl
@[simp] theorem setPg_heldPasid : (y.setPg g o v).heldPasid = y.heldPasid := rfl
@[simp] theorem setPg_waitq : (y.setPg g o v).waitq = y.waitq := rfl
@[simp] theorem setPg_nvReads : (y.setPg g o v).nvReads = y.nvReads := rfl
@[simp] theorem setPg_doms : (y.setPg g o v).doms = y.doms := rfl
@[simp] theorem setPg_contain : (y.setPg g o v).contain = y.contain := rfl
@[simp] theorem setPg_ldr : (y.setPg g o v).ldr = y.ldr := rfl
@[simp] theorem setPg_mari : (y.setPg g o v).mari = y.mari := rfl
@[simp] theorem setPg_smb : (y.setPg g o v).smb = y.smb := rfl
@[simp] theorem setPg_jtag : (y.setPg g o v).jtag = y.jtag := rfl
@[simp] theorem setPg_host : (y.setPg g o v).host = y.host := rfl
@[simp] theorem setPg_usb : (y.setPg g o v).usb = y.usb := rfl
@[simp] theorem setPg_eng : (y.setPg g o v).eng = y.eng := rfl
@[simp] theorem setPg_fresh : (y.setPg g o v).fresh = y.fresh := rfl
end

section
variable (g : Pg) (o hi lo v : Nat) (y : Sys)
@[simp] theorem setFld_nv : (y.setFld g o hi lo v).nv = y.nv := rfl
@[simp] theorem setFld_tb : (y.setFld g o hi lo v).tb = y.tb := rfl
@[simp] theorem setFld_pins : (y.setFld g o hi lo v).pins = y.pins := rfl
@[simp] theorem setFld_out : (y.setFld g o hi lo v).out = y.out := rfl
@[simp] theorem setFld_heldOut : (y.setFld g o hi lo v).heldOut = y.heldOut := rfl
@[simp] theorem setFld_heldPasid : (y.setFld g o hi lo v).heldPasid = y.heldPasid := rfl
@[simp] theorem setFld_waitq : (y.setFld g o hi lo v).waitq = y.waitq := rfl
@[simp] theorem setFld_nvReads : (y.setFld g o hi lo v).nvReads = y.nvReads := rfl
@[simp] theorem setFld_doms : (y.setFld g o hi lo v).doms = y.doms := rfl
@[simp] theorem setFld_contain : (y.setFld g o hi lo v).contain = y.contain := rfl
@[simp] theorem setFld_ldr : (y.setFld g o hi lo v).ldr = y.ldr := rfl
@[simp] theorem setFld_mari : (y.setFld g o hi lo v).mari = y.mari := rfl
@[simp] theorem setFld_smb : (y.setFld g o hi lo v).smb = y.smb := rfl
@[simp] theorem setFld_jtag : (y.setFld g o hi lo v).jtag = y.jtag := rfl
@[simp] theorem setFld_host : (y.setFld g o hi lo v).host = y.host := rfl
@[simp] theorem setFld_usb : (y.setFld g o hi lo v).usb = y.usb := rfl
@[simp] theorem setFld_eng : (y.setFld g o hi lo v).eng = y.eng := rfl
@[simp] theorem setFld_fresh : (y.setFld g o hi lo v).fresh = y.fresh := rfl
end

section
variable (g : Pg) (o hi lo : Nat) (y : Sys)
@[simp] theorem incFld_nv : (y.incFld g o hi lo).nv = y.nv := rfl
@[simp] theorem incFld_tb : (y.incFld g o hi lo).tb = y.tb := rfl
@[simp] theorem incFld_pins : (y.incFld g o hi lo).pins = y.pins := rfl
@[simp] theorem incFld_out : (y.incFld g o hi lo).out = y.out := rfl
@[simp] theorem incFld_heldOut : (y.incFld g o hi lo).heldOut = y.heldOut := rfl
@[simp] theorem incFld_heldPasid : (y.incFld g o hi lo).heldPasid = y.heldPasid := rfl
@[simp] theorem incFld_waitq : (y.incFld g o hi lo).waitq = y.waitq := rfl
@[simp] theorem incFld_nvReads : (y.incFld g o hi lo).nvReads = y.nvReads := rfl
@[simp] theorem incFld_doms : (y.incFld g o hi lo).doms = y.doms := rfl
@[simp] theorem incFld_contain : (y.incFld g o hi lo).contain = y.contain := rfl
@[simp] theorem incFld_ldr : (y.incFld g o hi lo).ldr = y.ldr := rfl
@[simp] theorem incFld_mari : (y.incFld g o hi lo).mari = y.mari := rfl
@[simp] theorem incFld_smb : (y.incFld g o hi lo).smb = y.smb := rfl
@[simp] theorem incFld_jtag : (y.incFld g o hi lo).jtag = y.jtag := rfl
@[simp] theorem incFld_host : (y.incFld g o hi lo).host = y.host := rfl
@[simp] theorem incFld_usb : (y.incFld g o hi lo).usb = y.usb := rfl
@[simp] theorem incFld_eng : (y.incFld g o hi lo).eng = y.eng := rfl
@[simp] theorem incFld_fresh : (y.incFld g o hi lo).fresh = y.fresh := rfl
end

section
variable (g : Pg) (o b : Nat) (y : Sys)
@[simp] theorem setBit_nv : (y.setBit g o b).nv = y.nv := rfl
@[simp] theorem setBit_tb : (y.setBit g o b).tb = y.tb := rfl
@[simp] theorem setBit_pins : (y.setBit g o b).pins = y.pins := rfl
@[simp] theorem setBit_out : (y.setBit g o b).out = y.out := rfl
@[simp] theorem setBit_heldOut : (y.setBit g o b).heldOut = y.heldOut := rfl
@[simp] theorem setBit_heldPasid : (y.setBit g o b).heldPasid = y.heldPasid := rfl
@[simp] theorem setBit_waitq : (y.setBit g o b).waitq = y.waitq := rfl
@[simp] theorem setBit_nvReads : (y.setBit g o b).nvReads = y.nvReads := rfl
@[simp] theorem setBit_doms : (y.setBit g o b).doms = y.doms := rfl
@[simp] theorem setBit_contain : (y.setBit g o b).contain = y.contain := rfl
@[simp] theorem setBit_ldr : (y.setBit g o b).ldr = y.ldr := rfl
@[simp] theorem setBit_mari : (y.setBit g o b).mari = y.mari := rfl
@[simp] theorem setBit_smb : (y.setBit g o b).smb = y.smb := rfl
@[simp] theorem setBit_jtag : (y.setBit g o b).jtag = y.jtag := rfl
@[simp] theorem setBit_host : (y.setBit g o b).host = y.host := rfl
@[simp] theorem setBit_usb : (y.setBit g o b).usb = y.usb := rfl
@[simp] theorem setBit_eng : (y.setBit g o b).eng = y.eng := rfl
@[simp] theorem setBit_fresh : (y.setBit g o b).fresh = y.fresh := rfl
end

/-! ## What an update puts in its own place -/

@[simp] theorem updPort_port_self (k : Nat) (f : Port → Port) (y : Sys) : (y.updPort k f).port k = f (y.port k) :=
  FMap.get_upd_self _ _ _ _
theorem updPort_port_ne {k j : Nat} (h : j ≠ k) (f : Port → Port) (y : Sys) : (y.updPort k f).port j = y.port j :=
  FMap.get_upd_ne _ h _ _

@[simp] theorem updFrame_frame_self (k : Nat) (f : PFrame → PFrame) (y : Sys) : (y.updFrame k f).frame k = f (y.frame k) :=
  FMap.get_upd_self _ _ _ _
theorem updFrame_frame_ne {k j : Nat} (h : j ≠ k) (f : PFrame → PFrame) (y : Sys) : (y.updFrame k f).frame j = y.frame j :=
  FMap.get_upd_ne _ h _ _

@[simp] theorem updFifo_fifo_self (k : Nat) (f : Fifo → Fifo) (y : Sys) : (y.updFifo k f).fifo k = f (y.fifo k) :=
  FMap.get_upd_self _ _ _ _
theorem updFifo_fifo_ne {k j : Nat} (h : j ≠ k) (f : Fifo → Fifo) (y : Sys) : (y.updFifo k f).fifo j = y.fifo j :=
  FMap.get_upd_ne _ h _ _

@[simp] theorem updPtab_ptab_self (k : Nat) (f : PTab → PTab) (y : Sys) : (y.updPtab k f).ptab k = f (y.ptab k) :=
  FMap.get_upd_self _ _ _ _
theorem updPtab_ptab_ne {k j : Nat} (h : j ≠ k) (f : PTab → PTab) (y : Sys) : (y.updPtab k f).ptab j = y.ptab j :=
  FMap.get_upd_ne _ h _ _

@[simp] theorem updSlot_slot_self (k : Nat) (f : Slot → Slot) (y : Sys) : (y.updSlot k f).slot k = f (y.slot k) :=
  FMap.get_upd_self _ _ _ _
theorem updSlot_slot_ne {k j : Nat} (h : j ≠ k) (f : Slot → Slot) (y : Sys) : (y.updSlot k f).slot j = y.slot j :=
  FMap.get_upd_ne _ h _ _

@[simp] theorem updCore_core_self (k : Nat) (f : Core → Core) (y : Sys) : (y.updCore k f).core k = f (y.core k) :=
  FMap.get_upd_self _ _ _ _
theorem updCore_core_ne {k j : Nat} (h : j ≠ k) (f : Core → Core) (y : Sys) : (y.updCore k f).core j = y.core j :=
  FMap.get_upd_ne _ h _ _

@[simp] theorem updSrc_csrc_self (k : Nat) (f : CSrc → CSrc) (y : Sys) : (y.updSrc k f).csrc k = f (y.csrc k) :=
  FMap.get_upd_self _ _ _ _
theorem updSrc_csrc_ne {k j : Nat} (h : j ≠ k) (f : CSrc → CSrc) (y : Sys) : (y.updSrc k f).csrc j = y.csrc j :=
  FMap.get_upd_ne _ h _ _

@[simp] theorem updInst_inst_self (k : Nat) (f : Inst → Inst) (y : Sys) : (y.updInst k f).inst k = f (y.inst k) :=
  FMap.get_upd_self _ _ _ _
theorem updInst_inst_ne {k j : Nat} (h : j ≠ k) (f : Inst → Inst) (y : Sys) : (y.updInst k f).inst j = y.inst j :=
  FMap.get_upd_ne _ h _ _

@[simp] theorem updRing_ring_self (k : Nat) (f : Ring → Ring) (y : Sys) : (y.updRing k f).ring k = f (y.ring k) :=
  FMap.get_upd_self _ _ _ _
theorem updRing_ring_ne {k j : Nat} (h : j ≠ k) (f : Ring → Ring) (y : Sys) : (y.updRing k f).ring j = y.ring j :=
  FMap.get_upd_ne _ h _ _

@[simp] theorem updDom_dom_self (k : Nat) (f : Dom → Dom) (y : Sys) : (y.updDom k f).dom k = f (y.dom k) :=
  FMap.get_upd_self _ _ _ _
theorem updDom_dom_ne {k j : Nat} (h : j ≠ k) (f : Dom → Dom) (y : Sys) : (y.updDom k f).dom j = y.dom j :=
  FMap.get_upd_ne _ h _ _

/-! ## Records that an update of another kind leaves alone -/

section
variable (i : Nat) (f : Inst → Inst) (y : Sys) (j : Nat)
@[simp] theorem updInst_port : (y.updInst i f).port j = y.port j := rfl
@[simp] theorem updInst_frame : (y.updInst i f).frame j = y.frame j := rfl
@[simp] theorem updInst_fifo : (y.updInst i f).fifo j = y.fifo j := rfl
@[simp] theorem updInst_ptab : (y.updInst i f).ptab j = y.ptab j := rfl
@[simp] theorem updInst_slot : (y.updInst i f).slot j = y.slot j := rfl
@[simp] theorem updInst_core : (y.updInst i f).core j = y.core j := rfl
@[simp] theorem updInst_csrc : (y.updInst i f).csrc j = y.csrc j := rfl
@[simp] theorem updInst_ring : (y.updInst i f).ring j = y.ring j := rfl
end

section
variable (k : Nat) (f : Ring → Ring) (y : Sys) (j : Nat)
@[simp] theorem updRing_port : (y.updRing k f).port j = y.port j := rfl
@[simp] theorem updRing_frame : (y.updRing k f).frame j = y.frame j := rfl
@[simp] theorem updRing_fifo : (y.updRing k f).fifo j = y.fifo j := rfl
@[simp] theorem updRing_ptab : (y.updRing k f).ptab j = y.ptab j := rfl
@[simp] theorem updRing_slot : (y.updRing k f).slot j = y.slot j := rfl
@[simp] theorem updRing_core : (y.updRing k f).core j = y.core j := rfl
@[simp] theorem updRing_csrc : (y.updRing k f).csrc j = y.csrc j := rfl
@[simp] theorem updRing_inst : (y.updRing k f).inst j = y.inst j := rfl
end

section
variable (f : Xfer → Xfer) (y : Sys) (j : Nat)
@[simp] theorem mapX_port : (y.mapX f).port j = y.port j := rfl
@[simp] theorem mapX_frame : (y.mapX f).frame j = y.frame j := rfl
@[simp] theorem mapX_fifo : (y.mapX f).fifo j = y.fifo j := rfl
@[simp] theorem mapX_ptab : (y.mapX f).ptab j = y.ptab j := rfl
@[simp] theorem mapX_slot : (y.mapX f).slot j = y.slot j := rfl
@[simp] theorem mapX_core : (y.mapX f).core j = y.core j := rfl
@[simp] theorem mapX_csrc : (y.mapX f).csrc j = y.csrc j := rfl
@[simp] theorem mapX_inst : (y.mapX f).inst j = y.inst j := rfl
@[simp] theorem mapX_ring : (y.mapX f).ring j = y.ring j := rfl
end

section
variable (f : Decust → Decust) (y : Sys) (j : Nat)
@[simp] theorem updDec_port : (y.updDec f).port j = y.port j := rfl
@[simp] theorem updDec_frame : (y.updDec f).frame j = y.frame j := rfl
@[simp] theorem updDec_fifo : (y.updDec f).fifo j = y.fifo j := rfl
@[simp] theorem updDec_ptab : (y.updDec f).ptab j = y.ptab j := rfl
@[simp] theorem updDec_slot : (y.updDec f).slot j = y.slot j := rfl
@[simp] theorem updDec_core : (y.updDec f).core j = y.core j := rfl
@[simp] theorem updDec_csrc : (y.updDec f).csrc j = y.csrc j := rfl
@[simp] theorem updDec_inst : (y.updDec f).inst j = y.inst j := rfl
@[simp] theorem updDec_ring : (y.updDec f).ring j = y.ring j := rfl
end

section
variable (p : Nat) (f : Port → Port) (y : Sys) (j : Nat)
@[simp] theorem updPort_frame : (y.updPort p f).frame j = y.frame j := rfl
@[simp] theorem updPort_fifo : (y.updPort p f).fifo j = y.fifo j := rfl
@[simp] theorem updPort_ptab : (y.updPort p f).ptab j = y.ptab j := rfl
@[simp] theorem updPort_slot : (y.updPort p f).slot j = y.slot j := rfl
@[simp] theorem updPort_core : (y.updPort p f).core j = y.core j := rfl
@[simp] theorem updPort_csrc : (y.updPort p f).csrc j = y.csrc j := rfl
@[simp] theorem updPort_inst : (y.updPort p f).inst j = y.inst j := rfl
@[simp] theorem updPort_ring : (y.updPort p f).ring j = y.ring j := rfl
end

section
variable (p : Nat) (f : PFrame → PFrame) (y : Sys) (j : Nat)
@[simp] theorem updFrame_port : (y.updFrame p f).port j = y.port j := rfl
@[simp] theorem updFrame_fifo : (y.updFrame p f).fifo j = y.fifo j := rfl
@[simp] theorem updFrame_ptab : (y.updFrame p f).ptab j = y.ptab j := rfl
@[simp] theorem updFrame_slot : (y.updFrame p f).slot j = y.slot j := rfl
@[simp] theorem updFrame_core : (y.updFrame p f).core j = y.core j := rfl
@[simp] theorem updFrame_csrc : (y.updFrame p f).csrc j = y.csrc j := rfl
@[simp] theorem updFrame_inst : (y.updFrame p f).inst j = y.inst j := rfl
@[simp] theorem updFrame_ring : (y.updFrame p f).ring j = y.ring j := rfl
end

section
variable (p : Nat) (f : Fifo → Fifo) (y : Sys) (j : Nat)
@[simp] theorem updFifo_port : (y.updFifo p f).port j = y.port j := rfl
@[simp] theorem updFifo_frame : (y.updFifo p f).frame j = y.frame j := rfl
@[simp] theorem updFifo_ptab : (y.updFifo p f).ptab j = y.ptab j := rfl
@[simp] theorem updFifo_slot : (y.updFifo p f).slot j = y.slot j := rfl
@[simp] theorem updFifo_core : (y.updFifo p f).core j = y.core j := rfl
@[simp] theorem updFifo_csrc : (y.updFifo p f).csrc j = y.csrc j := rfl
@[simp] theorem updFifo_inst : (y.updFifo p f).inst j = y.inst j := rfl
@[simp] theorem updFifo_ring : (y.updFifo p f).ring j = y.ring j := rfl
end

section
variable (p : Nat) (f : PTab → PTab) (y : Sys) (j : Nat)
@[simp] theorem updPtab_port : (y.updPtab p f).port j = y.port j := rfl
@[simp] theorem updPtab_frame : (y.updPtab p f).frame j = y.frame j := rfl
@[simp] theorem updPtab_fifo : (y.updPtab p f).fifo j = y.fifo j := rfl
@[simp] theorem updPtab_slot : (y.updPtab p f).slot j = y.slot j := rfl
@[simp] theorem updPtab_core : (y.updPtab p f).core j = y.core j := rfl
@[simp] theorem updPtab_csrc : (y.updPtab p f).csrc j = y.csrc j := rfl
@[simp] theorem updPtab_inst : (y.updPtab p f).inst j = y.inst j := rfl
@[simp] theorem updPtab_ring : (y.updPtab p f).ring j = y.ring j := rfl
end

section
variable (e c : Nat) (f : Chan2 → Chan2) (y : Sys) (j : Nat)
@[simp] theorem updChan_port : (y.updChan e c f).port j = y.port j := rfl
@[simp] theorem updChan_frame : (y.updChan e c f).frame j = y.frame j := rfl
@[simp] theorem updChan_fifo : (y.updChan e c f).fifo j = y.fifo j := rfl
@[simp] theorem updChan_ptab : (y.updChan e c f).ptab j = y.ptab j := rfl
@[simp] theorem updChan_slot : (y.updChan e c f).slot j = y.slot j := rfl
@[simp] theorem updChan_core : (y.updChan e c f).core j = y.core j := rfl
@[simp] theorem updChan_csrc : (y.updChan e c f).csrc j = y.csrc j := rfl
@[simp] theorem updChan_inst : (y.updChan e c f).inst j = y.inst j := rfl
@[simp] theorem updChan_ring : (y.updChan e c f).ring j = y.ring j := rfl
end

section
variable (f : Power → Power) (y : Sys) (j : Nat)
@[simp] theorem updPower_port : (y.updPower f).port j = y.port j := rfl
@[simp] theorem updPower_frame : (y.updPower f).frame j = y.frame j := rfl
@[simp] theorem updPower_fifo : (y.updPower f).fifo j = y.fifo j := rfl
@[simp] theorem updPower_ptab : (y.updPower f).ptab j = y.ptab j := rfl
@[simp] theorem updPower_slot : (y.updPower f).slot j = y.slot j := rfl
@[simp] theorem updPower_core : (y.updPower f).core j = y.core j := rfl
@[simp] theorem updPower_csrc : (y.updPower f).csrc j = y.csrc j := rfl
@[simp] theorem updPower_inst : (y.updPower f).inst j = y.inst j := rfl
@[simp] theorem updPower_ring : (y.updPower f).ring j = y.ring j := rfl
end

section
variable (f : List Enum → List Enum) (y : Sys) (j : Nat)
@[simp] theorem updEnums_port : (y.updEnums f).port j = y.port j := rfl
@[simp] theorem updEnums_frame : (y.updEnums f).frame j = y.frame j := rfl
@[simp] theorem updEnums_fifo : (y.updEnums f).fifo j = y.fifo j := rfl
@[simp] theorem updEnums_ptab : (y.updEnums f).ptab j = y.ptab j := rfl
@[simp] theorem updEnums_slot : (y.updEnums f).slot j = y.slot j := rfl
@[simp] theorem updEnums_core : (y.updEnums f).core j = y.core j := rfl
@[simp] theorem updEnums_csrc : (y.updEnums f).csrc j = y.csrc j := rfl
@[simp] theorem updEnums_inst : (y.updEnums f).inst j = y.inst j := rfl
@[simp] theorem updEnums_ring : (y.updEnums f).ring j = y.ring j := rfl
end

section
variable (n : Nat) (f : Slot → Slot) (y : Sys) (j : Nat)
@[simp] theorem updSlot_port : (y.updSlot n f).port j = y.port j := rfl
@[simp] theorem updSlot_frame : (y.updSlot n f).frame j = y.frame j := rfl
@[simp] theorem updSlot_fifo : (y.updSlot n f).fifo j = y.fifo j := rfl
@[simp] theorem updSlot_ptab : (y.updSlot n f).ptab j = y.ptab j := rfl
@[simp] theorem updSlot_core : (y.updSlot n f).core j = y.core j := rfl
@[simp] theorem updSlot_csrc : (y.updSlot n f).csrc j = y.csrc j := rfl
@[simp] theorem updSlot_inst : (y.updSlot n f).inst j = y.inst j := rfl
@[simp] theorem updSlot_ring : (y.updSlot n f).ring j = y.ring j := rfl
end

section
variable (c : Nat) (f : Core → Core) (y : Sys) (j : Nat)
@[simp] theorem updCore_port : (y.updCore c f).port j = y.port j := rfl
@[simp] theorem updCore_frame : (y.updCore c f).frame j = y.frame j := rfl
@[simp] theorem updCore_fifo : (y.updCore c f).fifo j = y.fifo j := rfl
@[simp] theorem updCore_ptab : (y.updCore c f).ptab j = y.ptab j := rfl
@[simp] theorem updCore_slot : (y.updCore c f).slot j = y.slot j := rfl
@[simp] theorem updCore_csrc : (y.updCore c f).csrc j = y.csrc j := rfl
@[simp] theorem updCore_inst : (y.updCore c f).inst j = y.inst j := rfl
@[simp] theorem updCore_ring : (y.updCore c f).ring j = y.ring j := rfl
end

section
variable (f : Holly → Holly) (y : Sys) (j : Nat)
@[simp] theorem updHolly_port : (y.updHolly f).port j = y.port j := rfl
@[simp] theorem updHolly_frame : (y.updHolly f).frame j = y.frame j := rfl
@[simp] theorem updHolly_fifo : (y.updHolly f).fifo j = y.fifo j := rfl
@[simp] theorem updHolly_ptab : (y.updHolly f).ptab j = y.ptab j := rfl
@[simp] theorem updHolly_slot : (y.updHolly f).slot j = y.slot j := rfl
@[simp] theorem updHolly_core : (y.updHolly f).core j = y.core j := rfl
@[simp] theorem updHolly_csrc : (y.updHolly f).csrc j = y.csrc j := rfl
@[simp] theorem updHolly_inst : (y.updHolly f).inst j = y.inst j := rfl
@[simp] theorem updHolly_ring : (y.updHolly f).ring j = y.ring j := rfl
end

section
variable (n : Nat) (f : CSrc → CSrc) (y : Sys) (j : Nat)
@[simp] theorem updSrc_port : (y.updSrc n f).port j = y.port j := rfl
@[simp] theorem updSrc_frame : (y.updSrc n f).frame j = y.frame j := rfl
@[simp] theorem updSrc_fifo : (y.updSrc n f).fifo j = y.fifo j := rfl
@[simp] theorem updSrc_ptab : (y.updSrc n f).ptab j = y.ptab j := rfl
@[simp] theorem updSrc_slot : (y.updSrc n f).slot j = y.slot j := rfl
@[simp] theorem updSrc_core : (y.updSrc n f).core j = y.core j := rfl
@[simp] theorem updSrc_inst : (y.updSrc n f).inst j = y.inst j := rfl
@[simp] theorem updSrc_ring : (y.updSrc n f).ring j = y.ring j := rfl
end

section
variable (g : Pg) (o : Nat) (v : Word) (y : Sys) (j : Nat)
@[simp] theorem setPg_port : (y.setPg g o v).port j = y.port j := rfl
@[simp] theorem setPg_frame : (y.setPg g o v).frame j = y.frame j := rfl
@[simp] theorem setPg_fifo : (y.setPg g o v).fifo j = y.fifo j := rfl
@[simp] theorem setPg_ptab : (y.setPg g o v).ptab j = y.ptab j := rfl
@[simp] theorem setPg_slot : (y.setPg g o v).slot j = y.slot j := rfl
@[simp] theorem setPg_core : (y.setPg g o v).core j = y.core j := rfl
@[simp] theorem setPg_csrc : (y.setPg g o v).csrc j = y.csrc j := rfl
@[simp] theorem setPg_inst : (y.setPg g o v).inst j = y.inst j := rfl
@[simp] theorem setPg_ring : (y.setPg g o v).ring j = y.ring j := rfl
end

section
variable (g : Pg) (o hi lo v : Nat) (y : Sys) (j : Nat)
@[simp] theorem setFld_port : (y.setFld g o hi lo v).port j = y.port j := rfl
@[simp] theorem setFld_frame : (y.setFld g o hi lo v).frame j = y.frame j := rfl
@[simp] theorem setFld_fifo : (y.setFld g o hi lo v).fifo j = y.fifo j := rfl
@[simp] theorem setFld_ptab : (y.setFld g o hi lo v).ptab j = y.ptab j := rfl
@[simp] theorem setFld_slot : (y.setFld g o hi lo v).slot j = y.slot j := rfl
@[simp] theorem setFld_core : (y.setFld g o hi lo v).core j = y.core j := rfl
@[simp] theorem setFld_csrc : (y.setFld g o hi lo v).csrc j = y.csrc j := rfl
@[simp] theorem setFld_inst : (y.setFld g o hi lo v).inst j = y.inst j := rfl
@[simp] theorem setFld_ring : (y.setFld g o hi lo v).ring j = y.ring j := rfl
end

section
variable (g : Pg) (o hi lo : Nat) (y : Sys) (j : Nat)
@[simp] theorem incFld_port : (y.incFld g o hi lo).port j = y.port j := rfl
@[simp] theorem incFld_frame : (y.incFld g o hi lo).frame j = y.frame j := rfl
@[simp] theorem incFld_fifo : (y.incFld g o hi lo).fifo j = y.fifo j := rfl
@[simp] theorem incFld_ptab : (y.incFld g o hi lo).ptab j = y.ptab j := rfl
@[simp] theorem incFld_slot : (y.incFld g o hi lo).slot j = y.slot j := rfl
@[simp] theorem incFld_core : (y.incFld g o hi lo).core j = y.core j := rfl
@[simp] theorem incFld_csrc : (y.incFld g o hi lo).csrc j = y.csrc j := rfl
@[simp] theorem incFld_inst : (y.incFld g o hi lo).inst j = y.inst j := rfl
@[simp] theorem incFld_ring : (y.incFld g o hi lo).ring j = y.ring j := rfl
end

section
variable (g : Pg) (o b : Nat) (y : Sys) (j : Nat)
@[simp] theorem setBit_port : (y.setBit g o b).port j = y.port j := rfl
@[simp] theorem setBit_frame : (y.setBit g o b).frame j = y.frame j := rfl
@[simp] theorem setBit_fifo : (y.setBit g o b).fifo j = y.fifo j := rfl
@[simp] theorem setBit_ptab : (y.setBit g o b).ptab j = y.ptab j := rfl
@[simp] theorem setBit_slot : (y.setBit g o b).slot j = y.slot j := rfl
@[simp] theorem setBit_core : (y.setBit g o b).core j = y.core j := rfl
@[simp] theorem setBit_csrc : (y.setBit g o b).csrc j = y.csrc j := rfl
@[simp] theorem setBit_inst : (y.setBit g o b).inst j = y.inst j := rfl
@[simp] theorem setBit_ring : (y.setBit g o b).ring j = y.ring j := rfl
end

section
variable (off : Nat) (v : Word) (y : Sys) (j : Nat)
@[simp] theorem setReg_port : (y.setReg off v).port j = y.port j := rfl
@[simp] theorem setReg_frame : (y.setReg off v).frame j = y.frame j := rfl
@[simp] theorem setReg_fifo : (y.setReg off v).fifo j = y.fifo j := rfl
@[simp] theorem setReg_ptab : (y.setReg off v).ptab j = y.ptab j := rfl
@[simp] theorem setReg_slot : (y.setReg off v).slot j = y.slot j := rfl
@[simp] theorem setReg_core : (y.setReg off v).core j = y.core j := rfl
@[simp] theorem setReg_csrc : (y.setReg off v).csrc j = y.csrc j := rfl
@[simp] theorem setReg_inst : (y.setReg off v).inst j = y.inst j := rfl
@[simp] theorem setReg_ring : (y.setReg off v).ring j = y.ring j := rfl
end

section
variable (d : Nat) (f : Dom → Dom) (y : Sys) (j : Nat)
@[simp] theorem updDom_port : (y.updDom d f).port j = y.port j := rfl
@[simp] theorem updDom_frame : (y.updDom d f).frame j = y.frame j := rfl
@[simp] theorem updDom_fifo : (y.updDom d f).fifo j = y.fifo j := rfl
@[simp] theorem updDom_ptab : (y.updDom d f).ptab j = y.ptab j := rfl
@[simp] theorem updDom_slot : (y.updDom d f).slot j = y.slot j := rfl
@[simp] theorem updDom_core : (y.updDom d f).core j = y.core j := rfl
@[simp] theorem updDom_csrc : (y.updDom d f).csrc j = y.csrc j := rfl
@[simp] theorem updDom_inst : (y.updDom d f).inst j = y.inst j := rfl
@[simp] theorem updDom_ring : (y.updDom d f).ring j = y.ring j := rfl
end

section
variable (f : Mari → Mari) (y : Sys) (j : Nat)
@[simp] theorem updMari_port : (y.updMari f).port j = y.port j := rfl
@[simp] theorem updMari_frame : (y.updMari f).frame j = y.frame j := rfl
@[simp] theorem updMari_fifo : (y.updMari f).fifo j = y.fifo j := rfl
@[simp] theorem updMari_ptab : (y.updMari f).ptab j = y.ptab j := rfl
@[simp] theorem updMari_slot : (y.updMari f).slot j = y.slot j := rfl
@[simp] theorem updMari_core : (y.updMari f).core j = y.core j := rfl
@[simp] theorem updMari_csrc : (y.updMari f).csrc j = y.csrc j := rfl
@[simp] theorem updMari_inst : (y.updMari f).inst j = y.inst j := rfl
@[simp] theorem updMari_ring : (y.updMari f).ring j = y.ring j := rfl
end

/-! ## Registers and domains -/

section
variable (d : Nat) (f : Dom → Dom) (y : Sys)
@[simp] theorem updDom_reg (o : Nat) : (y.updDom d f).reg o = y.reg o := rfl
@[simp] theorem updDom_pgReg (g : Pg) (o : Nat) : (y.updDom d f).pgReg g o = y.pgReg g o := rfl
end

section
variable (i : Nat) (f : Inst → Inst) (y : Sys)
@[simp] theorem updInst_reg (o : Nat) : (y.updInst i f).reg o = y.reg o := rfl
@[simp] theorem updInst_pgReg (g : Pg) (o : Nat) : (y.updInst i f).pgReg g o = y.pgReg g o := rfl
@[simp] theorem updInst_dom (j : Nat) : (y.updInst i f).dom j = y.dom j := rfl
@[simp] theorem updInst_on (j : Nat) : (y.updInst i f).on j = y.on j := rfl
end

section
variable (k : Nat) (f : Ring → Ring) (y : Sys)
@[simp] theorem updRing_reg (o : Nat) : (y.updRing k f).reg o = y.reg o := rfl
@[simp] theorem updRing_pgReg (g : Pg) (o : Nat) : (y.updRing k f).pgReg g o = y.pgReg g o := rfl
@[simp] theorem updRing_dom (j : Nat) : (y.updRing k f).dom j = y.dom j := rfl
@[simp] theorem updRing_on (j : Nat) : (y.updRing k f).on j = y.on j := rfl
end

section
variable (f : Xfer → Xfer) (y : Sys)
@[simp] theorem mapX_reg (o : Nat) : (y.mapX f).reg o = y.reg o := rfl
@[simp] theorem mapX_pgReg (g : Pg) (o : Nat) : (y.mapX f).pgReg g o = y.pgReg g o := rfl
@[simp] theorem mapX_dom (j : Nat) : (y.mapX f).dom j = y.dom j := rfl
@[simp] theorem mapX_on (j : Nat) : (y.mapX f).on j = y.on j := rfl
end

section
variable (f : Decust → Decust) (y : Sys)
@[simp] theorem updDec_reg (o : Nat) : (y.updDec f).reg o = y.reg o := rfl
@[simp] theorem updDec_pgReg (g : Pg) (o : Nat) : (y.updDec f).pgReg g o = y.pgReg g o := rfl
@[simp] theorem updDec_dom (j : Nat) : (y.updDec f).dom j = y.dom j := rfl
@[simp] theorem updDec_on (j : Nat) : (y.updDec f).on j = y.on j := rfl
end

section
variable (p : Nat) (f : Port → Port) (y : Sys)
@[simp] theorem updPort_reg (o : Nat) : (y.updPort p f).reg o = y.reg o := rfl
@[simp] theorem updPort_pgReg (g : Pg) (o : Nat) : (y.updPort p f).pgReg g o = y.pgReg g o := rfl
@[simp] theorem updPort_dom (j : Nat) : (y.updPort p f).dom j = y.dom j := rfl
@[simp] theorem updPort_on (j : Nat) : (y.updPort p f).on j = y.on j := rfl
end

section
variable (p : Nat) (f : PFrame → PFrame) (y : Sys)
@[simp] theorem updFrame_reg (o : Nat) : (y.updFrame p f).reg o = y.reg o := rfl
@[simp] theorem updFrame_pgReg (g : Pg) (o : Nat) : (y.updFrame p f).pgReg g o = y.pgReg g o := rfl
@[simp] theorem updFrame_dom (j : Nat) : (y.updFrame p f).dom j = y.dom j := rfl
@[simp] theorem updFrame_on (j : Nat) : (y.updFrame p f).on j = y.on j := rfl
end

section
variable (p : Nat) (f : Fifo → Fifo) (y : Sys)
@[simp] theorem updFifo_reg (o : Nat) : (y.updFifo p f).reg o = y.reg o := rfl
@[simp] theorem updFifo_pgReg (g : Pg) (o : Nat) : (y.updFifo p f).pgReg g o = y.pgReg g o := rfl
@[simp] theorem updFifo_dom (j : Nat) : (y.updFifo p f).dom j = y.dom j := rfl
@[simp] theorem updFifo_on (j : Nat) : (y.updFifo p f).on j = y.on j := rfl
end

section
variable (p : Nat) (f : PTab → PTab) (y : Sys)
@[simp] theorem updPtab_reg (o : Nat) : (y.updPtab p f).reg o = y.reg o := rfl
@[simp] theorem updPtab_pgReg (g : Pg) (o : Nat) : (y.updPtab p f).pgReg g o = y.pgReg g o := rfl
@[simp] theorem updPtab_dom (j : Nat) : (y.updPtab p f).dom j = y.dom j := rfl
@[simp] theorem updPtab_on (j : Nat) : (y.updPtab p f).on j = y.on j := rfl
end

section
variable (e c : Nat) (f : Chan2 → Chan2) (y : Sys)
@[simp] theorem updChan_reg (o : Nat) : (y.updChan e c f).reg o = y.reg o := rfl
@[simp] theorem updChan_pgReg (g : Pg) (o : Nat) : (y.updChan e c f).pgReg g o = y.pgReg g o := rfl
@[simp] theorem updChan_dom (j : Nat) : (y.updChan e c f).dom j = y.dom j := rfl
@[simp] theorem updChan_on (j : Nat) : (y.updChan e c f).on j = y.on j := rfl
end

section
variable (f : Power → Power) (y : Sys)
@[simp] theorem updPower_reg (o : Nat) : (y.updPower f).reg o = y.reg o := rfl
@[simp] theorem updPower_pgReg (g : Pg) (o : Nat) : (y.updPower f).pgReg g o = y.pgReg g o := rfl
@[simp] theorem updPower_dom (j : Nat) : (y.updPower f).dom j = y.dom j := rfl
@[simp] theorem updPower_on (j : Nat) : (y.updPower f).on j = y.on j := rfl
end

section
variable (f : List Enum → List Enum) (y : Sys)
@[simp] theorem updEnums_reg (o : Nat) : (y.updEnums f).reg o = y.reg o := rfl
@[simp] theorem updEnums_pgReg (g : Pg) (o : Nat) : (y.updEnums f).pgReg g o = y.pgReg g o := rfl
@[simp] theorem updEnums_dom (j : Nat) : (y.updEnums f).dom j = y.dom j := rfl
@[simp] theorem updEnums_on (j : Nat) : (y.updEnums f).on j = y.on j := rfl
end

section
variable (n : Nat) (f : Slot → Slot) (y : Sys)
@[simp] theorem updSlot_reg (o : Nat) : (y.updSlot n f).reg o = y.reg o := rfl
@[simp] theorem updSlot_pgReg (g : Pg) (o : Nat) : (y.updSlot n f).pgReg g o = y.pgReg g o := rfl
@[simp] theorem updSlot_dom (j : Nat) : (y.updSlot n f).dom j = y.dom j := rfl
@[simp] theorem updSlot_on (j : Nat) : (y.updSlot n f).on j = y.on j := rfl
end

section
variable (c : Nat) (f : Core → Core) (y : Sys)
@[simp] theorem updCore_reg (o : Nat) : (y.updCore c f).reg o = y.reg o := rfl
@[simp] theorem updCore_pgReg (g : Pg) (o : Nat) : (y.updCore c f).pgReg g o = y.pgReg g o := rfl
@[simp] theorem updCore_dom (j : Nat) : (y.updCore c f).dom j = y.dom j := rfl
@[simp] theorem updCore_on (j : Nat) : (y.updCore c f).on j = y.on j := rfl
end

section
variable (f : Holly → Holly) (y : Sys)
@[simp] theorem updHolly_reg (o : Nat) : (y.updHolly f).reg o = y.reg o := rfl
@[simp] theorem updHolly_pgReg (g : Pg) (o : Nat) : (y.updHolly f).pgReg g o = y.pgReg g o := rfl
@[simp] theorem updHolly_dom (j : Nat) : (y.updHolly f).dom j = y.dom j := rfl
@[simp] theorem updHolly_on (j : Nat) : (y.updHolly f).on j = y.on j := rfl
end

section
variable (n : Nat) (f : CSrc → CSrc) (y : Sys)
@[simp] theorem updSrc_reg (o : Nat) : (y.updSrc n f).reg o = y.reg o := rfl
@[simp] theorem updSrc_pgReg (g : Pg) (o : Nat) : (y.updSrc n f).pgReg g o = y.pgReg g o := rfl
@[simp] theorem updSrc_dom (j : Nat) : (y.updSrc n f).dom j = y.dom j := rfl
@[simp] theorem updSrc_on (j : Nat) : (y.updSrc n f).on j = y.on j := rfl
end

section
variable (f : Mari → Mari) (y : Sys)
@[simp] theorem updMari_reg (o : Nat) : (y.updMari f).reg o = y.reg o := rfl
@[simp] theorem updMari_pgReg (g : Pg) (o : Nat) : (y.updMari f).pgReg g o = y.pgReg g o := rfl
@[simp] theorem updMari_dom (j : Nat) : (y.updMari f).dom j = y.dom j := rfl
@[simp] theorem updMari_on (j : Nat) : (y.updMari f).on j = y.on j := rfl
end

end Sys2Proof.Machine
end

