-- ==== Sys2Proof/Laws/Exec.lean ====
section
/-! SUPPORT. What every command can do, said once: but for the end of power-on reset and the failure of VIN, a command is one
change of the block in a chip that operates. -/

namespace Sys2Proof.Machine

/-- An ordinary command is one change of the block, where the chip operates. -/
theorem exec_liveSys (c : Instr) (s : State) (h : ordinary c = true) : ∃ f, exec c s = liveSys s f := by
  cases c with
  | registerWrite => exact ⟨_, by simp only [exec, execRegisterWrite, liveWin]; rfl⟩
  | accessError => exact ⟨_, by simp only [exec, execAccessError, liveWin]; rfl⟩
  | unsupportedRequest => exact ⟨_, by simp only [exec, execUnsupportedRequest, liveWin]; rfl⟩
  | nvWrite => exact ⟨_, by simp only [exec, execNvWrite, liveWin]; rfl⟩
  | nvWriteAccept => exact ⟨_, by simp only [exec, execNvWriteAccept]; rfl⟩
  | nvWriteDurable => exact ⟨_, by simp only [exec, execNvWriteDurable]; rfl⟩
  | stagedWrite => exact ⟨_, by simp only [exec, execStagedWrite, liveWin]; rfl⟩
  | discard => exact ⟨_, by simp only [exec, execDiscard, liveWin]; rfl⟩
  | tenCommit => exact ⟨_, by simp only [exec, execTenCommit, liveWin]; rfl⟩
  | discardAll => exact ⟨_, by simp only [exec, execDiscardAll, liveWin]; rfl⟩
  | commitPoint => exact ⟨_, by simp only [exec, execCommitPoint]; rfl⟩
  | errorInject => exact ⟨_, by simp only [exec, execErrorInject, liveWin]; rfl⟩
  | imageWrite => exact ⟨_, by simp only [exec, execImageWrite, liveWin]; rfl⟩
  | paceEvaluation => exact ⟨_, by simp only [exec, execPaceEvaluation]; rfl⟩
  | paceThrWrite => exact ⟨_, by simp only [exec, execPaceThrWrite, liveWin]; rfl⟩
  | frameStart => exact ⟨_, by simp only [exec, execFrameStart]; rfl⟩
  | transactionEnd => exact ⟨_, by simp only [exec, execTransactionEnd]; rfl⟩
  | inPacket => exact ⟨_, by simp only [exec, execInPacket]; rfl⟩
  | busBabble => exact ⟨_, by simp only [exec, execBusBabble]; rfl⟩
  | dbWake => exact ⟨_, by simp only [exec, execDbWake, liveWin]; rfl⟩
  | dbEnable => exact ⟨_, by simp only [exec, execDbEnable, liveWin]; rfl⟩
  | dbDisable => exact ⟨_, by simp only [exec, execDbDisable, liveWin]; rfl⟩
  | dbClearHalt => exact ⟨_, by simp only [exec, execDbClearHalt, liveWin]; rfl⟩
  | dbCmp => exact ⟨_, by simp only [exec, execDbCmp, liveWin]; rfl⟩
  | dbEvt => exact ⟨_, by simp only [exec, execDbEvt, liveWin]; rfl⟩
  | rngViewDisable => exact ⟨_, by simp only [exec, execRngViewDisable, liveWin]; rfl⟩
  | descriptorFetch => exact ⟨_, by simp only [exec, execDescriptorFetch]; rfl⟩
  | contextFetch => exact ⟨_, by simp only [exec, execContextFetch]; rfl⟩
  | dispatch => exact ⟨_, by simp only [exec, execDispatch]; rfl⟩
  | transferTimeout => exact ⟨_, by simp only [exec, execTransferTimeout]; rfl⟩
  | flushingReadDone => exact ⟨_, by simp only [exec, execFlushingReadDone]; rfl⟩
  | modIntervalExpiry => exact ⟨_, by simp only [exec, execModIntervalExpiry]; rfl⟩
  | entryScanRead => exact ⟨_, by simp only [exec, execEntryScanRead]; rfl⟩
  | eventDelivery => exact ⟨_, by simp only [exec, execEventDelivery]; rfl⟩
  | spqWalk => exact ⟨_, by simp only [exec, execSpqWalk]; rfl⟩
  | dmaBurstStart => exact ⟨_, by simp only [exec, execDmaBurstStart]; rfl⟩
  | dmaReadCompletion => exact ⟨_, by simp only [exec, execDmaReadCompletion]; rfl⟩
  | dmaBurstEnd => exact ⟨_, by simp only [exec, execDmaBurstEnd]; rfl⟩
  | dmaAgeing => exact ⟨_, by simp only [exec, execDmaAgeing]; rfl⟩
  | channelRestart => exact ⟨_, by simp only [exec, execChannelRestart, liveWin]; rfl⟩
  | firmwareDmaStart => exact ⟨_, by simp only [exec, execFirmwareDmaStart]; rfl⟩
  | dcqCiWrite => exact ⟨_, by simp only [exec, execDcqCiWrite]; rfl⟩
  | pasidEnableChange => exact ⟨_, by simp only [exec, execPasidEnableChange]; rfl⟩
  | powerOn => exact ⟨_, by simp only [exec, execPowerOn, liveWin]; rfl⟩
  | powerOff => exact ⟨_, by simp only [exec, execPowerOff, liveWin]; rfl⟩
  | resetCmd => exact ⟨_, by simp only [exec, execResetCmd, liveWin]; rfl⟩
  | disableCmd => exact ⟨_, by simp only [exec, execDisableCmd, liveWin]; rfl⟩
  | vbusStaggerStep => exact ⟨_, by simp only [exec, execVbusStaggerStep]; rfl⟩
  | hpwrStaggerStep => exact ⟨_, by simp only [exec, execHpwrStaggerStep]; rfl⟩
  | powerGoodWaitEnd => exact ⟨_, by simp only [exec, execPowerGoodWaitEnd]; rfl⟩
  | connect => exact ⟨_, by simp only [exec, execConnect]; rfl⟩
  | debounceEnd => exact ⟨_, by simp only [exec, execDebounceEnd]; rfl⟩
  | disconnect => exact ⟨_, by simp only [exec, execDisconnect]; rfl⟩
  | enumStart => exact ⟨_, by simp only [exec, execEnumStart]; rfl⟩
  | resetSignalEnd => exact ⟨_, by simp only [exec, execResetSignalEnd]; rfl⟩
  | resetRecoveryEnd => exact ⟨_, by simp only [exec, execResetRecoveryEnd]; rfl⟩
  | slotGrant => exact ⟨_, by simp only [exec, execSlotGrant]; rfl⟩
  | enumRequestComplete => exact ⟨_, by simp only [exec, execEnumRequestComplete]; rfl⟩
  | enumRequestTimeout => exact ⟨_, by simp only [exec, execEnumRequestTimeout]; rfl⟩
  | setAddressRecoveryEnd => exact ⟨_, by simp only [exec, execSetAddressRecoveryEnd]; rfl⟩
  | portMeasurement => exact ⟨_, by simp only [exec, execPortMeasurement]; rfl⟩
  | ocHardTrip => exact ⟨_, by simp only [exec, execOcHardTrip]; rfl⟩
  | ocRetryExpiry => exact ⟨_, by simp only [exec, execOcRetryExpiry]; rfl⟩
  | ocRetryClear => exact ⟨_, by simp only [exec, execOcRetryClear]; rfl⟩
  | testModeSelect => exact ⟨_, by simp only [exec, execTestModeSelect, liveWin]; rfl⟩
  | testModeClear => exact ⟨_, by simp only [exec, execTestModeClear, liveWin]; rfl⟩
  | testClearEnd => exact ⟨_, by simp only [exec, execTestClearEnd]; rfl⟩
  | hubRequestComplete => exact ⟨_, by simp only [exec, execHubRequestComplete]; rfl⟩
  | hubPowerGoodEnd => exact ⟨_, by simp only [exec, execHubPowerGoodEnd]; rfl⟩
  | hubStatusChange => exact ⟨_, by simp only [exec, execHubStatusChange]; rfl⟩
  | hubPortDebounceEnd => exact ⟨_, by simp only [exec, execHubPortDebounceEnd]; rfl⟩
  | hubResetTimeout => exact ⟨_, by simp only [exec, execHubResetTimeout]; rfl⟩
  | hubResetRecoveryEnd => exact ⟨_, by simp only [exec, execHubResetRecoveryEnd]; rfl⟩
  | portSuspendReq => exact ⟨_, by simp only [exec, execPortSuspendReq, liveWin]; rfl⟩
  | portResumeReq => exact ⟨_, by simp only [exec, execPortResumeReq, liveWin]; rfl⟩
  | suspendEntryEnd => exact ⟨_, by simp only [exec, execSuspendEntryEnd]; rfl⟩
  | resumeSignalEnd => exact ⟨_, by simp only [exec, execResumeSignalEnd]; rfl⟩
  | resumeRecoveryEnd => exact ⟨_, by simp only [exec, execResumeRecoveryEnd]; rfl⟩
  | hubResumeTimeout => exact ⟨_, by simp only [exec, execHubResumeTimeout]; rfl⟩
  | remoteWake => exact ⟨_, by simp only [exec, execRemoteWake]; rfl⟩
  | scanKbdReport => exact ⟨_, by simp only [exec, execScanKbdReport]; rfl⟩
  | scanPosReport => exact ⟨_, by simp only [exec, execScanPosReport]; rfl⟩
  | scanGapExpiry => exact ⟨_, by simp only [exec, execScanGapExpiry]; rfl⟩
  | scaleReport => exact ⟨_, by simp only [exec, execScaleReport]; rfl⟩
  | scaleStabilityExpiry => exact ⟨_, by simp only [exec, execScaleStabilityExpiry]; rfl⟩
  | printerStatusBlock => exact ⟨_, by simp only [exec, execPrinterStatusBlock]; rfl⟩
  | printerStatusPoll => exact ⟨_, by simp only [exec, execPrinterStatusPoll]; rfl⟩
  | printerOutNotice => exact ⟨_, by simp only [exec, execPrinterOutNotice]; rfl⟩
  | powerChangeNotice => exact ⟨_, by simp only [exec, execPowerChangeNotice]; rfl⟩
  | printerIdleExpiry => exact ⟨_, by simp only [exec, execPrinterIdleExpiry]; rfl⟩
  | drawerSenseReport => exact ⟨_, by simp only [exec, execDrawerSenseReport]; rfl⟩
  | drawerSenseExpiry => exact ⟨_, by simp only [exec, execDrawerSenseExpiry]; rfl⟩
  | kick => exact ⟨_, by simp only [exec, execKick]; rfl⟩
  | kickGapExpiry => exact ⟨_, by simp only [exec, execKickGapExpiry]; rfl⟩
  | pulseExpiry => exact ⟨_, by simp only [exec, execPulseExpiry]; rfl⟩
  | openWaitExpiry => exact ⟨_, by simp only [exec, execOpenWaitExpiry]; rfl⟩
  | clear => exact ⟨_, by simp only [exec, execClear]; rfl⟩
  | text => exact ⟨_, by simp only [exec, execText]; rfl⟩
  | bright => exact ⟨_, by simp only [exec, execBright]; rfl⟩
  | keyboardReport => exact ⟨_, by simp only [exec, execKeyboardReport]; rfl⟩
  | personalityRequestComplete => exact ⟨_, by simp only [exec, execPersonalityRequestComplete]; rfl⟩
  | mcqTake => exact ⟨_, by simp only [exec, execMcqTake]; rfl⟩
  | hello => exact ⟨_, by simp only [exec, execHello]; rfl⟩
  | createInstance => exact ⟨_, by simp only [exec, execCreateInstance]; rfl⟩
  | destroyInstance => exact ⟨_, by simp only [exec, execDestroyInstance]; rfl⟩
  | resetInstance => exact ⟨_, by simp only [exec, execResetInstance]; rfl⟩
  | vivelAgree => exact ⟨_, by simp only [exec, execVivelAgree]; rfl⟩
  | createRing => exact ⟨_, by simp only [exec, execCreateRing]; rfl⟩
  | destroyRing => exact ⟨_, by simp only [exec, execDestroyRing]; rfl⟩
  | assignDevice => exact ⟨_, by simp only [exec, execAssignDevice]; rfl⟩
  | unassignDevice => exact ⟨_, by simp only [exec, execUnassignDevice]; rfl⟩
  | selectConfig => exact ⟨_, by simp only [exec, execSelectConfig]; rfl⟩
  | openEndpoint => exact ⟨_, by simp only [exec, execOpenEndpoint]; rfl⟩
  | closeEndpoint => exact ⟨_, by simp only [exec, execCloseEndpoint]; rfl⟩
  | normalise => exact ⟨_, by simp only [exec, execNormalise]; rfl⟩
  | unbind => exact ⟨_, by simp only [exec, execUnbind]; rfl⟩
  | sealDevice => exact ⟨_, by simp only [exec, execSealDevice]; rfl⟩
  | loadParams => exact ⟨_, by simp only [exec, execLoadParams]; rfl⟩
  | portCmd => exact ⟨_, by simp only [exec, execPortCmd]; rfl⟩
  | suspend => exact ⟨_, by simp only [exec, execSuspend]; rfl⟩
  | resume => exact ⟨_, by simp only [exec, execResume]; rfl⟩
  | deviceReset => exact ⟨_, by simp only [exec, execDeviceReset]; rfl⟩
  | bindQueue => exact ⟨_, by simp only [exec, execBindQueue]; rfl⟩
  | commit => exact ⟨_, by simp only [exec, execCommit]; rfl⟩
  | meqCiWrite => exact ⟨_, by simp only [exec, execMeqCiWrite, liveWin]; rfl⟩
  | mcqEnable => exact ⟨_, by simp only [exec, execMcqEnable, liveWin]; rfl⟩
  | meqEnable => exact ⟨_, by simp only [exec, execMeqEnable, liveWin]; rfl⟩
  | mgrRestart => exact ⟨_, by simp only [exec, execMgrRestart, liveWin]; rfl⟩
  | tmbPost => exact ⟨_, by simp only [exec, execTmbPost, liveWin]; rfl⟩
  | tmbFree => exact ⟨_, by simp only [exec, execTmbFree, liveWin]; rfl⟩
  | tmbDnLockAcquire => exact ⟨_, by simp only [exec, execTmbDnLockAcquire, liveWin]; rfl⟩
  | tmbDnLockRelease => exact ⟨_, by simp only [exec, execTmbDnLockRelease, liveWin]; rfl⟩
  | vivelHello => exact ⟨_, by simp only [exec, execVivelHello]; rfl⟩
  | msgUnmask => exact ⟨_, by simp only [exec, execMsgUnmask, liveWin]; rfl⟩
  | msixUnmask => exact ⟨_, by simp only [exec, execMsixUnmask, liveWin]; rfl⟩
  | mbxPost => exact ⟨_, by simp only [exec, execMbxPost, liveWin]; rfl⟩
  | mbxFree => exact ⟨_, by simp only [exec, execMbxFree, liveWin]; rfl⟩
  | mbxLockAcquire => exact ⟨_, by simp only [exec, execMbxLockAcquire, liveWin]; rfl⟩
  | mbxLockRelease => exact ⟨_, by simp only [exec, execMbxLockRelease, liveWin]; rfl⟩
  | itemDispatch => exact ⟨_, by simp only [exec, execItemDispatch]; rfl⟩
  | itemEnd => exact ⟨_, by simp only [exec, execItemEnd]; rfl⟩
  | watchdogExpiry => exact ⟨_, by simp only [exec, execWatchdogExpiry]; rfl⟩
  | coreReset => exact ⟨_, by simp only [exec, execCoreReset, liveWin]; rfl⟩
  | coreReloadEnd => exact ⟨_, by simp only [exec, execCoreReloadEnd]; rfl⟩
  | allStoppedExpiry => exact ⟨_, by simp only [exec, execAllStoppedExpiry]; rfl⟩
  | delayTick => exact ⟨_, by simp only [exec, execDelayTick]; rfl⟩
  | deviceContextFetch => exact ⟨_, by simp only [exec, execDeviceContextFetch]; rfl⟩
  | cicSourceAssert => exact ⟨_, by simp only [exec, execCicSourceAssert]; rfl⟩
  | cicClaim => exact ⟨_, by simp only [exec, execCicClaim, liveWin]; rfl⟩
  | cicFclaim => exact ⟨_, by simp only [exec, execCicFclaim, liveWin]; rfl⟩
  | cicComplete => exact ⟨_, by simp only [exec, execCicComplete, liveWin]; rfl⟩
  | cicFcomplete => exact ⟨_, by simp only [exec, execCicFcomplete, liveWin]; rfl⟩
  | cicSwi => exact ⟨_, by simp only [exec, execCicSwi, liveWin]; rfl⟩
  | cicPendClear => exact ⟨_, by simp only [exec, execCicPendClear, liveWin]; rfl⟩
  | powerOnResetEnd => simp [ordinary] at h
  | vinFail => simp [ordinary] at h
  | perstAssert => exact ⟨_, by simp only [exec, execPerstAssert]; rfl⟩
  | perstDeassert => exact ⟨_, by simp only [exec, execPerstDeassert]; rfl⟩
  | loaderWindowReady => exact ⟨_, by simp only [exec, execLoaderWindowReady]; rfl⟩
  | ldrGo => exact ⟨_, by simp only [exec, execLdrGo, liveWin]; rfl⟩
  | ldqCopy => exact ⟨_, by simp only [exec, execLdqCopy]; rfl⟩
  | ldqGo => exact ⟨_, by simp only [exec, execLdqGo]; rfl⟩
  | verificationEnd => exact ⟨_, by simp only [exec, execVerificationEnd]; rfl⟩
  | managerReady => exact ⟨_, by simp only [exec, execManagerReady]; rfl⟩
  | fwFail => exact ⟨_, by simp only [exec, execFwFail]; rfl⟩
  | fwTimeout => exact ⟨_, by simp only [exec, execFwTimeout]; rfl⟩
  | domainRequest => exact ⟨_, by simp only [exec, execDomainRequest, liveWin]; rfl⟩
  | quiesceDrainEnd => exact ⟨_, by simp only [exec, execQuiesceDrainEnd]; rfl⟩
  | drainTimeout => exact ⟨_, by simp only [exec, execDrainTimeout]; rfl⟩
  | domainTransitionEnd => exact ⟨_, by simp only [exec, execDomainTransitionEnd]; rfl⟩
  | wakeLatch => exact ⟨_, by simp only [exec, execWakeLatch]; rfl⟩
  | d3hotEntry => exact ⟨_, by simp only [exec, execD3hotEntry]; rfl⟩
  | d0Entry => exact ⟨_, by simp only [exec, execD0Entry]; rfl⟩
  | railpgGood => exact ⟨_, by simp only [exec, execRailpgGood]; rfl⟩
  | railpgLoss => exact ⟨_, by simp only [exec, execRailpgLoss]; rfl⟩
  | marigoldUnitStart => exact ⟨_, by simp only [exec, execMarigoldUnitStart]; rfl⟩
  | wearMigrationEnd => exact ⟨_, by simp only [exec, execWearMigrationEnd]; rfl⟩
  | telDue => exact ⟨_, by simp only [exec, execTelDue]; rfl⟩
  | telUnitEnd => exact ⟨_, by simp only [exec, execTelUnitEnd]; rfl⟩
  | tlqCiWrite => exact ⟨_, by simp only [exec, execTlqCiWrite, liveWin]; rfl⟩
  | scrubLineDue => exact ⟨_, by simp only [exec, execScrubLineDue]; rfl⟩
  | scrubUnitEnd => exact ⟨_, by simp only [exec, execScrubUnitEnd]; rfl⟩
  | scrubPeriodEnd => exact ⟨_, by simp only [exec, execScrubPeriodEnd]; rfl⟩
  | calPeriodExpiry => exact ⟨_, by simp only [exec, execCalPeriodExpiry]; rfl⟩
  | calStepEnd => exact ⟨_, by simp only [exec, execCalStepEnd]; rfl⟩
  | calDeferExpiry => exact ⟨_, by simp only [exec, execCalDeferExpiry]; rfl⟩
  | fullCalibrationEnd => exact ⟨_, by simp only [exec, execFullCalibrationEnd]; rfl⟩
  | tbMfRead => exact ⟨_, by simp only [exec, execTbMfRead, liveWin]; rfl⟩
  | smbPtr => exact ⟨_, by simp only [exec, execSmbPtr]; rfl⟩
  | smbData => exact ⟨_, by simp only [exec, execSmbData]; rfl⟩
  | smbBurst => exact ⟨_, by simp only [exec, execSmbBurst]; rfl⟩
  | smbSummary => exact ⟨_, by simp only [exec, execSmbSummary]; rfl⟩
  | smbTimeout => exact ⟨_, by simp only [exec, execSmbTimeout]; rfl⟩
  | alertResponse => exact ⟨_, by simp only [exec, execAlertResponse]; rfl⟩
  | functionReset => exact ⟨_, by simp only [exec, execFunctionReset]; rfl⟩
  | regionReset => exact ⟨_, by simp only [exec, execRegionReset, liveWin]; rfl⟩
  | portUnitReset => exact ⟨_, by simp only [exec, execPortUnitReset, liveWin]; rfl⟩
  | extest => exact ⟨_, by simp only [exec, execExtest]; rfl⟩
  | idcode => exact ⟨_, by simp only [exec, execIdcode]; rfl⟩
  | samplePreload => exact ⟨_, by simp only [exec, execSamplePreload]; rfl⟩
  | clamp => exact ⟨_, by simp only [exec, execClamp]; rfl⟩
  | highz => exact ⟨_, by simp only [exec, execHighz]; rfl⟩
  | bypass => exact ⟨_, by simp only [exec, execBypass]; rfl⟩
  | tapReset => exact ⟨_, by simp only [exec, execTapReset]; rfl⟩
  | cellFault => exact ⟨_, by simp only [exec, execCellFault]; rfl⟩
  | cicSourceRelease => exact ⟨_, by simp only [exec, execCicSourceRelease]; rfl⟩
  | pcieReceiveError => exact ⟨_, by simp only [exec, execPcieReceiveError]; rfl⟩
  | registerRead => exact ⟨_, by simp only [exec, execRegisterRead, liveWin]; rfl⟩

/-- A step takes the front command, or ticks. -/
theorem step_nil {s : State} (h : s.pending = []) : step s = .next s.tick := by simp [step, h]

theorem step_cons {s : State} {c : Instr} {r : List Instr} (h : s.pending = c :: r) :
    step s = exec c { s with pending := r } := by simp [step, h]

end Sys2Proof.Machine
end

