-- ==== Sys2Proof/Laws/Storage.lean ====
section
/-! SUPPORT. Every operation on the register file and on the SRAMs keeps their canonical form. -/

namespace Sys2Proof.Machine

theorem storageCanon_iff {y : Sys} : y.storageCanon = true ↔
    FMap.canon regReset y.regs = true ∧ y.eng.sram.canon = true ∧ FMap.canon (fun _ => none) y.eng.lsram = true := by
  simp [Sys.storageCanon, and_assoc]

/-- Storing a register keeps the form. -/
theorem storageCanon_setReg (off : Nat) (v : Word) {y : Sys} (h : y.storageCanon = true) :
    (y.setReg off v).storageCanon = true := by
  rw [storageCanon_iff] at *
  exact ⟨FMap.canon_put off v h.1, h.2⟩

/-- Resetting pages keeps the form. -/
theorem storageCanon_resetPages (p : Pg → Bool) {y : Sys} (h : y.storageCanon = true) :
    (y.resetPages p).storageCanon = true := by
  rw [storageCanon_iff] at *
  exact ⟨FMap.canon_filter _ h.1, h.2⟩

/-- Storing a byte of the shared SRAM keeps the form. -/
theorem storageCanon_setSram (o : Nat) (b : Byte) {y : Sys} (h : y.storageCanon = true) :
    (y.setSram o b).storageCanon = true := by
  rw [storageCanon_iff] at *
  refine ⟨h.1, ?_, h.2.2⟩
  have hs := h.2.1
  unfold Sys.setSram Sram.canon at *
  by_cases hz : y.eng.sram.zero = true
  · simp only [hz, if_true] at *
    exact FMap.canon_put (d := fun _ => 0) o b hs
  · simp only [hz] at *
    exact FMap.rising_ins (fun e he => (FMap.mem_del he).2) (FMap.rising_del o hs)

/-- Storing a run of bytes of the shared SRAM keeps the form. -/
theorem storageCanon_setSramL (bs : List Byte) : ∀ (o : Nat) {y : Sys}, y.storageCanon = true →
    (y.setSramL o bs).storageCanon = true := by
  induction bs with
  | nil => intro o y h; exact h
  | cons b r ih => intro o y h; exact ih (o + 1) (storageCanon_setSram o b h)

/-- Poison marks are no part of the form. -/
theorem storageCanon_markSram (o n : Nat) (p : Bool) {y : Sys} (h : y.storageCanon = true) :
    (y.markSram o n p).storageCanon = true := h

/-- Storing bytes at an engine-region address keeps the form. -/
theorem storageCanon_setLocal (a : Nat) (bs : List Byte) (p : Bool) {y : Sys} (h : y.storageCanon = true) :
    (y.setLocal a bs p).storageCanon = true := by
  unfold Sys.setLocal
  split
  · exact storageCanon_markSram _ _ _ (storageCanon_setSramL bs _ h)
  · rw [storageCanon_iff] at *
    exact ⟨h.1, h.2.1, FMap.canon_putAll _ _ h.2.2⟩

/-- What is read after a register has been stored. -/
@[simp] theorem reg_setReg_self (off : Nat) (v : Word) (y : Sys) : (y.setReg off v).reg off = v := FMap.get_put_self _ _ _ _

theorem reg_setReg_ne {off o : Nat} (h : o ≠ off) (v : Word) (y : Sys) : (y.setReg off v).reg o = y.reg o :=
  FMap.get_put_ne _ h _ _

/-- A byte of the shared SRAM reads as written, and the other bytes as before. -/
theorem sramByte_setSram (o a : Nat) (b : Byte) (y : Sys) :
    (y.setSram o b).sramByte a = if a = o then b else y.sramByte a := by
  unfold Sys.setSram Sys.sramByte
  by_cases hz : y.eng.sram.zero = true <;> simp only [hz, if_true]
  · by_cases h : a = o
    · subst h; simp
    · simp [h, FMap.get_put_ne]
  · by_cases h : a = o
    · subst h
      simp only [if_true]
      exact FMap.get_ins_self _ _ _ _ fun e he => (FMap.mem_del he).2
    · simp only [h, if_false]
      exact (FMap.get_ins_ne _ h _ _).trans (FMap.get_del_ne _ h _)

end Sys2Proof.Machine
end

