-- ==== Sys2Proof/Laws/Word.lean ====
section
/-! SUPPORT. Bits of dwords. -/

namespace Sys2Proof.Word

theorem bit_eq (w : Word) (n : Nat) : w.bit n = w.getLsbD n := by
  have h : w.getLsbD n = w.toNat.testBit n := rfl
  rw [h, Nat.testBit, Word.bit]
  rcases Nat.mod_two_eq_zero_or_one (w.toNat >>> n) with h | h <;> simp [h, Nat.one_and_eq_mod_two]

theorem mask_bit {b : Nat} (h : b < 32) (n : Nat) : (BitVec.ofNat 32 (1 <<< b)).getLsbD n = decide (n = b) := by
  rw [BitVec.getLsbD_ofNat, Nat.one_shiftLeft, Nat.testBit_two_pow]
  by_cases hn : n = b
  · subst hn; simp [h]
  · simp [hn, Ne.symm hn]

theorem one_bit (v b n : Nat) : (BitVec.ofNat 32 ((v % 2 ^ (b - b + 1)) <<< b)).getLsbD n =
    (decide (n < 32) && decide (n = b) && decide (v % 2 = 1)) := by
  rw [BitVec.getLsbD_ofNat]
  rcases Nat.mod_two_eq_zero_or_one v with h | h
  · simp [h]
  · simp only [Nat.sub_self, Nat.zero_add, pow_one, h, Nat.one_shiftLeft, Nat.testBit_two_pow]
    by_cases hn : n = b
    · simp [hn]
    · simp [hn, Ne.symm hn]

/-- The bits of a dword one bit of which has been set. -/
theorem bit_put (w : Word) {b : Nat} (h : b < 32) (n v : Nat) :
    (w.put b b v).bit n = if n = b then decide (v % 2 = 1) else w.bit n := by
  rw [bit_eq, bit_eq]
  unfold Word.put Word.mk
  have hm : ((2 ^ (b - b + 1) - 1) <<< b) = 1 <<< b := by simp
  simp only [hm, BitVec.getLsbD_or, BitVec.getLsbD_and, BitVec.getLsbD_not, mask_bit h, one_bit]
  by_cases hn : n = b
  · subst hn; simp [h]
  · by_cases h32 : n < 32
    · simp [hn, h32]
    · simp [hn, h32, BitVec.getLsbD_of_ge w n (by omega)]

/-- A bit that has been set reads 1. -/
theorem bit_put_self (w : Word) {b : Nat} (h : b < 32) : (w.put b b 1).bit b = true := by simp [bit_put w h]

end Sys2Proof.Word
end

