-- ==== Sys2Proof/Laws/Reports.lean ====
section
/-! SUPPORT. What recording an error does, and what it leaves alone. -/

namespace Sys2Proof.Machine

theorem reportsOnly_refl (y : Sys) : y.reportsOnly y := rfl

theorem reportsOnly_trans {a b c : Sys} (h : a.reportsOnly b) (k : b.reportsOnly c) : a.reportsOnly c := by
  unfold Sys.reportsOnly at *
  rw [k, h]

theorem reportsOnly_setReg (off : Nat) (v : Word) (y : Sys) : y.reportsOnly (y.setReg off v) := rfl

theorem reportsOnly_emit (v : Nat) (y : Sys) : y.reportsOnly (y.emit (.msix v)) := by
  unfold Sys.emit
  simp only [Out.hostBound, Out.pasid, if_true]
  split
  · rfl
  · split <;> rfl

theorem reportsOnly_msix (v : Nat) (y : Sys) : y.reportsOnly (y.msix v) := by
  unfold Sys.msix
  split
  · rfl
  · split
    · exact reportsOnly_trans (b := y.incFld (onePg .imu 0) 0x44 31 16) rfl (reportsOnly_emit _ _)
    · exact reportsOnly_emit _ _

theorem reportsOnly_aer (e : Aer) (y : Sys) : y.reportsOnly (y.aer e) := by
  unfold Sys.aer Sys.reportsOnly
  split <;> rfl

theorem reportsOnly_errNotify (n : Nat) (y : Sys) : y.reportsOnly (y.errNotify n) := by
  unfold Sys.errNotify
  dsimp only
  split
  · exact reportsOnly_msix _ _
  · rfl

theorem reportsOnly_latchFirst (g : Pg) (b d : Nat) (y : Sys) : y.reportsOnly (y.latchFirst g b d) := by
  unfold Sys.latchFirst
  split <;> rfl

/-- Recording an error changes nothing but registers, outputs and report bits. -/
theorem reportsOnly_recordErr (g : Pg) (b d : Nat) (y : Sys) : y.reportsOnly (y.recordErr g b d) := by
  unfold Sys.recordErr
  refine reportsOnly_trans ?_ (reportsOnly_errNotify _ _)
  have h1 : y.reportsOnly (((y.setBit g 0x18 b).latchFirst g b d).incFld g 0x24 15 0) :=
    reportsOnly_trans (b := (y.setBit g 0x18 b).latchFirst g b d)
      (reportsOnly_trans (b := y.setBit g 0x18 b) rfl (reportsOnly_latchFirst _ _ _ _)) rfl
  split <;> split
  all_goals first
    | exact reportsOnly_trans h1 (reportsOnly_trans (reportsOnly_setReg _ _ _) (reportsOnly_aer _ _))
    | exact reportsOnly_trans h1 (reportsOnly_aer _ _)
    | exact reportsOnly_trans h1 (reportsOnly_setReg _ _ _)

/-! ## The cause recorded -/

/-- Pages begin at multiples of 0x1000 (R51, R52). -/
theorem base_mod (g : Pg) : g.base % 0x1000 = 0 := by
  obtain ⟨b, i, p⟩ := g
  cases b <;> simp only [Pg.base, regionBase, portBase] <;> omega

theorem pgReg_setPg_ne (g h : Pg) {o o' : Nat} (hn : o % 0x1000 ≠ o' % 0x1000) (v : Word) (y : Sys) :
    (y.setPg h o' v).pgReg g o = y.pgReg g o := by
  refine reg_setReg_ne ?_ v y
  have := base_mod g
  have := base_mod h
  omega

@[simp] theorem pgReg_setPg_self (g : Pg) (o : Nat) (v : Word) (y : Sys) : (y.setPg g o v).pgReg g o = v :=
  reg_setReg_self _ _ _

@[simp] theorem aer_pgReg (e : Aer) (g : Pg) (o : Nat) (y : Sys) : (y.aer e).pgReg g o = y.pgReg g o := rfl

theorem emit_regs (o : Out) (y : Sys) : (y.emit o).regs = y.regs := by
  unfold Sys.emit
  split
  · split
    · rfl
    · split
      · rfl
      · split <;> rfl
  · rfl

theorem msix_stat (v : Nat) (g : Pg) (y : Sys) : (y.msix v).pgReg g 0x18 = y.pgReg g 0x18 := by
  unfold Sys.msix
  split
  · rfl
  · show FMap.get _ _ (Sys.emit _ _).regs = _
    rw [emit_regs]
    split
    · exact pgReg_setPg_ne g (onePg .imu 0) (by decide) _ y
    · rfl

theorem errNotify_stat (n : Nat) (g : Pg) (y : Sys) : (y.errNotify n).pgReg g 0x18 = y.pgReg g 0x18 := by
  unfold Sys.errNotify
  dsimp only
  split
  · exact msix_stat _ _ _
  · rfl

theorem latchFirst_stat (h g : Pg) (b d : Nat) (y : Sys) : (y.latchFirst h b d).pgReg g 0x18 = y.pgReg g 0x18 := by
  unfold Sys.latchFirst
  split
  · rfl
  · rw [pgReg_setPg_ne _ _ (by decide), pgReg_setPg_ne _ _ (by decide)]

theorem incFld_stat (h g : Pg) {o : Nat} (ho : o % 0x1000 ≠ 0x18) (hi lo : Nat) (y : Sys) :
    (y.incFld h o hi lo).pgReg g 0x18 = y.pgReg g 0x18 := pgReg_setPg_ne _ _ (by omega) _ _

/-- Recording a cause sets its bit of the page's ERR_STAT, and nothing else there (R63). -/
theorem recordErr_stat (g : Pg) (b d : Nat) (y : Sys) :
    (y.recordErr g b d).pgReg g 0x18 = (y.pgReg g 0x18).put b b 1 := by
  unfold Sys.recordErr
  rw [errNotify_stat]
  have h1 : ((((y.setBit g 0x18 b).latchFirst g b d).incFld g 0x24 15 0)).pgReg g 0x18 = (y.pgReg g 0x18).put b b 1 := by
    rw [incFld_stat _ _ (by decide), latchFirst_stat]
    exact pgReg_setPg_self _ _ _ _
  split <;> split
  · rw [aer_pgReg, incFld_stat _ _ (by decide), h1]
  · rw [incFld_stat _ _ (by decide), h1]
  · rw [aer_pgReg, h1]
  · exact h1

/-! ## Registers that recording an error leaves alone -/

/-- Whether recording an error on page `g` can change the register at offset `a` of the manager window. -/
def errTouches (g : Pg) (a : Nat) : Prop :=
  a = g.base + 0x18 ∨ a = g.base + 0x20 ∨ a = g.base + 0x24 ∨ a = g.base + 0x2C ∨ a = 0x1044

theorem msix_reg {a : Nat} (ha : a ≠ 0x1044) (v : Nat) (y : Sys) : (y.msix v).reg a = y.reg a := by
  unfold Sys.msix
  split
  · rfl
  · show FMap.get _ _ (Sys.emit _ _).regs = _
    rw [emit_regs]
    split
    · exact reg_setReg_ne ha _ _
    · rfl

theorem recordErr_reg {g : Pg} {a : Nat} (ha : ¬ errTouches g a) (b d : Nat) (y : Sys) :
    (y.recordErr g b d).reg a = y.reg a := by
  unfold errTouches at ha
  simp only [not_or] at ha
  obtain ⟨h1, h2, h3, h4, h5⟩ := ha
  have e1 : ∀ y : Sys, (y.setBit g 0x18 b).reg a = y.reg a := fun y => reg_setReg_ne h1 _ _
  have e2 : ∀ y : Sys, (y.latchFirst g b d).reg a = y.reg a := by
    intro y
    unfold Sys.latchFirst
    split
    · rfl
    · exact (reg_setReg_ne h4 _ _).trans (reg_setReg_ne h2 _ _)
  have e3 : ∀ (y : Sys) (hi lo : Nat), (y.incFld g 0x24 hi lo).reg a = y.reg a := fun y hi lo => reg_setReg_ne h3 _ _
  have e4 : ∀ (n : Nat) (y : Sys), (y.errNotify n).reg a = y.reg a := by
    intro n y
    unfold Sys.errNotify
    dsimp only
    split
    · exact msix_reg h5 _ _
    · rfl
  have e5 : ∀ (e : Aer) (y : Sys), (y.aer e).reg a = y.reg a := fun _ _ => rfl
  unfold Sys.recordErr
  rw [e4]
  split <;> split <;> simp only [e1, e2, e3, e5]

/-! ## Events -/

theorem tellsOnly_refl (y : Sys) : y.tellsOnly y := rfl

theorem tellsOnly_trans {a b c : Sys} (h : a.tellsOnly b) (k : b.tellsOnly c) : a.tellsOnly c := by
  unfold Sys.tellsOnly at *
  rw [k, h]

theorem tellsOnly_of_reportsOnly {a b : Sys} (h : a.reportsOnly b) : a.tellsOnly b := by
  unfold Sys.tellsOnly Sys.reportsOnly at *
  rw [h]

theorem tellsOnly_incFld (g : Pg) (o hi lo : Nat) (y : Sys) : y.tellsOnly (y.incFld g o hi lo) := rfl

theorem tellsOnly_recordErr (g : Pg) (b d : Nat) (y : Sys) : y.tellsOnly (y.recordErr g b d) :=
  tellsOnly_of_reportsOnly (reportsOnly_recordErr _ _ _ _)

theorem tellsOnly_emit {o : Out} (ho : o.pasid = none) (y : Sys) : y.tellsOnly (y.emit o) := by
  unfold Sys.emit
  split
  · split
    · rfl
    · split
      · rfl
      · split
        · rename_i h; rw [ho] at h; simp at h
        · rfl
  · rfl

theorem tellsOnly_updDec (f : Decust → Decust) (y : Sys) : y.tellsOnly (y.updDec f) := rfl

/-- An event for the manager changes nothing but what it tells. -/
theorem tellsOnly_meqEvent (v : Option Nat) (e : Ev) (y : Sys) : y.tellsOnly (y.meqEvent v e) := by
  unfold Sys.meqEvent
  split
  · rfl
  · split
    · refine tellsOnly_trans ?_ (tellsOnly_of_reportsOnly (reportsOnly_msix _ _))
      unfold Sys.meqPutEv Sys.meqPut
      refine tellsOnly_trans (b := y.emit _) (tellsOnly_emit rfl y) rfl
    · split
      · rfl
      · exact tellsOnly_trans (b := y.incFld tenPg 0x7C 15 0) rfl
          (tellsOnly_trans (tellsOnly_of_reportsOnly (reportsOnly_recordErr _ _ _ _)) rfl)

/-- Operations that each tell only, in a row. -/
theorem tellsOnly_each {α : Type} {f : α → Sys → Sys} (h : ∀ a y, Sys.tellsOnly y (f a y)) :
    ∀ (l : List α) (y : Sys), y.tellsOnly (each f l y) := by
  intro l
  induction l with
  | nil => exact fun y => rfl
  | cons a r ih => exact fun y => tellsOnly_trans (h a y) (ih _)

end Sys2Proof.Machine
end

