-- ==== Sys2Proof/Laws/Access.lean ====
section
/-! SUPPORT. When an access reaches its page, what the directory and header offsets are not, and commands of a block with no
injection armed. -/

namespace Sys2Proof.Machine

theorem operates_iff {s : State} : s.operates = true ↔ s.vin = true ∧ s.testen = false := by simp [State.operates]

theorem serves_iff {s : State} {org : Origin} :
    s.serves org = true ↔ s.vin = true ∧ s.testen = false ∧ winWaits s.sys org = false := by
  simp [State.serves, State.operates, and_assoc]

/-- The outcome of a command in a chip that operates. -/
theorem liveSys_ops {s : State} (h : s.operates = true) (f : Sys → Sys) : liveSys s f = .next { s with sys := f s.sys } :=
  liveSys_next _ (operates_iff.1 h).1 (operates_iff.1 h).2

/-- The outcome of an access where none waits. -/
theorem liveWin_serves {s : State} {org : Origin} (h : s.serves org = true) (c : Instr) (f : Sys → Sys) :
    liveWin c org s f = .next { s with sys := f s.sys } :=
  liveWin_next _ (serves_iff.1 h).1 (serves_iff.1 h).2.1 (serves_iff.1 h).2.2

/-- An access of the manager to a page that answers. -/
theorem viaPage_manager {y : Sys} {g : Pg} {o : Nat} {r : Bool} (h : y.pageLets .manager g o r = true) (f : Sys → Sys) :
    y.viaPage .manager g o r f = f y := by simp [Sys.viaPage, h]

/-- With nothing armed on a block no injection is carried. -/
theorem carry_unarmed {y : Sys} {g : Pg} (h : y.unarmed g = true) : y.carry g = y := by
  unfold Sys.carry
  unfold Sys.unarmed at h
  generalize g.blockPages = l at *
  induction l with
  | nil => rfl
  | cons q r ih =>
    simp only [List.all_cons, Bool.and_eq_true, Bool.not_eq_true'] at h
    simp only [each]
    rw [h.1.1.1, h.1.2]
    simp only [Bool.false_eq_true, if_false, ite_self]
    exact ih h.2

theorem unarmed_congr {y t : Sys} (h : ∀ q : Pg, t.pgReg q 0x28 = y.pgReg q 0x28) (g : Pg) : t.unarmed g = y.unarmed g := by
  unfold Sys.unarmed Sys.armed
  simp only [h]

theorem unarmed_setPg {y : Sys} {h g : Pg} {o : Nat} {v : Word} (ho : o % 0x1000 ≠ 0x28) :
    (y.setPg h o v).unarmed g = y.unarmed g :=
  unarmed_congr (fun _ => pgReg_setPg_ne _ _ (by omega) _ _) g

/-- An injected poison is found nowhere while nothing is armed. -/
theorem poisonNow_unarmed {y : Sys} {g : Pg} (h : y.unarmed g = true) : y.poisonNow g = (false, y) := by
  unfold Sys.poisonNow
  have : g.blockPages.find? (fun q => y.armed q 1) = none := by
    rw [List.find?_eq_none]
    intro q hq
    have := List.all_eq_true.1 h q hq
    simp only [Bool.and_eq_true, Bool.not_eq_true'] at this
    simp [this.1.2]
  rw [this]

theorem mbxDead_hdr {y : Sys} {g : Pg} {o : Nat} (h : o < 0x40) : y.mbxDead g o = none := by
  unfold Sys.mbxDead mbxAt
  have : ¬ (64 ≤ o ∧ o < 1088) := by omega
  simp [this]

theorem mbxDead_other {y : Sys} {g : Pg} {o : Nat} (h : g.blk ≠ .mbx) : y.mbxDead g o = none := by
  simp [Sys.mbxDead, h]

/-- The offset in the page of a manager-window offset. -/
theorem off_of_page {off : Nat} {g : Pg} {o : Nat} (h : target .manager off = .page g o) : o = off % 0x1000 := by
  unfold target at h
  dsimp only at h
  split at h
  · cases h
  · split at h
    · cases h
    · split at h
      · cases h; rfl
      · cases h

theorem regsOf_high (b : Blk) : (regsOf b).all (fun d => decide (0x40 ≤ d.off)) = true := by cases b <;> decide

/-- The register tables describe nothing of the common header. -/
theorem regDesc_low {b : Blk} {p o : Nat} (h : o < 0x40) : regDesc? b p o = none := by
  unfold regDesc?
  rw [List.find?_eq_none]
  intro d hd
  have := List.all_eq_true.1 (regsOf_high b) d hd
  simp only [decide_eq_true_eq] at this
  simp only [Bool.and_eq_true, decide_eq_true_eq, beq_iff_eq, not_and]
  intro _ h2
  omega

end Sys2Proof.Machine
end

