-- ==== Sys2Proof/WellFormed.lean ====
section
/-! DEFINITION. Which commands are well formed: operands whose range the constructor's types do not already bound. -/

namespace Sys2Proof

/-- A TIERPOS of R289: DEPTH 0-5, a port 1-31 at each depth below it, 0 in the fields above DEPTH, bits 31:28 zero. -/
def tierOk (t : Word) : Bool :=
  let d := t.fld 27 25
  decide (d ≤ 5) && t.fld 31 28 == 0 &&
    (List.range 5).all fun i =>
      let p := t.fld (5 * i + 4) (5 * i)
      if i < d then decide (1 ≤ p) else p == 0

/-- A tree position that names a hub port: a well-formed TIERPOS of depth at least 1. -/
def hubTierOk (t : Word) : Bool := tierOk t && decide (1 ≤ t.fld 27 25)

/-- A device slot of R16 is 1-8,192. -/
def slotNumOk (n : Nat) : Bool := decide (1 ≤ n)

/-- An internal mailbox master of R16 is 1-19. -/
def masterOk (n : Nat) : Bool := decide (1 ≤ n)

/-- At most eight dwords in a descriptor, 32 bytes; an IN packet carries at most 1,024 bytes. -/
def Instr.wf : Instr → Bool
  | .inPacket _ data _ _ => decide (data.length ≤ 1024)
  | .enumRequestComplete _ t _ | .enumRequestTimeout _ t | .setAddressRecoveryEnd _ t
  | .suspendEntryEnd _ t | .resumeRecoveryEnd _ t | .remoteWake _ t => tierOk t
  | .hubRequestComplete _ t _ | .hubPowerGoodEnd _ t | .hubStatusChange _ t _ _ => tierOk t
  | .hubPortDebounceEnd _ t _ | .hubResetTimeout _ t | .hubResetRecoveryEnd _ t
  | .hubResumeTimeout _ t => hubTierOk t
  | .scanKbdReport n _ _ | .scanPosReport n _ | .scanGapExpiry n | .scaleReport n _ | .scaleStabilityExpiry n _
  | .printerStatusBlock n _ _ | .printerStatusPoll n | .printerOutNotice n | .powerChangeNotice n
  | .printerIdleExpiry n | .drawerSenseReport n _ _ | .drawerSenseExpiry n | .kick n _ _ | .kickGapExpiry n
  | .pulseExpiry n | .openWaitExpiry n | .clear n _ | .bright n _ _ | .keyboardReport n _ _
  | .personalityRequestComplete n _ | .deviceContextFetch n => slotNumOk n
  | .text n _ _ _ cs => slotNumOk n && decide (cs.length ≤ 20)
  | .mbxPost _ m n => masterOk m && decide (n ≤ 16)
  | .mbxFree _ m | .mbxLockAcquire _ m | .mbxLockRelease _ m => masterOk m
  | .tmbPost _ _ n => decide (1 ≤ n) && decide (n.val ≤ 16)
  | .telUnitEnd xs => decide (xs.length = 47)
  | .samplePreload bs => decide (bs.length = 422)
  | .ldqCopy e _ | .ldqGo e => decide (e.length = 8)
  | _ => true

end Sys2Proof
end

