-- ==== Sys2Proof/Tests/Slice0.lean ====
section
/-! SUPPORT. Tests: the checks of WellFormed on ill-formed commands; for each statement a state and operands that meet its
hypotheses, and what one step on them gives by the spec. -/

namespace Sys2Proof.Tests

set_option Elab.async false

open Sys2Proof.Machine

/-! ## Helpers -/

/-- A chip in service: every domain ON, the boot over. -/
def rdy : Sys :=
  { doms := (List.range 34).map fun d => (d, { st := .on })
    pins := { perst := false, railen := true, railpg := true }
    ldr := { phase := .ready } }

/-- A state with nothing waiting. -/
def st (y : Sys) : State := { sys := y, pending := [] }

/-- A command gives a next state with the block as `P` says. -/
def does (c : Instr) (y : Sys) (P : Sys → Bool) : Bool :=
  match exec c (st y) with
  | .next t => P t.sys
  | _ => false

/-- A command gives exactly the block `z`. -/
def gives (c : Instr) (y z : Sys) : Bool := does c y fun t => decide (t = z)

/-! ## Witnesses and steps -/

theorem witness_step_runs_front : step ((st rdy).enqueueFront .fwTimeout) = exec .fwTimeout (st rdy) := rfl

theorem witness_empty_queue_ticks : step (st rdy) = .next (st { rdy with tb := 1 }) := rfl

theorem witness_commands_complete_in_turn :
    ((st rdy).enqueueFront .idcode).testen = false ∧
      (match step ((st rdy).enqueueFront .idcode) with | .next t => decide (t.pending = []) | _ => false) = true := by decide +kernel

theorem witness_testen_sampled_at_power_on_only :
    (match step { st rdy with pending := [.powerOnResetEnd false true] } with
      | .next t => t.testen && t.vin
      | _ => false) = true ∧
    (match step { st rdy with pending := [.vinFail []] } with
      | .next t => !t.testen && !t.vin
      | _ => false) = true := by decide +kernel

theorem witness_stopped_or_held_out_of_service :
    exec .idcode { st rdy with testen := true } = .fault .factoryTest ∧ ordinary .idcode = true ∧
      exec .idcode { st rdy with vin := false } = .next { st rdy with vin := false } := ⟨rfl, rfl, rfl⟩

theorem witness_storage_stays_canonical : State.reset.sys.storageCanon = true ∧
    (match step { st rdy with pending := [.imageWrite 0 [some 1]] } with
      | .next t => t.sys.storageCanon
      | _ => false) = true ∧ rdy.storageCanon = true := by decide +kernel

theorem witness_page_directory_reads :
    ((st rdy).serves .manager && rdy.hostOn && decide (target .manager 0 = .page (onePg .hst 0) 0) &&
      gives (.registerRead .manager 0) rdy { rdy with out := [.cpl .manager 0 0x80000101] } &&
      decide (target .manager 0xA33004 = .page (onePg .mnt 3) 4) &&
      gives (.registerRead .manager 0xA33004) rdy { rdy with out := [.cpl .manager 0xA33004 0x100] }) = true := by decide +kernel

theorem witness_error_flags_write_one_to_clear :
    let y := rdy.setPg (pwrPg 7) 0x18 0xFF
    ((st y).serves .manager && decide (target .manager 0x801018 = .page (pwrPg 7) 0x18) && y.pageLets .manager (pwrPg 7) 0x18 false &&
      y.unarmed (pwrPg 7) && does (.registerWrite .manager 0x801018 0xF0) y fun t => decide (t.pgReg (pwrPg 7) 0x18 = 0x0F)) = true := by
  decide +kernel

theorem witness_bad_accesses_are_reported :
    let g := onePg .snw 0
    ((st rdy).serves .manager && decide (target .manager 0xA00002 = .page g 2) && rdy.pageLets .manager g 2 true && rdy.on g.dom &&
      decide (rdy.mbxDead g 2 = none) && rdy.pageLets .manager g 2 false &&
      (does (.accessError .manager 0xA00002 true) rdy fun t =>
        decide (t.pgReg g 0x18 = 0x10 ∧ t.out = [.cpl .manager 0xA00002 0])) &&
      decide (target .manager 0x6000 = .none) &&
      does (.unsupportedRequest .manager 0x6000 true) rdy fun t =>
        decide (t.out = [.aer .unsupportedRequest .cor, .ur .manager 0x6000 true])) = true := by decide +kernel

theorem witness_nv_writes_are_taken_or_guarded :
    let y : Sys := { rdy with nv := { bufs := List.replicate 32 ⟨0, 5, false⟩ } }
    let lets := fun (y : Sys) (j : Nat) => (st y).serves .manager && y.pageLets .manager (nvPage j) (nvOff j) false
    (lets rdy 1023 && decide (nvMask 1023 ≠ 0) && !rdy.nv.migrating 1023 &&
      gives (.nvWrite .manager 1023 7) rdy { rdy with nv := { bufs := [⟨1023, 7, false⟩] } } &&
      lets rdy 512 && rdy.nv.atOnce ⟨512, 0, false⟩ && gives (.nvWrite .manager 512 0) rdy rdy &&
      lets y 512 && gives (.nvWrite .manager 512 9) y { y with nv := { y.nv with held := [⟨512, 9, false⟩] } } &&
      lets rdy 272 && lets rdy 283 && !rdy.ownerWrites .manager &&
      does (.nvWrite .manager 283 9) rdy fun t => decide (t.pgReg (nvPage 283) 0x18 = 0x10)) = true := by decide +kernel

theorem witness_nv_writes_are_taken_or_guarded_else :
    let w : Sys := { rdy with nv := { want := [512] } }
    let lets := fun (y : Sys) (j : Nat) => (st y).serves .manager && y.pageLets .manager (nvPage j) (nvOff j) false
    (lets rdy 268 && decide (nvMask 268 = 0) && gives (.nvWrite .manager 268 7) rdy rdy && lets w 512 && w.nv.migrating 512 &&
      gives (.nvWrite .manager 512 7) w { w with nv := { w.nv with held := [⟨512, 7, false⟩] } }) = true := by decide +kernel

theorem witness_nv_writes_move_on :
    let y : Sys := { rdy with nv := { bufs := List.replicate 31 ⟨0, 5, false⟩, held := [⟨512, 9, false⟩] } }
    ((st y).operates && y.nv.canTake ⟨512, 9, false⟩ &&
      (does .nvWriteAccept y fun t => decide (t.nv.bufs.length = 32 ∧ t.nv.held = [])) && y.unarmed nvsPg &&
      decide (y.nv.count 0 + 1 < (y.pgReg nvsPg 0x40).fld 6 0 * 10000) &&
      does .nvWriteDurable y fun t => decide (t.nv.get 0 = 5 ∧ t.nv.count 0 = 1 ∧ t.nv.bufs.length = 30)) = true := by decide +kernel

theorem witness_vin_failure_leaves_whole_values :
    let y : Sys := { rdy with nv := { bufs := [⟨1, 5, false⟩, ⟨1, 6, false⟩, ⟨2, 7, false⟩] } }
    (does (.vinFail [true, false, false]) y fun t =>
      decide (t.nv.get 1 = 5 ∧ t.nv.count 1 = 1 ∧ t.nv.get 2 = 0 ∧ t.nv.count 2 = 0 ∧ t.nv.bufs = [])) = true := by decide +kernel

theorem witness_pace_is_judged_by_the_table :
    let y : Sys := { rdy with usb := { pace := [(1, { st := .shed }), (2, { st := .stopped })] } }
    let can := fun (n : Nat) => (st y).operates && y.on n && !y.halted (frmPg n 0) && !y.contain.chipFault
    let to_ := fun (n : Fin 8) (v : Fin 256) (z : PaceSt) => does (.paceEvaluation n v) y fun t =>
      decide ((t.pace n).st = z ∧ (t.pace n).pace = v ∧ t.host.decust.events.length = (paceEvents (y.pace n).st z).length)
    (!y.meqEn && decide ((y.dom 16).st ≠ .off) && can 0 && can 1 && can 2 && to_ 0 72 .normal && to_ 0 71 .shed && to_ 0 40 .shed && to_ 0 39 .stopped &&
      to_ 1 80 .normal && to_ 1 79 .shed && to_ 1 39 .stopped && to_ 2 47 .stopped && to_ 2 48 .shed && to_ 2 255 .shed) = true := by
  decide +kernel

theorem witness_pace_thresholds_keep_their_order :
    let g := frmPg 7 0
    ((st rdy).serves .manager && rdy.pageLets .manager g 0x40 false &&
      (does (.paceThrWrite 7 0x2028) rdy fun t => decide (t.pgReg g 0x40 = 0x2028 ∧ t.pgReg g 0x18 = 0)) &&
      does (.paceThrWrite 7 0x2027) rdy fun t => decide (t.pgReg g 0x40 = 0x2848 ∧ t.pgReg g 0x18 = 8)) = true := by decide +kernel

theorem witness_phase_is_fixed_while_sof_runs :
    let y : Sys := { rdy with usb := { frame := [(127, { sof := true, speed := .full })] } }
    let g := frmPg 7 0
    ((st y).serves .manager && decide (target .manager 0x8200BC = .page g 0xBC) && y.pageLets .manager g 0xBC false &&
      (y.frame 127).sof && does (.registerWrite .manager 0x8200BC 5) y fun t =>
        decide (t.phase 127 = 0 ∧ t.pgReg g 0x18 = 8)) = true := by decide +kernel

theorem witness_idle_frame_sends_sof :
    let u : UsbS := { frame := [(3, { sof := true, speed := .full })], ports := [(3, { st := .enabled, speed := .full })] }
    let y : Sys := { rdy with tb := 900, usb := u }
    ((st y).operates && y.linkWorks 3 && (y.frame 3).sof && decide ((y.frame 3).cur = none) && decide ((y.port 3).susp ≠ .suspending) &&
      decide (y.ptab 3 = {}) && y.unarmed (frmPg 0 0) && does (.frameStart 3) y fun t =>
        decide (t.tb = 1000 ∧ t.out = [.bus 3 (.sof 1)])) = true := by decide +kernel

/-- A shadow write fits: RNG_SPQ_LIMIT of RNG page 1 at 0x9080. -/
theorem witness_staged_write_fills_the_shadow :
    let g := onePg .rng 1
    ((st rdy).serves .manager && decide (target .manager 0x9080 = .page g 0x80) && rdy.pageLets .manager g 0x80 false &&
      g.stagedPage && decide ((regDesc? g.blk g.page 0x80).map (·.outside 0x1FFF) = some false) &&
      (does (.stagedWrite .manager 0x9080 0x1FFF) rdy fun t =>
        decide (t.pgReg g 0x80 = 0xFFF ∧ t.pgReg g 0x880 = 0x40 ∧ t.stagedPend g = true)) &&
      decide (target .manager 0x907C = .page g 0x7C) && rdy.pageLets .manager g 0x7C false &&
      decide ((regDesc? g.blk g.page 0x7C).map (·.outside 0x801) = some true) &&
      does (.stagedWrite .manager 0x907C 0x801) rdy fun t =>
        decide (t.pgReg g 0x7C = 0x80 ∧ t.pgReg g 0x18 = 8)) = true := by decide +kernel

theorem witness_discards_return_the_shadows :
    let g := onePg .rng 1
    let y := (rdy.setPg g 0x80 7).setPg g 0x40 9
    let y : Sys := { y with host := { y.host with staged := [(g.base, true)] } }
    let z : Sys := { y with host := { y.host with capPages := [g.base] } }
    ((st y).serves .manager && decide (target .manager (9 * 0x1000) = .page g 0) && g.stagedPage && y.pageLets .manager g 0x10 false &&
      !y.commitPend g && (does (.discard .manager 9) y fun t =>
        decide (t.pgReg g 0x80 = 0x40 ∧ t.pgReg g 0x40 = 0x80 ∧ t.stagedPend g = false)) &&
      (st z).serves .manager && z.pageLets .manager g 0x10 false && z.commitPend g && gives (.discard .manager 9) z z &&
      y.pageLets .manager tenPg 0x40 false && !y.host.commitBusy && decide (y.host.capPages = []) &&
      does .discardAll y fun t => decide (t.pgReg g 0x80 = 0x40 ∧ t.stagedPend g = false)) = true := by decide +kernel

theorem witness_commit_writes_wait_for_busy :
    let y : Sys := { rdy with host := { commitBusy := true, commitGen := 3 } }
    ((st y).serves .manager && y.pageLets .manager tenPg 0x40 false && y.unarmed tenPg &&
      (does (.tenCommit 9) y fun t => decide (t.host.commitGen = 3 ∧ t.pgReg tenPg 0x18 = 8)) &&
      does .discardAll y fun t => decide (t.pgReg tenPg 0x18 = 8)) = true := by decide +kernel

theorem witness_commits_capture_then_activate :
    let g := onePg .rng 1
    let y := rdy.setPg g 0x80 7
    let y : Sys := { y with host := { y.host with staged := [(g.base, true)] } }
    let w := rdy.setPg g 0x44 9
    let w : Sys := { w with host := { w.host with staged := [(g.base, true)], insts := [(7, { st := .running, pool := true, cls := 1 })] } }
    let z : Sys := { rdy with host := { commitBusy := true, capRegs := [⟨g.base + 0x80, 7, []⟩], capPages := [g.base] } }
    ((st y).serves .manager && y.pageLets .manager tenPg 0x40 false && y.unarmed tenPg && decide (y.lockRefuses = none) &&
      (does (.tenCommit 65535) y fun t => decide (t.host.commitBusy = true ∧ t.host.commitGen = 65535 ∧ t.host.commitMf = 1 ∧
        t.stagedPend g = false ∧ t.host.capRegs.map (·.off) = [g.base + 0x80] ∧ t.pgReg g 0x880 = 0x40)) &&
      (st w).serves .manager && w.pageLets .manager tenPg 0x40 false && w.unarmed tenPg && decide (w.lockRefuses = some 7) &&
      (does (.tenCommit 5) w fun t => decide (t.pgReg tenPg 0x18 = 0x108 ∧ t.pgReg tenPg 0x4C = 0x80005007 ∧
        t.host.commitBusy = false)) &&
      (st z).operates && z.on 16 && !z.halted tenPg && does .commitPoint z fun t =>
        decide (t.host.commitBusy = false ∧ t.pgReg g 0x880 = 7)) = true := by decide +kernel

theorem witness_injection_is_armed_or_recorded :
    let g := onePg .rng 0
    let can := (st rdy).serves .manager && decide (target .manager (8 * 0x1000) = .page g 0) && rdy.pageLets .manager g 0x28 false &&
      decide (g.blk ≠ .cic) && !regStages g.blk
    (can && (does (.errorInject .manager 8 0x001) rdy fun t => decide (t.pgReg g 0x28 = 0x001)) &&
      canInject .rng 0 2 && (does (.errorInject .manager 8 0x10002) rdy fun t => decide (t.pgReg g 0x28 = 0x10002)) &&
      canInject .rng 2 4 && (does (.errorInject .manager 8 0x10204) rdy fun t =>
        decide (t.pgReg g 0x28 = 0x204 ∧ t.pgReg g 0x18 = 0x10)) &&
      !canInject .rng 0 1 && does (.errorInject .manager 8 0x10001) rdy fun t =>
        decide (t.pgReg g 0x28 = 0 ∧ t.pgReg g 0x18 = 8)) = true := by decide +kernel

/-- Port 5 sends SOF; slot 1 with a bulk IN endpoint 16 + 0 and OUT endpoint 1 of 64 bytes; a transfer `z` is on the wire as `form`. -/
def wire (form : TxForm) (z : Xfer) (ty : EpTy) (ended : Bool) : Sys :=
  let f : PFrame := { sof := true, speed := .high, cur := some { xid := 1, form := form }, ended := ended, at_ := 1 }
  let e : Ep := { open_ := true, active := true, ty := ty, mps := 64 }
  let slot : Slot := { used := true, served := true, port := 5, addr := 1, speed := .high, eps := [(z.epid, e)] }
  let u : UsbS := { frame := [(5, f)], ports := [(5, { st := .enabled, speed := .high, slot := 1 })] }
  { rdy with
    usb := u
    eng := { rdy.eng with slots := [(1, slot)] }
    host := { rdy.host with xfers := [z], nextX := 2 } }

theorem witness_transactions_end_as_reported :
    let inX : Xfer := { id := 1, port := 5, slot := 1, epid := 16, total := 64, begun := true }
    let outX : Xfer := { id := 1, port := 5, slot := 1, epid := 1, total := 64, begun := true }
    let ctl := fun (n : Nat) => ({ id := 1, port := 5, slot := 1, epid := 0, ty := 2, total := n, begun := true, stage := .setup } : Xfer)
    let ok := fun (y : Sys) (z : Xfer) => (st y).operates && y.linkWorks 5 && decide ((y.frame 5).cur.map (·.kind) = some .service) &&
      decide (y.xfer? 1 = some z) && decide (z.fin = none ∧ z.cut = none ∧ z.always = false) && (y.frame 5).ended &&
      decide ((y.frame 5).due = [] ∧ (y.frame 5).csp = []) && y.unarmed (lnkPg 5)
    let a := wire .in_ inX .bulk true
    let b := wire .ping outX .bulk true
    let c := wire .setup (ctl 8) .control true
    let d := wire .setup (ctl 0) .control true
    (ok a inX && (does (.transactionEnd 5 .nak 700) a fun t => decide ((t.frame 5).cur = none ∧ (t.frame 5).x = 700)) &&
      ok b outX && (does (.transactionEnd 5 .ack 900) b fun t => decide ((t.frame 5).x = 900 ∧ ((t.slot 1).ep 1).ping = false)) &&
      ok c (ctl 8) && (does (.transactionEnd 5 .ack 100) c fun t =>
        decide ((t.xfer? 1).map (·.stage) = some .data ∧ ((t.slot 1).ep 0).tog = true)) &&
      ok d (ctl 0) && does (.transactionEnd 5 .ack 100) d fun t =>
        decide ((t.xfer? 1).map (·.stage) = some .status ∧ ((t.slot 1).ep 0).tog = true)) = true := by decide +kernel

theorem witness_in_packets_are_judged :
    let z : Xfer := { id := 1, port := 5, slot := 1, epid := 16, total := 512, begun := true }
    let y := wire .in_ z .bulk false
    let d := fun (n : Nat) => List.replicate n (0x5A : Byte)
    ((st y).operates && decide (y.xfer? 1 = some z ∧ z.stage = .data ∧ z.split.acc = []) && z.isIn && y.unarmed (fifPg 5) &&
      decide (y.mpsOf z = 64) &&
      (does (.inPacket 5 (d 64) .data0 false) y fun t => decide (t.pgReg (fifPg 5) 0x60 = 1 ∧ t.out = [])) &&
      (does (.inPacket 5 (d 65) .data0 true) y fun t => decide (t.pgReg (fifPg 5) 0x60 = 1 ∧ t.out = [])) &&
      (does (.inPacket 5 (d 64) .data1 true) y fun t => decide (t.pgReg (fifPg 5) 0x60 = 0x10000 ∧ t.out = [.bus 5 .ack])) &&
      does (.inPacket 5 (d 64) .data0 true) y fun t => decide (t.out = [.bus 5 .ack] ∧ (t.fifo 5).rx.map (·.data) = [d 64] ∧
        ((t.slot 1).ep 16).tog = true ∧ (t.xfer? 1).map (·.recvd) = some 64)) = true := by decide +kernel

theorem witness_in_packets_are_judged_else :
    let z : Xfer := { id := 1, port := 5, slot := 1, epid := 16, total := 512, begun := true }
    let i := wire .in_ { z with ty := 3 } .isoch false
    let c := wire .in_ { z with epid := 0, ty := 2, chip := some { addr := 1, speed := .high, mps := 64, tog := true } } .control false
    (decide ({ z with ty := 3 }.token = .in_) && i.unarmed (fifPg 5) && decide (i.mpsOf { z with ty := 3 } = 64) &&
      (does (.inPacket 5 [7] .data0 true) i fun t => decide (t.out = [] ∧ (t.fifo 5).rx.map (·.data) = [[7]] ∧
        (t.xfer? 1).map (·.rxDone) = some true)) && !c.contain.chipFault &&
      (does (.inPacket 5 [] .data1 true) c fun t => decide (t.out = [.bus 5 .ack] ∧ (t.fifo 5).rx = [] ∧ (t.fifo 5).rxNum = 1 ∧
        (t.xfer? 1).map (fun x => x.chip.map (·.tog)) = some (some false)))) = true := by decide +kernel

theorem witness_babble_is_contained_at_the_port :
    let y := fun (t : Nat) => ({ rdy with tb := 20000000, usb := { ports := [(5, { st := .enabled, speed := .high, faultAt := t })] } } : Sys)
    ((y 0).linkWorks 5 && (does (.busBabble 5) (y 0) fun t => decide ((t.port 5).st = .queued)) &&
      (does (.busBabble 5) (y 10000001) fun t => decide ((t.port 5).st = .queued)) &&
      does (.busBabble 5) (y 10000002) fun t => decide ((t.port 5).st = .disabled)) = true := by decide +kernel

/-- A chip in service with port `p` as `q` says. -/
def onPort (p : Nat) (q : Port) (f : PFrame) : Sys := { rdy with usb := { rdy.usb with ports := [(p, q)], frame := [(p, f)] } }

/-- No device and nothing pending on a port, as data. -/
def vacantB (y : Sys) (p : Nat) : Bool :=
  decide (y.slotsOf p = [] ∧ (∀ e ∈ y.usb.enums, e.port ≠ p) ∧ (y.port p).st.device = false ∧ (y.port p).susp = .active ∧
    (y.frame p).cur = none ∧ (y.frame p).cspOrder = [] ∧ (y.ptab p).leave = [] ∧ y.host.commitPast = false ∧ y.host.decust.cmds = [] ∧ y.usb.power.pend = [])

theorem witness_babble_is_contained_at_the_port_moot :
    let y := onPort 5 { st := .enabled, vbus := true, pg := true, conn := true, speed := .high, evAt := 21, evRank := 4 } {}
    let y : Sys := { y with tb := 20 }
    ((st y).operates && y.linkWorks 5 && y.moot 5 5 && gives (.busBabble 5) y y) = true := by decide +kernel

theorem witness_port_power_is_granted_and_staggered :
    let lets := fun (y : Sys) (p : Nat) => (st y).serves .manager && y.pageLets .manager (lnkPg p) 0x48 false
    let run : Sys := { rdy with usb := { power := { stag5Run := [(7, true)] } } }
    let poor : Sys := { rdy with nv := { val := [(267, 99)] } }
    let up := onPort 127 { st := .powered, vbus := true, res5 := 100 } {}
    let s5 : Sys := { rdy with usb := { power := { stag5 := [(7, [127])], stag5Run := [(7, true)] } } }
    let sH : Sys := { rdy with usb := { power := { stagH := [3], stagHRun := true } } }
    let w := fun (y : Sys) => y.updPort 127 fun q => { q with prof := y.nvProfile 127 }
    (lets rdy 127 && decide ((rdy.port 127).st = .off ∧ (rdy.port 127).res5 = 0 ∧ rdy.pendList 0 = []) && !rdy.pending 127 [0] &&
      decide ((w rdy).firstBroken 127 0 (baseMa (rdy.nvProfile 127)) = none) &&
      (does (.powerOn 127) rdy fun t => decide ((t.port 127).st = .powered ∧ (t.port 127).res5 = 100 ∧ (t.port 127).vbus = true)) &&
      lets run 127 && (does (.powerOn 127) run fun t => decide ((t.port 127).st = .powered ∧ (t.port 127).vbus = false)) &&
      lets poor 127 && ((w poor).firstBroken 127 0 (baseMa (poor.nvProfile 127))).isSome &&
      (does (.powerOn 127) poor fun t => decide ((t.port 127).st = .off ∧ (t.pendList 0).map (·.port) = [127])) &&
      lets up 127 && vacantB up 127 && (does (.powerOff 127) up fun t => decide ((t.port 127).st = .off ∧ (t.port 127).res5 = 0 ∧ t.out = [] ∧ t.regs = [])) &&
      s5.on 7 && (does (.vbusStaggerStep 7) s5 fun t => decide ((t.port 127).vbus = true ∧ FMap.get [] 7 t.usb.power.stag5 = [])) &&
      (does (.vbusStaggerStep 7) run fun t => decide (FMap.get false 7 t.usb.power.stag5Run = false)) &&
      (does .hpwrStaggerStep sH fun t => decide ((t.port 3).hpwr = true ∧ t.usb.power.stagH = [])) &&
      (does .hpwrStaggerStep { rdy with usb := { power := { stagHRun := true } } } fun t => decide (t.usb.power.stagHRun = false)) &&
      does (.powerGoodWaitEnd 127) up fun t => decide ((t.port 127).pg = true)) = true := by decide +kernel

theorem witness_connects_are_debounced_and_queued :
    let a := onPort 0 { st := .powered, vbus := true, pg := true, res5 := 100 } {}
    let b := onPort 0 { st := .debounce, vbus := true, pg := true, conn := true, speed := .low, res5 := 100 } {}
    let c := onPort 0 { st := .enabled, vbus := true, pg := true, conn := true, speed := .high, res5 := 100 } { sof := true }
    (a.linkWorks 0 && b.linkWorks 0 && c.linkWorks 0 && !c.inSe0 0 &&
      (does (.connect 0 .low) a fun t => decide ((t.port 0).st = .debounce ∧ (t.port 0).speed = .low)) &&
      (does (.debounceEnd 0) b fun t => decide ((t.port 0).st = .queued ∧ t.usb.enums.length = 1 ∧ t.pgReg (lnkPg 0) 0x44 = 1 ∧
        t.pgReg (lnkPg 0) 0x54 = 1)) &&
      (does (.disconnect 0) b fun t => decide ((t.port 0).st = .powered ∧ (t.port 0).conn = false)) &&
      does (.disconnect 0) c fun t => decide ((t.port 0).st = .powered ∧ (t.port 0).conn = false ∧ (t.frame 0).sof = false)) = true := by
  decide +kernel

/-- At port 0 an event of the first rank has changed the state at this moment. -/
theorem witness_connects_are_debounced_and_queued_moot :
    let b := onPort 0 { st := .debounce, vbus := true, pg := true, conn := true, speed := .low, res5 := 100, evAt := 21, evRank := 1 } {}
    let b : Sys := { b with tb := 20 }
    let e := onPort 0 { st := .enabled, vbus := true, pg := true, conn := true, speed := .high, res5 := 100, evAt := 21, evRank := 4 } {}
    let e : Sys := { e with tb := 20 }
    (b.linkWorks 0 && b.moot 0 2 && b.moot 0 5 && gives (.debounceEnd 0) b b && gives (.disconnect 0) b b &&
      e.linkWorks 0 && e.moot 0 5 && !e.moot 0 2 && gives (.busBabble 0) e e && !{ e with tb := 21 }.moot 0 5) = true := by
  decide +kernel

theorem witness_port_resets_run :
    let en := fun (z : PortSt) => onPort 9 { st := z, vbus := true, pg := true, conn := true, speed := .full, res5 := 100 } {}
    let lets := fun (y : Sys) => (st y).serves .manager && y.pageLets .manager (lnkPg 9) 0x48 false
    let rs := fun (sof : Bool) => onPort 9 { st := .resetting, vbus := true, pg := true, conn := true, speed := .full, res5 := 100 }
      { sof := sof, speed := .full }
    let z := rs true
    let e : Enum := { port := 9, st := .running, step := 2 }
    let z : Sys := { z with usb := { z.usb with enums := [e] } }
    (lets (en .enabled) && lets (en .suspended) && lets (en .disabled) && lets (en .off) && lets (en .powered) && lets (en .debounce) &&
      (does (.resetCmd 9) (en .enabled) fun t => decide ((t.port 9).st = .queued)) &&
      (does (.resetCmd 9) (en .disabled) fun t => decide ((t.port 9).st = .queued)) &&
      (does (.disableCmd 9) (en .enabled) fun t => decide ((t.port 9).st = .disabled)) &&
      (does (.resetCmd 9) (en .off) fun t => decide (t.pgReg (lnkPg 9) 0x18 = 8)) &&
      (does (.disableCmd 9) (en .debounce) fun t => decide (t.pgReg (lnkPg 9) 0x18 = 8)) &&
      (rs false).linkWorks 9 && (does (.resetSignalEnd 9 true) (rs false) fun t =>
        decide ((t.port 9).speed = .high ∧ (t.frame 9).sof = true ∧ t.out = [.bus 9 .chirpReply])) &&
      decide (z.enumAt 9 0 = some e) && decide (z.slotFree = some 1) &&
      (does (.resetRecoveryEnd 9 true) z fun t => decide ((t.port 9).st = .enabled ∧ (t.slot 1).used = true ∧ (t.slot 1).port = 9 ∧
        t.pgReg (lnkPg 9) 0x44 = 8)) &&
      does (.resetRecoveryEnd 9 false) z fun t => decide ((t.port 9).st = .powered ∧ (t.port 9).speed = .none)) = true := by
  decide +kernel

theorem witness_enumerations_advance :
    let q : Port := { st := .queued, vbus := true, pg := true, conn := true, speed := .full, res5 := 100 }
    let e0 : Enum := { port := 9 }
    let a := onPort 9 q {}
    let a : Sys := { a with usb := { a.usb with enums := [e0] } }
    let w : Enum := { port := 9, st := .slotWait, place := true, step := 2, speed := .full }
    let b := onPort 9 { q with st := .enabled, slotWait := true } {}
    let b : Sys := { b with usb := { b.usb with enums := [w] } }
    let run := fun (step sub tries : Nat) =>
      ({ port := 9, st := .running, place := true, step := step, sub := sub, tries := tries, slot := 1, addr := 77, speed := .full } : Enum)
    let c := fun (step sub tries : Nat) =>
      let y := onPort 9 { q with st := .enabled, slot := 1 } { sof := true, speed := .full }
      ({ y with usb := { y.usb with enums := [run step sub tries] }
                eng := { y.eng with slots := [(1, { used := true, port := 9, speed := .full })] } } : Sys)
    let ok := fun (step sub tries : Nat) => (c step sub tries).linkWorks 9 && decide ((c step sub tries).enumAt 9 0 = some (run step sub tries)) &&
      !(c step sub tries).reqWaits 0 9 0 && !(c step sub tries).reqQueued 0 9 0
    let e3 : Enum := { run 3 0 0 with st := .queued, first := true, place := false }
    let d := c 3 0 0
    let d : Sys := { d with usb := { d.usb with enums := [e3] } }
    let m := a.updPort 9 fun q => { q with evAt := a.tb + 1, evRank := 1 }
    (decide (m.nextStart = some e0 ∧ m.moot 9 5 = true) && gives .enumStart m m &&
      decide (a.nextStart = some e0 ∧ a.moot 9 5 = false) && (does .enumStart a fun t => decide ((t.port 9).st = .resetting ∧ t.out = [.bus 9 .reset] ∧
        (t.enumAt 9 0).map (fun e => (e.st, e.place, e.step)) = some (.running, true, 1))) &&
      decide (d.nextStart = some e3 ∧ d.moot 9 5 = false) && (does .enumStart d fun t =>
        decide ((t.enumAt 9 0).map (fun e => (e.st, e.place, e.step)) = some (.running, true, 3))) &&
      decide (b.slotFree = some 1 ∧ b.enumAt 9 0 = some w) && (does .slotGrant b fun t =>
        decide ((t.slot 1).used = true ∧ (t.enumAt 9 0).map (·.step) = some 3)) &&
      ok 4 0 2 && (does (.enumRequestComplete 9 0 (.ok [])) (c 4 0 2) fun t => decide ((t.slot 1).addr = 77 ∧ (t.port 9).addr = 77 ∧
        (t.enumAt 9 0).map (fun e => (e.step, e.sub, e.tries)) = some (4, 1, 0))) &&
      ok 4 0 1 && (run 4 0 1).asks && (does (.enumRequestComplete 9 0 .failed) (c 4 0 1) fun t =>
        decide ((t.enumAt 9 0).map (·.tries) = some 2)) &&
      !(c 4 0 1).hubStepAt 9 0 && (does (.enumRequestTimeout 9 0) (c 4 0 1) fun t => decide ((t.enumAt 9 0).map (·.tries) = some 2)) &&
      ok 4 1 0 && does (.setAddressRecoveryEnd 9 0) (c 4 1 0) fun t => decide ((t.enumAt 9 0).map (·.step) = some 5)) = true := by
  decide +kernel

theorem witness_overcurrent_trips_and_retries :
    let y := (onPort 9 { st := .powered, vbus := true, res5 := 100 } {}).setPg (pwrPg 0) 0x44 (Word.ofN (1024 + 1024 * 65536))
    let g := pwrPg 0
    let r := fun (n : Nat) => onPort 9 { st := .powered, vbus := true, res5 := 100, retry := n } {}
    let w := onPort 9 { st := .ocWait, retry := 2 } {}
    (y.pwrWorks 9 && (y.pwrCtl 9).bit 20 && y.unarmed g && (does (.portMeasurement 9 500 3) y fun t =>
        decide ((t.port 9).i5 = 500 ∧ (t.port 9).ih = 3 ∧ (t.port 9).run5 = 0)) &&
      (does (.portMeasurement 9 501 3) y fun t => decide ((t.port 9).run5 = 1)) &&
      vacantB (r 2) 9 && (does (.ocHardTrip 9) (r 2) fun t => decide ((t.port 9).st = .ocWait ∧ (t.port 9).vbus = false ∧
        (t.pgReg (lnkPg 9) 0x44).bit 2 = true)) &&
      vacantB (r 3) 9 && (does (.ocHardTrip 9) (r 3) fun t => decide ((t.port 9).st = .ocLatched)) &&
      decide (w.pendList 0 = [] ∧
        (w.updPort 9 fun q => { q with st := .off, retry := 3 }).firstBroken 9 0 (baseMa (w.nvProfile 9)) = none) &&
      (does (.ocRetryExpiry 9) w fun t => decide ((t.port 9).st = .powered ∧ (t.port 9).retry = 3 ∧ (t.port 9).res5 = 100)) &&
      does (.ocRetryClear 9) (r 3) fun t => decide ((t.port 9).retry = 0)) = true := by decide +kernel

theorem witness_test_modes_are_entered_and_left :
    let y := fun (z : PortSt) => onPort 64 { st := z, vbus := true, res5 := 100 } {}
    let lets := fun (y : Sys) => (st y).serves .manager && y.pageLets .manager (lnkPg 64) 0x4C false
    let t1 := onPort 64 { st := .test, vbus := true, test := 5, res5 := 100 } {}
    let t2 := onPort 64 { st := .test, testClr := true, res5 := 100 } {}
    let t3 : Sys := { t2 with usb := { t2.usb with power := { stag5Run := [(4, true)] } } }
    (lets (y .powered) && (does (.testModeSelect 64 1) (y .powered) fun t => decide ((t.port 64).st = .test ∧ t.out = [.bus 64 (.pattern 1)])) &&
      lets (y .disabled) && (does (.testModeSelect 64 5) (y .disabled) fun t => decide ((t.port 64).st = .test ∧ (t.port 64).test = 5)) &&
      lets (y .suspended) && (does (.testModeSelect 64 4) (y .suspended) fun t => decide ((t.port 64).st = .test)) &&
      (does (.testModeSelect 64 6) (y .powered) fun t => decide (t.pgReg (lnkPg 64) 0x18 = 8)) &&
      lets (y .enabled) && (does (.testModeSelect 64 1) (y .enabled) fun t => decide (t.pgReg (lnkPg 64) 0x18 = 8 ∧ (t.port 64).st = .enabled)) &&
      lets t1 && (does (.testModeClear 64) t1 fun t => decide ((t.port 64).vbus = false ∧ (t.port 64).testClr = true)) &&
      (does (.testClearEnd 64) t2 fun t => decide ((t.port 64).st = .powered ∧ (t.port 64).vbus = true)) &&
      does (.testClearEnd 64) t3 fun t => decide ((t.port 64).st = .powered ∧ FMap.get [] 4 t.usb.power.stag5 = [64])) = true := by
  decide +kernel

/-- Port 9 with a hub in slot 1, its port 3 as `q` says, its requests `rs`, and the enumerations `es`. -/
def hubOn (q : HubPort) (rs : List HReq) (es : List Enum) (more : FMap Slot) : Sys :=
  let y := onPort 9 { st := .enabled, vbus := true, pg := true, conn := true, speed := .full, slot := 1, res5 := 100 }
    { sof := true, speed := .full }
  let h : Hub := { nports := 4, reqs := rs, ports := if q = {} then [] else [(3, q)] }
  { y with
    usb := { y.usb with enums := es }
    eng := { y.eng with slots := (1, { used := true, served := true, port := 9, addr := 1, speed := .full, config := 1, isHub := true,
                                       hubRec := h }) :: more } }

theorem witness_hubs_are_handled :
    let r : HReq := { kind := .clearTt 2 1, setup := setupPkt 0x23 8 0 0 0, tries := 1 }
    let more : FMap Slot := [(2, { used := true, port := 9, tier := 0x2000003, eps := [(1, { open_ := true, ttClear := true })] })]
    let a := hubOn {} [r] [] more
    let e15 : Enum := { port := 9, st := .running, place := true, step := 15, sub := 100, slot := 1 }
    let b := hubOn {} [] [e15] []
    let c := hubOn { powered := true } [] [] []
    let d := hubOn { powered := true, deb := true } [] [] []
    let e1 := fun (sub : Nat) => ({ port := 9, tier := 0x2000003, st := .running, place := true, sub := sub, tries := 1, speed := .low } : Enum)
    let e := fun (sub : Nat) => hubOn { powered := true, conn := true } [] [e1 sub] []
    (decide (a.slotAt 9 0 = some 1) && !a.reqWaits 1 9 0 &&
      (does (.hubRequestComplete 9 0 (.ok [])) a fun t => decide ((t.slot 1).hubRec.reqs = [] ∧ ((t.slot 2).ep 1).ttClear = false)) &&
      (does (.hubRequestComplete 9 0 .stall) a fun t => decide ((t.slot 1).hubRec.reqs.map (·.tries) = [2])) &&
      decide (b.enumAt 9 0 = some e15) && (does (.hubPowerGoodEnd 9 0) b fun t => decide (t.enumAt 9 0 = none ∧ (t.slot 1).served = true)) &&
      decide (c.slotAt 9 0 = some 1 ∧ (c.hubPort 1 3).conn = false ∧ (c.hubPort 1 4).conn = false) && !c.slotQuiet 1 &&
      (does (.hubStatusChange 9 0 4 (.connection true)) c fun t => decide ((t.hubPort 1 4).deb = true ∧ t.host.xfers.map (·.setup) = [setupPkt 0x23 1 16 4 0])) &&
      !(c.setPg wscPg 0x40 0).iCan && c.iCan && (does (.hubStatusChange 9 0 4 (.connection true)) (c.setPg wscPg 0x40 0) fun t =>
        decide (t.host.xfers = [] ∧ t.eng.holly.ctlWait.map (·.setup) = [setupPkt 0x23 1 16 4 0])) &&
      decide (d.hubPortAt 9 0x2000003 = some (1, 3, { powered := true, deb := true }) ∧ d.slotAt 9 0x2000003 = none) &&
      (does (.hubPortDebounceEnd 9 0x2000003 false) d fun t => decide ((t.hubPort 1 3).deb = false ∧ t.usb = d.usb)) &&
      (does (.hubPortDebounceEnd 9 0x2000003 true) d fun t => decide ((t.hubPort 1 3).conn = true ∧ t.usb.enums.length = 1)) &&
      decide ((e 0).enumAt 9 0x2000003 = some (e1 0) ∧ ((e 0).hubPortAt 9 0x2000003).map (·.1) = some 1) &&
      (does (.hubResetTimeout 9 0x2000003) (e 0) fun t => decide ((t.slot 1).hubRec.reqs.map (·.kind) = [.portReset 3] ∧
        (t.enumAt 9 0x2000003).map (·.tries) = some 2)) &&
      decide ((e 1).slotFree = some 2) && does (.hubResetRecoveryEnd 9 0x2000003) (e 1) fun t =>
        decide ((t.slot 2).used = true ∧ (t.slot 2).tier = 0x2000003 ∧ (t.enumAt 9 0x2000003).map (·.step) = some 3)) = true := by
  decide +kernel

theorem witness_ports_suspend_and_resume :
    let y := fun (z : PortSt) (u : SuspSt) (hold : Nat) (sof : Bool) =>
      onPort 9 { st := z, susp := u, hold := hold, vbus := true, pg := true, conn := true, speed := .full, res5 := 100 } { sof := sof, speed := .full }
    let lets := fun (y : Sys) => (st y).serves .manager && y.pageLets .manager (lnkPg 9) 0x58 false
    let q : HubPort := { powered := true, conn := true, enabled := true, slot := 2, susp := .resuming }
    let h := hubOn q [] [] [(2, { used := true, served := true, port := 9, tier := 0x2000003, addr := 2, speed := .low, hub := 1, hubPort := 3 })]
    (lets (y .enabled .active 0 true) && (does (.portSuspendReq 9 false) (y .enabled .active 0 true) fun t =>
        decide ((t.port 9).susp = .suspending ∧ (t.port 9).rwEn = false ∧ (t.pgReg (lnkPg 9) 0x58).fld 23 16 = 1)) &&
      (does (.portSuspendReq 9 true) (y .enabled .resuming 0 false) fun t => decide ((t.port 9).hold = 1 ∧ (t.port 9).susp = .resuming)) &&
      (does (.portResumeReq 9 true) (y .suspended .suspended 0 false) fun t =>
        decide ((t.port 9).susp = .resuming ∧ t.out = [.bus 9 .resumeK])) &&
      (does (.portResumeReq 9 true) (y .enabled .suspending 0 false) fun t => decide ((t.port 9).hold = 2)) &&
      (does (.portSuspendReq 9 true) (y .powered .active 0 false) fun t => decide (t.pgReg (lnkPg 9) 0x18 = 8 ∧
        (t.pgReg (lnkPg 9) 0x58).fld 23 16 = 1 ∧ (t.port 9).susp = .active)) &&
      (does (.portResumeReq 9 true) (y .powered .active 0 false) fun t => decide (t.pgReg (lnkPg 9) 0x18 = 8)) &&
      (does (.suspendEntryEnd 9 0) (y .enabled .suspending 0 false) fun t => decide ((t.port 9).st = .suspended ∧ (t.port 9).susp = .suspended)) &&
      (does (.suspendEntryEnd 9 0) (y .enabled .suspending 2 false) fun t => decide ((t.port 9).susp = .resuming ∧ t.out = [.bus 9 .resumeK])) &&
      (y .suspended .resuming 0 false).linkWorks 9 &&
      (does (.resumeSignalEnd 9) (y .suspended .resuming 0 false) fun t => decide ((t.frame 9).sof = true)) &&
      (does (.resumeRecoveryEnd 9 0) (y .suspended .resuming 0 true) fun t => decide ((t.port 9).st = .enabled ∧ (t.port 9).susp = .active)) &&
      decide (h.hubPortAt 9 0x2000003 = some (1, 3, q)) && h.resettable 9 0x2000003 &&
      (does (.hubResumeTimeout 9 0x2000003) h fun t => decide (t.usb.enums.map (·.tier) = [0x2000003])) &&
      does (.remoteWake 9 0) (y .suspended .suspended 0 false) fun t => decide ((t.port 9).susp = .resuming ∧ (t.port 9).wakeRun = true ∧
        t.out.head? = some (.bus 9 .resumeK))) = true := by decide +kernel

/-- Instance 3 runs with submission ring 2 (context 98) of slot 1, its completion ring 0 (112) and its event ring (116). -/
def rings (g c e : Ring) (xs : List Xfer) : Sys :=
  let bulk : Ep := { open_ := true, active := true, ty := .bulk, mps := 64 }
  { rdy with
    pins := { rdy.pins with pasidEn := true }
    host := { rdy.host with insts := [(3, { st := .running })], rings := [(98, g), (112, c), (116, e)], xfers := xs, nextX := 7,
                             cache := [98, 112, 116] }
    eng := { rdy.eng with slots := [(1, { used := true, served := true, port := 5, addr := 1, speed := .high, inst := some 3,
                                          eps := [(1, bulk), (16, bulk)] })] } }

/-- A block with one DMA channel, at its place of the list, as `k` says. -/
def dma (n : Nat) (k : Chan2) (y : Sys) : Sys := { y with usb := { y.usb with dma := [(n, k)] } }

theorem witness_doorbells_act_on_their_rings :
    let y := fun (z : RingSt) => rings { st := z, slot := 1, fetch := 4, head := 2, stopped := true, bad := true } {} {} []
    let ok := fun (y : Sys) => (st y).serves .tenant && y.hostOn && !y.contain.chipFault && y.instHere 3
    let free : Sys := rings {} { st := .running } { st := .running } []
    let spill : Sys := { free with host := { free.host with spq := [{ inst := 3, seq := 0, ev := {} }] } }
    let v := (y .running).setPg (onePg .rng 2) 0x40 0x30002
    let away : Sys := { y .running with host := { (y .running).host with cache := [] } }
    (ok (y .running) && ok (y .disabled) && ok (y .halted) && ok (y .stopping) && ok free && ok spill && (y .running).cached 98 &&
      !away.cached 98 && (does (.dbDisable 3 2) away fun t => decide (t.host.dbWait = [(98, .disable)] ∧ (t.ring 98).st = .running)) &&
      gives (.dbEnable 3 5) (y .running) (y .running) &&
      (does (.dbWake 3 2) (y .running) fun t => decide ((t.ring 98).stopped = false)) &&
      (does (.dbWake 3 2) (y .halted) fun t => decide (t.ring 98 = (y .halted).ring 98)) &&
      (does (.dbEnable 3 2) (y .disabled) fun t => decide ((t.ring 98).st = .running ∧ (t.ring 98).fetch = 2)) &&
      (does (.dbEnable 3 2) (y .halted) fun t => decide ((t.ring 98).st = .running ∧ (t.ring 98).bad = false)) &&
      (does (.dbEnable 3 2) (y .stopping) fun t => decide ((t.ring 98).st = .stopping ∧ (t.ring 98).enableRec = true)) &&
      (does (.dbDisable 3 2) (y .stopping) fun t => decide ((t.ring 98).enableRec = false)) && !(y .running).ringBusy 98 &&
      (does (.dbDisable 3 2) (y .running) fun t => decide ((t.ring 98).st = .disabled)) &&
      (does (.dbClearHalt 3 2 31) (y .halted) fun t => decide (((t.slot 1).ep 31).halted = false)) &&
      (does (.dbCmp 3 0) free fun t => decide ((t.ring 112).scanning = true)) &&
      (does (.dbEvt 3) spill fun t => decide ((t.ring 116).scanning = true ∧ t.host.walkDue = true)) &&
      (does (.dbEvt 3) free fun t => decide ((t.ring 116).scanning = true ∧ t.host.walkDue = false)) &&
      (st v).serves .manager && v.pageLets .manager (onePg .rng 2) 0x48 false &&
      decide (ringKey ((v.pgReg (onePg .rng 2) 0x40).fld 27 16) ((v.pgReg (onePg .rng 2) 0x40).fld 4 0) = 98) &&
      does .rngViewDisable v fun t => decide ((t.ring 98).st = .disabled)) = true := by decide +kernel

theorem witness_submission_rings_take_and_dispatch :
    let d : List Word := [0x1003, 64, 0, 0, 0, 0, 0, 0]
    let d1 : List Word := [0x103, 64, 0, 0, 0, 0, 0, 0]
    let y := dma 0 { st := .active, use := .desc 98, inst := some 3, addr := 480, len := 32, req := 32 }
      (rings { st := .running, slot := 1, log2 := 4, fetch := 15 } {} {} [])
    let cx := dma 0 { st := .active, use := .ctx 116, addr := 0, len := 64, req := 64 } (rings {} {} { st := .running } [])
    let cx : Sys := { cx with host := { cx.host with cache := [] } }
    let q := rings { st := .running, slot := 1, taken := [{ idx := 0, dws := d1 }], fetch := 1 } {} {} []
    let full : Sys := { q with host := { q.host with insts := [(3, { st := .running, ownUsed := 16, sharedUsed := 2048 })] } }
    let x : Xfer := { id := 1, inst := some 3, ring := 2, first := 0, port := 5, slot := 1, epid := 1, total := 64, begun := true,
                      entries := [(0, 0x10000)] }
    let w := rings { st := .running, slot := 1 } {} {} [x]
    let w : Sys := { w with usb := { w.usb with frame := [(5, { cur := some { xid := 1, form := .out } })] } }
    ((st y).operates && y.ringUnit && y.instHere 3 && !(y.inst 3).exhausted && y.unarmed (onePg .rng 0) &&
      decide (malformed? d ((y.slot 1).ep (dEpid d)) (openChain []) = none) &&
      decide (y.hostCarrier (.desc 98) = some 0 ∧ (y.chan 0 0).got < (y.chan 0 0).req) && (y.ring 98).takes &&
      (does (.descriptorFetch 3 2 (.ok d)) y fun t => decide ((t.ring 98).fetch = 0 ∧ (t.ring 98).taken.map (·.idx) = [15])) &&
      (does (.descriptorFetch 3 2 (.ok [0x1002, 64, 0, 0, 0, 0, 0, 0])) y fun t => decide ((t.ring 98).stopped = true ∧ (t.ring 98).taken = [])) &&
      !y.ringBusy 98 && (does (.descriptorFetch 3 2 .poison) y fun t => decide ((t.ring 98).st = .halted ∧ .aer .poisonedTlp .cor ∈ t.out)) &&
      decide (cx.hostCarrier (.ctx 116) = some 0) && (does (.contextFetch 3 20 (.ok [])) cx fun t => decide (t.host.cache = [116] ∧
        t.pgReg (onePg .rng 0) 0x68 = 1)) &&
      decide (q.dispatchable 98 0 = some [{ idx := 0, dws := d1 }] ∧ dType d1 = 1 ∧ dFence d1 = false ∧ q.holdFor 3 = some true) &&
      (does (.dispatch 3 2 0) q fun t => decide (t.host.xfers.map (·.total) = [64] ∧ (t.inst 3).ownUsed = 1 ∧
        t.host.xfers.map (·.id) = [7])) &&
      decide (full.holdFor 3 = none) && (does (.dispatch 3 2 0) full fun t => decide ((t.inst 3).exhausted = true ∧ t.host.xfers = [])) &&
      decide (w.xferAt 3 2 0 = some x ∧ w.xfer? 1 = some x) && w.onWire x &&
      does (.transferTimeout 3 2 0) w fun t => decide (t.host.xfers.map (·.cut) = [some 14])) = true := by decide +kernel

theorem witness_completions_and_events_reach_their_rings :
    let x : Xfer := { id := 1, inst := some 3, ring := 2, first := 0, last := 5, port := 5, slot := 1, epid := 1, total := 64, begun := true,
                      fin := some 0, flush := 2, held := true }
    let y := rings { st := .running, slot := 1 } { st := .running } {} [x]
    let y : Sys := { y with host := { y.host with insts := [(3, { st := .running, flushing := true, ownUsed := 1 })] } }
    let m := rings { st := .running, modRun := true } {} {} []
    let sc := dma 0 { st := .active, use := .scan 112, inst := some 3, addr := 240, len := 16, req := 16 }
      (rings {} { st := .running, log2 := 4, known := 15, scanning := true } {} [])
    let ev : Sys := rings {} {} { st := .running, log2 := 4, known := 1, wpos := 15 } []
    let ev : Sys := { ev with host := { ev.host with evq := [{ inst := 3, seq := 0, ev := { ty := 7 } }] } }
    let sp := (rings {} {} { st := .running, log2 := 4, nextSpill := 65535 } []).setPg (onePg .rng 0) 0x58 0x80000004
    let sp : Sys := { sp with host := { sp.host with evq := [{ inst := 3, seq := 0, ev := { ty := 7 } }] } }
    let wk := rings {} {} { st := .running, log2 := 4, known := 1, nextDeliver := 65535 } []
    let wk : Sys := { wk with host := { wk.host with walkDue := true, spq := [{ inst := 3, seq := 65535, ev := { ty := 7 } }] } }
    ((st y).operates && (does (.flushingReadDone 3 true) y fun t => decide (t.host.xfers = [] ∧ (t.ring 112).waiting.map (·.status) = [0] ∧
        (t.ring 112).waiting.map (·.entry) = [5])) &&
      (does (.flushingReadDone 3 false) y fun t => decide ((t.ring 112).waiting.map (·.status) = [10])) &&
      gives (.entryScanRead 3 16 .poison) (rings {} {} {} []) (rings {} {} {} []) && (does (.modIntervalExpiry 3 2) m fun t => decide ((t.ring 98).modRun = false)) &&
      sc.ringUnit && y.recChan && decide (sc.hostCarrier (.scan 112) = some 0) && (does (.entryScanRead 3 16 (.ok [true])) sc fun t => decide ((t.ring 112).known = 16 ∧ (t.ring 112).scanning = false)) &&
      (does (.entryScanRead 3 16 (.ok [false])) sc fun t => decide ((t.ring 112).known = 15 ∧ (t.ring 112).scanning = false)) &&
      decide (ev.spilled 3 = 0) && (does .eventDelivery ev fun t => decide (t.host.evq = [] ∧ (t.ring 116).wpos = 0 ∧ (t.ring 116).known = 0)) &&
      decide (sp.spilled 3 < (sp.pgReg (onePg .rng 1) 0x880).fld 11 0 ∧ sp.host.spq.length < sp.spqSize) &&
      (does .eventDelivery sp fun t => decide (t.host.spq.map (·.seq) = [65535] ∧ (t.ring 116).nextSpill = 0)) &&
      does .spqWalk wk fun t => decide (t.host.spq = [] ∧ (t.ring 116).wpos = 1 ∧ (t.ring 116).nextDeliver = 0)) = true := by decide +kernel

theorem witness_completions_and_events_reach_their_rings_else :
    let y := rings { st := .running, modRun := true, modDue := true } {} { st := .running } []
    let sc := dma 0 { st := .active, use := .scan 112, inst := some 3, addr := 80, len := 128, req := 128 }
      (rings {} { st := .running, log2 := 6, known := 5, scanning := true } {} [])
    let gone := rings {} {} {} []
    let gone : Sys := { gone with host := { gone.host with insts := [], evq := [{ inst := 3, seq := 0, ev := { ty := 7 } }] } }
    (gives (.flushingReadDone 3 true) y y && gives .spqWalk y y && gives .eventDelivery y y &&
      (does (.modIntervalExpiry 3 2) y fun t => decide (t = (y.updRing 98 fun g => { g with modRun := false, modDue := false }).ringMsg 98)) &&
      sc.ringUnit && decide (sc.hostCarrier (.scan 112) = some 0 ∧ (sc.chan 0 0).got < (sc.chan 0 0).req) &&
      (does (.entryScanRead 3 16 (.ok (List.replicate 8 true))) sc fun t => decide ((t.ring 112).known = 13 ∧ (t.ring 112).scanning = true)) &&
      (does (.entryScanRead 3 16 (.ok (List.replicate 3 true ++ [false]))) sc fun t =>
        decide ((t.ring 112).known = 8 ∧ (t.ring 112).scanning = false)) &&
      (does (.entryScanRead 3 16 .poison) sc fun t => decide ((t.ring 112).known = 5 ∧ (t.ring 112).scanning = false)) &&
      (does .eventDelivery gone fun t => decide (t.host.evq = []))) = true := by decide +kernel

theorem witness_region_bursts_run :
    let x : Xfer := { id := 1, inst := some 3, ring := 2, port := 5, slot := 1, epid := 1, total := 64, segs := [(0x1000, 64)] }
    let y := rings { st := .running, slot := 1 } {} {} [x]
    let k : Chan2 := { st := .active, len := 64, req := 64, xid := 9 }
    let on := fun (e : Nat) (k : Chan2) => ({ rdy with usb := { dma := [(32 * e + 7, k)] } } : Sys)
    ((st y).operates && y.dmaWorks 1 && decide ((y.chan 1 7).st = .idle) && decide ((y.pickReq 0).map (·.x.id) = some 1) &&
      y.unarmed (dmaMain 1) && (does (.dmaBurstStart 1 7) y fun t => decide ((t.chan 1 7).st = .active ∧ (t.chan 1 7).xid = 1 ∧
        (t.chan 1 7).len = 64 ∧ t.out = [.rd (y.pfx (some 3)) 0x1000 64])) &&
      (on 8 k).dmaRuns 8 && k.reads && decide (k.retries < (on 8 k).dmaRetry 8) &&
      (does (.dmaReadCompletion 8 7 .ur) (on 8 { k with outst := [64] }) fun t => decide ((t.chan 8 7).st = .retry ∧ (t.chan 8 7).retries = 1 ∧
        t.out = [.rd none 0 64])) &&
      decide ((on 8 { k with retries := 3 }).dmaRetry 8 ≤ 3) &&
      (does (.dmaReadCompletion 8 7 .ca) (on 8 { k with retries := 3 }) fun t => decide ((t.chan 8 7).st = .halted ∧
        (t.pgReg (dmaPg 8 7) 0x18).bit 8 = true)) &&
      ((on 8 k).pgReg (dmaMain 8) 0x240).bit 4 && (does (.dmaAgeing 8 7) (on 8 { k with prio := 3 }) fun t =>
        decide ((t.chan 8 7).prio = 0 ∧ (t.chan 8 7).aged = true)) &&
      (does (.dmaBurstEnd 8 7) (on 8 { k with bytes := 64, err := 5 }) fun t => decide (t.chan 8 7 = { err := 5 })) &&
      (st (on 8 { k with st := .halted })).serves .manager && (on 8 k).pageLets .manager (dmaPg 8 7) (0x40 + 0x40 * 7) false &&
      (does (.channelRestart .manager 8 7) (on 8 { k with st := .halted, err := 5 }) fun t => decide (t.chan 8 7 = { err := 5 })) &&
      (st (on 0 { k with st := .halted })).serves .manager && (on 0 k).pageLets .manager (dmaPg 0 7) (0x40 + 0x40 * 7) false &&
      (does (.channelRestart .manager 0 7) (on 0 { k with st := .halted }) fun t => decide ((t.chan 0 7).st = .idle)) &&
      gives (.channelRestart .manager 8 7) (on 8 k) (on 8 k)) = true := by decide +kernel

theorem witness_region_bursts_run_preempted :
    let x : Xfer := { id := 1, inst := some 3, ring := 2, port := 5, slot := 1, epid := 1, total := 64, segs := [(0x1000, 64)] }
    let m : Chan2 := { st := .active, toHost := true, len := 64, prio := 0 }
    let y := rings { st := .running, slot := 1 } {} {} [x]
    let y : Sys := { y with usb := { y.usb with dma := [(33, m)] } }
    ((st y).operates && y.dmaWorks 1 && decide ((y.chan 1 7).st = .idle) && decide ((y.pickReq 0).map (fun r => (r.x.id, r.len)) = some (1, 64)) &&
      y.unarmed (dmaMain 1) && y.linkFree m && decide (0 < y.kindPrio 0 4) &&
      does (.dmaBurstStart 1 7) y fun t => decide ((t.chan 1 7).st = .preempted ∧ (t.chan 1 7).req = 0 ∧ (t.chan 1 7).xid = 1 ∧
        t.out = [])) = true := by decide +kernel

theorem witness_firmware_transfers_run :
    let c0 : FMap Core := [(15, { st := .running })]
    let base : Sys := { rdy with eng := { rdy.eng with cores := c0 } }
    let set := fun (la n : Nat) => ((base.setPg fwPg 0x210 (Word.ofN la)).setPg fwPg 0x214 (Word.ofN n)).setPg fwPg 0x250 0x04000000
    let a := set 0x800000 0x800000
    let w : Sys := { a with usb := { a.usb with dcqRsv := 16 } }
    let k : Chan2 := { st := .active, total := 513, laddr := 0x800000, addr := 0x2000 }
    let on := fun (k : Chan2) => ({ a with usb := { a.usb with dma := [(31, k)], dcqRsv := 1 } } : Sys)
    let wt : Sys := ({ w with usb := { w.usb with dcqRsv := 0, dcqWait := [7], dma := [(31, { k with st := .waitDcq })] } } : Sys).setPg
      fwPg 0x254 0x10000
    (a.coreActs 15 && a.pageLets (.core 15) fwPg (0x40 + 0x40 * 7) false && localOk 0x800000 0x800000 && a.dcqFree &&
      (does (.firmwareDmaStart 15 7) a fun t => decide ((t.chan 0 31).st = .active ∧ (t.chan 0 31).total = 0x800000)) &&
      !w.dcqFree && (does (.firmwareDmaStart 15 7) w fun t => decide ((t.chan 0 31).st = .waitDcq ∧ t.usb.dcqWait = [7])) &&
      (does (.firmwareDmaStart 15 7) (set 0x800000 0) fun t => decide (t.pgReg fwPg 0x18 = 8 ∧ (t.chan 0 31).st = .idle)) &&
      !localOk 0xFFFFFF 2 && (does (.firmwareDmaStart 15 7) (set 0xFFFFFF 2) fun t => decide (t.pgReg fwPg 0x18 = 8)) &&
      (on k).dmaWorks 0 && (on k).unarmed (dmaPg 0 31) && (does (.dmaBurstStart 0 31) (on k) fun t =>
        decide ((t.chan 0 31).len = 512 ∧ t.out = [.rd none 0x2000 256])) &&
      (on k).dmaRuns 0 && ({ k with len := 2, req := 2 } : Chan2).reads && (on k).unarmed (onePg .wsc 0) &&
      (does (.dmaReadCompletion 0 31 (.ok [7, 9])) (on { k with len := 2, req := 2 }) fun t =>
        decide ((t.chan 0 31).bytes = 2 ∧ t.localBytes 0x800000 2 = [7, 9])) &&
      (does (.dmaBurstEnd 0 31) (on { k with len := 512, bytes := 512 }) fun t => decide ((t.chan 0 31).bytes = 512 ∧ (t.chan 0 31).len = 0)) &&
      (does (.dmaBurstEnd 0 31) (on { k with bytes := 513, bst := 512, len := 1 }) fun t => decide ((t.chan 0 31).st = .idle ∧
        t.pgReg fwPg 0x254 = 1 ∧ t.usb.dcqRsv = 0)) &&
      a.pageLets (.core 15) fwPg 0x258 false && qBad a.dcqSize 0 16 16 && (does (.dcqCiWrite 15 16) a fun t => decide (t.pgReg fwPg 0x18 = 8)) &&
      !qBad wt.dcqSize 0x10000 1 1 && does (.dcqCiWrite 15 1) wt fun t => decide (t.pgReg fwPg 0x258 = 1 ∧ (t.chan 0 31).st = .active)) = true := by
  decide +kernel

theorem witness_firmware_transfers_run_writes :
    let k : Chan2 := { st := .active, toHost := true, total := 4, len := 4, laddr := 0x800000, addr := 0x10FE }
    let y := dma 31 k (rdy.setLocal 0x800000 [1, 2, 3, 4] false)
    (y.dmaRuns 0 && y.hostOn && decide (tlpsOf y.maxPayload 0x10FE 4 = [(0x10FE, 2), (0x1100, 2)]) &&
      does (.dmaBurstEnd 0 31) y fun t => decide (.mem none false false 0x10FE [1, 2] ∈ t.out ∧ .mem none false false 0x1100 [3, 4] ∈ t.out)) =
      true := by decide +kernel

theorem witness_pasid_enable_releases_in_order :
    let y : Sys := { rdy with heldPasid := [.rd (some ⟨3, 9, false, false⟩) 0 8, .msg ⟨3, 9, false, false⟩ 16 1] }
    (y.hostOn && !y.contain.chipFault && decide ((y.inst 3).st = .free) && (does (.pasidEnableChange true) y fun t =>
        decide (t.out = [.msg ⟨3, 9, false, false⟩ 16 1, .rd (some ⟨3, 9, false, false⟩) 0 8] ∧ t.heldPasid = [])) &&
      gives (.pasidEnableChange false) y y) = true := by decide +kernel

theorem witness_delay_ticks_are_guarded :
    let y : Sys := { rdy with eng := { rdy.eng with holly := { delays := [{ due := 5, flow := 1, prio := 0, seq := 0, list := 3 }] } } }
    let tick := fun (y : Sys) (v : Word) (n : Nat) (e : Word) => does (.registerWrite .manager 0x90007C v) y fun t =>
      decide (t.dlyTick 3 = n ∧ t.pgReg wscPg 0x18 = e)
    ((st y).serves .manager && decide (target .manager 0x90007C = .page wscPg 0x7C) && y.pageLets .manager wscPg 0x7C false &&
      rdy.pageLets .manager wscPg 0x7C false && tick y 20 10 8 && tick rdy 0 10 8 && tick rdy 1025 10 8 && tick rdy 1 1 0 &&
      tick rdy 1024 1024 0) = true := by decide +kernel

/-- Slot 8,192 on port 5 bound to a personality of running instance 3. -/
def bound (p : Pers) : Sys :=
  { rdy with
    host := { rdy.host with insts := [(3, { st := .running, vivMaj := 2 })] }
    eng := { rdy.eng with slots := [(8192, { used := true, served := true, port := 5, addr := 1, speed := .full, inst := some 3, pers := p })] } }

/-- The hypotheses on a bound slot, as data. -/
def boundB (y : Sys) (c : Nat) : Bool :=
  (st y).operates && decide (y.contain.chipFault = false ∧ (y.slot 8192).used = true ∧ (y.slot 8192).pers.code = c ∧ y.freshParams 8192 = y ∧
    (y.slot 8192).inst = some 3 ∧ (y.inst 3).st = .running ∧ y.is1x 3 = false)

/-- The events of instance 3 that a step adds: type and first payload dword. -/
def told (t : Sys) : List (Nat × Word) := t.host.evq.map fun e => (e.ev.ty, e.ev.p.headD 0)

/-- A key whose character is free: with a suffix that is its character, whatever it is, the hypotheses hold. -/
theorem witness_scans_collect_and_report_suffix :
    let c : Byte := BitVec.ofNat 8 (scanChar 0 4 0)
    let y := bound { code := 1, params := [0, 1, 0, 0, 0, 0, c, 0, 0, 0, 0, 0, 50, 0, 16], scan := { active := true, data := [65] } }
    let p := (y.slot 8192).pers
    (y.contain.chipFault = false ∧ (y.slot 8192).used = true ∧ p.code = 1) ∧ p.b 0 = 0 ∧ p.b 1 = 1 ∧ p.suffix_ = [c] ∧ p.b 11 % 2 = 0 ∧
      rollOver (bootKeys [0, 0, 4, 0, 0, 0, 0, 0]) = false ∧ pressed p.scan.prev (bootKeys [0, 0, 4, 0, 0, 0, 0, 0]) = [4] ∧
      p.scan.data.length ≤ p.b 14 :=
  ⟨⟨rfl, rfl, rfl⟩, rfl, rfl, rfl, rfl, by decide +kernel, by decide +kernel, by decide +kernel⟩

theorem witness_scans_collect_and_report :
    let kb := fun (q : Scan) => bound { code := 1, params := [0, 0, 0, 0, 0, 0, 0, 0, 0, 0, 0, 0, 50, 0, 16], scan := q, timers := [(1, 1)] }
    let ps := fun (q : Scan) => bound { code := 2, params := [0, 0, 0, 0, 0, 0, 0, 0, 0, 0, 0, 0, 50, 0, 16], scan := q, timers := [(1, 1)] }
    let rep : PosReport := { decoded := [65, 66], sym2 := 0x45, sym3 := 0x30, cont := false, poison := false }
    (boundB (kb {}) 1 && rollOver (bootKeys [0, 0, 1, 1, 1, 1, 1, 1]) && gives (.scanKbdReport 8192 [0, 0, 1, 1, 1, 1, 1, 1] false) (kb {}) (kb {}) &&
      !rollOver (bootKeys [0, 0, 4, 0, 0, 0, 0, 0]) && decide (pressed [] (bootKeys [0, 0, 4, 0, 0, 0, 0, 0]) = [4]) &&
      (does (.scanKbdReport 8192 [] true) (kb { active := true, data := [1] }) fun t =>
        decide ((t.slot 8192).pers.scan = {} ∧ (t.inst 3).lostPend = true)) &&
      boundB (ps {}) 2 && (does (.scanPosReport 8192 { rep with cont := true }) (ps {}) fun t =>
        decide ((t.slot 8192).pers.scan.data = [65, 66] ∧ (t.slot 8192).pers.scan.gap = 50000)) &&
      (does (.scanPosReport 8192 rep) (ps {}) fun t => decide (told t = [(0x40, Word.ofN (2 + 4 * 4096 + 0x30450000))] ∧
        (t.slot 8192).pers.scan = {})) &&
      gives (.scanGapExpiry 8192) (ps {}) (ps {}) &&
      (does (.scanGapExpiry 8192) (kb { gap := 9, recent := [(1, 2)] }) fun t => decide ((t.slot 8192).pers.scan = {})) &&
      does (.scanGapExpiry 8192) (kb { gap := 9, active := true, data := [67] }) fun t => decide ((t.slot 8192).pers.scan = {} ∧
        told t = [(0x40, 1)])) = true := by decide +kernel

theorem witness_weights_and_keys_are_judged :
    let sc := fun (q : Scale) => bound { code := 3, params := [200, 0, 0, 0, 5, 0, 0, 0, 0, 0, 0, 0, 0, 0, 0, 0], scale := q, timers := [(8, 1)] }
    let r : ScaleReport := { st := .stable, unit := 2, exp := -1, v := 12, poison := false }
    let c : ScaleCand := { v := 12, last := r, timer := 4, due := 200000 }
    let z : ScaleCand := { c with v := 5, last := { r with v := 5 } }
    let kb := bound { code := 7, params := [0, 0, 0, 0], keys := [9] }
    (boundB (sc {}) 3 && decide (scaleReason { r with st := .over } = 2) && (does (.scaleReport 8192 { r with st := .over }) (sc {}) fun t =>
        decide ((t.slot 8192).pers.scale = {} ∧ told t = [])) &&
      boundB (sc { st := .stable }) 3 && !scaleBig r && (does (.scaleReport 8192 { r with st := .fault }) (sc { st := .stable }) fun t =>
        decide ((t.slot 8192).pers.scale.st = .bad ∧ (told t).map (·.1) = [0x42])) &&
      decide (scaleReason r = 0) && (does (.scaleReport 8192 r) (sc {}) fun t => decide ((t.slot 8192).pers.scale.timer = 1 ∧
        (t.slot 8192).pers.scale.cand.isSome = true)) &&
      boundB (sc { cand := some z }) 3 && decide (gapOf 5 0 ≤ 5) && (does (.scaleStabilityExpiry 8192 4) (sc { cand := some z }) fun t =>
        decide ((t.slot 8192).pers.scale.st = .zero)) &&
      boundB (sc { cand := some c }) 3 && decide (scaleMg r = some 1200 ∧ (5 : Int) < gapOf 12 0) &&
      (does (.scaleStabilityExpiry 8192 4) (sc { cand := some c }) fun t => decide ((t.slot 8192).pers.scale.st = .stable ∧
        told t = [(0x41, 1200)])) &&
      boundB kb 7 && gives (.keyboardReport 8192 [0, 0, 1, 1, 1, 1, 1, 1] false) kb kb &&
      decide (pressed [9] (bootKeys [0, 0, 9, 4, 0, 0, 0, 0]) = [4]) &&
      does (.keyboardReport 8192 [0, 0, 9, 4, 0, 0, 0, 0] false) kb fun t => decide (told t = [(0x48, 0x10004)])) = true := by
  decide +kernel

theorem witness_printers_report_status_and_jobs :
    let pr := fun (ms : Byte) (q : Printer) => bound { code := 4, params := [ms, 0, 100, 0, 1, 0x80, 0x81, 0x82, 0, 0, 0], prn := q, timers := [(3, 1), (4, 1)] }
    let nt := fun (q : Printer) =>
      let y := pr 1 q
      ({ y with eng := { y.eng with slots := y.eng.slots.map fun e => (e.1, { e.2 with notice := 500, outNotice := true, pwrNotice := true }) } } : Sys)
    (boundB (pr 1 {}) 4 && gives (.printerStatusBlock 8192 [1, 2] false) (pr 1 {}) (pr 1 {}) &&
      (does (.printerStatusBlock 8192 [7] false) (pr 1 { blkSeen := true, first := false }) fun t =>
        decide (Nat.testBit (t.slot 8192).pers.prn.status 3 = true ∧ Nat.testBit (t.slot 8192).pers.prn.status 4 = true)) &&
      gives (.printerStatusPoll 8192) (pr 0 {}) (pr 0 {}) &&
      (does (.printerStatusPoll 8192) (pr 1 {}) fun t => decide ((t.slot 8192).pers.req = [.poll])) &&
      (does (.printerOutNotice 8192) (nt {}) fun t => decide ((t.slot 8192).pers.prn.job = 500 ∧ (t.slot 8192).notice = 0 ∧
        (t.slot 8192).pers.prn.idleDue = true)) &&
      (does (.powerChangeNotice 8192) (nt {}) fun t => decide ((t.slot 8192).pwrNotice = false)) &&
      gives (.printerIdleExpiry 8192) (pr 1 {}) (pr 1 {}) &&
      (does (.printerIdleExpiry 8192) (pr 1 { idleDue := true }) fun t => decide ((t.slot 8192).pers.prn.idleWait = true)) &&
      healthy 1 && does (.printerIdleExpiry 8192) (pr 1 { idleDue := true, status := 1, job := 77 }) fun t =>
        decide (told t = [(0x46, 77)] ∧ (t.slot 8192).pers.prn.job = 0)) = true := by decide +kernel

theorem witness_drawers_are_kicked_and_sensed :
    let dr := fun (q : Drawer) => bound { code := 5, params := [120, 0, 0, 0, 0, 0, 0, 0, 0x80, 0, 0, 0, 0, 0, 0, 0], drw := q, timers := [(2, 1), (5, 1), (6, 1), (7, 1)] }
    let asleep :=
      let y := dr { kick := .pulse }
      ({ y with usb := { y.usb with ports := [(5, { st := .suspended, susp := .suspended })] } } : Sys)
    let d := fun (q : Drawer) (c : Instr) (P : Drawer → List PReq → List (Nat × Word) → Bool) =>
      boundB (dr q) 5 && does c (dr q) fun t => P (t.slot 8192).pers.drw (t.slot 8192).pers.req (told t)
    (decide (locBit 0x80 [1] = some true ∧ locBit 0x80 [0] = some false ∧ locBit 0 [1] = none) &&
      d { acc := some true } (.drawerSenseReport 8192 [1] false) (fun a _ _ => decide (a.cand = none)) &&
      d { acc := some false } (.drawerSenseReport 8192 [1] false) (fun a _ _ => decide (a.cand = some true)) &&
      gives (.drawerSenseReport 8192 [1] false) (bound { code := 5 }) (bound { code := 5 }) &&
      gives (.drawerSenseExpiry 8192) (dr {}) (dr {}) &&
      d { acc := some false, cand := some true } (.drawerSenseExpiry 8192)
        (fun a _ e => decide (a.acc = some true ∧ a.openAt = some 0 ∧ e = [(0x44, 0)])) &&
      d { acc := some true, cand := some false, openAt := some 0 } (.drawerSenseExpiry 8192)
        (fun a _ e => decide (a.acc = some false ∧ a.openAt = none ∧ e = [(0x45, 0)])) &&
      d { kick := .gap } (.kick 8192 5 0) (fun a _ _ => decide (a.next = some (5, 0))) &&
      d { acc := some true } (.kick 8192 5 0) (fun _ r e => decide (r = [] ∧ e = [(0x44, 0x50002)])) &&
      d {} (.kick 8192 5 0) (fun a r _ => decide (a.kick = .openReq ∧ a.pulse = 120 ∧ r = [.kickOpen])) &&
      d {} (.kick 8192 5 9) (fun a _ _ => decide (a.pulse = 10)) && d {} (.kick 8192 5 501) (fun a _ _ => decide (a.pulse = 500)) &&
      d { kick := .gap } (.kickGapExpiry 8192) (fun a r _ => decide (a.kick = .openReq ∧ r = [.kickOpen])) &&
      gives (.kickGapExpiry 8192) (dr {}) (dr {}) &&
      !(dr { kick := .pulse }).slotQuiet 8192 && d { kick := .pulse } (.pulseExpiry 8192) (fun a r _ => decide (a.kick = .release ∧ r = [.kickRelease])) &&
      boundB asleep 5 && asleep.slotQuiet 8192 && (does (.pulseExpiry 8192) asleep fun t => decide ((t.slot 8192).pers.drw.kick = .releaseOwed)) &&
      d { kick := .release, waitOpen := true, tag := 5 } (.openWaitExpiry 8192) (fun a _ e => decide (a.waitOpen = false ∧ e = [(0x45, 0x50001)]))) = true := by
  decide +kernel

theorem witness_displays_and_requests_run :
    let di := fun (clr : Byte) (q : List DispCmd) => bound { code := 6, params := [2, 20, 0, 0, 0, clr, 0x0C, 0, 0, 0, 0, 0, 0], disp := q }
    let k : DispCmd := { op := 0x10, tag := 9 }
    let rq := fun (n : Nat) (r : List PReq) => bound { code := 1, req := r, tries := n }
    (boundB (di 1 [k]) 6 && (does (.clear 8192 9) (di 1 [k]) fun t => decide ((t.slot 8192).pers.disp = [k, k])) &&
      boundB (di 1 []) 6 && (((di 1 []).slot 8192).pers.dispData k).isSome && (does (.clear 8192 9) (di 1 []) fun t =>
        decide ((t.slot 8192).pers.disp = [k] ∧ (t.slot 8192).pers.req = [.display])) &&
      boundB (di 0 []) 6 && decide (((di 0 []).slot 8192).pers.dispData k = none) && (does (.clear 8192 9) (di 0 []) fun t =>
        decide (told t = [(0x49, 0x02100009)] ∧ (t.slot 8192).pers.disp = [])) &&
      (does (.text 8192 9 2 0 []) (di 1 []) fun t => decide (told t = [(0x49, 0x02110009)])) &&
      (does (.bright 8192 9 200) (di 1 []) fun t => decide ((told t).length + (t.slot 8192).pers.disp.length = 1)) &&
      (rq 0 [.report]).on 17 && !(rq 0 [.report]).reqWaits 2 5 0 &&
      (does (.personalityRequestComplete 8192 (.ok [])) (rq 1 [.protocol, .report]) fun t => decide ((t.slot 8192).pers.req = [.report] ∧
        (t.slot 8192).pers.tries = 0)) &&
      does (.personalityRequestComplete 8192 .stall) (rq 1 [.report]) fun t => decide ((t.slot 8192).pers.tries = 2 ∧
        (t.slot 8192).pers.req = [.report])) = true := by decide +kernel


/-- A manager command copied from MCQ entry 7: OPCODE, TAG 5, and dwords by number. -/
def mcmd (op : Nat) (ds : List (Nat × Nat)) : DCmd :=
  { idx := 7, dws := (List.range 16).map fun d => if d = 0 then Word.ofN (op + 0x50000) else Word.ofN ((ds.find? fun e => e.1 == d).elim 0 (·.2)) }

/-- The block with that one command on chip, version 2 agreed. -/
def dec (y : Sys) (c : DCmd) : Sys := { y with host := { y.host with decust := { maj := 2, cmds := [c] } } }

/-- The command may start, and its row's command carries it out: what the block is after it satisfies `P`. -/
def begun (o : Instr) (y : Sys) (c : DCmd) (P : Sys → Bool) : Bool :=
  (st (dec y c)).operates && decide ((dec y c).tenWorks = true ∧ (dec y c).hostOn = true ∧ (dec y c).decStarts c = true) && !c.auto &&
    does o (dec y c) P

/-- It is answered with status `k` and results `res`; MEQ's EN is 0, so the response waits on chip. -/
def ans (o : Instr) (y : Sys) (c : DCmd) (k : Nat) (res : List Word) (P : Sys → Bool) : Bool :=
  begun o y c fun t => decide (t.host.decust.cmds = [] ∧ t.host.decust.resps = [.resp ((dec y c).respDws c.op 5 7 k res)]) && P t

theorem witness_decust_queues_move :
    let q := dma 16 { st := .active, use := .mcq, len := 64, req := 64 }
      (((rdy.setPg tenPg 0x58 0x80000004).setPg tenPg 0x5C 3).setPg tenPg 0x6C 0x80000004)
    let e := fun (w : Word) => w :: List.replicate 15 0
    let full := q.setPg tenPg 0x70 2
    let off := (rdy.setPg tenPg 0x6C 4).updDec fun d => { d with resps := [.resp (List.replicate 8 3)] }
    (q.mcqTakes && q.unarmed tenPg && decide ((mcmd 1 []).keys = [.chip] ∧ (mcmd 0x77 []).keys = []) &&
      (does (.mcqTake (.ok (e 0x50001))) q fun t => decide (t.host.decust.cmds = [{ mcmd 1 [] with idx := 0 }] ∧ t.pgReg tenPg 0x60 = 1)) &&
      (does (.mcqTake (.ok (e 0x50077))) q fun t => decide (t.host.decust.cmds = [] ∧ t.pgReg tenPg 0x70 = 1 ∧
        t.out = [.mem none false false 0 (dwBytes (Word.ofN 2 :: List.replicate 7 0 ++ q.respDws 0x77 5 0 1 []))])) &&
      (does (.mcqTake .poison) q fun t => decide (t.host.decust.cmds = [] ∧
        .mem none false false 0 (dwBytes (Word.ofN 2 :: List.replicate 7 0 ++ q.respDws 0 0 0 0x10 [])) ∈ t.out)) &&
      (st full).serves .manager && full.pageLets .manager tenPg 0x74 false && qBad full.meqSize 2 3 3 && !qBad full.meqSize 2 2 2 &&
      (does (.meqCiWrite 3) full fun t => decide (t.pgReg tenPg 0x74 = 0 ∧ (t.pgReg tenPg 0x18).bit 3 = true)) &&
      (does (.meqCiWrite 2) full fun t => decide (t.pgReg tenPg 0x74 = 2 ∧ (t.pgReg tenPg 0x18) = 0)) &&
      q.pageLets .manager tenPg 0x58 false && (does (.mcqEnable false) q fun t => decide (t.pgReg tenPg 0x58 = 4)) &&
      q.pageLets .manager tenPg 0x6C false && (does (.meqEnable false) q fun t => decide (t.pgReg tenPg 0x6C = 4)) &&
      (st off).serves .manager && off.pageLets .manager tenPg 0x6C false && (does (.meqEnable true) off fun t =>
        decide (t.host.decust.resps = [] ∧ t.pgReg tenPg 0x70 = 1)) &&
      q.pageLets .manager tenPg 0x78 false && (does .mgrRestart q fun t => decide (t.pgReg tenPg 0x58 = 4 ∧ t.pgReg tenPg 0x5C = 0 ∧
        t.host.decust.maj = 0)) &&
      does .mgrRestart (dec q (mcmd 0x22 [])) fun t => decide (t.host.decust.restart = true ∧ t.host.decust.resps = [] ∧
        t.host.decust.cmds = [mcmd 0x22 []])) = true := by
  decide +kernel

theorem witness_instances_and_rings_are_managed :
    let ten := fun (is : FMap Inst) (rs : FMap Ring) =>
      let y := rdy.setPg (onePg .rng 0) 0x40 0x1000
      ({ y with pins := { y.pins with pasidEn := true }
                host := { y.host with insts := is, rings := rs }
                eng := { y.eng with slots := [(1, { used := true, served := true, port := 5, inst := some 3 })] } } : Sys)
    let free := ten [] []
    let made : Inst := { st := .created, maxSub := 4, maxCmp := 1, vivMaxMaj := 2, vivMaxMin := 1 }
    let hello := fun (v : Nat) =>
      let c := mcmd 1 [(1, v)]
      let y := (dec rdy c).updDec fun d => { d with maj := 0 }
      c.clean false [(1, 0xFFFF)] && does (.hello 7) y fun t => decide (t.host.decust.cmds = [] ∧ t.host.decust.maj = min v 2)
    let two := ten [(3, { made with st := .running })] [(112, { st := .running, log2 := 4 })]
    let ev := ten [(3, { made with st := .running })] [(116, { st := .running, log2 := 4 })]
    let usedBy := ten [(3, { made with st := .running })] [(98, { st := .disabled }), (112, { st := .running })]
    let make := mcmd 2 [(1, 3 + 4096 + 4 * 1048576 + 33554432), (2, 9), (3, 0x102)]
    let sub := mcmd 8 [(1, 3 + 2 * 65536 + 4 * 16777216), (2, 0x4000), (4, 1)]
    let cmp := mcmd 8 [(1, 3 + 16 * 65536 + 4 * 16777216), (2, 0x4000)]
    (hello 1 && hello 2 && hello 0 && make.clean false [(1, 0x0FFFFFFF), (2, 0x000FFFFF), (3, 0x003FFFFF)] &&
      ans (.createInstance 7) free make 0 [3, 0] (fun t => decide ((t.inst 3).st = .created ∧ (t.inst 3).pasid = 9 ∧ (t.inst 3).maxSub = 4 ∧
        (t.inst 3).maxCmp = 1 ∧ (t.inst 3).vivMaxMaj = 2 ∧ (t.inst 3).vivMaxMin = 1)) &&
      ans (.destroyInstance 7) (ten [(5, made)] []) (mcmd 3 [(1, 5)]) 0 [0] (fun t => decide (t.inst 5 = {})) &&
      ans (.resetInstance 7) (ten [(5, { made with st := .running, vivMaj := 2 })] []) (mcmd 4 [(1, 5)]) 0 []
        (fun t => decide (t.inst 5 = made)) &&
      ans (.vivelAgree 7) (ten [(3, made)] []) (mcmd 6 [(1, 3), (2, 0x102)]) 0 [] (fun t => decide ((t.inst 3).st = .running ∧ (t.inst 3).vivMin = 1)) &&
      ans (.vivelAgree 7) two (mcmd 6 [(1, 3), (2, 0x102)]) 5 [] (fun t => decide (t.inst 3 = two.inst 3)) &&
      ans (.vivelAgree 7) (ten [(3, { made with vivMaxMaj := 1 })] []) (mcmd 6 [(1, 3), (2, 2)]) 0x0E [] (fun t => decide ((t.inst 3).st = .created)) &&
      ans (.createRing 7) two sub 0 [] (fun t => decide ((t.ring 98).st = .disabled ∧ (t.ring 98).base = 0x4000 ∧ (t.ring 98).slot = 1)) &&
      ans (.createRing 7) (ten [(3, made)] []) cmp 0 [] (fun t => decide ((t.ring 112).st = .running ∧ (t.ring 112).known = 16)) &&
      ans (.destroyRing 7) usedBy (mcmd 9 [(1, 3 + 2 * 65536)]) 0 [] (fun t => decide (t.ring 98 = {})) &&
      ans (.destroyRing 7) ev (mcmd 9 [(1, 3 + 20 * 65536)]) 0 [] (fun t => decide ((t.ring 116).st = .none)) &&
      ans (.destroyRing 7) usedBy (mcmd 9 [(1, 3 + 16 * 65536)]) 5 [] fun t => decide ((t.ring 112).st = .running)) = true := by decide +kernel

/-- A printer's configuration: one interface of class 7 with a bulk IN and a bulk OUT endpoint. -/
def printerCfg : List Byte :=
  [9, 2, 32, 0, 1, 1, 0, 0x80, 50, 9, 4, 0, 0, 2, 7, 1, 2, 0, 7, 5, 0x81, 2, 64, 0, 0, 7, 5, 0x02, 2, 64, 0, 0]

/-- A parameter table without entries. -/
def noEntries : List Byte := [0x46, 0x58, 0x50, 0x54, 1, 0, 0, 0, 0, 0, 0, 0, 9, 0, 0, 0]

theorem witness_devices_and_ports_follow_commands_devices :
    let on := fun (i : Option Nat) (z : Slot) =>
      ({ rdy with
        host := { rdy.host with insts := [(3, { st := .running, vivMaj := 2, vivMaxMaj := 2, vivMaxMin := 1 })], rings := [(98, { st := .running, slot := 9 })] }
        usb := { rdy.usb with ports := [(5, { st := .enabled, vbus := true })] }
        eng := { rdy.eng with slots := [(9, { z with used := true, served := true, port := 5, addr := 1, speed := .high, config := 1, cfgs := [printerCfg], inst := i })] } } : Sys)
    let c := fun (op : Nat) => mcmd op [(1, 9)]
    let asg := mcmd 0x0C [(1, 9 + 3 * 65536)]
    let opn := mcmd 0x10 [(1, 3 + 2 * 65536), (2, 9), (3, 2)]
    let q := fun (y : Sys) => y.setPg (qcfgAt 0 2).1 (qcfgAt 0 2).2 (Word.ofN (5 * 65536 + 3 * 1048576))
    let cls := mcmd 0x11 [(1, 3 + 2 * 65536), (2, 9)]
    let bulk : Ep := { open_ := true, active := true, ty := .bulk, mps := 64 }
    (asg.clean false [(1, 0x0FFF3FFF)] && decide (((on none {}).slot 9).hubDev = false) &&
      ans (.assignDevice 7) (on none {}) asg 0 [5, 0] (fun t => decide ((t.slot 9).inst = some 3 ∧ (told t).map (·.1) = [1])) &&
      ans (.unassignDevice 7) (on (some 3) {}) (c 0x0D) 0 [] (fun t => decide ((t.slot 9).inst = none ∧ (t.ring 98).st = .orphaned ∧
        (told t).map (·.1) = [2])) &&
      begun (.selectConfig 7) (on none {}) (c 0x0E) (fun t => decide (t.host.decust.cmds = [{ c 0x0E with wait := .request 9 }])) &&
      !(on none {}).needsHid 9 && ((on none {}).slot 9).canUnbind && decide ((on none {}).choose 9 [] = .bind 4 0xFFFF (defPrio 4) (defParams 4)) &&
      (on none {}).versionBinds 9 4 && (on none {}).bindable 9 4 [] &&
      begun (.normalise 7 (.ok [])) (on none {}) (c 0x12) (fun t => decide ((t.slot 9).pers.code = 4 ∧ half (defParams 4) 0 ≠ 0 ∧
        t.host.decust.cmds = [{ c 0x12 with wait := .request 9, res := [Word.ofN 4, Word.ofN 0xFFFF] }])) &&
      ans (.unbind 7) (on none { pers := { code := 4 } }) (c 0x13) 0 [] (fun t => decide ((t.slot 9).pers = {})) &&
      ans (.sealDevice 7) (on none {}) (c 0x14) 0 [] (fun t => (t.slot 9).isSealed) &&
      ans (.sealDevice 7) (on none { pers := { code := 4 } }) (c 0x14) 5 [] (fun t => !(t.slot 9).isSealed) &&
      decide ((on none {}).slotsOf 5 = [9] ∧ (on none {}).slotAt 5 0 = some 9) &&
      begun (.deviceReset 7) (on none {}) (c 0x1B) (fun t => decide (t.host.decust.cmds = [{ c 0x1B with wait := .represent 9 }] ∧
        (t.port 5).st = .queued ∧ t.usb.enums.map (fun e => (e.port, e.tier, e.slot, e.represent)) = [(5, 0, 9, true)])) &&
      decide (((on none {}).slot 9).names 2 = true ∧ ((on none {}).slot 9).epTy 2 = .bulk ∧ qInst ((q (on none {})).qcfgSh 0 2) = 3 ∧
        qPort ((q (on none {})).qcfgSh 0 2) = 5) && opn.clean true [(1, 0x131F0FFF), (2, 0x000F3FFF), (3, 0x000703FF)] &&
      ans (.openEndpoint 7) (q (on (some 3) {})) opn 0 [0] (fun t => decide (((t.slot 9).ep 2).open_ = true ∧ ((t.slot 9).ep 2).queue = 2 ∧
        ((t.slot 9).ep 2).mode = .raw)) &&
      ans (.openEndpoint 7) (q (on (some 3) { isSealed := true })) opn 0 [2] (fun t => decide (((t.slot 9).ep 2).mode = .sealed)) &&
      cls.clean true [(1, 0x001F0FFF), (2, 0x00003FFF)] &&
      ans (.closeEndpoint 7) (on (some 3) { eps := [(2, bulk)] }) cls 0 [] fun t => decide (((t.slot 9).ep 2).open_ = false)) = true := by
  decide +kernel

theorem witness_devices_and_ports_follow_commands_tables :
    let on := fun (pers : Byte) =>
      ({ rdy with
        eng := { rdy.eng with
                 table := [List.replicate 6 0 ++ [pers] ++ List.replicate 57 0]
                 slots := [(9, { used := true, served := true, port := 5, dev := List.replicate 18 0, config := 1, cfgs := [printerCfg] })] } } : Sys)
    let prm := mcmd 0x15 [(3, 16)]
    let ld := dma 24 { st := .active, use := .params, len := 16, req := 16 } (rdy.setPg fwPg 0x250 0x04000000)
    let nd := dec { rdy with usb := { rdy.usb with dcqRsv := 65536 } } prm
    (decide ((on 0xFF).choose 9 [] = .sealIt ∧ (on 0).choose 9 [] = .none_) && !(on 0xFF).needsHid 9 && !(on 0).needsHid 9 &&
      ans (.normalise 7 (.ok [])) (on 0xFF) (mcmd 0x12 [(1, 9)]) 0x0A [] (fun t => (t.slot 9).isSealed) &&
      ans (.normalise 7 (.ok [])) (on 0) (mcmd 0x12 [(1, 9)]) 5 [] (fun t => decide (t.slot 9 = (on 0).slot 9)) &&
      decide (readTable noEntries = some (9, []) ∧ readTable (noEntries.take 12) = none) &&
      (st nd).operates && nd.decStarts prm && !nd.dcqFree && decide (nd.hostCarrier .params = none) && gives (.loadParams 7 (.poison [])) nd nd &&
      decide (ld.hostCarrier .params = some 24) && ans (.loadParams 7 (.poison [])) ld prm 0x10 [] (fun t => decide (t.eng.tableId = 0)) &&
      ans (.loadParams 7 (.ok noEntries)) ld prm 0 [9, 0] (fun t => decide (t.eng.tableId = 9 ∧ t.eng.table = [] ∧ t.pgReg fwPg 0x254 = 1)) &&
      ans (.loadParams 7 (.ok (noEntries.take 12))) ld prm 0x0F [] fun t => decide (t.eng.table = [] ∧ t.eng.tableId = 0)) = true := by decide +kernel

theorem witness_devices_and_ports_follow_commands_ports :
    let en := fun (u : SuspSt) => onPort 5 { st := .enabled, vbus := true, susp := u } { sof := true }
    let bq := mcmd 0x20 [(1, 2 * 65536), (2, 3 + 5 * 65536), (3, 1)]
    let live := fun (pool : Bool) => ({ rdy with host := { rdy.host with insts := [(3, { st := .running, pool := pool })] } } : Sys)
    let lockd := (live true).stage (qcfgAt 0 2).1 (qcfgAt 0 2).2 (Word.ofN (1 + 3 * 1048576))
    let w := rdy.updPort 5 fun q => { q with prof := rdy.nvProfile 5 }
    ((mcmd 0x18 [(1, 0x105)]).clean false [(1, 0x77F), (2, 0xFFFFFFFF)] && decide ((rdy.nvProfile 5).bit 0 = false ∧
        w.firstBroken 5 0 (baseMa (rdy.nvProfile 5)) = none) &&
      ans (.portCmd 7) rdy (mcmd 0x18 [(1, 0x105)]) 0 [1] (fun t => decide ((t.port 5).st = .powered)) &&
      ans (.portCmd 7) (en .active) (mcmd 0x18 [(1, 0x105)]) 5 [] (fun t => decide ((t.port 5).st = .enabled)) &&
      begun (.suspend 7) (en .active) (mcmd 0x19 [(1, 0x105)]) (fun t => decide ((t.port 5).susp = .suspending ∧ (t.port 5).rwEn = true ∧
        t.host.decust.cmds = [{ mcmd 0x19 [(1, 0x105)] with wait := .suspended 5 0 }])) &&
      ans (.suspend 7) (en .suspended) (mcmd 0x19 [(1, 5)]) 0 [] (fun t => decide ((t.port 5).susp = .suspended)) &&
      ans (.resume 7) (en .active) (mcmd 0x1A [(1, 5)]) 0 [0] (fun t => decide ((t.port 5).susp = .active)) &&
      begun (.resume 7) (en .suspended) (mcmd 0x1A [(1, 5)]) (fun t => decide ((t.port 5).susp = .resuming ∧ .bus 5 .resumeK ∈ t.out)) &&
      bq.clean true [(1, 0x03FF0007), (2, 0x000F0FFF), (3, 0x00003FFF)] &&
      ans (.bindQueue 7) (live false) bq 0 [] (fun t => decide (t.qcfgSh 0 2 = Word.ofN (1 + 5 * 65536 + 3 * 1048576) ∧
        t.stagedPend (qcfgAt 0 2).1 = true)) &&
      decide (rdy.lockRefuses = none ∧ lockd.lockRefuses = some 3) &&
      begun (.commit 7) rdy (mcmd 0x22 [(15, 77)]) (fun t => decide (t.host.commitBusy = true ∧ t.host.commitGen = 77 ∧
        t.host.decust.cmds = [{ mcmd 0x22 [(15, 77)] with wait := .commitDone, res := [77] }])) &&
      ans (.commit 7) lockd (mcmd 0x22 [(15, 77)]) 0x0B [77] fun t => decide (t.host.commitBusy = false ∧ (t.pgReg tenPg 0x18).fld 8 8 = 1)) = true := by
  decide +kernel

theorem witness_messages_are_posted_and_freed_tenant :
    let on := fun (n : Inst) => ({ rdy with pins := { rdy.pins with pasidEn := true }, host := { rdy.host with insts := [(3, n)] } } : Sys)
    let r : Inst := { st := .running, vivMaj := 2, vec := 4 }
    let busyUp := on { r with up := { go := true } }
    let locked := on { r with lock := 17 }
    let mine := on { r with lock := 18 }
    let core := fun (y : Sys) =>
      ({ y with eng := { y.eng with cores := [(2, { st := .idle })] } } : Sys)
    let hello := core (on { st := .created, agent := true, vivMaxMaj := 2, vivMaxMin := 0,
                            up := { go := true, len := 3, data := [(0, 0x90001), (1, 0x02000100)] } })
    let pend := on { r with msgs := [(1, { lo := 0x100, data := 7, pend := true })] }
    ((st (on r)).serves .tenant && (on r).instLets 3 0x2000 && gives (.tmbPost 3 .tenant 4) busyUp busyUp && (on r).unarmed (tmbPg 3) &&
      (does (.tmbPost 3 .tenant 4) (on r) fun t => decide ((t.inst 3).up.go = true ∧ (t.inst 3).up.len = 4 ∧ t.host.decust.events.length = 1)) &&
      (on r).instLets 3 0x2080 && (does (.tmbFree 3 .tenant) (on { r with dn := { go := true } }) fun t => decide ((t.inst 3).dn.go = false)) &&
      (on r).pageLets .manager (tmbPg 3) 0xC0 false && (does (.tmbPost 3 .manager 16) mine fun t => decide ((t.inst 3).dn.go = true ∧
        (t.inst 3).dn.sender = 18 ∧ (told t).map (·.1) = [0xB])) &&
      (does (.tmbPost 3 .manager 16) locked fun t => decide ((t.inst 3).dn.go = false ∧ (t.pgReg (tmbPg 3) 0x18) = 256)) &&
      (core (on r)).pageLets (.core 2) (tmbPg 3) 0xC0 false && (does (.tmbPost 3 (.core 2) 1) (core (on r)) fun t => decide ((t.inst 3).dn.sender = 3)) &&
      busyUp.pageLets .manager (tmbPg 3) 0x40 false && (does (.tmbFree 3 .manager) busyUp fun t => decide ((t.inst 3).up.go = false)) &&
      (on r).pageLets .manager (tmbPg 3) 0x144 true && (does (.tmbDnLockAcquire 3 .manager) (on r) fun t => decide ((t.inst 3).lock = 18)) &&
      (does (.tmbDnLockAcquire 3 .manager) locked fun t => decide ((t.inst 3).lock = 17 ∧ t.out = [.cpl .manager ((tmbPg 3).base + 0x144) 17])) &&
      (on r).pageLets .manager (tmbPg 3) 0x144 false && (does (.tmbDnLockRelease 3 .manager) mine fun t => decide ((t.inst 3).lock = 0)) &&
      gives (.tmbDnLockRelease 3 .manager) locked locked &&
      hello.toAgent 3 (hello.inst 3).up && decide (hello.liveCores = [2] ∧ hello.vivelFor 3 (1, 0) (2, 0) = some (2, 0) ∧ hello.isRet 16 = false) &&
      (does (.vivelHello 3) hello fun t => decide ((t.inst 3).st = .running ∧ (t.inst 3).vivMaj = 2 ∧ (t.inst 3).up.go = false ∧
        (t.inst 3).dn.go = true ∧ (t.inst 3).dn.len = 3 ∧ FMap.get 0 0 (t.inst 3).dn.data = 0x90002 ∧
        FMap.get 0 1 (t.inst 3).dn.data = 0x20000 ∧ t.host.evq.map (·.ev.ty) = [0xB])) &&
      (on r).instLets 3 0x301C && (does (.msgUnmask 3 1) (on r) fun t => decide ((FMap.get {} 1 (t.inst 3).msgs).mask = false ∧ t.out = [])) &&
      (does (.msgUnmask 3 1) pend fun t => decide ((FMap.get {} 1 (t.inst 3).msgs).sent = 1 ∧ t.out = [.msg ⟨3, 0, false, false⟩ 0x100 7]))) = true := by decide +kernel

theorem witness_messages_are_posted_and_freed_internal :
    let bx := fun (c : Mbx) => ({ rdy with eng := { rdy.eng with mbx := [(6, c)], cores := [(2, { st := .idle })] } } : Sys)
    let pend := { rdy with host := { rdy.host with msixPend := [(9, true)] } }
    let z := pend.setReg (0xFE00C + 16 * 9) 1
    ((st z).serves .manager && z.pageLets .manager (onePg .hst 0) 0x40 false && (does (.msixUnmask 9) z fun t => decide (t.reg (0xFE00C + 16 * 9) = 0 ∧
        t.host.msixPend = [] ∧ t.out = [.msix 9])) && (does (.msixUnmask 10) rdy fun t => decide (t.out = [])) &&
      (st rdy).serves (masterWin 17) && (bx { recv := 18 }).reaches 6 17 0 false && (bx { recv := 18 }).reaches 6 3 0 false &&
      (bx { recv := 18 }).reaches 6 18 4 true && (bx { recv := 18 }).unarmed (mbxPg 6) &&
      (does (.mbxPost 6 3 16) (bx { recv := 18 }) fun t => decide ((t.mbx 6).ch.go = true ∧ (t.mbx 6).ch.sender = 3 ∧ (t.mbx 6).ch.len = 16)) &&
      (does (.mbxPost 6 18 1) (bx { recv := 18, lock := 18 }) fun t => decide ((t.mbx 6).ch.go = false ∧ t.pgReg (mbxPg 6) 0x18 = 16)) &&
      (does (.mbxFree 6 18) (bx { recv := 18, ch := { go := true } }) fun t => decide ((t.mbx 6).ch.go = false)) &&
      (does (.mbxFree 6 17) (bx { recv := 18, ch := { go := true } }) fun t => decide ((t.mbx 6).ch.go = true ∧ t.pgReg (mbxPg 6) 0x18 = 16)) &&
      (does (.mbxLockAcquire 6 17) (bx { recv := 18 }) fun t => decide ((t.mbx 6).lock = 17)) &&
      (does (.mbxLockAcquire 6 17) (bx { recv := 18, lock := 3 }) fun t => decide ((t.mbx 6).lock = 3)) &&
      (does (.mbxLockRelease 6 17) (bx { recv := 18, lock := 17 }) fun t => decide ((t.mbx 6).lock = 0)) &&
      gives (.mbxLockRelease 6 17) (bx { recv := 18, lock := 3 }) (bx { recv := 18, lock := 3 })) = true := by decide +kernel

theorem witness_items_run_on_cores :
    let cpg := corePg 2
    let it := fun (n : Nat) => internalItem .result 8193 0 |> fun i => { i with seq := n }
    let e := fun (k : Core) (h : Holly) =>
      let y : Sys := { rdy with eng := { rdy.eng with cores := [(2, k)], holly := h } }
      (y.setPg cpg 0x40 2).setPg wscPg 0x4C 10
    let run : Core := { st := .running, cur := some (it 1), slots := [it 2] }
    let one := e { st := .idle } { items := [it 3, it 4] }
    let two := e run { items := [it 3] }
    let stuck := e { st := .halted } { items := [it 3] }
    let dl := fun (x : List Delay) => (e { st := .idle } { delays := [{ due := 0, flow := 8193, prio := 0, seq := 1, list := 1 }], expired := x }).setPg wscPg 0x90 1
    let cache := fun (x : List Nat) => ({ rdy with eng := { rdy.eng with slots := [(9, { used := true })], dcx := x } } : Sys)
    (one.hollyWorks && one.unarmed wscPg && decide ((one.coreOrder.find? fun c => one.coreTakes c && (one.candidate c).isSome) = some 2 ∧
        one.candidate 2 = some (it 3)) &&
      (does .itemDispatch one fun t => decide (t.core 2 = { st := .running, cur := some (it 3) } ∧ t.eng.holly.items = [it 4] ∧ t.eng.holly.rot = 2)) &&
      (does .itemDispatch two fun t => decide ((t.core 2).slots = [it 2, it 3])) &&
      two.coreActs 2 && (does (.itemEnd 2) two fun t => decide ((t.core 2).cur = some (it 2) ∧ (t.core 2).slots = [] ∧ t.pgReg cpg 0x50 = 1)) &&
      (does (.itemEnd 2) (e { run with slots := [] } {}) fun t => decide ((t.core 2).st = .idle)) &&
      gives (.watchdogExpiry 2) one one && (does (.watchdogExpiry 2) two fun t => decide ((t.core 2).st = .idle ∧ (t.core 2).cause = 2 ∧
        (t.core 2).slots = [] ∧ it 2 ∈ t.eng.holly.items ∧ (t.pgReg wscPg 0x18).bit 9 = true)) &&
      (st two).serves .manager && two.pageLets .manager cpg 0x40 false && (does (.coreReset 2) two fun t => decide ((t.core 2).st = .idle ∧
        (t.core 2).cause = 1 ∧ it 2 ∈ t.eng.holly.items ∧ (t.pgReg cpg 0x50).fld 23 16 = 1)) &&
      (does (.coreReset 2) stuck fun t => decide ((t.core 2).st = .starting)) &&
      (e { st := .starting } {}).on 20 && !(e { st := .starting } {}).sramPoison 0x400000 0x200000 &&
      (does (.coreReloadEnd 2 false) (e { st := .starting } {}) fun t => decide ((t.core 2).st = .idle)) &&
      !(e { st := .starting } {}).contain.chipFault &&
      (stuck.setPg cpg 0x40 0).allStopped && (stuck.setPg cpg 0x40 0).hollyWorks &&
      !one.allStopped && gives .allStoppedExpiry one one && (dl []).iCan &&
      (does (.delayTick 1) (dl []) fun t => decide (t.eng.holly.delays = [] ∧ t.eng.holly.items.map (fun i => (i.flow, i.prio, i.seq)) = [(8193, 0, 0)])) &&
      !((dl []).setPg wscPg 0x40 0).iCan && (does (.delayTick 1) ((dl []).setPg wscPg 0x40 0) fun t =>
        decide (t.eng.holly.delays = [] ∧ t.eng.holly.expired.map (·.flow) = [8193])) &&
      (cache [4, 9]).hollyWorks && gives (.deviceContextFetch 9) (cache [4, 9]) (cache [9, 4]) &&
      decide ((cache [9, 4]).epCached ≤ 16384) && (does (.deviceContextFetch 9) (cache [4]) fun t => decide (t.eng.dcx = [9, 4] ∧
        (t.pgReg wscPg 0x88).fld 31 16 = 1))) = true := by decide +kernel

theorem witness_interrupt_sources_are_delivered :
    let cic := onePg .cic 0
    let e := fun (cfg : Word) (n : Nat) (z : CSrc) (k : Core) =>
      let y : Sys := { rdy with eng := { rdy.eng with cores := [(2, k), (1, { st := .running })], cic := { src := [(n, z)] } } }
      (y.setPg (onePg .cic (2 + n / 256)) (0x40 + 4 * (n % 256)) cfg).setPg (corePg 2) 0x40 0x0E
    let norm := e 0x40001 14 {} { st := .idle }
    let fast := e 0x40007 14 {} { st := .idle }
    let insN := e 0x40001 14 { lvl := true, insv := some (2, false) } { st := .idle, nsrc := some 14 }
    let insF := e 0x40007 14 { lvl := true, pend := true, insv := some (2, true) } { st := .idle, fsrc := some 14 }
    let held := e 0x40001 14 { insv := some (2, false) } { st := .idle, nsrc := some 14, nclaimed := true }
    let heldF := e 0x40007 14 { insv := some (2, true) } { st := .idle, fsrc := some 14, fclaimed := true }
    let edge := e 0x40004 66 { pend := true } { st := .idle }
    let lets := fun (y : Sys) (p o : Nat) (r : Bool) => y.pageLets (.core 1) (onePg .cic p) o r
    (decide ((norm.dom 17).st ≠ .off ∧ norm.halted cic = false ∧ srcReal 14 = true ∧ srcDom 14 = 63) && norm.unarmed cic &&
      decide (firstMax (fun c => (norm.core c).wprio) ((coresAfter norm.eng.cic.rotN).filter (norm.eligible 14)) = some 2) &&
      (does (.cicSourceAssert 14) norm fun t => decide ((t.csrc 14).lvl = true ∧ (t.csrc 14).insv = some (2, false) ∧ (t.core 2).nsrc = some 14)) &&
      (does (.cicSourceAssert 14) fast fun t => decide ((t.csrc 14).pend = true ∧ (t.csrc 14).insv = some (2, true) ∧ (t.core 2).fsrc = some 14)) &&
      (does (.cicSourceRelease 14) insN fun t => decide ((t.csrc 14).lvl = false)) &&
      lets insN 0 0x88 true && insN.requests 14 && (does (.cicClaim (.core 1) 2) insN fun t => decide (t.out = [.cpl (.core 1) 0x920088 14] ∧
        (t.core 2).nclaimed = true ∧ (t.csrc 14).pend = false)) &&
      (does (.cicClaim (.core 1) 2) norm fun t => decide (t.out = [.cpl (.core 1) 0x920088 511] ∧ (t.pgReg cic 0x184).fld 15 0 = 1)) &&
      lets insF 1 0x88 true && insF.requests 14 && (does (.cicFclaim (.core 1) 2) insF fun t => decide (t.out = [.cpl (.core 1) 0x921088 14] ∧
        (t.core 2).fclaimed = true ∧ (t.csrc 14).pend = false)) &&
      (does (.cicFclaim (.core 1) 2) norm fun t => decide (t.out = [.cpl (.core 1) 0x921088 511])) &&
      lets held 0 0xC8 false && lets heldF 1 0xC8 false && decide (∀ e ∈ held.eng.cic.src, held.requests e.1 = false) &&
      decide (∀ e ∈ heldF.eng.cic.src, heldF.requests e.1 = false) &&
      (does (.cicComplete (.core 1) 2 14) held fun t => decide ((t.csrc 14).insv = none ∧ (t.core 2).nsrc = none)) &&
      (does (.cicFcomplete (.core 1) 2 14) heldF fun t => decide ((t.csrc 14).insv = none ∧ (t.core 2).fsrc = none)) &&
      (does (.cicComplete (.core 1) 2 14) norm fun t => decide (t.pgReg cic 0x18 = 256)) &&
      (does (.cicFcomplete (.core 1) 2 14) held fun t => decide (t.pgReg cic 0x18 = 256)) &&
      lets edge 0 0x180 false && (does (.cicSwi (.core 1) 2) edge fun t => decide ((t.csrc 66).pend = true)) &&
      lets edge 0 0x108 false && (does (.cicPendClear (.core 1) 66) edge fun t => decide ((t.csrc 66).pend = false)) &&
      (st insN).serves .manager && insN.pageLets .manager cic 0x88 true && insN.pageLets .manager cic 0x180 false && insN.pageLets .manager cic 0xC8 false &&
      (does (.cicClaim .manager 2) insN fun t => decide (t.out = [.cpl .manager 0x920088 14] ∧ (t.core 2).nclaimed = false)) &&
      (does (.cicSwi .manager 2) insN fun t => decide ((t.csrc 66).pend = false ∧ t.pgReg cic 0x18 = 16)) &&
      does (.cicComplete .manager 2 14) held fun t => decide ((t.csrc 14).insv = some (2, false) ∧ t.pgReg cic 0x18 = 16)) = true := by decide +kernel

theorem witness_power_and_perst_bring_the_chip_up :
    let dark : Sys := {}
    let held : Sys := { pins := { perst := true, railen := true, railpg := true } }
    let up : Sys := { pins := { perst := false, railen := true } }
    let lost : Sys := { pins := { perst := true, railpg := true, needPerst := true } }
    let cold : Sys := { doms := [(16, { st := .on }), (17, { st := .on })], pins := { perst := false, railen := true, railpg := true } }
    (!smbBad (rdy.nv.last 284) && !smbBad (dark.nv.last 284) && (does (.powerOnResetEnd true false) cold fun t => decide (t.doms = [] ∧ t.pins = { compat := true })) &&
      (st rdy).operates && !rdy.jtag.test && rdy.pins.railen && decide (dark.pins.railen = false ∧ dark.jtag.test = false) &&
      (does .railpgLoss dark fun t => decide (t = dark)) && (does .railpgGood up fun t => t.on 16 && t.on 17 && t.pins.railpg) &&
      (does .perstDeassert { held with pins := { held.pins with railen := false } } fun t => t.on 16 && t.on 17 && t.pins.railen) &&
      (does .perstDeassert lost fun t => decide (t.doms = [] ∧ t.pins.perst = false ∧ t.pins.railen = false)) &&
      decide (cold.hostOn = true ∧ cold.ldr.phase = .notReady) && (does .loaderWindowReady cold fun t => decide (t.ldr.phase = .loading))) = true := by
  decide +kernel

theorem witness_the_image_is_written_and_run :
    let ph := fun (p : Phase) => ({ rdy with ldr := { phase := p }, eng := { rdy.eng with sram := { cells := [(0, 1), (1, 2), (2, 3), (3, 4)] } } } : Sys)
    let ld := ((ph .loading).setPg ldrPg 0x68 0x80000004).setPg ldrPg 0x6C 1
    let copy : List Word := [1, 0x100, 2, 0x8000, 0, 0, 0, 0]
    let bad : List Word := [1, 0x600000, 2, 0x8000, 0, 0, 0, 0]
    ((st (ph .loading)).serves .loader && (ph .loading).imageLets && (ph .verifying).imageLets && (ph .loading).unarmed (onePg .wsc 0) &&
      (does (.imageWrite 0x10 [some 5, none, some 6]) (ph .loading) fun t => decide (t.sramByte 0x10 = 5 ∧ t.sramByte 0x12 = 6)) &&
      (does (.imageWrite 0 [some 1]) (ph .verifying) fun t => decide (t.sramByte 0 = 1 ∧ t.sramByte 1 = 2 ∧ t.pgReg ldrPg 0x18 = 16)) &&
      (ph .loading).pageLets .loader ldrPg 0x40 false &&
      decide ((ph .loading).ldqUsed = 0 ∧ ld.ldqUsed = 1) && (does (.ldrGo 0x4F47) (ph .loading) fun t => decide (t.ldr.phase = .verifying ∧ t.pgReg ldrPg 0x58 = 1)) &&
      (does (.ldrGo 0x4F48) (ph .loading) fun t => decide (t.ldr.phase = .loading ∧ t.pgReg ldrPg 0x18 = 8)) &&
      (does (.ldrGo 0x4F47) (ph .starting) fun t => decide (t.ldr.phase = .starting ∧ t.pgReg ldrPg 0x18 = 8)) &&
      (does (.ldrGo 0x4F47) (ph .ready) fun t => decide (t.pgReg ldrPg 0x18 = 16)) &&
      ld.ldqTakes && !ld.halted ldrPg && ld.unarmed (onePg .wsc 0) && !copyBad copy && copyBad bad &&
      decide ((ld.hostLong 16 .image (lohi (copy.getD 3 0) (copy.getD 4 0)) 2).hostCarrier .image = some 16) &&
      (does (.ldqCopy copy (.ok [7, 8])) ld fun t => decide (t.sramByte 0x100 = 7 ∧ t.sramByte 0x101 = 8 ∧ t.pgReg ldrPg 0x70 = 1)) &&
      (does (.ldqCopy bad .ur) ld fun t => decide (t.out = [.mem none false false 24 (dwBytes [(2 : Word)])] ∧ t.pgReg ldrPg 0x70 = 1)) &&
      (does (.ldqGo [2]) ld fun t => decide (t.ldr.phase = .verifying ∧ t.ldr.go = true)) &&
      (ph .verifying).inPhase .verifying && decide (verdict (ph .verifying).sramByte (ph .verifying).ldr.hash = 0x10) &&
      (does (.verificationEnd 9 false) (ph .verifying) fun t => decide (t.ldr.phase = .loading ∧ t.ldr.result = 0x10 ∧ t.ldr.verifyMs = 9)) &&
      (does (.verificationEnd 9 true) (ph .verifying) fun t => decide (t.ldr.result = 0x32)) &&
      (does (.verificationEnd 9 false) { ph .verifying with eng := { (ph .verifying).eng with sram := { poison := [31] } } } fun t =>
        decide (t.ldr.result = 0x32)) &&
      (ph .starting).inPhase .starting && does (.managerReady 77) (ph .starting) fun t => decide (t.ldr.phase = .ready ∧ t.ldr.startMs = 77)) = true := by
  decide +kernel

theorem witness_domains_change_state :
    let one := fun (d : Nat) (m : Dom) => ({ rdy with doms := FMap.put {} d m rdy.doms } : Sys)
    let req := fun (d : Fin 64) (v : Fin 4) (y : Sys) (P : Dom → Bool) =>
      (st y).serves .manager && y.pageLets .manager snw0 0x40 false && does (.domainRequest .manager d v) y fun t => P (t.dom d)
    let boot : Sys := { rdy with ldr := { phase := .loading } }
    let child := one 20 { st := .off }
    let busy : Sys := { rdy with eng := { rdy.eng with cores := [(2, { st := .running, cur := some {} })] } }
    let cal : Sys := { one 9 { trans := .exit } with mari := { rdy.mari with uncal := [(1, true)] } }
    let doze := one 8 { st := .ret }
    (req 40 0 rdy (fun _ => true) && (does (.domainRequest .manager 40 0) rdy fun t => decide (t.pgReg snw0 0x18 = 8)) &&
      req 20 0 boot (fun m => decide (m.st = .on ∧ m.refused = 1 ∧ m.rsn = 0x80000011)) &&
      req 16 0 rdy (fun m => decide (m.st = .on ∧ m.rsn = 0x80000014)) &&
      req 20 2 rdy (fun m => decide (m = { st := .on, reqs := 1 })) &&
      req 20 2 child (fun m => decide (m.trans = .exit ∧ m.st = .off)) && decide (domParent 20 = some 17 ∧ child.on 17 = true) &&
      decide (rdy.entryRefused 17 .off = some { reason := 5, who := wscPg }) && req 17 0 rdy (fun m => decide (m.st = .on ∧ m.rsn = 0x80000015)) &&
      decide (rdy.entryRefused 20 .off = none ∧ domChildren 20 = []) && req 20 0 rdy (fun m => decide (m.trans = .quiesce .off)) &&
      req 20 2 (one 20 { st := .on, trans := .quiesce .off }) (fun m => decide (m.target = some (.on, 0))) &&
      (one 20 { st := .on, trans := .quiesce .off }).drained 20 &&
      (does (.quiesceDrainEnd 20) (one 20 { st := .on, trans := .quiesce .off }) fun t => decide ((t.dom 20).trans = .commit .off)) &&
      decide (((one 20 { st := .on, trans := .quiesce .off }).dom 17).trans = .none) &&
      gives (.drainTimeout 20) (one 20 { st := .on, trans := .quiesce .off }) (one 20 { st := .on, trans := .quiesce .off }) &&
      (does (.drainTimeout 20) { one 20 { st := .on, trans := .quiesce .off } with eng := busy.eng } fun t => decide ((t.dom 20).st = .on ∧ (t.dom 20).aborted = 1)) &&
      (does (.domainTransitionEnd 9) (one 9 { st := .on, trans := .commit .ret }) fun t => decide ((t.dom 9).st = .ret)) &&
      (does (.domainTransitionEnd 20) (one 20 { st := .on, trans := .commit .off }) fun t => decide ((t.dom 20).st = .off ∧ (t.core 2).cause = 4)) &&
      !busy.drained 20 && gives (.quiesceDrainEnd 20) busy busy && cal.calibrating 9 && gives (.domainTransitionEnd 9) cal cal &&
      (does (.domainTransitionEnd 1) (one 1 { st := .on, trans := .commit .off }) fun t => decide ((t.dom 1).st = .off)) &&
      decide ((one 20 { trans := .exit }).calibrating 20 = false) && (does (.domainTransitionEnd 20) (one 20 { trans := .exit }) fun t => t.on 20) &&
      decide (rdy.latchOf (.line 0) = none ∧ doze.latchOf (.line 0) = some (0, latchTo 0)) && gives (.wakeLatch (.line 0)) rdy rdy &&
      (does (.wakeLatch (.line 0)) (doze.setPg (onePg .snw 1) 0x40 1) fun t => decide ((t.dom 8).trans = .exit ∧ (t.dom 8).wakes = 1 ∧
        (t.pgReg (onePg .snw 1) 0x48).bit 0 = true ∧ (t.csrc 256).lvl = true)) &&
      (does (.wakeLatch .tmbGo) ((one 16 { st := .ret }).setPg (onePg .snw 1) 0x44 8) fun t => t.pins.pmeStatus) &&
      gives .d3hotEntry (one 16 {}) (one 16 {}) && gives .d0Entry (one 16 {}) (one 16 {}) &&
      (does .d3hotEntry rdy fun t => decide (t.pins.d3hot = true ∧ (t.dom 16).trans = .quiesce .ret)) &&
      does .d0Entry (one 16 { st := .ret }) fun t => decide (t.pins.d3hot = false ∧ (t.dom 16).trans = .exit)) = true := by decide +kernel

theorem witness_maintenance_units_run :
    let mr := fun (m : Mari) => ({ rdy with mari := m } : Sys)
    let hi : Sys := { mr { wait := [{ u := .scrub 2 0, since := 0 }, { u := .cal 16, since := 0 }] } with usb := { rdy.usb with ports := [(16, { st := .powered, vbus := true })] } }
    let dead := { mr { wait := [{ u := .scrub 2 0, since := 0 }] } with contain := { rdy.contain with halted := [((mntPg 0).haltKey, true)] } }
    let scr := fun (k : Nat) => mr { run := [.scrub k 7] }
    let off := { rdy with doms := FMap.put {} 20 {} rdy.doms }
    let cal := mr { run := [.cal 17], calLeft := [(17, 3)] }
    let dfr := fun (b : Bool) => mr { wait := [{ u := .cal 17, since := 0, counted := b }] }
    ((st rdy).operates && dead.halted (mntPg 0) && gives .marigoldUnitStart dead dead && gives .marigoldUnitStart rdy rdy &&
      !hi.halted (mntPg 0) && hi.unitAble (.scrub 2 0) && (does .marigoldUnitStart (mr { wait := [{ u := .scrub 2 0, since := 0 }] }) fun t =>
        decide (t.mari.run = [.scrub 2 0] ∧ t.mari.wait = [])) &&
      gives (.wearMigrationEnd 1023 0) rdy rdy && (does (.wearMigrationEnd 1023 0) { mr { run := [.wear 1023] } with nv := { want := [1023], taken := 63 } } fun t =>
        decide (t.nv.taken = 64 ∧ t.nv.spare = [(1023, 64)] ∧ t.nv.want = [] ∧ t.mari.run = [])) &&
      decide (FMap.get false 2 rdy.mari.scrubDone = false ∧ scrubLen 2 = 4096) && (does (.scrubLineDue 2) rdy fun t => decide (t.mari.scrubLine = [(2, 1)])) &&
      gives (.scrubLineDue 2) off off && decide ((scr 2).scrubRun 2 = some 7 ∧ (scr 16).scrubRun 16 = some 7) &&
      (does (.scrubUnitEnd 2 3 0) (scr 2) fun t => decide (t.mari.run = [] ∧ t.pgReg (mntPg 1) 0x44 = 3 ∧ t.pgReg (corePg 2) 0x18 = 1)) &&
      (does (.scrubUnitEnd 16 0 0) (scr 16) fun t => decide (t.pgReg wscPg 0x18 = 0)) &&
      (does (.scrubUnitEnd 2 0 1) (scr 2) fun t => decide ((t.core 2).st = .halted ∧ t.pgReg (mntPg 1) 0x44 = 0x10000)) &&
      rdy.on (memDom 16) && (does (.scrubPeriodEnd 16) (mr { scrubDone := [(16, true)] }) fun t => decide (t.mari = {})) &&
      (does (.scrubPeriodEnd 16) rdy fun t => decide (t.pgReg (mntPg 0) 0x18 = 256)) &&
      rdy.on 9 && (does (.calPeriodExpiry 1) rdy fun t => decide (FMap.get 0 31 t.mari.calLeft = 5 ∧ FMap.get 0 32 t.mari.calLeft = 0)) &&
      gives (.fullCalibrationEnd 1) rdy rdy && (does (.fullCalibrationEnd 1) (mr { uncal := [(1, true)] }) fun t => decide (t.mari.uncal = [])) &&
      gives (.calStepEnd 17 true) rdy rdy && (does (.calStepEnd 17 true) cal fun t => decide (t.mari.calLeft = [(17, 2)] ∧ t.pgReg (mntPg 0) 0x18 = 512 ∧
        t.mari.wait.map (·.u) = [.cal 17] ∧ t.pgReg (mntPg 2) 0x44 = 1)) &&
      gives (.calDeferExpiry 17) (dfr true) (dfr true) && (does (.calDeferExpiry 17) (dfr false) fun t => decide (t.mari.wait = (dfr true).mari.wait ∧
        t.pgReg (mntPg 2) 0x44 = 0x10000))) = true := by decide +kernel

theorem witness_telemetry_samples_and_reports :
    let mr := fun (m : Mari) => ({ rdy with mari := m } : Sys)
    let lim := List.replicate 47 (0x7FFF8000 : Word)
    let tel := fun (d : Nat) => MUnit.tel d lim [] 0
    let one := mr { run := [tel 5], telNext := 6 }
    let hot := mr { run := [tel 5], telNext := 6, temps := [541] }
    let last := mr { run := [tel 1000], telNext := 1001 }
    let dead := { rdy with contain := { rdy.contain with halted := [((mntPg 0).haltKey, true)] }, mari := { temps := [541] } }
    let q := (rdy.setPg (mntPg 3) 0x48 4).setPg (mntPg 3) 0x4C 2
    (!rdy.halted (mntPg 0) && !rdy.halted (monPg 0) && (does .telDue rdy fun t => decide (t.tb = 1000 ∧ t.mari.telNext = 2 ∧ t.mari.wait.length = 1)) &&
      dead.halted (mntPg 0) && (does .telDue dead fun t => decide (t.mari.wait = [] ∧ t.tb = 1000)) &&
      rdy.monWorks && !dead.monWorks && dead.tooHot (List.replicate 47 541) && !dead.tooHot (List.replicate 47 100) &&
      (does (.telUnitEnd (List.replicate 47 100)) dead fun t => decide (t.mari.temps = List.replicate 13 100 ∧ t.mari.nSamples = 0)) &&
      gives (.telUnitEnd (List.replicate 47 100)) rdy rdy && one.monWorks && last.monWorks && hot.monWorks && decide (one.telRun = some (tel 5) ∧ last.telRun = some (tel 1000) ∧ hot.telRun = some (tel 5)) &&
      !one.tooHot (List.replicate 47 100) && one.on 17 && hot.tooHot (List.replicate 47 541) && !hot.tooHot (List.replicate 47 540) &&
      decide (last.mari.winStart + last.mari.winLen = 1000 ∧ hot.mari.tripped = false) &&
      (does (.telUnitEnd (List.replicate 47 100)) one fun t => decide (t.mari.nSamples = 1 ∧ FMap.get 0 12 t.mari.sample = 100 ∧ FMap.get 0 46 t.mari.cnts = 1)) &&
      (st q).serves .manager && q.pageLets .manager (mntPg 3) 0x50 false && decide (q.tlqSize = 16 ∧ inUse 16 2 3 = 65535 ∨ 16 < inUse 16 2 3) &&
      (does (.tlqCiWrite 3) q fun t => decide (t.pgReg (mntPg 3) 0x50 = 0 ∧ t.pgReg (mntPg 3) 0x18 = 8)) &&
      (does (.tlqCiWrite 2) q fun t => decide (t.pgReg (mntPg 3) 0x50 = 2 ∧ t.pgReg (mntPg 3) 0x18 = 0)) &&
      rdy.pageLets .manager (onePg .snw 2) 0x40 true && (does (.tbMfRead .manager) { rdy with tb := 260 } fun t =>
        decide (t.out = [.cpl .manager 0xA02040 2] ∧ t.pgReg (onePg .snw 2) 0x44 = 10))) = true := by decide +kernel

theorem witness_smbus_target_answers :
    let at_ := fun (p : Nat) => ({ rdy with smb := { ptr := p } } : Sys)
    let b := at_ 0xA00018
    let strict := { rdy with nv := { val := [(284, 0x16A)] } }
    let test := { rdy with jtag := { test := true } }
    let hot := { rdy with mari := { valid := [(0, true), (7, true)], sample := [(0, 5), (7, 300)] } }
    let alert := { rdy with smb := { alert := true } }
    let cnt := onePg .snw 2
    (gives (.smbPtr none none) test test && gives .smbBurst test test && gives .smbSummary test test && gives .smbTimeout test test &&
      (does (.smbPtr none none) rdy fun t => decide (t.out = [.smb (dwBytes [Word.ofN 0xA00000])] ∧ t.pgReg cnt 0x50 = 1)) &&
      (does (.smbPtr (some 0x9FFFFC) none) rdy fun t => decide (t.smb = rdy.smb ∧ t.out = [.smbNak])) &&
      (does (.smbPtr (some 0xAFFFFC) (some true)) rdy fun t => decide (t.smb.ptr = 0xAFFFFC ∧ t.pgReg cnt 0x50 = 1)) &&
      (does (.smbPtr (some 0xB00000) (some true)) rdy fun t => decide (t.smb.ptr = 0xA00000)) && decide ((rdy.nv.last 284).bit 8 = false) &&
      decide ((strict.nv.last 284).bit 8 = true) && (does (.smbPtr (some 0xA00004) none) strict fun t => decide (t.smb.ptr = 0xA00000)) &&
      (does (.smbPtr (some 0xA00004) (some false)) strict fun t => decide (t.smb.ptr = 0xA00000 ∧ t.pgReg cnt 0x50 = 0x10001)) &&
      (does (.smbPtr (some 0xA00004) (some false)) rdy fun t => decide (t.smb.ptr = 0xA00004 ∧ t.pgReg cnt 0x50 = 0x10001)) &&
      decide (target .smbus 0xA00000 = .page (onePg .snw 0) 0 ∧ target .smbus 0xA00018 = .page (onePg .snw 0) 0x18) && b.unarmed (onePg .snw 0) &&
      (does (.smbData none none) rdy fun t => decide (t.smb.ptr = 0xA00004 ∧ t.out = [.smb (dwBytes [(onePg .snw 0).blkId])])) &&
      (does .smbBurst rdy fun t => decide (t.smb.ptr = 0xA00020)) &&
      (does (.smbData (some 0xFF00) (some true)) (b.setPg (onePg .snw 0) 0x18 0x308) fun t => decide (t.pgReg (onePg .snw 0) 0x18 = 8)) &&
      decide (FMap.get false 7 hot.mari.valid = true) && (does .smbSummary hot fun t => decide (t.pgReg cnt 0x50 = 1)) &&
      (does .smbTimeout rdy fun t => decide (t.pgReg cnt 0x50 = 0x10000)) &&
      gives .alertResponse rdy rdy && (does .alertResponse alert fun t => decide (t.smb.alert = false ∧ t.pgReg cnt 0x50 = 1))) = true := by decide +kernel

theorem witness_smbus_target_answers_waits :
    let y : Sys := { rdy with nv := { bufs := [⟨512, 9, false⟩] }, smb := { ptr := ((nvPage 512).base + nvOff 512) } }
    let w : Sys := { y with smb := { y.smb with run := some { n := 1, reg := 512, left := 1, waited := true } } }
    (decide (smbNv (((nvPage 512).base + nvOff 512)) = some 512 ∧ y.nv.before 512 = 1) && gives (.smbData none none) y w && gives .smbBurst w w &&
      (does .smbTimeout w fun t => decide (t.smb.run = none)) &&
      does .nvWriteDurable w fun t => decide (t.smb.run = none ∧ t.out = [.smb [9, 0, 0, 0]])) = true := by decide +kernel

theorem witness_resets_reach_their_scope :
    let snw3 := onePg .snw 3
    let off : Sys := { rdy with doms := [] }
    let busy := { rdy with contain := { rdy.contain with resetting := [(7, true)] } }
    let out := { rdy with nv := { val := [(127, 1)] } }
    let quar := { rdy with contain := { rdy.contain with quar := [(7, true)] } }
    let prg : Pg := ⟨.prg, 7, 0⟩
    (gives .functionReset off off && decide ((rdy.dom 16).st ≠ .off ∧ rdy.ldr.phase ≠ .notReady) &&
      (st busy).serves .manager && busy.pageLets .manager snw3 0x40 false && (does (.regionReset 7) busy fun t => decide (t.pgReg snw3 0x44 = 0x10000)) &&
      rdy.pageLets .manager snw3 0x40 false && decide (rdy.contain.chipFault = false ∧ FMap.get false 7 rdy.contain.resetting = false) &&
      quar.pageLets .manager prg 0x4C false && gives (.portUnitReset 127) quar quar && !out.quar 7 && out.pageLets .manager prg 0x4C false &&
      (does (.portUnitReset 127) (out.setPg (lnkPg 127) 0x18 4) fun t => decide ((t.port 127).st = .off ∧ t.pgReg (lnkPg 127) 0x18 = 0))) = true := by
  decide +kernel

theorem witness_tap_selects_its_registers :
    let held := { rdy with pins := { rdy.pins with perst := true } }
    let test := { held with jtag := { test := true, ir := .extest } }
    let good := { held with pins := { held.pins with railpg := true }, jtag := { bound := [true, false] ++ List.replicate 420 true } }
    let bad := { good with pins := { good.pins with railpg := false } }
    let balls := List.replicate 422 true
    (gives .extest rdy { rdy with jtag := { rdy.jtag with ir := .bypass, bypass := false }, out := [.tdo [false]] } &&
      (does .extest held fun t => decide (t.jtag.test = true ∧ t.jtag.ir = .extest ∧ t.pins.railen = true ∧ (t.dom 7).st = .on)) &&
      (does .extest good fun t => decide (t.out = [.tdo good.jtag.bound])) &&
      (does .extest bad fun t => decide (t.out = [.tdo ([true, false] ++ List.replicate 4 true ++ List.replicate 416 false)])) &&
      (does .clamp held fun t => decide (t.jtag.test = true ∧ t.out = [.tdo [false]])) && (does .highz held fun t => decide (t.jtag.ir = .highz)) &&
      (does .idcode test fun t => decide (t.jtag.test = false ∧ t.pins.railen = false ∧ (t.dom 0).st = .off ∧
        t.out = [.tdo ((List.range 32).map fun i => (0x1F128001#32).getLsbD i)])) &&
      (does .bypass rdy fun t => decide (t.jtag.ir = .bypass ∧ t.out = [.tdo [false]])) &&
      (does .tapReset test fun t => decide (t.jtag.ir = .idcode ∧ t.out = [])) &&
      does (.samplePreload balls) rdy fun t => decide (t.jtag.bound.length = 422 ∧ t.jtag.bound.getD 421 false = true)) = true := by decide +kernel

theorem witness_storage_and_link_faults_are_contained :
    let page := fun (g : Pg) => (⟨g.base / 4096 % 8192, Nat.mod_lt _ (by decide)⟩ : Fin 8192)
    let fits := fun (g : Pg) (y : Sys) => (st y).operates && decide (Pg.ofOff ((page g).val * 0x1000) = some g) && !y.halted g &&
      (g.dom == 63 || (y.dom g.dom).st != .off)
    let cell := fun (g : Pg) (e : CellErr) (d : Fin 65536) (a : Nat) (P : Sys → Bool) => fits g rdy && does (.cellFault (page g) e d a) rdy P
    let nv := { rdy with nv := { val := [(600, 9)] } }
    let off : Sys := { rdy with doms := [] }
    let dead := { rdy with contain := { rdy.contain with halted := [((monPg 0).haltKey, true)] } }
    (decide (Pg.ofOff (0xB00 * 0x1000) = none) && gives (.cellFault 0xB00 .multi 0 0) rdy rdy && gives (.cellFault (page (monPg 0)) .multi 0 0) dead dead &&
      gives (.cellFault (page (corePg 15)) .multi 0 0) off off && secded .frm && cell ⟨.frm, 7, 0⟩ .single 0 0 (fun t => decide (t.pgReg ⟨.frm, 7, 0⟩ 0x18 = 1)) &&
      fits nvsPg nv && (does (.cellFault (page nvsPg) .multi 600 0) nv fun t => decide (t.nv.get 600 = 0 ∧ t.pgReg nvsPg 0x18 = 4)) &&
      cell wscPg .multi 0 0x400008 (fun t => decide (0x400008 / 8 ∈ t.eng.sram.poison)) &&
      cell (fifPg 127) .multi 0 0 (fun t => decide (t.regs = [])) &&
      cell (corePg 15) .multi 3 0 (fun t => decide ((t.core 15).st = .halted ∧ t.pgReg (corePg 15) 0x18 = 4)) &&
      cell (monPg 0) .multi 0 0 (fun t => t.halted (monPg 0)) && fits (onePg .snw 0) rdy &&
      gives (.pcieReceiveError .receiver) off off && decide ((rdy.dom 16).st ≠ .off) && rdy.unarmed (onePg .hst 0) &&
      (does (.pcieReceiveError .poisonedWrite) rdy fun t => decide (t.pgReg (onePg .hst 0) 0x18 = 256)) &&
      (does (.pcieReceiveError .badDllp) rdy fun t => decide (t.pins.aerCor = 128)) &&
      (does (.pcieReceiveError .malformedTlp) rdy fun t => decide (t.out = [.aer .malformedTlp .fatal])) &&
      does (.pcieReceiveError .unexpectedCompletion) rdy fun t => decide (t.out = [.aer .unexpectedCompletion .cor])) = true := by decide +kernel

/-! ## Charges -/

/-- The charges that R149's table gives. -/
theorem test_charges_are_those_of_the_table :
    chargeIn .hs 512 = 5347 ∧ chargeOutD .hs (dataW .hs 512) = 5347 ∧ chargeIn .hs 64 = 1166 ∧ chargeIn .hs 8 = 643 ∧ chargeIn .hs 0 = 569 ∧
    chargeIsoIn .hs 1024 = 9981 ∧ chargeIsoOut .hs 384 = 3912 ∧ chargeIn .fs 64 = 721 ∧ chargeIn .fs 8 = 198 ∧ chargeIsoOut .fs 192 = 1878 ∧
    chargeIsoIn .fs 1023 = 9648 ∧ chargeIn .ls 8 = 1584 := by decide +kernel

/-! ## Well-formed commands -/

/-- Each check of `Instr.wf` refuses a command that breaks it. -/
theorem test_ill_formed_commands_are_refused :
    (∀ c ∈ [Instr.inPacket 0 (List.replicate 1025 0) .data0 true, .setAddressRecoveryEnd 0 0x0C000000, .setAddressRecoveryEnd 0 0x10000000,
      .setAddressRecoveryEnd 0 0x02000000, .suspendEntryEnd 0 1, .hubPortDebounceEnd 0 0 true, .kick 0 1 50, .mbxFree 0 0, .mbxPost 0 3 17,
      .tmbPost 0 .tenant 0, .tmbPost 0 .tenant 17, .telUnitEnd [1], .text 1 0 0 0 (List.replicate 21 0), .samplePreload [true], .ldqGo [2], .ldqCopy [1] .ur], c.wf = false) := by
  decide +kernel

/-- Commands within every range are accepted. -/
theorem test_well_formed_commands_are_accepted :
    (∀ c ∈ [Instr.inPacket 0 (List.replicate 1024 0) .data0 true, .setAddressRecoveryEnd 0 0x04000061, .suspendEntryEnd 127 0,
      .hubPortDebounceEnd 0 0x0200001F true, .kick 8192 1 50, .mbxFree 0 19, .mbxPost 31 1 16, .tmbPost 4095 .tenant 16,
      .telUnitEnd (List.replicate 47 0), .text 1 0 0 0 (List.replicate 20 0), .samplePreload (List.replicate 422 false), .ldqGo (List.replicate 8 2), .perstAssert], c.wf = true) := by
  decide +kernel

end Sys2Proof.Tests
end

/-! SUPPORT. The pace thresholds of a port region (R30): their reset, and what a write of FRM_PACE_THR does. -/

namespace Sys2Proof.Machine

/-- After reset a register reads its reset value (R11). -/
theorem reset_pgReg (g : Pg) (o : Nat) : State.reset.sys.pgReg g o = regReset (g.base + o) := rfl

/-- R30's reset values, 72 and 40, are those of the eight port regions' FRM_PACE_THR. -/
theorem regReset_paceThr : ∀ n : Fin 8, regReset ((frmPg n 0).base + 0x40) = 72 + 40 * 256 := by decide

/-- Recording an error changes header registers and one counter at 0x44 only: a page's other registers keep their contents. -/
theorem recordErr_pgReg_past_header {o : Nat} (hlow : 0x40 ≤ o % 0x1000) (hcnt : o % 0x1000 ≠ 0x44) (g q : Pg) (b d : Nat) (y : Sys) :
    (y.recordErr g b d).pgReg q o = y.pgReg q o := by
  have hg := base_mod g
  have hq := base_mod q
  refine recordErr_reg ?_ b d y
  unfold errTouches
  omega

theorem paceThr_of_ordered {v : Word} (h : v.fld 15 8 + 8 ≤ v.fld 7 0) (n : Nat) (y : Sys) :
    y.paceThr n v = y.setPg (frmPg n 0) 0x40 (v &&& 0xFFFF#32) := if_pos h

theorem paceThr_of_disordered {v : Word} (h : v.fld 7 0 < v.fld 15 8 + 8) (n : Nat) (y : Sys) :
    y.paceThr n v = y.cfgErr (frmPg n 0) := if_neg (Nat.not_le.2 h)

/-- A write of FRM_PACE_THR that is served and that its page lets through has the effect of R30 at once. -/
theorem exec_paceThrWrite_served {s : State} {n : Fin 8} (hs : s.serves .manager = true)
    (hp : s.sys.pageLets .manager (frmPg n 0) 0x40 false = true) (v : Word) :
    exec (.paceThrWrite n v) s = .next { s with sys := s.sys.paceThr n v } := by
  calc exec (.paceThrWrite n v) s
      = liveWin (.paceThrWrite n v) .manager s (doPaceThrWrite n v) := rfl
    _ = .next { s with sys := doPaceThrWrite n v s.sys } := liveWin_serves hs _ _
    _ = .next { s with sys := s.sys.paceThr n v } := by rw [doPaceThrWrite, viaPage_manager hp]

/-- Settles O15: a write is judged by its order alone; one that breaks it is an error recorded on the frame engine's page, which
leaves FRM_PACE_THR alone. -/
theorem paceThresholdsKeepTheirOrder : Obligations.pace_thresholds_keep_their_order := by
  unfold Obligations.pace_thresholds_keep_their_order
  refine ⟨fun n => (reset_pgReg _ _).trans (regReset_paceThr n), fun s n v hs hp => ⟨fun hord => ?_, fun hbreak => ?_⟩⟩
  · rw [exec_paceThrWrite_served hs hp, paceThr_of_ordered hord]
  · refine ⟨s.sys.cfgErr (frmPg n 0), ?_, reportsOnly_recordErr _ _ _ _,
      recordErr_pgReg_past_header (by decide) (by decide) _ _ _ _ _, recordErr_stat _ _ _ _⟩
    rw [exec_paceThrWrite_served hs hp, paceThr_of_disordered hbreak]

end Sys2Proof.Machine

/-! SUPPORT. TEN_COMMIT while a commit is in progress (R84): what is written is discarded, and the refusal is an error of TEN. -/

namespace Sys2Proof.Machine

theorem commitWrite_of_busy {y : Sys} (h : y.host.commitBusy = true) (gen : Nat) : y.commitWrite gen = (false, y.cfgErr tenPg) := if_pos h

theorem discardAll_of_busy {y : Sys} (h : y.host.commitBusy = true) : y.discardAll = y.cfgErr tenPg := if_pos h

/-- Recording an error arms no injection. -/
theorem unarmed_recordErr (g h : Pg) (b d : Nat) (y : Sys) : (y.recordErr g b d).unarmed h = y.unarmed h := by
  refine unarmed_congr (fun q => recordErr_reg ?_ b d y) h
  have hg := base_mod g
  have hq := base_mod q
  unfold errTouches
  omega

/-- A write of TEN_COMMIT that is served and that its page lets through does what R82 and R84 say at once. -/
theorem exec_tenCommit_served {s : State} (hs : s.serves .manager = true) (hp : s.sys.pageLets .manager tenPg 0x40 false = true)
    (gen : Fin 65536) : exec (.tenCommit gen) s = .next { s with sys := (s.sys.commitWrite gen).2.carry tenPg } := by
  calc exec (.tenCommit gen) s
      = liveWin (.tenCommit gen) .manager s (doTenCommit gen) := rfl
    _ = .next { s with sys := doTenCommit gen s.sys } := liveWin_serves hs _ _
    _ = .next { s with sys := (s.sys.commitWrite gen).2.carry tenPg } := by rw [doTenCommit, viaPage_manager hp]

/-- As `exec_tenCommit_served`, with DISCARD_ALL (R81, R84). -/
theorem exec_discardAll_served {s : State} (hs : s.serves .manager = true) (hp : s.sys.pageLets .manager tenPg 0x40 false = true) :
    exec .discardAll s = .next { s with sys := s.sys.discardAll } := by
  calc exec .discardAll s
      = liveWin .discardAll .manager s doDiscardAll := rfl
    _ = .next { s with sys := doDiscardAll s.sys } := liveWin_serves hs _ _
    _ = .next { s with sys := s.sys.discardAll } := by rw [doDiscardAll, viaPage_manager hp]

/-- While BUSY = 1 either form of a write of TEN_COMMIT comes to the refusal alone. -/
theorem exec_commit_of_busy {s : State} (hs : s.serves .manager = true) (hp : s.sys.pageLets .manager tenPg 0x40 false = true)
    (hu : s.sys.unarmed tenPg = true) (hb : s.sys.host.commitBusy = true) (gen : Fin 65536) :
    ∀ c ∈ [Instr.tenCommit gen, Instr.discardAll], exec c s = .next { s with sys := s.sys.cfgErr tenPg } := by
  have hcarry : (s.sys.cfgErr tenPg).carry tenPg = s.sys.cfgErr tenPg := carry_unarmed ((unarmed_recordErr _ _ _ _ _).trans hu)
  refine List.forall_mem_cons.2 ⟨?_, List.forall_mem_singleton.2 ?_⟩
  · rw [exec_tenCommit_served hs hp, commitWrite_of_busy hb, hcarry]
  · rw [exec_discardAll_served hs hp, discardAll_of_busy hb]

/-- Settles O20: either form is refused, and a refusal is an error recorded on TEN's page. -/
theorem commitWritesWaitForBusy : Obligations.commit_writes_wait_for_busy := by
  unfold Obligations.commit_writes_wait_for_busy
  intro s gen hs hp hu hb c hc
  exact ⟨_, exec_commit_of_busy hs hp hu hb gen c hc, reportsOnly_recordErr _ _ _ _, recordErr_stat _ _ _ _⟩

end Sys2Proof.Machine

/-! SUPPORT. The NV store where VIN fails (R79): what one kept write does to a register, what a run of them does, and that the kept
writes are among the accepted ones. -/

namespace Sys2Proof.Machine

/-! ## One write that lands -/

theorem get_land_self (s : NvStore) (w : NvW) : (s.land w).get w.reg = w.val := FMap.get_put_self _ _ _ _

theorem get_land_ne {w : NvW} {j : Nat} (h : w.reg ≠ j) (s : NvStore) : (s.land w).get j = s.get j := FMap.get_put_ne _ h.symm _ _

theorem count_land_self (s : NvStore) (w : NvW) : (s.land w).count w.reg = satInc nvLife (s.count w.reg) := FMap.get_put_self _ _ _ _

theorem count_land_ne {w : NvW} {j : Nat} (h : w.reg ≠ j) (s : NvStore) : (s.land w).count j = s.count j :=
  FMap.get_put_ne _ h.symm _ _

/-- One kept write of the power failure: it lands, and its register asks for a spare where that has worn its cell out (R535). -/
def NvStore.landKept (s : NvStore) (w : NvW) : NvStore :=
  let t := s.land w
  if s.count w.reg < nvLife ∧ t.count w.reg = nvLife ∧ t.taken < 64 then { t with want := t.want ++ [w.reg] } else t

/-- The power failure lands the kept writes in turn and drops every other. -/
theorem cutOff_eq (s : NvStore) (kept : List Bool) :
    s.cutOff kept = { (keptWrites [] (s.bufs.zip (kept ++ List.replicate s.bufs.length false))).foldl NvStore.landKept s with
      bufs := [], held := [] } := rfl

/-- The request for a spare changes no value and no COUNT. -/
theorem landKept_reads (s : NvStore) (w : NvW) (j : Nat) :
    (s.landKept w).get j = (s.land w).get j ∧ (s.landKept w).count j = (s.land w).count j := by
  unfold NvStore.landKept
  dsimp only
  split <;> exact ⟨rfl, rfl⟩

/-! ## A run of writes -/

/-- Register `j` of `t` is whole after the writes `ws` on `s` (R79): old value with the old COUNT, or the value of one of its writes in
full with a COUNT that has risen by at least one and at most by their number, where the cell has that many writes left. -/
def NvStore.WholeAfter (s : NvStore) (ws : List NvW) (t : NvStore) (j : Nat) : Prop :=
  (t.get j = s.get j ∧ t.count j = s.count j) ∨
    ∃ w ∈ ws, w.reg = j ∧ t.get j = w.val ∧
      (s.count j + (ws.filter (·.reg == j)).length ≤ nvLife →
        s.count j < t.count j ∧ t.count j ≤ s.count j + (ws.filter (·.reg == j)).length)

/-- More writes that might have landed leave a whole register whole. -/
theorem NvStore.WholeAfter.of_sublist {s t : NvStore} {ws vs : List NvW} {j : Nat} (hsub : ws.Sublist vs)
    (h : s.WholeAfter ws t j) : s.WholeAfter vs t j := by
  have hlen : (ws.filter (·.reg == j)).length ≤ (vs.filter (·.reg == j)).length := (hsub.filter _).length_le
  obtain hold | ⟨w, hw, hreg, hget, hcnt⟩ := h
  · exact .inl hold
  · refine .inr ⟨w, hsub.subset hw, hreg, hget, fun hroom => ?_⟩
    have := hcnt (by omega)
    omega

/-- A run after a write of another register. -/
theorem NvStore.WholeAfter.cons_ne {s t : NvStore} {w : NvW} {r : List NvW} {j : Nat} (hj : w.reg ≠ j)
    (h : (s.landKept w).WholeAfter r t j) : s.WholeAfter (w :: r) t j := by
  obtain ⟨hg, hc⟩ := landKept_reads s w j
  rw [get_land_ne hj] at hg
  rw [count_land_ne hj] at hc
  refine .of_sublist (List.sublist_cons_self w r) ?_
  rwa [NvStore.WholeAfter, hg, hc] at h

/-- A run after a write of the register itself: the register holds that write's value unless a later one lands on it. -/
theorem NvStore.WholeAfter.cons_self {s t : NvStore} {w : NvW} {r : List NvW} (h : (s.landKept w).WholeAfter r t w.reg) :
    s.WholeAfter (w :: r) t w.reg := by
  obtain ⟨hg, hc⟩ := landKept_reads s w w.reg
  rw [get_land_self] at hg
  rw [count_land_self] at hc
  have hlen : ((w :: r).filter (·.reg == w.reg)).length = (r.filter (·.reg == w.reg)).length + 1 := by simp
  have hinc : s.count w.reg < nvLife → (s.landKept w).count w.reg = s.count w.reg + 1 := fun hlt => hc.trans (if_pos hlt)
  obtain ⟨hget, hcnt⟩ | ⟨v, hv, hreg, hget, hcnt⟩ := h
  · refine .inr ⟨w, List.mem_cons_self, rfl, hget.trans hg, fun hroom => ?_⟩
    have := hinc (by omega)
    omega
  · refine .inr ⟨v, List.mem_cons_of_mem w hv, hreg, hget, fun hroom => ?_⟩
    have := hinc (by omega)
    have := hcnt (by omega)
    omega

theorem wholeAfter_foldl (ws : List NvW) (s : NvStore) (j : Nat) : s.WholeAfter ws (ws.foldl NvStore.landKept s) j := by
  induction ws generalizing s with
  | nil => exact .inl ⟨rfl, rfl⟩
  | cons w r ih =>
    by_cases hj : w.reg = j
    · subst hj
      exact .cons_self (ih _)
    · exact .cons_ne hj (ih _)

/-! ## The kept writes -/

theorem keptWrites_sublist (l : List (NvW × Bool)) (lost : List Nat) : (keptWrites lost l).Sublist (l.map Prod.fst) := by
  induction l generalizing lost with
  | nil => exact .slnil
  | cons p r ih =>
    simp only [keptWrites, List.map_cons]
    split
    · exact (ih _).cons_cons _
    · exact (ih _).cons _

/-- What became durable before VIN failed had been accepted (R79). -/
theorem keptWrites_zip_sublist (ws : List NvW) (kept : List Bool) (lost : List Nat) :
    (keptWrites lost (ws.zip (kept ++ List.replicate ws.length false))).Sublist ws := by
  have hsub := keptWrites_sublist (ws.zip (kept ++ List.replicate ws.length false)) lost
  rwa [List.map_fst_zip (by simp)] at hsub

/-- Every register is whole after the power failure, of the writes accepted before it. -/
theorem wholeAfter_cutOff (s : NvStore) (kept : List Bool) (j : Nat) : s.WholeAfter s.bufs (s.cutOff kept) j := by
  rw [cutOff_eq]
  exact (wholeAfter_foldl _ s j).of_sublist (keptWrites_zip_sublist s.bufs kept [])

/-- Settles O13: the store that is left is the one that the kept writes, taken in turn, leave. -/
theorem vinFailureLeavesWholeValues : Obligations.vin_failure_leaves_whole_values := by
  unfold Obligations.vin_failure_leaves_whole_values
  exact fun s kept => ⟨s.sys.vinFail kept, rfl, rfl, rfl, wholeAfter_cutOff s.sys.nv kept⟩

end Sys2Proof.Machine

/-! SUPPORT. FRM_PORT_CFGk of a port region (R141): its reset, and what a write of it does while the port sends SOF or keep-alive. -/

namespace Sys2Proof.Machine

/-- A write of the manager that is served, aligned, and that its page and channel let through reaches the page's register (R11, R47). -/
theorem exec_pageWrite_served {s : State} {off : Fin 67108864} {g : Pg} {o : Nat} (hs : s.serves .manager = true)
    (ht : target .manager off = .page g o) (ha : off.val % 4 = 0) (hp : s.sys.pageLets .manager g o false = true)
    (hm : s.sys.mbxDead g o = none) (v : Word) :
    exec (.registerWrite .manager off v) s = .next { s with sys := s.sys.wr .manager g o v } := by
  calc exec (.registerWrite .manager off v) s
      = liveWin (.registerWrite .manager off v) .manager s (doRegWrite .manager off v) := rfl
    _ = .next { s with sys := doRegWrite .manager off v s.sys } := liveWin_serves hs _ _
    _ = .next { s with sys := s.sys.wr .manager g o v } := by
      simp only [doRegWrite, ht, ha, ne_eq, not_true_eq_false, if_false, Sys.viaAny, viaPage_manager hp, hm]

/-- A write past the common header of a frame engine's page is a write of the frame engine's own registers. -/
theorem wr_frmPg {o : Nat} (ho : 0x40 ≤ o) (org : Origin) (n i : Nat) (v : Word) (y : Sys) :
    y.wr org (frmPg n i) o v = y.wrFrm n i o v := if_neg (Nat.not_lt.2 ho)

/-- R141: FRM_PORT_CFGk takes no write while its port sends SOF or keep-alive; what is left of the write is CFG. -/
theorem wrFrm_portCfg_of_sof {n k : Nat} (hk : k < 16) {y : Sys} (hsof : (y.frame (16 * n + k)).sof = true) (v : Word) :
    y.wrFrm n 0 (0x80 + 4 * k) v = y.cfgErr (frmPg n 0) := by
  have hport : (0x80 + 4 * k - 0x80) / 4 = k := by omega
  have hpace : 0x80 + 4 * k ≠ 0x40 := by omega
  have hcfg : 0x80 ≤ 0x80 + 4 * k ∧ 0x80 + 4 * k < 0xC0 ∧ (y.frame (16 * n + (0x80 + 4 * k - 0x80) / 4)).sof := by
    rw [hport]
    exact ⟨by omega, by omega, hsof⟩
  rw [Sys.wrFrm, if_neg (Nat.not_succ_le_zero 0), if_neg hpace, if_pos hcfg]

/-- A served write of port `p`'s FRM_PORT_CFGk while the port sends SOF or keep-alive comes to the refusal alone. -/
theorem exec_portCfgWrite_of_sof {s : State} {p : Fin 128} {off : Fin 67108864} (hs : s.serves .manager = true)
    (ht : target .manager off = .page (frmPg (p.val / 16) 0) (0x80 + 4 * (p.val % 16)))
    (hp : s.sys.pageLets .manager (frmPg (p.val / 16) 0) (0x80 + 4 * (p.val % 16)) false = true)
    (hsof : (s.sys.frame p).sof = true) (v : Word) :
    exec (.registerWrite .manager off v) s = .next { s with sys := s.sys.cfgErr (frmPg (p.val / 16) 0) } := by
  have halign : off.val % 4 = 0 := by
    have := off_of_page ht
    omega
  have hport : (s.sys.frame (16 * (p.val / 16) + p.val % 16)).sof = true := by rwa [Nat.div_add_mod]
  rw [exec_pageWrite_served hs ht halign hp (mbxDead_other (by simp [frmPg])), wr_frmPg (by omega),
    wrFrm_portCfg_of_sof (Nat.mod_lt _ (by decide)) hport]

/-- R141's reset value of PHASE is that of each of the 128 ports' FRM_PORT_CFGk. -/
theorem regReset_portCfg_phase : ∀ p : Fin 128, (regReset ((frmPg (p / 16) 0).base + (0x80 + 4 * (p % 16)))).fld 2 0 = 0 := by decide

theorem reset_phase (p : Fin 128) : State.reset.sys.phase p = 0 := regReset_portCfg_phase p

/-- Recording an error leaves every port's PHASE alone: FRM_PORT_CFGk lies past the common header. -/
theorem recordErr_phase (g : Pg) (b d : Nat) (y : Sys) (p : Nat) : (y.recordErr g b d).phase p = y.phase p := by
  unfold Sys.phase
  rw [recordErr_pgReg_past_header (by omega) (by omega)]

/-- Settles O16: the write comes to an error recorded on the frame engine's page, and that leaves FRM_PORT_CFGk alone. -/
theorem phaseIsFixedWhileSofRuns : Obligations.phase_is_fixed_while_sof_runs := by
  unfold Obligations.phase_is_fixed_while_sof_runs
  refine ⟨reset_phase, fun s p off v hs ht hp hsof => ⟨s.sys.cfgErr (frmPg (p.val / 16) 0), ?_, ?_, ?_, ?_⟩⟩
  · exact exec_portCfgWrite_of_sof hs ht hp hsof v
  · exact reportsOnly_recordErr _ _ _ _
  · exact recordErr_phase _ _ _ _ _
  · exact recordErr_stat _ _ _ _

end Sys2Proof.Machine

/-! SUPPORT. The machine as a whole: which commands run, what a step leaves of the queue and of the sampled pins, and when the
interrupt controller samples nothing (R24, R449, R497, R588). -/

namespace Sys2Proof.Machine

/-- What an ordinary command comes to where no factory test mode holds: one change of the block, or nothing while VIN is out of range. -/
theorem liveSys_of_not_testen {s : State} (ht : s.testen = false) (f : Sys → Sys) :
    liveSys s f = .next (if s.vin then { s with sys := f s.sys } else s) := by
  unfold liveSys live
  cases s.vin <;> simp [ht]

theorem exec_powerOnResetEnd (compat te : Bool) (s : State) :
    exec (.powerOnResetEnd compat te) s = .next { s with sys := s.sys.porEnd compat, vin := true, testen := te } := rfl

theorem exec_vinFail (kept : List Bool) (s : State) :
    exec (.vinFail kept) s = .next { s with sys := s.sys.vinFail kept, vin := false, testen := false } := rfl

/-- A command that is not ordinary is one of the two that act out of service. -/
theorem eq_of_not_ordinary {c : Instr} (h : ordinary c ≠ true) :
    (∃ compat te, c = .powerOnResetEnd compat te) ∨ ∃ kept, c = .vinFail kept := by
  cases c with
  | powerOnResetEnd compat te => exact .inl ⟨compat, te, rfl⟩
  | vinFail kept => exact .inr ⟨kept, rfl⟩
  | _ => exact absurd rfl h

theorem tick_parts (s : State) : s.tick.pending = s.pending ∧ s.tick.vin = s.vin ∧ s.tick.testen = s.testen := by
  unfold State.tick
  split <;> exact ⟨rfl, rfl, rfl⟩

/-- Outside the factory test mode every command answers a next state and leaves the queue alone. -/
theorem exec_completes {s : State} (ht : s.testen = false) (c : Instr) : ∃ t, exec c s = .next t ∧ t.pending = s.pending := by
  by_cases hc : ordinary c = true
  · obtain ⟨f, hf⟩ := exec_liveSys c s hc
    refine ⟨_, hf.trans (liveSys_of_not_testen ht f), ?_⟩
    split <;> rfl
  · rcases eq_of_not_ordinary hc with ⟨compat, te, rfl⟩ | ⟨kept, rfl⟩
    · exact ⟨_, exec_powerOnResetEnd _ _ _, rfl⟩
    · exact ⟨_, exec_vinFail _ _, rfl⟩

/-- The interrupt controller samples nothing while SCHED is OFF. -/
theorem cicSample_of_sched_off {y : Sys} (h : (y.dom 17).st = .off) : y.cicSample = y := by simp [Sys.cicSample, h]

/-- Settles O1: the queue of such a state is `c` and the rest. -/
theorem stepRunsFront : Obligations.step_runs_front := fun _ _ => rfl

/-- Settles O2: an empty queue ticks; with SCHED OFF the tick's sampling does nothing, and VIN out of range stops the tick. -/
theorem emptyQueueTicks : Obligations.empty_queue_ticks := by
  unfold Obligations.empty_queue_ticks
  intro s hq
  refine ⟨step_nil hq, fun hv hd => ?_⟩
  rw [step_nil hq, State.tick, if_pos hv]
  exact congrArg (fun y => Host.Outcome.next { s with sys := y }) (cicSample_of_sched_off (y := { s.sys with tb := s.sys.tb + 1 }) hd)

/-- Settles O3: a step is a tick or one command, and either leaves of the queue what follows its first command. -/
theorem commandsCompleteInTurn : Obligations.commands_complete_in_turn := by
  unfold Obligations.commands_complete_in_turn
  refine ⟨fun s c ht => exec_completes ht c, fun s ht => ?_⟩
  cases hq : s.pending with
  | nil => exact ⟨s.tick, step_nil hq, by rw [(tick_parts s).1, hq]; rfl⟩
  | cons c r =>
    rw [step_cons hq]
    exact exec_completes (s := { s with pending := r }) ht c

/-- Settles O4: a tick and an ordinary command keep what was sampled; the two others say what they leave. -/
theorem testenSampledAtPowerOnOnly : Obligations.testen_sampled_at_power_on_only := by
  unfold Obligations.testen_sampled_at_power_on_only
  intro s t h
  cases hq : s.pending with
  | nil =>
    obtain ⟨-, hv, ht⟩ := tick_parts s
    cases (step_nil hq).symm.trans h
    exact .inl ⟨ht, hv⟩
  | cons c r =>
    rw [step_cons hq] at h
    by_cases hc : ordinary c = true
    · obtain ⟨f, hf⟩ := exec_liveSys c { s with pending := r } hc
      obtain ⟨-, hv, ht, -⟩ := liveSys_parts (hf.symm.trans h)
      exact .inl ⟨ht, hv⟩
    · rcases eq_of_not_ordinary hc with ⟨compat, te, rfl⟩ | ⟨kept, rfl⟩
      · cases h
        exact .inr (.inl ⟨compat, te, r, rfl, rfl, rfl⟩)
      · cases h
        exact .inr (.inr ⟨kept, r, rfl, rfl, rfl⟩)

/-- Settles O5: an ordinary command is a change of the block in a chip that operates, so nothing of it happens out of service. -/
theorem stoppedOrHeldOutOfService : Obligations.stopped_or_held_out_of_service := by
  unfold Obligations.stopped_or_held_out_of_service
  refine ⟨fun s c ht hc => ?_, fun s c hv ht hc => ?_⟩
  · obtain ⟨f, hf⟩ := exec_liveSys c s hc
    rw [hf, liveSys, live, if_pos ht]
  · obtain ⟨f, hf⟩ := exec_liveSys c s hc
    rw [hf, liveSys_of_not_testen ht, hv]
    rfl

/-- Settles O7: nothing is stored after reset. -/
theorem resetStorageCanonical : Obligations.reset_storage_canonical := by
  unfold Obligations.reset_storage_canonical
  exact storageCanon_iff.2 ⟨rfl, rfl, rfl⟩

end Sys2Proof.Machine

/-! SUPPORT. What the operations of the model keep: one lemma for each operation, in the order in which the model builds them, whose proof
is the operation's own composition. The operations that others build on are stated for any property of a kind (`Keeper`), the others for
the canonical form of the register file and the SRAMs. -/

namespace Sys2Proof.Machine.Sys

variable {y t : Sys} {α : Type}

/-- A property of the block that most operations keep: one that a write of a register leaves, and a change of any part but the register
file, the containment record, the two SRAMs, the enumerations and the frames, and one of a frame that does not turn SOF on. -/
structure Keeper where
  P : Sys → Prop
  setReg : ∀ {y : Sys} (off : Nat) (v : Word), P y → P (y.setReg off v)
  rest : ∀ {y : Sys} (nv : NvStore) (tb : Nat) (pins : Pins) (out held pasid : List Out) (waitq : List Instr) (nvReads : List RWait)
    (doms : FMap Dom) (ldr : Loader) (mari : Mari) (smb : Smb) (jtag : Jtag) (host : HostS) (usb : UsbS) (fresh : Nat), P y →
    P ⟨nv, tb, pins, y.regs, out, held, pasid, waitq, nvReads, doms, y.contain, ldr, mari, smb, jtag, host,
      { usb with frame := y.usb.frame, enums := y.usb.enums }, y.eng, fresh⟩
  frame : ∀ {y : Sys} (p : Nat) (f : PFrame → PFrame), (∀ q, (f q).sof = true → q.sof = true) → P y → P (y.updFrame p f)
  eng : ∀ {y : Sys} (slots : FMap Slot) (dcx : List Nat) (holly : Holly) (cores : FMap Core) (cic : Cic) (mbx : FMap Mbx) (tableId : Nat)
    (table : List (List Byte)) (lsEpoch : FMap Nat), P y →
    P { y with eng := ⟨slots, dcx, holly, cores, cic, mbx, tableId, table, y.eng.sram, y.eng.lsram, lsEpoch⟩ }

/-- One that is kept too where domains lose what they held: whatever becomes of the enumerations, of the pages that are reset, of a core's
local SRAM and of a core's halt. -/
structure WideKeeper extends Keeper where
  usb : ∀ {y : Sys} (u : UsbS), P y → P { y with usb := u }
  resetPages : ∀ {y : Sys} (p : Pg → Bool), P y → P (y.resetPages p)
  lsFresh : ∀ {y : Sys} (c : Nat), P y → P (y.lsFresh c)
  clear : ∀ {y : Sys} (c : Nat), P y → P (y.clearHalt (corePg c))

/-- The property of a keeper. -/
def Held (K : Keeper) (y : Sys) : Prop := K.P y

/-- The canonical form as a property that every operation keeps. -/
def canonKeeper : WideKeeper where
  P y := y.storageCanon = true
  setReg off v h := storageCanon_setReg off v h
  rest _ _ _ _ _ _ _ _ _ _ _ _ _ _ _ _ h := h
  frame _ _ _ h := h
  eng _ _ _ _ _ _ _ _ _ h := h
  usb _ h := h
  resetPages p h := storageCanon_resetPages p h
  lsFresh _ h := by
    obtain ⟨hr, hs, hl⟩ := storageCanon_iff.1 h
    exact storageCanon_iff.2 ⟨hr, hs, FMap.canon_filter _ hl⟩
  clear _ h := h

/-- The storage of the block is canonical. -/
abbrev Canon (y : Sys) : Prop := Held canonKeeper.toKeeper y

variable {K : Keeper} {W : WideKeeper}

theorem Held.ite {c : Prop} [Decidable c] (h : y.Held K) (k : t.Held K) : (if c then y else t).Held K := by split <;> assumption

theorem Held.ite₂ {c : Prop} [Decidable c] {r q : α × Sys} (h : r.2.Held K) (k : q.2.Held K) : (if c then r else q).2.Held K := by
  split <;> assumption

theorem Held.dite {c : Prop} [Decidable c] {f : c → Sys} {g : ¬ c → Sys} (h : ∀ hc, (f hc).Held K) (k : ∀ hc, (g hc).Held K) :
    (if hc : c then f hc else g hc).Held K := by
  split
  · exact h _
  · exact k _

theorem Held.option {β : Type} {o : Option β} {f : β → Sys} (h : y.Held K) (k : ∀ b, (f b).Held K) :
    (match o with | none => y | some b => f b).Held K := by
  cases o with
  | none => exact h
  | some b => exact k b

theorem Held.getD {o : Option Sys} (h : y.Held K) (k : ∀ z, o = some z → z.Held K) : (o.getD y).Held K := by
  cases o with
  | none => exact h
  | some z => exact k z rfl

/-- What an operation answers beside a value, taken apart. -/
theorem Held.snd {r : α × Sys} {a : α} (h : r.2.Held K) (he : r = (a, y)) : y.Held K := by
  rw [he] at h
  exact h

theorem Held.each {f : α → Sys → Sys} {l : List α} (hf : ∀ a y, y.Held K → (f a y).Held K) (h : y.Held K) : (each f l y).Held K := by
  induction l generalizing y with
  | nil => exact h
  | cons a r ih => exact ih (hf a y h)

theorem Held.foldl {f : Sys → α → Sys} {l : List α} (hf : ∀ y a, y.Held K → (f y a).Held K) (h : y.Held K) : (l.foldl f y).Held K := by
  induction l generalizing y with
  | nil => exact h
  | cons a r ih => exact ih (hf y a h)

/-- A change of any part but the register file and the engine region keeps the form. -/
theorem Held.part {nv : NvStore} {tb : Nat} {pins : Pins} {out held pasid : List Out} {waitq : List Instr} {nvReads : List RWait}
    {doms : FMap Dom} {contain : Contain} {ldr : Loader} {mari : Mari} {smb : Smb} {jtag : Jtag} {host : HostS} {usb : UsbS}
    {fresh : Nat} (h : y.Canon) :
    Canon ⟨nv, tb, pins, y.regs, out, held, pasid, waitq, nvReads, doms, contain, ldr, mari, smb, jtag, host, usb, y.eng, fresh⟩ := h

theorem Held.same {nv : NvStore} {tb : Nat} {pins : Pins} {out held pasid : List Out} {waitq : List Instr} {nvReads : List RWait}
    {doms : FMap Dom} {ldr : Loader} {mari : Mari} {smb : Smb} {jtag : Jtag} {host : HostS} {pace : FMap RegPace} {ptab : FMap PTab}
    {fifo : FMap Fifo} {dma : FMap Chan2} {rot : FMap Nat} {linkRot : Nat} {chanRot : FMap Nat} {dcqWait : List Nat}
    {dcqRsv : Nat} {ports : FMap Port} {power : Power} {credit curEp : FMap Nat} {fresh : Nat} (h : y.Held K) :
    Held K ⟨nv, tb, pins, y.regs, out, held, pasid, waitq, nvReads, doms, y.contain, ldr, mari, smb, jtag, host,
      ⟨pace, ptab, y.usb.frame, fifo, dma, rot, linkRot, chanRot, dcqWait, dcqRsv, ports, power, credit, curEp, y.usb.enums⟩, y.eng, fresh⟩ :=
  K.rest nv tb pins out held pasid waitq nvReads doms ldr mari smb jtag host
    ⟨pace, ptab, [], fifo, dma, rot, linkRot, chanRot, dcqWait, dcqRsv, ports, power, credit, curEp, []⟩ fresh h

theorem Held.usb {u : UsbS} (h : y.Held W.toKeeper) : Held W.toKeeper { y with usb := u } := W.usb u h

/-- A change of any part of the engine region but the two SRAMs keeps the property. -/
theorem Held.eng {slots : FMap Slot} {dcx : List Nat} {holly : Holly} {cores : FMap Core} {cic : Cic} {mbx : FMap Mbx}
    {tableId : Nat} {table : List (List Byte)} {lsEpoch : FMap Nat} (h : y.Held K) :
    Held K { y with eng := ⟨slots, dcx, holly, cores, cic, mbx, tableId, table, y.eng.sram, y.eng.lsram, lsEpoch⟩ } :=
  K.eng slots dcx holly cores cic mbx tableId table lsEpoch h

theorem Held.setReg {off : Nat} {v : Word} (h : y.Held K) : (y.setReg off v).Held K := K.setReg off v h

theorem Held.resetPages {p : Pg → Bool} (h : y.Held W.toKeeper) : (y.resetPages p).Held W.toKeeper := W.resetPages p h

theorem Held.lsFresh {c : Nat} (h : y.Held W.toKeeper) : (y.lsFresh c).Held W.toKeeper := W.lsFresh c h

theorem Held.setPg {g : Pg} {o : Nat} {v : Word} (h : y.Held K) : (y.setPg g o v).Held K := .setReg h

theorem Held.setFld {g : Pg} {o hi lo v : Nat} (h : y.Held K) : (y.setFld g o hi lo v).Held K := .setPg h

theorem Held.disarm {g : Pg} (h : y.Canon) : (y.disarm g).Canon := .ite (.setFld h) h

theorem Held.poisonNow {g : Pg} (h : y.Canon) : (y.poisonNow g).2.Canon := by
  fun_cases Sys.poisonNow g y
  · exact .disarm h
  · exact h

theorem Held.incFld {g : Pg} {o hi lo : Nat} (h : y.Held K) : (y.incFld g o hi lo).Held K := .setFld h

theorem Held.latchFirst {g : Pg} {bit detail : Nat} (h : y.Held K) : (y.latchFirst g bit detail).Held K := .ite h (.setPg (.setPg h))

theorem Held.setBit {g : Pg} {o b : Nat} (h : y.Held K) : (y.setBit g o b).Held K := .setFld h

theorem Held.aer {e : Aer} (h : y.Held K) : (y.aer e).Held K := .same h

theorem Held.emit {o : Out} (h : y.Held K) : (y.emit o).Held K := .ite (.ite h (.ite (.same h) (.ite (.same h) (.same h)))) (.same h)

theorem Held.msix {v : Nat} (h : y.Held K) : (y.msix v).Held K := .ite (.same h) (.emit (.ite (.incFld h) h))

theorem Held.errNotify {before : Nat} (h : y.Held K) : (y.errNotify before).Held K := .ite (.msix h) h

theorem Held.recordErr {g : Pg} {bit detail : Nat} (h : y.Held K) : (y.recordErr g bit detail).Held K :=
  .errNotify (.ite (.aer (.ite (.incFld (.incFld (.latchFirst (.setBit h)))) (.incFld (.latchFirst (.setBit h))))) (.ite (.incFld
    (.incFld (.latchFirst (.setBit h)))) (.incFld (.latchFirst (.setBit h)))))

theorem Held.updFrame {p : Nat} {f : PFrame → PFrame} (hf : ∀ q, (f q).sof = true → q.sof = true) (h : y.Held K) :
    (y.updFrame p f).Held K := K.frame p f hf h

theorem Held.updFifo {p : Nat} {f : Fifo → Fifo} (h : y.Held K) : (y.updFifo p f).Held K := .same h

theorem Held.updTx {p num : Nat} {f : TxPkt → TxPkt} (h : y.Held K) : (y.updTx p num f).Held K := .updFifo h

theorem Held.txRewind {p num : Nat} (h : y.Held K) : (y.txRewind p num).Held K := by
  fun_cases Sys.txRewind p num y
  · exact .updFifo (.updTx h)
  · exact h

theorem Held.evalMarks {p : Nat} (h : y.Held K) : (y.evalMarks p).Held K := .updFifo h

theorem Held.reclaimTx {p : Nat} (h : y.Held K) : (y.reclaimTx p).Held K := .evalMarks (.updFifo h)

theorem Held.dropTx {p : Nat} {sel : TxPkt → Bool} (h : y.Held K) : (y.dropTx p sel).Held K := .reclaimTx (.updFifo h)

theorem Held.mapX {f : Xfer → Xfer} (h : y.Held K) : (y.mapX f).Held K := .same h

theorem Held.updX {id : Nat} {f : Xfer → Xfer} (h : y.Held K) : (y.updX id f).Held K := .mapX h

theorem Held.splitDone {p id : Nat} (h : y.Held K) : (y.splitDone p id).Held K :=
  .updFrame (by exact fun _ hs => hs) (.updX h)

theorem Held.rsvFree {p : Nat} {x : Xfer} (h : y.Held K) : (y.rsvFree p x).Held K := .ite h (.updX (.updFifo h))

theorem Held.updSlot {n : Nat} {f : Slot → Slot} (h : y.Held K) : (y.updSlot n f).Held K := .eng h

theorem Held.updEp {n e : Nat} {f : Ep → Ep} (h : y.Held K) : (y.updEp n e f).Held K := .updSlot h

theorem Held.xferLeaves {x : Xfer} (h : y.Held K) : (y.xferLeaves x).Held K :=
  .ite (.dropTx h) (.splitDone (.rsvFree (.reclaimTx (.updFifo h))))

theorem Held.chipOver {sel : Xfer → Bool} (h : y.Held K) : (y.chipOver sel).Held K :=
  .each (fun _ _ k => .ite (.xferLeaves (.updX k)) (.xferLeaves (.same k))) h

theorem Held.chipDone {o p t : Nat} (h : y.Held K) : (y.chipDone o p t).Held K := .chipOver h

theorem Held.updHolly {f : Holly → Holly} (h : y.Held K) : (y.updHolly f).Held K := .eng h

theorem Held.chipXfer {r : CReq} (h : y.Held K) : (y.chipXfer r).Held K := .same h

theorem Held.issueNow {r : CReq} (h : y.Held K) : (y.issueNow r).Held K := .chipXfer (.ite h (.updHolly h))

theorem Held.ctlIssue {r : CReq} (h : y.Held K) : (y.ctlIssue r).Held K := .ite (.issueNow h) (.updHolly h)

theorem Held.issue {o p t : Nat} {setup data : List Byte} (h : y.Held K) : (y.issue o p t setup data).Held K :=
  .ctlIssue (.chipDone (.updHolly h))

theorem Held.reqTo {o n : Nat} {setup data : List Byte} (h : y.Held K) : (y.reqTo o n setup data).Held K := .issue h

theorem Held.hubReq {h' : Nat} {k : HReqK} {setup : List Byte} (h : y.Held K) : (y.hubReq h' k setup).Held K :=
  .updSlot (.ite (.reqTo h) h)

theorem Held.clearTt {x : Xfer} {st : Nat} (h : y.Held K) : (y.clearTt x st).Held K := .ite (.hubReq (.incFld (.updEp h))) h

theorem Held.reclaimRx {p : Nat} (h : y.Held K) : (y.reclaimRx p).Held K := .evalMarks (.updFifo h)

theorem Held.rxRelease {p id : Nat} (h : y.Held K) : (y.rxRelease p id).Held K := .reclaimRx (.updFifo h)

theorem Held.dropXfer {id : Nat} (h : y.Held K) : (y.dropXfer id).Held K := .same h

theorem Held.pushItem {i : Item} (h : y.Held K) : (y.pushItem i).Held K := by
  unfold Sys.pushItem
  exact .updHolly h

theorem Held.updMbx {j : Nat} {f : Mbx → Mbx} (h : y.Held K) : (y.updMbx j f).Held K := .eng h

theorem Held.updSrc {n : Nat} {f : CSrc → CSrc} (h : y.Held K) : (y.updSrc n f).Held K := .eng h

theorem Held.updCore {c : Nat} {f : Core → Core} (h : y.Held K) : (y.updCore c f).Held K := .eng h

theorem Held.updDom {d : Nat} {f : Dom → Dom} (h : y.Held K) : (y.updDom d f).Held K := .same h

theorem Held.countReq {d : Nat} (h : y.Held K) : (y.countReq d).Held K := .updDom h

theorem Held.beginExit {fuel : Nat} {wake : Bool} {d : Nat} (h : y.Held K) : (y.beginExit fuel wake d).Held K := by
  fun_induction Sys.beginExit fuel wake d y with
  | case1 => exact h
  | case2 => exact .updDom (.updDom h)
  | case3 => exact .updDom (.updDom h)
  | case4 _ _ _ _ _ _ _ _ _ _ _ ih => exact ih (.countReq (.updDom (.updDom h)))
  | case5 => exact .updDom (.updDom h)

theorem Held.wakeDom {d : Nat} (h : y.Held K) : (y.wakeDom d).Held K := by
  fun_cases Sys.wakeDom d y
  · exact .incFld (.updDom h)
  · exact .incFld (.updDom h)
  · exact .incFld (.updDom h)
  · exact h
  · exact h
  · exact h
  · exact .beginExit h

theorem Held.wakeHost (h : y.Held K) : y.wakeHost.Held K := .ite (.emit (.same h)) (.same h)

theorem Held.raiseWake {t : WakeTo} (h : y.Held K) : (y.raiseWake t).Held K := by
  fun_cases Sys.raiseWake t y
  · exact .each (fun _ _ k => .wakeDom k) (.incFld h)
  · exact .wakeHost (.incFld h)
  · exact .incFld h

theorem Held.latchEdge {l : Nat} {t : WakeTo} (h : y.Held K) : (y.latchEdge l t).Held K :=
  .ite (.raiseWake (.updSrc (.setBit h))) (.updSrc (.setBit h))

theorem Held.routeOne {fast : Bool} {s : Nat} (h : y.Held K) : (y.routeOne fast s).Held K := by
  fun_cases Sys.routeOne fast s y
  · exact .updCore (.eng (.updSrc h))
  · exact .latchEdge h
  · exact h
  · exact h
  · exact h

theorem Held.routeAll (h : y.Held K) : y.routeAll.Held K := .ite (.each (fun _ _ k => .routeOne k) (.each (fun _ _ k => .routeOne k) h)) h

theorem Held.srcFall {s : Nat} (h : y.Held K) : (y.srcFall s).Held K := .updSrc h

theorem Held.srcRise {s : Nat} (h : y.Held K) : (y.srcRise s).Held K :=
  .ite h (.ite h (.ite (.ite (.latchEdge (.updSrc h)) (.updSrc h)) (.updSrc h)))

theorem Held.cicPulse {s : Nat} (h : y.Held K) : (y.cicPulse s).Held K := .routeAll (.srcFall (.srcRise h))

theorem Held.updDec {f : Decust → Decust} (h : y.Held K) : (y.updDec f).Held K := .same h

theorem Held.meqPut {kind : Nat} {rec : List Word} (h : y.Held K) : (y.meqPut kind rec).Held K := .setPg (.emit h)

theorem Held.meqPutEv {e : Ev} (h : y.Held K) : (y.meqPutEv e).Held K := .updDec (.meqPut h)

theorem Held.meqEvent {v : Option Nat} {e : Ev} (h : y.Held K) : (y.meqEvent v e).Held K :=
  .ite h (.ite (.msix (.meqPutEv h)) (.ite (.updDec h) (.updDec (.recordErr (.incFld h)))))

theorem Held.ldrMsg (h : y.Held K) : y.ldrMsg.Held K := .ite (.msix h) h

theorem Held.latchSet {l : Nat} {t : WakeTo} (h : y.Held K) : (y.latchSet l t).Held K := .routeAll (.latchEdge h)

theorem Held.mbxTell {j : Nat} {e : Ev} {first : Bool} (h : y.Held K) : (y.mbxTell j e first).Held K :=
  .ite (.latchSet (.ite (.cicPulse h) (.ite (.meqEvent h) (.ite (.ite (.ldrMsg h) h) h)))) (.ite (.cicPulse h) (.ite (.meqEvent h)
    (.ite (.ite (.ldrMsg h) h) h)))

theorem Held.mbxReset {m cause : Nat} (h : y.Held K) : (y.mbxReset m cause).Held K :=
  .each (fun _ _ k => .ite (.ite (.updMbx (.ite (.updMbx k) k)) (.mbxTell (.updMbx (.ite (.updMbx k) k)))) (.ite (.updMbx (.ite
    (.updMbx k) k)) (.ite (.updMbx k) k))) h

theorem Held.updInst {i : Nat} {f : Inst → Inst} (h : y.Held K) : (y.updInst i f).Held K := .same h

theorem Held.tenantEvent {i : Nat} {e : Ev} (h : y.Held K) : (y.tenantEvent i e).Held K := by
  fun_cases Sys.tenantEvent i e y
  · exact h
  · exact h
  · exact h
  · exact .updInst h
  · exact h
  · exact .same h

theorem Held.dnRevoke {i cause : Nat} (h : y.Held K) : (y.dnRevoke i cause).Held K := .ite (.tenantEvent (.updInst h)) h

theorem Held.tmbReset {m cause : Nat} (h : y.Held K) : (y.tmbReset m cause).Held K :=
  .each (fun _ _ k => .ite (.updInst (.ite (.dnRevoke k) k)) (.ite (.dnRevoke k) k)) h

theorem Held.mbxAgain {m : Nat} (h : y.Held K) : (y.mbxAgain m).Held K := .each (fun _ _ k => .ite (.mbxTell (.updMbx k)) k) h

theorem Held.restartEnd (h : y.Held K) : y.restartEnd.Held K :=
  .ite (.mbxAgain (.updDec (.setPg (.setPg (.setPg (.setPg (.setFld (.setFld (.each (fun _ _ k => .updInst k) (.mbxReset (.tmbReset
    h))))))))))) h

theorem Held.respond {dws : List Word} (h : y.Held K) : (y.respond dws).Held K := .ite (.msix (.meqPut h)) (.updDec h)

theorem Held.decFin {q st : Nat} {res : List Word} (h : y.Held K) : (y.decFin q st res).Held K := by
  fun_cases Sys.decFin q st res y
  · exact h
  · exact .updDec h
  · exact .respond (.updDec h)

theorem Held.decSweep (h : y.Held K) : y.decSweep.Held K := .each (fun _ _ k => .ite (.decFin k) k) h

theorem Held.decEnd {q st : Nat} {res : List Word} (h : y.Held K) : (y.decEnd q st res).Held K := .restartEnd (.decSweep (.decFin h))

theorem Held.decWake {sel : CWait → Bool} {st : Nat} {res : List Word} (h : y.Held K) : (y.decWake sel st res).Held K :=
  .each (fun _ _ k => .decEnd k) h

theorem Held.freeEnd {x : Xfer} {d : CDev} {ok : Bool} (h : y.Held K) : (y.freeEnd x d ok).Held K :=
  .ite (.ctlIssue h) (.ite (.decWake (.pushItem h)) (.pushItem h))

theorem Held.ctlEffects {x : Xfer} (h : y.Held K) : (y.ctlEffects x).Held K := .ite (.updSlot h) (.ite (.updSlot h) (.ite (.updSlot h) h))

theorem Held.updRing {k : Nat} {f : Machine.Ring → Machine.Ring} (h : y.Held K) : (y.updRing k f).Held K := .same h

theorem Held.ctxPut {k : Nat} (h : y.Held K) : (y.ctxPut k).Held K := .emit (.same h)

theorem Held.ctxWrite {k : Nat} (h : y.Held K) : (y.ctxWrite k).Held K := .ite (.ctxPut h) (.same h)

theorem Held.ringSettle {k : Nat} (h : y.Held K) : (y.ringSettle k).Held K :=
  .ite h (.ite (.decWake (.same (.ctxWrite (.updRing h)))) (.ite (.updRing h) h))

theorem Held.exhaustEnd (h : y.Held K) : y.exhaustEnd.Held K := .each (fun _ _ k => .ite (.updInst k) k) (.same h)

theorem Held.holdFree {i : Nat} {own : Bool} (h : y.Held K) : (y.holdFree i own).Held K := .exhaustEnd (.updInst h)

theorem Held.noticeDrain {fuel : Nat} (h : y.Held K) : (y.noticeDrain fuel).Held K := by
  induction fuel generalizing y with
  | zero => exact h
  | succ fuel ih =>
    unfold Sys.noticeDrain
    split
    · exact h
    · dsimp only
      split
      · exact ih (.pushItem h)
      · exact h

theorem Held.notify {n bytes : Nat} {pwr : Bool} (h : y.Held K) : (y.notify n bytes pwr).Held K := .noticeDrain (.updSlot h)

theorem Held.updChan {e c : Nat} {f : Chan2 → Chan2} (h : y.Held K) : (y.updChan e c f).Held K := .same h

theorem Held.readIssue {e c fuel : Nat} (h : y.Held K) : (y.readIssue e c fuel).Held K := by
  induction fuel generalizing y with
  | zero => exact h
  | succ fuel ih =>
    unfold Sys.readIssue
    dsimp only
    split
    · split
      · exact ih (.same (.emit (.updChan h)))
      · exact h
    · exact h

theorem Held.hostTake {g : Nat} {u : HUse} {i : Option Nat} {a n : Nat} (h : y.Held K) : (y.hostTake g u i a n).Held K := by
  fun_cases Sys.hostTake g u i a n y
  · exact h
  · exact h
  · exact .emit (.updChan (.ite (.updChan (.updChan h)) (.updChan h)))
  · exact .readIssue (.ite (.updChan (.updChan h)) (.updChan h))

theorem Held.ctxGo {k : Nat} (h : y.Held K) : (y.ctxGo k).Held K := .ite h (.hostTake h)

theorem Held.fetchWait {u : HUse} (h : y.Held K) : (y.fetchWait u).Held K := .ite h (.same h)

theorem Held.ctxRead {k : Nat} (h : y.Held K) : (y.ctxRead k).Held K := .ite h (.ite (.ctxGo h) (.fetchWait h))

theorem Held.cacheUse {k : Nat} (h : y.Held K) : (y.cacheUse k).Held K := .ite (.same h) h

theorem Held.sendMsg {i e : Nat} (h : y.Held K) : (y.sendMsg i e).Held K :=
  .ite (.updInst h) (.ite (.updInst (.recordErr h)) (.ite h (.ite (.updInst (.same h)) (.incFld (.emit (.updInst h))))))

theorem Held.ringMsg {k : Nat} (h : y.Held K) : (y.ringMsg k).Held K := .ite h (.ite (.updRing h) (.sendMsg (.updRing h)))

theorem Held.putRec {k : Nat} {c : CRec} (h : y.Held K) : (y.putRec k c).Held K :=
  .ringSettle (.ite (.ringMsg (.cacheUse (.holdFree (.updRing (.updRing (.emit h)))))) (.cacheUse (.holdFree (.updRing (.updRing (.emit
    h))))))

theorem Held.writeRecs {k fuel : Nat} (h : y.Held K) : (y.writeRecs k fuel).Held K := by
  induction fuel generalizing y with
  | zero => exact h
  | succ fuel ih =>
    unfold Sys.writeRecs
    dsimp only
    split
    · exact h
    · split
      · exact .ctxRead h
      · split
        · exact ih (.putRec h)
        · exact h

theorem Held.flushRecs {k : Nat} (h : y.Held K) : (y.flushRecs k).Held K := .writeRecs h

theorem Held.postX {x : Xfer} {st : Nat} (h : y.Held K) : (y.postX x st).Held K := by
  fun_cases Sys.postX x st y
  · exact .freeEnd (.dropXfer h)
  · exact .dropXfer h
  · exact .dropXfer h
  · exact .ringSettle (.ite (.holdFree (.updRing (.dropXfer (.ite (.ctlEffects h) h)))) (.updRing (.dropXfer (.ite (.ctlEffects h) h))))
  · exact .ringSettle (.flushRecs (.updRing (.ite (.notify (.updRing (.dropXfer (.each (fun _ _ k => .emit k) (.ite (.ctlEffects h)
      h))))) (.updRing (.dropXfer (.each (fun _ _ k => .emit k) (.ite (.ctlEffects h) h)))))))

theorem Held.flushIssue {i : Nat} (h : y.Held K) : (y.flushIssue i).Held K := by
  fun_cases Sys.flushIssue i y
  · exact h
  · exact h
  · exact h
  · exact .updInst (.mapX (.hostTake h))

theorem Held.tryPost {id : Nat} (h : y.Held K) : (y.tryPost id).Held K := by
  fun_cases Sys.tryPost id y
  · exact h
  · exact h
  · exact .ite (.rxRelease h) h
  · exact .postX (.ite (.rxRelease h) h)
  · exact .flushIssue (.updX (.ite (.rxRelease h) h))
  · exact .ite (.rxRelease h) h
  · exact .ite (.rxRelease h) h
  · exact .postX (.ite (.rxRelease h) h)

theorem Held.finOne {id st : Nat} (h : y.Held K) : (y.finOne id st).Held K := by
  fun_cases Sys.finOne id st y
  · exact h
  · exact h
  · exact .updX (.xferLeaves (.clearTt (.ite (.updEp h) h)))
  · exact .tryPost (.same (.updX (.xferLeaves (.clearTt (.ite (.updEp h) h)))))

theorem Held.finX {id st : Nat} (h : y.Held K) : (y.finX id st).Held K := by
  fun_cases Sys.finX id st y
  · exact h
  · exact h
  · exact .updX h
  · exact .each (fun _ _ k => (by
    split
    · split
      · exact .ite k (.finOne k)
      · exact k
    · exact k)) (.finOne h)

theorem Held.dRelease {n cnt g : Nat} (h : y.Held K) : (y.dRelease n cnt g).Held K := .updHolly h

theorem Held.dropRsv {x : Xfer} (h : y.Held K) : (y.dropRsv x).Held K := .ite (.updX (.dRelease h)) h

theorem Held.wireCut {p : Nat} (h : y.Held K) : (y.wireCut p).Held K := by
  have hcut : (y.updFrame p fun f => { f with cur := none }).Held K := .updFrame (fun _ hs => hs) h
  fun_cases Sys.wireCut p y
  · exact h
  · exact .dropTx (.ite (.txRewind hcut) hcut)
  · exact .finX (.ite (.splitDone (.rsvFree (.ite (.txRewind hcut) hcut))) (.ite (.txRewind hcut) hcut))
  · exact .dropRsv (.ite (.splitDone (.rsvFree (.ite (.txRewind hcut) hcut))) (.ite (.txRewind hcut)
      hcut))
  · exact .ite (.splitDone (.rsvFree (.ite (.txRewind hcut) hcut))) (.ite (.txRewind hcut) hcut)
  · exact .xferLeaves (.ite (.splitDone (.rsvFree (.ite (.txRewind hcut) hcut))) (.ite (.txRewind hcut)
      hcut))

theorem Held.splitOver {p id : Nat} (h : y.Held K) : (y.splitOver p id).Held K := by
  fun_cases Sys.splitOver p id y
  · exact h
  · exact .finX (.dropRsv (.splitDone (.rsvFree (.each (fun _ _ k => .ite (.txRewind k) k) h))))
  · exact .finX (.dropRsv (.splitDone (.rsvFree (.each (fun _ _ k => .ite (.txRewind k) k) h))))
  · exact .updX (.dropRsv (.splitDone (.rsvFree (.each (fun _ _ k => .ite (.txRewind k) k) h))))

theorem Held.cfgErr {g : Pg} (h : y.Held K) : (y.cfgErr g).Held K := .recordErr h

theorem Held.cfgErrD {g : Pg} {d : Nat} (h : y.Held K) : (y.cfgErrD g d).Held K := .recordErr h

theorem Held.setStaged {g : Pg} {b : Bool} (h : y.Held K) : (y.setStaged g b).Held K := .same h

theorem Held.capture {gen : Nat} (h : y.Held K) : (y.capture gen).Held K := .each (fun _ _ k => .setStaged k) (.same h)

theorem Held.commitWrite {gen : Nat} (h : y.Held K) : (y.commitWrite gen).2.Held K := by
  fun_cases Sys.commitWrite gen y
  · exact .cfgErr h
  · exact .setPg (.recordErr (.cfgErrD h))
  · exact .capture h

theorem Held.updCmd {q : Nat} {f : DCmd → DCmd} (h : y.Held K) : (y.updCmd q f).Held K := .updDec h

theorem Held.commitKick (h : y.Held K) : y.commitKick.Held K := .each (fun _ _ k => .ite k ((by
  split
  · next he => exact .updCmd ((.snd (.commitWrite k) he))
  · next he => exact .decEnd ((.snd (.commitWrite k) he))))) h

theorem Held.commitAnswer (h : y.Held K) : y.commitAnswer.Held K := .commitKick (.each (fun _ _ k => .decEnd k) h)

theorem Held.commitDone (h : y.Held K) : y.commitDone.Held K :=
  .ite (.each (fun _ _ k => .same (.ite (.recordErr k) k)) (.commitAnswer (.same h))) h

theorem Held.newWeight {p : Nat} {c : CapReg} (h : y.Held K) : (y.newWeight p c).Held K := by
  fun_cases Sys.newWeight p c y
  · exact .same h
  · exact h
  · exact h
  · exact h

theorem Held.updPtab {p : Nat} {f : PTab → PTab} (h : y.Held K) : (y.updPtab p f).Held K := .same h

theorem Held.endAlwaysNow {x : Xfer} (h : y.Held K) : (y.endAlwaysNow x).Held K :=
  .ite (.updX (.xferLeaves (.splitDone (.rsvFree (.dropRsv h))))) (.dropXfer (.xferLeaves (.splitDone (.rsvFree (.dropRsv h)))))

theorem Held.endAlways {x : Xfer} (h : y.Held K) : (y.endAlways x).Held K := .ite (.updX h) (.endAlwaysNow h)

theorem Held.refuseTaken {n e st : Nat} (h : y.Held K) : (y.refuseTaken n e st).Held K := .each (fun _ _ k => .updRing k) h

theorem Held.ptLeft {p : Nat} {t : PtEnt} (h : y.Held K) : (y.ptLeft p t).Held K :=
  .updEp (.refuseTaken (.ite (.each (fun _ _ k => .ite (.endAlways k) (.ite k (.finX k))) h) (.updPtab (.each (fun _ _ k => .ite
    (.endAlways k) (.ite k (.finX k))) h))))

theorem Held.retarget {p : Nat} {t : PtEnt} (h : y.Held K) : (y.retarget p t).Held K := .mapX h

theorem Held.landTab {p : Nat} (h : y.Held K) : (y.landTab p).Held K := by
  fun_cases Sys.landTab p y
  · exact h
  · exact .each (fun _ _ k => .updEp (.retarget k)) (.each (fun _ _ k => .ptLeft k) (.updPtab (.same h)))

theorem Held.landRegs (h : y.Held K) : y.landRegs.Held K := .each (fun _ _ k => .setReg k) (.same h)

theorem Held.applyPort {p : Nat} (h : y.Held K) : (y.applyPort p).Held K :=
  .landTab (.landRegs (.same (.each (fun _ _ k => .newWeight k) h)))

theorem Held.leaveMarked {p : Nat} (h : y.Held K) : (y.leaveMarked p).Held K := .each (fun _ _ k => .ptLeft k) (.same (.updPtab h))

theorem Held.sofStop {p : Nat} (h : y.Held K) : (y.sofStop p).Held K := by
  have hlow : ((Machine.each (fun id (y : Sys) => y.splitOver p id) ((y.wireCut p).frame p).cspOrder (y.wireCut p)).updFrame p fun f =>
      { f with sof := false, due := [], csp := [], cspOrder := [], ended := true }).Held K :=
    .updFrame (fun _ hs => nomatch hs) (.each (fun _ _ k => .splitOver k) (.wireCut h))
  exact .leaveMarked (.ite (.commitDone (.applyPort hlow)) hlow)

theorem Held.updEnums {f : List Enum → List Enum} (h : y.Held W.toKeeper) : (y.updEnums f).Held W.toKeeper := .usb h

theorem Held.dropEnum {p t : Nat} (h : y.Held W.toKeeper) : (y.dropEnum p t).Held W.toKeeper := .updEnums h

theorem Held.updHubPort {h' hp : Nat} {f : HubPort → HubPort} (h : y.Held W.toKeeper) : (y.updHubPort h' hp f).Held W.toKeeper :=
  .updSlot h

theorem Held.updPortOf {p t : Nat} {f : HubPort → HubPort} (h : y.Held W.toKeeper) : (y.updPortOf p t f).Held W.toKeeper := by
  fun_cases Sys.updPortOf p t f y
  · exact .updHubPort h
  · exact h

theorem Held.cutX {st id : Nat} (h : y.Held W.toKeeper) : (y.cutX st id).Held W.toKeeper := by
  fun_cases Sys.cutX st id y
  · exact h
  · exact h
  · exact .updX h
  · exact .finX (.updX h)

theorem Held.closeNow {n e : Nat} (h : y.Held W.toKeeper) : (y.closeNow n e).Held W.toKeeper :=
  .updEp (.refuseTaken (.each (fun _ _ k => .ite (.endAlways k) (.ite (.finX k) (.ite (.cutX k) k))) h))

theorem Held.chipLeave {p n e : Nat} (h : y.Held W.toKeeper) : (y.chipLeave p n e).Held W.toKeeper :=
  .each (fun _ _ k => .ptLeft k) (.same (.updPtab h))

theorem Held.markLeave {p n e : Nat} (h : y.Held W.toKeeper) : (y.markLeave p n e).Held W.toKeeper :=
  .ite (.ite (.updPtab h) (.leaveMarked (.updPtab h))) h

theorem Held.closeEp {now : Bool} {n e : Nat} (h : y.Held W.toKeeper) : (y.closeEp now n e).Held W.toKeeper :=
  .ite (.closeNow h) (.ite (.updEp (.chipLeave h)) (.markLeave h))

theorem Held.closeAll {now : Bool} {n : Nat} (h : y.Held W.toKeeper) : (y.closeAll now n).Held W.toKeeper :=
  .each (fun _ _ k => .closeEp k) h

theorem Held.abandonX {id : Nat} (h : y.Held W.toKeeper) : (y.abandonX id).Held W.toKeeper := by
  fun_cases Sys.abandonX id y
  · exact h
  · exact .holdFree (.xferLeaves (.dropXfer h))
  · exact .xferLeaves (.dropXfer h)
  · exact .xferLeaves (.dropXfer h)

theorem Held.ringStop {k st : Nat} (h : y.Held W.toKeeper) : (y.ringStop k st).Held W.toKeeper :=
  .flushRecs (.each (fun _ _ k => .ite (.cutX k) k) (.updRing (.each (fun _ _ k => .ite k (.abandonX k)) h)))

theorem Held.ringSlotEvent {n st : Nat} {nst : RingSt} (h : y.Held W.toKeeper) : (y.ringSlotEvent n st nst).Held W.toKeeper :=
  .each (fun _ _ k => .ite (.ringStop (.updRing k)) (.updRing (.ringStop (.updRing k)))) h

theorem Held.updPers {n : Nat} {f : Pers → Pers} (h : y.Held W.toKeeper) : (y.updPers n f).Held W.toKeeper := .updSlot h

theorem Held.delayCancel {flow tag : Nat} (h : y.Held W.toKeeper) : (y.delayCancel flow tag).Held W.toKeeper := by
  unfold Sys.delayCancel
  exact .updHolly h

theorem Held.timerOff {n : Nat} {k : PTimer} (h : y.Held W.toKeeper) : (y.timerOff n k).Held W.toKeeper := .updPers (.delayCancel h)

theorem Held.timersOff {n : Nat} (h : y.Held W.toKeeper) : (y.timersOff n).Held W.toKeeper := .each (fun _ _ k => .timerOff k) h

theorem Held.persEnd {n : Nat} (h : y.Held W.toKeeper) : (y.persEnd n).Held W.toKeeper := .updSlot (.timersOff (.ite h (.updEp h)))

theorem Held.reqCut {n : Nat} (h : y.Held W.toKeeper) : (y.reqCut n).Held W.toKeeper := .decWake h

theorem Held.freeSlot {n : Nat} (h : y.Held W.toKeeper) : (y.freeSlot n).Held W.toKeeper := by
  unfold Sys.freeSlot
  exact .decWake (.reqCut (.eng (.each (fun _ _ k => .chipLeave k) (.each (fun _ _ k => .endAlwaysNow k) h))))

theorem Held.slotEvent {n : Nat} {e : Ev} (h : y.Held W.toKeeper) : (y.slotEvent n e).Held W.toKeeper := by
  fun_cases Sys.slotEvent n e y
  · exact .tenantEvent (.meqEvent h)
  · exact .meqEvent h

theorem Held.sendDetach {p : Nat} {n : Option Nat} {cause : Nat} (h : y.Held W.toKeeper) : (y.sendDetach p n cause).Held W.toKeeper := by
  fun_cases Sys.sendDetach p n cause y
  · exact .slotEvent h
  · exact .meqEvent h

theorem Held.detachOne {p top t cause : Nat} (h : y.Held W.toKeeper) : (y.detachOne p top t cause).Held W.toKeeper := by
  fun_cases Sys.detachOne p top t cause y
  · exact .freeSlot (.ite (.sendDetach (.persEnd (.closeAll (.ringSlotEvent (.updSlot (.updPortOf (.dropEnum h))))))) (.sendDetach
      (.persEnd (.closeAll (.ringSlotEvent (.updSlot (.updPortOf (.dropEnum h))))))))
  · exact .sendDetach (.updPortOf (.dropEnum h))

theorem Held.detachTree {p t cause : Nat} (h : y.Held W.toKeeper) : (y.detachTree p t cause).Held W.toKeeper :=
  .each (fun _ _ k => .detachOne k) (.each (fun _ _ k => .updSlot k) h)

theorem Held.resumeDone {p t kind result : Nat} {rw : Bool} (h : y.Held W.toKeeper) : (y.resumeDone p t kind result rw).Held W.toKeeper
  := by
  unfold Sys.resumeDone
  exact .decWake (.each (fun _ _ k => .tenantEvent k) (.meqEvent h))

theorem Held.sendRwake {p t u : Nat} {mo : Nat × Nat} (h : y.Held W.toKeeper) : (y.sendRwake p t u mo).Held W.toKeeper := by
  fun_cases Sys.sendRwake p t u mo y
  · exact .slotEvent h
  · exact .meqEvent h

theorem Held.updPort {p : Nat} {f : Port → Port} (h : y.Held W.toKeeper) : (y.updPort p f).Held W.toKeeper := .same h

theorem Held.rwakeOut {p : Nat} (h : y.Held W.toKeeper) : (y.rwakeOut p).Held W.toKeeper := .ite (.sendRwake (.updPort h)) h

theorem Held.rootCut {p result : Nat} (h : y.Held W.toKeeper) : (y.rootCut p result).Held W.toKeeper :=
  .updPort (.ite (.resumeDone (.rwakeOut h)) (.rwakeOut h))

theorem Held.resumeCut {p t result : Nat} (h : y.Held W.toKeeper) : (y.resumeCut p t result).Held W.toKeeper := by
  unfold Sys.resumeCut
  exact .decWake (.ite (.rootCut (.each (fun _ _ k => .updHubPort (.ite (.resumeDone k) k)) h)) (.each (fun _ _ k => .updHubPort (.ite
    (.resumeDone k) k)) h))

theorem Held.dropTree {p t cause : Nat} (h : y.Held W.toKeeper) : (y.dropTree p t cause).Held W.toKeeper :=
  .decWake (.detachTree (.resumeCut h))

theorem Held.rootClear {p : Nat} (h : y.Held W.toKeeper) : (y.rootClear p).Held W.toKeeper := .updPort h

theorem Held.updPower {f : Power → Power} (h : y.Held W.toKeeper) : (y.updPower f).Held W.toKeeper := .same h

theorem Held.hpwrNotice {p : Nat} (h : y.Held W.toKeeper) : (y.hpwrNotice p).Held W.toKeeper := .ite (.notify h) h

theorem Held.hpwrDown {p : Nat} (h : y.Held W.toKeeper) : (y.hpwrDown p).Held W.toKeeper :=
  .ite (.hpwrNotice (.updPower (.updPort h))) (.updPower (.updPort h))

theorem Held.vbusDown {p : Nat} (h : y.Held W.toKeeper) : (y.vbusDown p).Held W.toKeeper := .updPower (.updPort h)

theorem Held.reserve {p r : Nat} {amount : ℤ} (h : y.Held W.toKeeper) : (y.reserve p r amount).Held W.toKeeper := .updPort h

theorem Held.setPend {r : Nat} {l : List PwReq} (h : y.Held W.toKeeper) : (y.setPend r l).Held W.toKeeper := .updPower h

theorem Held.powerDenied {p n r lim st kind req avail : Nat} (h : y.Held W.toKeeper) : (y.powerDenied p n r lim st kind req avail).Held
  W.toKeeper :=
  .slotEvent (.setBit h)

theorem Held.vbusLater {p : Nat} (h : y.Held W.toKeeper) : (y.vbusLater p).Held W.toKeeper := .updPower h

theorem Held.portUp {p : Nat} (h : y.Held W.toKeeper) : (y.portUp p).Held W.toKeeper :=
  .ite (.recordErr (.decWake (.updPort h))) (.decWake (.updPort h))

theorem Held.updEnum {p t : Nat} {f : Enum → Enum} (h : y.Held W.toKeeper) : (y.updEnum p t f).Held W.toKeeper := .updEnums h

theorem Held.enumSetConfig {p t : Nat} (h : y.Held W.toKeeper) : (y.enumSetConfig p t).Held W.toKeeper := by
  fun_cases Sys.enumSetConfig p t y
  · exact h
  · exact .issue (.ite (.updPort (.updEnum h)) (.updEnum h))

theorem Held.selectGranted {p : Nat} (h : y.Held W.toKeeper) : (y.selectGranted p).Held W.toKeeper :=
  .each (fun _ _ k => .reqTo (.updCmd k)) h

theorem Held.hpwrUp {p : Nat} (h : y.Held W.toKeeper) : (y.hpwrUp p).Held W.toKeeper := .hpwrNotice (.updPort h)

theorem Held.hpwrKick (h : y.Held W.toKeeper) : y.hpwrKick.Held W.toKeeper := by
  fun_cases Sys.hpwrKick y
  · exact h
  · exact .hpwrUp (.updPower h)
  · exact h

theorem Held.hpwrWant {p : Nat} (h : y.Held W.toKeeper) : (y.hpwrWant p).Held W.toKeeper := .hpwrKick (.updPower h)

theorem Held.granted {p : Nat} {k : PwKind} (h : y.Held W.toKeeper) : (y.granted p k).Held W.toKeeper := by
  fun_cases Sys.granted p k y
  · exact .vbusLater (.portUp h)
  · exact .updEnum h
  · exact .enumSetConfig h
  · exact h
  · exact .selectGranted h
  · exact .hpwrWant h

theorem Held.passRail {fuel r : Nat} (h : y.Held W.toKeeper) : (y.passRail fuel r).Held W.toKeeper := by
  induction fuel generalizing y with
  | zero => exact h
  | succ fuel ih =>
    unfold Sys.passRail
    split
    · exact h
    · exact .ite h (ih (.granted (.powerDenied (.reserve (.setPend h)))))

theorem Held.vbusUp {p : Nat} (h : y.Held W.toKeeper) : (y.vbusUp p).Held W.toKeeper := .updPort h

theorem Held.vbusKick {n : Nat} (h : y.Held W.toKeeper) : (y.vbusKick n).Held W.toKeeper := by
  fun_cases Sys.vbusKick n y
  · exact h
  · exact .vbusUp (.updPower h)
  · exact h

theorem Held.pass (h : y.Held W.toKeeper) : y.pass.Held W.toKeeper :=
  .each (fun _ _ k => .vbusKick k) (.passRail (.passRail (.passRail h)))

theorem Held.releaseAll {p : Nat} (h : y.Held W.toKeeper) : (y.releaseAll p).Held W.toKeeper := .pass (.updPort h)

theorem Held.withdrawIf {p : Nat} {f : PwKind → Bool} (h : y.Held W.toKeeper) : (y.withdrawIf p f).Held W.toKeeper :=
  .ite (.pass (.ite (.decWake (.decWake (.each (fun _ _ k => .each (fun _ _ l => .powerDenied l) (.setPend k)) h))) (.decWake (.each
    (fun _ _ k => .each (fun _ _ l => .powerDenied l) (.setPend k)) h)))) h

theorem Held.withdraw {p : Nat} (h : y.Held W.toKeeper) : (y.withdraw p).Held W.toKeeper := .withdrawIf h

theorem Held.rootOff {p cause : Nat} {st : PortSt} (h : y.Held W.toKeeper) : (y.rootOff p cause st).Held W.toKeeper :=
  .releaseAll (.withdraw (.updPort (.rootClear (.hpwrDown (.vbusDown (.sofStop (.dropTree h)))))))

theorem Held.portGone {cause p : Nat} (h : y.Held W.toKeeper) : (y.portGone cause p).Held W.toKeeper := .ite h (.rootOff h)

theorem Held.markHalt {g : Pg} (h : y.Canon) : (y.markHalt g).Canon := .part h

theorem Held.faultCount (h : y.Canon) : y.faultCount.Canon := .incFld h

theorem Held.faultRecord {g : Pg} {chip : Bool} (h : y.Canon) : (y.faultRecord g chip).Canon := .ite h (.part h)

theorem Held.rxLost {p : Nat} (h : y.Canon) : (y.rxLost p).Canon := .each (fun _ _ k => (by
  split
  · exact .ite (.tryPost (.updX k)) (.finX k)
  · exact k)) (.reclaimRx (.updFifo h))

theorem Held.settleRegion {n : Nat} (h : y.Held W.toKeeper) : (y.settleRegion n).Held W.toKeeper := .each (fun _ _ k => .tryPost k) h

theorem Held.stopRegion {n : Nat} (h : y.Canon) : (y.stopRegion n).Canon :=
  .settleRegion (.each (fun _ _ k => .portGone k) (.each (fun _ _ k => .rxLost k) h))

theorem Held.quarantine {n : Nat} {g : Pg} (h : y.Canon) : (y.quarantine n g).Canon :=
  .ite h (.stopRegion (.recordErr (.setPg (.part (.faultCount (.faultRecord h))))))

theorem Held.setDom {d : Nat} {st : DomSt} (h : y.Held W.toKeeper) : (y.setDom d st).Held W.toKeeper := .updDom h

theorem Held.regionFresh {n : Nat} (h : y.Held W.toKeeper) : (y.regionFresh n).Held W.toKeeper := .usb h

theorem Held.dnEvent {i : Nat} (h : y.Held W.toKeeper) : (y.dnEvent i).Held W.toKeeper :=
  .ite (.latchSet (.tenantEvent h)) (.tenantEvent h)

theorem Held.instSettle {i : Nat} (h : y.Held W.toKeeper) : (y.instSettle i).Held W.toKeeper := by
  fun_cases Sys.instSettle i y
  · exact h
  · exact .decWake (.ite (.dnEvent (.updInst h)) (.updInst h))
  · exact .decWake (.updInst h)
  · exact h

theorem Held.settleInsts (h : y.Held W.toKeeper) : y.settleInsts.Held W.toKeeper := .each (fun _ _ k => .instSettle k) h

theorem Held.updMari {f : Mari → Mari} (h : y.Held W.toKeeper) : (y.updMari f).Held W.toKeeper := .same h

theorem Held.dropUnits {d : Nat} (h : y.Held W.toKeeper) : (y.dropUnits d).Held W.toKeeper := .updMari h

theorem Held.dropSources {d : Nat} (h : y.Held W.toKeeper) : (y.dropSources d).Held W.toKeeper := .each (fun _ _ k => .updSrc k) h

theorem Held.commitForget {n : Nat} (h : y.Held W.toKeeper) : (y.commitForget n).Held W.toKeeper := .commitDone (.same h)

theorem Held.prgOff {n : Nat} (h : y.Held W.toKeeper) : (y.prgOff n).Held W.toKeeper :=
  .settleInsts (.dropUnits (.dropSources (.resetPages (.commitForget (.settleRegion (.regionFresh (.each (fun _ _ k => .portGone k)
    h)))))))

theorem Held.portRegs {n : Nat} (h : y.Held W.toKeeper) : (y.portRegs n).Held W.toKeeper := .each (fun _ _ k => .updPort k) h

theorem Held.phyFifo {p : Nat} (h : y.Held W.toKeeper) : (y.phyFifo p).Held W.toKeeper := .ite h (.each (fun _ _ k => (by
  split
  · exact .ite (.tryPost k) (.ite (.updX (.splitDone (.dropRsv k))) (.ite (.updX k) k))
  · exact k)) (.each (fun _ _ k => .ringSlotEvent k) (.updFifo h)))

theorem Held.phyExit {n : Nat} (h : y.Held W.toKeeper) : (y.phyExit n).Held W.toKeeper := .updMari h

theorem Held.phyOff {n : Nat} (h : y.Held W.toKeeper) : (y.phyOff n).Held W.toKeeper :=
  .phyExit (.dropUnits (.dropSources (.resetPages (.portRegs (.each (fun _ _ k => .phyFifo k) h)))))

theorem Held.dropService {c : Nat} (h : y.Held W.toKeeper) : (y.dropService c).Held W.toKeeper :=
  .updCore (.each (fun _ _ k => .updSrc k) h)

theorem Held.returnSlots {c : Nat} (h : y.Held W.toKeeper) : (y.returnSlots c).Held W.toKeeper := .updCore (.updHolly h)

theorem Held.persPoison {n : Nat} (h : y.Held W.toKeeper) : (y.persPoison n).Held W.toKeeper := by
  unfold Sys.persPoison
  refine .updPers (.timerOff (.timerOff (.timerOff ?_)))
  split
  · exact .updInst h
  · exact h

theorem Held.dropItem {c : Nat} (h : y.Held W.toKeeper) : (y.dropItem c).Held W.toKeeper := by
  fun_cases Sys.dropItem c y
  · exact h
  · exact .persPoison (.updCore (.updHolly h))
  · exact .updCore (.updHolly h)

theorem Held.clearHalt {c : Nat} (h : y.Held W.toKeeper) : (y.clearHalt (corePg c)).Held W.toKeeper := W.clear c h

theorem Held.coreMail {c : Nat} (h : y.Held W.toKeeper) : (y.coreMail c).Held W.toKeeper := .mbxReset (.tmbReset h)

theorem Held.coreDrop {c : Nat} (h : y.Held W.toKeeper) : (y.coreDrop c).Held W.toKeeper :=
  .incFld (.clearHalt (.coreMail (.dropService (.returnSlots (.dropItem h)))))

theorem Held.issueDrain {fuel : Nat} (h : y.Held W.toKeeper) : (y.issueDrain fuel).Held W.toKeeper := by
  induction fuel generalizing y with
  | zero => exact h
  | succ fuel ih =>
    unfold Sys.issueDrain
    split
    · exact .ite (ih (.updHolly h)) (.ite (ih (.issueNow (.updHolly h))) h)
    · exact h

theorem Held.expire {d : Delay} (h : y.Held W.toKeeper) : (y.expire d).Held W.toKeeper := .ite (.pushItem h) (.updHolly h)

theorem Held.lateDrain {fuel : Nat} (h : y.Held W.toKeeper) : (y.lateDrain fuel).Held W.toKeeper := by
  induction fuel generalizing y with
  | zero => exact h
  | succ fuel ih =>
    unfold Sys.lateDrain
    split
    · exact .ite (ih (.ite (.expire (.updHolly h)) (.updHolly (.updHolly h)))) h
    · exact h

theorem Held.expiryDrain {fuel : Nat} (h : y.Held W.toKeeper) : (y.expiryDrain fuel).Held W.toKeeper := by
  induction fuel generalizing y with
  | zero => exact h
  | succ fuel ih =>
    unfold Sys.expiryDrain
    split
    · exact .ite (ih (.pushItem (.updHolly h))) h
    · exact h

theorem Held.ovfDrain (h : y.Held W.toKeeper) : y.ovfDrain.Held W.toKeeper := by
  fun_cases Sys.ovfDrain y
  · exact h
  · exact .updHolly h
  · exact h

theorem Held.entryFreed (h : y.Held W.toKeeper) : y.entryFreed.Held W.toKeeper :=
  .noticeDrain (.issueDrain (.lateDrain (.expiryDrain (.ovfDrain h))))

theorem Held.coreOff {c : Nat} (h : y.Held W.toKeeper) : (y.coreOff c).Held W.toKeeper :=
  .entryFreed (.resetPages (.lsFresh (.updCore (.coreDrop h))))

theorem Held.domLost {d : Nat} (h : y.Held W.toKeeper) : (y.domLost d).Held W.toKeeper :=
  .ite (.prgOff h) (.ite (.phyOff h) (.ite (.dropUnits (.coreOff h)) h))

theorem Held.workOff (h : y.Held W.toKeeper) : y.workOff.Held W.toKeeper :=
  .each (fun _ _ k => .setDom (.setDom (.prgOff (.phyOff k)))) (.each (fun _ _ k => .setDom (.domLost k)) h)

theorem Held.faultAer {g : Pg} (h : y.Canon) : (y.faultAer g).Canon := .ite (.ite (.aer (.part h)) (.part h)) (.aer h)

theorem Held.chipFault {g : Pg} (h : y.Canon) : (y.chipFault g).Canon :=
  .ite h (.workOff (.faultAer (.part (.faultCount (.faultRecord h)))))

theorem Held.topFault {r : Nat} {g : Pg} (h : y.Canon) : (y.topFault r g).Canon := .ite h (.chipFault (.faultCount (.part h)))

theorem Held.updLdr {f : Loader → Loader} (h : y.Canon) : (y.updLdr f).Canon := .part h

theorem Held.ldqDone {status : Nat} (h : y.Canon) : (y.ldqDone status).Canon := .setPg (.emit h)

theorem Held.ldrPost {code : Nat} (h : y.Canon) : (y.ldrPost code).Canon :=
  .ite (.ldqDone (.updLdr (.ldrMsg (.updLdr h)))) (.ldrMsg (.updLdr h))

theorem Held.enterLoading (h : y.Canon) : y.enterLoading.Canon := .updLdr h

theorem Held.ldrFail {code : Nat} (h : y.Canon) : (y.ldrFail code).Canon := .ldrPost (.enterLoading (.incFld (.recordErr h)))

/-- The image area forgets what it held (R474). -/
theorem Held.loseSram {e : Nat} (h : y.Canon) : Canon { y with eng := { y.eng with sram := { epoch := e } } } := by
  obtain ⟨hr, -, hl⟩ := storageCanon_iff.1 h
  exact storageCanon_iff.2 ⟨hr, rfl, hl⟩

/-- After acceptance unwritten bytes read 0 (R484). -/
theorem Held.zeroSram {e : Nat} (h : y.Canon) : Canon { y with eng := { y.eng with sram := { zero := true, epoch := e } } } := by
  obtain ⟨hr, -, hl⟩ := storageCanon_iff.1 h
  exact storageCanon_iff.2 ⟨hr, rfl, hl⟩

theorem Held.startFail {code fw ms : Nat} (h : y.Canon) : (y.startFail code fw ms).Canon :=
  .ldrFail (.loseSram (.updLdr (.workOff h)))

theorem Held.ldrHalt (h : y.Canon) : y.ldrHalt.Canon := by
  fun_cases Sys.ldrHalt y
  · exact .ldrFail h
  · exact .ldrFail h
  · exact .startFail h
  · exact h

theorem Held.haltBlock {g : Pg} (h : y.Canon) : (y.haltBlock g).Canon := by
  fun_cases Sys.haltBlock g y
  · exact h
  · exact .portGone (.markHalt h)
  · exact .portGone (.markHalt h)
  · exact .quarantine (.markHalt h)
  · exact .quarantine (.markHalt h)
  · exact .quarantine (.markHalt h)
  · exact .quarantine (.markHalt h)
  · exact .topFault (.markHalt h)
  · exact .topFault (.markHalt h)
  · exact .topFault (.markHalt h)
  · exact .topFault (.markHalt h)
  · exact .topFault (.markHalt h)
  · exact .topFault (.markHalt h)
  · exact .topFault (.markHalt h)
  · exact .ldrHalt (.markHalt h)
  · exact .updCore (.markHalt h)
  · exact .chipFault (.markHalt h)
  · exact .markHalt h
  · exact .markHalt h
  · exact .markHalt h
  · exact .markHalt h

theorem Held.uncorr {g : Pg} {detail : Nat} (h : y.Canon) : (y.uncorr g detail).Canon := .haltBlock (.recordErr h)

theorem Held.carry {g : Pg} (h : y.Canon) : (y.carry g).Canon :=
  .each (fun _ _ k => .ite k (.ite (.recordErr (.disarm k)) (.ite (.uncorr (.disarm k)) k))) h

theorem Held.markSram {o n : Nat} {p : Bool} (h : y.Canon) : (y.markSram o n p).Canon := storageCanon_markSram o n p h

theorem Held.sramCarry {before : Sram} {off : Nat} (h : y.Canon) : (y.sramCarry before off).Canon :=
  .ite h (.carry (.ite (.markSram (.poisonNow h)) (.poisonNow h)))

theorem Held.refuse {org : Origin} {off : Nat} {isRead undef : Bool} (h : y.Canon) : (y.refuse org off isRead undef).Canon := by
  fun_cases Sys.refuse org off isRead undef y
  · exact .aer (.part h)
  · exact .part h
  · exact .aer (.part h)
  · exact .part h
  · exact .aer (.part h)
  · exact .part h
  · exact .part h

theorem Held.accErr {g : Pg} (h : y.Canon) : (y.accErr g).Canon := .recordErr h

theorem Held.setSram {o : Nat} {b : Byte} (h : y.Canon) : (y.setSram o b).Canon := storageCanon_setSram o b h

theorem Held.imgStore {o : Nat} {bs : List (Option Byte)} (h : y.Canon) : (y.imgStore o bs).Canon := by
  induction bs generalizing o y with
  | nil => exact h
  | cons b r ih =>
    cases b with
    | none => exact ih h
    | some b => exact ih (.setSram h)

theorem Held.doImageWrite {off : Nat} {data : List (Option Byte)} (h : y.Canon) : (doImageWrite off data y).Canon :=
  .ite (.refuse h) (.ite (.refuse h) (.ite (.accErr h) (.markSram (.imgStore h))))

theorem Held.doImage {off : Nat} {data : List (Option Byte)} (h : y.Canon) : (doImage off data y).Canon := .sramCarry (.doImageWrite h)

theorem Held.accAt {t : Target} (h : y.Canon) : (y.accAt t).Canon := by
  fun_cases Sys.accAt t y
  · exact .accErr h
  · exact h
  · exact (by
    split
    · exact .recordErr h
    · exact h)
  · exact (by
    split
    · exact .recordErr h
    · exact h)

theorem Held.answer {org : Origin} {off : Nat} {v : Word} (h : y.Canon) : (y.answer org off v).Canon := .part h

theorem Held.viaPage {org : Origin} {g : Pg} {o : Nat} {isRead : Bool} {f : Sys → Sys} (hf : ∀ z0, z0.Canon → (f z0).Canon) (h :
    y.Canon) : (y.viaPage org g o isRead f).Canon := by
  fun_cases Sys.viaPage org g o isRead f y
  · exact h
  · exact .ite (hf _ h) (.refuse h)
  · exact .ite (hf _ h) (.refuse h)
  · exact .ite (hf _ h) (.refuse h)
  · exact .ite (hf _ h) (.refuse h)

theorem Held.mbxNone {j : Nat} (h : y.Canon) : (y.mbxNone j).Canon := .recordErr h

theorem Held.mbxRefuse {org : Origin} {off j : Nat} {isRead : Bool} (h : y.Canon) : (y.mbxRefuse org off j isRead).Canon :=
  .mbxNone (.part h)

theorem Held.viaAny {org : Origin} {off : Nat} {g : Pg} {o : Nat} {isRead : Bool} {f : Sys → Sys} (hf : ∀ z0, z0.Canon → (f z0).Canon)
    (h : y.Canon) : (y.viaAny org off g o isRead f).Canon := .viaPage (fun _ k => (by
  split
  · exact .mbxRefuse k
  · exact hf _ k)) h

theorem Held.viaMsix {org : Origin} {off : Nat} {isRead : Bool} {f : Sys → Sys} (hf : ∀ z0, z0.Canon → (f z0).Canon) (h : y.Canon) :
    (y.viaMsix org off isRead f).Canon := by
  fun_cases Sys.viaMsix org off isRead f y
  · exact h
  · exact .ite (hf _ h) (.refuse h)
  · exact .ite (hf _ h) (.refuse h)
  · exact .ite (hf _ h) (.refuse h)
  · exact .ite (hf _ h) (.refuse h)

theorem Held.viaSub {i base o : Nat} {isRead : Bool} {f : Sys → Sys} (hf : ∀ z0, z0.Canon → (f z0).Canon) (h : y.Canon) :
    (y.viaSub i base o isRead f).Canon := .ite (hf _ h) (.refuse h)

theorem Held.smbErr (h : y.Canon) : y.smbErr.Canon := .incFld (.recordErr h)

theorem Held.noPage {org : Origin} {off : Nat} {isRead : Bool} (h : y.Canon) : (y.noPage org off isRead).Canon := by
  fun_cases Sys.noPage org off isRead y
  · exact .refuse h
  · exact h
  · exact .answer (.smbErr h)
  · exact .smbErr h
  · exact h
  · exact .refuse h

theorem Held.doAccErr {org : Origin} {off : Nat} {isRead : Bool} (h : y.Canon) : (doAccErr org off isRead y).Canon := by
  fun_cases Machine.doAccErr org off isRead y
  · exact .viaAny (fun _ k => .ite (.answer (.accAt k)) (.accAt k)) h
  · exact .viaMsix (fun _ k => .ite (.answer (.accAt k)) (.accAt k)) h
  · exact .viaMsix (fun _ k => .ite (.answer (.accAt k)) (.accAt k)) h
  · exact .viaSub (fun _ k => .ite (.answer (.accAt k)) (.accAt k)) h
  · exact .viaSub (fun _ k => .ite (.answer (.accAt k)) (.accAt k)) h
  · exact .viaSub (fun _ k => .ite (.answer (.accAt k)) (.accAt k)) h
  · exact .viaSub (fun _ k => .ite (.answer (.accAt k)) (.accAt k)) h
  · exact h
  · exact .noPage h

theorem Held.discardTab {p : Nat} (h : y.Canon) : (y.discardTab p).Canon :=
  .each (fun _ _ k => .updEp k) (.each (fun _ _ k => .ptLeft k) (.updPtab h))

theorem Held.discardPage {g : Pg} (h : y.Canon) : (y.discardPage g).Canon :=
  .ite h (.setStaged (.ite (.each (fun _ _ k => .discardTab k) (.each (fun _ _ k => .setReg k) h)) (.each (fun _ _ k => .setReg k) h)))

theorem Held.errInject {g : Pg} {v : Word} (h : y.Canon) : (y.errInject g v).Canon :=
  .ite (.setPg h) (.ite (.cfgErr h) (.ite (.recordErr (.setPg h)) (.setPg h)))

theorem Held.wrHdr {g : Pg} {o : Nat} {v : Word} (h : y.Canon) : (y.wrHdr g o v).Canon := by
  fun_cases Sys.wrHdr g o v y
  · exact .discardPage h
  · exact h
  · exact .setPg h
  · exact .errNotify (.setPg h)
  · exact .setFld h
  · exact h
  · exact .errInject h
  · exact h

theorem Held.wrPlain {g : Pg} {o : Nat} {v : Word} (h : y.Canon) : (y.wrPlain g o v).Canon := by
  fun_cases Sys.wrPlain g o v y
  · exact .cfgErr h
  · exact .setPg h
  · exact h

theorem Held.chanRestart {e c : Nat} (h : y.Canon) : (y.chanRestart e c).Canon := .ite (.updChan h) h

theorem Held.fwBegin {j : Nat} (h : y.Canon) : (y.fwBegin j).Canon := .ite (.updChan (.part h)) (.updChan (.part h))

theorem Held.fwStart {j : Nat} (h : y.Canon) : (y.fwStart j).Canon := .ite h (.ite (.cfgErrD h) (.fwBegin (.updChan h)))

theorem Held.wrFw {j r : Nat} {v : Word} (h : y.Canon) : (y.wrFw j r v).Canon :=
  .ite (.ite (.fwStart (.ite (.chanRestart (.wrPlain h)) (.wrPlain h))) (.ite (.chanRestart (.wrPlain h)) (.wrPlain h))) (.ite (.cfgErr
    h) (.wrPlain h))

theorem Held.wrDcqBase {v : Word} (h : y.Canon) : (y.wrDcqBase v).Canon :=
  .ite (.cfgErr h) (.ite (.wrPlain h) (.setPg (.setPg (.wrPlain h))))

theorem Held.srcAccept {s : Nat} (h : y.Canon) : (y.srcAccept s).Canon := .ite h (.ite (.srcRise h) (.srcFall h))

theorem Held.srcInput {s : Nat} {high : Bool} (h : y.Canon) : (y.srcInput s high).Canon :=
  .ite (.srcRise (.ite h (.updSrc h))) (.srcAccept (.ite h (.updSrc h)))

theorem Held.cicLevel {s : Nat} {high : Bool} (h : y.Canon) : (y.cicLevel s high).Canon := .routeAll (.srcInput h)

theorem Held.dcqAdvance {v : Word} (h : y.Canon) : (y.dcqAdvance v).Canon :=
  .ite (.cfgErr h) (.each (fun _ _ k => .fwBegin k) (.part (.ite (.cicLevel (.setPg h)) (.setPg h))))

theorem Held.wrDma {org : Origin} {e p : Nat} {g : Pg} {o : Nat} {v : Word} (h : y.Canon) : (y.wrDma org e p g o v).Canon :=
  .ite (.ite h (.ite (.ite (.wrFw h) (.ite (.chanRestart h) (.accErr h))) (.ite (.ite (.accErr h) (.ite (.chanRestart (.wrPlain h))
    (.wrPlain h))) h))) (.ite (.wrDcqBase h) (.ite (.dcqAdvance h) (.wrPlain h)))

theorem Held.stage {g : Pg} {o : Nat} {v : Word} (h : y.Canon) : (y.stage g o v).Canon := .setStaged (.setPg h)

theorem Held.wrStaged {g : Pg} {o : Nat} {v : Word} (h : y.Canon) : (y.wrStaged g o v).Canon := by
  fun_cases Sys.wrStaged g o v y
  · exact h
  · exact .cfgErr h
  · exact .stage h
  · exact h

theorem Held.ringWake {k : Nat} (h : y.Canon) : (y.ringWake k).Canon := .ite (.updRing h) h

theorem Held.ringEnable {k : Nat} (h : y.Canon) : (y.ringEnable k).Canon := by
  fun_cases Sys.ringEnable k y
  · exact .updRing h
  · exact .updRing h
  · exact .updRing h
  · exact h

theorem Held.ringDisable {k : Nat} (h : y.Canon) : (y.ringDisable k).Canon := by
  fun_cases Sys.ringDisable k y
  · exact .ringSettle (.ringStop (.updRing h))
  · exact .updRing h
  · exact h

theorem Held.ringClearHalt {k e : Nat} (h : y.Canon) : (y.ringClearHalt k e).Canon := by
  fun_cases Sys.ringClearHalt k e y
  · exact .updEp h
  · exact .updEp h
  · exact .updEp h
  · exact .updEp h
  · exact h

theorem Held.scanGo {k : Nat} (h : y.Canon) : (y.scanGo k).Canon := .ite (.hostTake h) h

theorem Held.scanRead {k : Nat} (h : y.Canon) : (y.scanRead k).Canon := .ite h (.ite (.scanGo h) (.fetchWait h))

theorem Held.scanStart {k : Nat} (h : y.Canon) : (y.scanStart k).Canon :=
  .ite (.part (.ite h (.scanRead (.updRing h)))) (.ite h (.scanRead (.updRing h)))

theorem Held.dbAct {k : Nat} {op : DbOp} (h : y.Canon) : (y.dbAct k op).Canon := .cacheUse ((by
  split
  · exact .ringWake h
  · exact .ringEnable h
  · exact .ringDisable h
  · exact .ringClearHalt h
  · exact .scanStart h))

theorem Held.doorbell {k : Nat} {op : DbOp} (h : y.Canon) : (y.doorbell k op).Canon := .ite h (.ite (.dbAct h) (.ctxRead (.part h)))

theorem Held.viewDisable (h : y.Canon) : y.viewDisable.Canon := .ite (.ite (.updRing (.doorbell h)) (.doorbell h)) h

theorem Held.wrRng {p o : Nat} {v : Word} (h : y.Canon) : (y.wrRng p o v).Canon :=
  .ite (.wrStaged h) (.ite (.ite (.cfgErr h) (.wrPlain h)) (.ite (.ite (.cfgErr h) (.wrPlain h)) (.ite (.ite (.cfgErr h) (.ite
    (.wrPlain h) (.setPg (.setPg (.wrPlain h))))) (.ite (.ite (.viewDisable h) h) (.wrPlain h)))))

theorem Held.discardAll (h : y.Canon) : y.discardAll.Canon := .ite (.cfgErr h) (.each (fun _ _ k => .discardPage k) h)

theorem Held.wrBase {g : Pg} {o size pi ci : Nat} {v : Word} (h : y.Canon) : (y.wrBase g o size pi ci v).Canon :=
  .ite (.cfgErr h) (.setPg (.setPg (.wrPlain h)))

theorem Held.wrSize {g : Pg} {size pi ci : Nat} {v : Word} {z : Sys} (h : y.Canon) (he : y.wrSize g size pi ci v = some z) :
    z.Canon := by
  unfold Sys.wrSize at he
  dsimp only at he
  split at he
  · split at he <;> cases he
    exact .setPg (.ite h (.setPg (.setPg h)))
  · cases he

theorem Held.mcqSetEn {en : Bool} (h : y.Canon) : (y.mcqSetEn en).Canon := .setFld h

theorem Held.wrPi {g : Pg} {size pi ci : Nat} {v : Word} (h : y.Canon) : (y.wrPi g size pi ci v).Canon := .ite (.cfgErr h) (.setPg h)

theorem Held.meqFlushGo {fuel : Nat} {vs : List Nat} (h : y.Canon) : (y.meqFlushGo fuel vs).2.Canon := by
  induction fuel generalizing vs y with
  | zero => exact h
  | succ fuel ih =>
    unfold Sys.meqFlushGo
    split
    · exact h
    · split
      · exact ih (.meqPut (.updDec h))
      · exact ih (.updDec h)
      · split
        · split
          · exact ih (.meqPutEv (.updDec h))
          · exact ih (.updDec h)
          · exact h
        · exact h

theorem Held.meqFlush (h : y.Canon) : y.meqFlush.Canon := .each (fun _ _ k => .msix k) (.meqFlushGo h)

theorem Held.upEvent {i : Nat} (h : y.Canon) : (y.upEvent i).Canon := .meqEvent h

theorem Held.meqSetEn {en : Bool} (h : y.Canon) : (y.meqSetEn en).Canon :=
  .ite (.setFld h) (.decSweep (.ite (.each (fun _ _ k => .ite (.upEvent (.updInst k)) (.updInst k)) (.updDec (.meqFlush (.setFld h))))
    (.meqFlush (.setFld h))))

theorem Held.meqAdvance {v : Word} (h : y.Canon) : (y.meqAdvance v).Canon := .ite (.cfgErr h) (.decSweep (.meqFlush (.setPg h)))

theorem Held.mgrRestart (h : y.Canon) : y.mgrRestart.Canon := .restartEnd (.decSweep (.updDec h))

theorem Held.wrTen {p o : Nat} {v : Word} (h : y.Canon) : (y.wrTen p o v).Canon := by
  fun_cases Sys.wrTen p o v y
  · exact .wrPlain h
  · exact .discardAll h
  · exact .commitWrite h
  · exact .wrBase h
  · exact .wrBase h
  · exact .mcqSetEn (.wrSize h ‹_›)
  · exact .cfgErr h
  · exact .wrPi h
  · exact .wrBase h
  · exact .wrBase h
  · exact .meqSetEn (.wrSize h ‹_›)
  · exact .cfgErr h
  · exact .meqAdvance h
  · exact .mgrRestart h
  · exact h
  · exact .wrPlain h

theorem Held.goAccept {fromLdq : Bool} (h : y.Canon) : (y.goAccept fromLdq).Canon := .incFld (.updLdr h)

theorem Held.ldrGo {v : Word} (h : y.Canon) : (y.ldrGo v).Canon := .ite (.accErr h) (.ite (.cfgErr h) (.goAccept h))

theorem Held.ldqSetEn {en : Bool} (h : y.Canon) : (y.ldqSetEn en).Canon := .setFld h

theorem Held.wrLdr {o : Nat} {v : Word} (h : y.Canon) : (y.wrLdr o v).Canon := by
  fun_cases Sys.wrLdr o v y
  · exact .accErr h
  · exact .ldrGo h
  · exact .wrBase h
  · exact .wrBase h
  · exact .ldqSetEn (.wrSize h ‹_›)
  · exact .cfgErr h
  · exact .wrPi h
  · exact .wrPlain h

theorem Held.errClear {g : Pg} (h : y.Canon) : (y.errClear g).Canon := .setPg (.setPg (.setPg (.setPg h)))

theorem Held.powerGo {p r a : Nat} {k : PwKind} {n : Nat} {hs : List (Nat × ℤ)} (h : y.Canon) : (y.powerGo p r a k n hs).2.Canon := by
  fun_cases Sys.powerGo p r a k n hs y
  · exact .reserve h
  · exact .powerDenied (.setPend h)

theorem Held.powerReq {p r : Nat} {amount : ℤ} {k : PwKind} (h : y.Canon) : (y.powerReq p r amount k).2.Canon := by
  fun_cases Sys.powerReq p r amount k y
  · exact .ite (.pass (.reserve h)) (.reserve h)
  · exact .powerDenied h
  · exact .powerGo h
  · exact .powerGo h

theorem Held.vbusWant {p : Nat} (h : y.Canon) : (y.vbusWant p).Canon := .ite (.vbusLater h) (.updPower (.vbusUp h))

theorem Held.powerOnReq {p : Nat} (h : y.Canon) : (y.powerOnReq p).Canon := by
  fun_cases Sys.powerOnReq p y
  · exact h
  · exact .vbusWant (.portUp (.snd (.powerReq h) ‹_›))
  · exact .snd (.powerReq h) ‹_›

theorem Held.portUnit {p : Nat} (h : y.Canon) : (y.portUnit p).Canon :=
  .ite h (.ite (.powerOnReq (.errClear (.errClear (.part (.part (.portGone h)))))) (.errClear (.errClear (.part
    (.part (.portGone h))))))

theorem Held.wrPrg {n o : Nat} {v : Word} (h : y.Canon) : (y.wrPrg n o v).Canon :=
  .ite (.each (fun _ _ k => .ite (.portUnit k) k) h) (.wrPlain h)

theorem Held.evMark {p r : Nat} {y0 : Sys} (h : y0.Canon) (h2 : y.Canon) : (y0.evMark p r y).Canon := .ite (.updPort h2) h2

theorem Held.portOn {p : Nat} {z : Sys} (h : y.Canon) (he : y.portOn p = some z) : z.Canon := by
  unfold Sys.portOn at he
  split at he
  · cases he
  · split at he
    · split at he <;> cases he
      exact .powerOnReq h
    · cases he
      exact .powerOnReq (.updPort h)
    · cases he

theorem Held.portOff {p : Nat} (h : y.Canon) : (y.portOff p).Canon := .ite (.withdraw h) (.rootOff h)

theorem Held.updDrw {n : Nat} {f : Drawer → Drawer} (h : y.Canon) : (y.updDrw n f).Canon := .updPers h

theorem Held.persEvent {n ty epid t : Nat} {p : List Word} (h : y.Canon) : (y.persEvent n ty epid t p).Canon := by
  fun_cases Sys.persEvent n ty epid t p y
  · exact .tenantEvent h
  · exact h

theorem Held.drawerClosed {n epid res tag openMs : Nat} (h : y.Canon) : (y.drawerClosed n epid res tag openMs).Canon := .persEvent h

theorem Held.dispAck {n : Nat} {c : DispCmd} {res : Nat} (h : y.Canon) : (y.dispAck n c res).Canon := .persEvent h

theorem Held.persAtReset {n : Nat} (h : y.Canon) : (y.persAtReset n).Canon := by
  fun_cases Sys.persAtReset n y
  · exact .updPers (.timerOff h)
  · exact .updPers (.timerOff h)
  · exact .updPers h
  · exact .updPers (.ite (.updDrw (.timerOff (.ite (.updDrw (.drawerClosed h)) h))) (.ite (.updDrw (.drawerClosed h)) h))
  · exact .each (fun _ _ k => .dispAck k) (.dispAck (.updPers h))
  · exact .updPers h
  · exact .updPers h

theorem Held.resetOne {n : Nat} (h : y.Canon) : (y.resetOne n).Canon :=
  .mapX (.each (fun _ _ k => .xferLeaves (.splitDone (.rsvFree (.dropRsv k)))) (.reqCut (.updSlot (.ite (.persEnd (.persAtReset
    (.ringSlotEvent h))) (.persAtReset (.ringSlotEvent h))))))

theorem Held.resetTree {p t : Nat} (h : y.Canon) : (y.resetTree p t).Canon :=
  .each (fun _ _ k => .ite (.freeSlot k) k) (.updEnums (.each (fun _ _ k => .each (fun _ _ l => .closeEp l) k) (.each (fun _ _ k =>
    .each (fun _ _ l => .ite (.closeEp l) l) k) (.each (fun _ _ k => .resetOne k) (.each (fun _ _ k => .updSlot k) h)))))

theorem Held.queueAgain {p t n : Nat} (h : y.Canon) : (y.queueAgain p t n).Canon := .updEnums h

theorem Held.queueNew {p t : Nat} {r : PwRes} (h : y.Canon) : (y.queueNew p t r).Canon := .updEnums h

theorem Held.withdrawDev {p : Nat} (h : y.Canon) : (y.withdrawDev p).Canon := .withdrawIf h

theorem Held.requeueRoot {p : Nat} {old : Option Nat} (h : y.Canon) : (y.requeueRoot p old).Canon := .updPort ((by
  split
  · exact .queueAgain h
  · exact .queueNew (.withdrawDev (.rootClear h))))

theorem Held.requeueHub {p t : Nat} {old : Option Nat} (h : y.Canon) : (y.requeueHub p t old).Canon := .updPortOf ((by
  split
  · exact .queueAgain h
  · exact .queueNew h))

theorem Held.requeue {p t : Nat} (h : y.Canon) : (y.requeue p t).Canon :=
  .ite (.requeueRoot (.resetTree (.resumeCut h))) (.requeueHub (.resetTree (.resumeCut h)))

theorem Held.portReset {p : Nat} {z : Sys} (h : y.Canon) (he : y.portReset p = some z) : z.Canon := by
  unfold Sys.portReset at he
  split at he
  · exact Option.some.inj he ▸ Held.requeue h
  · exact Option.some.inj he ▸ Held.requeue h
  · exact Option.some.inj he ▸ Held.requeue h
  · cases he

theorem Held.portDisable {p : Nat} (h : y.Canon) : (y.portDisable p).Canon := .updPort (.sofStop h)

theorem Held.toBase {p : Nat} (h : y.Canon) : (y.toBase p).2.Canon := by
  fun_cases Sys.toBase p y <;> exact .powerReq h

theorem Held.highOff {p : Nat} (h : y.Canon) : (y.highOff p).Canon := .pass (.updPort (.hpwrDown h))

theorem Held.detachPower {p : Nat} (h : y.Canon) : (y.detachPower p).Canon := .toBase (.highOff (.withdraw h))

theorem Held.reqFree {n : Nat} {setup : List Byte} (h : y.Canon) : (y.reqFree n setup).Canon := .ctlIssue h

theorem Held.hubPortDisable {p t : Nat} (h : y.Canon) : (y.hubPortDisable p t).Canon := by
  fun_cases Sys.hubPortDisable p t y
  · exact .reqFree (.updHubPort h)
  · exact h

theorem Held.disableAt {p t : Nat} (h : y.Canon) : (y.disableAt p t).Canon :=
  .ite (.portDisable (.detachPower (.rootClear (.dropTree h)))) (.hubPortDisable (.dropTree h))

theorem Held.portDis {p : Nat} {z : Sys} (h : y.Canon) (he : y.portDis p = some z) : z.Canon := by
  unfold Sys.portDis at he
  split at he
  · exact Option.some.inj he ▸ Held.disableAt h
  · exact Option.some.inj he ▸ Held.disableAt h
  · cases he

theorem Held.rootAct {p cmd : Nat} {z : Sys} (h : y.Canon) (he : y.rootAct p cmd = some z) : z.Canon := by
  unfold Sys.rootAct at he
  split at he
  · exact .portOn h he
  · split at he <;> cases he
    exact .portOff h
  · exact .portReset h he
  · exact .portDis h he
  · cases he
    exact h

theorem Held.rootCmd {p cmd : Nat} {z : Sys} (h : y.Canon) (he : y.rootCmd p cmd = some z) : z.Canon := by
  unfold Sys.rootCmd at he
  split at he
  · cases he
  · obtain ⟨a, ha, rfl⟩ := Option.map_eq_some_iff.1 he
    exact .evMark h (.rootAct h ha)

theorem Held.portCmd {p cmd : Nat} (h : y.Canon) : (y.portCmd p cmd).Canon := by
  fun_cases Sys.portCmd p cmd y
  · exact .rootCmd h ‹_›
  · exact .cfgErr h

theorem Held.testSel {p sel : Nat} (h : y.Canon) : (y.testSel p sel).Canon := by
  fun_cases Sys.testSel p sel y
  · exact h
  · exact .updPort (.vbusDown (.sofStop h))
  · exact .cfgErr h
  · exact .emit (.updPort (.ite (.part (.ite (.sofStop (.dropTree h)) (.detachPower (.rootClear (.sofStop (.dropTree h)))))) (.ite
      (.sofStop (.dropTree h)) (.detachPower (.rootClear (.sofStop (.dropTree h)))))))
  · exact .cfgErr h
  · exact .emit (.updPort (.ite (.part (.ite (.sofStop (.dropTree h)) (.detachPower (.rootClear (.sofStop (.dropTree h)))))) (.ite
      (.sofStop (.dropTree h)) (.detachPower (.rootClear (.sofStop (.dropTree h)))))))
  · exact .cfgErr h
  · exact .emit (.updPort (.ite (.part (.ite (.sofStop (.dropTree h)) (.detachPower (.rootClear (.sofStop (.dropTree h)))))) (.ite
      (.sofStop (.dropTree h)) (.detachPower (.rootClear (.sofStop (.dropTree h)))))))
  · exact .cfgErr h

theorem Held.testCmd {p sel : Nat} (h : y.Canon) : (y.testCmd p sel).Canon := .ite (.cfgErr h) (.evMark h (.testSel h))

theorem Held.armWake {p t : Nat} (h : y.Canon) : (y.armWake p t).Canon := .each (fun _ _ k => .ite (.reqFree k) k) h

theorem Held.suspAsk {p h' hp : Nat} (h : y.Canon) : (y.suspAsk p h' hp).Canon := .ite h (.hubReq (.updHubPort h))

theorem Held.suspendGo {p t : Nat} (h : y.Canon) : (y.suspendGo p t).Canon := by
  fun_cases Sys.suspendGo p t y
  · exact .ite (.armWake (.updPort h)) (.updPort h)
  · exact .sofStop (.ite (.armWake (.updPort h)) (.updPort h))
  · exact .suspAsk (.ite (.armWake (.updHubPort h)) (.updHubPort h))
  · exact h

theorem Held.resumeGo {p t : Nat} {wake : Bool} (h : y.Canon) : (y.resumeGo p t wake).Canon := by
  fun_cases Sys.resumeGo p t wake y
  · exact .emit (.updPort h)
  · exact .updHubPort h
  · exact .hubReq (.updHubPort h)
  · exact h

theorem Held.setHold {p t k : Nat} (h : y.Canon) : (y.setHold p t k).Canon := .ite (.updPort h) (.updPortOf h)

theorem Held.suspReq {p t : Nat} {res rw : Bool} (h : y.Canon) : (y.suspReq p t res rw).Canon := by
  fun_cases Sys.suspReq p t res rw y
  · exact .suspendGo (.ite (.updPort (.incFld h)) (.updPortOf (.incFld h)))
  · exact .resumeGo (.ite (.updPort (.incFld h)) (.updPortOf (.incFld h)))
  · exact .setHold (.ite (.updPort (.incFld h)) (.updPortOf (.incFld h)))
  · exact .setHold (.ite (.updPort (.incFld h)) (.updPortOf (.incFld h)))
  · exact .updPort (.ite (.updPort (.incFld h)) (.updPortOf (.incFld h)))
  · exact .ite (.updPort (.incFld h)) (.updPortOf (.incFld h))
  · exact .ite (.updPort (.incFld h)) (.updPortOf (.incFld h))

theorem Held.suspWrite {p : Nat} {res rw : Bool} (h : y.Canon) : (y.suspWrite p res rw).Canon := by
  fun_cases Sys.suspWrite p res rw y
  · exact .suspReq h
  · exact .suspReq h
  · exact .cfgErr (.incFld (.updPort h))

theorem Held.wrLnk {p o : Nat} {v : Word} (h : y.Canon) : (y.wrLnk p o v).Canon := by
  fun_cases Sys.wrLnk p o v y
  · exact .portCmd h
  · exact .testCmd h
  · exact .suspWrite h
  · exact .suspWrite h
  · exact .updPort h
  · exact .wrPlain h

theorem Held.paceThr {n : Nat} {v : Word} (h : y.Canon) : (y.paceThr n v).Canon := .ite (.setPg h) (.cfgErr h)

theorem Held.wrFrm {n p o : Nat} {v : Word} (h : y.Canon) : (y.wrFrm n p o v).Canon :=
  .ite (.wrStaged h) (.ite (.paceThr h) (.ite (.cfgErr h) (.wrPlain h)))

theorem Held.wrFif {p o : Nat} {v : Word} (h : y.Canon) : (y.wrFif p o v).Canon := .ite (.ite (.wrPlain h) (.cfgErr h)) (.wrPlain h)

theorem Held.wrWsc {p o : Nat} {v : Word} (h : y.Canon) : (y.wrWsc p o v).Canon :=
  .ite h (.ite (.ite (.cfgErr h) (.entryFreed (.wrPlain h))) (.ite (.cfgErr h) (.wrPlain h)))

theorem Held.coreReset {c cause : Nat} (h : y.Canon) : (y.coreReset c cause).Canon :=
  .routeAll (.entryFreed (.ite (.updCore (.coreDrop h)) (.mbxAgain (.updCore (.coreDrop h)))))

theorem Held.wrCore {org : Origin} {c o : Nat} {v : Word} (h : y.Canon) : (y.wrCore org c o v).Canon :=
  .ite (.routeAll (.ite (.coreReset (.ite (.setPg h) (.ite h (.accErr h)))) (.ite (.setPg h) (.ite h (.accErr h))))) (.ite (.accErr h)
    (.wrPlain h))

theorem Held.endHandler {fast : Bool} {c : Nat} (h : y.Canon) : (y.endHandler fast c).Canon := .updCore h

theorem Held.complete {fast : Bool} {c s : Nat} (h : y.Canon) : (y.complete fast c s).Canon :=
  .ite (.routeAll (.endHandler (.updSrc h))) (.recordErr h)

theorem Held.pendClear {s : Nat} (h : y.Canon) : (y.pendClear s).Canon := .ite (.updSrc h) h

theorem Held.swi {t : Nat} (h : y.Canon) : (y.swi t).Canon := .routeAll (.updSrc h)

theorem Held.wrCic {p o : Nat} {v : Word} (h : y.Canon) : (y.wrCic p o v).Canon :=
  .ite (.complete h) (.ite (.routeAll (.each (fun _ _ k => .ite (.pendClear k) k) h)) (.ite (.swi h) (.ite (.ite (.routeAll (.wrPlain
    h)) h) h)))

theorem Held.mbxWrite {j m : Nat} {f : Sys → Sys} (hf : ∀ z0, z0.Canon → (f z0).Canon) (h : y.Canon) : (y.mbxWrite j m f).Canon :=
  .ite (.recordErr h) (hf _ h)

theorem Held.mbxRecv {j : Nat} {go rev : Bool} (h : y.Canon) : (y.mbxRecv j go rev).Canon := .updMbx h

theorem Held.mbxGo {j m : Nat} (h : y.Canon) : (y.mbxGo j m).Canon := .mbxTell (.updMbx h)

theorem Held.mbxSend {j m : Nat} {go : Bool} {len : Nat} (h : y.Canon) : (y.mbxSend j m go len).Canon :=
  .ite h (.ite (.recordErr h) (.ite (.mbxGo (.updMbx h)) (.updMbx h)))

theorem Held.mbxCtl {j m : Nat} {v : Word} (h : y.Canon) : (y.mbxCtl j m v).Canon :=
  .mbxWrite (fun _ k => .ite (.mbxRecv k) (.mbxSend k)) h

theorem Held.mbxLockWrite {j m v : Nat} (h : y.Canon) : (y.mbxLockWrite j m v).Canon := .ite (.updMbx h) h

theorem Held.mbxCfg {j : Nat} {v : Word} (h : y.Canon) : (y.mbxCfg j v).Canon := .ite (.cfgErr h) (.updMbx h)

theorem Held.mbxData {j m d : Nat} {v : Word} (h : y.Canon) : (y.mbxData j m d v).Canon :=
  .mbxWrite (fun _ k => .ite k (.ite (.accErr k) (.ite (.recordErr k) (.updMbx k)))) h

theorem Held.wrMbx {org : Origin} {p o : Nat} {v : Word} (h : y.Canon) : (y.wrMbx org p o v).Canon := by
  fun_cases Sys.wrMbx org p o v y
  · exact .mbxCtl h
  · exact .mbxLockWrite h
  · exact .mbxCfg h
  · exact .mbxData h
  · exact h
  · exact h

theorem Held.upCtlRecv {i : Nat} {go rev : Bool} (h : y.Canon) : (y.upCtlRecv i go rev).Canon := .updInst h

theorem Held.dnCtlSend {i m : Nat} {go : Bool} {len : Nat} (h : y.Canon) : (y.dnCtlSend i m go len).Canon :=
  .ite (.recordErr h) (.ite (.recordErr h) (.ite (.dnEvent (.updInst (.updInst h))) (.updInst h)))

theorem Held.dnLockWrite {i m v : Nat} (h : y.Canon) : (y.dnLockWrite i m v).Canon := .ite (.updInst h) h

theorem Held.wrTmb {org : Origin} {i o : Nat} {v : Word} (h : y.Canon) : (y.wrTmb org i o v).Canon :=
  .ite (.upCtlRecv h) (.ite (.dnCtlSend h) (.ite (.ite (.recordErr h) (.ite (.recordErr h) (.updInst h))) (.ite (.dnLockWrite h) (.ite
    (.updInst h) h))))

theorem Held.domRefused {d : Nat} {t : DomSt} {kind src : Nat} {r : Refuse} (h : y.Canon) : (y.domRefused d t kind src r).Canon :=
  .cicPulse (.meqEvent (.updDom h))

theorem Held.coreDrain {c : Nat} (h : y.Canon) : (y.coreDrain c).Canon := .ite (.returnSlots h) (.updCore (.returnSlots h))

theorem Held.quiesce {d : Nat} {t : DomSt} (h : y.Canon) : (y.quiesce d t).Canon := .ite (.coreDrain (.updDom h)) (.updDom h)

theorem Held.lowerChild {t : DomSt} {c : Nat} (h : y.Canon) : (y.lowerChild t c).Canon := by
  fun_cases Sys.lowerChild t c y
  · exact h
  · exact .quiesce (.updDom (.countReq h))
  · exact .countReq h
  · exact .updDom (.countReq h)
  · exact .countReq h
  · exact .updDom (.countReq h)
  · exact .countReq h
  · exact .updDom (.countReq h)
  · exact .updDom (.countReq h)

theorem Held.lower {d : Nat} {t : DomSt} {src : Nat} (h : y.Canon) : (y.lower d t src).Canon :=
  .ite (.quiesce (.each (fun _ _ k => .lowerChild k) (.updDom h))) (.each (fun _ _ k => .lowerChild k) (.updDom h))

theorem Held.domGo {d : Nat} {t : DomSt} {src : Nat} (h : y.Canon) : (y.domGo d t src).Canon := by
  fun_cases Sys.domGo d t src y
  · exact h
  · exact .domRefused h
  · exact h
  · exact .beginExit (.updDom h)
  · exact h
  · exact .domRefused h
  · exact .lower h

theorem Held.domReq {d st src : Nat} (h : y.Canon) : (y.domReq d st src).Canon :=
  .ite (.cfgErr h) (.ite (.cfgErr h) (.ite (.domRefused (.countReq h)) (.ite (.domRefused (.countReq h)) (.ite (.countReq h) (.ite
    (.updDom (.countReq h)) (.domGo (.countReq h)))))))

theorem Held.latchClear {w : Nat} {v : Word} (h : y.Canon) : (y.latchClear w v).Canon :=
  .routeAll (.each (fun _ _ k => .ite (.srcFall k) k) (.wrPlain h))

theorem Held.unhaltRegion {n : Nat} (h : y.Canon) : (y.unhaltRegion n).Canon := .part h

theorem Held.regionReset {n : Nat} (h : y.Canon) : (y.regionReset n).Canon := by
  fun_cases Sys.regionReset n y
  · exact .incFld h
  · exact .updDom (.updDom (.part (.unhaltRegion (.setDom (.prgOff (.countReq (.setDom (.phyOff (.countReq (.ite (.incFld h)
      (.stopRegion (.incFld h))))))))))))

theorem Held.wrSnw {org : Origin} {p o : Nat} {v : Word} (h : y.Canon) : (y.wrSnw org p o v).Canon := by
  fun_cases Sys.wrSnw org p o v y
  · exact .domReq h
  · exact .updDom h
  · exact h
  · exact .latchClear h
  · exact .latchClear h
  · exact .each (fun _ _ k => .ite (.regionReset k) k) h
  · exact .part h
  · exact h
  · exact .wrPlain h

theorem Held.updNv {f : NvStore → NvStore} (h : y.Canon) : (y.updNv f).Canon := .part h

theorem Held.portEvent {p r : Nat} {f : Sys → Sys} (h : y.Canon) (hf : ∀ z0, z0.Canon → (f z0).Canon) : (y.portEvent p r f).Canon :=
  .ite h (.evMark h (hf _ h))

theorem Held.nvEffect {j : Nat} (h : y.Canon) : (y.nvEffect j).Canon :=
  .ite (.ite (.portEvent h (fun _ k => .portOff k)) h) (.ite (.pass h) (.ite (.ite (.smbErr h) h) h))

theorem Held.nvAccept {w : NvW} (h : y.Canon) : (y.nvAccept w).Canon := .nvEffect (.updNv h)

theorem Held.nvArrive {j : Nat} {v : Word} (h : y.Canon) : (y.nvArrive j v).Canon :=
  .ite h (.ite (.updNv h) (.ite (.nvEffect h) (.ite (.nvAccept h) (.updNv h))))

theorem Held.nvWrite {org : Origin} {j : Nat} {v : Word} (h : y.Canon) : (y.nvWrite org j v).Canon := .ite (.accErr h) (.nvArrive h)

theorem Held.wrNvs {org : Origin} {p o : Nat} {v : Word} (h : y.Canon) : (y.wrNvs org p o v).Canon := .ite (.nvWrite h) (.wrPlain h)

theorem Held.wrMon {p o : Nat} {v : Word} (h : y.Canon) : (y.wrMon p o v).Canon := .ite (.wrPlain h) (.wrPlain h)

theorem Held.tlqGo {fuel : Nat} {any : Bool} (h : y.Canon) : (y.tlqGo fuel any).2.Canon := by
  induction fuel generalizing any y with
  | zero => exact h
  | succ fuel ih =>
    unfold Sys.tlqGo
    split
    · split
      · exact ih (.updMari (.setPg (.emit h)))
      · exact h
    · exact h

theorem Held.tlqDrain (h : y.Canon) : y.tlqDrain.Canon := .ite (.msix (.tlqGo h)) (.tlqGo h)

theorem Held.tlqSetEn {en : Bool} (h : y.Canon) : (y.tlqSetEn en).Canon := .ite (.tlqDrain (.setFld h)) (.setFld h)

theorem Held.tlqCi {v : Word} (h : y.Canon) : (y.tlqCi v).Canon := .ite (.cfgErr h) (.tlqDrain (.setPg h))

theorem Held.wrMnt {p o : Nat} {v : Word} (h : y.Canon) : (y.wrMnt p o v).Canon := by
  fun_cases Sys.wrMnt p o v y
  · exact .wrBase h
  · exact .wrBase h
  · exact .tlqSetEn (.wrSize h ‹_›)
  · exact .cfgErr h
  · exact .tlqCi h
  · exact .wrPlain h

theorem Held.wrBlk {org : Origin} {g : Pg} {o : Nat} {v : Word} (h : y.Canon) : (y.wrBlk org g o v).Canon := by
  fun_cases Sys.wrBlk org g o v y
  · exact .wrPlain h
  · exact .wrPlain h
  · exact .wrPlain h
  · exact .wrDma h
  · exact .wrDma h
  · exact .wrRng h
  · exact .wrTen h
  · exact .wrLdr h
  · exact .wrPrg h
  · exact .wrLnk h
  · exact .wrFrm h
  · exact .wrFif h
  · exact .wrWsc h
  · exact .wrCore h
  · exact .wrCic h
  · exact .wrMbx h
  · exact .wrTmb h
  · exact .wrSnw h
  · exact .wrNvs h
  · exact .wrMon h
  · exact .wrMnt h

theorem Held.wr {org : Origin} {g : Pg} {o : Nat} {v : Word} (h : y.Canon) : (y.wr org g o v).Canon :=
  .ite (.carry (.ite (.accErr h) (.ite (.wrHdr h) (.wrBlk h)))) (.ite (.accErr h) (.ite (.wrHdr h) (.wrBlk h)))

theorem Held.wrMsix {o : Nat} {v : Word} (h : y.Canon) : (y.wrMsix o v).Canon :=
  .ite h (.ite (.ite (.msix (.part (.setReg h))) (.setReg h)) (.setReg h))

theorem Held.wrDb {i o : Nat} {v : Word} (h : y.Canon) : (y.wrDb i o v).Canon :=
  .ite (.doorbell h) (.ite (.doorbell h) (.ite (.doorbell h) h))

theorem Held.upPost {i : Nat} (h : y.Canon) : (y.upPost i).Canon := .ite (.updInst h) (.upEvent (.updInst h))

theorem Held.upCtlSend {i : Nat} {go : Bool} {len : Nat} (h : y.Canon) : (y.upCtlSend i go len).Canon :=
  .ite h (.ite (.upPost (.updInst h)) (.updInst h))

theorem Held.dnCtlRecv {i : Nat} {go rev : Bool} (h : y.Canon) : (y.dnCtlRecv i go rev).Canon := .updInst h

theorem Held.wrMail {i o : Nat} {v : Word} (h : y.Canon) : (y.wrMail i o v).Canon :=
  .ite (.upCtlSend h) (.ite (.ite h (.updInst h)) (.ite (.dnCtlRecv h) h))

theorem Held.wrMsgs {i o : Nat} {v : Word} (h : y.Canon) : (y.wrMsgs i o v).Canon := by
  fun_cases Sys.wrMsgs i o v y
  · exact h
  · exact .updInst h
  · exact .updInst h
  · exact .updInst h
  · exact .sendMsg (.updInst h)
  · exact .updInst h

theorem Held.doRegWrite {org : Origin} {off : Nat} {v : Word} (h : y.Canon) : (doRegWrite org off v y).Canon := by
  fun_cases Machine.doRegWrite org off v y
  · exact .doImage h
  · exact .doAccErr h
  · exact .viaAny (fun _ k => .wr k) h
  · exact .viaMsix (fun _ k => .wrMsix k) h
  · exact .viaMsix (fun _ k => k) h
  · exact .viaSub (fun _ k => .wrDb k) h
  · exact .viaSub (fun _ k => k) h
  · exact .viaSub (fun _ k => .wrMail k) h
  · exact .viaSub (fun _ k => .wrMsgs k) h
  · exact .noPage h
  · exact .noPage h

theorem Held.msgRc {i o : Nat} (h : y.Canon) : (y.msgRc i o).Canon := .ite (.updInst h) h

theorem Held.readBy {rd : Origin → Nat → Pg → Nat → Sys → Sys} {org : Origin} {off : Nat} (hrd : ∀ z0 z1 z2 z3 z4, z4.Canon → (rd z0
    z1 z2 z3 z4).Canon) (h : y.Canon) : (readBy rd org off y).Canon := by
  fun_cases Machine.readBy rd org off y
  · exact .answer h
  · exact .refuse h
  · exact .doAccErr h
  · exact .viaAny (fun _ k => hrd _ _ _ _ _ k) h
  · exact .viaMsix (fun _ k => .answer k) h
  · exact .viaMsix (fun _ k => .answer k) h
  · exact .viaSub (fun _ k => .answer k) h
  · exact .viaSub (fun _ k => .answer k) h
  · exact .viaSub (fun _ k => .answer k) h
  · exact .viaSub (fun _ k => .msgRc (.answer k)) h
  · exact .noPage h
  · exact .noPage h

theorem Held.clearRc {g : Pg} {o : Nat} (h : y.Canon) : (y.clearRc g o).Canon := by
  fun_cases Sys.clearRc g o y
  · exact .setPg h
  · exact .updDom h
  · exact h
  · exact h
  · exact .setPg h
  · exact h

theorem Held.spurious {c : Nat} (h : y.Canon) : (y.spurious c).Canon := .incFld (.incFld h)

theorem Held.claim {fast : Bool} {c : Nat} (h : y.Canon) : (y.claim fast c).2.Canon := by
  fun_cases Sys.claim fast c y
  · exact .spurious h
  · exact .updCore (.updSrc h)
  · exact .routeAll (.spurious (.endHandler (.updSrc h)))
  · exact .spurious h

theorem Held.dnLockRead {i m : Nat} (h : y.Canon) : (y.dnLockRead i m).2.Canon := by
  fun_cases Sys.dnLockRead i m y
  · exact .updInst h
  · exact h
  · exact h

theorem Held.mbxLockRead {j m : Nat} (h : y.Canon) : (y.mbxLockRead j m).2.Canon := by
  fun_cases Sys.mbxLockRead j m y
  · exact .updMbx h
  · exact h
  · exact h

theorem Held.rd {org : Origin} {g : Pg} {o : Nat} (h : y.Canon) : (y.rd org g o).2.Canon := by
  fun_cases Sys.rd org g o y
  · exact .setPg h
  · exact .clearRc h
  · exact .claim h
  · exact h
  · exact .clearRc h
  · exact .dnLockRead h
  · exact .clearRc h
  · exact .mbxLockRead h
  · exact .clearRc h
  · exact .clearRc h

theorem Held.rdNow {org : Origin} {off : Nat} {g : Pg} {o : Nat} (h : y.Canon) : (y.rdNow org off g o).Canon := by
  fun_cases Sys.rdNow org off g o y
  · exact .answer h
  · exact .answer (.rd h)

theorem Held.rdOut {org : Origin} {off : Nat} {g : Pg} {o : Nat} (h : y.Canon) : (y.rdOut org off g o).Canon := by
  fun_cases Sys.rdOut org off g o y
  · exact .part h
  · exact .rdNow h

theorem Held.doRegRead {org : Origin} {off : Nat} (h : y.Canon) : (doRegRead org off y).Canon := .readBy (fun _ _ _ _ _ k => .rdOut k) h

theorem Held.doUr {org : Origin} {off : Nat} {isRead : Bool} (h : y.Canon) : (doUr org off isRead y).Canon :=
  .ite h (.ite (.doRegRead h) (.doRegWrite h))

theorem Held.viaReg {org : Origin} {g : Pg} {o : Nat} {isRead : Bool} {f : Sys → Sys} (hf : ∀ z0, z0.Canon → (f z0).Canon) (h :
    y.Canon) : (y.viaReg org g o isRead f).Canon := by
  fun_cases Sys.viaReg org g o isRead f y
  · exact .viaPage (fun _ k => hf _ k) h
  · exact .viaPage (fun _ k => hf _ k) h
  · exact .viaPage (fun _ k => hf _ k) h
  · exact h
  · exact h

theorem Held.doNvWrite {org : Origin} {j : Nat} {v : Word} (h : y.Canon) : (doNvWrite org j v y).Canon :=
  .viaReg (fun _ k => .nvWrite k) h

theorem Held.smbLess {j : Nat} (h : y.Canon) : (y.smbLess j).Canon := by
  fun_cases Sys.smbLess j y
  · exact .part h
  · exact h
  · exact h

theorem Held.nvReadsGo {j : Nat} (h : y.Canon) : (y.nvReadsGo j).Canon := .part (.part h)

theorem Held.readsOn {j : Nat} (h : y.Canon) : (y.readsOn j).Canon := .smbLess (.nvReadsGo h)

theorem Held.nvTakeHeld (h : y.Canon) : (y.nvTakeHeld).2.Canon := by
  fun_cases Sys.nvTakeHeld y
  · exact .readsOn (.nvEffect (.updNv h))
  · exact .nvAccept (.updNv h)
  · exact h
  · exact h

theorem Held.smbDone (h : y.Canon) : y.smbDone.Canon := .incFld h

theorem Held.smbStep {n : Nat} (h : y.Canon) : (y.smbStep n).Canon := .ite (.part h) (.part h)

theorem Held.smbRead {off : Nat} (h : y.Canon) : (y.smbRead off).2.Canon := by
  fun_cases Sys.smbRead off y
  · exact .part (.readBy (fun _ _ _ _ _ k => .rdNow k) h)
  · exact .readBy (fun _ _ _ _ _ k => .rdNow k) h
  · exact .part h

theorem Held.smbGo {fuel : Nat} (h : y.Canon) : (y.smbGo fuel).Canon := by
  fun_induction Sys.smbGo fuel y with
  | case1 => exact h
  | case2 => exact h
  | case3 => exact h
  | case4 => exact .smbDone (.smbStep (.emit (.part h)))
  | case5 => exact .part h
  | case6 _ _ _ _ _ _ _ _ _ _ ih => exact ih (.part (.smbRead h))

theorem Held.doStaged {org : Origin} {off : Nat} {v : Word} (h : y.Canon) : (doStaged org off v y).Canon := .ite (.doRegWrite h) h

theorem Held.doHeader {org : Origin} {page o : Nat} {v : Word} (h : y.Canon) : (doHeader org page o v y).Canon := by
  fun_cases Machine.doHeader org page o v y
  · exact .doRegWrite h
  · exact h

theorem Held.doTenCommit {gen : Nat} (h : y.Canon) : (doTenCommit gen y).Canon := .viaPage (fun _ k => .carry (.commitWrite k)) h

theorem Held.doDiscardAll (h : y.Canon) : (doDiscardAll y).Canon := .viaPage (fun _ k => .discardAll k) h

theorem Held.doPaceThrWrite {region : Nat} {val : Word} (h : y.Canon) : (doPaceThrWrite region val y).Canon :=
  .viaPage (fun _ k => .paceThr k) h

theorem Held.viaInst {i off : Nat} {isRead : Bool} {f : Sys → Sys} (hf : ∀ z0, z0.Canon → (f z0).Canon) (h : y.Canon) :
    (y.viaInst i off isRead f).Canon := .ite (hf _ h) (.part h)

theorem Held.doDbWake {i r : Nat} (h : y.Canon) : (doDbWake i r y).Canon := .viaInst (fun _ k => .doorbell k) h

theorem Held.doDbEnable {i r : Nat} (h : y.Canon) : (doDbEnable i r y).Canon := .viaInst (fun _ k => .doorbell k) h

theorem Held.doDbDisable {i r : Nat} (h : y.Canon) : (doDbDisable i r y).Canon := .viaInst (fun _ k => .doorbell k) h

theorem Held.doDbClearHalt {i r e : Nat} (h : y.Canon) : (doDbClearHalt i r e y).Canon := .viaInst (fun _ k => .doorbell k) h

theorem Held.doDbCmp {i c : Nat} (h : y.Canon) : (doDbCmp i c y).Canon := .viaInst (fun _ k => .doorbell k) h

theorem Held.doDbEvt {i : Nat} (h : y.Canon) : (doDbEvt i y).Canon := .viaInst (fun _ k => .doorbell k) h

theorem Held.doViewDisable (h : y.Canon) : (doViewDisable y).Canon := .viaPage (fun _ k => .viewDisable k) h

theorem Held.fetchTake {u : HUse} (h : y.Canon) : (y.fetchTake u).Canon := by
  fun_cases Sys.fetchTake u y
  · exact .ctxGo (.part h)
  · exact .scanGo (.part h)
  · exact .part h

theorem Held.fetchIssue {fuel : Nat} (h : y.Canon) : (y.fetchIssue fuel).Canon := by
  induction fuel generalizing y with
  | zero => exact h
  | succ fuel ih =>
    unfold Sys.fetchIssue
    split
    · exact ih (.ite (.hostTake (.part h)) (.ctxRead (.part h)))
    · exact h

theorem Held.fetchPump (h : y.Canon) : y.fetchPump.Canon :=
  .fetchIssue (.each (fun _ _ k => .ite (.fetchTake k) k) (.ite (.each (fun _ _ k => .ctxPut k) (.part h)) h))

theorem Held.recSweep (h : y.Canon) : y.recSweep.Canon :=
  .each (fun _ _ k => .flushIssue k) (.each (fun _ _ k => .flushRecs k) (.each (fun _ _ k => .tryPost k) h))

theorem Held.chanFreed {e c : Nat} (h : y.Canon) : (y.chanFreed e c).Canon := by
  fun_cases Sys.chanFreed e c y
  · exact h
  · exact .fetchPump h
  · exact .recSweep h
  · exact .meqFlush h
  · exact h

theorem Held.doChanRestart {org : Origin} {e c : Nat} (h : y.Canon) : (doChanRestart org e c y).Canon := by
  fun_cases Machine.doChanRestart org e c y
  · exact h
  · exact .viaPage (fun _ k => .ite (.chanFreed (.chanRestart k)) k) h
  · exact .viaPage (fun _ k => .ite (.chanRestart k) (.accErr k)) h
  · exact h

theorem Held.doPortCmd {p cmd : Nat} (h : y.Canon) : (doPortCmd p cmd y).Canon := .viaPage (fun _ k => .portCmd k) h

theorem Held.doPortTest {p sel : Nat} (h : y.Canon) : (doPortTest p sel y).Canon := .viaPage (fun _ k => .testCmd k) h

theorem Held.doPortSusp {p : Nat} {res rw : Bool} (h : y.Canon) : (doPortSusp p res rw y).Canon := .viaPage (fun _ k => .suspWrite k) h

theorem Held.doMeqCi {v : Word} (h : y.Canon) : (doMeqCi v y).Canon := .viaPage (fun _ k => .meqAdvance k) h

theorem Held.doMcqEn {en : Bool} (h : y.Canon) : (doMcqEn en y).Canon := .viaPage (fun _ k => .mcqSetEn k) h

theorem Held.doMeqEn {en : Bool} (h : y.Canon) : (doMeqEn en y).Canon := .viaPage (fun _ k => .meqSetEn k) h

theorem Held.doMgrRestart (h : y.Canon) : (doMgrRestart y).Canon := .viaPage (fun _ k => .mgrRestart k) h

theorem Held.viaMbox {i o : Nat} {isRead : Bool} {f : Sys → Sys} (hf : ∀ z0, z0.Canon → (f z0).Canon) (h : y.Canon) :
    (y.viaMbox i o isRead f).Canon := .ite (hf _ h) (.refuse h)

theorem Held.doTmbPost {i : Nat} {org : Origin} {len : Nat} (h : y.Canon) : (doTmbPost i org len y).Canon := by
  fun_cases Machine.doTmbPost i org len y
  · exact .viaMbox (fun _ k => .upCtlSend k) h
  · exact .viaPage (fun _ k => .dnCtlSend k) h
  · exact .viaPage (fun _ k => .dnCtlSend k) h
  · exact h

theorem Held.doTmbPostC {i : Nat} {org : Origin} {len : Nat} (h : y.Canon) : (doTmbPostC i org len y).Canon :=
  .ite (.doTmbPost h) (.carry (.doTmbPost h))

theorem Held.doTmbFree {i : Nat} {org : Origin} (h : y.Canon) : (doTmbFree i org y).Canon := by
  fun_cases Machine.doTmbFree i org y
  · exact .viaMbox (fun _ k => .dnCtlRecv k) h
  · exact .viaPage (fun _ k => .upCtlRecv k) h
  · exact .viaPage (fun _ k => .upCtlRecv k) h
  · exact h

theorem Held.doDnLockAcquire {i : Nat} {org : Origin} (h : y.Canon) : (doDnLockAcquire i org y).Canon := by
  fun_cases Machine.doDnLockAcquire i org y
  · exact .viaPage (fun _ k => .part (.dnLockRead k)) h
  · exact .viaPage (fun _ k => .part (.dnLockRead k)) h
  · exact h

theorem Held.doDnLockRelease {i : Nat} {org : Origin} (h : y.Canon) : (doDnLockRelease i org y).Canon := by
  fun_cases Machine.doDnLockRelease i org y
  · exact .viaPage (fun _ k => .dnLockWrite k) h
  · exact .viaPage (fun _ k => .dnLockWrite k) h
  · exact h

theorem Held.doMsgUnmask {i e : Nat} (h : y.Canon) : (doMsgUnmask i e y).Canon := .doRegWrite h

theorem Held.doMsixUnmask {v : Nat} (h : y.Canon) : (doMsixUnmask v y).Canon := .doRegWrite h

theorem Held.viaMaster {j m o : Nat} {isRead : Bool} {f : Sys → Sys} (hf : ∀ z0, z0.Canon → (f z0).Canon) (h : y.Canon) :
    (y.viaMaster j m o isRead f).Canon := .ite (.viaPage (fun _ k => .ite (.mbxNone (.part k)) (hf _ k)) h) (.dite (fun _ => .viaPage
      (fun _ k => .ite (.mbxNone (.part k)) (hf _ k)) h) (fun _ => .ite h (.ite (.mbxNone h) (hf _ h))))

theorem Held.doMbxPost {j m len : Nat} (h : y.Canon) : (doMbxPost j m len y).Canon :=
  .viaMaster (fun _ k => .mbxWrite (fun _ l => .ite (.accErr l) (.mbxSend l)) k) h

theorem Held.doMbxPostC {j m len : Nat} (h : y.Canon) : (doMbxPostC j m len y).Canon := .ite (.doMbxPost h) (.carry (.doMbxPost h))

theorem Held.doMbxFree {j m : Nat} (h : y.Canon) : (doMbxFree j m y).Canon :=
  .viaMaster (fun _ k => .mbxWrite (fun _ l => .ite (.mbxRecv l) (.accErr l)) k) h

theorem Held.doMbxLock {j m : Nat} (h : y.Canon) : (doMbxLock j m y).Canon := .viaMaster (fun _ k => .part (.mbxLockRead k)) h

theorem Held.doMbxUnlock {j m : Nat} (h : y.Canon) : (doMbxUnlock j m y).Canon := .viaMaster (fun _ k => .mbxLockWrite k) h

theorem Held.doCoreReset {c : Nat} (h : y.Canon) : (doCoreReset c y).Canon := .viaPage (fun _ k => .coreReset k) h

theorem Held.doCicRead {org : Origin} {off : Nat} (h : y.Canon) : (doCicRead org off y).Canon := by
  fun_cases Machine.doCicRead org off y
  · exact .doRegRead h
  · exact .doRegRead h
  · exact h

theorem Held.doCicClaim {org : Origin} {c : Nat} (h : y.Canon) : (doCicClaim org c y).Canon := .doCicRead h

theorem Held.doCicFclaim {org : Origin} {c : Nat} (h : y.Canon) : (doCicFclaim org c y).Canon := .doCicRead h

theorem Held.doCicWrite {org : Origin} {off : Nat} {v : Word} (h : y.Canon) : (doCicWrite org off v y).Canon := by
  fun_cases Machine.doCicWrite org off v y
  · exact .doRegWrite h
  · exact .doRegWrite h
  · exact h

theorem Held.doCicComplete {org : Origin} {c src : Nat} (h : y.Canon) : (doCicComplete org c src y).Canon := .doCicWrite h

theorem Held.doCicFcomplete {org : Origin} {c src : Nat} (h : y.Canon) : (doCicFcomplete org c src y).Canon := .doCicWrite h

theorem Held.doCicSwi {org : Origin} {t : Nat} (h : y.Canon) : (doCicSwi org t y).Canon := .doCicWrite h

theorem Held.doCicPend {org : Origin} {src : Nat} (h : y.Canon) : (doCicPend org src y).Canon := .doCicWrite h

theorem Held.doLdrGo {v : Word} (h : y.Canon) : (doLdrGo v y).Canon := .viaPage (fun _ k => .ldrGo k) h

theorem Held.doDomReq {org : Origin} {d st : Nat} (h : y.Canon) : (doDomReq org d st y).Canon := .viaReg (fun _ k => .domReq k) h

theorem Held.doRegionReset {n : Nat} (h : y.Canon) : (doRegionReset n y).Canon := .viaPage (fun _ k => .regionReset k) h

theorem Held.doPortUnit {p : Nat} (h : y.Canon) : (doPortUnit p y).Canon := .viaPage (fun _ k => .portUnit k) h

theorem Held.doTlqCi {org : Origin} {v : Word} (h : y.Canon) : (doTlqCi org v y).Canon := .viaReg (fun _ k => .tlqCi k) h

theorem Held.readTb {org : Origin} (h : y.Canon) : (y.readTb org).Canon := .part (.setPg h)

theorem Held.doTbMfRead {org : Origin} (h : y.Canon) : (doTbMfRead org y).Canon := .viaReg (fun _ k => .readTb k) h

theorem Held.waited {c : Instr} (h : y.Canon) : (waited c y).Canon := by
  cases c with
  | registerWrite => exact .doRegWrite h
  | registerRead => exact .doRegRead h
  | accessError => exact .doAccErr h
  | unsupportedRequest => exact .doUr h
  | nvWrite => exact .doNvWrite h
  | stagedWrite => exact .doStaged h
  | discard => exact .doHeader h
  | tenCommit => exact .doTenCommit h
  | discardAll => exact .doDiscardAll h
  | errorInject => exact .doHeader h
  | imageWrite => exact .doImage h
  | paceThrWrite => exact .doPaceThrWrite h
  | dbWake => exact .doDbWake h
  | dbEnable => exact .doDbEnable h
  | dbDisable => exact .doDbDisable h
  | dbClearHalt => exact .doDbClearHalt h
  | dbCmp => exact .doDbCmp h
  | dbEvt => exact .doDbEvt h
  | rngViewDisable => exact .doViewDisable h
  | channelRestart => exact .doChanRestart h
  | powerOn => exact .doPortCmd h
  | powerOff => exact .doPortCmd h
  | resetCmd => exact .doPortCmd h
  | disableCmd => exact .doPortCmd h
  | testModeSelect => exact .doPortTest h
  | testModeClear => exact .doPortTest h
  | portSuspendReq => exact .doPortSusp h
  | portResumeReq => exact .doPortSusp h
  | meqCiWrite => exact .doMeqCi h
  | mcqEnable => exact .doMcqEn h
  | meqEnable => exact .doMeqEn h
  | mgrRestart => exact .doMgrRestart h
  | tmbPost => exact .doTmbPostC h
  | tmbFree => exact .doTmbFree h
  | tmbDnLockAcquire => exact .doDnLockAcquire h
  | tmbDnLockRelease => exact .doDnLockRelease h
  | msgUnmask => exact .doMsgUnmask h
  | msixUnmask => exact .doMsixUnmask h
  | mbxPost => exact .doMbxPostC h
  | mbxFree => exact .doMbxFree h
  | mbxLockAcquire => exact .doMbxLock h
  | mbxLockRelease => exact .doMbxUnlock h
  | coreReset => exact .doCoreReset h
  | cicClaim => exact .doCicClaim h
  | cicFclaim => exact .doCicFclaim h
  | cicComplete => exact .doCicComplete h
  | cicFcomplete => exact .doCicFcomplete h
  | cicSwi => exact .doCicSwi h
  | cicPendClear => exact .doCicPend h
  | ldrGo => exact .doLdrGo h
  | domainRequest => exact .doDomReq h
  | regionReset => exact .doRegionReset h
  | portUnitReset => exact .doPortUnit h
  | tlqCiWrite => exact .doTlqCi h
  | tbMfRead => exact .doTbMfRead h
  | _ => exact h

theorem Held.waitRun (h : y.Canon) : y.waitRun.Canon := .each (fun _ _ k => .ite (.waited k) (.part k)) (.part h)

theorem Held.nvWear {kind j count spare : Nat} (h : y.Canon) : (y.nvWear kind j count spare).Canon := .cicPulse (.meqEvent h)

theorem Held.nvWarn {j : Nat} (h : y.Canon) : (y.nvWarn j).Canon := .ite (.nvWear (.updNv h)) h

theorem Held.nvExhausted {j : Nat} (h : y.Canon) : (y.nvExhausted j).Canon := .recordErr (.nvWear h)

theorem Held.nvWorn {j : Nat} (h : y.Canon) : (y.nvWorn j).Canon := .ite (.nvExhausted h) (.updMari (.updNv h))

theorem Held.nvDurable (h : y.Canon) : y.nvDurable.Canon := by
  fun_cases Sys.nvDurable y
  · exact h
  · exact .nvWorn (.nvWarn (.readsOn (.updMari (.updNv h))))
  · exact .nvWarn (.readsOn (.updMari (.updNv h)))

theorem Held.commitPoint (h : y.Canon) : y.commitPoint.Canon :=
  .ite (.commitDone (.each (fun _ _ k => .applyPort k) (.landRegs (.part h)))) h

theorem Held.toCommit (h : y.Canon) : y.toCommit.Canon := .ite (.part h) h

theorem Held.paceEval {n v : Nat} (h : y.Canon) : (y.paceEval n v).Canon := .each (fun _ _ k => .meqEvent k) (.ite (.part h) ((by
  split
  · exact .part h
  · exact .incFld (.part h)
  · exact .recordErr (.incFld (.part h)))))

theorem Held.treeFault {p t : Nat} (h : y.Canon) : (y.treeFault p t).Canon :=
  .ite h (.ite (.disableAt (.ite (.updPort h) (.updPortOf h))) (.requeue (.incFld (.ite (.updPort h) (.updPortOf h)))))

theorem Held.strikeFaults {p : Nat} {before : List (Nat × Nat)} (h : y.Canon) : (y.strikeFaults p before).Canon :=
  .each (fun _ _ k => .ite (.treeFault k) k) h

theorem Held.activate {p : Nat} (h : y.Canon) : (y.activate p).Canon := .each (fun _ _ k => .updSlot k) h

theorem Held.oldDrop {p : Nat} (h : y.Canon) : (y.oldDrop p).Canon := .updPtab h

theorem Held.txSeal {p num : Nat} (h : y.Canon) : (y.txSeal p num).Canon := .updTx h

theorem Held.evict {p : Nat} {t : TxPkt} (h : y.Canon) : (y.evict p t).Canon := .dropTx (.incFld (.updFifo (.mapX h)))

theorem Held.evalFifo {p : Nat} (h : y.Canon) : (y.evalFifo p).Canon := by
  fun_cases Sys.evalFifo p y
  · exact .evict (.evalMarks h)
  · exact .evalMarks h
  · exact .evalMarks h

theorem Held.txAppend {p num : Nat} {bs : List (Byte × Bool)} (h : y.Canon) : (y.txAppend p num bs).Canon := .evalFifo (.updFifo h)

theorem Held.txOpen {p : Nat} {t : TxPkt} (h : y.Canon) : (y.txOpen p t).Canon := .updFifo h

theorem Held.txWhole {p : Nat} {t : TxPkt} {bs : List Byte} (h : y.Canon) : (y.txWhole p t bs).Canon := .txSeal (.txAppend (.txOpen h))

theorem Held.zlpFill {p : Nat} (h : y.Canon) : (y.zlpFill p).Canon := .each (fun _ _ k => .ite (.txWhole k) k) h

theorem Held.evictStep {p : Nat} (h : y.Canon) : (y.evictStep p).Canon := by
  fun_cases Sys.evictStep p y
  · exact .evict h
  · exact .updFifo h
  · exact .updFifo h
  · exact .updFifo h

theorem Held.chipSweep {p : Nat} (h : y.Canon) : (y.chipSweep p).Canon := .chipOver h

theorem Held.dRefused (h : y.Canon) : y.dRefused.Canon := .incFld h

theorem Held.normTake {x : Xfer} {mult : Nat} (h : y.Canon) : (y.normTake x mult).2.Canon := by
  fun_cases Sys.normTake x mult y
  · exact h
  · exact h
  · exact .ite (.latchSet (.dRefused h)) (.dRefused h)

theorem Held.candTake {c : Cand} (h : y.Canon) : (y.candTake c).2.Canon := by
  fun_cases Sys.candTake c y
  · exact h
  · exact .snd (.normTake h) ‹_›
  · exact .part (.snd (.normTake h) ‹_›)
  · exact h

theorem Held.classD {cs : List Cand} (h : y.Canon) : (y.classD cs).2.Canon := by
  induction cs generalizing y with
  | nil => exact h
  | cons c r ih => exact ih (.candTake h)

theorem Held.setCredit {n q v : Nat} (h : y.Canon) : (y.setCredit n q v).Canon := .part h

theorem Held.takeCredit {n q : Nat} (h : y.Canon) : (y.takeCredit n q).Canon := .setCredit h

theorem Held.dReserve {n cnt g : Nat} (h : y.Canon) : (y.dReserve n cnt g).Canon := .updHolly h

theorem Held.normReserve {x : Xfer} {mult : Nat} (h : y.Canon) : (y.normReserve x mult).Canon := .ite (.updX (.dReserve h)) h

theorem Held.rsvTake {p : Nat} {x : Xfer} (h : y.Canon) : (y.rsvTake p x).Canon := .updX (.updFifo h)

theorem Held.txMark {p num : Nat} (h : y.Canon) : (y.txMark p num).Canon := by
  fun_cases Sys.txMark p num y
  · exact .updFifo (.updTx h)
  · exact h

theorem Held.txRead {p num n : Nat} (h : y.Canon) : (y.txRead p num n).Canon := by
  fun_cases Sys.txRead p num n y
  · exact .updFifo h
  · exact h

theorem Held.sendPkt {p : Nat} {x : Xfer} {f : TxForm} {pid : Pid} {t : TxPkt} (h : y.Canon) : (y.sendPkt p x f pid t).Canon := by
  fun_cases Sys.sendPkt p x f pid t y
  · exact .emit (.emit (.txMark h))
  · exact .txRead (.emit (.txMark h))

theorem Held.launch {p : Nat} {x : Xfer} {c : CurTx} {pid : Pid} (h : y.Canon) : (y.launch p x c pid).Canon := by
  fun_cases Sys.launch p x c pid y
  · exact .emit (.ite (.emit (.part (.updX h))) (.part (.updX h)))
  · exact .emit (.emit (.ite (.emit (.part (.updX h))) (.part (.updX h))))
  · exact .sendPkt (.emit (.ite (.emit (.part (.updX h))) (.part (.updX h))))
  · exact .sendPkt (.emit (.ite (.emit (.part (.updX h))) (.part (.updX h))))
  · exact .emit (.ite (.emit (.part (.updX h))) (.part (.updX h)))

theorem Held.startCand {p : Nat} {c : Cand} (h : y.Canon) : (y.startCand p c).Canon :=
  .launch (.ite (.rsvTake (.ite (.normReserve h) h)) (.ite (.normReserve h) h))

theorem Held.searchStep {p : Nat} {cs : List Cand} (h : y.Canon) : (y.searchStep p cs).Canon := by
  fun_cases Sys.searchStep p cs y
  · exact .startCand (.ite (.part (.part h)) (.takeCredit (.part h)))
  · exact .part h

theorem Held.chooseStep {p : Nat} {c : Cand} {cs : List Cand} {won : Sys → Sys} (hwon : ∀ z0, z0.Canon → (won z0).Canon) (h : y.Canon)
    : (y.chooseStep p c cs won).Canon := .ite (.startCand (hwon _ h)) (.searchStep (.part h))

theorem Held.strictStep {p : Nat} {cs : List Cand} (h : y.Canon) : (y.strictStep p cs).Canon := by
  fun_cases Sys.strictStep p cs y
  · exact .part h
  · exact h
  · exact .chooseStep (fun _ k => .part k) h

theorem Held.setCur {n q k : Nat} (h : y.Canon) : (y.setCur n q k).Canon := .part h

theorem Held.visitEnd {p : Nat} (h : y.Canon) : (y.visitEnd p).Canon := .ite (.part (.setCur h)) h

theorem Held.wrrStep {p : Nat} {cs : List Cand} (h : y.Canon) : (y.wrrStep p cs).Canon := by
  fun_cases Sys.wrrStep p cs y
  · exact .part (.visitEnd h)
  · exact .ite (.ite h (.each (fun _ _ k => .ite (.setCredit k) k) h)) (.visitEnd (.ite h (.each (fun _ _ k => .ite (.setCredit k) k) h)))
  · exact .ite (.ite (.ite h (.each (fun _ _ k => .ite (.setCredit k) k) h)) (.visitEnd (.ite h (.each (fun _ _ k => .ite (.setCredit
      k) k) h)))) (.part (.ite (.ite h (.each (fun _ _ k => .ite (.setCredit k) k) h)) (.visitEnd (.ite h (.each (fun _ _ k => .ite
      (.setCredit k) k) h)))))
  · exact .setCur (.chooseStep (fun _ k => .part (.takeCredit k)) (.setCur (.ite (.ite (.ite h (.each (fun _ _ k => .ite
      (.setCredit k) k) h)) (.visitEnd (.ite h (.each (fun _ _ k => .ite (.setCredit k) k) h)))) (.part (.ite (.ite h (.each (fun _
      _ k => .ite (.setCredit k) k) h)) (.visitEnd (.ite h (.each (fun _ _ k => .ite (.setCredit k) k) h))))))))
  · exact .part (.setCur (.chooseStep (fun _ k => .part (.takeCredit k)) (.setCur (.ite (.ite (.ite h (.each (fun _ _ k => .ite
      (.setCredit k) k) h)) (.visitEnd (.ite h (.each (fun _ _ k => .ite (.setCredit k) k) h)))) (.part (.ite (.ite h (.each (fun _
      _ k => .ite (.setCredit k) k) h)) (.visitEnd (.ite h (.each (fun _ _ k => .ite (.setCredit k) k) h)))))))))
  · exact .chooseStep (fun _ k => .part (.takeCredit k)) (.setCur (.ite (.ite (.ite h (.each (fun _ _ k => .ite (.setCredit k) k)
      h)) (.visitEnd (.ite h (.each (fun _ _ k => .ite (.setCredit k) k) h)))) (.part (.ite (.ite h (.each (fun _ _ k => .ite
      (.setCredit k) k) h)) (.visitEnd (.ite h (.each (fun _ _ k => .ite (.setCredit k) k) h)))))))

theorem Held.serviceStep {p : Nat} (h : y.Canon) : (y.serviceStep p).Canon :=
  .ite h (.ite (.searchStep (.classD h)) (.ite (.strictStep (.classD h)) (.wrrStep (.classD h))))

theorem Held.chipStep {p : Nat} (h : y.Canon) : (y.chipStep p).Canon := by
  fun_cases Sys.chipStep p y
  · exact h
  · exact .launch (.ite (.rsvTake h) h)
  · exact h

theorem Held.tryCsplit {p n id : Nat} (h : y.Canon) : (y.tryCsplit p n id).2.Canon := by
  fun_cases Sys.tryCsplit p n id y
  · exact h
  · exact .splitOver h
  · exact .launch h
  · exact .splitOver h
  · exact h

theorem Held.perSkip {p : Nat} (h : y.Canon) : (y.perSkip p).Canon := .ite h (.recordErr (.part h))

theorem Held.missX {p id : Nat} (h : y.Canon) : (y.missX p id).Canon := .finX (.perSkip (.incFld h))

theorem Held.perXfer {p : Nat} {e : PtEnt} (h : y.Canon) : (y.perXfer p e).2.Canon := by
  fun_cases Sys.perXfer p e y
  · exact h
  · exact .each (fun _ _ k => .missX k) h
  · exact h

theorem Held.skipPoll {p : Nat} (h : y.Canon) : (y.skipPoll p).Canon := .perSkip (.incFld h)

theorem Held.tryEntry {p n : Nat} {e : PtEnt} (h : y.Canon) : (y.tryEntry p n e).2.Canon := by
  fun_cases Sys.tryEntry p n e y
  · exact .snd (.perXfer h) ‹_›
  · exact .snd (.perXfer h) ‹_›
  · exact .ite (.ite (.finX (.snd (.perXfer h) ‹_›)) (.missX (.snd (.perXfer h) ‹_›))) (.skipPoll (.snd (.perXfer h) ‹_›))
  · exact .ite (.ite (.finX (.snd (.normTake (.snd (.perXfer h) ‹_›)) ‹_›)) (.missX (.snd (.normTake (.snd (.perXfer h) ‹_›)) ‹_›)))
      (.skipPoll (.snd (.normTake (.snd (.perXfer h) ‹_›)) ‹_›))
  · exact .launch (.ite (.rsvTake (.ite (.part (.updX (.normReserve (.snd (.normTake (.snd (.perXfer h) ‹_›)) ‹_›)))) (.normReserve
      (.snd (.normTake (.snd (.perXfer h) ‹_›)) ‹_›)))) (.ite (.part (.updX (.normReserve (.snd (.normTake (.snd (.perXfer h) ‹_›))
      ‹_›)))) (.normReserve (.snd (.normTake (.snd (.perXfer h) ‹_›)) ‹_›))))
  · exact .ite (.ite (.finX (.snd (.normTake (.snd (.perXfer h) ‹_›)) ‹_›)) (.missX (.snd (.normTake (.snd (.perXfer h) ‹_›)) ‹_›)))
      (.skipPoll (.snd (.normTake (.snd (.perXfer h) ‹_›)) ‹_›))

theorem Held.periodicStep {p fuel : Nat} (h : y.Canon) : (y.periodicStep p fuel).Canon := by
  induction fuel generalizing y with
  | zero => exact h
  | succ fuel ih =>
    unfold Sys.periodicStep
    dsimp only
    split
    · split
      · next he => exact .snd (.tryCsplit (.part h)) he
      · next he => exact ih (.snd (.tryCsplit (.part h)) he)
    · split
      · next he => exact .snd (.tryEntry (.part h)) he
      · next he => exact ih (.snd (.tryEntry (.part h)) he)
    · exact h

theorem Held.chooseNext {p : Nat} (h : y.Canon) : (y.chooseNext p).Canon := .ite h (.serviceStep (.chipStep (.periodicStep h)))

theorem Held.framePass {p : Nat} (h : y.Canon) : (y.framePass p).Canon := by
  fun_cases Sys.framePass p y
  · exact .ite (.emit (.part (.chipSweep (.zlpFill (.evalMarks (.evictStep (.activate (.oldDrop (.leaveMarked (.ite (.commitDone
      (.applyPort (.ite (.commitPoint h) h))) (.ite (.commitPoint h) h))))))))))) (.part (.chipSweep (.zlpFill (.evalMarks
      (.evictStep (.activate (.oldDrop (.leaveMarked (.ite (.commitDone (.applyPort (.ite (.commitPoint h) h))) (.ite (.commitPoint h)
      h))))))))))
  · exact .chooseNext (.part (.ite (.emit (.part (.chipSweep (.zlpFill (.evalMarks (.evictStep (.activate (.oldDrop
      (.leaveMarked (.ite (.commitDone (.applyPort (.ite (.commitPoint h) h))) (.ite (.commitPoint h) h))))))))))) (.part
      (.chipSweep (.zlpFill (.evalMarks (.evictStep (.activate (.oldDrop (.leaveMarked (.ite (.commitDone (.applyPort (.ite
      (.commitPoint h) h))) (.ite (.commitPoint h) h))))))))))))

theorem Held.frameBegin {p : Nat} (h : y.Canon) : (y.frameBegin p).Canon :=
  .ite (.framePass (.ite (.sofStop (.rwakeOut (.each (fun _ _ k => .suspAsk k) (.part h)))) (.rwakeOut (.each (fun _ _ k => .suspAsk k)
    (.part h))))) h

theorem Held.txRelease {p num : Nat} (h : y.Canon) : (y.txRelease p num).Canon := .evalFifo (.reclaimTx (.updTx h))

theorem Held.txDropOne {p num : Nat} (h : y.Canon) : (y.txDropOne p num).Canon := .evalFifo (.reclaimTx (.updTx h))

theorem Held.sentOnly {p n : Nat} (h : y.Canon) : (y.sentOnly p n).Canon := by
  fun_cases Sys.sentOnly p n y
  · exact .part h
  · exact .emit h

theorem Held.underrun {p pkt : Nat} (h : y.Canon) : (y.underrun p pkt).Canon := .recordErr (.incFld (.sentOnly (.part h)))

theorem Held.poisonSent {p : Nat} {c : CurTx} (h : y.Canon) : (y.poisonSent p c).Canon := .recordErr ((by
  split
  · exact .sentOnly h
  · exact h))

theorem Held.endedPkt {p : Nat} {c : CurTx} {out : Outcome} (h : y.Canon) : (y.endedPkt p c out).Canon := by
  fun_cases Sys.endedPkt p c out y
  · exact .txRelease h
  · exact .txRelease h
  · exact .txRelease h
  · exact .txDropOne (.underrun h)
  · exact .txDropOne (.poisonSent h)
  · exact .txDropOne h
  · exact h

theorem Held.normRelease {id : Nat} (h : y.Canon) : (y.normRelease id).Canon := by
  fun_cases Sys.normRelease id y
  · exact .updX (.dRelease h)
  · exact h
  · exact h

theorem Held.txPoison {p : Nat} {c : CurTx} (h : y.Canon) : (y.txPoison p c).Canon := .finX (.txDropOne (.poisonSent h))

theorem Held.updEpX {x : Xfer} {f : Ep → Ep} (h : y.Canon) : (y.updEpX x f).Canon := by
  fun_cases Sys.updEpX x f y
  · exact .updEp h
  · exact .updX h

theorem Held.outTaken {x : Xfer} {len : Nat} (h : y.Canon) : (y.outTaken x len).Canon := by
  fun_cases Sys.outTaken x len y
  · exact .updEpX (.updX h)
  · exact .finX h
  · exact .ite (.updX h) (.updEpX (.updX h))
  · exact .updX (.ite (.updX h) (.updEpX (.updX h)))
  · exact .ite (.updX h) (.updEpX (.updX h))
  · exact .finX (.ite (.updX h) (.updEpX (.updX h)))

theorem Held.nakked {p : Nat} {x : Xfer} (h : y.Canon) : (y.nakked p x).Canon := .part h

theorem Held.strikesOff {id : Nat} (h : y.Canon) : (y.strikesOff id).Canon := .updX h

theorem Held.strike {id : Nat} (h : y.Canon) : (y.strike id).Canon := by
  fun_cases Sys.strike id y
  · exact h
  · exact .finX (.updX h)
  · exact .updX h

theorem Held.ssplitEnd {p : Nat} {x : Xfer} {c : CurTx} {out : Outcome} (h : y.Canon) : (y.ssplitEnd p x c out).Canon := by
  fun_cases Sys.ssplitEnd p x c out y
  · exact .finX (.normRelease (.splitDone (.rsvFree (.txDropOne (.underrun h)))))
  · exact .normRelease (.splitDone (.rsvFree (.ite (.txRewind (.underrun h)) (.underrun h))))
  · exact .normRelease (.splitDone (.rsvFree (.txPoison h)))
  · exact .outTaken (.splitDone (.txRelease h))
  · exact .updX h
  · exact .updX h
  · exact .updX h
  · exact .normRelease (.splitDone (.rsvFree (.ite (.txRewind (.nakked (.strikesOff h))) (.nakked (.strikesOff h)))))
  · exact .normRelease (.splitDone (.rsvFree (.ite (.txRewind (.nakked (.strikesOff h))) (.nakked (.strikesOff h)))))
  · exact (by
    split
    · exact .updX h
    · exact .normRelease (.splitDone (.rsvFree (.ite (.txRewind (.nakked (.strikesOff h))) (.nakked (.strikesOff h)))))
    · exact .normRelease (.splitDone (.rsvFree (.ite (.txRewind (.nakked (.strikesOff h))) (.nakked (.strikesOff h)))))
    · exact .strike (.normRelease (.splitDone (.rsvFree (.ite (.txRewind h) h)))))

theorem Held.inTaken {x : Xfer} {c : CurTx} (h : y.Canon) : (y.inTaken x c).Canon :=
  .ite (.finX (.normRelease h)) (.ite (.ite (.finX h) (.strike h)) (.ite (.ite (.finX h) (.strike (.normRelease h))) (.ite h (.ite
    (.ite (.finX h) h) (.ite (.ite (.updX h) (.finX h)) h)))))

theorem Held.csplitEnd {p n : Nat} {x : Xfer} {c : CurTx} {out : Outcome} (h : y.Canon) : (y.csplitEnd p n x c out).Canon := by
  fun_cases Sys.csplitEnd p n x c out y
  · exact .nakked (.strikesOff h)
  · exact .splitOver h
  · exact h
  · exact .outTaken (.splitDone (.rsvFree (.ite (.txRelease h) h)))
  · exact .finX (.splitDone (.rsvFree (.normRelease h)))
  · exact .ite (.strike h) (.ite (.splitOver h) (.ite (.splitOver h) (.strike h)))
  · exact .splitOver h
  · exact h
  · exact .inTaken (.splitDone (.rsvFree h))
  · exact .nakked (.strikesOff (.normRelease (.splitDone (.rsvFree (.ite (.txRewind h) h)))))
  · exact .finX (.strikesOff (.normRelease (.splitDone (.rsvFree (.ite (.txRewind h) h)))))
  · exact .strikesOff (.normRelease (.splitDone (.rsvFree (.ite (.txRewind h) h))))
  · exact .finX (.normRelease (.splitDone (.rsvFree (.ite (.txDropOne h) h))))
  · exact .ite (.strike h) (.ite (.splitOver h) (.ite (.splitOver h) (.strike h)))

theorem Held.plainEnd {p : Nat} {x : Xfer} {c : CurTx} {out : Outcome} (h : y.Canon) : (y.plainEnd p x c out).Canon := by
  fun_cases Sys.plainEnd p x c out y
  · exact .updEpX (.strikesOff h)
  · exact .nakked (.strikesOff h)
  · exact .nakked (.strikesOff h)
  · exact .finX h
  · exact .strike h
  · exact .inTaken h
  · exact .finX h
  · exact .ite (.nakked (.strikesOff (.normRelease h))) (.strikesOff (.normRelease h))
  · exact .finX h
  · exact .finX (.normRelease h)
  · exact .inTaken h
  · exact .finX h
  · exact .strike (.normRelease h)
  · exact .inTaken h
  · exact .finX h
  · exact .ite (.nakked (.strikesOff (.normRelease h))) (.strikesOff (.normRelease h))
  · exact .finX h
  · exact .finX (.normRelease h)
  · exact .inTaken h
  · exact .finX h
  · exact .strike (.normRelease h)
  · exact .outTaken (.ite (.txRelease h) h)
  · exact .outTaken (.ite (.txRelease h) h)
  · exact .outTaken (.ite (.nakked (.strikesOff (.ite (.updEpX (.ite (.txRelease h) h)) (.ite (.txRelease h) h)))) (.strikesOff (.ite
      (.updEpX (.ite (.txRelease h) h)) (.ite (.txRelease h) h))))
  · exact .ite (.nakked (.strikesOff (.ite (.updEpX (.ite (.txRewind h) h)) (.ite (.txRewind h) h)))) (.strikesOff (.ite (.updEpX (.ite
      (.txRewind h) h)) (.ite (.txRewind h) h)))
  · exact .finX (.ite (.txDropOne h) h)
  · exact .finX (.txDropOne (.underrun h))
  · exact .ite (.txRewind (.underrun h)) (.underrun h)
  · exact .txPoison h
  · exact .finX (.ite (.txDropOne h) h)
  · exact .strike (.ite (.txRewind h) h)

theorem Held.cutNow {id : Nat} (h : y.Canon) : (y.cutNow id).Canon := by
  fun_cases Sys.cutNow id y
  · exact h
  · exact .finX h
  · exact h
  · exact h

theorem Held.wireEnd {p : Nat} {out : Outcome} {xe : Nat} (h : y.Canon) : (y.wireEnd p out xe).Canon := by
  fun_cases Sys.wireEnd p out xe y
  · exact .chooseNext (.part h)
  · exact .chooseNext (.endedPkt (.part h))
  · exact .launch (.cutNow (.ite (.xferLeaves (.endedPkt (.part h))) ((by
    split
    · exact .ssplitEnd (.part h)
    · exact .csplitEnd (.part h)
    · exact .plainEnd (.part h)))))
  · exact .chooseNext (.ite (.normRelease (.cutNow (.ite (.xferLeaves (.endedPkt (.part h))) ((by
    split
    · exact .ssplitEnd (.part h)
    · exact .csplitEnd (.part h)
    · exact .plainEnd (.part h)))))) (.cutNow (.ite (.xferLeaves (.endedPkt (.part h))) ((by
    split
    · exact .ssplitEnd (.part h)
    · exact .csplitEnd (.part h)
    · exact .plainEnd (.part h))))))
  · exact .chooseNext (.cutNow (.ite (.xferLeaves (.endedPkt (.part h))) ((by
    split
    · exact .ssplitEnd (.part h)
    · exact .csplitEnd (.part h)
    · exact .plainEnd (.part h)))))

theorem Held.transEnd {p : Nat} {out : Outcome} {x : Nat} (h : y.Canon) : (y.transEnd p out x).Canon := .strikeFaults (.wireEnd h)

theorem Held.fifCarry {was p : Nat} (h : y.Canon) : (y.fifCarry was p).Canon :=
  .ite h (.carry (.ite (.updFifo (.poisonNow h)) (.poisonNow h)))

theorem Held.rxDiscard {p : Nat} (h : y.Canon) : (y.rxDiscard p).Canon := .incFld h

theorem Held.rxCommit {p : Nat} {t : RxPkt} (h : y.Canon) : (y.rxCommit p t).Canon := .evalMarks (.updFifo h)

theorem Held.rxTake {p : Nat} {x : Xfer} {data : List Byte} {pid : Pid} {done : Bool} (h : y.Canon) :
    (y.rxTake p x data pid done).Canon := .ite (.reclaimRx (.rxCommit h)) (.rxCommit h)

theorem Held.normOne {id : Nat} (h : y.Canon) : (y.normOne id).Canon := by
  fun_cases Sys.normOne id y
  · exact .updX (.dRelease h)
  · exact h
  · exact h

theorem Held.inCommit {p : Nat} {x : Xfer} {c : CurTx} {data : List Byte} {pid : Pid} (h : y.Canon) :
    (y.inCommit p x c data pid).Canon := .part (.updX (.ite (.rxTake (.ite (.normOne h) h)) (.updEpX (.rxTake (.ite (.normOne h)
      h)))))

theorem Held.inPkt {p : Nat} {data : List Byte} {pid : Pid} {good : Bool} (h : y.Canon) : (y.inPkt p data pid good).Canon := by
  fun_cases Sys.inPkt p data pid good y
  · exact h
  · exact .rxDiscard h
  · exact h
  · exact .part (.rxDiscard h)
  · exact .rxDiscard h
  · exact .ite (.part (.rxTake h)) (.emit (.part (.rxTake h)))
  · exact .rxDiscard h
  · exact .rxDiscard h
  · exact .part (.updX h)
  · exact .inCommit h
  · exact .rxDiscard h
  · exact .ite (.part (.updX (.normOne (.incFld h)))) (.emit (.part (.updX (.normOne (.incFld h)))))
  · exact .ite (.inCommit h) (.emit (.inCommit h))

theorem Held.chanIdle {e c : Nat} (h : y.Canon) : (y.chanIdle e c).Canon := .updChan h

theorem Held.readRest {fuel a n : Nat} (h : y.Canon) : (y.readRest fuel a n).Canon := by
  induction fuel generalizing a n y with
  | zero => exact h
  | succ fuel ih => exact .ite h (ih (.each (fun _ _ k => .emit k) h))

theorem Held.allHalted {e c : Nat} (h : y.Canon) : (y.allHalted e c).Canon := .ite (.haltBlock (.recordErr (.recordErr h))) h

theorem Held.readHalt {e c code : Nat} (h : y.Canon) : (y.readHalt e c code).Canon := .recordErr (.incFld (.updChan h))

theorem Held.readAgain {e c : Nat} (h : y.Canon) : (y.readAgain e c).Canon := by
  fun_cases Sys.readAgain e c y
  · exact .emit h
  · exact h

theorem Held.readRetry {e c code : Nat} (h : y.Canon) : (y.readRetry e c code).2.Canon := by
  fun_cases Sys.readRetry e c code y
  · exact .readAgain (.updChan (.ite (.aer h) h))
  · exact .readHalt (.ite (.aer h) h)

theorem Held.hostAnswer {u : HUse} {code : Nat} (h : y.Canon) : (y.hostAnswer u code).2.Canon := by
  fun_cases Sys.hostAnswer u code y
  · exact h
  · exact h
  · exact .chanIdle (.readRest h)
  · exact .allHalted (.readHalt (.aer h))
  · exact .updChan (.chanIdle (.aer h))
  · exact .snd (.readRetry h) ‹_›
  · exact .allHalted (.snd (.readRetry h) ‹_›)

theorem Held.ringErr {k cause entry : Nat} (h : y.Canon) : (y.ringErr k cause entry).Canon :=
  .ite (.meqEvent h) (.tenantEvent (.meqEvent h))

theorem Held.ringHalt {k cause entry : Nat} {chain : List Nat} (h : y.Canon) : (y.ringHalt k cause entry chain).Canon :=
  .ringSettle (.flushRecs (.ringErr (.updRing h)))

theorem Held.takeOne {k : Nat} {d : List Word} (h : y.Canon) : (y.takeOne k d).2.Canon := by
  fun_cases Sys.takeOne k d y
  · exact h
  · exact .updRing h
  · exact .updRing h
  · exact .ringHalt h
  · exact .updRing h

theorem Held.takeAll {k : Nat} {ds : List (List Word)} (h : y.Canon) : (y.takeAll k ds).Canon := by
  induction ds generalizing y with
  | nil => exact h
  | cons d r ih =>
    unfold Sys.takeAll
    split
    · next he => exact ih (.snd (.takeOne h) he)
    · next he => exact .snd (.takeOne h) he

theorem Held.descRead {k : Nat} {rd : DwRes} (h : y.Canon) : (y.descRead k rd).Canon := by
  fun_cases Sys.descRead k rd y
  · exact .fetchPump h
  · exact .snd (.hostAnswer (.fetchPump h)) ‹_›
  · exact .instSettle (.snd (.hostAnswer (.fetchPump h)) ‹_›)
  · exact .cacheUse (.takeAll (.instSettle (.snd (.hostAnswer (.fetchPump h)) ‹_›)))
  · exact .ringHalt (.instSettle (.snd (.hostAnswer (.fetchPump h)) ‹_›))

theorem Held.dbDrain {k : Nat} (h : y.Canon) : (y.dbDrain k).Canon := .each (fun _ _ k => .dbAct k) (.part h)

theorem Held.cachePut {k : Nat} (h : y.Canon) : (y.cachePut k).Canon := by
  fun_cases Sys.cachePut k y
  · exact .part h
  · exact .part (.ctxWrite h)
  · exact h

theorem Held.ctxRes {k : Nat} {rd : DwRes} (h : y.Canon) : (y.ctxRes k rd).Canon := by
  fun_cases Sys.ctxRes k rd y
  · exact .snd (.hostAnswer (.fetchPump (.ctxRead h))) ‹_›
  · exact .flushRecs (.dbDrain (.cachePut (.incFld (.snd (.hostAnswer (.fetchPump (.ctxRead h))) ‹_›))))
  · exact .dbDrain (.cachePut (.incFld (.snd (.hostAnswer (.fetchPump (.ctxRead h))) ‹_›)))
  · exact .ringHalt (.part (.incFld (.snd (.hostAnswer (.fetchPump (.ctxRead h))) ‹_›)))
  · exact .ringErr (.updRing (.part (.incFld (.snd (.hostAnswer (.fetchPump (.ctxRead h))) ‹_›))))

theorem Held.holdTake {i : Nat} {own : Bool} (h : y.Canon) : (y.holdTake i own).Canon := .updInst h

theorem Held.dispatchX {k idx : Nat} (h : y.Canon) : (y.dispatchX k idx).Canon := by
  fun_cases Sys.dispatchX k idx y
  · exact h
  · exact h
  · exact .finX (.part (.updRing (.holdTake h)))
  · exact .part (.updRing (.holdTake h))
  · exact .updInst h

theorem Held.flushDone {i : Nat} {ok : Bool} (h : y.Canon) : (y.flushDone i ok).Canon :=
  .ite h (.ite (.recSweep (.instSettle (.flushIssue (.each (fun _ _ k => .tryPost k) (.each (fun _ _ k => .updX (.ite (.updEp k) k))
    (.ite ((by
  split
  · exact .chanIdle (.updInst h)
  · exact .updInst h)) (.recordErr ((by
  split
  · exact .chanIdle (.updInst h)
  · exact .updInst h))))))))) (.instSettle (.flushIssue (.each (fun _ _ k => .tryPost k) (.each (fun _ _ k => .updX (.ite (.updEp k)
      k)) (.ite ((by
  split
  · exact .chanIdle (.updInst h)
  · exact .updInst h)) (.recordErr ((by
  split
  · exact .chanIdle (.updInst h)
  · exact .updInst h)))))))))

theorem Held.putEvent {i : Nat} {e : Ev} (h : y.Canon) : (y.putEvent i e).Canon := .ringMsg (.cacheUse (.updInst (.updRing (.emit h))))

theorem Held.spqPut {s : Spill} (h : y.Canon) : (y.spqPut s).Canon := .setPg (.emit (.part h))

theorem Held.spillEvent {i : Nat} {e : Ev} (h : y.Canon) : (y.spillEvent i e).Canon :=
  .ite (.ringErr (.updInst (.setFld (.incFld h)))) (.updRing (.spqPut h))

theorem Held.deliverEvent (h : y.Canon) : y.deliverEvent.Canon := by
  fun_cases Sys.deliverEvent y
  · exact h
  · exact h
  · exact .ctxRead h
  · exact .part h
  · exact .putEvent (.part h)
  · exact .spillEvent (.part h)

theorem Held.walkOne {s : Spill} (h : y.Canon) : (y.walkOne s).2.Canon := by
  fun_cases Sys.walkOne s y
  · exact .setPg (.part h)
  · exact .updRing (.putEvent (.setPg (.part h)))
  · exact .spqPut (.setPg (.part h))

theorem Held.walkAll {ss : List Spill} {d : Bool} (h : y.Canon) : (y.walkAll ss d).2.Canon := by
  induction ss generalizing d y with
  | nil => exact h
  | cons s r ih => exact ih (.walkOne h)

theorem Held.spqWalk (h : y.Canon) : y.spqWalk.Canon := by
  fun_cases Sys.spqWalk y
  · exact .ctxRead h
  · exact .part (.snd (.walkAll h) ‹_›)

theorem Held.mcqRead (h : y.Canon) : y.mcqRead.Canon := .hostTake h

theorem Held.groupStart {c : Nat} (h : y.Canon) : (y.groupStart c).Canon := by
  fun_cases Sys.groupStart c y
  · exact h
  · exact .fetchPump h
  · exact .each (fun _ _ k => .flushIssue k) h
  · exact .mcqRead h
  · exact h

theorem Held.setSramL {o : Nat} {bs : List Byte} (h : y.Canon) : (y.setSramL o bs).Canon := storageCanon_setSramL bs o h

theorem Held.setLocal {a : Nat} {bs : List Byte} {p : Bool} (h : y.Canon) : (y.setLocal a bs p).Canon := storageCanon_setLocal a bs p h

theorem Held.fwBytes {j : Nat} {bs : List (Byte × Bool)} (h : y.Canon) : (y.fwBytes j bs).Canon := .updChan (.setLocal h)

theorem Held.poolPut {gs : List Nat} {per o : Nat} {bs : List (Byte × Bool)} (h : y.Canon) : (y.poolPut gs per o bs).Canon :=
  .each (fun _ _ k => .ite (.markSram k) k) (.each (fun _ _ k => .markSram (.setSram k)) h)

theorem Held.fillBytes {e c : Nat} {bs : List (Byte × Bool)} (h : y.Canon) : (y.fillBytes e c bs).Canon :=
  .ite (.poolPut (.updChan (.updChan h))) (.txAppend (.ite (.updChan h) (.txOpen (.updChan h))))

theorem Held.chanGo {e c : Nat} (h : y.Canon) : (y.chanGo e c).Canon :=
  .ite h (.readIssue (.each (fun _ _ k => .ite (.fwBytes (.updChan k)) (.fillBytes (.updChan k))) h))

theorem Held.arb (h : y.Canon) : y.arb.Canon := .each (fun _ _ k => .ite (.readIssue k) (.chanGo k)) (.part h)

theorem Held.fwBurst {j : Nat} (h : y.Canon) : (y.fwBurst j).Canon := .readIssue (.ite (.updChan (.updChan h)) (.updChan h))

theorem Held.takeGrans {n : Nat} (h : y.Canon) : (y.takeGrans n).2.Canon := by
  induction n with
  | zero => exact h
  | succ n ih => exact .part ih

theorem Held.updRx {p num : Nat} {f : RxPkt → RxPkt} (h : y.Canon) : (y.updRx p num f).Canon := .updFifo h

theorem Held.takeReq {e c : Nat} {r : Req} (h : y.Canon) : (y.takeReq e c r).Canon :=
  .ite (.updRx (.ite (.updChan (.updChan (.part (.ite₂ (.takeGrans h) h)))) (.updChan (.part (.ite₂ (.takeGrans h) h))))) (.readIssue
    (.ite (.dReserve (.ite (.updChan (.updChan (.part (.ite₂ (.takeGrans h) h)))) (.updChan (.part (.ite₂ (.takeGrans h) h))))) (.ite
      (.updChan (.updChan (.part (.ite₂ (.takeGrans h) h)))) (.updChan (.part (.ite₂ (.takeGrans h) h))))))

theorem Held.burstStart {e c : Nat} (h : y.Canon) : (y.burstStart e c).Canon := by
  fun_cases Sys.burstStart e c y
  · exact .groupStart h
  · exact h
  · exact .carry (.arb (.fwBurst h))
  · exact h
  · exact .carry (.arb (.takeReq h))
  · exact h
  · exact h

theorem Held.withPoison {gs : List Pg} {p : Bool} (h : y.Canon) : (y.withPoison gs p).2.Canon := by
  unfold Sys.withPoison
  generalize hr : (p, y) = r
  replace h : r.2.Canon := hr ▸ h
  clear hr
  induction gs generalizing r with
  | nil => exact h
  | cons g gs ih => exact ih _ (.poisonNow h)

theorem Held.readBytes {e c : Nat} {bs : List Byte} {p : Bool} (h : y.Canon) : (y.readBytes e c bs p).Canon :=
  .ite h (.arb (.updChan (.ite (.aer (.withPoison h)) (.withPoison h))))

theorem Held.dcqAppend {j status bytes tag : Nat} (h : y.Canon) : (y.dcqAppend j status bytes tag).Canon :=
  .cicLevel (.setPg (.setSramL h))

theorem Held.dcqPut {j status : Nat} (h : y.Canon) : (y.dcqPut j status).Canon := .part (.dcqAppend h)

theorem Held.fillFailed {e c : Nat} (h : y.Canon) : (y.fillFailed e c).Canon := .reclaimTx (.cutX ((by
  split
  · exact .ite (.dRelease (.updX h)) (.updX h)
  · exact .updX h)))

theorem Held.burstOver {k : Chan2} (h : y.Canon) : (y.burstOver k).Canon := by
  fun_cases Sys.burstOver k y
  · exact .instSettle h
  · exact h

theorem Held.readFails {e c code : Nat} (h : y.Canon) : (y.readFails e c code).Canon := by
  fun_cases Sys.readFails e c code y
  · exact .snd (.readRetry h) ‹_›
  · exact .arb (.burstOver (.allHalted (.ite (.dcqPut (.snd (.readRetry h) ‹_›)) (.fillFailed (.snd (.readRetry h) ‹_›)))))

theorem Held.writeTlps {x : Option Pfx} {ro : Bool} {bad : Nat → Nat → Bool} {a : Nat} {bs : List Byte} (h : y.Canon) :
    (y.writeTlps x ro bad a bs).Canon := .each (fun _ _ k => .emit k) h

theorem Held.fwBurstEnd {j : Nat} (h : y.Canon) : (y.fwBurstEnd j).Canon :=
  .ite (.chanIdle (.dcqPut (.updChan (.ite (.writeTlps h) h)))) (.updChan (.ite (.writeTlps h) h))

theorem Held.reportWrite {p : Nat} {t : RxPkt} {n : Nat} (h : y.Canon) : (y.reportWrite p t n).2.Canon := by
  fun_cases Sys.reportWrite p t n y <;> exact .poolPut (.updRx (.snd (.ite₂ (.takeGrans h) h) ‹_›))

theorem Held.pushD {n : Nat} {i : Item} (h : y.Canon) : (y.pushD n i).Canon := .pushItem (.updHolly h)

theorem Held.poisonX {id : Nat} (h : y.Canon) : (y.poisonX id).Canon := by
  fun_cases Sys.poisonX id y
  · exact h
  · exact .finX (.updX h)
  · exact .updX (.ite (.updEp (.updX h)) (.updX h))

theorem Held.reportIf {c : Bool} {p n : Nat} {t : RxPkt} (h : y.Canon) : (if c then y.reportWrite p t n else ([], y)).2.Canon :=
  .ite₂ (.reportWrite h) h

theorem Held.drainEnd {e c : Nat} (h : y.Canon) : (y.drainEnd e c).Canon := by
  fun_cases Sys.drainEnd e c y
  · exact .ite (.reclaimRx (.updFifo (.snd (.reportIf (.updRx (.ite (.recordErr (.chanIdle h)) (.chanIdle h)))) ‹_›))) (.updFifo (.snd
      (.reportIf (.updRx (.ite (.recordErr (.chanIdle h)) (.chanIdle h)))) ‹_›))
  · exact .tryPost (.ite (.reclaimRx (.updFifo (.snd (.reportIf (.updRx (.ite (.recordErr (.chanIdle h)) (.chanIdle h)))) ‹_›)))
      (.updFifo (.snd (.reportIf (.updRx (.ite (.recordErr (.chanIdle h)) (.chanIdle h)))) ‹_›)))
  · exact .ite (.reclaimRx (.updFifo (.snd (.reportIf (.updRx (.ite (.recordErr (.chanIdle h)) (.chanIdle h)))) ‹_›))) (.updFifo (.snd
      (.reportIf (.updRx (.ite (.recordErr (.chanIdle h)) (.chanIdle h)))) ‹_›))
  · exact .dropXfer (.pushD (.ite (.reclaimRx (.updFifo (.snd (.reportIf (.updRx (.ite (.recordErr (.chanIdle h)) (.chanIdle h))))
      ‹_›))) (.updFifo (.snd (.reportIf (.updRx (.ite (.recordErr (.chanIdle h)) (.chanIdle h)))) ‹_›))))
  · exact .pushD (.ite (.reclaimRx (.updFifo (.snd (.reportIf (.updRx (.ite (.recordErr (.chanIdle h)) (.chanIdle h)))) ‹_›)))
      (.updFifo (.snd (.reportIf (.updRx (.ite (.recordErr (.chanIdle h)) (.chanIdle h)))) ‹_›)))
  · exact .tryPost (.ite (.poisonX (.updX (.writeTlps (.ite (.reclaimRx (.updFifo (.snd (.reportIf (.updRx (.ite (.recordErr (.chanIdle
      h)) (.chanIdle h)))) ‹_›))) (.updFifo (.snd (.reportIf (.updRx (.ite (.recordErr (.chanIdle h)) (.chanIdle h)))) ‹_›)))))) (.updX
      (.writeTlps (.ite (.reclaimRx (.updFifo (.snd (.reportIf (.updRx (.ite (.recordErr (.chanIdle h)) (.chanIdle h)))) ‹_›)))
      (.updFifo (.snd (.reportIf (.updRx (.ite (.recordErr (.chanIdle h)) (.chanIdle h)))) ‹_›))))))
  · exact .chanIdle h

theorem Held.recordEnd {n : Nat} {k : Chan2} (h : y.Canon) : (y.recordEnd n k).Canon := by
  fun_cases Sys.recordEnd n k y
  · exact .dRelease h
  · exact .dRelease h
  · exact .finX (.each (fun _ _ k => .pushD k) (.updX h))

theorem Held.fillMark {o : Option TxPkt} {skip : TxPkt → Bool} {id : Nat} {f : TxPkt → Xfer → Xfer} (h : y.Canon) :
    (match o with | some t => if skip t then y else y.updX id (f t) | none => y).Canon := by
  cases o with
  | none => exact h
  | some t => exact .ite h (.updX h)

theorem Held.fillEnd {e c : Nat} (h : y.Canon) : (y.fillEnd e c).Canon := by
  fun_cases Sys.fillEnd e c y
  · exact .recordEnd (.chanIdle h)
  · exact .reclaimTx (.updTx (.chanIdle h))
  · exact .zlpFill (.reclaimTx (.txSeal (.fillMark (.chanIdle h))))

theorem Held.burstEnd {e c : Nat} (h : y.Canon) : (y.burstEnd e c).Canon :=
  .ite h (.ite (.ite (.arb (.fwBurstEnd h)) h) (.ite (.arb (.burstOver (.drainEnd h))) (.arb (.burstOver (.fillEnd (.ite (.fillBytes h)
    h))))))

theorem Held.releaseMsgs (h : y.Canon) : y.releaseMsgs.Canon := .each (fun _ _ k => .sendMsg k) (.part h)

theorem Held.releasePasid (h : y.Canon) : y.releasePasid.Canon := .each (fun _ _ k => .emit k) (.part h)

theorem Held.vbusStep {n : Nat} (h : y.Canon) : (y.vbusStep n).Canon := .vbusKick (.updPower h)

theorem Held.hpwrStep (h : y.Canon) : y.hpwrStep.Canon := .hpwrKick (.updPower h)

theorem Held.portConnect {p : Nat} {sp : Speed} (h : y.Canon) : (y.portConnect p sp).Canon :=
  .ite (.portEvent (.updPort h) (fun _ k => .ite (.updPort k) k)) h

theorem Held.lineDoze {p code : Nat} (h : y.Canon) : (y.lineDoze p code).Canon := .ite (.latchSet (.updPort h)) h

theorem Held.portChg {p b : Nat} (h : y.Canon) : (y.portChg p b).Canon := .setBit h

theorem Held.debounced {p : Nat} (h : y.Canon) : (y.debounced p).Canon := .ite (.queueNew (.portChg (.incFld (.updPort h)))) h

theorem Held.offPended {p : Nat} (h : y.Canon) : (y.offPended p).Canon := by
  fun_cases Sys.offPended p y <;> exact .pass (.setPend (.updPort (.vbusDown h)))

theorem Held.unplug {p : Nat} (h : y.Canon) : (y.unplug p).Canon :=
  .portChg (.ite (.offPended (.updPort (.detachPower (.rootClear (.sofStop (.dropTree h)))))) (.updPort (.updPort (.detachPower
    (.rootClear (.sofStop (.dropTree h)))))))

theorem Held.portDisconnect {p : Nat} (h : y.Canon) : (y.portDisconnect p).Canon := by
  fun_cases Sys.portDisconnect p y
  · exact .portChg (.incFld (.updPort (.updPort h)))
  · exact .updPort h
  · exact .unplug (.updPort h)
  · exact .updPort h
  · exact .unplug (.updPort h)
  · exact .updPort h
  · exact .unplug (.updPort h)
  · exact .updPort h
  · exact .unplug (.updPort h)
  · exact .updPort h
  · exact .unplug (.updPort h)
  · exact .updPort h

theorem Held.enumIssue {p t : Nat} (h : y.Canon) : (y.enumIssue p t).Canon := by
  fun_cases Sys.enumIssue p t y
  · exact h
  · exact .issue h
  · exact .issue h
  · exact .issue h
  · exact .issue h
  · exact .issue h
  · exact .issue h
  · exact .issue h
  · exact .issue h
  · exact h
  · exact .hubReq h
  · exact .hubReq h
  · exact .hubReq h
  · exact .hubReq h
  · exact h

theorem Held.showEnum {p t : Nat} (h : y.Canon) : (y.showEnum p t).Canon := by
  fun_cases Sys.showEnum p t y
  · exact h
  · exact .updPort h
  · exact .updPort h

theorem Held.enumStep {p t step sub : Nat} (h : y.Canon) : (y.enumStep p t step sub).Canon := .enumIssue (.showEnum (.updEnum h))

theorem Held.driveReset {p t : Nat} (h : y.Canon) : (y.driveReset p t).Canon := by
  fun_cases Sys.driveReset p t y
  · exact .emit (.incFld (.updPort (.sofStop (.showEnum (.updEnum h)))))
  · exact .hubReq (.updHubPort (.showEnum (.updEnum h)))
  · exact .showEnum (.updEnum h)

theorem Held.enumBegin {e : Enum} (h : y.Canon) : (y.enumBegin e).Canon := .ite (.enumStep (.updEnum h)) (.driveReset (.updEnum h))

theorem Held.placeTo {e : Enum} (h : y.Canon) : (y.placeTo e).Canon := .ite (.portEvent h (fun _ k => .enumBegin k)) (.enumBegin h)

theorem Held.resetSignal {p : Nat} {chirp : Bool} (h : y.Canon) : (y.resetSignal p chirp).Canon :=
  .ite (.part (.updEnum (.updPort (.ite (.emit h) h)))) h

theorem Held.giveSlot {p t n : Nat} (h : y.Canon) : (y.giveSlot p t n).Canon := by
  fun_cases Sys.giveSlot p t n y
  · exact h
  · exact .showEnum (.updEnum (.ite (.updSlot h) (.updPortOf (.updSlot h))))

theorem Held.takeSlot {p t : Nat} (h : y.Canon) : (y.takeSlot p t).Canon := by
  fun_cases Sys.takeSlot p t y
  · exact .enumStep (.giveSlot h)
  · exact .meqEvent (.showEnum (.updEnum h))

theorem Held.afterReset {p t : Nat} {sp : Speed} (h : y.Canon) : (y.afterReset p t sp).Canon := by
  fun_cases Sys.afterReset p t sp y
  · exact h
  · exact .enumStep (.updSlot (.updEnum h))
  · exact .takeSlot (.updEnum h)

theorem Held.resetRecovery {p : Nat} {connected : Bool} (h : y.Canon) : (y.resetRecovery p connected).Canon :=
  .ite (.ite (.afterReset (.portChg (.updPort h))) (.portChg (.incFld (.unplug h)))) h

theorem Held.slotGrant (h : y.Canon) : y.slotGrant.Canon := by
  fun_cases Sys.slotGrant y
  · exact .enumBegin (.showEnum (.updEnum (.giveSlot h)))
  · exact .showEnum (.updEnum (.giveSlot h))
  · exact .showEnum (.updEnum (.giveSlot h))
  · exact h

theorem Held.sendAttach {n : Nat} {represent : Bool} (h : y.Canon) : (y.sendAttach n represent).Canon := .slotEvent h

theorem Held.enumDone {p t : Nat} (h : y.Canon) : (y.enumDone p t).Canon := by
  fun_cases Sys.enumDone p t y
  · exact h
  · exact .updPort (.dropEnum (.ite (.sendAttach (.setBit (.meqEvent (.ite (.updSlot h) (.updPortOf (.updSlot h)))))) (.setBit
      (.meqEvent (.ite (.updSlot h) (.updPortOf (.updSlot h)))))))

theorem Held.sendFail {p cause step attempts : Nat} (h : y.Canon) : (y.sendFail p cause step attempts).Canon :=
  .recordErr (.meqEvent (.setBit (.incFld (.updPort h))))

theorem Held.enumFinal {p t cause : Nat} (h : y.Canon) : (y.enumFinal p t cause).Canon := by
  fun_cases Sys.enumFinal p t cause y
  · exact h
  · exact .portDisable (.sendFail (.ite (.updPort (.showEnum (.dropEnum (.ite (.ite (.detachPower (.detachTree h)) (.detachTree h))
      (.ite h (.freeSlot (.persEnd h))))))) (.showEnum (.dropEnum (.ite (.ite (.detachPower (.detachTree h)) (.detachTree h)) (.ite h
      (.freeSlot (.persEnd h))))))))
  · exact .hubPortDisable (.sendFail (.ite (.updPort (.showEnum (.dropEnum (.ite (.ite (.detachPower (.detachTree h)) (.detachTree h))
      (.ite h (.freeSlot (.persEnd h))))))) (.showEnum (.dropEnum (.ite (.ite (.detachPower (.detachTree h)) (.detachTree h)) (.ite h
      (.freeSlot (.persEnd h))))))))

theorem Held.enumRestart {p t : Nat} (h : y.Canon) : (y.enumRestart p t).Canon := by
  fun_cases Sys.enumRestart p t y
  · exact h
  · exact .driveReset (.updEnum h)
  · exact .showEnum (.updEnum (.updEnum h))

theorem Held.attemptFail {p t cause : Nat} (h : y.Canon) : (y.attemptFail p t cause).Canon := by
  fun_cases Sys.attemptFail p t cause y
  · exact h
  · exact .treeFault h
  · exact .enumFinal h
  · exact .enumRestart (.updEnum h)
  · exact .enumFinal (.snd (.ite₂ (.toBase (.highOff (.ite (.updPort (.updEnum (.ite h (.freeSlot (.persEnd h))))) (.updEnum (.ite h
      (.freeSlot (.persEnd h))))))) (.ite (.updPort (.updEnum (.ite h (.freeSlot (.persEnd h))))) (.updEnum (.ite h (.freeSlot
      (.persEnd h)))))) ‹_›)
  · exact .showEnum (.updEnum (.updEnum (.snd (.ite₂ (.toBase (.highOff (.ite (.updPort (.updEnum (.ite h (.freeSlot (.persEnd h)))))
      (.updEnum (.ite h (.freeSlot (.persEnd h))))))) (.ite (.updPort (.updEnum (.ite h (.freeSlot (.persEnd h))))) (.updEnum (.ite h
      (.freeSlot (.persEnd h)))))) ‹_›)))
  · exact .enumRestart (.updEnum (.snd (.ite₂ (.toBase (.highOff (.ite (.updPort (.updEnum (.ite h (.freeSlot (.persEnd h)))))
      (.updEnum (.ite h (.freeSlot (.persEnd h))))))) (.ite (.updPort (.updEnum (.ite h (.freeSlot (.persEnd h))))) (.updEnum (.ite h
      (.freeSlot (.persEnd h)))))) ‹_›))

theorem Held.requestFail {p t k : Nat} (h : y.Canon) : (y.requestFail p t k).Canon := by
  fun_cases Sys.requestFail p t k y
  · exact h
  · exact .hubReq (.updEnum h)
  · exact .updEnum h
  · exact .enumIssue (.updEnum h)
  · exact .attemptFail h

theorem Held.stepFour {p t : Nat} (h : y.Canon) : (y.stepFour p t).Canon := by
  fun_cases Sys.stepFour p t y
  · exact .enumStep (.updEnum h)
  · exact .enumFinal (.updEnum h)

theorem Held.changed5 {p t : Nat} {e : Enum} (h : y.Canon) : (y.changed5 p t e).Canon :=
  .enumRestart (.updEnums (.ite (.detachPower (.updPort (.detachTree h))) (.updPortOf (.detachTree h))))

theorem Held.issueReq {n : Nat} (h : y.Canon) : (y.issueReq n).Canon := by
  fun_cases Sys.issueReq n y
  · exact .reqTo h
  · exact h

theorem Held.persReq {n : Nat} {r : PReq} (h : y.Canon) : (y.persReq n r).Canon := .ite (.issueReq (.updPers h)) (.updPers h)

theorem Held.releaseOwed {n : Nat} (h : y.Canon) : (y.releaseOwed n).Canon := .ite (.persReq (.updDrw h)) h

theorem Held.ringsReturn {n : Nat} (h : y.Canon) : (y.ringsReturn n).Canon := .each (fun _ _ k => .ite (.updRing k) k) h

theorem Held.representDone {p t : Nat} (h : y.Canon) : (y.representDone p t).Canon := by
  fun_cases Sys.representDone p t y
  · exact h
  · exact .decWake (.releaseOwed (.sendAttach (.ringsReturn (.ite (.updPort (.dropEnum (.updSlot h))) (.updPortOf (.updPort (.dropEnum
      (.updSlot h))))))))

theorem Held.hidBegin {n : Nat} (h : y.Canon) : (y.hidBegin n).Canon := .updSlot h

theorem Held.delayIn {j due flow prio tag : Nat} (h : y.Canon) : (y.delayIn j due flow prio tag).Canon :=
  .ite (.expire (.updHolly h)) (.ite (.updHolly (.updHolly h)) (.incFld (.updHolly (.ite (.recordErr (.updHolly h)) (.updHolly h)))))

theorem Held.armTimer {n : Nat} {k : PTimer} {t ms : Nat} (h : y.Canon) : (y.armTimer n k t ms).Canon :=
  .updPers (.delayIn (.delayCancel h))

theorem Held.prnStatus {n epid st t : Nat} (h : y.Canon) : (y.prnStatus n epid st t).Canon :=
  .ite (.updPers (.armTimer (.ite (.ite (.updPers (.persEvent (.updPers h))) (.updPers h)) (.ite (.persEvent (.updPers h)) (.updPers
    h))))) (.ite (.ite (.updPers (.persEvent (.updPers h))) (.updPers h)) (.ite (.persEvent (.updPers h)) (.updPers h)))

theorem Held.persBind {n code entry prio : Nat} {pages : List (Nat × Nat)} {params : List Byte} (h : y.Canon) :
    (y.persBind n code entry prio pages params).Canon := .ite (.ite (.prnStatus (.updPers (.ite (.updPers h) (.updEp (.updPers h)))))
      (.persReq (.armTimer (.updPers (.ite (.updPers h) (.updEp (.updPers h))))))) (.ite (.updPers h) (.updEp (.updPers h)))

theorem Held.mapBind {p t : Nat} {pages : List (Nat × Nat)} (h : y.Canon) : (y.mapBind p t pages).Canon := by
  fun_cases Sys.mapBind p t pages y
  · exact h
  · exact .enumStep (.persBind h)
  · exact .enumDone (.persBind h)
  · exact .enumDone h
  · exact .enumDone (.updSlot h)
  · exact .enumDone h

theorem Held.stepTen {p t : Nat} (h : y.Canon) : (y.stepTen p t).Canon := by
  fun_cases Sys.stepTen p t y
  · exact .showEnum (.updEnum h)
  · exact .enumDone (.updSlot (.showEnum (.updEnum h)))
  · exact .enumDone (.updSlot (.showEnum (.updEnum h)))
  · exact .enumStep (.hidBegin (.updSlot (.updSlot (.showEnum (.updEnum h)))))
  · exact .mapBind (.updSlot (.updSlot (.showEnum (.updEnum h))))
  · exact .enumDone (.updSlot (.updSlot (.showEnum (.updEnum h))))

theorem Held.selectCfg {p t i : Nat} {cs : List (List Byte)} (h : y.Canon) : (y.selectCfg p t i cs).Canon := by
  induction cs generalizing i y with
  | nil => exact .stepTen (.updEnum h)
  | cons c r ih =>
    unfold Sys.selectCfg
    dsimp only
    split
    · split
      · next he => exact ih (.snd (.powerReq h) he)
      · next he => exact .enumSetConfig (.updEnum (.snd (.powerReq h) he))
      · next he => exact .showEnum (.updEnum (.snd (.powerReq h) he))
    · exact .ite (ih (.powerDenied h)) (.enumSetConfig (.updEnum h))

theorem Held.stepSeven {p t : Nat} (h : y.Canon) : (y.stepSeven p t).Canon := by
  fun_cases Sys.stepSeven p t y
  · exact .showEnum (.updEnum h)
  · exact .enumFinal (.showEnum (.updEnum h))
  · exact .selectCfg (.showEnum (.updEnum h))

theorem Held.stepNine {p t : Nat} (h : y.Canon) : (y.stepNine p t).Canon := .stepTen (.ite ((by
  split
  · next he => exact .ite ((.snd (.powerReq (.ite (.updPort h) h)) he)) (.hpwrWant ((.snd (.powerReq (.ite (.updPort h) h)) he)))
  · next he => exact (.snd (.powerReq (.ite (.updPort h) h)) he))) (.ite (.updPort h) h))

theorem Held.afterConfig {p t : Nat} (h : y.Canon) : (y.afterConfig p t).Canon := by
  fun_cases Sys.afterConfig p t y
  · exact h
  · exact .enumStep h
  · exact .representDone h
  · exact .stepNine h

theorem Held.configured {n v : Nat} (h : y.Canon) : (y.configured n v).Canon :=
  .ite (.updPort (.updSlot (.updSlot h))) (.updSlot (.updSlot h))

theorem Held.hidNote {n : Nat} {bs : List Byte} (h : y.Canon) : (y.hidNote n bs).2.Canon := by
  fun_cases Sys.hidNote n bs y
  · exact .updSlot (.updSlot h)
  · exact .updSlot h

theorem Held.requestOk {p t : Nat} {e : Enum} {b : List Byte} (h : y.Canon) : (y.requestOk p t e b).Canon := by
  fun_cases Sys.requestOk p t e b y
  · exact .stepFour (.updEp h)
  · exact .updPort (.updEnum (.updSlot h))
  · exact .updEnum (.updSlot h)
  · exact .changed5 h
  · exact .representDone h
  · exact .enumStep h
  · exact .enumStep (.updEnum (.updSlot h))
  · exact .enumStep (.updEnum h)
  · exact .enumStep (.updSlot (.updEnum h))
  · exact .stepSeven (.updSlot (.updEnum h))
  · exact .afterConfig (.ite (.configured h) (.ite (.updPort h) h))
  · exact .enumStep (.snd (.hidNote h) ‹_›)
  · exact .mapBind (.snd (.hidNote h) ‹_›)
  · exact .enumStep h
  · exact .enumDone h
  · exact h

theorem Held.enumReply {p t : Nat} {res : ReqRes} (h : y.Canon) : (y.enumReply p t res).Canon := by
  fun_cases Sys.enumReply p t res y
  · exact h
  · exact h
  · exact .requestOk h
  · exact .ite (.enumDone (.persEnd h)) (.requestFail h)
  · exact .ite (.enumDone (.persEnd h)) (.requestFail h)
  · exact .ite (.enumDone (.persEnd h)) (.requestFail h)

theorem Held.selectDone {c : DCmd} {n : Nat} (h : y.Canon) : (y.selectDone c n).Canon := .decEnd (.sendAttach (.ite ((by
  split
  · next he => exact .ite ((.snd (.powerReq (.updSlot (.configured h))) he)) (.hpwrWant ((.snd (.powerReq (.updSlot (.configured h)))
      he)))
  · next he => exact (.snd (.powerReq (.updSlot (.configured h))) he))) (.updSlot (.configured h))))

theorem Held.selectReply {p t : Nat} {ok : Bool} (h : y.Canon) : (y.selectReply p t ok).Canon := by
  fun_cases Sys.selectReply p t ok y
  · exact h
  · exact h
  · exact .selectDone h
  · exact .reqTo (.updCmd h)
  · exact .decEnd h

theorem Held.ctlReply {p t : Nat} {res : ReqRes} (h : y.Canon) : (y.ctlReply p t res).Canon := by
  fun_cases Sys.ctlReply p t res y
  · exact .enumReply h
  · exact .selectReply h

theorem Held.reqResult {o p t flow prio : Nat} (h : y.Canon) : (y.reqResult o p t flow prio).Canon :=
  .ite (.pushItem (.updHolly (.chipDone h))) (.chipDone h)

theorem Held.reqOver {o p t : Nat} (h : y.Canon) : (y.reqOver o p t).Canon := by
  fun_cases Sys.reqOver o p t y
  · exact .reqResult h
  · exact .reqResult h
  · exact h

theorem Held.chipEntry {p idx : Nat} {t : PtEnt} (h : y.Canon) : (y.chipEntry p idx t).Canon := .part (.updPtab h)

theorem Held.alwaysOpen {n e : Nat} (h : y.Canon) : (y.alwaysOpen n e).Canon := .part h

theorem Held.stepH4 {p t : Nat} (h : y.Canon) : (y.stepH4 p t).Canon := by
  fun_cases Sys.stepH4 p t y
  · exact h
  · exact .attemptFail (.showEnum (.updEnum h))
  · exact .attemptFail (.showEnum (.updEnum h))
  · exact .enumStep (.alwaysOpen (.updEp (.chipEntry (.showEnum (.updEnum h)))))

theorem Held.hubStepReply {p t : Nat} {res : ReqRes} (h : y.Canon) : (y.hubStepReply p t res).Canon := by
  fun_cases Sys.hubStepReply p t res y
  · exact h
  · exact .requestFail h
  · exact .requestFail h
  · exact .enumStep (.updEnum h)
  · exact .requestFail h
  · exact .enumStep (.updSlot h)
  · exact .enumStep (.updSlot h)
  · exact .requestFail h
  · exact .enumStep (.updSlot h)
  · exact .stepH4 (.updSlot h)
  · exact .enumStep (.updHubPort h)
  · exact .updEnum (.updHubPort h)
  · exact h

theorem Held.hubPop {h' : Nat} (h : y.Canon) : (y.hubPop h').Canon := by
  fun_cases Sys.hubPop h' y
  · exact .reqTo (.updSlot h)
  · exact .updSlot h

theorem Held.hubReqDone {k : HReqK} (h : y.Canon) : (y.hubReqDone k).Canon := by
  fun_cases Sys.hubReqDone k y
  · exact .updEp h
  · exact h

theorem Held.hubAgain {h' : Nat} {r : HReq} (h : y.Canon) : (y.hubAgain h' r).Canon := .reqTo (.updSlot h)

theorem Held.hubReqLost {p h' : Nat} {k : HReqK} (h : y.Canon) : (y.hubReqLost p h' k).Canon := by
  fun_cases Sys.hubReqLost p h' k y
  · exact .decWake (.updHubPort h)
  · exact .treeFault h
  · exact .treeFault (.updEp h)
  · exact h

theorem Held.hubReqEnd {p t : Nat} {res : ReqRes} (h : y.Canon) : (y.hubReqEnd p t res).Canon := by
  fun_cases Sys.hubReqEnd p t res y
  · exact h
  · exact h
  · exact .hubStepReply (.hubPop h)
  · exact .hubPop h
  · exact .requestFail (.hubPop h)
  · exact .hubPop h
  · exact .hubPop h
  · exact .hubReqDone (.hubPop h)
  · exact .hubAgain h
  · exact .hubReqLost (.hubPop h)

theorem Held.addrRecovered {p t : Nat} (h : y.Canon) : (y.addrRecovered p t).Canon := by
  fun_cases Sys.addrRecovered p t y
  · exact .enumStep h
  · exact h
  · exact h

theorem Held.trip {p kind : Nat} (h : y.Canon) : (y.trip p kind).Canon :=
  .portChg (.each (fun _ _ k => .tenantEvent k) (.meqEvent (.rootOff (.recordErr (.incFld h)))))

theorem Held.measure {p c5 ch : Nat} (h : y.Canon) : (y.measure p c5 ch).Canon :=
  .ite (.trip (.updPort (.ite (.recordErr (.updPort h)) (.updPort h)))) (.ite (.trip (.updPort (.ite (.recordErr (.updPort h))
    (.updPort h)))) (.updPort (.ite (.recordErr (.updPort h)) (.updPort h))))

theorem Held.hardTrip {p : Nat} (h : y.Canon) : (y.hardTrip p).Canon := .ite (.trip h) h

theorem Held.ocRetry {p : Nat} (h : y.Canon) : (y.ocRetry p).Canon := .powerOnReq (.updPort h)

theorem Held.hubPowerUp {h' hp : Nat} (h : y.Canon) : (y.hubPowerUp h' hp).Canon := .reqFree (.updHubPort h)

theorem Held.hubRetry {k : Nat × Nat × Nat} (h : y.Canon) : (y.hubRetry k).Canon := .hubPowerUp (.updHubPort h)

theorem Held.testEnd {p : Nat} (h : y.Canon) : (y.testEnd p).Canon := .ite (.vbusWant (.updPort h)) h

theorem Held.hubReady {p t : Nat} (h : y.Canon) : (y.hubReady p t).Canon := by
  fun_cases Sys.hubReady p t y
  · exact .representDone (.updSlot h)
  · exact .stepTen (.updSlot h)
  · exact h
  · exact h

theorem Held.hubConn {p h' hp : Nat} {connected : Bool} (h : y.Canon) : (y.hubConn p h' hp connected).Canon :=
  .updHubPort (.ite (.dropTree h) h)

theorem Held.clearChange {h' hp feature : Nat} (h : y.Canon) : (y.clearChange h' hp feature).Canon := .reqFree h

theorem Held.hubResetDone {p h' hp : Nat} {connected enabled : Bool} {sp : Speed} (h : y.Canon) :
    (y.hubResetDone p h' hp connected enabled sp).Canon := by
  fun_cases Sys.hubResetDone p h' hp connected enabled sp y
  · exact .dropTree h
  · exact .requestFail h
  · exact .updEnum (.updHubPort h)
  · exact h
  · exact h

theorem Held.hubTrip {p h' hp : Nat} (h : y.Canon) : (y.hubTrip p h' hp).Canon :=
  .each (fun _ _ k => .tenantEvent k) (.meqEvent (.updHubPort (.dropTree h)))

theorem Held.hubSuspDone {p h' hp : Nat} (h : y.Canon) : (y.hubSuspDone p h' hp).Canon := by
  fun_cases Sys.hubSuspDone p h' hp y
  · exact .updHubPort h
  · exact .resumeGo (.sendRwake h)
  · exact h

theorem Held.hubChange {p t hp : Nat} {chg : HubChange} (h : y.Canon) : (y.hubChange p t hp chg).Canon := by
  fun_cases Sys.hubChange p t hp chg y
  · exact h
  · exact h
  · exact .hubConn (.clearChange h)
  · exact .hubResetDone (.clearChange h)
  · exact .hubTrip (.clearChange h)
  · exact .clearChange h
  · exact .treeFault (.clearChange h)
  · exact .hubSuspDone (.clearChange h)

theorem Held.hubDebounced {p t : Nat} {connected : Bool} (h : y.Canon) : (y.hubDebounced p t connected).Canon := by
  fun_cases Sys.hubDebounced p t connected y
  · exact .dropTree (.updHubPort h)
  · exact .updHubPort h
  · exact .queueAgain (.updHubPort h)
  · exact .queueNew (.updHubPort h)
  · exact h
  · exact h

theorem Held.hubResetAt {p t sub : Nat} {f : Enum → Sys → Sys} (hf : ∀ z0 z1, z1.Canon → (f z0 z1).Canon) (h : y.Canon) :
    (y.hubResetAt p t sub f).Canon := by
  fun_cases Sys.hubResetAt p t sub f y
  · exact hf _ _ h
  · exact h
  · exact h

theorem Held.suspendEnd {p t : Nat} (h : y.Canon) : (y.suspendEnd p t).Canon :=
  .ite (.resumeGo (.decWake (.ite (.updPort h) (.updPortOf h)))) (.decWake (.ite (.updPort h) (.updPortOf h)))

theorem Held.suspendEntry {p t : Nat} (h : y.Canon) : (y.suspendEntry p t).Canon := by
  fun_cases Sys.suspendEntry p t y
  · exact h
  · exact h
  · exact .suspendEnd h
  · exact h
  · exact .suspendEnd h
  · exact h

theorem Held.resumeSignal {p : Nat} (h : y.Canon) : (y.resumeSignal p).Canon := .ite (.emit (.part (.rwakeOut h))) h

theorem Held.resumeEnd {p t kind : Nat} {rw : Bool} (h : y.Canon) : (y.resumeEnd p t kind rw).Canon :=
  .ite (.suspendGo (.each (fun _ _ k => .ite k (.releaseOwed k)) (.ite (.each (fun _ _ k => .each (fun _ _ l => .updRing l) k)
    (.resumeDone (.ite (.updPort (.ite (.rwakeOut h) h)) (.updPortOf (.ite (.rwakeOut h) h))))) (.resumeDone (.ite (.updPort (.ite
      (.rwakeOut h) h)) (.updPortOf (.ite (.rwakeOut h) h))))))) (.each (fun _ _ k => .ite k (.releaseOwed k)) (.ite (.each (fun _ _ k
        => .each (fun _ _ l => .updRing l) k) (.resumeDone (.ite (.updPort (.ite (.rwakeOut h) h)) (.updPortOf (.ite (.rwakeOut h)
          h))))) (.resumeDone (.ite (.updPort (.ite (.rwakeOut h) h)) (.updPortOf (.ite (.rwakeOut h) h))))))

theorem Held.recoveryEnd {p t : Nat} (h : y.Canon) : (y.recoveryEnd p t).Canon := by
  fun_cases Sys.recoveryEnd p t y
  · exact .resumeEnd h
  · exact h
  · exact .resumeEnd h
  · exact h
  · exact h

theorem Held.resumeLate {p t : Nat} (h : y.Canon) : (y.resumeLate p t).Canon := by
  fun_cases Sys.resumeLate p t y
  · exact .treeFault h
  · exact h
  · exact h

theorem Held.remoteWake {p t : Nat} {mo : Nat × Nat} (h : y.Canon) : (y.remoteWake p t mo).Canon := by
  fun_cases Sys.remoteWake p t mo y
  · exact h
  · exact .updPort (.resumeGo h)
  · exact .resumeGo (.sendRwake h)
  · exact .updPort h
  · exact h
  · exact .updPortOf h
  · exact h

theorem Held.wakeSeen {p t : Nat} (h : y.Canon) : (y.wakeSeen p t).Canon := .ite (.remoteWake h) (.ite (.latchSet (.updPort h)) h)

theorem Held.freshParams {n : Nat} (h : y.Canon) : (y.freshParams n).Canon := by
  fun_cases Sys.freshParams n y
  · exact .updPers h
  · exact h
  · exact h

theorem Held.persItem {n : Nat} {k : ItemK} {cs : List Nat} {poison : Bool} {f : Sys → Sys} (hf : ∀ z0, z0.Canon → (f z0).Canon) (h :
    y.Canon) : (y.persItem n k cs poison f).Canon := by
  fun_cases Sys.persItem n k cs poison f y
  · exact h
  · exact .persPoison h
  · exact (by
    split
    · exact hf _ (.updPers (.freshParams h))
    · exact hf _ (.freshParams h))
  · exact (by
    split
    · exact hf _ (.updPers (.freshParams h))
    · exact hf _ (.freshParams h))

theorem Held.updScan {n : Nat} {f : Scan → Scan} (h : y.Canon) : (y.updScan n f).Canon := .updPers h

theorem Held.scanRecs {n : Nat} {data : List Byte} {flags : Nat} {sym : List Byte} {t : Nat} (h : y.Canon) :
    (y.scanRecs n data flags sym t).Canon := .each (fun _ _ k => .persEvent k) h

theorem Held.scanEnd {n : Nat} {bySuffix gap : Bool} (h : y.Canon) : (y.scanEnd n bySuffix gap).Canon :=
  .ite (.updScan (.timerOff h)) (.scanRecs (.updScan (.timerOff h)))

theorem Held.scanPut {n : Nat} {c : Byte} {t : Nat} (h : y.Canon) : (y.scanPut n c t).Canon :=
  .ite (.scanEnd (.ite (.updScan h) (.ite (.updScan h) (.ite (.updScan h) (.updScan h))))) (.ite (.updScan h) (.ite (.updScan h) (.ite
    (.updScan h) (.updScan h))))

theorem Held.scanArm {n t : Nat} (h : y.Canon) : (y.scanArm n t).Canon := .ite (.updScan (.armTimer h)) h

theorem Held.scanKbd {n : Nat} {rep : List Byte} (h : y.Canon) : (y.scanKbd n rep).Canon :=
  .ite h (.ite (.each (fun _ _ k => .scanPut k) (.updScan h)) (.scanArm (.each (fun _ _ k => .scanPut k) (.updScan h))))

theorem Held.scanPos {n : Nat} {rep : PosReport} (h : y.Canon) : (y.scanPos n rep).Canon :=
  .ite (.ite (.scanArm (.updScan h)) (.scanEnd (.updScan h))) (.updScan (.updScan h))

theorem Held.scanGap {n : Nat} (h : y.Canon) : (y.scanGap n).Canon := .ite h (.ite (.scanEnd h) (.updScan (.timerOff h)))

theorem Held.unstable {n reason : Nat} {r : ScaleReport} (h : y.Canon) : (y.unstable n reason r).Canon :=
  .ite (.part (.persEvent h)) (.persEvent h)

theorem Held.updScale {n : Nat} {f : Scale → Scale} (h : y.Canon) : (y.updScale n f).Canon := .updPers h

theorem Held.scaleIn {n : Nat} {r : ScaleReport} (h : y.Canon) : (y.scaleIn n r).Canon :=
  .ite (.updScale (.timerOff (.ite (.unstable h) h))) (.ite (.updScale h) (.ite (.updScale (.timerOff (.ite (.updScale (.unstable h))
    h))) (.updScale (.armTimer (.ite (.updScale (.unstable h)) h)))))

theorem Held.scaleTimer {n t : Nat} (h : y.Canon) : (y.scaleTimer n t).Canon := by
  fun_cases Sys.scaleTimer n t y
  · exact h
  · exact h
  · exact .updScale (.ite (.persEvent (.updScale (.timerOff h))) (.updScale (.timerOff h)))
  · exact .updScale (.updScale (.timerOff h))
  · exact .updScale (.timerOff h)
  · exact .updScale (.persEvent (.updScale (.timerOff h)))

theorem Held.printDone {n epid t : Nat} (h : y.Canon) : (y.printDone n epid t).Canon := .updPers (.timerOff (.persEvent h))

theorem Held.prnBlock {n : Nat} {blk : List Byte} (h : y.Canon) : (y.prnBlock n blk).Canon :=
  .ite h (.ite (.printDone (.prnStatus (.updPers h))) (.prnStatus (.updPers h)))

theorem Held.prnPollDue {n : Nat} (h : y.Canon) : (y.prnPollDue n).Canon := .ite h (.persReq (.armTimer h))

theorem Held.prnOut {n : Nat} (h : y.Canon) : (y.prnOut n).Canon :=
  .ite (.updPers (.armTimer (.updPers (.updSlot h)))) (.updPers (.updSlot h))

theorem Held.prnPower {n : Nat} (h : y.Canon) : (y.prnPower n).Canon := .prnStatus (.updSlot h)

theorem Held.prnIdle {n : Nat} (h : y.Canon) : (y.prnIdle n).Canon := .ite h (.ite (.printDone h) (.updPers (.timerOff h)))

theorem Held.senseReport {n : Nat} {rep : List Byte} (h : y.Canon) : (y.senseReport n rep).Canon := by
  fun_cases Sys.senseReport n rep y
  · exact h
  · exact .updDrw (.timerOff h)
  · exact h
  · exact .updDrw (.armTimer h)

theorem Held.drawerOpen {n epid cause tag : Nat} (h : y.Canon) : (y.drawerOpen n epid cause tag).Canon := .persEvent h

theorem Held.kickGo {n : Nat} (h : y.Canon) : (y.kickGo n).Canon := .ite (.persReq (.updDrw h)) (.updDrw (.armTimer h))

theorem Held.kickStart {n tag pulse : Nat} (h : y.Canon) : (y.kickStart n tag pulse).Canon := .ite (.drawerOpen h) (.kickGo (.updDrw h))

theorem Held.kickDone {n : Nat} (h : y.Canon) : (y.kickDone n).Canon := by
  fun_cases Sys.kickDone n y
  · exact .kickStart (.updDrw h)
  · exact h
  · exact h

theorem Held.senseExpiry {n : Nat} (h : y.Canon) : (y.senseExpiry n).Canon := by
  fun_cases Sys.senseExpiry n y
  · exact h
  · exact .kickDone (.updDrw (.timerOff (.drawerOpen (.updDrw (.timerOff h)))))
  · exact .drawerOpen (.updDrw (.timerOff h))
  · exact .drawerClosed (.updDrw (.timerOff h))
  · exact .drawerClosed (.updDrw (.timerOff h))

theorem Held.dispNext {fuel n : Nat} (h : y.Canon) : (y.dispNext fuel n).Canon := by
  induction fuel generalizing y with
  | zero => exact h
  | succ fuel ih =>
    unfold Sys.dispNext
    dsimp only
    split
    · exact h
    · split
      · exact .persReq h
      · exact ih (.dispAck (.updPers h))

theorem Held.dispCmd {n : Nat} {c : DispCmd} (h : y.Canon) : (y.dispCmd n c).Canon := .ite (.updPers h) (.dispNext (.updPers h))

theorem Held.kick {n tag pulse : Nat} (h : y.Canon) : (y.kick n tag pulse).Canon := .ite (.updDrw h) (.kickStart h)

theorem Held.kickRec {n tag pulseMs : Nat} (h : y.Canon) : (y.kickRec n tag pulseMs).Canon := .ite (.dispCmd h) (.kick h)

theorem Held.kickGap {n : Nat} (h : y.Canon) : (y.kickGap n).Canon := .ite (.persReq (.updDrw (.timerOff h))) h

theorem Held.pulseEnd {n : Nat} (h : y.Canon) : (y.pulseEnd n).Canon :=
  .ite h (.ite (.updDrw (.timerOff h)) (.persReq (.updDrw (.timerOff h))))

theorem Held.openWaitEnd {n : Nat} (h : y.Canon) : (y.openWaitEnd n).Canon := .ite (.kickDone (.updDrw (.timerOff (.drawerClosed h)))) h

theorem Held.keyEvent {n : Nat} {usage mods : Byte} {down : Bool} (h : y.Canon) : (y.keyEvent n usage mods down).Canon := .persEvent h

theorem Held.keyIn {n : Nat} {rep : List Byte} (h : y.Canon) : (y.keyIn n rep).Canon :=
  .ite h (.updPers (.each (fun _ _ k => .keyEvent k) (.ite (.each (fun _ _ k => .keyEvent k) (.each (fun _ _ k => .ite (.keyEvent k) k)
    h)) (.each (fun _ _ k => .ite (.keyEvent k) k) h))))

theorem Held.prnPoll {n : Nat} {b : Byte} (h : y.Canon) : (y.prnPoll n b).Canon := .prnStatus (.updPers h)

theorem Held.kickOpened {n : Nat} {ok : Bool} (h : y.Canon) : (y.kickOpened n ok).Canon :=
  .ite (.ite (.armTimer (.updDrw (.armTimer h))) (.updDrw (.armTimer h))) (.persReq (.updDrw (.drawerClosed h)))

theorem Held.kickReleased {n : Nat} (h : y.Canon) : (y.kickReleased n).Canon := .kickDone (.updDrw (.ite h (.drawerOpen h)))

theorem Held.dispDone {n : Nat} {ok : Bool} (h : y.Canon) : (y.dispDone n ok).Canon := by
  fun_cases Sys.dispDone n ok y
  · exact .dispNext (.dispAck (.updPers h))
  · exact h

theorem Held.persReqEnd {n : Nat} {res : ReqRes} (h : y.Canon) : (y.persReqEnd n res).Canon := by
  fun_cases Sys.persReqEnd n res y
  · exact .ite h (.freshParams h)
  · exact .issueReq (.updPers (.ite h (.freshParams h)))
  · exact .prnPoll (.issueReq (.updPers (.ite h (.freshParams h))))
  · exact .issueReq (.updPers (.ite h (.freshParams h)))
  · exact .kickOpened (.issueReq (.updPers (.ite h (.freshParams h))))
  · exact .kickReleased (.issueReq (.updPers (.ite h (.freshParams h))))
  · exact .dispDone (.issueReq (.updPers (.ite h (.freshParams h))))
  · exact .issueReq (.updPers (.ite h (.freshParams h)))

theorem Held.decWait {c : DCmd} {w : CWait} {res : List Word} (h : y.Canon) : (y.decWait c w res).Canon := .updCmd h

theorem Held.normGo {c : DCmd} {n : Nat} {hidOk : Bool} {pages : List (Nat × Nat)} (h : y.Canon) : (y.normGo c n hidOk pages).Canon := by
  fun_cases Sys.normGo c n hidOk pages y
  · exact .decEnd (.updSlot (.persEnd h))
  · exact .decEnd h
  · exact .decEnd h
  · exact .decEnd h
  · exact .decEnd h
  · exact .persReq (.persReq (.decWait (.persBind (.persEnd h))))
  · exact .decWait (.persBind (.persEnd h))
  · exact .decEnd (.persBind (.persEnd h))

theorem Held.normRead {n : Nat} {b : List Byte} {norms : List DCmd} (h : y.Canon) : (y.normRead n b norms).Canon := by
  fun_cases Sys.normRead n b norms y
  · exact .persReq (.snd (.hidNote h) ‹_›)
  · exact .each (fun _ _ k => .normGo k) (.snd (.hidNote h) ‹_›)

theorem Held.persReply {n : Nat} {res : ReqRes} (h : y.Canon) : (y.persReply n res).Canon := by
  fun_cases Sys.persReply n res y
  · exact .normRead (.persReqEnd h)
  · exact .each (fun _ _ k => .normGo k) (.persReqEnd h)
  · exact .persReqEnd h
  · exact .persReqEnd h
  · exact .decWake (.persReqEnd h)
  · exact .decWake (.persReqEnd h)
  · exact .reqCut (.persEnd (.persReqEnd h))
  · exact .persReqEnd h
  · exact .reqCut (.persEnd (.persReqEnd h))
  · exact .persReqEnd h
  · exact .reqCut (.persEnd (.persReqEnd h))
  · exact .persReqEnd h
  · exact .persReqEnd h

theorem Held.mcqTake {rd : DwRes} (h : y.Canon) : (y.mcqTake rd).Canon := by
  fun_cases Sys.mcqTake rd y
  · exact .snd (.hostAnswer (.mcqRead h)) ‹_›
  · exact .decSweep (.updDec (.setPg (.snd (.hostAnswer (.mcqRead h)) ‹_›)))
  · exact .respond (.setPg (.snd (.hostAnswer (.mcqRead h)) ‹_›))

theorem Held.decRow {idx op : Nat} {f : DCmd → Sys → Sys} (hf : ∀ z0 z1, z1.Canon → (f z0 z1).Canon) (h : y.Canon) :
    (y.decRow idx op f).Canon := by
  fun_cases Sys.decRow idx op f y
  · exact hf _ _ h
  · exact h

theorem Held.decJudge {c : DCmd} {checks : List (Bool × Nat)} {go : Sys → Sys} (hgo : ∀ z0, z0.Canon → (go z0).Canon) (h : y.Canon) :
    (y.decJudge c checks go).Canon := by
  fun_cases Sys.decJudge c checks go y
  · exact .decEnd h
  · exact hgo _ h

theorem Held.cHello {c : DCmd} (h : y.Canon) : (y.cHello c).Canon := .decJudge (fun _ k => .decEnd (.ite (.updDec k) k)) h

theorem Held.assignTo {n i : Nat} (h : y.Canon) : (y.assignTo n i).Canon := .sendAttach (.updSlot (.ite (.persEnd h) h))

theorem Held.cCreate {c : DCmd} (h : y.Canon) : (y.cCreate c).Canon :=
  .decJudge (fun _ k => .decEnd (.each (fun _ _ l => .assignTo l) (.updInst k))) (.ite (.incFld h) h)

theorem Held.orphanXfers {i : Nat} (h : y.Canon) : (y.orphanXfers i).Canon :=
  .each (fun _ _ k => .ite (.tryPost k) (.ite (.cutX k) k)) (.each (fun _ _ k => .ite (.updX k) (.abandonX k)) h)

theorem Held.ringGone {k : Nat} (h : y.Canon) : (y.ringGone k).Canon := .part (.ctxWrite (.updRing h))

theorem Held.instClear {i : Nat} (h : y.Canon) : (y.instClear i).Canon :=
  .updInst (.each (fun _ _ k => .updSlot (.closeAll k)) (.part (.updRing (.each (fun _ _ k => .ringGone k) (.orphanXfers h)))))

theorem Held.upRevoke {i cause : Nat} (h : y.Canon) : (y.upRevoke i cause).Canon := .ite (.meqEvent (.updInst h)) h

theorem Held.cDestroy {c : DCmd} (h : y.Canon) : (y.cDestroy c).Canon := by
  unfold Sys.cDestroy
  refine .decJudge (fun _ k => ?_) h
  exact .instSettle (.decWait (.updInst (.upRevoke (.each (fun _ _ l => .updSlot (.persEnd l)) (.instClear (.updInst k))))))

theorem Held.cReset {c : DCmd} (h : y.Canon) : (y.cReset c).Canon := by
  unfold Sys.cReset
  exact .decJudge (fun _ k => .instSettle (.decWait (.upRevoke (.instClear (.updInst k))))) h

theorem Held.cVivel {c : DCmd} (h : y.Canon) : (y.cVivel c).Canon := .decJudge (fun _ k => .decEnd (.updInst k)) h

theorem Held.cRing {c : DCmd} (h : y.Canon) : (y.cRing c).Canon := .decJudge (fun _ k => .decEnd (.cachePut (.ctxWrite (.updRing k)))) h

theorem Held.subDestroy {k : Nat} (h : y.Canon) : (y.subDestroy k).Canon :=
  .ringSettle (.each (fun _ _ k => .tryPost k) (.ringStop (.updRing (.mapX (.each (fun _ _ k => .holdFree k) (.updRing h))))))

theorem Held.cRingOff {c : DCmd} (h : y.Canon) : (y.cRingOff c).Canon :=
  .decJudge (fun _ k => .ite (.subDestroy (.decWait k)) (.decEnd (.updRing (.ringGone k)))) h

theorem Held.cAssign {c : DCmd} (h : y.Canon) : (y.cAssign c).Canon := .decJudge (fun _ k => .decEnd (.assignTo k)) h

theorem Held.unassign {n : Nat} (h : y.Canon) : (y.unassign n).Canon := .updSlot (.persEnd (.closeAll (.ringSlotEvent h)))

theorem Held.cUnassign {c : DCmd} (h : y.Canon) : (y.cUnassign c).Canon := .decJudge (fun _ k => .decEnd ((by
  split
  · exact .tenantEvent (.unassign k)
  · exact .unassign k))) h

theorem Held.cSelect {c : DCmd} (h : y.Canon) : (y.cSelect c).Canon := .decJudge (fun _ k => .ite ((by
  split
  · next he => exact .reqTo (.decWait ((.snd (.powerReq (.persEnd (.closeAll k))) he)))
  · next he => exact .decWait ((.snd (.powerReq (.persEnd (.closeAll k))) he))
  · next he => exact .decEnd ((.snd (.powerReq (.persEnd (.closeAll k))) he)))) (.reqTo (.decWait (.persEnd (.closeAll k))))) h

theorem Held.openNorm {n e : Nat} (h : y.Canon) : (y.openNorm n e).Canon := .ite (.alwaysOpen h) h

theorem Held.staged {c : DCmd} {res : List Word} (h : y.Canon) : (y.staged c res).Canon := .ite (.commitKick (.decWait h)) (.decEnd h)

theorem Held.cOpen {c : DCmd} (h : y.Canon) : (y.cOpen c).Canon := by
  unfold Sys.cOpen
  refine .decJudge (fun _ k => ?_) h
  dsimp only
  split
  · exact .decEnd (.openNorm (.updEp k))
  · exact .staged (.openNorm (.updEp (.setStaged (.updPtab k))))

theorem Held.cClose {c : DCmd} (h : y.Canon) : (y.cClose c).Canon :=
  .decJudge (fun _ k => .ite (.decEnd (.closeNow k)) (.staged (.ite (.updEp (.setStaged (.updPtab k))) (.each (fun _ _ l => .ptLeft l)
    (.setStaged (.updPtab k)))))) h

theorem Held.cNormalise {c : DCmd} (h : y.Canon) : (y.cNormalise c).Canon :=
  .decJudge (fun _ k => .ite (.persReq (.hidBegin (.decWait k))) (.normGo k)) h

theorem Held.cUnbind {c : DCmd} (h : y.Canon) : (y.cUnbind c).Canon := .decJudge (fun _ k => .decEnd (.reqCut (.persEnd k))) h

theorem Held.cSeal {c : DCmd} (h : y.Canon) : (y.cSeal c).Canon := .decJudge (fun _ k => .decEnd (.updSlot k)) h

theorem Held.hostLong {g : Nat} {u : HUse} {a n : Nat} (h : y.Canon) : (y.hostLong g u a n).Canon := by
  fun_cases Sys.hostLong g u a n y
  · exact h
  · exact h
  · exact .readIssue (.ite (.updChan (.updChan h)) (.updChan h))

theorem Held.paramsStart {a len : Nat} (h : y.Canon) : (y.paramsStart a len).Canon := .ite h (.ite (.part (.hostLong h)) h)

theorem Held.paramsRead {a len : Nat} {rd : ReadRes} (h : y.Canon) : (y.paramsRead a len rd).2.Canon := by
  fun_cases Sys.paramsRead a len rd y
  · exact .part (.dcqAppend (.snd (.hostAnswer (.paramsStart h)) ‹_›))
  · exact .snd (.hostAnswer (.paramsStart h)) ‹_›

theorem Held.cParams {c : DCmd} {rd : ReadRes} (h : y.Canon) : (y.cParams c rd).Canon := by
  refine .decJudge (fun _ k => ?_) h
  split
  · next he => exact .snd (.paramsRead k) he
  · next he =>
    have hz := Held.snd (.paramsRead k) he
    split
    · split
      · exact .decEnd (.eng hz)
      · exact .decEnd hz
    · exact .decEnd hz

theorem Held.hubPowerDown {p h' hp : Nat} (h : y.Canon) : (y.hubPowerDown p h' hp).Canon := .reqFree (.updHubPort (.dropTree h))

theorem Held.hubCmd {p t cmd : Nat} {z : Sys} (h : y.Canon) (he : y.hubCmd p t cmd = some z) : z.Canon := by
  unfold Sys.hubCmd at he
  split at he
  · cases he
  · split at he
    · split at he
      · exact Option.some.inj he ▸ Held.hubPowerUp h
      · cases he
    · split at he
      · exact Option.some.inj he ▸ Held.updHubPort (.hubPowerDown h)
      · cases he
    · split at he
      · exact Option.some.inj he ▸ Held.requeue h
      · cases he
    · split at he
      · exact Option.some.inj he ▸ Held.disableAt h
      · cases he
    · exact Option.some.inj he ▸ h

theorem Held.anyCmd {p t cmd : Nat} {z : Sys} (h : y.Canon) (he : y.anyCmd p t cmd = some z) : z.Canon := by
  unfold Sys.anyCmd at he
  split at he
  · exact .rootCmd h he
  · exact .hubCmd h he

theorem Held.cPort {c : DCmd} (h : y.Canon) : (y.cPort c).Canon := by
  refine .decJudge (fun z k => ?_) (.ite (.cfgErr h) h)
  have hr := Held.getD k (o := y.anyCmd (c.f 1 6 0) (c.dw 2).toNat (c.f 1 10 8)) fun _ he => .anyCmd h he
  dsimp only
  split
  · exact .decWait hr
  · exact .decEnd hr

theorem Held.cSuspend {c : DCmd} (h : y.Canon) : (y.cSuspend c).Canon :=
  .decJudge (fun _ k => .ite (.decWake (.suspReq (.decWait k))) (.suspReq (.decWait k))) h

theorem Held.cResume {c : DCmd} (h : y.Canon) : (y.cResume c).Canon :=
  .decJudge (fun _ k => .ite (.decWake (.suspReq (.decWait k))) (.suspReq (.decWait k))) h

theorem Held.cDevReset {c : DCmd} (h : y.Canon) : (y.cDevReset c).Canon := .decJudge (fun _ k => .requeue (.decWait k)) h

theorem Held.cBind {c : DCmd} (h : y.Canon) : (y.cBind c).Canon := .decJudge (fun _ k => .staged (.stage k)) h

theorem Held.cCommit {c : DCmd} (h : y.Canon) : (y.cCommit c).Canon := .decJudge (fun _ k => .commitKick (.decWait k)) h

theorem Held.vivelHello {i : Nat} (h : y.Canon) : (y.vivelHello i).Canon :=
  .ite h (.dnEvent (.ite (.updInst (.updInst (.part h))) (.updInst (.part h))))

theorem Held.giveItem {c : Nat} {i : Item} (h : y.Canon) : (y.giveItem c i).Canon := .updCore (.updHolly h)

theorem Held.itemGive (h : y.Canon) : y.itemGive.Canon := by
  fun_cases Sys.itemGive y
  · exact .carry (.giveItem h)
  · exact h
  · exact h

theorem Held.itemDone {c : Nat} (h : y.Canon) : (y.itemDone c).Canon := by
  fun_cases Sys.itemDone c y
  · exact h
  · exact .entryFreed (.updCore (.updHolly h))

theorem Held.oddRecord {c : Nat} (h : y.Canon) : (y.oddRecord c).Canon := by
  fun_cases Sys.oddRecord c y
  · exact .persPoison h
  · exact .dispCmd (.freshParams h)
  · exact h
  · exact h

theorem Held.watchdog {c : Nat} (h : y.Canon) : (y.watchdog c).Canon := .ite (.coreReset (.recordErr h)) h

theorem Held.coreReady {c : Nat} (h : y.Canon) : (y.coreReady c).Canon := .routeAll (.mbxAgain (.lsFresh (.updCore h)))

theorem Held.reloadEnd {c : Nat} {poisoned : Bool} (h : y.Canon) : (y.reloadEnd c poisoned).Canon :=
  .ite (.topFault h) (.carry (.coreReady h))

theorem Held.delayTick {j : Nat} (h : y.Canon) : (y.delayTick j).Canon := .lateDrain (.each (fun _ _ k => .expire k) (.updHolly h))

theorem Held.ticksBelow {j : Nat} (h : y.Canon) : (y.ticksBelow j).Canon := .each (fun _ _ k => .ite (.delayTick k) k) h

theorem Held.dcxEvict {fuel n : Nat} (h : y.Canon) : (y.dcxEvict fuel n).Canon := by
  induction fuel generalizing y with
  | zero => exact h
  | succ fuel ih =>
    unfold Sys.dcxEvict
    split
    · exact h
    · split
      · exact ih (.eng h)
      · exact h

theorem Held.dcxUse {n : Nat} (h : y.Canon) : (y.dcxUse n).Canon := .ite (.eng h) (.carry (.dcxEvict (.incFld (.eng h))))

theorem Held.srcOutside {s : Nat} {high : Bool} (h : y.Canon) : (y.srcOutside s high).Canon := .cicLevel (.updSrc h)

/-- Power-on reset leaves nothing stored. -/
theorem Held.powerReset {compat : Bool} {nv : NvStore} : (y.powerReset compat nv).Canon := storageCanon_iff.2 ⟨rfl, rfl, rfl⟩

theorem Held.porEnd {compat : Bool} : (y.porEnd compat).Canon := .ite (.smbErr .powerReset) .powerReset

theorem Held.vinFail {kept : List Bool} : (y.vinFail kept).Canon := .powerReset

theorem Held.resetIsland (h : y.Canon) : y.resetIsland.Canon := .part (.setFld h)

theorem Held.ldrReset (h : y.Canon) : y.ldrReset.Canon := .part h

theorem Held.cfgReset {flr : Bool} (h : y.Canon) : (y.cfgReset flr).Canon := .part h

theorem Held.relatch (h : y.Canon) : y.relatch.Canon := .each (fun _ _ k => .ite (.updSrc k) k) h

/-- What is wiped keeps the island's registers alone, and nothing in the SRAMs. -/
theorem Held.wipe (h : y.Canon) : y.wipe.Canon := by
  unfold Sys.wipe
  have hd := h.each (l := List.range 34) (f := Sys.dropUnits) fun _ _ k => .dropUnits k
  exact .relatch (storageCanon_iff.2 ⟨FMap.canon_filter _ (storageCanon_iff.1 hd).1, rfl, rfl⟩)

theorem Held.allOff (h : y.Canon) : y.allOff.Canon := .each (fun _ _ k => .setDom k) (.cfgReset (.wipe h))

theorem Held.perstOn (h : y.Canon) : y.perstOn.Canon := .part (.incFld (.resetIsland (.ldrReset (.allOff h))))

theorem Held.updJtag {f : Jtag → Jtag} (h : y.Canon) : (y.updJtag f).Canon := .part h

theorem Held.testDoms {on : Bool} (h : y.Canon) : (y.testDoms on).Canon := .updJtag (.each (fun _ _ k => .setDom k) h)

theorem Held.testEnd_ (h : y.Canon) : y.testEnd_.Canon := .ite (.part (.updJtag (.testDoms h))) h

theorem Held.hostUp (h : y.Canon) : y.hostUp.Canon := .ite (.tlqDrain (.setDom (.setDom h))) h

theorem Held.perstOff (h : y.Canon) : y.perstOff.Canon :=
  .ite (.part (.updJtag (.testEnd_ h))) (.hostUp (.part (.updMari (.part (.updJtag (.testEnd_ h))))))

theorem Held.windowReady (h : y.Canon) : y.windowReady.Canon := .ite (.enterLoading h) h

theorem Held.ldqCopy {e : List Word} {rd : ReadRes} (h : y.Canon) : (y.ldqCopy e rd).Canon := by
  fun_cases Sys.ldqCopy e rd y
  · exact .ldqDone h
  · exact .ldqDone (.markSram (.setSramL h))
  · exact .ldqDone (.setSramL (.part h))

theorem Held.regsFresh {d : Nat} (h : y.Canon) : (y.regsFresh d).Canon := .ite (.resetPages h) (.ite (.resetPages (.portRegs h)) h)

theorem Held.coreOn {c : Nat} {fromOff : Bool} (h : y.Canon) : (y.coreOn c fromOff).Canon := .routeAll (.updCore h)

theorem Held.workOn (h : y.Canon) : y.workOn.Canon :=
  .each (fun _ _ k => .coreOn (.setDom k)) (.each (fun _ _ k => .phyExit (.regsFresh (.regsFresh (.setDom (.setDom k))))) h)

theorem Held.placeSects {b : Nat → Byte} (h : y.Canon) : (y.placeSects b).Canon := .each (fun _ _ k => .setSramL k) (.zeroSram h)

theorem Held.accept (h : y.Canon) : y.accept.Canon := .workOn (.placeSects (.ldrPost (.updLdr h)))

theorem Held.verified {ms : Nat} {sramErr : Bool} (h : y.Canon) : (y.verified ms sramErr).Canon :=
  .ite (.accept (.updLdr h)) (.ldrFail (.updLdr h))

theorem Held.bootPorts {n : Nat} (h : y.Canon) : (y.bootPorts n).Canon := .each (fun _ _ k => .ite k (.powerOnReq k)) h

theorem Held.managerReady {ms : Nat} (h : y.Canon) : (y.managerReady ms).Canon :=
  .each (fun _ _ k => .bootPorts k) (.updMari (.mbxReset (.ldrMsg (.updLdr h))))

theorem Held.drainEnd_ {d : Nat} (h : y.Canon) : (y.drainEnd_ d).Canon := by
  fun_cases Sys.drainEnd_ d y
  · exact .updDom h
  · exact h
  · exact h

theorem Held.coreBack {c : Nat} (h : y.Canon) : (y.coreBack c).Canon := .routeAll (.updCore h)

theorem Held.replayPort {p : Nat} (h : y.Canon) : (y.replayPort p).Canon := by
  fun_cases Sys.replayPort p y
  · exact .updPort (.ite (.remoteWake (.updPort (.ite (.portEvent (.ite (.portEvent (.updPort h) (fun _ k => .hardTrip k)) h) (fun _ k
      => .portOff k)) (.ite (.portEvent (.updPort h) (fun _ k => .hardTrip k)) h)))) (.ite (.portEvent (.ite (.portEvent (.updPort h)
      (fun _ k => .hardTrip k)) h) (fun _ k => .portOff k)) (.ite (.portEvent (.updPort h) (fun _ k => .hardTrip k)) h)))
  · exact .portEvent (.updPort (.ite (.remoteWake (.updPort (.ite (.portEvent (.ite (.portEvent (.updPort h) (fun _ k => .hardTrip k))
      h) (fun _ k => .portOff k)) (.ite (.portEvent (.updPort h) (fun _ k => .hardTrip k)) h)))) (.ite (.portEvent (.ite (.portEvent
      (.updPort h) (fun _ k => .hardTrip k)) h) (fun _ k => .portOff k)) (.ite (.portEvent (.updPort h) (fun _ k => .hardTrip k)) h))))
      (fun _ k => .portDisconnect k)
  · exact .portConnect (.updPort (.ite (.remoteWake (.updPort (.ite (.portEvent (.ite (.portEvent (.updPort h) (fun _ k => .hardTrip
      k)) h) (fun _ k => .portOff k)) (.ite (.portEvent (.updPort h) (fun _ k => .hardTrip k)) h)))) (.ite (.portEvent (.ite
      (.portEvent (.updPort h) (fun _ k => .hardTrip k)) h) (fun _ k => .portOff k)) (.ite (.portEvent (.updPort h) (fun _ k =>
      .hardTrip k)) h))))
  · exact .portConnect (.updPort (.ite (.remoteWake (.updPort (.ite (.portEvent (.ite (.portEvent (.updPort h) (fun _ k => .hardTrip
      k)) h) (fun _ k => .portOff k)) (.ite (.portEvent (.updPort h) (fun _ k => .hardTrip k)) h)))) (.ite (.portEvent (.ite
      (.portEvent (.updPort h) (fun _ k => .hardTrip k)) h) (fun _ k => .portOff k)) (.ite (.portEvent (.updPort h) (fun _ k =>
      .hardTrip k)) h))))
  · exact .portConnect (.updPort (.ite (.remoteWake (.updPort (.ite (.portEvent (.ite (.portEvent (.updPort h) (fun _ k => .hardTrip
      k)) h) (fun _ k => .portOff k)) (.ite (.portEvent (.updPort h) (fun _ k => .hardTrip k)) h)))) (.ite (.portEvent (.ite
      (.portEvent (.updPort h) (fun _ k => .hardTrip k)) h) (fun _ k => .portOff k)) (.ite (.portEvent (.updPort h) (fun _ k =>
      .hardTrip k)) h))))
  · exact .ite (.portEvent (.ite (.portEvent (.updPort h) (fun _ k => .hardTrip k)) h) (fun _ k => .portOff k)) (.ite (.portEvent
      (.updPort h) (fun _ k => .hardTrip k)) h)

theorem Held.replayRegion {n : Nat} (h : y.Canon) : (y.replayRegion n).Canon := .each (fun _ _ k => .replayPort k) h

theorem Held.applyTarget {d : Nat} (h : y.Canon) : (y.applyTarget d).Canon := by
  fun_cases Sys.applyTarget d y
  · exact .domGo (.updDom h)
  · exact h

theorem Held.entryAbort {d : Nat} {t : DomSt} {r : Refuse} (h : y.Canon) : (y.entryAbort d t r).Canon :=
  .applyTarget (.ite (.replayRegion (.ite (.coreBack (.domRefused (.updDom h))) (.domRefused (.updDom h)))) (.ite (.coreBack
    (.domRefused (.updDom h))) (.domRefused (.updDom h))))

theorem Held.drainLate {d : Nat} (h : y.Canon) : (y.drainLate d).Canon := by
  fun_cases Sys.drainLate d y
  · exact h
  · exact .entryAbort (.entryAbort h)
  · exact .entryAbort h
  · exact .entryAbort h
  · exact h

theorem Held.coreSleep {c : Nat} (h : y.Canon) : (y.coreSleep c).Canon := .updCore h

theorem Held.domSettle {d : Nat} (h : y.Canon) : (y.domSettle d).Canon :=
  .ite (.wakeDom (.ite (.updDom (.updDom h)) (.updDom h))) (.applyTarget (.updDom h))

theorem Held.parentGoes {c : Nat} (h : y.Canon) : (y.parentGoes c).Canon := by
  fun_cases Sys.parentGoes c y
  · exact .quiesce h
  · exact h
  · exact h
  · exact h

theorem Held.enterState {d : Nat} {t : DomSt} (h : y.Canon) : (y.enterState d t).Canon :=
  .cicPulse (.domSettle (.parentGoes (.ite (.routeAll (.updDom (.ite (.domLost h) (.ite (.coreSleep h) h)))) (.updDom (.ite (.domLost
    h) (.ite (.coreSleep h) h))))))

theorem Held.takeLatches {d : Nat} (h : y.Canon) : (y.takeLatches d).Canon := .routeAll (.each (fun _ _ k => .updSrc k) h)

theorem Held.releaseHost (h : y.Canon) : y.releaseHost.Canon := .each (fun _ _ k => (by
  split
  · exact .msix k
  · exact .emit k)) (.part h)

theorem Held.regionBack {n : Nat} (h : y.Canon) : (y.regionBack n).Canon := .bootPorts (.part h)

theorem Held.unitAsk {u : MUnit} (h : y.Canon) : (y.unitAsk u).Canon := .updMari h

theorem Held.calMark {n : Nat} (h : y.Canon) : (y.calMark n).Canon := .updMari h

theorem Held.calPass {n : Nat} (h : y.Canon) : (y.calPass n).Canon :=
  .ite h (.each (fun _ _ k => .updMari (.ite (.unitAsk k) k)) (.calMark h))

theorem Held.domBack {d : Nat} {fromOff : Bool} (h : y.Canon) : (y.domBack d fromOff).Canon :=
  .ite (.tlqDrain (.meqFlush (.releaseMsgs (.releaseHost (.takeLatches h))))) (.ite (.routeAll (.takeLatches h)) (.ite (.coreOn
    (.takeLatches h)) (.ite (.hpwrKick (.vbusKick (.ite (.bootPorts (.takeLatches h)) (.replayRegion (.takeLatches h))))) (.ite
      (.regionBack (.takeLatches h)) (.replayRegion (.ite (.takeLatches h) (.calPass (.takeLatches h))))))))

theorem Held.raiseChildren {d : Nat} (h : y.Canon) : (y.raiseChildren d).Canon := .each (fun _ _ k => .ite (.updDom k) k) h

theorem Held.leaveState {d : Nat} (h : y.Canon) : (y.leaveState d).Canon :=
  .cicPulse (.applyTarget (.domBack (.raiseChildren (.ite (.regsFresh (.updDom h)) (.updDom h)))))

theorem Held.domEnd {d : Nat} (h : y.Canon) : (y.domEnd d).Canon := by
  fun_cases Sys.domEnd d y
  · exact .enterState h
  · exact h
  · exact .leaveState h
  · exact h

theorem Held.wakeEdge {w : WakeSrc} (h : y.Canon) : (y.wakeEdge w).Canon := by
  fun_cases Sys.wakeEdge w y
  · refine .latchSet ?_
    cases w with
    | cicEdge src => exact .updSrc h
    | _ => exact h
  · exact h

theorem Held.d3hot (h : y.Canon) : y.d3hot.Canon := by
  fun_cases Sys.d3hot y
  · exact .quiesce (.part h)
  · exact .part h
  · exact .updDom (.part h)

theorem Held.d0 (h : y.Canon) : y.d0.Canon := by
  fun_cases Sys.d0 y
  · exact .updDom (.part h)
  · exact .part h
  · exact .updDom (.part h)

theorem Held.railGood (h : y.Canon) : y.railGood.Canon := .ite (.testDoms (.part h)) (.hostUp (.part h))

theorem Held.railLoss (h : y.Canon) : y.railLoss.Canon :=
  .ite (.testDoms (.part h)) (.ite (.part (.recordErr (.ldrReset (.allOff (.part h))))) (.part h))

theorem Held.unitStart (h : y.Canon) : y.unitStart.Canon := by
  fun_cases Sys.unitStart y
  · exact h
  · exact .updMari h
  · exact h

theorem Held.sparesLow {was : Nat} (h : y.Canon) : (y.sparesLow was).Canon := .ite (.nvWear (.ite (.nvWear h) h)) (.ite (.nvWear h) h)

theorem Held.migrated {j bad : Nat} (h : y.Canon) : (y.migrated j bad).Canon :=
  .ite (.sparesLow (.nvWear (.updMari (.updNv (.each (fun _ _ k => .recordErr k) (.updNv h)))))) (.nvExhausted (.sparesLow (.each (fun
    _ _ k => .recordErr k) (.updNv h))))

theorem Held.unitDone {u : MUnit} (h : y.Canon) : (y.unitDone u).Canon := .updMari h

theorem Held.wearEnd {j bad : Nat} (h : y.Canon) : (y.wearEnd j bad).Canon := .ite (.migrated (.unitDone h)) h

theorem Held.telDue (h : y.Canon) : y.telDue.Canon :=
  .ite (.updMari (.part h)) (.unitAsk (.ite (.updMari (.updMari (.part h))) (.updMari (.part h))))

theorem Held.thermalTrip (h : y.Canon) : y.thermalTrip.Canon := .updMari (.recordErr (.part (.part (.allOff h))))

theorem Held.tripSense {samples : List Nat} (h : y.Canon) : (y.tripSense samples).Canon := .ite (.thermalTrip (.updMari h)) (.updMari h)

theorem Held.tlqDrop (h : y.Canon) : y.tlqDrop.Canon := .updMari (.recordErr (.incFld h))

theorem Held.tlqPut {r : TlRec} (h : y.Canon) : (y.tlqPut r).Canon :=
  .ite (.tlqGo (.updMari (.updMari h))) (.ite (.tlqDrop (.updMari (.updMari h))) (.tlqDrop (.updMari h)))

theorem Held.judge {m e eIn eOut level : Nat} {up : Bool} {thr hyst : ℤ} {due v : Nat} (h : y.Canon) :
    (y.judge m e eIn eOut level up thr hyst due v).Canon := .ite h (.ite (.ite (.part (.cicPulse (.tlqPut (.updMari h)))) (.cicPulse
      (.tlqPut (.updMari h)))) (.meqEvent (.ite (.part (.cicPulse (.tlqPut (.updMari h)))) (.cicPulse (.tlqPut (.updMari h))))))

theorem Held.monSample {due : Nat} {lim crit : List Word} {ctl : Word} {m v : Nat} (h : y.Canon) :
    (y.monSample due lim crit ctl m v).Canon := .ite (.updMari h) (.ite (.judge (.judge (.judge (.updMari h)))) (.judge (.judge
      (.updMari h))))

theorem Held.winClose {due : Nat} (h : y.Canon) : (y.winClose due).Canon := .updMari (.tlqPut (.tlqPut (.tlqPut h)))

theorem Held.calDelta {n : Nat} (h : y.Canon) : (y.calDelta n).Canon := .ite (.calPass h) h

theorem Held.telTake {due : Nat} {lim crit : List Word} {ctl : Word} {samples : List Nat} (h : y.Canon) :
    (y.telTake due lim crit ctl samples).Canon := .each (fun _ _ k => .calDelta k) (.ite (.ite (.winClose (.each (fun _ _ k =>
      .monSample k) (.updMari (.unitDone h)))) (.each (fun _ _ k => .monSample k) (.updMari (.unitDone h)))) (.msix (.ite (.winClose
        (.each (fun _ _ k => .monSample k) (.updMari (.unitDone h)))) (.each (fun _ _ k => .monSample k) (.updMari (.unitDone h))))))

theorem Held.telEnd {samples : List Nat} (h : y.Canon) : (y.telEnd samples).Canon := by
  fun_cases Sys.telEnd samples y
  · exact .tripSense h
  · exact .tripSense (.telTake h)
  · exact h

theorem Held.scrubDue {mem : Nat} (h : y.Canon) : (y.scrubDue mem).Canon := .ite h (.updMari (.unitAsk h))

theorem Held.telCount {f : TelCnt → TelCnt} (h : y.Canon) : (y.telCount f).Canon := .updMari h

theorem Held.passEnd {mem : Nat} (h : y.Canon) : (y.passEnd mem).Canon := .updMari h

theorem Held.mapItems {f : Item → Item} (h : y.Canon) : (y.mapItems f).Canon := .eng h

theorem Held.slotFault {n : Nat} (h : y.Canon) : (y.slotFault n).Canon :=
  .ite h (.ite (.portDisable (.detachPower (.rootClear (.dropTree h)))) (.hubPortDisable (.dropTree h)))

theorem Held.lineFault {line k : Nat} (h : y.Canon) : (y.lineFault line k).Canon :=
  .ite (.topFault (.mapItems (.each (fun _ _ k => .markSram k) h))) (.ite (.slotFault (.mapItems (.each (fun _ _ k => .markSram k) h)))
    (.mapItems (.each (fun _ _ k => .markSram k) h)))

theorem Held.scrubEnd {mem c k : Nat} (h : y.Canon) : (y.scrubEnd mem c k).Canon := by
  fun_cases Sys.scrubEnd mem c k y
  · exact h
  · exact .each (fun _ _ k => .recordErr k) (.ite (.passEnd (.setPg (.telCount (.unitDone h)))) (.setPg (.telCount (.unitDone h))))
  · exact .lineFault (.updMari (.each (fun _ _ k => .recordErr k) (.ite (.passEnd (.setPg (.telCount (.unitDone h)))) (.setPg
      (.telCount (.unitDone h))))))
  · exact .uncorr (.updMari (.each (fun _ _ k => .recordErr k) (.ite (.passEnd (.setPg (.telCount (.unitDone h)))) (.setPg (.telCount
      (.unitDone h))))))

theorem Held.unitWake {d : Nat} {en : Bool} (h : y.Canon) : (y.unitWake d en).Canon := .ite (.latchSet h) h

theorem Held.scrubPeriod {mem : Nat} (h : y.Canon) : (y.scrubPeriod mem).Canon :=
  .ite (.unitWake h) (.ite (.updMari (.unitWake h)) (.updMari (.recordErr (.unitWake h))))

theorem Held.calPeriod {n : Nat} (h : y.Canon) : (y.calPeriod n).Canon := .calPass (.unitWake h)

theorem Held.calEnd {p : Nat} {atEnd : Bool} (h : y.Canon) : (y.calEnd p atEnd).Canon :=
  .ite (.ite (.unitAsk (.ite (.recordErr (.updMari (.incFld (.telCount (.unitDone h))))) (.updMari (.incFld (.telCount (.unitDone
    h)))))) (.ite (.recordErr (.updMari (.incFld (.telCount (.unitDone h))))) (.updMari (.incFld (.telCount (.unitDone h)))))) h

theorem Held.calDefer {p : Nat} (h : y.Canon) : (y.calDefer p).Canon := .ite (.incFld (.telCount (.updMari h))) h

theorem Held.fullCal {n : Nat} (h : y.Canon) : (y.fullCal n).Canon := .ite (.calMark (.updMari h)) h

theorem Held.smbCount (h : y.Canon) : y.smbCount.Canon := .incFld h

theorem Held.smbPec {pec : Option Bool} (h : y.Canon) : (y.smbPec pec).2.Canon := by
  fun_cases Sys.smbPec pec y
  · exact h
  · exact .smbCount h
  · exact h

theorem Held.smbPtr {w : Option Word} {pec : Option Bool} (h : y.Canon) : (y.smbPtr w pec).Canon := by
  fun_cases Sys.smbPtr w pec y
  · exact .smbDone (.emit h)
  · exact .emit h
  · exact .smbDone (.ite (.part (.smbPec h)) (.smbPec h))

theorem Held.smbData {w : Option Word} {pec : Option Bool} (h : y.Canon) : (y.smbData w pec).Canon := by
  fun_cases Sys.smbData w pec y
  · exact .smbGo (.part h)
  · exact .smbDone (.ite (.smbStep (.doRegWrite (.smbPec h))) (.smbPec h))

theorem Held.smbBurst (h : y.Canon) : y.smbBurst.Canon := .smbGo (.part h)

theorem Held.smbSummary (h : y.Canon) : y.smbSummary.Canon := .smbDone (.part (.emit h))

theorem Held.alertRead (h : y.Canon) : y.alertRead.Canon := .smbDone (.emit (.part h))

theorem Held.flr (h : y.Canon) : y.flr.Canon :=
  .ite h (.enterLoading (.ldrReset (.incFld (.resetIsland (.setDom (.setDom (.each (fun _ _ k => .setDom k) (.cfgReset (.wipe h)))))))))

theorem Held.testBegin (h : y.Canon) : y.testBegin.Canon := .testDoms (.updJtag (.part h))

theorem Held.jtagTest {i : JIns} (h : y.Canon) : (y.jtagTest i).Canon := .ite (.testBegin (.updJtag h)) (.updJtag h)

theorem Held.tdo {bits : List Bool} (h : y.Canon) : (y.tdo bits).Canon := .part h

theorem Held.jtagOther {i : JIns} (h : y.Canon) : (y.jtagOther i).Canon := .updJtag (.testEnd_ h)

theorem Held.fifoFault {p a : Nat} (h : y.Canon) : (y.fifoFault p a).Canon := .ite (.updFifo h) (.updFifo h)

theorem Held.sramFault {a : Nat} (h : y.Canon) : (y.sramFault a).Canon :=
  .ite (.slotFault (.mapItems (.markSram h))) (.mapItems (.markSram h))

theorem Held.nvLost {j : Nat} (h : y.Canon) : (y.nvLost j).Canon := .part h

theorem Held.cellFault {g : Pg} {e : CellErr} {detail addr : Nat} (h : y.Canon) : (y.cellFault g e detail addr).Canon := by
  fun_cases Sys.cellFault g e detail addr y
  · exact h
  · exact .fifoFault h
  · exact .recordErr h
  · exact .sramFault h
  · exact .uncorr h
  · exact .nvLost (.recordErr h)
  · exact .uncorr h

theorem Held.cellHit {g : Pg} {e : CellErr} {detail addr : Nat} (h : y.Canon) : (y.cellHit g e detail addr).Canon :=
  .ite (.nvEffect (.cellFault h)) (.cellFault h)

theorem Held.poisonRx (h : y.Canon) : y.poisonRx.Canon := .aer (.recordErr h)

theorem Held.pcieErr {e : PcieErr} (h : y.Canon) : (y.pcieErr e).Canon := by
  fun_cases Sys.pcieErr e y
  · exact .aer h
  · exact .aer h
  · exact .aer h
  · exact .aer h
  · exact .aer h
  · exact .aer h
  · exact .poisonRx h
  · exact .aer h

/-! ## Commands and steps -/

theorem Held.liveSys {s u : State} {f : Sys → Sys} (hf : ∀ y, y.Canon → (f y).Canon) (h : s.sys.Canon)
    (he : liveSys s f = .next u) : u.sys.Canon := by
  obtain ⟨-, -, -, hs | rfl⟩ := liveSys_parts he
  · rw [hs]
    exact hf _ h
  · exact h

theorem Held.liveWin {s u : State} {c : Instr} {org : Origin} {f : Sys → Sys} (hf : ∀ y, y.Canon → (f y).Canon) (h : s.sys.Canon)
    (he : liveWin c org s f = .next u) : u.sys.Canon :=
  .liveSys (fun y k => .ite (.part k) (hf y k)) h he

/-- Every command keeps the form. -/
theorem Held.exec {s u : State} {c : Instr} (h : s.sys.Canon) (he : exec c s = .next u) : u.sys.Canon := by
  cases c with
  | registerWrite => exact .liveWin (fun _ k => .doRegWrite k) h he
  | accessError => exact .liveWin (fun _ k => .doAccErr k) h he
  | unsupportedRequest => exact .liveWin (fun _ k => .doUr k) h he
  | nvWrite => exact .liveWin (fun _ k => .doNvWrite k) h he
  | nvWriteAccept =>
    unfold Machine.exec execNvWriteAccept at he
    exact .liveSys (fun _ k => .smbGo (.ite (.waitRun (.nvTakeHeld k)) (.nvTakeHeld k))) h he
  | nvWriteDurable =>
    unfold Machine.exec execNvWriteDurable at he
    exact .liveSys (fun _ k => .ite k (.carry (.smbGo (.nvDurable k)))) h he
  | stagedWrite => exact .liveWin (fun _ k => .doStaged k) h he
  | discard => exact .liveWin (fun _ k => .doHeader k) h he
  | tenCommit => exact .liveWin (fun _ k => .doTenCommit k) h he
  | discardAll => exact .liveWin (fun _ k => .doDiscardAll k) h he
  | commitPoint =>
    unfold Machine.exec execCommitPoint at he
    exact .liveSys (fun _ k => .ite (.commitPoint (.toCommit k)) k) h he
  | errorInject => exact .liveWin (fun _ k => .doHeader k) h he
  | imageWrite => exact .liveWin (fun _ k => .doImage k) h he
  | paceEvaluation =>
    unfold Machine.exec execPaceEvaluation at he
    exact .liveSys (fun _ k => .ite (.paceEval (.part k)) k) h he
  | paceThrWrite => exact .liveWin (fun _ k => .doPaceThrWrite k) h he
  | frameStart =>
    unfold Machine.exec execFrameStart at he
    exact .liveSys (fun _ k => .ite (.strikeFaults (.frameBegin k)) (.carry (.strikeFaults (.frameBegin k)))) h he
  | transactionEnd =>
    unfold Machine.exec execTransactionEnd at he
    exact .liveSys (fun _ k => .ite (.ite (.carry (.transEnd k)) (.transEnd k)) k) h he
  | inPacket =>
    unfold Machine.exec execInPacket at he
    exact .liveSys (fun _ k => .fifCarry (.inPkt k)) h he
  | busBabble =>
    unfold Machine.exec execBusBabble at he
    exact .liveSys (fun _ k => .ite (.portEvent k (fun _ l => .treeFault l)) k) h he
  | dbWake => exact .liveWin (fun _ k => .doDbWake k) h he
  | dbEnable => exact .liveWin (fun _ k => .doDbEnable k) h he
  | dbDisable => exact .liveWin (fun _ k => .doDbDisable k) h he
  | dbClearHalt => exact .liveWin (fun _ k => .doDbClearHalt k) h he
  | dbCmp => exact .liveWin (fun _ k => .doDbCmp k) h he
  | dbEvt => exact .liveWin (fun _ k => .doDbEvt k) h he
  | rngViewDisable => exact .liveWin (fun _ k => .doViewDisable k) h he
  | descriptorFetch =>
    unfold Machine.exec execDescriptorFetch at he
    exact .liveSys (fun _ k => .ite (.carry (.descRead k)) k) h he
  | contextFetch =>
    unfold Machine.exec execContextFetch at he
    exact .liveSys (fun _ k => .ite (.ctxRes k) k) h he
  | dispatch =>
    unfold Machine.exec execDispatch at he
    exact .liveSys (fun _ k => .ite (.carry (.dispatchX k)) k) h he
  | transferTimeout =>
    unfold Machine.exec execTransferTimeout at he
    refine .liveSys (fun _ k => ?_) h he
    split
    · exact .ite (.cutX k) k
    · exact k
  | flushingReadDone =>
    unfold Machine.exec execFlushingReadDone at he
    exact .liveSys (fun _ k => .ite k (.flushDone k)) h he
  | modIntervalExpiry =>
    unfold Machine.exec execModIntervalExpiry at he
    exact .liveSys (fun _ k => .ite (.ite (.ringMsg (.updRing k)) (.updRing k)) k) h he
  | entryScanRead =>
    unfold Machine.exec execEntryScanRead at he
    refine .liveSys (fun _ k => ?_) h he
    dsimp only
    split
    · exact k
    · split
      · next he => exact .snd (.hostAnswer (.fetchPump (.scanRead k))) he
      · next he =>
        have l := Held.snd (.hostAnswer (.fetchPump (.scanRead k))) he
        exact .ite (.scanRead (.flushRecs (.updRing (.instSettle l)))) (.instSettle l)
      · next he =>
        have l := Held.snd (.hostAnswer (.fetchPump (.scanRead k))) he
        exact .ite (.ringErr (.updRing (.instSettle l))) (.instSettle l)
  | eventDelivery =>
    unfold Machine.exec execEventDelivery at he
    exact .liveSys (fun _ k => .ite (.deliverEvent k) k) h he
  | spqWalk =>
    unfold Machine.exec execSpqWalk at he
    exact .liveSys (fun _ k => .ite (.spqWalk k) k) h he
  | dmaBurstStart =>
    unfold Machine.exec execDmaBurstStart at he
    exact .liveSys (fun _ k => .ite (.burstStart k) k) h he
  | dmaReadCompletion =>
    unfold Machine.exec execDmaReadCompletion at he
    refine .liveSys (fun _ k => .ite ?_ k) h he
    split
    · exact .readBytes k
    · exact .readBytes k
    · exact .readFails k
    · exact .readFails k
    · exact .readFails k
    · exact .readFails k
  | dmaBurstEnd =>
    unfold Machine.exec execDmaBurstEnd at he
    exact .liveSys (fun _ k => .ite (.burstEnd k) k) h he
  | dmaAgeing =>
    unfold Machine.exec execDmaAgeing at he
    exact .liveSys (fun _ k => .ite (.arb (.updChan k)) k) h he
  | channelRestart => exact .liveWin (fun _ k => .doChanRestart k) h he
  | firmwareDmaStart =>
    unfold Machine.exec execFirmwareDmaStart at he
    exact .liveSys (fun _ k => .viaPage (fun _ l => .fwStart l) k) h he
  | dcqCiWrite =>
    unfold Machine.exec execDcqCiWrite at he
    exact .liveSys (fun _ k => .viaPage (fun _ l => .dcqAdvance l) k) h he
  | pasidEnableChange =>
    unfold Machine.exec execPasidEnableChange at he
    refine .liveSys (fun _ k => .ite (.settleInsts (.arb (.fetchPump (.recSweep (.releaseMsgs (.releasePasid ?_)))))) ?_) h he
    · exact .part k
    · exact .part k
  | powerOn => exact .liveWin (fun _ k => .doPortCmd k) h he
  | powerOff => exact .liveWin (fun _ k => .doPortCmd k) h he
  | resetCmd => exact .liveWin (fun _ k => .doPortCmd k) h he
  | disableCmd => exact .liveWin (fun _ k => .doPortCmd k) h he
  | vbusStaggerStep =>
    unfold Machine.exec execVbusStaggerStep at he
    exact .liveSys (fun _ k => .ite (.vbusStep k) k) h he
  | hpwrStaggerStep =>
    unfold Machine.exec execHpwrStaggerStep at he
    exact .liveSys (fun _ k => .hpwrStep k) h he
  | powerGoodWaitEnd =>
    unfold Machine.exec execPowerGoodWaitEnd at he
    exact .liveSys (fun _ k => .ite (.updPort k) k) h he
  | connect =>
    unfold Machine.exec execConnect at he
    exact .liveSys (fun _ k => .ite (.portConnect k) (.ite k (.lineDoze k))) h he
  | debounceEnd =>
    unfold Machine.exec execDebounceEnd at he
    exact .liveSys (fun _ k => .ite (.portEvent k (fun _ l => .debounced l)) k) h he
  | disconnect =>
    unfold Machine.exec execDisconnect at he
    exact .liveSys (fun _ k => .ite (.portEvent k (fun _ l => .portDisconnect l)) (.ite (.lineDoze k) k)) h he
  | enumStart =>
    unfold Machine.exec execEnumStart at he
    refine .liveSys (fun _ k => ?_) h he
    split
    · exact .placeTo k
    · exact k
  | resetSignalEnd =>
    unfold Machine.exec execResetSignalEnd at he
    exact .liveSys (fun _ k => .ite (.resetSignal k) k) h he
  | resetRecoveryEnd =>
    unfold Machine.exec execResetRecoveryEnd at he
    exact .liveSys (fun _ k => .ite (.portEvent k (fun _ l => .resetRecovery l)) k) h he
  | slotGrant =>
    unfold Machine.exec execSlotGrant at he
    exact .liveSys (fun _ k => .slotGrant k) h he
  | enumRequestComplete =>
    unfold Machine.exec execEnumRequestComplete at he
    exact .liveSys (fun _ k => .ite (.ctlReply (.reqOver k)) k) h he
  | enumRequestTimeout =>
    unfold Machine.exec execEnumRequestTimeout at he
    exact .liveSys (fun _ k => .ite k (.ite (.ite k (.hubReqEnd (.reqOver k))) (.ite (.ctlReply (.reqOver k)) k))) h he
  | setAddressRecoveryEnd =>
    unfold Machine.exec execSetAddressRecoveryEnd at he
    exact .liveSys (fun _ k => .addrRecovered k) h he
  | portMeasurement =>
    unfold Machine.exec execPortMeasurement at he
    exact .liveSys (fun _ k => .ite (.carry (.portEvent k (fun _ l => .measure l))) k) h he
  | ocHardTrip =>
    unfold Machine.exec execOcHardTrip at he
    exact .liveSys (fun _ k => .ite (.portEvent k (fun _ l => .hardTrip l)) (.ite (.latchSet (.updPort k)) k)) h he
  | ocRetryExpiry =>
    unfold Machine.exec execOcRetryExpiry at he
    refine .liveSys (fun y k => .ite (.portEvent k fun _ l => .ocRetry l) ?_) h he
    split
    · exact .hubRetry k
    · exact k
  | ocRetryClear =>
    unfold Machine.exec execOcRetryClear at he
    exact .liveSys (fun _ k => .ite (.updPort k) k) h he
  | testModeSelect => exact .liveWin (fun _ k => .doPortTest k) h he
  | testModeClear => exact .liveWin (fun _ k => .doPortTest k) h he
  | testClearEnd =>
    unfold Machine.exec execTestClearEnd at he
    exact .liveSys (fun _ k => .portEvent k (fun _ l => .testEnd l)) h he
  | hubRequestComplete =>
    unfold Machine.exec execHubRequestComplete at he
    refine .liveSys (fun _ k => ?_) h he
    dsimp only
    split
    · exact .ite k (.hubReqEnd (.reqOver k))
    · exact k
  | hubPowerGoodEnd =>
    unfold Machine.exec execHubPowerGoodEnd at he
    exact .liveSys (fun _ k => .hubReady k) h he
  | hubStatusChange =>
    unfold Machine.exec execHubStatusChange at he
    exact .liveSys (fun _ k => .hubChange k) h he
  | hubPortDebounceEnd =>
    unfold Machine.exec execHubPortDebounceEnd at he
    exact .liveSys (fun _ k => .hubDebounced k) h he
  | hubResetTimeout =>
    unfold Machine.exec execHubResetTimeout at he
    exact .liveSys (fun _ k => .hubResetAt (fun _ _ l => .requestFail l) k) h he
  | hubResetRecoveryEnd =>
    unfold Machine.exec execHubResetRecoveryEnd at he
    exact .liveSys (fun _ k => .hubResetAt (fun _ _ l => .afterReset l) k) h he
  | portSuspendReq => exact .liveWin (fun _ k => .doPortSusp k) h he
  | portResumeReq => exact .liveWin (fun _ k => .doPortSusp k) h he
  | suspendEntryEnd =>
    unfold Machine.exec execSuspendEntryEnd at he
    exact .liveSys (fun _ k => .suspendEntry k) h he
  | resumeSignalEnd =>
    unfold Machine.exec execResumeSignalEnd at he
    exact .liveSys (fun _ k => .ite (.resumeSignal k) k) h he
  | resumeRecoveryEnd =>
    unfold Machine.exec execResumeRecoveryEnd at he
    exact .liveSys (fun _ k => .ite (.recoveryEnd k) k) h he
  | hubResumeTimeout =>
    unfold Machine.exec execHubResumeTimeout at he
    exact .liveSys (fun _ k => .resumeLate k) h he
  | remoteWake =>
    unfold Machine.exec execRemoteWake at he
    exact .liveSys (fun _ k => .wakeSeen k) h he
  | scanKbdReport =>
    unfold Machine.exec execScanKbdReport at he
    exact .liveSys (fun _ k => .persItem (fun _ l => .scanKbd l) k) h he
  | scanPosReport =>
    unfold Machine.exec execScanPosReport at he
    exact .liveSys (fun _ k => .persItem (fun _ l => .scanPos l) k) h he
  | scanGapExpiry =>
    unfold Machine.exec execScanGapExpiry at he
    exact .liveSys (fun _ k => .persItem (fun _ l => .scanGap l) k) h he
  | scaleReport =>
    unfold Machine.exec execScaleReport at he
    exact .liveSys (fun _ k => .persItem (fun _ l => .scaleIn l) k) h he
  | scaleStabilityExpiry =>
    unfold Machine.exec execScaleStabilityExpiry at he
    exact .liveSys (fun _ k => .persItem (fun _ l => .scaleTimer l) k) h he
  | printerStatusBlock =>
    unfold Machine.exec execPrinterStatusBlock at he
    exact .liveSys (fun _ k => .persItem (fun _ l => .prnBlock l) k) h he
  | printerStatusPoll =>
    unfold Machine.exec execPrinterStatusPoll at he
    exact .liveSys (fun _ k => .persItem (fun _ l => .prnPollDue l) k) h he
  | printerOutNotice =>
    unfold Machine.exec execPrinterOutNotice at he
    exact .liveSys (fun _ k => .persItem (fun _ l => .prnOut l) k) h he
  | powerChangeNotice =>
    unfold Machine.exec execPowerChangeNotice at he
    exact .liveSys (fun _ k => .persItem (fun _ l => .prnPower l) k) h he
  | printerIdleExpiry =>
    unfold Machine.exec execPrinterIdleExpiry at he
    exact .liveSys (fun _ k => .persItem (fun _ l => .prnIdle l) k) h he
  | drawerSenseReport =>
    unfold Machine.exec execDrawerSenseReport at he
    exact .liveSys (fun _ k => .persItem (fun _ l => .senseReport l) k) h he
  | drawerSenseExpiry =>
    unfold Machine.exec execDrawerSenseExpiry at he
    exact .liveSys (fun _ k => .persItem (fun _ l => .senseExpiry l) k) h he
  | kick =>
    unfold Machine.exec execKick at he
    exact .liveSys (fun _ k => .persItem (fun _ l => .kickRec l) k) h he
  | kickGapExpiry =>
    unfold Machine.exec execKickGapExpiry at he
    exact .liveSys (fun _ k => .persItem (fun _ l => .kickGap l) k) h he
  | pulseExpiry =>
    unfold Machine.exec execPulseExpiry at he
    exact .liveSys (fun _ k => .persItem (fun _ l => .pulseEnd l) k) h he
  | openWaitExpiry =>
    unfold Machine.exec execOpenWaitExpiry at he
    exact .liveSys (fun _ k => .persItem (fun _ l => .openWaitEnd l) k) h he
  | clear =>
    unfold Machine.exec execClear at he
    exact .liveSys (fun _ k => .persItem (fun _ l => .dispCmd l) k) h he
  | text =>
    unfold Machine.exec execText at he
    exact .liveSys (fun _ k => .persItem (fun _ l => .dispCmd l) k) h he
  | bright =>
    unfold Machine.exec execBright at he
    exact .liveSys (fun _ k => .persItem (fun _ l => .dispCmd l) k) h he
  | keyboardReport =>
    unfold Machine.exec execKeyboardReport at he
    exact .liveSys (fun _ k => .persItem (fun _ l => .keyIn l) k) h he
  | personalityRequestComplete =>
    unfold Machine.exec execPersonalityRequestComplete at he
    exact .liveSys (fun _ k => .ite (.persReply (.reqOver k)) k) h he
  | mcqTake =>
    unfold Machine.exec execMcqTake at he
    exact .liveSys (fun _ k => .ite (.carry (.mcqTake k)) k) h he
  | hello =>
    unfold Machine.exec execHello at he
    exact .liveSys (fun _ k => .decRow (fun _ _ l => .cHello l) k) h he
  | createInstance =>
    unfold Machine.exec execCreateInstance at he
    exact .liveSys (fun _ k => .decRow (fun _ _ l => .cCreate l) k) h he
  | destroyInstance =>
    unfold Machine.exec execDestroyInstance at he
    exact .liveSys (fun _ k => .decRow (fun _ _ l => .cDestroy l) k) h he
  | resetInstance =>
    unfold Machine.exec execResetInstance at he
    exact .liveSys (fun _ k => .decRow (fun _ _ l => .cReset l) k) h he
  | vivelAgree =>
    unfold Machine.exec execVivelAgree at he
    exact .liveSys (fun _ k => .decRow (fun _ _ l => .cVivel l) k) h he
  | createRing =>
    unfold Machine.exec execCreateRing at he
    exact .liveSys (fun _ k => .decRow (fun _ _ l => .cRing l) k) h he
  | destroyRing =>
    unfold Machine.exec execDestroyRing at he
    exact .liveSys (fun _ k => .decRow (fun _ _ l => .cRingOff l) k) h he
  | assignDevice =>
    unfold Machine.exec execAssignDevice at he
    exact .liveSys (fun _ k => .decRow (fun _ _ l => .cAssign l) k) h he
  | unassignDevice =>
    unfold Machine.exec execUnassignDevice at he
    exact .liveSys (fun _ k => .decRow (fun _ _ l => .cUnassign l) k) h he
  | selectConfig =>
    unfold Machine.exec execSelectConfig at he
    exact .liveSys (fun _ k => .decRow (fun _ _ l => .cSelect l) k) h he
  | openEndpoint =>
    unfold Machine.exec execOpenEndpoint at he
    exact .liveSys (fun _ k => .decRow (fun _ _ l => .cOpen l) k) h he
  | closeEndpoint =>
    unfold Machine.exec execCloseEndpoint at he
    exact .liveSys (fun _ k => .decRow (fun _ _ l => .cClose l) k) h he
  | normalise =>
    unfold Machine.exec execNormalise at he
    exact .liveSys (fun _ k => .decRow (fun _ _ l => .cNormalise l) k) h he
  | unbind =>
    unfold Machine.exec execUnbind at he
    exact .liveSys (fun _ k => .decRow (fun _ _ l => .cUnbind l) k) h he
  | sealDevice =>
    unfold Machine.exec execSealDevice at he
    exact .liveSys (fun _ k => .decRow (fun _ _ l => .cSeal l) k) h he
  | loadParams =>
    unfold Machine.exec execLoadParams at he
    exact .liveSys (fun _ k => .decRow (fun _ _ l => .cParams l) k) h he
  | portCmd =>
    unfold Machine.exec execPortCmd at he
    exact .liveSys (fun _ k => .decRow (fun _ _ l => .cPort l) k) h he
  | suspend =>
    unfold Machine.exec execSuspend at he
    exact .liveSys (fun _ k => .decRow (fun _ _ l => .cSuspend l) k) h he
  | resume =>
    unfold Machine.exec execResume at he
    exact .liveSys (fun _ k => .decRow (fun _ _ l => .cResume l) k) h he
  | deviceReset =>
    unfold Machine.exec execDeviceReset at he
    exact .liveSys (fun _ k => .decRow (fun _ _ l => .cDevReset l) k) h he
  | bindQueue =>
    unfold Machine.exec execBindQueue at he
    exact .liveSys (fun _ k => .decRow (fun _ _ l => .cBind l) k) h he
  | commit =>
    unfold Machine.exec execCommit at he
    exact .liveSys (fun _ k => .decRow (fun _ _ l => .cCommit l) k) h he
  | meqCiWrite => exact .liveWin (fun _ k => .doMeqCi k) h he
  | mcqEnable => exact .liveWin (fun _ k => .doMcqEn k) h he
  | meqEnable => exact .liveWin (fun _ k => .doMeqEn k) h he
  | mgrRestart => exact .liveWin (fun _ k => .doMgrRestart k) h he
  | tmbPost => exact .liveWin (fun _ k => .doTmbPostC k) h he
  | tmbFree => exact .liveWin (fun _ k => .doTmbFree k) h he
  | tmbDnLockAcquire => exact .liveWin (fun _ k => .doDnLockAcquire k) h he
  | tmbDnLockRelease => exact .liveWin (fun _ k => .doDnLockRelease k) h he
  | vivelHello =>
    unfold Machine.exec execVivelHello at he
    exact .liveSys (fun _ k => .vivelHello k) h he
  | msgUnmask => exact .liveWin (fun _ k => .doMsgUnmask k) h he
  | msixUnmask => exact .liveWin (fun _ k => .doMsixUnmask k) h he
  | mbxPost => exact .liveWin (fun _ k => .doMbxPostC k) h he
  | mbxFree => exact .liveWin (fun _ k => .doMbxFree k) h he
  | mbxLockAcquire => exact .liveWin (fun _ k => .doMbxLock k) h he
  | mbxLockRelease => exact .liveWin (fun _ k => .doMbxUnlock k) h he
  | itemDispatch =>
    unfold Machine.exec execItemDispatch at he
    exact .liveSys (fun _ k => .ite (.itemGive k) k) h he
  | itemEnd =>
    unfold Machine.exec execItemEnd at he
    exact .liveSys (fun _ k => .ite (.itemDone (.incFld (.oddRecord k))) k) h he
  | watchdogExpiry =>
    unfold Machine.exec execWatchdogExpiry at he
    exact .liveSys (fun _ k => .ite (.watchdog k) k) h he
  | coreReset => exact .liveWin (fun _ k => .doCoreReset k) h he
  | coreReloadEnd =>
    unfold Machine.exec execCoreReloadEnd at he
    exact .liveSys (fun _ k => .ite (.reloadEnd k) k) h he
  | allStoppedExpiry =>
    unfold Machine.exec execAllStoppedExpiry at he
    exact .liveSys (fun _ k => .ite (.haltBlock (.recordErr (.recordErr k))) k) h he
  | delayTick =>
    unfold Machine.exec execDelayTick at he
    exact .liveSys (fun _ k => .ite (.delayTick (.ticksBelow (.part k))) k) h he
  | deviceContextFetch =>
    unfold Machine.exec execDeviceContextFetch at he
    exact .liveSys (fun _ k => .ite (.dcxUse k) k) h he
  | cicSourceAssert =>
    unfold Machine.exec execCicSourceAssert at he
    exact .liveSys (fun _ k => .ite k (.carry (.srcOutside k))) h he
  | cicClaim => exact .liveWin (fun _ k => .doCicClaim k) h he
  | cicFclaim => exact .liveWin (fun _ k => .doCicFclaim k) h he
  | cicComplete => exact .liveWin (fun _ k => .doCicComplete k) h he
  | cicFcomplete => exact .liveWin (fun _ k => .doCicFcomplete k) h he
  | cicSwi => exact .liveWin (fun _ k => .doCicSwi k) h he
  | cicPendClear => exact .liveWin (fun _ k => .doCicPend k) h he
  | powerOnResetEnd =>
    cases he
    exact .porEnd
  | vinFail =>
    cases he
    exact .vinFail
  | perstAssert =>
    unfold Machine.exec execPerstAssert at he
    exact .liveSys (fun _ k => .perstOn k) h he
  | perstDeassert =>
    unfold Machine.exec execPerstDeassert at he
    exact .liveSys (fun _ k => .perstOff k) h he
  | loaderWindowReady =>
    unfold Machine.exec execLoaderWindowReady at he
    exact .liveSys (fun _ k => .windowReady k) h he
  | ldrGo => exact .liveWin (fun _ k => .doLdrGo k) h he
  | ldqCopy =>
    unfold Machine.exec execLdqCopy at he
    refine .liveSys (fun _ k => .ite (.sramCarry (.ite (.ldqCopy k) ?_)) k) h he
    split
    · next he => exact .snd (.hostAnswer (.hostLong k)) he
    · next he => exact .ldqCopy (.snd (.hostAnswer (.hostLong k)) he)
  | ldqGo =>
    unfold Machine.exec execLdqGo at he
    exact .liveSys (fun _ k => .ite (.goAccept k) k) h he
  | verificationEnd =>
    unfold Machine.exec execVerificationEnd at he
    exact .liveSys (fun _ k => .ite (.verified k) k) h he
  | managerReady =>
    unfold Machine.exec execManagerReady at he
    exact .liveSys (fun _ k => .ite (.managerReady k) k) h he
  | fwFail =>
    unfold Machine.exec execFwFail at he
    exact .liveSys (fun _ k => .ite (.startFail k) k) h he
  | fwTimeout =>
    unfold Machine.exec execFwTimeout at he
    exact .liveSys (fun _ k => .ite (.startFail k) k) h he
  | domainRequest => exact .liveWin (fun _ k => .doDomReq k) h he
  | quiesceDrainEnd =>
    unfold Machine.exec execQuiesceDrainEnd at he
    exact .liveSys (fun _ k => .drainEnd_ k) h he
  | drainTimeout =>
    unfold Machine.exec execDrainTimeout at he
    exact .liveSys (fun _ k => .drainLate k) h he
  | domainTransitionEnd =>
    unfold Machine.exec execDomainTransitionEnd at he
    exact .liveSys (fun _ k => .domEnd k) h he
  | wakeLatch =>
    unfold Machine.exec execWakeLatch at he
    exact .liveSys (fun _ k => .wakeEdge k) h he
  | d3hotEntry =>
    unfold Machine.exec execD3hotEntry at he
    exact .liveSys (fun _ k => .ite k (.d3hot k)) h he
  | d0Entry =>
    unfold Machine.exec execD0Entry at he
    exact .liveSys (fun _ k => .ite k (.d0 k)) h he
  | railpgGood =>
    unfold Machine.exec execRailpgGood at he
    exact .liveSys (fun _ k => .railGood k) h he
  | railpgLoss =>
    unfold Machine.exec execRailpgLoss at he
    exact .liveSys (fun _ k => .railLoss k) h he
  | marigoldUnitStart =>
    unfold Machine.exec execMarigoldUnitStart at he
    exact .liveSys (fun _ k => .unitStart k) h he
  | wearMigrationEnd =>
    unfold Machine.exec execWearMigrationEnd at he
    exact .liveSys (fun _ k => .wearEnd k) h he
  | telDue =>
    unfold Machine.exec execTelDue at he
    exact .liveSys (fun _ k => .telDue k) h he
  | telUnitEnd =>
    unfold Machine.exec execTelUnitEnd at he
    exact .liveSys (fun _ k => .telEnd k) h he
  | tlqCiWrite => exact .liveWin (fun _ k => .doTlqCi k) h he
  | scrubLineDue =>
    unfold Machine.exec execScrubLineDue at he
    exact .liveSys (fun _ k => .scrubDue k) h he
  | scrubUnitEnd =>
    unfold Machine.exec execScrubUnitEnd at he
    exact .liveSys (fun _ k => .scrubEnd k) h he
  | scrubPeriodEnd =>
    unfold Machine.exec execScrubPeriodEnd at he
    exact .liveSys (fun _ k => .scrubPeriod k) h he
  | calPeriodExpiry =>
    unfold Machine.exec execCalPeriodExpiry at he
    exact .liveSys (fun _ k => .calPeriod k) h he
  | calStepEnd =>
    unfold Machine.exec execCalStepEnd at he
    exact .liveSys (fun _ k => .calEnd k) h he
  | calDeferExpiry =>
    unfold Machine.exec execCalDeferExpiry at he
    exact .liveSys (fun _ k => .calDefer k) h he
  | fullCalibrationEnd =>
    unfold Machine.exec execFullCalibrationEnd at he
    exact .liveSys (fun _ k => .fullCal k) h he
  | tbMfRead => exact .liveWin (fun _ k => .doTbMfRead k) h he
  | smbPtr =>
    unfold Machine.exec execSmbPtr at he
    exact .liveSys (fun _ k => .ite (.smbPtr k) k) h he
  | smbData =>
    unfold Machine.exec execSmbData at he
    exact .liveSys (fun _ k => .ite (.smbData k) k) h he
  | smbBurst =>
    unfold Machine.exec execSmbBurst at he
    exact .liveSys (fun _ k => .ite (.smbBurst k) k) h he
  | smbSummary =>
    unfold Machine.exec execSmbSummary at he
    exact .liveSys (fun _ k => .ite (.smbSummary k) k) h he
  | smbTimeout =>
    unfold Machine.exec execSmbTimeout at he
    exact .liveSys (fun _ k => .ite k (.smbCount (.part k))) h he
  | alertResponse =>
    unfold Machine.exec execAlertResponse at he
    exact .liveSys (fun _ k => .ite (.alertRead k) k) h he
  | functionReset =>
    unfold Machine.exec execFunctionReset at he
    exact .liveSys (fun _ k => .flr k) h he
  | regionReset => exact .liveWin (fun _ k => .doRegionReset k) h he
  | portUnitReset => exact .liveWin (fun _ k => .doPortUnit k) h he
  | extest =>
    unfold Machine.exec execExtest at he
    exact .liveSys (fun _ k => .ite (.tdo (.jtagTest k)) (.tdo (.jtagTest k))) h he
  | idcode =>
    unfold Machine.exec execIdcode at he
    exact .liveSys (fun _ k => .tdo (.jtagOther k)) h he
  | samplePreload =>
    unfold Machine.exec execSamplePreload at he
    exact .liveSys (fun _ k => .tdo (.updJtag (.jtagOther k))) h he
  | clamp =>
    unfold Machine.exec execClamp at he
    exact .liveSys (fun _ k => .tdo (.jtagTest k)) h he
  | highz =>
    unfold Machine.exec execHighz at he
    exact .liveSys (fun _ k => .tdo (.jtagTest k)) h he
  | bypass =>
    unfold Machine.exec execBypass at he
    exact .liveSys (fun _ k => .tdo (.updJtag (.jtagOther k))) h he
  | tapReset =>
    unfold Machine.exec execTapReset at he
    exact .liveSys (fun _ k => .jtagOther k) h he
  | cellFault =>
    unfold Machine.exec execCellFault at he
    refine .liveSys (fun _ k => ?_) h he
    split
    · exact .ite k (.cellHit k)
    · exact k
  | cicSourceRelease =>
    unfold Machine.exec execCicSourceRelease at he
    exact .liveSys (fun _ k => .ite k (.srcOutside k)) h he
  | pcieReceiveError =>
    unfold Machine.exec execPcieReceiveError at he
    exact .liveSys (fun _ k => .ite k (.carry (.pcieErr k))) h he
  | registerRead => exact .liveWin (fun _ k => .doRegRead k) h he

theorem Held.cicSample (h : y.Canon) : y.cicSample.Canon :=
  .ite h (.ite h (.routeAll (.each (fun _ _ k => .srcAccept k) (.each (fun _ _ k => .srcInput k) h))))

theorem Held.tick {s : State} (h : s.sys.Canon) : s.tick.sys.Canon := by
  unfold State.tick
  split
  · exact Held.cicSample (.part h)
  · exact h

end Sys2Proof.Machine.Sys

namespace Sys2Proof.Machine

/-- Settles O6: a step is a tick or a command, and each is made of operations that keep the form. -/
theorem storageStaysCanonical : Obligations.storage_stays_canonical := by
  unfold Obligations.storage_stays_canonical
  intro s t h he
  cases hq : s.pending with
  | nil =>
    cases (step_nil hq).symm.trans he
    exact Sys.Held.tick h
  | cons c r =>
    rw [step_cons hq] at he
    exact Sys.Held.exec (s := { s with pending := r }) h he

end Sys2Proof.Machine

/-! SUPPORT. Register accesses of the manager: the page directory, the write-one-to-clear error flags, and what a bad access leaves. -/

namespace Sys2Proof.Machine

/-! ## Reads of a page's first two registers -/

/-- The common header holds no NV register. -/
theorem nvAt_hdr {g : Pg} {o : Nat} (h : o < 0x40) : nvAt g o = none := by
  have : ¬ 0x800 ≤ o := by omega
  simp [nvAt, this]

/-- A read of the common header clears nothing but ERR_COUNT. -/
theorem clearRc_hdr {g : Pg} {o : Nat} (h : o < 0x40) (hc : o ≠ 0x24) (y : Sys) : y.clearRc g o = y := by
  have h50 : ¬ (g = onePg .snw 0 ∧ o = 0x50) := by omega
  have h40 : ¬ 0x40 ≤ o := by omega
  unfold Sys.clearRc
  simp [hc, h50, h40, regDesc_low h]

/-- A read of the common header shows its contents. -/
theorem rd_hdr {g : Pg} {o : Nat} (h : o < 0x40) (org : Origin) (y : Sys) : y.rd org g o = (y.view g o, y.clearRc g o) := by
  have h1 : ¬ 0x40 ≤ o := by omega
  have hm : mbxAt g.page o = none := by simp [mbxAt, h1]
  unfold Sys.rd
  dsimp only
  split
  · exact if_neg (by omega)
  · exact if_neg (by omega)
  · exact if_neg (by omega)
  · rw [hm]
  · rfl

/-- The manager's window lets a read of a page's directory through while HOST is ON (R57, R71). -/
theorem pageLets_dir {y : Sys} {g : Pg} {o : Nat} (hh : y.hostOn = true) (hd : dirOff o = true) :
    y.pageLets .manager g o true = true := by
  simp [Sys.pageLets, hh, hd]

/-- A read by the manager that is served, aligned, and that its page and channel let through reads the page's register (R11, R47). -/
theorem exec_pageRead_served {s : State} {off : Fin 67108864} {g : Pg} {o : Nat} (hs : s.serves .manager = true)
    (ht : target .manager off = .page g o) (ha : off.val % 4 = 0) (hp : s.sys.pageLets .manager g o true = true)
    (hm : s.sys.mbxDead g o = none) :
    exec (.registerRead .manager off) s = .next { s with sys := s.sys.rdOut .manager off g o } := by
  calc exec (.registerRead .manager off) s
      = liveWin (.registerRead .manager off) .manager s (doRegRead .manager off) := rfl
    _ = .next { s with sys := doRegRead .manager off s.sys } := liveWin_serves hs _ _
    _ = .next { s with sys := s.sys.rdOut .manager off g o } := by
      simp only [doRegRead, readBy, ht, ha, ne_eq, not_true_eq_false, if_false, Sys.viaAny, viaPage_manager hp, hm]

/-- A read of the common header is answered at once with what it shows. -/
theorem rdOut_hdr {g : Pg} {o : Nat} (h : o < 0x40) (hc : o ≠ 0x24) (org : Origin) (off : Nat) (y : Sys) :
    y.rdOut org off g o = y.answer org off (y.viewHdr g o) := by
  have hv : y.view g o = y.viewHdr g o := if_pos h
  simp only [Sys.rdOut, Sys.rdNow, nvAt_hdr h, Option.map_none, rd_hdr h, clearRc_hdr h hc, hv]

/-- Settles O8: a directory register lies in the common header, whose reads are answered at once and clear nothing. -/
theorem pageDirectoryReads : Obligations.page_directory_reads := by
  unfold Obligations.page_directory_reads
  intro s off g o hs hh ht ho
  have hlow : o < 0x40 := by omega
  have hdir : dirOff o = true := by obtain rfl | rfl := ho <;> rfl
  have halign : off.val % 4 = 0 := by
    have := off_of_page ht
    omega
  have hview : s.sys.viewHdr g o = if o = 0 then g.blkId else 0x100 := by obtain rfl | rfl := ho <;> rfl
  rw [exec_pageRead_served hs ht halign (pageLets_dir hh hdir) (mbxDead_hdr hlow), rdOut_hdr hlow (by omega), hview]
  rfl

/-! ## Writes of the common header -/

/-- A write of the common header of a page that is not a CIC page; an injection that is armed may come with it. -/
theorem wr_hdr {g : Pg} {o : Nat} (ho : o < 0x40) (hb : g.blk ≠ .cic) (v : Word) (y : Sys) :
    y.wr .manager g o v = if regStages g.blk then (y.wrHdr g o v).carry g else y.wrHdr g o v := by
  have hcic : (g.blk == .cic) = false := by simpa using hb
  simp only [Sys.wr, hcic, Bool.false_and, Bool.false_eq_true, if_false, if_pos ho]

/-- As `wr_hdr`, with nothing armed on the page's block after the write. -/
theorem wr_hdr_unarmed {g : Pg} {o : Nat} (ho : o < 0x40) (hb : g.blk ≠ .cic) {v : Word} {y : Sys}
    (hu : (y.wrHdr g o v).unarmed g = true) : y.wr .manager g o v = y.wrHdr g o v := by
  rw [wr_hdr ho hb, carry_unarmed hu, ite_self]

/-- Settles O9: the write replaces ERR_STAT by its contents without the bits written as 1. -/
theorem errorFlagsWriteOneToClear : Obligations.error_flags_write_one_to_clear := by
  unfold Obligations.error_flags_write_one_to_clear
  intro s off v g hs ht hp hu hb
  have halign : off.val % 4 = 0 := by
    have := off_of_page ht
    omega
  have hw : s.sys.wrHdr g 0x18 v = s.sys.setPg g 0x18 (s.sys.pgReg g 0x18 &&& ~~~v) := rfl
  have hu' : (s.sys.wrHdr g 0x18 v).unarmed g = true := by rwa [hw, unarmed_setPg (by decide)]
  refine ⟨s.sys.setPg g 0x18 (s.sys.pgReg g 0x18 &&& ~~~v), ?_, rfl, pgReg_setPg_self _ _ _ _, fun a ha => reg_setReg_ne ha _ _⟩
  rw [exec_pageWrite_served hs ht halign hp (mbxDead_hdr (by decide)), wr_hdr_unarmed (by decide) hb hu', hw]

/-! ## Bad accesses -/

theorem reportsOnly_answer (org : Origin) (off : Nat) (v : Word) (y : Sys) : y.reportsOnly (y.answer org off v) := rfl

/-- An access of the manager that breaks R47, to a page that answers and is ON: ACCESS in the page, and 0 to a read. -/
theorem exec_accessError_page {s : State} {off : Fin 67108864} {g : Pg} {o : Nat} {isRead : Bool} (hs : s.serves .manager = true)
    (ht : target .manager off = .page g o) (hp : s.sys.pageLets .manager g o isRead = true) (hon : s.sys.on g.dom = true)
    (hm : s.sys.mbxDead g o = none) :
    exec (.accessError .manager off isRead) s = .next { s with sys :=
      (if isRead then (s.sys.accErr g).answer .manager off 0 else s.sys.accErr g) } := by
  calc exec (.accessError .manager off isRead) s
      = liveWin (.accessError .manager off isRead) .manager s (doAccErr .manager off isRead) := rfl
    _ = .next { s with sys := doAccErr .manager off isRead s.sys } := liveWin_serves hs _ _
    _ = _ := by simp only [doAccErr, ht, Sys.viaAny, viaPage_manager hp, hm, Sys.accAt, hon, if_true]

/-- An access of the manager to no defined page completes with UR, whether it is aligned or not. -/
theorem doUr_none {off : Nat} (ht : target .manager off = .none) (isRead : Bool) (y : Sys) :
    doUr .manager off isRead y = y.refuse .manager off isRead true := by
  by_cases ha : off % 4 = 0 <;> cases isRead <;>
    simp [doUr, Sys.answers, ht, doRegRead, readBy, doRegWrite, doAccErr, ha, Sys.noPage]

theorem exec_unsupportedRequest_none {s : State} {off : Fin 67108864} {isRead : Bool} (hs : s.serves .manager = true)
    (ht : target .manager off = .none) :
    exec (.unsupportedRequest .manager off isRead) s = .next { s with sys := s.sys.refuse .manager off isRead true } := by
  calc exec (.unsupportedRequest .manager off isRead) s
      = liveWin (.unsupportedRequest .manager off isRead) .manager s (doUr .manager off isRead) := rfl
    _ = .next { s with sys := doUr .manager off isRead s.sys } := liveWin_serves hs _ _
    _ = _ := by rw [doUr_none ht]

/-- While HOST is ON a request to no defined page is answered UR and logged by AER (R48, R567). -/
theorem refuse_undef {y : Sys} (hh : y.hostOn = true) (off : Nat) (isRead : Bool) :
    y.refuse .manager off isRead true = ({ y with out := .ur .manager off isRead :: y.out } : Sys).aer .unsupportedRequest := by
  have hh' : ({ y with out := .ur .manager off isRead :: y.out } : Sys).hostOn = true := hh
  simp [Sys.refuse, hh']

/-- Settles O10: either access comes to one recorded error, of the page or of AER. -/
theorem badAccessesAreReported : Obligations.bad_accesses_are_reported := by
  unfold Obligations.bad_accesses_are_reported
  refine ⟨fun s off isRead g o hs ht hp hon hm => ?_, fun s off isRead hs hh ht => ?_⟩
  · refine ⟨_, exec_accessError_page hs ht hp hon hm, ?_⟩
    have hrep : s.sys.reportsOnly (s.sys.accErr g) := reportsOnly_recordErr _ _ _ _
    have hstat : (s.sys.accErr g).pgReg g 0x18 = (s.sys.pgReg g 0x18).put 4 4 1 := recordErr_stat _ _ _ _
    cases isRead with
    | false => exact ⟨hrep, hstat, nofun⟩
    | true => exact ⟨reportsOnly_trans hrep (reportsOnly_answer _ _ _ _), hstat, fun _ => rfl⟩
  · exact ⟨_, exec_unsupportedRequest_none hs ht, by rw [refuse_undef hh]; rfl, by rw [refuse_undef hh]; rfl⟩

end Sys2Proof.Machine

/-! SUPPORT. Writes of a page's own registers by its page number, staged writes, discards, and error injection. -/

namespace Sys2Proof.Machine

/-! ## Pages and their offsets -/

/-- A page of the manager window is named by the page number of an offset alone (R51). -/
theorem ofOff_page {q o : Nat} (ho : o < 0x1000) : Pg.ofOff (q * 0x1000 + o) = Pg.ofOff (q * 0x1000) := by
  unfold Pg.ofOff pageIn
  dsimp only
  repeat' refine if_congr (by omega) ?_ ?_
  all_goals (simp only [Option.some.injEq, Pg.mk.injEq, true_and, and_true] <;> omega)

/-- What names a page of the manager window (R51): neither the MSI-X table nor the pending bits. -/
theorem target_page_iff {off o : Nat} {g : Pg} : target .manager off = .page g o ↔
    ¬ (0xFE ≤ off / 0x1000 ∧ off / 0x1000 < 0x100) ∧ Pg.ofOff off = some g ∧ off % 0x1000 = o := by
  unfold target
  dsimp only
  split
  · simp; omega
  · split
    · simp; omega
    · cases Pg.ofOff off <;> simp; omega

/-- Another offset of the same page. -/
theorem target_page {q o : Nat} {g : Pg} (ho : o < 0x1000) (h : target .manager (q * 0x1000) = .page g 0) :
    target .manager (q * 0x1000 + o) = .page g o := by
  rw [target_page_iff] at h ⊢
  have hdiv : (q * 0x1000 + o) / 0x1000 = q * 0x1000 / 0x1000 := by omega
  rw [hdiv, ofOff_page ho]
  exact ⟨h.1, h.2.1, by omega⟩

/-- The pages of the ring unit and of the frame engines that the window has (R51). -/
theorem ofOff_range {off : Nat} {g : Pg} (h : Pg.ofOff off = some g) :
    (g.blk = .rng → g.inst = 0) ∧ (g.blk = .frm → g.inst < 8 ∧ g.page < 4) := by
  unfold Pg.ofOff pageIn at h
  dsimp only at h
  split_ifs at h <;> cases h <;> simp [Blk.npages] at *
  omega

/-- The pages of the window that hold staged registers are those of R80. -/
theorem mem_stagedPages {g : Pg} : g ∈ stagedPages ↔ g = onePg .rng 1 ∨ ∃ n < 8, ∃ i, 1 ≤ i ∧ i < 4 ∧ g = frmPg n i := by
  simp only [stagedPages, List.mem_cons, List.mem_flatMap, List.mem_range, List.not_mem_nil, or_false]
  refine or_congr_right (exists_congr fun n => and_congr_right fun _ => ⟨?_, ?_⟩)
  · rintro (rfl | rfl | rfl)
    exacts [⟨1, by decide, by decide, rfl⟩, ⟨2, by decide, by decide, rfl⟩, ⟨3, by decide, by decide, rfl⟩]
  · rintro ⟨i, h1, h4, rfl⟩
    obtain rfl | rfl | rfl : i = 1 ∨ i = 2 ∨ i = 3 := by omega
    exacts [.inl rfl, .inr (.inl rfl), .inr (.inr rfl)]

theorem stagedPages_of_target {off o : Nat} {g : Pg} (h : target .manager off = .page g o) (hst : g.stagedPage = true) :
    g ∈ stagedPages := by
  obtain ⟨hrng, hfrm⟩ := ofOff_range (target_page_iff.1 h).2.1
  obtain ⟨b, n, i⟩ := g
  rw [mem_stagedPages]
  cases b <;> simp only [Pg.stagedPage, Bool.false_eq_true, beq_iff_eq, decide_eq_true_eq] at hst
  case rng => exact .inl (by rw [hst, show n = 0 from hrng rfl]; rfl)
  case frm => exact .inr ⟨n, (hfrm rfl).1, i, hst, (hfrm rfl).2, rfl⟩

/-! ## Staged writes -/

/-- A write of a staged page past the common header is a write of a staged register. -/
theorem wr_staged {g : Pg} (hg : g ∈ stagedPages) {o : Nat} (ho : 0x40 ≤ o) (org : Origin) (v : Word) (y : Sys) :
    y.wr org g o v = y.wrStaged g o v := by
  have hlow : ¬ o < 0x40 := by omega
  obtain rfl | ⟨n, -, i, hi, -, rfl⟩ := mem_stagedPages.1 hg
  · exact if_neg hlow
  · refine (if_neg hlow).trans ?_
    exact if_pos hi

theorem blk_ne_mbx_of_staged {g : Pg} (hg : g ∈ stagedPages) : g.blk ≠ .mbx ∧ g.blk ≠ .cic := by
  obtain rfl | ⟨n, -, i, -, -, rfl⟩ := mem_stagedPages.1 hg <;> simp [onePg, frmPg]

/-- A staged write of the manager that is served, aligned and let through. -/
theorem exec_stagedWrite_served {s : State} {off : Fin 67108864} {g : Pg} {o : Nat} {d : RegDesc} (hs : s.serves .manager = true)
    (ht : target .manager off = .page g o) (ha : off.val % 4 = 0) (hp : s.sys.pageLets .manager g o false = true)
    (hst : g.stagedPage = true) (ho : 0x40 ≤ o) (ho' : o < 0x800) (hd : regDesc? g.blk g.page o = some d) (v : Word) :
    exec (.stagedWrite .manager off v) s = .next { s with sys := s.sys.wrStaged g o v } := by
  have hg := stagedPages_of_target ht hst
  have hstaged : isStaged .manager off = true := by simp [isStaged, ht, hst, ho, ho', hd]
  have hdead : s.sys.mbxDead g o = none := mbxDead_other (blk_ne_mbx_of_staged hg).1
  calc exec (.stagedWrite .manager off v) s
      = liveWin (.stagedWrite .manager off v) .manager s (doStaged .manager off v) := rfl
    _ = .next { s with sys := doStaged .manager off v s.sys } := liveWin_serves hs _ _
    _ = .next { s with sys := s.sys.wr .manager g o v } := by
      simp only [doStaged, hstaged, if_true, doRegWrite, ht, ha, ne_eq, not_true_eq_false, if_false, Sys.viaAny,
        viaPage_manager hp, hdead]
    _ = _ := by rw [wr_staged hg ho]

@[simp] theorem stagedPend_setStaged_self (g : Pg) (b : Bool) (y : Sys) : (y.setStaged g b).stagedPend g = b :=
  FMap.get_put_self _ _ _ _

theorem stagedPend_setStaged_ne {g h : Pg} (hn : h.base ≠ g.base) (b : Bool) (y : Sys) :
    (y.setStaged g b).stagedPend h = y.stagedPend h := FMap.get_put_ne _ hn _ _

/-- Settles O18: the write stages its value, or records CFG where R614 refuses it. -/
theorem stagedWriteFillsTheShadow : Obligations.staged_write_fills_the_shadow := by
  unfold Obligations.staged_write_fills_the_shadow
  intro s off v g o d hs ht ha hp hst ho ho' hd
  have hexec := exec_stagedWrite_served hs ht ha hp hst ho ho' hd v
  have hactive : ¬ 0x800 ≤ o := by omega
  rw [Sys.wrStaged, if_neg hactive, hd] at hexec
  refine ⟨fun hin => ⟨s.sys.stage g o (v &&& Word.ofN d.rw), ?_, ?_⟩, fun hout => ⟨s.sys.cfgErr g, ?_, ?_⟩⟩
  · simpa only [hin, Bool.false_eq_true, if_false] using hexec
  · exact ⟨reg_setReg_self _ _ _, stagedPend_setStaged_self _ _ _, fun a h => reg_setReg_ne h _ _,
      fun h hn => stagedPend_setStaged_ne hn _ _, rfl⟩
  · simpa only [hout, if_true] using hexec
  · exact ⟨reportsOnly_recordErr _ _ _ _, recordErr_stat _ _ _ _⟩

/-! ## Error injection -/

/-- A write of the common header by page number that is served and let through (R58). -/
theorem exec_header_served {s : State} {c : Instr} {page : Fin 8192} {g : Pg} {o : Nat} {v : Word} (hs : s.serves .manager = true)
    (hc : exec c s = liveWin c .manager s (doHeader .manager page o v))
    (ht : target .manager (page.val * 0x1000) = .page g 0) (ho : o < 0x40) (ha : o % 4 = 0)
    (hp : s.sys.pageLets .manager g o false = true) : exec c s = .next { s with sys := s.sys.wr .manager g o v } := by
  have halign : (page.val * 0x1000 + o) % 4 = 0 := by omega
  calc exec c s
      = .next { s with sys := doHeader .manager page o v s.sys } := hc.trans (liveWin_serves hs _ _)
    _ = _ := by
      simp only [doHeader, ht, doRegWrite, target_page (show o < 0x1000 by omega) ht, halign, ne_eq, not_true_eq_false, if_false,
        Sys.viaAny, viaPage_manager hp, mbxDead_hdr ho]

/-- Recording an error leaves the other registers of the common header alone. -/
theorem recordErr_inject (g : Pg) (b d : Nat) (q : Pg) (y : Sys) : (y.recordErr g b d).pgReg q 0x28 = y.pgReg q 0x28 := by
  refine recordErr_reg ?_ b d y
  have hg := base_mod g
  have hq := base_mod q
  unfold errTouches
  omega

/-- What a write of ERR_INJECT leaves in the register: CAUSE, MODE and ARM. -/
def injWord (v : Word) : Word := Word.ofN (v.fld 4 0 + v.fld 9 8 * 256 + (if v.bit 16 then 65536 else 0))

theorem errInject_stored {g : Pg} {v : Word}
    (h : v.bit 16 = false ∨ (canInject g.blk (v.fld 9 8) (v.fld 4 0) = true ∧ v.fld 9 8 ≠ 2)) (y : Sys) :
    y.errInject g v = y.setPg g 0x28 (injWord v) := by
  unfold Sys.errInject
  obtain harm | ⟨hcan, hmode⟩ := h
  · simp only [harm, Bool.not_false, if_true]
    rw [injWord, harm]
  · simp only [hcan, hmode, Bool.not_true, Bool.false_eq_true, if_false]
    exact ite_self _

theorem errInject_recorded {g : Pg} {v : Word} (harm : v.bit 16 = true) (hcan : canInject g.blk (v.fld 9 8) (v.fld 4 0) = true)
    (hmode : v.fld 9 8 = 2) (y : Sys) :
    y.errInject g v = (y.setPg g 0x28 ((injWord v).put 16 16 0)).recordErr g (v.fld 4 0) 0 := by
  simp [Sys.errInject, injWord, harm, hmode, hmode ▸ hcan]

theorem errInject_refused {g : Pg} {v : Word} (harm : v.bit 16 = true) (hcan : canInject g.blk (v.fld 9 8) (v.fld 4 0) = false)
    (y : Sys) : y.errInject g v = y.cfgErr g := by
  simp [Sys.errInject, harm, hcan]

/-- Settles O22: what an injection's write leaves, by its three branches. -/
theorem injectionIsArmedOrRecorded : Obligations.injection_is_armed_or_recorded := by
  unfold Obligations.injection_is_armed_or_recorded
  intro s page g v hs ht hp hcic hst
  have hexec : exec (.errorInject .manager page v) s = .next { s with sys := s.sys.errInject g v } := by
    rw [exec_header_served hs rfl ht (by decide) (by decide) hp, wr_hdr (by decide) hcic, hst]
    rfl
  refine ⟨fun h => ?_, fun harm hcan hmode => ⟨(s.sys.setPg g 0x28 ((injWord v).put 16 16 0)).recordErr g (v.fld 4 0) 0, ?_, ?_, ?_, ?_⟩,
    fun harm hcan => ⟨s.sys.cfgErr g, ?_, ?_, ?_, ?_⟩⟩
  · rw [hexec, errInject_stored h]
    rfl
  · rw [hexec, errInject_recorded harm hcan hmode]
  · exact reportsOnly_trans (reportsOnly_setReg _ _ _) (reportsOnly_recordErr _ _ _ _)
  · exact (recordErr_inject _ _ _ _ _).trans (pgReg_setPg_self _ _ _ _)
  · rw [recordErr_stat, pgReg_setPg_ne _ _ (by decide)]
  · rw [hexec, errInject_refused harm hcan]
  · exact reportsOnly_recordErr _ _ _ _
  · exact recordErr_inject _ _ _ _ _
  · exact recordErr_stat _ _ _ _

end Sys2Proof.Machine

/-! SUPPORT. The shadow copies of the staged pages: what discarding a page, or all of them, leaves. -/

namespace Sys2Proof.Machine

/-! ## The staged pages and their registers -/

theorem ofOff_base_staged : ∀ g ∈ stagedPages, Pg.ofOff g.base = some g := by decide

theorem ofOff_staged {g : Pg} (hg : g ∈ stagedPages) {o : Nat} (ho : o < 0x1000) : Pg.ofOff (g.base + o) = some g := by
  have hq : g.base / 0x1000 * 0x1000 = g.base := Nat.div_mul_cancel (Nat.dvd_of_mod_eq_zero (base_mod g))
  have h := ofOff_page (q := g.base / 0x1000) ho
  rwa [hq, ofOff_base_staged g hg] at h

/-- The staged pages lie at offsets of their own. -/
theorem base_inj_staged {g h : Pg} (hg : g ∈ stagedPages) (hh : h ∈ stagedPages) (hb : g.base = h.base) : g = h := by
  have h1 := ofOff_base_staged g hg
  rw [hb, ofOff_base_staged h hh] at h1
  exact (Option.some.inj h1).symm

theorem base_ge_staged : ∀ g ∈ stagedPages, g.base < 0xF000 ∨ 0x100000 ≤ g.base := by decide

/-- Offset `a` is one of page `g`'s shadow registers (R80). -/
def Shadow (g : Pg) (a : Nat) : Prop := g.base + 0x40 ≤ a ∧ a < g.base + 0x800

theorem Shadow.mod {g : Pg} {a : Nat} (h : Shadow g a) : 0x40 ≤ a % 0x1000 ∧ a % 0x1000 < 0x800 ∧ a - a % 0x1000 = g.base := by
  have := base_mod g
  obtain ⟨h1, h2⟩ := h
  omega

/-- A staged register and its active copy have one reset value (R80). -/
theorem regReset_active {g : Pg} (hg : g ∈ stagedPages) {a : Nat} (ha : Shadow g a) : regReset (a + 0x800) = regReset a := by
  have hb := base_mod g
  have hw := base_ge_staged g hg
  obtain ⟨h1, h2⟩ := ha
  obtain ⟨o, rfl⟩ : ∃ o, a = g.base + o := ⟨a - g.base, by omega⟩
  have hmod : (g.base + o) % 0x1000 = o := by omega
  have hmod' : (g.base + o + 0x800) % 0x1000 = o + 0x800 := by omega
  have hwin : ¬ (0xFE000 ≤ g.base + o ∧ g.base + o < 0xFE400) := by omega
  have hwin' : ¬ (0xFE000 ≤ g.base + o + 0x800 ∧ g.base + o + 0x800 < 0xFE400) := by omega
  have hpg : Pg.ofOff (g.base + o) = some g := ofOff_staged hg (by omega)
  have hpg' : Pg.ofOff (g.base + o + 0x800) = some g := by
    rw [Nat.add_assoc]
    exact ofOff_staged hg (by omega)
  have h1C : (o == 0x1C) = false := beq_false_of_ne (by omega)
  have h1C' : (o + 0x800 == 0x1C) = false := beq_false_of_ne (by omega)
  have hlow : ¬ 0x840 ≤ o := by omega
  have hhigh : 0x840 ≤ o + 0x800 := by omega
  have hst : g.stagedPage = true := by
    obtain rfl | ⟨n, -, i, hi, -, rfl⟩ := mem_stagedPages.1 hg
    · rfl
    · exact decide_eq_true hi
  unfold regReset
  simp only [hmod, hmod', if_neg hwin, if_neg hwin', hpg, hpg', h1C, h1C', hst, hlow, hhigh, decide_true, decide_false,
    Bool.and_true, Bool.and_false, Bool.false_eq_true, if_false, if_true, Nat.add_sub_cancel]
  obtain rfl | ⟨n, -, i, -, -, rfl⟩ := mem_stagedPages.1 hg <;> rfl

/-- A register that the file does not list has its reset value. -/
theorem reg_of_not_mem {y : Sys} {a : Nat} (h : ∀ e ∈ y.regs, e.1 ≠ a) : y.reg a = regReset a := by
  unfold Sys.reg
  revert h
  generalize y.regs = l
  intro h
  induction l with
  | nil => rfl
  | cons e r ih =>
    obtain ⟨k, v⟩ := e
    have hk : k ≠ a := h (k, v) List.mem_cons_self
    simp only [FMap.get, hk, if_false]
    exact ih fun e he => h e (List.mem_cons_of_mem _ he)

/-- The registers whose shadow copy differs from the active one (R80). -/
theorem mem_changed {g : Pg} (hg : g ∈ stagedPages) {y : Sys} {a : Nat} :
    a ∈ y.changed g ↔ Shadow g a ∧ y.reg a ≠ y.reg (a + 0x800) := by
  unfold Sys.changed
  simp only [List.mem_filter, List.mem_dedup, List.mem_filterMap, bne_iff_ne, and_congr_left_iff]
  intro hne
  constructor
  · rintro ⟨⟨k, v⟩, -, h⟩
    split_ifs at h with h1 h2
    · exact Option.some.inj h ▸ h1
    · obtain rfl : k = a + 0x800 := by
        have := Option.some.inj h
        omega
      exact ⟨by omega, by omega⟩
  · intro ha
    by_cases hl : ∃ e ∈ y.regs, e.1 = a
    · obtain ⟨e, he, rfl⟩ := hl
      exact ⟨e, he, if_pos ha⟩
    · by_cases hr : ∃ e ∈ y.regs, e.1 = a + 0x800
      · obtain ⟨e, he, hk⟩ := hr
        obtain ⟨h1, h2⟩ := ha
        have hlow : ¬ (g.base + 0x40 ≤ a + 0x800 ∧ a + 0x800 < g.base + 0x800) := fun h => by omega
        have hhigh : g.base + 0x840 ≤ a + 0x800 ∧ a + 0x800 < g.base + 0x1000 := ⟨by omega, by omega⟩
        refine ⟨e, he, ?_⟩
        rw [hk, if_neg hlow, if_pos hhigh, Nat.add_sub_cancel]
      · rw [reg_of_not_mem fun e he hk => hl ⟨e, he, hk⟩, reg_of_not_mem fun e he hk => hr ⟨e, he, hk⟩,
          regReset_active hg ha] at hne
        exact absurd rfl hne

/-! ## One page discarded -/

/-- What every step of a run keeps, the run keeps. -/
theorem each_keeps {α : Type} {f : α → Sys → Sys} {P : Sys → Prop} (l : List α) (h : ∀ a ∈ l, ∀ y, P y → P (f a y)) :
    ∀ {y}, P y → P (each f l y) := by
  induction l with
  | nil => exact id
  | cons a r ih =>
    intro y hy
    exact ih (fun b hb => h b (List.mem_cons_of_mem _ hb)) (h a List.mem_cons_self y hy)

/-- Active copies copied to the shadow registers `l`. -/
theorem reg_each_return {l : List Nat} {g : Pg} (hl : ∀ a ∈ l, Shadow g a) (y : Sys) (a : Nat) :
    (each (fun o (y : Sys) => y.setReg o (y.reg (o + 0x800))) l y).reg a = if a ∈ l then y.reg (a + 0x800) else y.reg a := by
  induction l generalizing y with
  | nil => rfl
  | cons o r ih =>
    have hr : ∀ b ∈ r, Shadow g b := fun b hb => hl b (List.mem_cons_of_mem _ hb)
    have ho := (hl o List.mem_cons_self).mod
    simp only [each, ih hr]
    by_cases hmem : a ∈ r
    · have ha := (hr a hmem).mod
      rw [if_pos hmem, if_pos (List.mem_cons_of_mem _ hmem), reg_setReg_ne (by omega)]
    · rw [if_neg hmem]
      by_cases hao : a = o
      · subst hao
        rw [reg_setReg_self, if_pos List.mem_cons_self]
      · rw [reg_setReg_ne hao, if_neg (by simp [hao, hmem])]

/-- The shadow registers of page `g` equal their active copies in `t`, and the other registers are those of `y`. -/
theorem reg_each_changed {g : Pg} (hg : g ∈ stagedPages) (y : Sys) (a : Nat) :
    (Shadow g a → (each (fun o (y : Sys) => y.setReg o (y.reg (o + 0x800))) (y.changed g) y).reg a = y.reg (a + 0x800)) ∧
    (¬ Shadow g a → (each (fun o (y : Sys) => y.setReg o (y.reg (o + 0x800))) (y.changed g) y).reg a = y.reg a) := by
  rw [reg_each_return (g := g) (fun o ho => ((mem_changed hg).1 ho).1)]
  refine ⟨fun ha => ?_, fun ha => if_neg fun hm => ha ((mem_changed hg).1 hm).1⟩
  split_ifs with hm
  · rfl
  · by_contra hne
    exact hm ((mem_changed hg).2 ⟨ha, hne⟩)

/-- Every endpoint of the shadow table stands in the active one: no staged edit opens an endpoint (R177). -/
def PTab.opensNone (b : PTab) : Prop := b.sh.all (fun x => tabHas b.act x.2.slot x.2.epid) = true

theorem PTab.opensNone_iff {b : PTab} :
    b.opensNone ↔ (b.sh.filter fun x => !(tabHas b.act x.2.slot x.2.epid)) = [] := by
  simp [PTab.opensNone, List.filter_eq_nil_iff]

/-- A table has what it lists. -/
theorem opensNone_of_eq {b : PTab} (h : b.sh = b.act) : b.opensNone := by
  rw [PTab.opensNone, h, List.all_eq_true]
  exact fun x hx => List.any_eq_true.2 ⟨x, hx, by simp⟩

/-- The registers, the host region's records and the periodic tables of two states are the same. -/
def Sys.SameTabs (y t : Sys) : Prop := t.regs = y.regs ∧ t.host = y.host ∧ t.usb.ptab = y.usb.ptab

/-- Discarding a table that opens nothing changes its shadow copy and marks of endpoints only. -/
theorem discardTab_sameTabs {p : Nat} {y : Sys} (h : (y.ptab p).opensNone) :
    (y.updPtab p fun b => { b with sh := b.act }).SameTabs (y.discardTab p) := by
  unfold Sys.discardTab
  dsimp only
  rw [PTab.opensNone_iff.1 h]
  refine each_keeps (P := Sys.SameTabs _) _ ?_ ⟨rfl, rfl, rfl⟩
  exact fun e _ t ht => ht

theorem discardTab_regs {p : Nat} {y : Sys} (h : (y.ptab p).opensNone) :
    (y.discardTab p).regs = y.regs ∧ (y.discardTab p).host = y.host :=
  ⟨(discardTab_sameTabs h).1, (discardTab_sameTabs h).2.1⟩

theorem ptab_discardTab {p : Nat} {y : Sys} (h : (y.ptab p).opensNone) (q : Nat) :
    (y.discardTab p).ptab q = if q = p then { y.ptab p with sh := (y.ptab p).act } else y.ptab q := by
  have hq : (y.discardTab p).ptab q = (y.updPtab p fun b => { b with sh := b.act }).ptab q := by
    rw [Sys.ptab, (discardTab_sameTabs h).2.2]
    rfl
  rw [hq]
  split_ifs with hpq
  · subst hpq
    exact updPtab_ptab_self _ _ _
  · exact updPtab_ptab_ne hpq _ _

/-- After tables `ps` are discarded on `y`: registers and records as before, active tables as before, and the shadow tables of `ps`
returned. -/
def Sys.TabsReturned (y t : Sys) (ps : List Nat) : Prop :=
  t.regs = y.regs ∧ t.host = y.host ∧ (∀ q, (t.ptab q).act = (y.ptab q).act) ∧ (∀ q ∈ ps, (t.ptab q).sh = (y.ptab q).act) ∧
    ∀ q, q ∉ ps → (t.ptab q).sh = (y.ptab q).sh

theorem tabsReturned_each (n : Nat) (l : List Nat) (y : Sys) (h : ∀ k ∈ l, (y.ptab (16 * n + k)).opensNone) :
    y.TabsReturned (each (fun k y => y.discardTab (16 * n + k)) l y) (l.map (16 * n + ·)) := by
  induction l generalizing y with
  | nil => exact ⟨rfl, rfl, fun _ => rfl, nofun, fun _ _ => rfl⟩
  | cons k r ih =>
    have hk := h k List.mem_cons_self
    have htab := ptab_discardTab hk
    have hact : ∀ q, ((y.discardTab (16 * n + k)).ptab q).act = (y.ptab q).act := fun q => by
      rw [htab]
      split_ifs with hq
      · rw [hq]
      · rfl
    have hopens : ∀ m ∈ r, ((y.discardTab (16 * n + k)).ptab (16 * n + m)).opensNone := fun m hm => by
      rw [htab]
      split_ifs
      · exact opensNone_of_eq rfl
      · exact h m (List.mem_cons_of_mem _ hm)
    obtain ⟨hregs, hhost, hacts, hsh, hkeep⟩ := ih _ hopens
    refine ⟨hregs.trans (discardTab_regs hk).1, hhost.trans (discardTab_regs hk).2, fun q => (hacts q).trans (hact q), ?_, ?_⟩
    · intro q hq
      by_cases hr : q ∈ r.map (16 * n + ·)
      · exact (hsh q hr).trans (hact q)
      · obtain rfl : q = 16 * n + k := by simpa [hr] using hq
        rw [each, hkeep _ hr, htab, if_pos rfl]
    · intro q hq
      simp only [List.map_cons, List.mem_cons, not_or] at hq
      rw [each, hkeep q hq.2, htab, if_neg hq.1]

/-- No staged edit of the periodic tables that page `g` governs opens an endpoint. -/
def Sys.TabsOpenNone (y : Sys) (g : Pg) : Prop := g.blk = .frm ∧ g.page = 3 → ∀ k < 16, (y.ptab (16 * g.inst + k)).opensNone

/-- What discarding page `g` of R80 leaves (R62, R177). -/
structure Sys.PageReturned (y t : Sys) (g : Pg) : Prop where
  pend : t.stagedPend g = false
  others : ∀ h : Pg, h.base ≠ g.base → t.stagedPend h = y.stagedPend h
  shadow : ∀ a, Shadow g a → t.reg a = y.reg (a + 0x800)
  rest : ∀ a, ¬ Shadow g a → t.reg a = y.reg a
  act : ∀ q, (t.ptab q).act = (y.ptab q).act
  sh : g.blk = .frm ∧ g.page = 3 → ∀ k < 16, (t.ptab (16 * g.inst + k)).sh = (y.ptab (16 * g.inst + k)).act
  shKept : ∀ q, (t.ptab q).sh = (y.ptab q).sh ∨ (t.ptab q).sh = (y.ptab q).act
  caps : t.host.capPages = y.host.capPages

theorem pageReturned_discardPage {g : Pg} (hg : g ∈ stagedPages) {y : Sys} (hc : y.commitPend g = false) (ho : y.TabsOpenNone g) :
    y.PageReturned (y.discardPage g) g := by
  obtain ⟨hin, hout⟩ : (∀ a, Shadow g a → _) ∧ (∀ a, ¬ Shadow g a → _) := forall_and.1 (reg_each_changed hg y)
  have hhost : (each (fun o (y : Sys) => y.setReg o (y.reg (o + 0x800))) (y.changed g) y).host = y.host :=
    by refine each_keeps (P := fun t => t.host = y.host) _ ?_ rfl; exact fun _ _ _ h => h
  have hptab : (each (fun o (y : Sys) => y.setReg o (y.reg (o + 0x800))) (y.changed g) y).ptab = y.ptab :=
    by refine each_keeps (P := fun t => t.ptab = y.ptab) _ ?_ rfl; exact fun _ _ _ h => h
  unfold Sys.discardPage
  rw [hc]
  simp only [Bool.false_eq_true, if_false]
  generalize each (fun o (y : Sys) => y.setReg o (y.reg (o + 0x800))) (y.changed g) y = z at *
  by_cases hp : g.blk = .frm ∧ g.page = 3
  · obtain ⟨hregs, hh, hact, hsh, hkeep⟩ : z.TabsReturned _ ((List.range 16).map (16 * g.inst + ·)) :=
      tabsReturned_each g.inst (List.range 16) z fun k hk => by rw [hptab]; exact ho hp k (List.mem_range.1 hk)
    have hcond : (g.blk == .frm && g.page == 3) = true := by simp [hp]
    rw [if_pos hcond]
    generalize each (fun k y => y.discardTab (16 * g.inst + k)) (List.range 16) z = w at *
    have hreg : ∀ a, w.reg a = z.reg a := fun a => by rw [Sys.reg, hregs]; rfl
    have hmem : ∀ k < 16, 16 * g.inst + k ∈ (List.range 16).map (16 * g.inst + ·) := fun k hk =>
      List.mem_map_of_mem (List.mem_range.2 hk)
    refine ⟨stagedPend_setStaged_self _ _ _, fun h hn => ?_, fun a ha => ?_, fun a ha => ?_, fun q => ?_, fun _ k hk => ?_,
      fun q => ?_, ?_⟩
    · rw [stagedPend_setStaged_ne hn, Sys.stagedPend, hh, hhost]; rfl
    · exact (hreg a).trans (hin a ha)
    · exact (hreg a).trans (hout a ha)
    · exact (hact q).trans (by rw [hptab])
    · exact (hsh _ (hmem k hk)).trans (by rw [hptab])
    · by_cases hq : q ∈ (List.range 16).map (16 * g.inst + ·)
      · exact .inr ((hsh q hq).trans (by rw [hptab]))
      · exact .inl ((hkeep q hq).trans (by rw [hptab]))
    · exact congrArg (·.capPages) (hh.trans hhost)
  · have hcond : ¬ (g.blk == .frm && g.page == 3) = true := by simpa using hp
    rw [if_neg hcond]
    refine ⟨stagedPend_setStaged_self _ _ _, fun h hn => ?_, hin, hout, fun q => ?_, fun h => absurd h hp, fun q => .inl ?_, ?_⟩
    · rw [stagedPend_setStaged_ne hn, Sys.stagedPend, hhost]; rfl
    · exact congrArg PTab.act (congrFun hptab q)
    · exact congrArg PTab.sh (congrFun hptab q)
    · exact congrArg (·.capPages) hhost

theorem discardPage_of_commitPend {g : Pg} {y : Sys} (h : y.commitPend g = true) : y.discardPage g = y := if_pos h

/-! ## All of them discarded -/

/-- What discarding the pages `l` in turn leaves (R81). -/
structure Sys.PagesReturned (y t : Sys) (l : List Pg) : Prop where
  pend : ∀ g ∈ l, t.stagedPend g = false
  others : ∀ h : Pg, (∀ g ∈ l, h.base ≠ g.base) → t.stagedPend h = y.stagedPend h
  shadow : ∀ g ∈ l, ∀ a, Shadow g a → t.reg a = y.reg (a + 0x800)
  rest : ∀ a, (∀ g ∈ l, ¬ Shadow g a) → t.reg a = y.reg a

/-- Tables whose two copies agree stay so, and no commit's captured page comes in. -/
def Sys.Quiet (y : Sys) : Prop := y.host.capPages = [] ∧ ∀ p, (y.ptab p).sh = (y.ptab p).act

theorem Sys.Quiet.page {y : Sys} (h : y.Quiet) {g : Pg} (hg : g ∈ stagedPages) :
    y.PageReturned (y.discardPage g) g ∧ (y.discardPage g).Quiet := by
  have hc : y.commitPend g = false := by simp [Sys.commitPend, h.1]
  have hr := pageReturned_discardPage hg hc fun _ k _ => opensNone_of_eq (h.2 _)
  refine ⟨hr, hr.caps.trans h.1, fun p => ?_⟩
  rw [hr.act p]
  obtain hs | hs := hr.shKept p
  · exact hs.trans (h.2 p)
  · exact hs

theorem pagesReturned_each {l : List Pg} (hl : ∀ g ∈ l, g ∈ stagedPages) {y : Sys} (hq : y.Quiet) :
    y.PagesReturned (each (fun g y => y.discardPage g) l y) l := by
  induction l generalizing y with
  | nil => exact ⟨nofun, fun _ _ => rfl, nofun, fun _ _ => rfl⟩
  | cons g r ih =>
    obtain ⟨hg, hr⟩ := List.forall_mem_cons.1 hl
    obtain ⟨hone, hq'⟩ := hq.page hg
    have hall := ih hr hq'
    simp only [each]
    have hpend : (each (fun g y => y.discardPage g) r (y.discardPage g)).stagedPend g = false := by
      by_cases hgr : g ∈ r
      · exact hall.pend g hgr
      · rw [hall.others g fun h hh hb => hgr (base_inj_staged hg (hr h hh) hb ▸ hh), hone.pend]
    have hact : ∀ h ∈ g :: r, ∀ a, Shadow h a → (y.discardPage g).reg (a + 0x800) = y.reg (a + 0x800) := fun h _ a ha =>
      hone.rest _ fun hs => by
        have h1 := hs.mod
        have h2 := ha.mod
        omega
    refine ⟨List.forall_mem_cons.2 ⟨hpend, hall.pend⟩, fun h hn => ?_, fun h hh a ha => ?_, fun a ha => ?_⟩
    · obtain ⟨hng, hnr⟩ := List.forall_mem_cons.1 hn
      rw [hall.others h hnr, hone.others h hng]
    · by_cases hin : ∃ k ∈ r, Shadow k a
      · obtain ⟨k, hk, hka⟩ := hin
        rw [hall.shadow k hk a hka, hact h hh a ha]
      · obtain rfl | hmem := List.mem_cons.1 hh
        · rw [hall.rest a fun k hk hka => hin ⟨k, hk, hka⟩, hone.shadow a ha]
        · exact absurd ⟨h, hmem, ha⟩ hin
    · obtain ⟨hng, hnr⟩ := List.forall_mem_cons.1 ha
      rw [hall.rest a hnr, hone.rest a hng]

/-! ## DISCARD and DISCARD_ALL -/

/-- A write of DISCARD to a staged page, served and let through (R62). -/
theorem exec_discard_served {s : State} {page : Fin 8192} {g : Pg} (hs : s.serves .manager = true)
    (ht : target .manager (page.val * 0x1000) = .page g 0) (hst : g.stagedPage = true)
    (hp : s.sys.pageLets .manager g 0x10 false = true) :
    exec (.discard .manager page) s = .next { s with sys := s.sys.discardPage g } := by
  have hg := stagedPages_of_target ht hst
  have hstages : regStages g.blk = false := by
    obtain rfl | ⟨n, -, i, -, -, rfl⟩ := mem_stagedPages.1 hg <;> rfl
  have hw : s.sys.wrHdr g 0x10 1 = s.sys.discardPage g := by
    unfold Sys.wrHdr
    rw [hst]
    rfl
  rw [exec_header_served hs rfl ht (by decide) (by decide) hp, wr_hdr (by decide) (blk_ne_mbx_of_staged hg).2, hstages, hw]
  rfl

/-- Settles O19: what one page returns, and that DISCARD_ALL returns the pages with STAGED_PEND one after the other. -/
theorem discardsReturnTheShadows : Obligations.discards_return_the_shadows := by
  unfold Obligations.discards_return_the_shadows
  refine ⟨fun s page g hs ht hst hp => ⟨fun hc => ?_, fun hc ho => ?_⟩, fun s hs hp hb hcap hq => ?_⟩
  · rw [exec_discard_served hs ht hst hp, discardPage_of_commitPend hc]
  · have hr := pageReturned_discardPage (stagedPages_of_target ht hst) hc ho
    refine ⟨_, exec_discard_served hs ht hst hp, hr.pend, fun o h1 h2 => ?_, fun a ha => hr.rest a ha, fun h k hk =>
      ⟨hr.sh h k hk, hr.act _⟩⟩
    have := hr.shadow (g.base + o) ⟨by omega, by omega⟩
    rwa [Nat.add_assoc] at this
  · have hmem : ∀ g ∈ stagedPages.filter s.sys.stagedPend, g ∈ stagedPages := fun g h => (List.mem_filter.1 h).1
    have hr := pagesReturned_each hmem ⟨hcap, hq⟩
    have hall : s.sys.discardAll = each (fun g y => y.discardPage g) (stagedPages.filter s.sys.stagedPend) s.sys := by
      rw [Sys.discardAll, hb]
      rfl
    rw [← hall] at hr
    refine ⟨_, exec_discardAll_served hs hp, fun g hg => ?_, fun g hg hpend o h1 h2 => ?_, fun g hg hpend o h1 h2 => ?_, fun a ha => ?_⟩
    · by_cases hpend : s.sys.stagedPend g = true
      · exact hr.pend g (List.mem_filter.2 ⟨hg, hpend⟩)
      · rw [hr.others g fun h hh hbase => hpend (base_inj_staged hg (hmem h hh) hbase ▸ (List.mem_filter.1 hh).2)]
        simpa using hpend
    · have := hr.shadow g (List.mem_filter.2 ⟨hg, hpend⟩) (g.base + o) ⟨by omega, by omega⟩
      rwa [Nat.add_assoc] at this
    · refine hr.rest _ fun h hh hsh => ?_
      have hg' : Shadow g (g.base + o) := ⟨by omega, by omega⟩
      have hbase : g.base = h.base := by rw [← hg'.mod.2.2, ← hsh.mod.2.2]
      have hpend' := (List.mem_filter.1 hh).2
      rw [← base_inj_staged hg (hmem h hh) hbase, hpend] at hpend'
      cases hpend'
    · refine hr.rest a fun h _ hsh => ?_
      have := hsh.mod
      omega

end Sys2Proof.Machine

/-! SUPPORT. Commits: what the capture takes, how a refusal is recorded, and what the commit point makes active. -/

namespace Sys2Proof.Machine

/-! ## The capture and the refusal -/

theorem commitWrite_of_free {y : Sys} (hb : y.host.commitBusy = false) (hl : y.lockRefuses = none) (gen : Nat) :
    y.commitWrite gen = (true, y.capture gen) := by
  simp [Sys.commitWrite, hb, hl]

theorem commitWrite_of_locked {y : Sys} (hb : y.host.commitBusy = false) {i : Nat} (hl : y.lockRefuses = some i) (gen : Nat) :
    y.commitWrite gen = (false, ((y.cfgErrD tenPg i).recordErr tenPg 8 i).setPg tenPg 0x4C
      (Word.ofN (i + (gen % 65536) * 4096 + 2147483648))) := by
  simp [Sys.commitWrite, hb, hl]

/-- STAGED_PEND cleared on the pages `ps`. -/
theorem each_setStaged (ps : List Pg) (y : Sys) :
    ∃ m, each (fun g y => y.setStaged g false) ps y = { y with host := { y.host with staged := m } } ∧
      (∀ g ∈ ps, FMap.get false g.base m = false) ∧ ∀ g : Pg, y.stagedPend g = false → FMap.get false g.base m = false := by
  induction ps generalizing y with
  | nil => exact ⟨y.host.staged, rfl, nofun, fun _ h => h⟩
  | cons g r ih =>
    obtain ⟨m, hm, hin, hout⟩ := ih (y.setStaged g false)
    have hkeep : ∀ h, y.stagedPend h = false → (y.setStaged g false).stagedPend h = false := fun h hh => by
      by_cases hb : h.base = g.base
      · rw [Sys.stagedPend, hb]
        exact stagedPend_setStaged_self g false y
      · rwa [stagedPend_setStaged_ne hb]
    exact ⟨m, hm, List.forall_mem_cons.2 ⟨hout g (stagedPend_setStaged_self _ _ _), hin⟩, fun h hh => hout h (hkeep h hh)⟩

/-- What a capture sets (R82). -/
structure Sys.Captured (y t : Sys) (gen : Nat) : Prop where
  frame : t = { y with host := t.host }
  busy : t.host.commitBusy = true
  gen : t.host.commitGen = gen % 65536
  mf : t.host.commitMf = (y.mf + 1) % 4294967296
  pend : ∀ g ∈ stagedPages, t.stagedPend g = false
  regs : t.host.capRegs = (stagedPages.filter y.stagedPend).flatMap fun g => (y.changed g).map fun o =>
    { off := o, val := y.reg o, left := y.governed g o }

theorem captured_capture (gen : Nat) (y : Sys) : y.Captured (y.capture gen) gen := by
  obtain ⟨m, hm, hin, hout⟩ := each_setStaged (stagedPages.filter y.stagedPend) _
  have ht : y.capture gen = _ := hm
  refine ⟨by rw [ht], by rw [ht], by rw [ht], by rw [ht], fun g hg => ?_, by rw [ht]⟩
  rw [ht]
  by_cases hp : y.stagedPend g = true
  · exact hin g (List.mem_filter.2 ⟨hg, hp⟩)
  · exact hout g (Bool.eq_false_of_not_eq_true hp)

/-- A captured register is one whose shadow copy differed, on a page with STAGED_PEND. -/
theorem Sys.Captured.mem {y t : Sys} {gen : Nat} (h : y.Captured t gen) {c : CapReg} (hc : c ∈ t.host.capRegs) :
    ∃ g ∈ stagedPages, y.stagedPend g = true ∧ c.off ∈ y.changed g := by
  rw [h.regs] at hc
  obtain ⟨g, hg, hmem⟩ := List.mem_flatMap.1 hc
  obtain ⟨o, ho, rfl⟩ := List.mem_map.1 hmem
  exact ⟨g, (List.mem_filter.1 hg).1, (List.mem_filter.1 hg).2, ho⟩

theorem Sys.Captured.all {y t : Sys} {gen : Nat} (h : y.Captured t gen) {g : Pg} (hg : g ∈ stagedPages)
    (hp : y.stagedPend g = true) {o : Nat} (ho : o ∈ y.changed g) : ∃ c ∈ t.host.capRegs, c.off = o ∧ c.val = y.reg o := by
  rw [h.regs]
  exact ⟨_, List.mem_flatMap.2 ⟨g, List.mem_filter.2 ⟨hg, hp⟩, List.mem_map_of_mem ho⟩, rfl, rfl⟩

/-- The record of a refused commit on TEN's page (R393). -/
theorem commitRefusal_reports (i gen : Nat) (y : Sys) :
    let t := ((y.cfgErrD tenPg i).recordErr tenPg 8 i).setPg tenPg 0x4C (Word.ofN (i + gen * 4096 + 2147483648))
    y.reportsOnly t ∧ t.pgReg tenPg 0x18 = ((y.pgReg tenPg 0x18).put 3 3 1).put 8 8 1 ∧
      t.pgReg tenPg 0x4C = Word.ofN (i + gen * 4096 + 2147483648) ∧ t.unarmed tenPg = y.unarmed tenPg := by
  refine ⟨reportsOnly_trans (reportsOnly_trans (reportsOnly_recordErr _ _ _ _) (reportsOnly_recordErr _ _ _ _))
    (reportsOnly_setReg _ _ _), ?_, pgReg_setPg_self _ _ _ _, ?_⟩
  · rw [pgReg_setPg_ne _ _ (by decide), recordErr_stat, Sys.cfgErrD, recordErr_stat]
  · rw [unarmed_setPg (by decide), unarmed_recordErr, Sys.cfgErrD, unarmed_recordErr]

/-! ## The commit point -/

/-- Values written into registers of distinct offsets. -/
theorem each_landReg (l : List CapReg) (y : Sys) :
    ∃ m, each (fun (c : CapReg) (y : Sys) => y.setReg (c.off + 0x800) c.val) l y = { y with regs := m } ∧
      (∀ a, (∀ c ∈ l, a ≠ c.off + 0x800) → FMap.get (regReset a) a m = y.reg a) ∧
      ((l.map (·.off)).Nodup → ∀ c ∈ l, FMap.get (regReset (c.off + 0x800)) (c.off + 0x800) m = c.val) := by
  induction l generalizing y with
  | nil => exact ⟨y.regs, rfl, fun _ _ => rfl, fun _ => nofun⟩
  | cons c r ih =>
    obtain ⟨m, hm, hne, hin⟩ := ih (y.setReg (c.off + 0x800) c.val)
    refine ⟨m, hm.trans (by simp only [Sys.setReg]), fun a ha => ?_, fun hnd => ?_⟩
    · obtain ⟨hac, har⟩ := List.forall_mem_cons.1 ha
      exact (hne a har).trans (reg_setReg_ne hac _ _)
    · obtain ⟨hc, hr⟩ := List.nodup_cons.1 hnd
      refine List.forall_mem_cons.2 ⟨?_, hin hr⟩
      refine (hne _ fun d hd h => hc ?_).trans (reg_setReg_self _ _ _)
      exact List.mem_map.2 ⟨d, hd, (Nat.add_right_cancel h).symm⟩

/-- Captured registers that govern no port all become active at the commit point (R83). -/
theorem landRegs_of_free {y : Sys} (h : ∀ c ∈ y.host.capRegs, c.left = []) :
    y.landRegs = each (fun (c : CapReg) (y : Sys) => y.setReg (c.off + 0x800) c.val) y.host.capRegs
      { y with host := { y.host with capRegs := [] } } := by
  have hdone : y.host.capRegs.filter (fun c => c.left.isEmpty) = y.host.capRegs :=
    List.filter_eq_self.2 fun c hc => by simp [h c hc]
  have hleft : y.host.capRegs.filter (fun c => !c.left.isEmpty) = [] :=
    List.filter_eq_nil_iff.2 fun c hc => by simp [h c hc]
  unfold Sys.landRegs
  dsimp only
  rw [hdone, hleft]

/-- With no captured register and no captured table left, a port that applies the commit only leaves the list. -/
theorem applyPort_of_none {y : Sys} (hr : y.host.capRegs = []) (ht : y.host.capTabs = []) (p : Nat) :
    y.applyPort p = { y with host := { y.host with capPorts := y.host.capPorts.filter fun c => c.2 != p } } := by
  simp only [Sys.applyPort, Sys.landRegs, Sys.landTab, hr, ht, List.filter_nil, List.map_nil, each, List.find?_nil]

theorem each_applyPort (ps : List Nat) {y : Sys} (hr : y.host.capRegs = []) (ht : y.host.capTabs = []) :
    each (fun p y => y.applyPort p) ps y =
      { y with host := { y.host with capPorts := y.host.capPorts.filter fun c => !ps.contains c.2 } } := by
  induction ps generalizing y with
  | nil => simp [each]
  | cons p r ih =>
    rw [each, applyPort_of_none hr ht]
    refine (ih (by exact hr) (by exact ht)).trans ?_
    simp [List.filter_filter, Bool.and_comm, bne, beq_eq_decide]

/-- With no device nothing is bound to a queue of another port. -/
theorem misbound_of_empty {y : Sys} (h : y.eng.slots = []) (n : Nat) : y.misbound n = false := by
  simp [Sys.misbound, h]

/-- The binding check of R393's end with no device: only what it remembers of the regions changes. -/
theorem each_noMisbound (l : List Nat) {y : Sys} (h : y.eng.slots = []) :
    ∃ m, each (fun n (y : Sys) =>
      let b := y.on n && y.misbound n
      let was := FMap.get false n y.host.mismatch
      let y := if b && !was then y.recordErr (frmPg n 0) 10 0 else y
      { y with host := { y.host with mismatch := FMap.put false n b y.host.mismatch } }) l y =
      { y with host := { y.host with mismatch := m } } := by
  induction l generalizing y with
  | nil => exact ⟨_, rfl⟩
  | cons n r ih =>
    simp only [each, misbound_of_empty h, Bool.and_false, Bool.false_and, Bool.false_eq_true, if_false]
    obtain ⟨m, hm⟩ := ih (y := { y with host := { y.host with mismatch := FMap.put false n false y.host.mismatch } }) h
    exact ⟨m, hm⟩

theorem commitAnswer_of_idle {y : Sys} (h : y.host.decust.cmds = []) : y.commitAnswer = y := by
  simp [Sys.commitAnswer, Sys.commitKick, h, each]

/-- The end of a commit with nothing left to apply, no command that waits and no device. -/
theorem commitDone_of_idle {y : Sys} (hb : y.host.commitBusy = true) (hp : y.host.commitPast = true) (hr : y.host.capRegs = [])
    (ht : y.host.capTabs = []) (hps : y.host.capPorts = []) (hd : y.host.decust.cmds = []) (hs : y.eng.slots = []) :
    ∃ m, y.commitDone = { y with host := { y.host with
      commitBusy := false, commitPast := false, capPages := [], mismatch := m } } := by
  have hdone : (y.host.commitBusy && y.host.commitPast && y.host.capRegs.isEmpty && y.host.capTabs.isEmpty &&
      y.host.capPorts.isEmpty) = true := by simp [hb, hp, hr, ht, hps]
  unfold Sys.commitDone
  rw [if_pos hdone]
  dsimp only
  rw [commitAnswer_of_idle (by exact hd)]
  exact each_noMisbound _ hs


/-- What the commit point leaves where every captured register governs no port (R83). -/
structure Sys.Activated (y t : Sys) : Prop where
  frame : t = { y with regs := t.regs, host := t.host }
  free : t.host.commitBusy = false
  pages : t.host.capPages = []
  active : (y.host.capRegs.map (·.off)).Nodup → ∀ c ∈ y.host.capRegs, t.reg (c.off + 0x800) = c.val
  rest : ∀ a, (∀ c ∈ y.host.capRegs, a ≠ c.off + 0x800) → t.reg a = y.reg a

theorem activated_commitPoint {y : Sys} (hb : y.host.commitBusy = true) (hp : y.host.commitPast = false)
    (ht : y.host.capTabs = []) (hl : ∀ c ∈ y.host.capRegs, c.left = []) (hsof : ∀ c ∈ y.host.capPorts, (y.frame c.2).sof = false)
    (hd : y.host.decust.cmds = []) (hs : y.eng.slots = []) : y.Activated y.commitPoint := by
  have hcond : (y.host.commitBusy && !y.host.commitPast) = true := by simp [hb, hp]
  unfold Sys.commitPoint
  rw [if_pos hcond]
  dsimp only
  rw [landRegs_of_free (by exact hl)]
  obtain ⟨m, hm, hne, hin⟩ := each_landReg y.host.capRegs { y with host := { y.host with commitPast := true, capRegs := [] } }
  rw [hm]
  dsimp only
  have hports : y.host.capPorts.filter (fun c => !((y.host.capRegs.flatMap (·.left) ++ y.host.capTabs.map (·.1) ++
      y.host.capPorts.map (·.2)).dedup.filter fun p => !(y.frame p).sof).contains c.2) = [] := by
    rw [List.filter_eq_nil_iff]
    intro c hc
    have hmem : c.2 ∈ y.host.capPorts.map (·.2) := List.mem_map_of_mem hc
    simp [hsof c hc, hmem]
  rw [each_applyPort _ (by rfl) (by exact ht)]
  obtain ⟨k, hk⟩ := commitDone_of_idle (y := { y with regs := m, host := { y.host with
    commitPast := true, capRegs := [], capPorts := [] } }) (by exact hb) rfl rfl (by exact ht) rfl (by exact hd) (by exact hs)
  have hdone := (congrArg (fun ps => ({ y with regs := m, host := { y.host with
    commitPast := true, capRegs := [], capPorts := ps } } : Sys).commitDone) hports).trans hk
  refine (congrArg (y.Activated ·) hdone).mpr ⟨rfl, rfl, rfl, hin, hne⟩

/-- Settles O21: the capture, its refusal, and the commit point. -/
theorem commitsCaptureThenActivate : Obligations.commits_capture_then_activate := by
  unfold Obligations.commits_capture_then_activate
  refine ⟨fun s gen hs hp hu hb => ⟨fun hl => ?_, fun i hl => ?_⟩, fun s hops hon hhalt hb hpast htabs hleft hsof hnd hd hsl => ?_⟩
  · have hc := captured_capture gen.val s.sys
    have hcarry : (s.sys.capture gen).carry tenPg = s.sys.capture gen := by
      refine carry_unarmed ?_
      rw [hc.frame]
      exact hu
    refine ⟨s.sys.capture gen, ?_, hc.busy, hc.gen.trans (Nat.mod_eq_of_lt gen.isLt), hc.mf, hc.pend,
      fun g hg hpd o ho => hc.all hg hpd ho, fun c h => hc.mem h, hc.frame⟩
    rw [exec_tenCommit_served hs hp, commitWrite_of_free hb hl, hcarry]
  · obtain ⟨hrep, hstat, hreg, hun⟩ := commitRefusal_reports i gen.val s.sys
    refine ⟨_, ?_, hrep, hstat, hreg⟩
    rw [exec_tenCommit_served hs hp, commitWrite_of_locked hb hl, Nat.mod_eq_of_lt gen.isLt, carry_unarmed (hun.trans hu)]
  · have hexec : exec .commitPoint s = .next { s with sys := s.sys.toCommit.commitPoint } := by
      calc exec .commitPoint s
          = liveSys s fun y => if y.on 16 && !y.halted tenPg && y.host.commitBusy && !y.host.commitPast then
              y.toCommit.commitPoint else y := rfl
        _ = _ := liveSys_ops hops _
        _ = _ := by simp only [hon, hhalt, hb, hpast, Bool.not_false, Bool.and_self, if_true]
    obtain ⟨b, htb⟩ : ∃ b, s.sys.toCommit = { s.sys with tb := b } := by
      unfold Sys.toCommit
      split
      · exact ⟨_, rfl⟩
      · exact ⟨_, rfl⟩
    rw [htb] at hexec
    have ha := activated_commitPoint (y := { s.sys with tb := b }) hb hpast htabs hleft hsof hd hsl
    refine ⟨_, hexec, ha.free, ha.pages, ha.active hnd, ha.rest, ?_⟩
    rw [ha.frame]

end Sys2Proof.Machine

/-! SUPPORT. The NV store: how an arriving write is taken or held, how a held one goes on, and what a durable one changes. -/

namespace Sys2Proof.Machine

/-! ## Writes that arrive -/

/-- A write of an NV register by the manager that is served and let through (R75, R492). -/
theorem exec_nvWrite_served {s : State} {j : Fin 1024} (hs : s.serves .manager = true)
    (hp : s.sys.pageLets .manager (nvPage j) (nvOff j) false = true) (v : Word) :
    exec (.nvWrite .manager j v) s = .next { s with sys := s.sys.nvWrite .manager j v } := by
  calc exec (.nvWrite .manager j v) s
      = liveWin (.nvWrite .manager j v) .manager s (doNvWrite .manager j v) := rfl
    _ = .next { s with sys := doNvWrite .manager j v s.sys } := liveWin_serves hs _ _
    _ = .next { s with sys := s.sys.nvWrite .manager j v } := by rw [doNvWrite, Sys.viaReg, viaPage_manager hp]

/-- What an arriving write leaves, by its cases (R75-R78). -/
theorem nvArrive_eq (j : Nat) (v : Word) (y : Sys) :
    let n := y.nv
    let w : NvW := { reg := j, val := v &&& nvMask j }
    y.nvArrive j v =
      if nvMask j = 0 then y
      else if n.migrating j = true then { y with nv := { n with held := n.held ++ [{ w with once := n.atOnce w }] } }
      else if n.atOnce w = true then y.nvEffect j
      else if n.goesBy w = true then ({ y with nv := { n with bufs := n.bufs ++ [w] } } : Sys).nvEffect j
      else { y with nv := { n with held := n.held ++ [w] } } := by
  simp only [Sys.nvArrive, beq_iff_eq]
  rfl

/-- Settles O11: an arriving write goes by R75's cases; the guard of R492 records ACCESS instead. -/
theorem nvWritesAreTakenOrGuarded : Obligations.nv_writes_are_taken_or_guarded := by
  unfold Obligations.nv_writes_are_taken_or_guarded
  refine ⟨fun s j v hs hp hfree => ?_, fun s j v hs hp hlo hhi hown => ⟨s.sys.accErr (nvPage j), ?_, ?_, ?_⟩⟩
  · have hguard : ¬ (272 ≤ j.val ∧ j.val < 284 ∧ (!s.sys.ownerWrites .manager) = true) := by simpa using hfree
    rw [exec_nvWrite_served hs hp, Sys.nvWrite, if_neg hguard, nvArrive_eq]
  · have hguard : 272 ≤ j.val ∧ j.val < 284 ∧ (!s.sys.ownerWrites .manager) = true := ⟨hlo, hhi, by simp [hown]⟩
    rw [exec_nvWrite_served hs hp, Sys.nvWrite, if_pos hguard]
  · exact reportsOnly_recordErr _ _ _ _
  · exact recordErr_stat _ _ _ _

/-! ## Held writes -/

/-- The first held write, of a register that is not being migrated, takes a free buffer. -/
theorem nvTakeHeld_of_canTake {y : Sys} {w : NvW} {r : List NvW} (hh : y.nv.held = w :: r) (hc : y.nv.canTake w = true)
    (ho : w.once = false) :
    y.nvTakeHeld = (true, ({ y with nv := { y.nv with held := r, bufs := y.nv.bufs ++ [w] } } : Sys).nvEffect w.reg) := by
  have hm : y.nv.migrating w.reg = false := by
    have := (Bool.and_eq_true _ _ ▸ hc).2
    simpa using this
  have hc' : ({ y.nv with held := r } : NvStore).canTake w = true := hc
  simp only [Sys.nvTakeHeld, hh, List.takeWhile_cons, List.dropWhile_cons, hm, Bool.false_eq_true, if_false, List.nil_append,
    Sys.updNv, ho, hc', if_true, Sys.nvAccept]

/-! ## Writes that become durable -/

theorem smbGo_of_idle {y : Sys} (h : y.smb.run = none) (fuel : Nat) : y.smbGo fuel = y := by
  cases fuel with
  | zero => rfl
  | succ n => simp [Sys.smbGo, h]

theorem smbLess_of_idle {y : Sys} (h : y.smb.run = none) (j : Nat) : y.smbLess j = y := by
  simp [Sys.smbLess, h]

/-- Reads that wait change with a durable write, and what is answered; without one nothing does. -/
theorem nvReadsGo_parts (j : Nat) (y : Sys) :
    ∃ rs o, y.nvReadsGo j = { y with nvReads := rs, out := o } ∧ (y.nvReads = [] → rs = y.nvReads ∧ o = y.out) := by
  refine ⟨_, _, rfl, fun h => ?_⟩
  simp [h]

/-- COUNT below the warning threshold gives no warning (R537). -/
theorem nvWarn_of_below {y : Sys} {j : Nat} (h : y.nv.count j < (y.pgReg nvsPg 0x40).fld 6 0 * 10000) : y.nvWarn j = y := by
  have : decide ((y.pgReg nvsPg 0x40).fld 6 0 * 10000 ≤ y.nv.count j) = false := decide_eq_false (Nat.not_le.2 h)
  simp [Sys.nvWarn, this]

/-- The store after its oldest accepted write has become durable (R76). -/
def NvStore.landed (s : NvStore) (w : NvW) (r : List NvW) : NvStore := { s.land w with bufs := r }

theorem count_landed_self {s : NvStore} {w : NvW} (r : List NvW) (h : s.count w.reg < nvLife) :
    (s.landed w r).count w.reg = s.count w.reg + 1 := (count_land_self s w).trans (if_pos h)

/-- The oldest accepted write becomes durable, below the threshold of R537: the store, the activity counts and the reads that waited. -/
theorem nvDurable_below {y : Sys} {w : NvW} {r : List NvW} (hb : y.nv.bufs = w :: r)
    (hw : y.nv.count w.reg + 1 < (y.pgReg nvsPg 0x40).fld 6 0 * 10000) (hl : y.nv.count w.reg + 1 < nvLife)
    (hs : y.smb.run = none) :
    y.nvDurable = (({ y with nv := y.nv.landed w r } : Sys).updMari fun m =>
      { m with cnt := { m.cnt with nvWrites := m.cnt.nvWrites + 1 } }).nvReadsGo w.reg := by
  have hcount : (y.nv.landed w r).count w.reg = y.nv.count w.reg + 1 := count_landed_self r (by omega)
  unfold Sys.nvDurable
  rw [hb]
  dsimp only
  rw [Sys.readsOn, smbLess_of_idle (by exact hs), nvWarn_of_below]
  · exact if_neg fun h => by
      have : (y.nv.landed w r).count w.reg = nvLife := h.2
      omega
  · exact hcount.symm ▸ hw

/-- Settles O12: a held write that finds a buffer is accepted; the oldest accepted one lands. -/
theorem nvWritesMoveOn : Obligations.nv_writes_move_on := by
  unfold Obligations.nv_writes_move_on
  refine ⟨fun s w r hops hh hc ho => ?_, fun s w r hops hb hu hw hl hs => ?_⟩
  · dsimp only
    calc exec .nvWriteAccept s
        = liveSys s (fun y => (if y.nvTakeHeld.1 && y.nvTakeHeld.2.nv.held.isEmpty then y.nvTakeHeld.2.waitRun
            else y.nvTakeHeld.2).smbGo 10) := rfl
      _ = _ := liveSys_ops hops _
      _ = _ := by simp only [nvTakeHeld_of_canTake hh hc ho, Bool.true_and, List.isEmpty_iff]
  · obtain ⟨rs, o, hgo, hnone⟩ := nvReadsGo_parts w.reg (({ s.sys with nv := s.sys.nv.landed w r } : Sys).updMari fun m =>
      { m with cnt := { m.cnt with nvWrites := m.cnt.nvWrites + 1 } })
    have hdur := (nvDurable_below hb hw hl hs).trans hgo
    have hexec : exec .nvWriteDurable s = .next { s with sys := s.sys.nvDurable } := by
      calc exec .nvWriteDurable s
          = liveSys s (fun y => if y.nv.bufs.isEmpty then y else (y.nvDurable.smbGo 10).carry nvsPg) := rfl
        _ = _ := liveSys_ops hops _
        _ = _ := by
          rw [hb, List.isEmpty_cons, hdur, smbGo_of_idle (by exact hs), carry_unarmed (by exact hu)]
          rfl
    refine ⟨_, hexec, ?_⟩
    rw [hdur]
    refine ⟨get_land_self _ _, count_landed_self r (by omega), rfl, fun k hk => ⟨get_land_ne hk.symm _, count_land_ne hk.symm _⟩, ?_⟩
    intro hr
    obtain ⟨rfl, rfl⟩ := hnone hr
    rfl

end Sys2Proof.Machine

/-! SUPPORT. The evaluation of a region's pace: its record, its counters, and the events of its change of state. -/

namespace Sys2Proof.Machine

/-! ## Registers and records that an event leaves alone -/

theorem emit_reg (o : Out) (y : Sys) (a : Nat) : (y.emit o).reg a = y.reg a := by rw [Sys.reg, emit_regs]; rfl

/-- An event for the manager writes registers of IMU's and TEN's pages only. -/
theorem meqEvent_reg {a : Nat} (ha : 0x11000 ≤ a) (v : Option Nat) (e : Ev) (y : Sys) : (y.meqEvent v e).reg a = y.reg a := by
  have hten : ∀ o < 0x1000, a ≠ tenPg.base + o := fun o ho => by
    have : tenPg.base = 0x10000 := rfl
    omega
  have herr : ¬ errTouches tenPg a := by
    have : tenPg.base = 0x10000 := rfl
    unfold errTouches
    omega
  have hput : (y.meqPutEv e).reg a = y.reg a := (reg_setReg_ne (hten 0x70 (by decide)) _ _).trans (emit_reg _ _ _)
  unfold Sys.meqEvent
  split_ifs
  · rfl
  · exact (msix_reg (by omega) _ _).trans hput
  · rfl
  · exact (recordErr_reg herr _ _ _).trans (reg_setReg_ne (hten 0x7C (by decide)) _ _)

theorem base_frmPg (n i : Nat) : (frmPg n i).base = regionBase n + 0x20000 + i * 0x1000 := rfl

theorem regionBase_ge (n : Nat) : 0x100000 ≤ regionBase n := by unfold regionBase; omega

/-- A register of a frame engine's page lies beyond what an event writes. -/
theorem frmPg_past (n i o : Nat) : 0x11000 ≤ (frmPg n i).base + o := by
  have := regionBase_ge n
  rw [base_frmPg]
  omega

/-- Events for the manager while its event queue is disabled wait on chip in order (R615). -/
theorem meqEvent_disabled {y : Sys} (hc : y.contain.chipFault = false) (hd : (y.dom 16).st ≠ .off) (he : y.meqEn = false)
    (hl : y.host.decust.events.length < 256) (v : Option Nat) (e : Ev) :
    y.meqEvent v e = y.updDec fun d => { d with events := d.events ++ [.event e v] } := by
  have hoff : ((y.dom 16).st == .off) = false := beq_false_of_ne hd
  simp [Sys.meqEvent, hc, hoff, he, hl]

/-! ## The fields of the records -/

theorem fldAt_of_lt {lo width v : Nat} (h : v < 2 ^ width) : fldAt lo width v = v * 2 ^ lo := by
  rw [fldAt, Nat.mod_eq_of_lt h]

/-- The lower half of a word in its two bytes. -/
theorem and_low_half (w : Word) : w &&& 0xFFFF#32 = Word.ofN (w.fld 7 0 + w.fld 15 8 * 256) := by
  apply BitVec.eq_of_toNat_eq
  have hmask : (w &&& 0xFFFF#32).toNat = w.toNat % 2 ^ 16 := by
    rw [BitVec.toNat_and]
    exact Nat.and_two_pow_sub_one_eq_mod w.toNat 16
  rw [hmask]
  simp only [Word.ofN, Word.fld, BitVec.toNat_ofNat, Nat.shiftRight_eq_div_pow]
  omega

/-! ## The evaluation -/

/-- A region's pace record after an evaluation that read `v` (R29, R185). -/
def Sys.paceRec (y : Sys) (n v : Nat) : RegPace :=
  { pace := v, eff := max (v - 8) 1, st := paceNext (y.pace n).st (y.pgReg (frmPg n 0) 0x40) v,
    prevEff := max 1 (y.pace n).eff, prevSt := (y.pace n).st, at_ := y.tb + 1 }

/-- The record, and the counter and error of the state entered (R31). -/
def Sys.paceEnter (y : Sys) (n v : Nat) : Sys :=
  let st := paceNext (y.pace n).st (y.pgReg (frmPg n 0) 0x40) v
  let z : Sys := { y with usb := { y.usb with pace := FMap.put {} n (y.paceRec n v) y.usb.pace } }
  if st = (y.pace n).st then z
  else match st with
    | .normal => z
    | .shed => z.incFld (frmPg n 0) 0x64 15 0
    | .stopped => (z.incFld (frmPg n 0) 0x64 31 16).recordErr (frmPg n 0) 8 0

/-- The event `e` of an evaluation that read `v` and gave state `st` (R31). -/
def Sys.paceEv (y : Sys) (n v : Nat) (st : PaceSt) (thr : Word) (e : Nat × Nat) : Ev :=
  { y.ev e.1 0 0 0 [Word.ofN (n + e.2 * 8 + st.code * 16 + v * 256 + max (v - 8) 1 * 65536), thr &&& 0xFFFF#32] with us := 0 }

theorem paceEval_eq (n v : Nat) (y : Sys) :
    y.paceEval n v = each (fun e (t : Sys) => t.meqEvent none
      (t.paceEv n v (paceNext (y.pace n).st (y.pgReg (frmPg n 0) 0x40) v) (y.pgReg (frmPg n 0) 0x40) e))
      (paceEvents (y.pace n).st (paceNext (y.pace n).st (y.pgReg (frmPg n 0) 0x40) v)) (y.paceEnter n v) := rfl

/-- Entering a state changes what an error or a counter changes. -/
theorem tellsOnly_paceEnter (n v : Nat) (y : Sys) :
    ({ y with usb := { y.usb with pace := FMap.put {} n (y.paceRec n v) y.usb.pace } } : Sys).tellsOnly (y.paceEnter n v) := by
  unfold Sys.paceEnter
  dsimp only
  split
  · exact tellsOnly_refl _
  · split
    · exact tellsOnly_refl _
    · exact tellsOnly_incFld _ _ _ _ _
    · exact tellsOnly_trans (tellsOnly_incFld _ _ _ _ _) (tellsOnly_recordErr _ _ _ _)

/-- The whole evaluation changes the region's record, and beyond it only what events and errors change. -/
theorem tellsOnly_paceEval (n v : Nat) (y : Sys) :
    ({ y with usb := { y.usb with pace := FMap.put {} n (y.paceRec n v) y.usb.pace } } : Sys).tellsOnly (y.paceEval n v) := by
  rw [paceEval_eq]
  exact tellsOnly_trans (tellsOnly_paceEnter n v y) (tellsOnly_each (fun e t => tellsOnly_meqEvent _ _ _) _ _)

/-- The registers of a frame engine's page after the evaluation are those of the state entered. -/
theorem paceEval_pgReg (m n v i o : Nat) (y : Sys) : (y.paceEval n v).pgReg (frmPg m i) o = (y.paceEnter n v).pgReg (frmPg m i) o := by
  rw [paceEval_eq]
  refine each_keeps (P := fun t => t.pgReg (frmPg m i) o = (y.paceEnter n v).pgReg (frmPg m i) o) _ ?_ rfl
  exact fun e _ t ht => (meqEvent_reg (frmPg_past m i o) _ _ _).trans ht

/-- The counters of FRM_PACE_CNT (R31, R185). -/
theorem paceEnter_count (n v : Nat) (y : Sys) :
    let new := paceNext (y.pace n).st (y.pgReg (frmPg n 0) 0x40) v
    (y.paceEnter n v).pgReg (frmPg n 0) 0x64 = (if new = (y.pace n).st ∨ new = .normal then y.pgReg (frmPg n 0) 0x64
      else if new = .shed then (y.pgReg (frmPg n 0) 0x64).put 15 0 (satInc 0xFFFF ((y.pgReg (frmPg n 0) 0x64).fld 15 0))
      else (y.pgReg (frmPg n 0) 0x64).put 31 16 (satInc 0xFFFF ((y.pgReg (frmPg n 0) 0x64).fld 31 16))) := by
  intro new
  have hnew : new = paceNext (y.pace n).st (y.pgReg (frmPg n 0) 0x40) v := rfl
  clear_value new
  unfold Sys.paceEnter
  rw [← hnew]
  dsimp only
  by_cases hsame : new = (y.pace n).st
  · rw [if_pos hsame, if_pos (.inl hsame)]
    rfl
  · rw [if_neg hsame]
    cases new with
    | normal => rw [if_pos (.inr rfl)]; rfl
    | shed =>
      rw [if_neg (by simp [hsame]), if_pos rfl]
      exact pgReg_setPg_self _ _ _ _
    | stopped =>
      rw [if_neg (by simp [hsame]), if_neg (by decide)]
      exact (recordErr_pgReg_past_header (by decide) (by decide) _ _ _ _ _).trans (pgReg_setPg_self _ _ _ _)

/-- An entry into STOPPED is the region's error (R31). -/
theorem paceEnter_stopped {n v : Nat} {y : Sys} (hnew : paceNext (y.pace n).st (y.pgReg (frmPg n 0) 0x40) v = .stopped)
    (hold : (y.pace n).st ≠ .stopped) : ((y.paceEnter n v).pgReg (frmPg n 0) 0x18).bit 8 = true := by
  have hne : ¬ PaceSt.stopped = (y.pace n).st := fun h => hold h.symm
  unfold Sys.paceEnter
  rw [hnew]
  simp only [if_neg hne]
  rw [recordErr_stat]
  exact Word.bit_put_self _ (by decide)

/-- Entering a state tells the manager nothing: what waits for it stays. -/
theorem paceEnter_decust (n v : Nat) (y : Sys) : (y.paceEnter n v).host.decust = y.host.decust ∧
    (y.paceEnter n v).meqEn = y.meqEn := by
  have hrep : ({ y with usb := { y.usb with pace := FMap.put {} n (y.paceRec n v) y.usb.pace } } : Sys).reportsOnly (y.paceEnter n v) := by
    unfold Sys.paceEnter
    dsimp only
    split
    · exact reportsOnly_refl _
    · split
      · exact reportsOnly_refl _
      · exact reportsOnly_setReg _ _ _
      · exact reportsOnly_trans (reportsOnly_setReg _ _ _) (reportsOnly_recordErr _ _ _ _)
  have hreg : (y.paceEnter n v).reg (tenPg.base + 0x6C) = y.reg (tenPg.base + 0x6C) := by
    have hb := base_frmPg n 0
    have hr := regionBase_ge n
    have hten : tenPg.base + 0x6C = 0x1006C := rfl
    have hne : tenPg.base + 0x6C ≠ (frmPg n 0).base + 0x64 := by omega
    have herr : ¬ errTouches (frmPg n 0) (tenPg.base + 0x6C) := by
      unfold errTouches
      omega
    unfold Sys.paceEnter
    dsimp only
    split
    · rfl
    · split
      · rfl
      · exact reg_setReg_ne hne _ _
      · exact (recordErr_reg herr _ _ _).trans (reg_setReg_ne hne _ _)
  refine ⟨?_, congrArg (Word.bit · 31) hreg⟩
  rw [hrep]

/-- At most two events come of an evaluation (R31). -/
theorem paceEvents_length (a b : PaceSt) : (paceEvents a b).length ≤ 2 := by
  cases a <;> cases b <;> decide

/-- A stopped region does not resume at once (R29). -/
theorem paceNext_stopped (thr : Word) (v : Nat) : paceNext .stopped thr v ≠ .normal := by
  simp only [paceNext]
  split <;> simp

/-- Events that come while the manager's event queue is disabled wait in order. -/
theorem each_meqEvent_disabled {f : Nat × Nat → Sys → Ev} {g : Nat × Nat → Ev} {l : List (Nat × Nat)} {y : Sys}
    (hf : ∀ e (t : Sys), t.tb = y.tb → f e t = g e) (hc : y.contain.chipFault = false) (hd : (y.dom 16).st ≠ .off)
    (he : y.meqEn = false) (hl : y.host.decust.events.length + l.length ≤ 256) :
    (each (fun e (t : Sys) => t.meqEvent none (f e t)) l y).host.decust.events =
      y.host.decust.events ++ l.map fun e => .event (g e) none := by
  induction l generalizing y with
  | nil => exact (List.append_nil _).symm
  | cons e r ih =>
    simp only [List.length_cons] at hl
    rw [each, meqEvent_disabled hc hd he (by omega), hf e y rfl]
    refine (ih (by exact hf) (by exact hc) (by exact hd) (by exact he) ?_).trans ?_
    · simp only [Sys.updDec, List.length_append, List.length_singleton]
      omega
    · simp [Sys.updDec]

/-- An evaluation in a chip that operates, in a region that is ON and whose page has not halted, comes at the next boundary. -/
theorem exec_paceEvaluation_on {s : State} {n : Fin 8} (hops : s.operates = true) (hon : s.sys.on n = true)
    (hh : s.sys.halted (frmPg n 0) = false) (hc : s.sys.contain.chipFault = false) (v : Fin 256) :
    exec (.paceEvaluation n v) s = .next { s with sys :=
      ({ s.sys with tb := nextBoundary (fun _ => true) s.sys.tb (s.sys.pace n).at_ } : Sys).paceEval n v } := by
  calc exec (.paceEvaluation n v) s
      = liveSys s (fun y => if y.on n && !y.halted (frmPg n 0) && !y.contain.chipFault then
          ({ y with tb := nextBoundary (fun _ => true) y.tb (y.pace n).at_ } : Sys).paceEval n v else y) := rfl
    _ = _ := liveSys_ops hops _
    _ = _ := by simp only [hon, hh, hc, Bool.not_false, Bool.and_self, if_true]

theorem code_lt (st : PaceSt) : st.code < 2 ^ 2 := by cases st <;> decide

/-- FRM_PACE_STAT shows a record of 8-bit values (R185). -/
theorem viewFrm_paceStat {t : Sys} {n : Nat} (hp : (t.pace n).pace < 2 ^ 8) (he : (t.pace n).eff < 2 ^ 8) :
    t.viewFrm n 0 0x44 = some (Word.ofN ((t.pace n).pace + (t.pace n).eff * 256 + (t.pace n).st.code * 65536)) := by
  have hshow : t.viewFrm n 0 0x44 = some (Word.ofN (fldAt 0 8 (t.pace n).pace + fldAt 8 8 (t.pace n).eff +
    fldAt 16 2 (t.pace n).st.code)) := rfl
  rw [hshow, fldAt_of_lt hp, fldAt_of_lt he, fldAt_of_lt (code_lt _)]
  simp

/-- Settles O14: the record and what its state's entry counts, with the events that follow. -/
theorem paceIsJudgedByTheTable : Obligations.pace_is_judged_by_the_table := by
  unfold Obligations.pace_is_judged_by_the_table
  intro s n v hops hon hh hc old thr shed stop new code eff told tb z
  have hnew : paceNext (s.sys.pace n).st (s.sys.pgReg (frmPg n 0) 0x40) v = new := rfl
  have hcode : new.code = code := by cases hn : new <;> simp only [code, hn] <;> rfl
  have htold : paceEvents (s.sys.pace n).st new = told := by
    have hrise : (s.sys.pace n).st = .stopped → new ≠ .normal := fun h => hnew ▸ h ▸ paceNext_stopped _ _
    simp only [told, old]
    clear_value new
    revert hrise
    cases (s.sys.pace n).st <;> cases new <;> simp [paceEvents]
  have htells : ({ z with usb := { z.usb with pace := FMap.put {} n (z.paceRec n v) z.usb.pace } } : Sys).tellsOnly (z.paceEval n v) :=
    tellsOnly_paceEval n v z
  have husb : (z.paceEval n v).usb = { z.usb with pace := FMap.put {} n (z.paceRec n v) z.usb.pace } := by rw [htells]
  have hrec : (z.paceEval n v).pace n = z.paceRec n v := by
    rw [Sys.pace, husb]
    exact FMap.get_put_self _ _ _ _
  have hothers : ∀ m, m ≠ n.val → (z.paceEval n v).pace m = s.sys.pace m := fun m hm => by
    rw [Sys.pace, husb]
    exact FMap.get_put_ne _ hm _ _
  refine ⟨z.paceEval n v, exec_paceEvaluation_on hops hon hh hc v, by rw [htells], by rw [hrec]; rfl, by rw [hrec]; rfl,
    by rw [hrec]; rfl, by rw [hrec]; rfl, ?_, ?_, ?_, ?_, hothers, ?_⟩
  · have heff : max (v.val - 8) 1 < 2 ^ 8 := by omega
    rw [viewFrm_paceStat (by rw [hrec]; exact v.isLt) (by rw [hrec]; exact heff), hrec, ← hcode]
    rfl
  · rw [paceEval_pgReg]
    exact paceEnter_count n v z
  · intro hstop hold
    rw [paceEval_pgReg]
    exact paceEnter_stopped (hnew.trans hstop) hold
  · intro hen hoff hlen
    obtain ⟨hdec, hmeq⟩ := paceEnter_decust n v z
    have htb : (z.paceEnter n v).tb = tb := by rw [tellsOnly_paceEnter n v z]
    have hfault : (z.paceEnter n v).contain = s.sys.contain := by rw [tellsOnly_paceEnter n v z]
    have hdom : (z.paceEnter n v).dom 16 = s.sys.dom 16 := by rw [tellsOnly_paceEnter n v z]; rfl
    have hlen2 := paceEvents_length (s.sys.pace n).st new
    have hword : thr &&& 0xFFFF#32 = Word.ofN (shed + stop * 256) := and_low_half thr
    rw [paceEval_eq]
    refine (each_meqEvent_disabled (g := fun e =>
        { ty := e.1, mf := z.mf, us := 0, slot := 0, port := 0, epid := 0
          p := [Word.ofN (n.val + e.2 * 8 + code * 16 + v.val * 256 + eff * 65536), Word.ofN (shed + stop * 256)] })
      ?_ (by rw [hfault]; exact hc) (by rw [hdom]; exact hoff) (hmeq.trans hen) ?_).trans ?_
    · intro e t ht
      rw [← hword, ← hcode]
      have hmf : t.mf = z.mf := by rw [Sys.mf, ht, htb]; rfl
      simp only [Sys.paceEv, Sys.ev, hmf]
      rfl
    · rw [hdec]
      have : (paceEvents (s.sys.pace n).st new).length + s.sys.host.decust.events.length ≤ 256 := by omega
      rw [Nat.add_comm]
      exact this
    · rw [hdec, ← htold]
      rfl
  · have hpace : (z.paceEval n v).usb.pace = FMap.put {} n (z.paceRec n v) z.usb.pace := by rw [husb]
    rw [hpace]
    exact htells

end Sys2Proof.Machine

/-! SUPPORT. The start of a frame in a state whose captured commit names a register outside the staged pages. -/

namespace Sys2Proof.Machine

/-- A chip in service: every domain ON, the boot over, nothing else of note. -/
def inService : Sys :=
  { doms := (List.range 34).map fun d => (d, { st := .on })
    pins := { perst := false, railen := true, railpg := true }
    ldr := { phase := .ready } }

/-- A full-speed port 3 that sends SOF, at microframe 8, and a commit past its point that has captured the register 0x800 below port 3's
FRM_PORT_CFG: no capture of R82 takes such a register. -/
def strayCapture : State where
  sys := { inService with
    tb := 900
    host := { commitBusy := true, commitPast := true, capRegs := [{ off := (frmPg 0 0).base + 0x8C - 0x800, val := 5, left := [] }] }
    usb := { frame := [(3, { sof := true, speed := .full })], ports := [(3, { st := .enabled, speed := .full })] } }
  pending := []

/-- The index that the frame begun in `strayCapture` has. -/
def strayIndex : Option Nat :=
  match exec (.frameStart 3) strayCapture with
  | .next t => some (t.sys.frame 3).n
  | _ => none

/-- The captured value becomes port 3's PHASE before the index is taken: it is 0 and not 1. -/
theorem strayIndex_eq : strayIndex = some 0 := by decide +kernel

theorem strayCapture_operates : strayCapture.operates = true ∧ strayCapture.sys.linkWorks 3 = true ∧
    (strayCapture.sys.frame 3).sof = true ∧ (strayCapture.sys.frame 3).cur = none ∧ (strayCapture.sys.port 3).susp ≠ .suspending ∧
    (strayCapture.sys.port 3).test ≠ 5 ∧ strayCapture.sys.host.decust.cmds = [] := by decide +kernel

/-- `strayCapture` at port 3's next start. -/
def strayBegins : Sys :=
  { strayCapture.sys with tb := nextBoundary (strayCapture.sys.beginsAt 3) strayCapture.sys.tb (strayCapture.sys.frame 3).at_ }

theorem strayBegins_perIndex : strayBegins.perIndex 3 = 1 := by decide +kernel

/-- Refutes O17: in `strayCapture` the frame's start applies the captured value to FRM_PORT_CFG first, and with the new PHASE the frame
has index 0 where the PHASE before it gives 1. -/
theorem not_idleFrameSendsSof : ¬ Obligations.idle_frame_sends_sof := by
  unfold Obligations.idle_frame_sends_sof
  intro h
  obtain ⟨hops, hlink, hsof, hcur, hsusp, htest, hcmds⟩ := strayCapture_operates
  obtain ⟨⟨t, hexec, ⟨-, -, hn, -⟩, -⟩, -⟩ := h strayCapture 3 hops hlink hsof hcur hsusp htest hcmds
  have hidx : strayIndex = some (t.frame 3).n := by
    unfold strayIndex
    rw [hexec]
  have hn' : (t.frame 3).n = 1 := hn.trans strayBegins_perIndex
  rw [strayIndex_eq, hn'] at hidx
  exact absurd hidx (by decide)

end Sys2Proof.Machine

/-! SUPPORT. The end of a transaction of an ordinary transfer on a port whose frame has nothing more to serve. -/

namespace Sys2Proof.Machine

/-! ## Transfers and endpoints -/

/-- A transfer found by its identity after a change of one that keeps identities. -/
theorem xfer?_updX {f : Xfer → Xfer} (hf : ∀ a, (f a).id = a.id) (id : Nat) (y : Sys) :
    (y.updX id f).xfer? id = (y.xfer? id).map f := by
  have hfind : ∀ l : List Xfer, (l.map fun a => if a.id == id then f a else a).find? (fun a => a.id == id) =
      (l.find? fun a => a.id == id).map f := fun l => by
    induction l with
    | nil => rfl
    | cons a r ih =>
      by_cases ha : a.id = id
      · simp [ha, hf]
      · have hb : (a.id == id) = false := beq_false_of_ne ha
        simp only [List.map_cons, List.find?_cons, hb, Bool.false_eq_true, if_false, ih]
  exact hfind y.host.xfers

theorem xfer?_of_xfers {y t : Sys} (h : t.host.xfers = y.host.xfers) (id : Nat) : t.xfer? id = y.xfer? id := by
  rw [Sys.xfer?, h]
  rfl

theorem xfer?_id {y : Sys} {id : Nat} {z : Xfer} (h : y.xfer? id = some z) : z.id = id := by
  simpa using List.find?_some h

theorem epOf_own {z : Xfer} (h : z.chip = none) (y : Sys) : y.epOf z = (y.slot z.slot).ep z.epid := by
  simp [Sys.epOf, Sys.devOf, h]

theorem updEpX_own {z : Xfer} (h : z.chip = none) (f : Ep → Ep) (y : Sys) : y.updEpX z f = y.updEp z.slot z.epid f := by
  simp [Sys.updEpX, h]

@[simp] theorem ep_updEp_self (n e : Nat) (f : Ep → Ep) (y : Sys) :
    ((y.updEp n e f).slot n).ep e = f ((y.slot n).ep e) := by
  rw [Sys.updEp, updSlot_slot_self]
  exact FMap.get_upd_self _ _ _ _

/-! ## Nothing more to serve -/

/-- The port serves nothing more in this (micro)frame: no periodic entry is due, its queues have ended, and no control transfer of the
chip's own waits on it. -/
def Sys.frameServed (y : Sys) (p : Nat) : Prop :=
  (y.frame p).ended = true ∧ (y.frame p).due = [] ∧ (y.frame p).csp = [] ∧ ∀ a ∈ y.host.xfers, a.port = p → a.chip = none

theorem chooseNext_of_served {y : Sys} {p : Nat} (h : y.frameServed p) : y.chooseNext p = y := by
  obtain ⟨hend, hdue, hcsp, hchip⟩ := h
  have hnone : (y.host.xfers.filter fun x => x.port == p && x.chip.isSome && x.fin.isNone && x.cut.isNone) = [] :=
    List.filter_eq_nil_iff.2 fun a ha => by
      by_cases hp : a.port = p
      · simp [hchip a ha hp]
      · simp [hp]
  have hchipStep : y.chipStep p = y := by
    unfold Sys.chipStep
    dsimp only
    rw [hnone]
    exact ite_self _
  have hserve : y.serviceStep p = y := by simp [Sys.serviceStep, hend]
  unfold Sys.chooseNext
  dsimp only
  rw [hdue, hcsp, show y.periodicStep p (([] : List Nat).length + ([] : List Nat).length) = y from rfl, hchipStep, hserve]
  exact ite_self _

/-! ## Halted hub endpoints -/

theorem strikeFaults_of_known {y : Sys} {p : Nat} {before : List (Nat × Nat)} (h : ∀ k ∈ y.hubsHalted p, k ∈ before) :
    y.strikeFaults p before = y := by
  have hnone : (y.hubsHalted p).filter (fun k => !before.contains k) = [] :=
    List.filter_eq_nil_iff.2 fun k hk => by simp [h k hk]
  unfold Sys.strikeFaults
  rw [hnone]
  rfl

theorem mem_hubsHalted {y : Sys} {p : Nat} {k : Nat × Nat} :
    k ∈ y.hubsHalted p ↔ ∃ sl, (k.1, sl) ∈ y.eng.slots ∧ sl.used = true ∧ sl.port = p ∧
      ∃ e, (k.2, e) ∈ sl.eps ∧ e.chip = true ∧ e.halted = true := by
  obtain ⟨n, m⟩ := k
  unfold Sys.hubsHalted
  simp only [List.mem_flatMap, Prod.exists]
  constructor
  · rintro ⟨n', sl, hsl, h⟩
    split at h
    · next hc =>
      simp only [List.mem_map, List.mem_filter, Bool.and_eq_true, Prod.exists, Prod.mk.injEq] at h
      obtain ⟨m', e, ⟨he, hchip, hhalt⟩, rfl, rfl⟩ := h
      simp only [Bool.and_eq_true, beq_iff_eq] at hc
      exact ⟨sl, hsl, hc.1, hc.2, e, he, hchip, hhalt⟩
    · cases h
  · rintro ⟨sl, hsl, hu, hp, e, he, hchip, hhalt⟩
    refine ⟨n, sl, hsl, ?_⟩
    rw [if_pos (by simp [hu, hp])]
    exact List.mem_map.2 ⟨(m, e), List.mem_filter.2 ⟨he, by simp [hchip, hhalt]⟩, rfl⟩

theorem hubsHalted_of_slots {y t : Sys} (h : t.eng.slots = y.eng.slots) (p : Nat) : t.hubsHalted p = y.hubsHalted p := by
  rw [Sys.hubsHalted, h]
  rfl

/-- Nothing is armed by what leaves the registers alone. -/
theorem unarmed_of_regs {y t : Sys} (h : t.regs = y.regs) (g : Pg) : t.unarmed g = y.unarmed g :=
  unarmed_congr (fun q => by rw [Sys.pgReg, Sys.reg, h]; rfl) g

/-- What a map lists under a key after one update: what it listed, or the changed entry. -/
theorem mem_upd {α : Type} [DecidableEq α] {d : α} {k j : Nat} {f : α → α} {m : FMap α} {v : α} (h : (j, v) ∈ FMap.upd d k f m) :
    (j, v) ∈ m ∨ (j = k ∧ v = f (FMap.get d k m) ∧ v ≠ d) := by
  unfold FMap.upd FMap.put at h
  split at h
  · exact .inl (FMap.mem_del h).1
  · next hne =>
    obtain h | h := FMap.mem_ins h
    · cases h
      exact .inr ⟨rfl, rfl, hne⟩
    · exact .inl (FMap.mem_del h).1

/-- A map holds what it gives, unless that is the default. -/
theorem get_mem {α : Type} {d : α} {k : Nat} {m : FMap α} (h : FMap.get d k m ≠ d) : (k, FMap.get d k m) ∈ m := by
  induction m with
  | nil => exact absurd rfl h
  | cons a r ih =>
    obtain ⟨i, w⟩ := a
    by_cases hk : i = k
    · subst hk
      simp [FMap.get]
    · simp only [FMap.get, hk, if_false] at h ⊢
      exact List.mem_cons_of_mem _ (ih h)

/-- Changing an endpoint's toggle or PING state halts no hub's endpoint. -/
theorem hubsHalted_updEp {f : Ep → Ep} (hc : ∀ e, (f e).chip = e.chip) (hh : ∀ e, (f e).halted = e.halted) {y : Sys} {n e p : Nat}
    {k : Nat × Nat} (h : k ∈ (y.updEp n e f).hubsHalted p) : k ∈ y.hubsHalted p := by
  rw [mem_hubsHalted] at h ⊢
  obtain ⟨sl, hsl, hu, hp, z, hz, hchip, hhalt⟩ := h
  have hsl' : (k.1, sl) ∈ FMap.upd {} n (fun s : Slot => { s with eps := FMap.upd {} e f s.eps }) y.eng.slots := hsl
  obtain hold | ⟨hk, hval, -⟩ := mem_upd hsl'
  · exact ⟨sl, hold, hu, hp, z, hz, hchip, hhalt⟩
  · subst hval
    have hmem : (k.1, FMap.get {} n y.eng.slots) ∈ y.eng.slots := by
      rw [hk]
      refine get_mem fun hd => ?_
      have hused : (FMap.get ({} : Slot) n y.eng.slots).used = true := hu
      rw [hd] at hused
      cases hused
    refine ⟨_, hmem, hu, hp, ?_⟩
    obtain hz' | ⟨hke, hzv, -⟩ := mem_upd hz
    · exact ⟨z, hz', hchip, hhalt⟩
    · subst hzv
      rw [hc] at hchip
      rw [hh] at hhalt
      refine ⟨_, ?_, hchip, hhalt⟩
      rw [hke]
      refine get_mem fun hd => ?_
      rw [hd] at hchip
      cases hchip

/-! ## The end on the wire -/

/-- Port `p`'s wire is free, at position `x`. -/
def Sys.wireFree (p x : Nat) (y : Sys) : Sys := y.updFrame p fun f => { f with x := x, cur := none }

theorem frame_wireFree_self (p x : Nat) (y : Sys) : (y.wireFree p x).frame p = { y.frame p with x := x, cur := none } :=
  updFrame_frame_self _ _ _

/-- A packet without a word of bad parity is not aborted for poison (R234). -/
theorem outcomeOf_of_clean {y : Sys} {p : Nat} (h : ∀ k ∈ (y.fifo p).tx, k.bad = []) (c : CurTx) (out : Outcome) :
    y.outcomeOf p c out = out := by
  unfold Sys.outcomeOf
  split
  · next x t hx ht =>
    have hbad : t.bad = [] := h t (List.mem_of_find?_eq_some ht)
    simp [TxPkt.badFrom, hbad]
  · rfl

theorem cutNow_of_uncut {y : Sys} {id : Nat} {z : Xfer} (hz : y.xfer? id = some z) (hc : z.cut = none) : y.cutNow id = y := by
  simp only [Sys.cutNow, hz, hc]

/-- The end of a served transaction without a split, of a transfer that goes on, with nothing more to serve: the transfer's step, with
the wire free. -/
theorem wireEnd_served {y w : Sys} {p x : Nat} {out : Outcome} {c : CurTx} {z v : Xfer} (hcur : (y.frame p).cur = some c)
    (hkind : c.kind = .service) (hz : y.xfer? c.xid = some z) (hfin : z.fin = none) (hs : c.form ≠ .ssplit) (hcs : c.form ≠ .csplit)
    (hclean : ∀ k ∈ (y.fifo p).tx, k.bad = []) (hw : (y.wireFree p x).plainEnd p z c out = w) (hv : w.xfer? c.xid = some v)
    (hcut : v.cut = none) (halways : v.always = false) (hserved : w.frameServed p) : y.wireEnd p out x = w := by
  have hfree : (y.updFrame p fun f => { f with x := x, per := if c.kind = .periodic then f.per + (x - f.x) else f.per, cur := none }) =
      y.wireFree p x := by
    rw [hkind]
    rfl
  have hz' : (y.wireFree p x).xfer? c.xid = some z := hz
  have hgo : goesOn v c out = false := by simp [goesOn, hkind]
  unfold Sys.wireEnd
  dsimp only
  rw [hcur]
  dsimp only
  rw [outcomeOf_of_clean hclean, hfree, hz']
  dsimp only
  rw [hfin]
  simp only [Option.isSome_none, Bool.false_eq_true, if_false]
  rw [hw, cutNow_of_uncut hv hcut, hv]
  simp only [hgo, halways, Bool.false_and, Bool.false_eq_true, if_false]
  exact chooseNext_of_served hserved

/-- The end of a transaction on a link that works and has no injection armed, where it halts no further endpoint of a hub. -/
theorem exec_transactionEnd_on {s : State} {p : Fin 128} {out : Outcome} {x : Nat} {c : CurTx} {w : Sys} (hops : s.operates = true)
    (hlink : s.sys.linkWorks p = true) (hcur : (s.sys.frame p).cur = some c) (hw : s.sys.wireEnd p out x = w)
    (hhubs : ∀ k ∈ w.hubsHalted p, k ∈ s.sys.hubsHalted p) (hun : w.unarmed (lnkPg p) = true) :
    exec (.transactionEnd p out x) s = .next { s with sys := w } := by
  have hend : s.sys.transEnd p out x = w := by
    unfold Sys.transEnd
    dsimp only
    rw [hw]
    exact strikeFaults_of_known fun k hk => List.mem_append_left _ (hhubs k hk)
  calc exec (.transactionEnd p out x) s
      = liveSys s (fun y => if y.linkWorks p then
          (if (y.frame p).cur.isSome then (y.transEnd p out x).carry (lnkPg p) else y.transEnd p out x) else y) := rfl
    _ = _ := liveSys_ops hops _
    _ = _ := by simp only [hlink, hcur, Option.isSome_some, if_true, hend, carry_unarmed hun]

/-! ## The outcomes -/

/-- A NAK to an IN that is not isochronous, of a bulk or control endpoint: the endpoint is not asked again in this frame (R166). -/
theorem plainEnd_in_nak {z : Xfer} {c : CurTx} (hf : c.form = .in_) (hty : z.ty ≠ 3) {y : Sys}
    (hep : (y.epOf z).ty = .bulk ∨ (y.epOf z).ty = .control) (hz : y.xfer? z.id = some z) (ha : z.always = false) (p : Nat) :
    y.plainEnd p z c .nak = (y.strikesOff z.id).nakked p z := by
  have hnorm : y.normRelease z.id = y := by simp [Sys.normRelease, hz, ha]
  have hsvc : ((y.epOf z).ty == .control || (y.epOf z).ty == .bulk) = true := by
    obtain h | h := hep <;> simp [h]
  unfold Sys.plainEnd
  rw [hf]
  simp only [hty, if_false, hnorm, hsvc, if_true]

/-- An ACK to a PING: data may follow (R171). -/
theorem plainEnd_ping_ack {z : Xfer} {c : CurTx} (hf : c.form = .ping) (hch : z.chip = none) (p : Nat) (y : Sys) :
    y.plainEnd p z c .ack = (y.strikesOff z.id).updEp z.slot z.epid fun e => { e with ping := false } := by
  unfold Sys.plainEnd
  rw [hf]
  simp only [updEpX_own hch]

/-- An ACK to a SETUP: the packet is released, and the next stage opens at toggle 1 (R97, R229). -/
theorem plainEnd_setup_ack {z : Xfer} {c : CurTx} (hf : c.form = .setup) (hst : z.stage = .setup) (hch : z.chip = none) (p : Nat)
    (y : Sys) :
    y.plainEnd p z c .ack = ((y.txRelease p c.pkt).updX z.id fun a =>
      { a with strikes := 0, stage := if a.total = 0 then .status else .data }).updEp z.slot z.epid fun e => { e with tog := true } := by
  unfold Sys.plainEnd
  rw [hf]
  simp [Sys.outTaken, hst, updEpX_own hch]

theorem reclaimGo_age (busy : Nat → Bool) (l : List TxPkt) (f : Fifo) : (reclaimGo busy f l).age = f.age := by
  induction l generalizing f with
  | nil => rfl
  | cons t r ih =>
    unfold reclaimGo
    split
    · exact ih _
    · rfl

/-- Nothing but the staging FIFOs differs. -/
def Sys.FifoOnly (y t : Sys) : Prop := ∃ m, t = { y with usb := { y.usb with fifo := m } }

theorem Sys.FifoOnly.trans {a b c : Sys} (h : a.FifoOnly b) (k : b.FifoOnly c) : a.FifoOnly c := by
  obtain ⟨m, rfl⟩ := h
  obtain ⟨n, rfl⟩ := k
  exact ⟨n, rfl⟩

theorem fifoOnly_updFifo (p : Nat) (f : Fifo → Fifo) (y : Sys) : y.FifoOnly (y.updFifo p f) := ⟨_, rfl⟩

theorem fifoOnly_evalMarks (p : Nat) (y : Sys) : y.FifoOnly (y.evalMarks p) := fifoOnly_updFifo _ _ _

theorem fifoOnly_reclaimTx (p : Nat) (y : Sys) : y.FifoOnly (y.reclaimTx p) :=
  (fifoOnly_updFifo _ _ _).trans (fifoOnly_evalMarks _ _)

/-- What a packet's release leaves: the port's FIFO alone, while no packet of it has aged (R228, R229, R232). -/
theorem fifoOnly_txRelease {p : Nat} {y : Sys} (h : (y.fifo p).age = 0) (num : Nat) : y.FifoOnly (y.txRelease p num) := by
  have hage : ((((y.updTx p num fun t => { t with st := .done }).reclaimTx p).evalMarks p).fifo p).age = 0 := by
    simp only [Sys.evalMarks, Sys.reclaimTx, Sys.updTx, updFifo_fifo_self, Fifo.txFall, reclaimGo_age, h]
  have hsame : (((y.updTx p num fun t => { t with st := .done }).reclaimTx p).evalFifo p) =
      (((y.updTx p num fun t => { t with st := .done }).reclaimTx p).evalMarks p) := by
    unfold Sys.evalFifo
    dsimp only
    rw [hage]
    split
    · refine if_neg ?_
      simp only [Bool.and_eq_true, decide_eq_true_eq]
      omega
    · rfl
  have honly : y.FifoOnly ((((y.updTx p num fun t => { t with st := .done }).reclaimTx p).evalMarks p)) :=
    ((fifoOnly_updFifo _ _ _).trans (fifoOnly_reclaimTx _ _)).trans (fifoOnly_evalMarks _ _)
  rwa [← hsame] at honly

/-! ## The statement -/

theorem map_strikes_chip {l : List Xfer} {p id : Nat} (h : ∀ a ∈ l, a.port = p → a.chip = none) {f : Xfer → Xfer}
    (hp : ∀ a, (f a).port = a.port) (hc : ∀ a, (f a).chip = a.chip) :
    ∀ a ∈ l.map (fun a => if a.id == id then f a else a), a.port = p → a.chip = none := by
  intro a ha hap
  obtain ⟨b, hb, rfl⟩ := List.mem_map.1 ha
  by_cases hb' : (b.id == id) = true
  · rw [if_pos hb'] at hap ⊢
    exact (hc b).trans (h b hb ((hp b).symm.trans hap))
  · rw [if_neg hb'] at hap ⊢
    exact h b hb hap

/-- What the answered transaction changes of the transfers: an answer ends a row of errors (R107). -/
theorem xfer?_strikesOff {id : Nat} {y : Sys} {z : Xfer} (h : y.xfer? id = some z) :
    (y.strikesOff id).xfer? id = some { z with strikes := 0 } := by
  exact (xfer?_updX (f := fun x => { x with strikes := 0 }) (fun _ => rfl) id y).trans (congrArg _ h)

/-- The transfers with the row of errors of transfer `id` ended. -/
def calmed (id : Nat) (l : List Xfer) : List Xfer := l.map fun a => if a.id == id then { a with strikes := 0 } else a

/-- Port `p` has nothing more to serve once its wire is free (R144). -/
structure Sys.WireLast (y : Sys) (p : Nat) : Prop where
  ended : (y.frame p).ended = true
  due : (y.frame p).due = []
  csp : (y.frame p).csp = []
  chips : ∀ a ∈ y.host.xfers, a.port = p → a.chip = none

/-- So it is after a step that keeps the frame's lists and every transfer's port and kind. -/
theorem Sys.WireLast.served {y w : Sys} {p : Nat} (f : Xfer → Xfer) (id : Nat) (h : y.WireLast p)
    (he : (w.frame p).ended = (y.frame p).ended) (hd : (w.frame p).due = (y.frame p).due) (hc : (w.frame p).csp = (y.frame p).csp)
    (hx : w.host.xfers = y.host.xfers.map fun a => if a.id == id then f a else a) (hp : ∀ a, (f a).port = a.port)
    (hk : ∀ a, (f a).chip = a.chip) : w.frameServed p :=
  ⟨he.trans h.ended, hd.trans h.due, hc.trans h.csp, hx ▸ map_strikes_chip h.chips hp hk⟩

/-- After a NAK (R166). -/
def Sys.nakEnd (p x : Nat) (z : Xfer) (y : Sys) : Sys := ((y.wireFree p x).strikesOff z.id).nakked p z

theorem nakEnd_frame (p x : Nat) (z : Xfer) (y : Sys) :
    (y.nakEnd p x z).frame p = { y.frame p with cur := none, x := x, naked := z.nakKey :: (y.frame p).naked } := by
  simp only [Sys.nakEnd, Sys.nakked, Sys.strikesOff, Sys.updX, updFrame_frame_self, mapX_frame, frame_wireFree_self]

theorem nakEnd_frame_ne {p q : Nat} (h : q ≠ p) (x : Nat) (z : Xfer) (y : Sys) : (y.nakEnd p x z).frame q = y.frame q := by
  rw [Sys.nakEnd, Sys.nakked, updFrame_frame_ne h]
  exact updFrame_frame_ne h _ _

theorem nakEnd_eq (p x : Nat) (z : Xfer) (y : Sys) : y.nakEnd p x z = { y with
    usb := { y.usb with frame := (y.nakEnd p x z).usb.frame }, host := { y.host with xfers := calmed z.id y.host.xfers } } := by
  simp only [Sys.nakEnd, Sys.nakked, Sys.strikesOff, Sys.wireFree, Sys.updFrame, Sys.updX, Sys.mapX, calmed]

theorem xfer?_nakEnd {p x : Nat} {z : Xfer} {y : Sys} (h : y.xfer? z.id = some z) :
    (y.nakEnd p x z).xfer? z.id = some { z with strikes := 0 } := by
  rw [xfer?_of_xfers (y := y.strikesOff z.id) (t := y.nakEnd p x z) rfl, xfer?_strikesOff h]

theorem nakEnd_regs (p x : Nat) (z : Xfer) (y : Sys) : (y.nakEnd p x z).regs = y.regs := by
  simp [Sys.nakEnd, Sys.nakked, Sys.strikesOff, Sys.updX, Sys.wireFree]

theorem nakEnd_xfers (p x : Nat) (z : Xfer) (y : Sys) : (y.nakEnd p x z).host.xfers = calmed z.id y.host.xfers := rfl

/-- After an ACK to a PING (R171). -/
def Sys.pingEnd (p x : Nat) (z : Xfer) (y : Sys) : Sys :=
  ((y.wireFree p x).strikesOff z.id).updEp z.slot z.epid fun e => { e with ping := false }

theorem pingEnd_frame (p x : Nat) (z : Xfer) (y : Sys) : (y.pingEnd p x z).frame p = { y.frame p with cur := none, x := x } :=
by
  rw [Sys.pingEnd, Sys.updEp, Sys.strikesOff, Sys.updX, updSlot_frame, mapX_frame, frame_wireFree_self]

theorem pingEnd_eq (p x : Nat) (z : Xfer) (y : Sys) : y.pingEnd p x z = { y with
    usb := { y.usb with frame := (y.pingEnd p x z).usb.frame }, host := { y.host with xfers := calmed z.id y.host.xfers },
    eng := (y.pingEnd p x z).eng } := by
  simp only [Sys.pingEnd, Sys.updEp, Sys.updSlot, Sys.strikesOff, Sys.wireFree, Sys.updFrame, Sys.updX, Sys.mapX, calmed]

theorem xfer?_pingEnd {p x : Nat} {z : Xfer} {y : Sys} (h : y.xfer? z.id = some z) :
    (y.pingEnd p x z).xfer? z.id = some { z with strikes := 0 } := by
  rw [xfer?_of_xfers (y := y.strikesOff z.id) (t := y.pingEnd p x z) rfl, xfer?_strikesOff h]

theorem pingEnd_slot_ep (p x : Nat) (z : Xfer) (y : Sys) :
    ((y.pingEnd p x z).slot z.slot).ep z.epid = { (y.slot z.slot).ep z.epid with ping := false } := by
  rw [Sys.pingEnd, ep_updEp_self]
  rfl

theorem pingEnd_slot_ne (p x : Nat) (z : Xfer) (y : Sys) {n : Nat} (h : n ≠ z.slot) : (y.pingEnd p x z).slot n = y.slot n := by
  rw [Sys.pingEnd, Sys.updEp, updSlot_slot_ne h]
  rfl

theorem pingEnd_regs (p x : Nat) (z : Xfer) (y : Sys) : (y.pingEnd p x z).regs = y.regs := by
  simp [Sys.pingEnd, Sys.updEp, Sys.strikesOff, Sys.updX, Sys.wireFree]

theorem pingEnd_xfers (p x : Nat) (z : Xfer) (y : Sys) : (y.pingEnd p x z).host.xfers = calmed z.id y.host.xfers := rfl

/-- After an ACK to a SETUP, with the FIFOs `m` (R97, R229). -/
def Sys.setupEnd (p x : Nat) (m : FMap Fifo) (z : Xfer) (y : Sys) : Sys :=
  ((({ y.wireFree p x with usb := { (y.wireFree p x).usb with fifo := m } } : Sys).updX z.id fun a =>
    { a with strikes := 0, stage := if a.total = 0 then .status else .data }).updEp z.slot z.epid fun e => { e with tog := true })

theorem setupEnd_frame (p x : Nat) (m : FMap Fifo) (z : Xfer) (y : Sys) :
    (y.setupEnd p x m z).frame p = { y.frame p with cur := none, x := x } := by
  rw [Sys.setupEnd, Sys.updEp, Sys.updX, updSlot_frame, mapX_frame]
  exact frame_wireFree_self p x y

theorem setupEnd_kept (p x : Nat) (m : FMap Fifo) (z : Xfer) (y : Sys) :
    (y.setupEnd p x m z).regs = y.regs ∧ (y.setupEnd p x m z).out = y.out := by
  simp [Sys.setupEnd, Sys.updEp, Sys.updX, Sys.wireFree]

theorem xfer?_setupEnd {p x : Nat} (m : FMap Fifo) {z : Xfer} {y : Sys} (h : y.xfer? z.id = some z) :
    (y.setupEnd p x m z).xfer? z.id = some { z with strikes := 0, stage := if z.total = 0 then .status else .data } := by
  have hx := xfer?_updX (f := fun a => { a with strikes := 0, stage := if a.total = 0 then .status else .data }) (fun _ => rfl) z.id y
  rw [h] at hx
  rw [xfer?_of_xfers (t := y.setupEnd p x m z) (y := y.updX z.id fun a =>
    { a with strikes := 0, stage := if a.total = 0 then .status else .data }) rfl, hx]
  rfl

theorem setupEnd_slot_ep (p x : Nat) (m : FMap Fifo) (z : Xfer) (y : Sys) : (((y.setupEnd p x m z).slot z.slot).ep z.epid).tog = true := by
  rw [Sys.setupEnd, ep_updEp_self]

/-- Settles O23: the wire is freed, the transfer moves as its outcome says, and nothing more is served. -/
theorem transactionsEndAsReported : Obligations.transactions_end_as_reported := by
  unfold Obligations.transactions_end_as_reported
  intro s p x c z hops hlink hcur hkind hz hfin hcut halways hchip hchips hclean hend hdue hcsp hun
  have hid := xfer?_id hz
  rw [← hid]
  intro f ep calm
  have hlast : s.sys.WireLast p := ⟨hend, hdue, hcsp, hchips⟩
  have hep : (s.sys.wireFree p x).epOf z = ep := epOf_own hchip _
  have hz' : s.sys.xfer? z.id = some z := by rw [hid]; exact hz
  have hzw : (s.sys.wireFree p x).xfer? z.id = some z := (xfer?_of_xfers (t := s.sys.wireFree p x) (y := s.sys) rfl z.id).trans hz'
  refine ⟨fun hform hty h3 => ?_, fun hform => ?_, fun hform hstage hage => ?_⟩
  · have hplain : (s.sys.wireFree p x).plainEnd p z c .nak = s.sys.nakEnd p x z :=
      plainEnd_in_nak hform h3 (by rw [hep]; exact hty) hzw halways p
    have hframe := nakEnd_frame p x z s.sys
    have hv : (s.sys.nakEnd p x z).xfer? c.xid = some { z with strikes := 0 } := by rw [← hid]; exact xfer?_nakEnd hz'
    have hserved : (s.sys.nakEnd p x z).frameServed p := hlast.served (fun a => { a with strikes := 0 }) z.id (by rw [hframe])
      (by rw [hframe]) (by rw [hframe]) (nakEnd_xfers _ _ _ _) (fun _ => rfl) fun _ => rfl
    have hwire := wireEnd_served hcur hkind hz hfin (by simp [hform]) (by simp [hform]) hclean hplain hv hcut
      halways hserved
    have hexec := exec_transactionEnd_on hops hlink hcur hwire (fun k hk => by rwa [hubsHalted_of_slots (t := s.sys.nakEnd p x z) (y := s.sys) rfl] at hk)
      ((unarmed_of_regs (nakEnd_regs p x z s.sys) _).trans hun)
    exact ⟨s.sys.nakEnd p x z, hexec, hframe, fun q hq => nakEnd_frame_ne hq _ _ _, nakEnd_eq _ _ _ _⟩
  · have hplain : (s.sys.wireFree p x).plainEnd p z c .ack = s.sys.pingEnd p x z := plainEnd_ping_ack hform hchip p _
    have hframe := pingEnd_frame p x z s.sys
    have hv : (s.sys.pingEnd p x z).xfer? c.xid = some { z with strikes := 0 } := by rw [← hid]; exact xfer?_pingEnd hz'
    have hserved : (s.sys.pingEnd p x z).frameServed p := hlast.served (fun a => { a with strikes := 0 }) z.id (by rw [hframe])
      (by rw [hframe]) (by rw [hframe]) (pingEnd_xfers _ _ _ _) (fun _ => rfl) fun _ => rfl
    have hwire := wireEnd_served hcur hkind hz hfin (by simp [hform]) (by simp [hform]) hclean hplain hv hcut
      halways hserved
    have hhubs : ∀ k ∈ (s.sys.pingEnd p x z).hubsHalted p, k ∈ s.sys.hubsHalted p := fun k hk => by
      have := hubsHalted_updEp (f := fun e => { e with ping := false }) (y := (s.sys.wireFree p x).strikesOff z.id) (fun _ => rfl)
        (fun _ => rfl) hk
      rwa [hubsHalted_of_slots (t := (s.sys.wireFree p x).strikesOff z.id) (y := s.sys) rfl] at this
    have hexec := exec_transactionEnd_on hops hlink hcur hwire hhubs ((unarmed_of_regs (pingEnd_regs p x z s.sys) _).trans hun)
    exact ⟨s.sys.pingEnd p x z, hexec, hframe, pingEnd_slot_ep _ _ _ _, fun n hn => pingEnd_slot_ne _ _ _ _ hn, pingEnd_eq _ _ _ _⟩
  · obtain ⟨m, hm⟩ := fifoOnly_txRelease (y := s.sys.wireFree p x) hage c.pkt
    have hplain : (s.sys.wireFree p x).plainEnd p z c .ack = s.sys.setupEnd p x m z := by
      rw [plainEnd_setup_ack hform hstage hchip, hm, Sys.setupEnd]
    have hframe := setupEnd_frame p x m z s.sys
    have hv : (s.sys.setupEnd p x m z).xfer? c.xid = some { z with
        strikes := 0, stage := if z.total = 0 then .status else .data } := by rw [← hid]; exact xfer?_setupEnd m hz'
    have hserved : (s.sys.setupEnd p x m z).frameServed p := hlast.served
      (fun a => { a with strikes := 0, stage := if a.total = 0 then .status else .data }) z.id (by rw [hframe])
      (by rw [hframe]) (by rw [hframe]) rfl (fun _ => rfl) fun _ => rfl
    have hwire := wireEnd_served hcur hkind hz hfin (by simp [hform]) (by simp [hform]) hclean hplain hv hcut halways hserved
    have hhubs : ∀ k ∈ (s.sys.setupEnd p x m z).hubsHalted p, k ∈ s.sys.hubsHalted p := fun k hk => by
      rw [Sys.setupEnd] at hk
      have := hubsHalted_updEp (f := fun e => { e with tog := true }) (fun _ => rfl) (fun _ => rfl) hk
      rwa [hubsHalted_of_slots (y := s.sys) (by rfl)] at this
    have hexec := exec_transactionEnd_on hops hlink hcur hwire hhubs ((unarmed_of_regs (setupEnd_kept p x m z s.sys).1 _).trans hun)
    refine ⟨s.sys.setupEnd p x m z, hexec, by rw [hframe], by rw [hframe], setupEnd_slot_ep _ _ _ _ _, ?_, (setupEnd_kept ..).2, (setupEnd_kept ..).1⟩
    rw [hid, hv]
    rfl

end Sys2Proof.Machine

/-! SUPPORT. A repeated IN packet for a transfer that has an error behind it. -/

namespace Sys2Proof.Machine

/-- The transfer of `repeatedIn`: one strike counts against it. -/
def struckXfer : Xfer := { id := 1, port := 5, slot := 1, epid := 16, total := 512, begun := true, strikes := 1 }

/-- The IN transaction on the wire of `repeatedIn`. -/
def struckTx : CurTx := { xid := 1, form := .in_ }

/-- Port 5 with an IN transaction of `struckXfer` on its wire, whose endpoint awaits DATA0. -/
def repeatedIn : State where
  sys := { inService with
    host := { xfers := [struckXfer] }
    usb := { frame := [(5, { sof := true, speed := .high, cur := some struckTx })] }
    eng := { slots := [(1, { used := true, port := 5, eps := [(16, { ty := .bulk, mps := 64 })] })] } }
  pending := []

/-- The strikes of the transfers after DATA1 has come in `repeatedIn`. -/
def repeatedStrikes : Option (List Nat) :=
  match exec (.inPacket 5 [] .data1 true) repeatedIn with
  | .next t => some (t.sys.host.xfers.map (·.strikes))
  | _ => none

/-- An answer ends the row of errors (R107). -/
theorem repeatedStrikes_eq : repeatedStrikes = some [0] := by decide +kernel

theorem repeatedIn_awaits : repeatedIn.operates = true ∧ (repeatedIn.sys.frame 5).cur = some struckTx ∧
    repeatedIn.sys.xfer? struckTx.xid = some struckXfer ∧ struckXfer.token = .in_ ∧ repeatedIn.sys.unarmed (fifPg 5) = true ∧
    .data1 = togPid (!(repeatedIn.sys.epOf struckXfer).tog) := by decide +kernel

/-- Refutes O24: its clause of the repeated packet has the host region's records stay, but the packet is an answer, and it returns the
transfer's strikes to 0. -/
theorem not_inPacketsAreJudged : ¬ Obligations.in_packets_are_judged := by
  unfold Obligations.in_packets_are_judged
  intro h
  obtain ⟨hops, hcur, hx, htok, hun, hpid⟩ := repeatedIn_awaits
  obtain ⟨-, -, hdup, -⟩ := h repeatedIn 5 [] .data1 struckTx struckXfer hops hcur rfl rfl rfl hx htok rfl hun
  obtain ⟨t, hexec, -, -, -, ht⟩ := hdup (by decide) (Nat.zero_le _) hpid
  have hstrikes : repeatedStrikes = some (t.host.xfers.map (·.strikes)) := by
    unfold repeatedStrikes
    rw [hexec]
  have hkept : t.host = repeatedIn.sys.host := by rw [ht]
  rw [repeatedStrikes_eq, hkept] at hstrikes
  exact absurd hstrikes (by decide)

end Sys2Proof.Machine

/-! SUPPORT. Events of a root port in the order of R247, and babble at an enabled port. -/

namespace Sys2Proof.Machine

/-! ## Events of a port -/

theorem portEvent_of_moot {y : Sys} {p r : Nat} (h : y.moot p r = true) (f : Sys → Sys) : y.portEvent p r f = y := if_pos h

theorem portEvent_of_live {y : Sys} {p r : Nat} (h : y.moot p r = false) (f : Sys → Sys) :
    y.portEvent p r f = Sys.evMark p r y (f y) := by
  simp [Sys.portEvent, h]

/-- The note of an event is kept in the port's own record of the last event. -/
theorem evMark_eq (p r : Nat) (y0 y : Sys) : ∃ a b c d e g, Sys.evMark p r y0 y = y ∨
    Sys.evMark p r y0 y = y.updPort p fun q => { q with evAt := a, evRank := b, evWas := c, evPow := d, evRun5 := e, evRunH := g } := by
  unfold Sys.evMark
  split
  · exact ⟨_, _, _, _, _, _, .inr rfl⟩
  · exact ⟨0, 0, .off, false, 0, 0, .inl rfl⟩

/-- What the note of an event leaves of a port's record. -/
theorem evMark_keeps {α : Type} (g : Port → α)
    (hg : ∀ q a b c d e f, g { q with evAt := a, evRank := b, evWas := c, evPow := d, evRun5 := e, evRunH := f } = g q)
    (p r : Nat) (y0 y : Sys) (k : Nat) : g ((Sys.evMark p r y0 y).port k) = g (y.port k) := by
  obtain ⟨a, b, c, d, e, f, h | h⟩ := evMark_eq p r y0 y
  · rw [h]
  · rw [h]
    by_cases hk : k = p
    · subst hk
      rw [updPort_port_self, hg]
    · rw [updPort_port_ne hk]

@[simp] theorem evMark_st (p r : Nat) (y0 y : Sys) (k : Nat) : ((Sys.evMark p r y0 y).port k).st = (y.port k).st :=
  evMark_keeps Port.st (fun _ _ _ _ _ _ _ => rfl) p r y0 y k

@[simp] theorem evMark_susp (p r : Nat) (y0 y : Sys) (k : Nat) : ((Sys.evMark p r y0 y).port k).susp = (y.port k).susp :=
  evMark_keeps Port.susp (fun _ _ _ _ _ _ _ => rfl) p r y0 y k

/-! ## What a reset and a disabling end in -/

theorem requeueRoot_st (p : Nat) (old : Option Nat) (y : Sys) : ((y.requeueRoot p old).port p).st = .queued := by
  unfold Sys.requeueRoot
  dsimp only
  rw [updPort_port_self]

theorem requeue_root_st (p : Nat) (y : Sys) : ((y.requeue p 0).port p).st = .queued := by
  simp only [Sys.requeue, if_true, requeueRoot_st]

theorem disableAt_root_st (p : Nat) (y : Sys) : ((y.disableAt p 0).port p).st = .disabled ∧ ((y.disableAt p 0).port p).susp = .active := by
  simp only [Sys.disableAt, if_true, Sys.portDisable, updPort_port_self, and_self]

/-- A fault at a root port that can be reset (R316). -/
theorem treeFault_root {y : Sys} {p : Nat} (h : y.resettable p 0 = true) :
    y.treeFault p 0 =
      if 0 < (y.port p).faultAt ∧ y.tb < (y.port p).faultAt - 1 + 10000000 then (y.updPort p fun q => { q with faultAt := y.tb + 1 }).disableAt p 0
      else ((y.updPort p fun q => { q with faultAt := y.tb + 1 }).incFld (lnkPg p) 0x5C 27 24).requeue p 0 := by
  simp only [Sys.treeFault, h, Sys.lastFault, Bool.not_true, Bool.false_eq_true, if_false, if_true, Bool.and_eq_true, decide_eq_true_eq]

/-- Settles O25: babble is a fault of the root port, unless an earlier event of the moment has taken the port away. -/
theorem babbleIsContainedAtThePort : Obligations.babble_is_contained_at_the_port := by
  unfold Obligations.babble_is_contained_at_the_port
  intro s p hops hlink hst again
  have hexec : exec (.busBabble p) s = .next { s with sys := s.sys.portEvent p 5 (Sys.treeFault p 0) } := by
    calc exec (.busBabble p) s
        = liveSys s (fun y => if y.linkWorks p && (y.port p).st == .enabled then y.portEvent p 5 (Sys.treeFault p 0) else y) := rfl
      _ = _ := liveSys_ops hops _
      _ = _ := by simp only [hlink, hst, beq_self_eq_true, Bool.and_self, if_true]
  have hres : s.sys.resettable p 0 = true := by simp [Sys.resettable, hst]
  refine ⟨fun hm => ?_, fun hm hn => ⟨_, hexec, ?_⟩, fun hm ha => ⟨_, hexec, ?_⟩⟩
  · rw [hexec, portEvent_of_moot hm]
  · dsimp only
    rw [portEvent_of_live hm, evMark_st, treeFault_root hres, if_neg hn]
    exact requeue_root_st _ _
  · dsimp only
    rw [portEvent_of_live hm, evMark_st, evMark_susp, treeFault_root hres, if_pos ha]
    exact disableAt_root_st _ _

end Sys2Proof.Machine

/-! SUPPORT. Power-off of a port that waits for its VBUSEN in the order of a region that is not its own. -/

namespace Sys2Proof.Machine

/-- Port 5, of region 0, is POWERED without a device, and region 1 holds it in its order of rising VBUSENs: no step puts a port into
another region's order. -/
def strayStagger : State where
  sys := { inService with usb := {
    ports := [(5, { st := .powered, vbus := true, pg := true })]
    power := { stag5 := [(1, [5])] } } }
  pending := []

/-- VBUSEN of port 5 after POWER_OFF in `strayStagger`. -/
def strayVbus : Option Bool :=
  match exec (.powerOff 5) strayStagger with
  | .next t => some (t.sys.port 5).vbus
  | _ => none

/-- The pass that ends the power-off lets the first VBUSEN of region 1's order rise (R260, R261). -/
theorem strayVbus_eq : strayVbus = some true := by decide +kernel

theorem strayStagger_serves : strayStagger.serves .manager = true ∧
    strayStagger.sys.pageLets .manager (lnkPg 5) 0x48 false = true ∧ (strayStagger.sys.port 5).st ≠ .off ∧
    (strayStagger.sys.port 5).hpwr = false ∧ strayStagger.sys.moot 5 1 = false := by decide +kernel

theorem strayStagger_vacant : strayStagger.sys.vacant 5 := by
  refine ⟨?_, ?_, ?_, ?_, ?_, ?_, ?_, ?_, ?_, ?_⟩ <;> decide +kernel

/-- Refutes O26: POWER_OFF in `strayStagger` takes VBUSEN low and out of region 0's order only, and its pass raises it again. -/
theorem not_portPowerIsGrantedAndStaggered : ¬ Obligations.port_power_is_granted_and_staggered := by
  unfold Obligations.port_power_is_granted_and_staggered
  rintro ⟨-, hoff, -⟩
  obtain ⟨hs, hp, hst, hh, hm⟩ := strayStagger_serves
  obtain ⟨t, hexec, -, hvbus, -⟩ := hoff strayStagger 5 hs hp strayStagger_vacant hst hh hm
  have h : strayVbus = some (t.port 5).vbus := by
    unfold strayVbus
    rw [hexec]
  have hlow : (t.port 5).vbus = false := hvbus
  rw [strayVbus_eq, hlow] at h
  exact absurd h (by decide)

end Sys2Proof.Machine

/-! SUPPORT. A command's arm and its body, as one step: the arm is named, the body found. -/

namespace Sys2Proof.Machine

/-- What a command outside the windows does where the chip operates; `e` is its arm of `exec`. -/
theorem exec_live {s : State} {c : Instr} (e : State → Res) {f : Sys → Sys} (harm : exec c s = e s) (hlive : e s = liveSys s f)
    (hops : s.operates = true) : exec c s = .next { s with sys := f s.sys } := harm.trans (hlive.trans (liveSys_ops hops f))

theorem does_live {s : State} {c : Instr} (e : State → Res) {f : Sys → Sys} {P : Sys → Prop} (harm : exec c s = e s)
    (hlive : e s = liveSys s f) (hops : s.operates = true) (hP : P (f s.sys)) : Does c s P := ⟨_, exec_live e harm hlive hops, hP⟩

/-- As `does_live`, where what the body gives is known as `t`. -/
theorem does_live_eq {s : State} {c : Instr} (e : State → Res) {f : Sys → Sys} {P : Sys → Prop} {t : Sys} (harm : exec c s = e s)
    (hlive : e s = liveSys s f) (hops : s.operates = true) (ht : f s.sys = t) (hP : P t) : Does c s P :=
  ⟨t, (exec_live e harm hlive hops).trans (ht ▸ rfl), hP⟩

/-- A command whose body finds nothing to do. -/
theorem exec_live_same {s : State} {c : Instr} (e : State → Res) {f : Sys → Sys} (harm : exec c s = e s) (hlive : e s = liveSys s f)
    (hops : s.operates = true) (hf : f s.sys = s.sys) : exec c s = .next s := (exec_live e harm hlive hops).trans (by rw [hf])

/-- What a command through the windows does where none waits before it. -/
theorem exec_win {s : State} {c : Instr} {org : Origin} (e : State → Res) {f : Sys → Sys} (harm : exec c s = e s)
    (hlive : e s = liveWin c org s f) (hs : s.serves org = true) : exec c s = .next { s with sys := f s.sys } :=
  harm.trans (hlive.trans (liveWin_serves hs c f))

theorem does_win {s : State} {c : Instr} {org : Origin} (e : State → Res) {f : Sys → Sys} {P : Sys → Prop} (harm : exec c s = e s)
    (hlive : e s = liveWin c org s f) (hs : s.serves org = true) (hP : P (f s.sys)) : Does c s P :=
  ⟨_, exec_win e harm hlive hs, hP⟩

/-- As `does_win`, where what the body gives is known as `t`. -/
theorem does_win_eq {s : State} {c : Instr} {org : Origin} (e : State → Res) {f : Sys → Sys} {P : Sys → Prop} {t : Sys}
    (harm : exec c s = e s) (hlive : e s = liveWin c org s f) (hs : s.serves org = true) (ht : f s.sys = t) (hP : P t) : Does c s P :=
  ⟨t, (exec_win e harm hlive hs).trans (ht ▸ rfl), hP⟩

end Sys2Proof.Machine

/-! SUPPORT. The test access port: what a boundary test does to the domains and the pins. -/

namespace Sys2Proof.Machine

theorem setDom_st_self (d : Nat) (st : DomSt) (y : Sys) : ((y.setDom d st).dom d).st = st := by simp [Sys.setDom]

theorem setDom_dom_ne {d j : Nat} (h : j ≠ d) (st : DomSt) (y : Sys) : (y.setDom d st).dom j = y.dom j := updDom_dom_ne h _ _

theorem setDom_eq (d : Nat) (st : DomSt) (y : Sys) : ∃ m, y.setDom d st = { y with doms := m } := ⟨_, rfl⟩

/-- A row of domains set to one state: those of the row have it, the others and everything else stay. -/
theorem each_setDom (st : DomSt) (l : List Nat) (y : Sys) :
    ∃ m, each (fun n (y : Sys) => y.setDom n st) l y = { y with doms := m } ∧
      (∀ d ∈ l, (({ y with doms := m } : Sys).dom d).st = st) ∧ ∀ d, d ∉ l → ({ y with doms := m } : Sys).dom d = y.dom d := by
  induction l generalizing y with
  | nil => exact ⟨y.doms, rfl, by simp, fun _ _ => rfl⟩
  | cons a r ih =>
    obtain ⟨m, he, hin, hout⟩ := ih (y.setDom a st)
    refine ⟨m, he, fun d hd => ?_, fun d hd => ?_⟩
    · by_cases hr : d ∈ r
      · exact hin d hr
      · obtain rfl : d = a := (List.mem_cons.1 hd).resolve_right hr
        exact (congrArg Dom.st (hout d hr)).trans (setDom_st_self d st y)
    · obtain ⟨ha, hr⟩ := not_or.1 (mt List.mem_cons.2 hd)
      exact (hout d hr).trans (setDom_dom_ne ha st y)

/-- The port regions' domains as a boundary test has them. -/
theorem testDoms_eq (on : Bool) (y : Sys) :
    ∃ m, y.testDoms on = { y with doms := m, jtag := { y.jtag with acting := on } } ∧
      (∀ d, d < 8 → (({ y with doms := m } : Sys).dom d).st = if on then .on else .off) ∧
      ∀ d, 8 ≤ d → ({ y with doms := m } : Sys).dom d = y.dom d := by
  obtain ⟨m, he, hin, hout⟩ := each_setDom (if on then .on else .off) (List.range 8) y
  refine ⟨m, ?_, fun d hd => hin d (List.mem_range.2 hd), fun d hd => hout d (by simpa using hd)⟩
  rw [Sys.testDoms, he]
  rfl

/-- A boundary test that begins with `i` (R591). -/
theorem jtagTest_held {y : Sys} (h : y.pins.perst = true) (i : JIns) :
    ∃ m, y.jtagTest i = { y with doms := m, pins := { y.pins with railen := true },
                                 jtag := { y.jtag with ir := i, test := true, acting := y.pins.railpg } } ∧
      (∀ d, d < 8 → (({ y with doms := m } : Sys).dom d).st = if y.pins.railpg then .on else .off) ∧
      ∀ d, 8 ≤ d → ({ y with doms := m } : Sys).dom d = y.dom d := by
  obtain ⟨m, he, hin, hout⟩ := testDoms_eq y.pins.railpg
    { y with pins := { y.pins with railen := true }, jtag := { y.jtag with ir := i, test := true } }
  refine ⟨m, ?_, hin, hout⟩
  rw [Sys.jtagTest, if_pos h]
  exact he

/-- Outside PERST# the instruction works as the bypass. -/
theorem jtagTest_running {y : Sys} (h : y.pins.perst = false) (i : JIns) :
    y.jtagTest i = { y with jtag := { y.jtag with ir := .bypass, bypass := false } } := by
  rw [Sys.jtagTest, h]
  rfl

theorem jtagOther_idle {y : Sys} (h : y.jtag.test = false) (i : JIns) : y.jtagOther i = { y with jtag := { y.jtag with ir := i } } := by
  rw [Sys.jtagOther, Sys.testEnd_, h]
  rfl

/-- Any other instruction ends the boundary test. -/
theorem jtagOther_testing {y : Sys} (h : y.jtag.test = true) (i : JIns) :
    ∃ m, y.jtagOther i = { y with doms := m, pins := { y.pins with railen := false },
                                  jtag := { y.jtag with ir := i, test := false, acting := false } } ∧
      ∀ d, d < 8 → (({ y with doms := m } : Sys).dom d).st = .off := by
  obtain ⟨m, he, hoff, -⟩ := testDoms_eq false y
  refine ⟨m, ?_, hoff⟩
  rw [Sys.jtagOther, Sys.testEnd_, if_pos h, he]
  rfl

/-- What an instruction other than the boundary tests leaves: no test, and what the output showed. -/
theorem jtagOther_ends (i : JIns) (y : Sys) :
    (y.jtagOther i).jtag.ir = i ∧ (y.jtagOther i).jtag.test = false ∧ (y.jtagOther i).out = y.out ∧
      (y.jtag.test = false → (y.jtagOther i).doms = y.doms ∧ (y.jtagOther i).pins = y.pins) ∧
      (y.jtag.test = true → (y.jtagOther i).pins.railen = false ∧ ∀ n, n < 8 → ((y.jtagOther i).dom n).st = .off) := by
  cases h : y.jtag.test with
  | false =>
    rw [jtagOther_idle h]
    exact ⟨rfl, h, rfl, fun _ => ⟨rfl, rfl⟩, fun h => absurd h (by decide)⟩
  | true =>
    obtain ⟨m, he, hoff⟩ := jtagOther_testing h i
    rw [he]
    exact ⟨rfl, rfl, rfl, fun h => absurd h (by decide), fun _ => ⟨rfl, hoff⟩⟩

@[simp] theorem cells_length (y : Sys) : y.cells.length = 422 := by
  rw [Sys.cells, List.length_take, List.length_append, List.length_replicate]
  omega

theorem capture_getD (balls : List Bool) (y : Sys) {i : Nat} (hi : i < 422) :
    (y.capture_ balls).getD i false = if i < 6 then balls.getD i false else balls.getD i false && y.on (min 7 ((i - 6) / 52)) := by
  simp [Sys.capture_, List.getD, hi]

theorem capture_length (balls : List Bool) (y : Sys) : (y.capture_ balls).length = 422 := by simp [Sys.capture_]

/-- A captured boundary register is shifted out as it is. -/
theorem cells_of_length {y : Sys} (h : y.jtag.bound.length = 422) : y.cells = y.jtag.bound := by
  rw [Sys.cells, List.take_append_of_le_length (le_of_eq h.symm), List.take_of_length_le (le_of_eq h)]

theorem idBits_eq : idBits = (List.range 32).map fun i => (0x1F128001#32).getLsbD i := by decide

/-- What a boundary-test instruction shifts out (R591). -/
def testTdo (c : Instr) (y : Sys) : List Bool := if c = .extest then y.extCells else [false]

/-- The three boundary-test instructions as one. -/
theorem exec_test {s : State} {c : Instr} {j : JIns} (hops : s.operates = true)
    (hc : (c = .extest ∧ j = .extest) ∨ (c = .clamp ∧ j = .clamp) ∨ (c = .highz ∧ j = .highz)) (hj : (s.sys.jtagTest j).jtag.ir = j) :
    exec c s = .next { s with sys := (s.sys.jtagTest j).tdo (testTdo c (s.sys.jtagTest j)) } := by
  obtain ⟨rfl, rfl⟩ | ⟨rfl, rfl⟩ | ⟨rfl, rfl⟩ := hc
  · refine (exec_live execExtest rfl rfl hops).trans ?_
    dsimp only
    rw [hj]
    rfl
  · exact exec_live execClamp rfl rfl hops
  · exact exec_live execHighz rfl rfl hops

/-- Outside PERST# each shifts out the bypass bit. -/
theorem exec_test_running {s : State} {c : Instr} {j : JIns} (hops : s.operates = true)
    (hc : (c = .extest ∧ j = .extest) ∨ (c = .clamp ∧ j = .clamp) ∨ (c = .highz ∧ j = .highz)) (hp : s.sys.pins.perst = false) :
    exec c s = .next { s with sys := { s.sys with jtag := { s.sys.jtag with ir := .bypass, bypass := false }
                                                  out := .tdo [false] :: s.sys.out } } := by
  obtain ⟨rfl, rfl⟩ | ⟨rfl, rfl⟩ | ⟨rfl, rfl⟩ := hc
  · refine (exec_live execExtest rfl rfl hops).trans ?_
    dsimp only
    rw [jtagTest_running hp]
    rfl
  · refine (exec_live execClamp rfl rfl hops).trans ?_
    dsimp only
    rw [jtagTest_running hp]
    rfl
  · refine (exec_live execHighz rfl rfl hops).trans ?_
    dsimp only
    rw [jtagTest_running hp]
    rfl

/-- Settles O59: each instruction through what it does to the test's domains, pins and register. -/
theorem tapSelectsItsRegisters : Obligations.tap_selects_its_registers := by
  unfold Obligations.tap_selects_its_registers
  refine ⟨fun s c j hops hc => ⟨exec_test_running hops hc, fun hp => ?_⟩, fun s hops => ⟨fun balls c j hc => ?_, ?_, ?_, ?_, fun balls ht => ?_⟩⟩
  · obtain ⟨m, he, hin, hout⟩ := jtagTest_held hp j
    refine ⟨_, exec_test hops hc (by rw [he]), ?_⟩
    rw [he]
    refine ⟨rfl, rfl, rfl, rfl, hin, hout, ?_⟩
    obtain ⟨rfl, rfl⟩ | ⟨rfl, rfl⟩ | ⟨rfl, rfl⟩ := hc <;> rfl
  · obtain ⟨hir, htest, -, hidle, hbusy⟩ := jtagOther_ends j s.sys
    obtain ⟨rfl, rfl⟩ | ⟨rfl, rfl⟩ | ⟨rfl, rfl⟩ | ⟨rfl, rfl⟩ := hc
    · exact does_live execIdcode rfl rfl hops ⟨hir, htest, hidle, hbusy⟩
    · exact does_live execTapReset rfl rfl hops ⟨hir, htest, hidle, hbusy⟩
    · exact does_live execBypass rfl rfl hops ⟨hir, htest, hidle, hbusy⟩
    · exact does_live (execSamplePreload balls) rfl rfl hops ⟨hir, htest, hidle, hbusy⟩
  · refine does_live execIdcode rfl rfl hops ?_
    obtain ⟨-, -, hout, -⟩ := jtagOther_ends .idcode s.sys
    rw [← idBits_eq, ← hout]
    rfl
  · refine does_live execBypass rfl rfl hops ⟨?_, rfl⟩
    obtain ⟨-, -, hout, -⟩ := jtagOther_ends .bypass s.sys
    rw [← hout]
    rfl
  · obtain ⟨-, -, hout, -⟩ := jtagOther_ends .idcode s.sys
    exact does_live execTapReset rfl rfl hops hout
  · refine does_live (execSamplePreload balls) rfl rfl hops ?_
    rw [jtagOther_idle ht]
    have hlen := capture_length balls { s.sys with jtag := { s.sys.jtag with ir := .sample } }
    refine ⟨?_, hlen, fun i hi => ?_, fun i h6 hi => ?_⟩
    · exact congrArg (fun b => Out.tdo b :: s.sys.out) (cells_of_length hlen)
    · exact (capture_getD balls _ (by omega)).trans (if_pos hi)
    · exact (capture_getD balls _ hi).trans (if_neg (by omega))

end Sys2Proof.Machine

/-! SUPPORT. PASID Enable: what it releases, and that nothing else stirs where no work waits. -/

namespace Sys2Proof.Machine

theorem each_id {α : Type} {f : α → Sys → Sys} (l : List α) {y : Sys} (h : ∀ a ∈ l, f a y = y) : each f l y = y := by
  induction l with
  | nil => rfl
  | cons a r ih => rw [each, h a List.mem_cons_self, ih fun b hb => h b (List.mem_cons_of_mem _ hb)]

/-- What leaves the chip at once: HOST answers and carries no failure, and a request with a PASID finds PASID Enable set. -/
theorem emit_sent (o : Out) {y : Sys} (hf : y.contain.chipFault = false) (hh : y.hostOn = true) (hp : y.pins.pasidEn = true) :
    y.emit o = { y with out := o :: y.out } := by simp [Sys.emit, hf, hh, hp]

theorem each_emit_sent (l : List Out) {y : Sys} (hf : y.contain.chipFault = false) (hh : y.hostOn = true) (hp : y.pins.pasidEn = true) :
    each (fun o y => y.emit o) l y = { y with out := l.reverse ++ y.out } := by
  induction l generalizing y with
  | nil => rfl
  | cons o r ih =>
    rw [each, emit_sent o hf hh hp, ih (y := { y with out := o :: y.out }) hf hh hp]
    simp

theorem releasePasid_sent {y : Sys} (hf : y.contain.chipFault = false) (hh : y.hostOn = true) (hp : y.pins.pasidEn = true) :
    y.releasePasid = { y with heldPasid := [], out := y.heldPasid.reverse ++ y.out } :=
  each_emit_sent y.heldPasid (y := { y with heldPasid := [] }) hf hh hp

theorem releaseMsgs_none {y : Sys} (h : y.host.msgWait = []) : y.releaseMsgs = y := by
  have hy : ({ y with host := { y.host with msgWait := [] } } : Sys) = y := by rw [← h]
  rw [Sys.releaseMsgs, h, hy]
  rfl

/-- Nothing finished waits to be reported, and no completion record. -/
theorem recSweep_none {y : Sys} (hx : ∀ x ∈ y.host.xfers, x.fin = none ∧ x.flush ≠ 1) (hr : ∀ r ∈ y.host.rings, r.2.waiting = []) :
    y.recSweep = y := by
  have hfin : y.host.xfers.filter (fun x => x.fin.isSome && x.inst.isSome) = [] :=
    List.filter_eq_nil_iff.2 fun x hm => by simp [(hx x hm).1]
  have hwait : y.host.rings.filter (fun e => !e.2.waiting.isEmpty) = [] := List.filter_eq_nil_iff.2 fun r hm => by simp [hr r hm]
  have hflush : y.host.xfers.filter (fun x => x.flush == 1) = [] := List.filter_eq_nil_iff.2 fun x hm => by simp [(hx x hm).2]
  simp only [Sys.recSweep, hfin, List.foldl_nil, List.map_nil, each, hwait, hflush, List.filterMap_nil, List.dedup_nil]

theorem fetchIssue_none {y : Sys} (h : y.fetchNext = none) (n : Nat) : y.fetchIssue n = y := by
  cases n with
  | zero => rfl
  | succ n => rw [Sys.fetchIssue, h, ite_self]

/-- No FETCH read waits and no ring is to be read. -/
theorem fetchPump_none {y : Sys} (hq : y.host.fetchQ = []) (hc : y.host.ctxOut = []) (hn : y.fetchNext = none) : y.fetchPump = y := by
  have hy : ({ y with host := { y.host with ctxOut := [] } } : Sys) = y := by rw [← hc]
  have hgo (c : Bool) : (if c then each (fun k (y : Sys) => y.ctxPut k) y.host.ctxOut { y with host := { y.host with ctxOut := [] } }
      else y) = y := by rw [hc, each, hy, ite_self]
  unfold Sys.fetchPump
  dsimp only
  rw [hgo, hq, each, fetchIssue_none hn]

/-- No channel carries a burst. -/
theorem arb_none {y : Sys} (h : ∀ m ∈ y.usb.dma, m.2.carries = false) : y.arb = y := by
  have hst : ∀ m ∈ y.usb.dma, (m.2.st == .active) = false ∧ (m.2.st == .preempted) = false := fun m hm => by
    have := h m hm
    simp only [Chan2.carries, Bool.or_eq_false_iff] at this
    exact this.1
  have hmap : (y.usb.dma.map fun e => if (e.2.st == .active || e.2.st == .preempted) && decide (0 < e.2.len) then
      (e.1, { e.2 with st := if y.blocked e.1 e.2 then .preempted else .active }) else e) = y.usb.dma := by
    conv_rhs => rw [← List.map_id y.usb.dma]
    exact List.map_congr_left fun m hm => by simp [hst m hm]
  have hnone : y.usb.dma.filter (fun e => e.2.st == .active && !e.2.toHost) = [] :=
    List.filter_eq_nil_iff.2 fun m hm => by simp [(hst m hm).1]
  simp only [Sys.arb, hmap, hnone, List.map_nil, List.foldl_nil, each]

theorem instSettle_other {y : Sys} {i : Nat} (h : (y.inst i).st ≠ .resetting ∧ (y.inst i).st ≠ .destroying) : y.instSettle i = y := by
  obtain ⟨hr, hd⟩ := h
  unfold Sys.instSettle
  dsimp only
  split
  · rfl
  · split
    · contradiction
    · contradiction
    · rfl

theorem settleInsts_none {y : Sys} (h : ∀ i, (y.inst i).st ≠ .resetting ∧ (y.inst i).st ≠ .destroying) : y.settleInsts = y :=
  each_id _ fun i _ => instSettle_other (h i)

/-- What follows the release in the command finds nothing to do. -/
theorem pasidRest_none {y : Sys} (hi : ∀ i, (y.inst i).st ≠ .resetting ∧ (y.inst i).st ≠ .destroying)
    (hd : ∀ m ∈ y.usb.dma, m.2.carries = false) (hx : ∀ x ∈ y.host.xfers, x.fin = none ∧ x.flush ≠ 1)
    (hr : ∀ r ∈ y.host.rings, r.2.waiting = []) (hm : y.host.msgWait = []) (hq : y.host.fetchQ = []) (hc : y.host.ctxOut = [])
    (hn : y.fetchNext = none) : (y.releaseMsgs.recSweep.fetchPump.arb).settleInsts = y := by
  rw [releaseMsgs_none hm, recSweep_none hx hr, fetchPump_none hq hc hn, arb_none hd, settleInsts_none hi]

/-- Nothing that the choice of the next FETCH read looks at is a pin or an output. -/
theorem fetchNext_released (y : Sys) (pins : Pins) (out : List Out) :
    ({ y with pins := pins, heldPasid := [], out := out } : Sys).fetchNext = y.fetchNext := rfl

/-- The command's body, on what it starts from. -/
theorem pasidEnable_of_idle {y : Sys} (hh : y.hostOn = true) (hf : y.contain.chipFault = false)
    (hi : ∀ i, (y.inst i).st ≠ .resetting ∧ (y.inst i).st ≠ .destroying)
    (hd : ∀ m ∈ y.usb.dma, m.2.carries = false) (hx : ∀ x ∈ y.host.xfers, x.fin = none ∧ x.flush ≠ 1)
    (hr : ∀ r ∈ y.host.rings, r.2.waiting = []) (hm : y.host.msgWait = []) (hq : y.host.fetchQ = []) (hc : y.host.ctxOut = [])
    (hn : y.fetchNext = none) :
    ((({ y with pins := { y.pins with pasidEn := true } } : Sys).releasePasid.releaseMsgs.recSweep.fetchPump.arb).settleInsts) =
      { y with pins := { y.pins with pasidEn := true }, heldPasid := [], out := y.heldPasid.reverse ++ y.out } := by
  rw [releasePasid_sent (y := { y with pins := { y.pins with pasidEn := true } }) hf hh rfl]
  exact pasidRest_none hi hd hx hr hm hq hc ((fetchNext_released y _ _).trans hn)

/-- Settles O39: the release sends what is held, and every later part of the command finds nothing to do. -/
theorem pasidEnableReleasesInOrder : Obligations.pasid_enable_releases_in_order := by
  unfold Obligations.pasid_enable_releases_in_order
  refine fun s hops => ⟨exec_live (execPasidEnableChange false) rfl rfl hops, fun hh hf hi hd hx hr hm hq hc hn => ?_⟩
  exact does_live_eq (execPasidEnableChange true) rfl rfl hops (pasidEnable_of_idle hh hf hi hd hx hr hm hq hc hn) ⟨rfl, rfl, rfl⟩

end Sys2Proof.Machine

/-! SUPPORT. A report descriptor that names a usage page. -/

namespace Sys2Proof.Machine

/-- Slot 3's device, in root port 5, has the read of a report descriptor as its only request; no NORMALISE waits for it. -/
def readingPages : State where
  sys := { inService with eng := { slots := [(3, { used := true, port := 5, pers := { req := [.report] } })] } }
  pending := []

/-- The usage pages noted for slot 3 once its report descriptor, a Usage Page item of 0x8C, has been read. -/
def pagesRead : Option (List (Nat × Nat)) :=
  match exec (.personalityRequestComplete 3 (.ok [0x05, 0x8C])) readingPages with
  | .next t => some (t.sys.slot 3).pers.rdPages
  | _ => none

/-- The page is noted for the choice of a personality (R324, R341). -/
theorem pagesRead_eq : pagesRead = some [(0, 0x8C)] := by decide +kernel

theorem readingPages_ready : readingPages.operates = true ∧ readingPages.sys.on 17 = true ∧
    (readingPages.sys.slot 3).pers.req = [.report] ∧ readingPages.sys.reqWaits 2 5 0 = false ∧ readingPages.sys.normWaiting 3 = [] := by
  decide +kernel

/-- Refutes O45: in `readingPages` the request's success adds the page it read to the personality's record, not only takes the request
off the list. -/
theorem not_displaysAndRequestsRun : ¬ Obligations.displays_and_requests_run := by
  unfold Obligations.displays_and_requests_run
  rintro ⟨-, hdone⟩
  obtain ⟨hops, hon, hreq, hwait, hnorm⟩ := readingPages_ready
  obtain ⟨hok, -⟩ := hdone readingPages 3 .report [] (.ok [0x05, 0x8C]) hops hon hreq hwait (.inl rfl) hnorm (.inl rfl)
  obtain ⟨t, hexec, -, hslot⟩ := hok [0x05, 0x8C] rfl
  have h : pagesRead = some (t.slot 3).pers.rdPages := by
    unfold pagesRead
    rw [hexec]
  have hnone : (t.slot 3).pers.rdPages = [] := congrArg (fun z : Slot => z.pers.rdPages) hslot
  rw [pagesRead_eq, hnone] at h
  exact absurd h (by decide)

end Sys2Proof.Machine

/-! SUPPORT. What the work on a personality may do: a request that goes out, a timer armed or over, an event. -/

namespace Sys2Proof.Machine

section Requests

/-- What sending a control request or ending one changes: the ports' records, the transfers and Hollyhock. -/
def Sys.RequestOnly (y t : Sys) : Prop :=
  ∃ u xs nx h, t = { y with usb := u, host := { y.host with xfers := xs, nextX := nx }, eng := { y.eng with holly := h } }

variable {y : Sys}

theorem requestOnly_refl (y : Sys) : y.RequestOnly y := ⟨_, _, _, _, rfl⟩

theorem Sys.RequestOnly.trans {a b c : Sys} (h : a.RequestOnly b) (k : b.RequestOnly c) : a.RequestOnly c := by
  obtain ⟨u, xs, nx, h, rfl⟩ := h
  obtain ⟨u', xs', nx', h', rfl⟩ := k
  exact ⟨u', xs', nx', h', rfl⟩

theorem requestOnly_updHolly (f : Holly → Holly) (y : Sys) : y.RequestOnly (y.updHolly f) := ⟨_, _, _, _, rfl⟩

theorem requestOnly_updX (id : Nat) (f : Xfer → Xfer) (y : Sys) : y.RequestOnly (y.updX id f) := ⟨_, _, _, _, rfl⟩

theorem requestOnly_fifo {t : Sys} (h : y.FifoOnly t) : y.RequestOnly t := by
  obtain ⟨m, rfl⟩ := h
  exact ⟨_, _, _, _, rfl⟩

theorem requestOnly_each {α : Type} {f : α → Sys → Sys} (l : List α) (h : ∀ a (y : Sys), y.RequestOnly (f a y)) (y : Sys) :
    y.RequestOnly (each f l y) :=
  each_keeps (P := y.RequestOnly) l (fun a _ z hz => hz.trans (h a z)) (requestOnly_refl y)

theorem requestOnly_splitDone (p id : Nat) (y : Sys) : y.RequestOnly (y.splitDone p id) := ⟨_, _, _, _, rfl⟩

theorem requestOnly_rsvFree (p : Nat) (x : Xfer) (y : Sys) : y.RequestOnly (y.rsvFree p x) := by
  unfold Sys.rsvFree
  split
  · exact requestOnly_refl y
  · exact ⟨_, _, _, _, rfl⟩

theorem requestOnly_xferLeaves (x : Xfer) (y : Sys) : y.RequestOnly (y.xferLeaves x) := by
  unfold Sys.xferLeaves
  dsimp only
  split
  · exact requestOnly_fifo ((fifoOnly_updFifo _ _ _).trans (fifoOnly_reclaimTx _ _))
  · exact ((requestOnly_fifo ((fifoOnly_updFifo _ _ _).trans (fifoOnly_reclaimTx _ _))).trans (requestOnly_rsvFree _ _ _)).trans
      (requestOnly_splitDone _ _ _)

theorem requestOnly_chipOver (sel : Xfer → Bool) (y : Sys) : y.RequestOnly (y.chipOver sel) := by
  refine requestOnly_each _ (fun x y => ?_) y
  dsimp only
  split
  · exact (requestOnly_updX _ _ _).trans (requestOnly_xferLeaves _ _)
  · exact .trans ⟨_, _, _, _, rfl⟩ (requestOnly_xferLeaves _ _)

theorem requestOnly_issueNow (r : CReq) (y : Sys) : y.RequestOnly (y.issueNow r) := by
  unfold Sys.issueNow
  dsimp only
  split
  · exact ⟨_, _, _, _, rfl⟩
  · exact ⟨_, _, _, _, rfl⟩

theorem requestOnly_ctlIssue (r : CReq) (y : Sys) : y.RequestOnly (y.ctlIssue r) := by
  unfold Sys.ctlIssue
  split
  · exact requestOnly_issueNow r y
  · exact requestOnly_updHolly _ y

theorem requestOnly_issue (o p t : Nat) (setup data : List Byte) (y : Sys) : y.RequestOnly (y.issue o p t setup data) :=
  ((requestOnly_updHolly _ _).trans (requestOnly_chipOver _ _)).trans (requestOnly_ctlIssue _ _)

theorem requestOnly_issueReq (n : Nat) (y : Sys) : y.RequestOnly (y.issueReq n) := by
  unfold Sys.issueReq
  dsimp only
  split
  · exact requestOnly_issue _ _ _ _ _ _
  · exact requestOnly_refl y

end Requests

section Delays

/-- What arming or ending a timer changes beside the personality: Hollyhock, and what the report of a full delay pool changes. -/
def Sys.DelayOnly (y t : Sys) : Prop :=
  (∃ h, { y with eng := { y.eng with holly := h } }.reportsOnly t) ∧ t.dlyTick 0 = y.dlyTick 0

theorem delayOnly_refl (y : Sys) : y.DelayOnly y := ⟨⟨y.eng.holly, reportsOnly_refl y⟩, rfl⟩

theorem delayOnly_updHolly (f : Holly → Holly) (y : Sys) : y.DelayOnly (y.updHolly f) := ⟨⟨_, reportsOnly_refl _⟩, rfl⟩

theorem Sys.DelayOnly.trans {a b c : Sys} (h : a.DelayOnly b) (k : b.DelayOnly c) : a.DelayOnly c := by
  obtain ⟨⟨m, hm⟩, ht⟩ := h
  obtain ⟨⟨n, hn⟩, hu⟩ := k
  refine ⟨⟨n, ?_⟩, hu.trans ht⟩
  unfold Sys.reportsOnly at hm hn ⊢
  rw [hn, hm]

theorem dlyTick_recordErr (g : Pg) (b d : Nat) (y : Sys) : (y.recordErr g b d).dlyTick 0 = y.dlyTick 0 :=
  congrArg (fun w : Word => w.fld 10 0) (recordErr_pgReg_past_header (by decide) (by decide) _ _ _ _ _)

theorem delayOnly_recordErr (g : Pg) (b d : Nat) (y : Sys) : y.DelayOnly (y.recordErr g b d) :=
  ⟨⟨y.eng.holly, reportsOnly_recordErr g b d y⟩, dlyTick_recordErr g b d y⟩

theorem delayOnly_incFld_late (y : Sys) : y.DelayOnly (y.incFld wscPg 0x80 31 16) :=
  ⟨⟨y.eng.holly, reportsOnly_setReg _ _ _⟩,
    congrArg (fun w : Word => w.fld 10 0) (pgReg_setPg_ne wscPg wscPg (by decide) _ _)⟩

theorem delayOnly_pushItem (i : Item) (y : Sys) : y.DelayOnly (y.pushItem i) := ⟨⟨_, reportsOnly_refl _⟩, rfl⟩

theorem delayOnly_expire (d : Delay) (y : Sys) : y.DelayOnly (y.expire d) := by
  unfold Sys.expire
  split
  · exact delayOnly_pushItem _ y
  · exact delayOnly_updHolly _ y

theorem delayOnly_delayIn (j due flow prio tag : Nat) (y : Sys) : y.DelayOnly (y.delayIn j due flow prio tag) := by
  unfold Sys.delayIn
  dsimp only
  split
  · exact (delayOnly_updHolly _ _).trans (delayOnly_expire _ _)
  · split
    · exact (delayOnly_updHolly _ _).trans (delayOnly_updHolly _ _)
    · refine .trans (.trans ?_ (delayOnly_updHolly _ _)) (delayOnly_incFld_late _)
      split
      · exact (delayOnly_updHolly _ _).trans (delayOnly_recordErr _ _ _ _)
      · exact delayOnly_updHolly _ _

end Delays

section Turns

/-- A slot with another personality record. -/
def Slot.setPers (s : Slot) (p : Pers) : Slot := { s with pers := p }

/-- Slot `n` becomes `S` with the personality record `p`, and the events `es` wait more than before; no other slot changes, nor what
later work on the personality looks at: which instances run, the tick, the time, what a core holds. -/
structure Sys.Turns (y : Sys) (n : Nat) (S : Slot) (p : Pers) (es : List Spill) (t : Sys) : Prop where
  self : t.slot n = S.setPers p
  rest : y.keepsSlots t n
  evq : t.host.evq = y.host.evq ++ es
  st : ∀ i, (t.inst i).st = (y.inst i).st
  rev : ∀ i, t.is1x i = y.is1x i
  tick : t.dlyTick 0 = y.dlyTick 0
  tb : t.tb = y.tb
  fault : t.contain = y.contain
  cores : t.eng.cores = y.eng.cores

variable {y t u : Sys} {n : Nat} {S : Slot} {p : Pers} {es : List Spill}

theorem turns_refl (n : Nat) (y : Sys) : y.Turns n (y.slot n) (y.slot n).pers [] y where
  self := rfl
  rest _ _ := rfl
  evq := (List.append_nil _).symm
  st _ := rfl
  rev _ := rfl
  tick := rfl
  tb := rfl
  fault := rfl
  cores := rfl

theorem Sys.Turns.pers (h : y.Turns n S p es t) : (t.slot n).pers = p := by rw [h.self]; rfl

/-- The rest of the slot changes, as `g` says whatever its personality record. -/
theorem Sys.Turns.updSlot (h : y.Turns n S p es t) {f : Slot → Slot} {S' : Slot} (hf : f (S.setPers p) = S'.setPers p) :
    y.Turns n S' p es (t.updSlot n f) where
  self := by rw [updSlot_slot_self, h.self, hf]
  rest m hm := (updSlot_slot_ne hm f t).trans (h.rest m hm)
  evq := h.evq
  st := h.st
  rev := h.rev
  tick := h.tick
  tb := h.tb
  fault := h.fault
  cores := h.cores

theorem Sys.Turns.updPers (h : y.Turns n S p es t) (f : Pers → Pers) : y.Turns n S (f p) es (t.updPers n f) where
  self := by
    unfold Sys.updPers
    rw [updSlot_slot_self, h.self]
    rfl
  rest m hm := (updSlot_slot_ne hm _ t).trans (h.rest m hm)
  evq := h.evq
  st := h.st
  rev := h.rev
  tick := h.tick
  tb := h.tb
  fault := h.fault
  cores := h.cores

theorem Sys.Turns.delay (h : y.Turns n S p es t) (k : t.DelayOnly u) : y.Turns n S p es u := by
  obtain ⟨⟨m, hm⟩, ht⟩ := k
  unfold Sys.reportsOnly at hm
  rw [hm] at ht ⊢
  exact ⟨h.self, h.rest, h.evq, h.st, h.rev, ht.trans h.tick, h.tb, h.fault, h.cores⟩

theorem Sys.Turns.request (h : y.Turns n S p es t) (k : t.RequestOnly u) : y.Turns n S p es u := by
  obtain ⟨_, _, _, _, rfl⟩ := k
  exact ⟨h.self, h.rest, h.evq, h.st, h.rev, h.tick, h.tb, h.fault, h.cores⟩

theorem Sys.Turns.timerOff (h : y.Turns n S p es t) (k : PTimer) : y.Turns n S (p.stops k) es (t.timerOff n k) :=
  (h.delay (delayOnly_updHolly _ _)).updPers fun p => { p with timers := FMap.put 0 k.tag 0 p.timers }

theorem persDue_of_tick (h : t.dlyTick 0 = y.dlyTick 0) (a ms : Nat) : t.persDue a ms = y.persDue a ms := by
  unfold Sys.persDue
  rw [h]

theorem Sys.Turns.persDue (h : y.Turns n S p es t) (a ms : Nat) : t.persDue a ms = y.persDue a ms := persDue_of_tick h.tick a ms

theorem Sys.Turns.armTimer (h : y.Turns n S p es t) (k : PTimer) (a ms : Nat) :
    y.Turns n S (y.arms k a ms p) es (t.armTimer n k a ms) := by
  unfold Sys.arms Sys.armTimer
  rw [← h.persDue a ms]
  exact (h.delay ((delayOnly_updHolly _ _).trans (delayOnly_delayIn _ _ _ _ _ _))).updPers
    fun p => { p with timers := FMap.put 0 k.tag (t.persDue a ms + 1) p.timers }

theorem Sys.Turns.persReq (h : y.Turns n S p es t) (r : PReq) : y.Turns n S { p with req := p.req ++ [r] } es (t.persReq n r) := by
  have hput := h.updPers fun p => { p with req := p.req ++ [r] }
  unfold Sys.persReq
  dsimp only
  split
  · exact hput.request (requestOnly_issueReq _ _)
  · exact hput

/-- An event of the personality, which its tenant may hear, miss, or owe as lost. -/
theorem Sys.Turns.tenantEvent (h : y.Turns n S p es t) (i : Nat) (e : Ev) : ∃ es', y.Turns n S p es' (t.tenantEvent i e) := by
  unfold Sys.tenantEvent
  dsimp only
  split
  · exact ⟨es, h⟩
  · split
    · exact ⟨es, h⟩
    · exact ⟨es, h⟩
    · refine ⟨es, h.self, h.rest, h.evq, fun j => ?_, fun j => ?_, h.tick, h.tb, h.fault, h.cores⟩
      · rw [← h.st j]
        by_cases hj : j = i
        · subst hj
          rw [updInst_inst_self]
        · rw [updInst_inst_ne hj]
      · rw [← h.rev j]
        unfold Sys.is1x
        by_cases hj : j = i
        · subst hj
          rw [updInst_inst_self]
        · rw [updInst_inst_ne hj]
    · split
      · exact ⟨es, h⟩
      · refine ⟨es ++ [{ inst := i, seq := 0, ev := e }], h.self, h.rest, ?_, h.st, h.rev, h.tick, h.tb, h.fault, h.cores⟩
        rw [← List.append_assoc, ← h.evq]

theorem Sys.Turns.persEvent (h : y.Turns n S p es t) (ty epid a : Nat) (ws : List Word) :
    ∃ es', y.Turns n S p es' (t.persEvent n ty epid a ws) := by
  unfold Sys.persEvent
  split
  · exact h.tenantEvent _ _
  · exact ⟨es, h⟩

/-- An event that the slot's tenant hears. -/
theorem Sys.Turns.persEvent_heard (h : y.Turns n S p es t) {i : Nat} (hf : y.contain.chipFault = false) (hi : y.hears n i)
    (hS : S.inst = (y.slot n).inst ∧ S.port = (y.slot n).port) (ty epid a : Nat) (ws : List Word) :
    y.Turns n S p (es ++ [{ inst := i, seq := 0, ev := y.persEv n ty epid a ws }]) (t.persEvent n ty epid a ws) := by
  obtain ⟨hinst, hrun, hrev⟩ := hi
  have hslot : (t.slot n).inst = some i := by
    rw [h.self]
    exact hS.1.trans hinst
  have hport : (t.slot n).port = (y.slot n).port := by
    rw [h.self]
    exact hS.2
  have hst : (t.inst i).st = .running := (h.st i).trans hrun
  have hfault : t.contain.chipFault = false := by rw [h.fault, hf]
  have hsent : t.persEvent n ty epid a ws =
      { t with host := { t.host with evq := t.host.evq ++ [{ inst := i, seq := 0, ev := y.persEv n ty epid a ws }] } } := by
    unfold Sys.persEvent Sys.tenantEvent
    simp only [hslot, hst, hfault, h.rev i, hrev, hport, Bool.false_and, Bool.false_eq_true, if_false]
    rfl
  rw [hsent]
  refine ⟨h.self, h.rest, ?_, h.st, h.rev, h.tick, h.tb, h.fault, h.cores⟩
  rw [← List.append_assoc, ← h.evq]

/-- The item that a core handles stays through the work on it. -/
theorem Sys.Turns.itemNow (h : y.Turns n S p es t) (m : Nat) (k : ItemK) : t.itemNow m k = y.itemNow m k := by
  unfold Sys.itemNow
  rw [h.cores]

theorem Sys.Turns.reportAt (h : y.Turns n S p es t) (m : Nat) : t.reportAt m = y.reportAt m := by
  unfold Sys.reportAt Sys.stampTb Sys.mf Sys.us
  rw [h.itemNow m .report, h.tb]

theorem Sys.Turns.thenEach {α : Type} {f : α → Sys → Sys} (l : List α) (h : y.Turns n S p es t)
    (hf : ∀ a ∈ l, ∀ u es, y.Turns n S p es u → ∃ es', y.Turns n S p es' (f a u)) : ∃ es', y.Turns n S p es' (each f l t) :=
  each_keeps (P := fun u => ∃ es', y.Turns n S p es' u) l (fun a ha u ⟨es', hu⟩ => hf a ha u es' hu) ⟨es, h⟩

end Turns

section Items

variable {y : Sys} {n c : Nat}

/-- A report names the endpoint from which the personality's events come (R362). -/
def Sys.noting (n : Nat) (k : ItemK) (y : Sys) : Sys :=
  match k, y.itemNow n k with
  | .report, some i => y.updPers n fun p => { p with inEpid := i.epid }
  | _, _ => y

theorem persItem_served {cs : List Nat} {k : ItemK} (hb : y.bound n c) (hc : cs.contains c = true)
    (hs : (y.itemNow n k).any (·.poison) = false) (f : Sys → Sys) : y.persItem n k cs false f = f (y.noting n k) := by
  obtain ⟨hfault, hused, hcode, hfresh⟩ := hb
  unfold Sys.persItem Sys.noting
  simp only [hfault, hused, hcode, hc, hs, hfresh, Bool.not_true, Bool.or_self, Bool.false_eq_true, if_false]
  generalize y.itemNow n k = held
  cases k with
  | report => cases held <;> rfl
  | _ => rfl

theorem persItem_poisoned {cs : List Nat} {k : ItemK} {bad : Bool} (hb : y.bound n c) (hc : cs.contains c = true)
    (hs : (bad || (y.itemNow n k).any (·.poison)) = true) (f : Sys → Sys) : y.persItem n k cs bad f = y.persPoison n := by
  obtain ⟨hfault, hused, hcode, -⟩ := hb
  unfold Sys.persItem
  simp only [hfault, hused, hcode, hc, hs, Bool.not_true, Bool.or_self, Bool.false_eq_true, if_false, if_true]

theorem turns_noting (n : Nat) (y : Sys) : y.Turns n (y.slot n) (y.persOf n) [] (y.noting n .report) := by
  unfold Sys.noting Sys.persOf
  cases hi : y.itemNow n .report with
  | some i => exact (turns_refl n y).updPers fun p => { p with inEpid := i.epid }
  | none => exact turns_refl n y

end Items

end Sys2Proof.Machine

/-! SUPPORT. Scans (R345-R349): what a character, a scan's end and the gap timer leave. -/

namespace Sys2Proof.Machine

section Scans

variable {y t : Sys} {n : Nat} {S : Slot} {p : Pers} {es : List Spill}

/-- A personality with another scan record. -/
def Pers.setScan (p : Pers) (q : Scan) : Pers := { p with scan := q }

theorem Sys.Turns.updScan (h : y.Turns n S p es t) (f : Scan → Scan) : y.Turns n S (p.setScan (f p.scan)) es (t.updScan n f) :=
  h.updPers fun p => { p with scan := f p.scan }

/-- The end of a scan leaves the timer over and the partial state empty, whatever it reports. -/
theorem Sys.Turns.scanEnd (h : y.Turns n S p es t) (bySuffix gap : Bool) :
    ∃ es', y.Turns n S ((p.stops .gap).setScan { prev := p.scan.prev }) es' (t.scanEnd n bySuffix gap) := by
  have hover := (h.timerOff .gap).updScan fun q => { prev := q.prev }
  unfold Sys.scanEnd
  extract_lets
  split
  · exact ⟨es, hover⟩
  · exact hover.thenEach _ fun i _ u es' hu => hu.persEvent _ _ _ _

/-- What a scan of 1 to 16 characters reports, one event (R349). -/
def scanDws (data sym : List Byte) : List Word :=
  [Word.ofN (data.length + (if sym.isEmpty then 0 else 4) * 4096 + (byteAt sym 0).toNat * 65536 + (byteAt sym 1).toNat * 16777216),
    charDw data 0, charDw data 1, charDw data 2, charDw data 3]

theorem scanRecs_single {data : List Byte} (hpos : 0 < data.length) (hlen : data.length ≤ 16) (sym : List Byte) (a : Nat) (y : Sys) :
    y.scanRecs n data (if sym.isEmpty then 0 else 4) sym a = y.persEvent n 0x40 (y.slot n).pers.inEpid a (scanDws data sym) := by
  have hone : (data.length + 15) / 16 = 1 := by omega
  unfold Sys.scanRecs scanDws
  simp only [hone, List.range_one, each, Nat.mul_zero, List.drop_zero, List.take_of_length_le hlen, Nat.zero_mul, Nat.sub_self,
    Nat.add_zero]

/-- A scan without a PREFIX or an AIM identifier that nothing shortens but the suffix is one event of its data. -/
theorem Sys.Turns.scanEnd_heard (h : y.Turns n S p es t) {i : Nat} {bySuffix : Bool} {data : List Byte} (hf : y.contain.chipFault = false)
    (hi : y.hears n i) (hS : S.inst = (y.slot n).inst ∧ S.port = (y.slot n).port) (hpre : p.b 0 = 0)
    (hsuf : p.code = 2 → bySuffix = false → p.b 1 = 0) (haim : p.code = 1 → p.b 11 % 2 = 0)
    (hdata : (if bySuffix then p.scan.data.take (p.scan.data.length - p.b 1) else p.scan.data) = data)
    (hpos : 0 < data.length) (hlen : data.length ≤ 16) (hmax : data.length ≤ p.b 14) :
    y.Turns n S ((p.stops .gap).setScan { prev := p.scan.prev })
      (es ++ [{ inst := i, seq := 0, ev := y.persEv n 0x40 p.inEpid p.scan.start (scanDws data p.scan.sym) }])
      (t.scanEnd n bySuffix false) := by
  have hover := (h.timerOff .gap).updScan fun q => { prev := q.prev }
  have hbody : (if bySuffix || (p.code == 2 && decide (0 < p.b 1) && lastN (p.b 1) p.scan.data == p.suffix_)
      then p.scan.data.take (p.scan.data.length - p.b 1) else p.scan.data) = data := by
    rw [← hdata]
    cases bySuffix with
    | true => rfl
    | false =>
      by_cases hc : p.code = 2
      · simp [hsuf hc rfl]
      · simp [hc]
  have haim' : (p.code == 1 && p.b 11 % 2 == 1 && byteAt data 0 == 0x5D && decide (3 ≤ data.length)) = false := by
    by_cases hc : p.code = 1
    · simp [haim hc]
    · simp [hc]
  have htake : data.take (p.b 14) = data := List.take_of_length_le hmax
  have hcut : ¬ p.b 14 < data.length := by omega
  have hne : data.isEmpty = false := by
    cases data with
    | nil => simp at hpos
    | cons => rfl
  have hpers := h.pers
  have heq : t.scanEnd n bySuffix false = ((t.timerOff n .gap).updScan n fun q => { prev := q.prev }).scanRecs n data
      (if p.scan.sym.isEmpty then 0 else 4) p.scan.sym p.scan.start := by
    unfold Sys.scanEnd
    simp only [hpers, hpre, List.take_zero, Pers.prefix_, Pers.seq, beq_self_eq_true, if_true, List.drop_zero, hbody, haim',
      Bool.false_eq_true, if_false, htake, hne, hcut, Bool.false_and, Nat.zero_add]
  rw [heq, scanRecs_single hpos hlen, hover.pers]
  exact hover.persEvent_heard hf hi hS _ _ _ _

/-- A character of a scan without a PREFIX: it joins the data, or begins it. -/
def Scan.put (q : Scan) (c : Byte) (a : Nat) : Scan :=
  { q with active := true, data := if q.active then q.data ++ [c] else [c], start := if q.active then q.start else a }

theorem Sys.Turns.scanPut (h : y.Turns n S p es t) (hpre : p.b 0 = 0) (c : Byte) (a : Nat) :
    ∃ u, y.Turns n S (p.setScan (p.scan.put c a)) es u ∧
      t.scanPut n c a = if decide (0 < p.b 1) && lastN (p.b 1) (p.scan.put c a).data == p.suffix_ then u.scanEnd n true false else u := by
  have hpers := h.pers
  cases hq : p.scan.active with
  | true =>
    have hu := h.updScan fun q => { q with data := q.data ++ [c] }
    have hput : p.scan.put c a = { p.scan with data := p.scan.data ++ [c] } := by
      unfold Scan.put
      simp only [hq, if_true]
    refine ⟨_, hput ▸ hu, ?_⟩
    unfold Sys.scanPut
    simp only [hpers, hq, if_true, hu.pers, Pers.setScan, Bool.true_and, hput]
  | false =>
    have hu := h.updScan fun q => { q with active := true, data := [c], start := a }
    have hput : p.scan.put c a = { p.scan with active := true, data := [c], start := a } := by
      unfold Scan.put
      simp only [hq, Bool.false_eq_true, if_false]
    refine ⟨_, hput ▸ hu, ?_⟩
    unfold Sys.scanPut
    simp only [hpers, hq, Bool.false_eq_true, if_false, hpre, if_true, hu.pers, Pers.setScan, Bool.true_and, hput]

/-- The gap timer starts for a scan that has begun. -/
theorem Sys.Turns.scanArm (h : y.Turns n S p es t) (hq : p.scan.active = true) (a : Nat) :
    y.Turns n S ((y.arms .gap a (p.h 12) p).setScan { p.scan with gap := y.persDue a (p.h 12) }) es (t.scanArm n a) := by
  have harm := (h.armTimer .gap a (p.h 12)).updScan fun q => { q with gap := t.persDue a (p.h 12) }
  have heq : t.scanArm n a = (t.armTimer n .gap a (p.h 12)).updScan n fun q => { q with gap := t.persDue a (p.h 12) } := by
    unfold Sys.scanArm
    simp only [h.pers, hq, Bool.true_or, if_true]
  rw [heq, ← h.persDue a (p.h 12)]
  exact harm

/-- Nothing to time where no scan and no partial PREFIX has begun. -/
theorem Sys.Turns.scanArm_idle (h : y.Turns n S p es t) (hq : p.scan.active = false) (hr : p.scan.recent = []) (a : Nat) :
    t.scanArm n a = t := by
  unfold Sys.scanArm
  simp only [h.pers, hq, hr, List.isEmpty_nil, Bool.not_true, Bool.or_self, Bool.false_eq_true, if_false]

/-- A character that joins a scan without a PREFIX or suffix. -/
theorem Sys.Turns.scanKey_joins (h : y.Turns n S p es t) (hpre : p.b 0 = 0) (hsuf : p.b 1 = 0) (c : Byte) (a : Nat) :
    y.Turns n S ((y.arms .gap a (p.h 12) p).setScan { p.scan.put c a with gap := y.persDue a (p.h 12) }) es
      ((t.scanPut n c a).scanArm n a) := by
  obtain ⟨u, hu, hput⟩ := h.scanPut hpre c a
  have hnext : t.scanPut n c a = u := hput.trans (if_neg (by rw [hsuf]; simp))
  rw [hnext]
  exact hu.scanArm rfl a

/-- A character that is the suffix ends the scan, which is reported without it. -/
theorem Sys.Turns.scanKey_ends (h : y.Turns n S p es t) {i : Nat} {c : Byte} (hf : y.contain.chipFault = false) (hi : y.hears n i)
    (hS : S.inst = (y.slot n).inst ∧ S.port = (y.slot n).port) (hpre : p.b 0 = 0) (hlen : p.b 1 = 1)
    (hsuf : p.suffix_ = [c]) (haim : p.b 11 % 2 = 0) (hact : p.scan.active = true) (hpos : 0 < p.scan.data.length)
    (hmax : p.scan.data.length ≤ 16) (hlim : p.scan.data.length ≤ p.b 14) (a : Nat) :
    y.Turns n S ((p.stops .gap).setScan { prev := p.scan.prev })
      (es ++ [{ inst := i, seq := 0, ev := y.persEv n 0x40 p.inEpid p.scan.start (scanDws p.scan.data p.scan.sym) }])
      ((t.scanPut n c a).scanArm n a) := by
  obtain ⟨u, hu, hput⟩ := h.scanPut hpre c a
  have hdata : (p.scan.put c a).data = p.scan.data ++ [c] := if_pos hact
  have hstart : (p.scan.put c a).start = p.scan.start := if_pos hact
  have hnext : t.scanPut n c a = u.scanEnd n true false := hput.trans (if_pos (by rw [hdata, hlen, hsuf]; simp [lastN]))
  have hends := hu.scanEnd_heard (bySuffix := true) (data := p.scan.data) hf hi hS hpre (fun _ h => absurd h (by decide))
    (fun _ => haim) (by
      have hb : (p.setScan (p.scan.put c a)).b 1 = 1 := hlen
      have hd : (p.setScan (p.scan.put c a)).scan.data = p.scan.data ++ [c] := hdata
      rw [if_pos rfl, hd, hb]
      simp) hpos hmax hlim
  have harm : (u.scanEnd n true false).scanArm n a = u.scanEnd n true false := hends.scanArm_idle rfl rfl a
  rw [hnext, harm, ← hstart]
  exact hends

end Scans

/-! The obligation. -/

section Keys

variable {y t : Sys} {n : Nat} {rep : List Byte}

/-- A keyboard report with one new key: nothing but the keys is noted where it has no character. -/
theorem turns_scanKbd_blank (hroll : rollOver (bootKeys rep) = false) {k : Byte}
    (hk : pressed (y.persOf n).scan.prev (bootKeys rep) = [k]) (hv : scanChar ((y.persOf n).b 10) k (byteAt rep 0) = 0) :
    y.Turns n (y.slot n) ((y.persOf n).setScan { (y.persOf n).scan with prev := bootKeys rep }) []
      ((y.noting n .report).scanKbd n rep) := by
  have h := turns_noting n y
  have hprev := h.updScan fun q => { q with prev := bootKeys rep }
  unfold Sys.scanKbd
  simp only [hroll, h.pers, hk, hv, List.filterMap_cons, List.filterMap_nil, if_true, Bool.false_eq_true, if_false, each,
    List.isEmpty_nil]
  exact hprev

/-- What a new key with a character does, once the keys are noted. -/
theorem scanKbd_char (hroll : rollOver (bootKeys rep) = false) {k : Byte}
    (hk : pressed (y.persOf n).scan.prev (bootKeys rep) = [k]) (hv : scanChar ((y.persOf n).b 10) k (byteAt rep 0) ≠ 0) :
    ∃ u, y.Turns n (y.slot n) ((y.persOf n).setScan { (y.persOf n).scan with prev := bootKeys rep }) [] u ∧
      (y.noting n .report).scanKbd n rep =
        (u.scanPut n (BitVec.ofNat 8 (scanChar ((y.persOf n).b 10) k (byteAt rep 0))) (y.reportAt n)).scanArm n (y.reportAt n) := by
  have h := turns_noting n y
  have hprev := h.updScan fun q => { q with prev := bootKeys rep }
  refine ⟨_, hprev, ?_⟩
  unfold Sys.scanKbd
  simp only [hroll, h.pers, hk, hv, List.filterMap_cons, List.filterMap_nil, Bool.false_eq_true, if_false, each,
    List.isEmpty_cons, hprev.reportAt]

end Keys

section Poison

variable {y : Sys} {n : Nat}

/-- The partial state of a personality is discarded, its timers over. -/
def Sys.persDrop (n : Nat) (y : Sys) : Sys :=
  (((y.timerOff n .gap).timerOff n .sense).timerOff n .stab).updPers n fun p =>
    { p with scan := { prev := p.scan.prev }, scale := { p.scale with cand := none }, drw := { p.drw with cand := none } }

theorem persDrop_slots (n : Nat) (y : Sys) : y.keepsSlots (y.persDrop n) n ∧
    ((y.persDrop n).slot n).pers.scan = { prev := (y.slot n).pers.scan.prev } := by
  have h := ((((turns_refl n y).timerOff .gap).timerOff .sense).timerOff .stab).updPers fun p =>
    { p with scan := { prev := p.scan.prev }, scale := { p.scale with cand := none }, drw := { p.drw with cand := none } }
  exact ⟨h.rest, congrArg Pers.scan h.pers⟩

theorem timerOff_inst (n i : Nat) (k : PTimer) (y : Sys) : (y.timerOff n k).inst i = y.inst i := rfl

theorem persDrop_inst (n i : Nat) (y : Sys) : (y.persDrop n).inst i = y.inst i := by
  have hpers (f : Pers → Pers) (z : Sys) : (z.updPers n f).inst i = z.inst i := rfl
  unfold Sys.persDrop
  rw [hpers, timerOff_inst, timerOff_inst, timerOff_inst]

theorem persPoison_heard {i : Nat} (hi : (y.slot n).inst = some i) :
    y.persPoison n = (y.updInst i fun z => { z with lostPend := true }).persDrop n := by
  unfold Sys.persPoison
  rw [hi]
  rfl

theorem persPoison_unheard (hi : (y.slot n).inst = none) : y.persPoison n = y.persDrop n := by
  unfold Sys.persPoison
  rw [hi]
  rfl

/-- A poisoned item ends the partial state. -/
theorem persPoison_slots (n : Nat) (y : Sys) : y.keepsSlots (y.persPoison n) n ∧
    ((y.persPoison n).slot n).pers.scan = { prev := (y.slot n).pers.scan.prev } := by
  cases hi : (y.slot n).inst with
  | none =>
    rw [persPoison_unheard hi]
    exact persDrop_slots n y
  | some i =>
    rw [persPoison_heard hi]
    exact persDrop_slots n (y.updInst i fun z => { z with lostPend := true })

/-- … and the tenant's next event carries LOST (R331). -/
theorem persPoison_lost {i : Nat} (hi : (y.slot n).inst = some i) : ((y.persPoison n).inst i).lostPend = true := by
  rw [persPoison_heard hi, persDrop_inst, updInst_inst_self]

end Poison

/-- A report changes which endpoint is named, and nothing else of the personality. -/
theorem persOf_scan (n : Nat) (y : Sys) : (y.persOf n).scan = (y.slot n).pers.scan := by
  unfold Sys.persOf
  split <;> rfl

theorem persOf_code (n : Nat) (y : Sys) : (y.persOf n).code = (y.slot n).pers.code := by
  unfold Sys.persOf
  split <;> rfl

/-- A point-of-sale report taken into the scan (R347). -/
def Scan.take (q : Scan) (rep : PosReport) (a : Nat) : Scan :=
  { q with active := true, start := if q.data.isEmpty then a else q.start, data := q.data ++ rep.decoded,
           sym := if rep.sym2 != 0 then [rep.sym2, rep.sym3] else q.sym }

/-- The state in which a point-of-sale report has joined the scan. -/
theorem turns_scanPos {y : Sys} {n : Nat} (rep : PosReport) (hany : rep.cont = true ∨ 0 < rep.decoded.length) :
    ∃ u, y.Turns n (y.slot n) ((y.persOf n).setScan ((y.persOf n).scan.take rep (y.reportAt n))) [] u ∧
      (y.noting n .report).scanPos n rep = if rep.cont then u.scanArm n (y.reportAt n) else u.scanEnd n false false := by
  have h := turns_noting n y
  have hu := h.updScan fun q => q.take rep (y.reportAt n)
  have hsome : ((y.persOf n).scan.active || !rep.decoded.isEmpty || rep.cont) = true := by
    obtain hc | hd := hany
    · rw [hc, Bool.or_true]
    · cases hl : rep.decoded with
      | nil => rw [hl] at hd; exact absurd hd (by decide)
      | cons => simp
  refine ⟨_, hu, ?_⟩
  unfold Sys.scanPos
  simp only [h.pers, h.reportAt, hsome, if_true]
  rfl

theorem scanGap_idle {y : Sys} {n : Nat} (h : (y.slot n).pers.scan.gap = 0 ∨ y.timerUp n .gap = false) : y.scanGap n = y := by
  refine if_pos ?_
  obtain h | h := h
  · simp [h]
  · simp [h]

/-- The gap timer's end, where it is due (R346). -/
theorem scanGap_due {y : Sys} {n : Nat} (hgap : (y.slot n).pers.scan.gap ≠ 0) (hup : y.timerUp n .gap = true) :
    y.scanGap n = if (y.slot n).pers.scan.active then y.scanEnd n false true
      else (y.timerOff n .gap).updScan n fun q => { q with recent := [], gap := 0 } :=
  if_neg (by simp [hgap, hup])

/-- What a sound keyboard report of a scanner does. -/
theorem does_scanKbd {s : State} {n : Fin 8193} {rep : List Byte} {P : Sys → Prop} (hops : s.operates = true) (hb : s.sys.bound n 1)
    (hs : (s.sys.itemNow n .report).any (·.poison) = false) (hP : P ((s.sys.noting n .report).scanKbd n rep)) :
    Does (.scanKbdReport n rep false) s P :=
  does_live_eq (execScanKbdReport n rep false) rfl rfl hops (persItem_served hb (by decide) hs _) hP

/-- Settles O41: a sound report is one character put and timed, or the scan's end; a poisoned one ends the partial state. -/
theorem scansCollectAndReport : Obligations.scans_collect_and_report := by
  unfold Obligations.scans_collect_and_report
  refine ⟨fun s n rep hops hb => ?_, fun s n rep hops ⟨hb, hs⟩ hpo => ?_, fun s n c hops hc ⟨hb, hs⟩ => ?_⟩
  · intro p q now sound holds
    have hclean : sound = true → (s.sys.itemNow n .report).any (·.poison) = false := fun h => by simpa [sound] using h
    refine ⟨fun hs hroll => ?_, fun k hs hroll hk hpre => ?_, fun bad hbad => ?_⟩
    · refine does_scanKbd hops hb (hclean hs) ?_
      have h := turns_noting n.val s.sys
      unfold Sys.scanKbd
      simp only [hroll, if_true]
      exact ⟨h.rest, h.self⟩
    · intro v c
      refine ⟨fun hsuf => does_scanKbd hops hb (hclean hs) ?_,
        fun i hi hlen hsuf haim hact hsym hrec hpos hmax hlim => does_scanKbd hops hb (hclean hs) ?_⟩
      · by_cases hv : v = 0
        · have h := turns_scanKbd_blank hroll hk hv
          exact ⟨h.rest, fun _ => h.self, fun hn => absurd hv hn⟩
        · obtain ⟨u, hu, heq⟩ := scanKbd_char hroll hk hv
          have h := hu.scanKey_joins hpre hsuf c now
          rw [heq]
          exact ⟨h.rest, fun h => absurd h hv, fun _ => h.self⟩
      · by_cases hv : v = 0
        · have h := turns_scanKbd_blank hroll hk hv
          exact ⟨fun _ => h.self, fun hn => absurd hv hn⟩
        · obtain ⟨u, hu, heq⟩ := scanKbd_char hroll hk hv
          have h := hu.scanKey_ends hb.1 hi ⟨rfl, rfl⟩ hpre hlen hsuf haim hact hpos hmax hlim now
          rw [heq]
          have hdws : scanDws q.data q.sym = [Word.ofN q.data.length, charDw q.data 0, charDw q.data 1, charDw q.data 2,
              charDw q.data 3] := by
            unfold scanDws
            rw [hsym]
            rfl
          refine ⟨fun h => absurd h hv, fun _ => ⟨h.self, ?_⟩⟩
          rw [← hdws]
          exact h.evq
    · refine does_live_eq (execScanKbdReport n rep bad) rfl rfl hops (persItem_poisoned hb (by decide) ?_ _) ?_
      · obtain rfl | hp := hbad
        · rfl
        · simpa [sound] using Or.inr hp
      · obtain ⟨hrest, hscan⟩ := persPoison_slots n.val s.sys
        exact ⟨hrest, hscan.trans (by rw [← persOf_scan]), fun i hi => persPoison_lost hi⟩
  · intro p q now sym start data
    have hserved := persItem_served (cs := [2]) hb (by decide) hs (Sys.scanPos n rep)
    refine ⟨fun hcont => ?_, fun i hi hcont hpre hsuf hpos hmax hlim => ?_⟩
    · obtain ⟨u, hu, heq⟩ := turns_scanPos (y := s.sys) (n := n.val) rep (.inl hcont)
      have h := hu.scanArm rfl now
      refine does_live_eq (execScanPosReport n rep) rfl rfl hops ((congrArg (fun b => Sys.persItem n .report [2] b _ _) hpo).trans
        (hserved.trans (heq.trans (if_pos hcont)))) ⟨h.rest, h.self⟩
    · obtain ⟨u, hu, heq⟩ := turns_scanPos (y := s.sys) (n := n.val) rep (.inr hpos)
      have hdpos : 0 < data.length := by
        rw [List.length_append]
        omega
      have h := hu.scanEnd_heard (bySuffix := false) (data := data) hb.1 hi ⟨rfl, rfl⟩ hpre (fun _ _ => hsuf)
        (fun h => absurd (hb.2.2.1.symm.trans ((persOf_code n s.sys).symm.trans h)) (by decide)) rfl hdpos hmax hlim
      refine does_live_eq (execScanPosReport n rep) rfl rfl hops ((congrArg (fun b => Sys.persItem n .report [2] b _ _) hpo).trans
        (hserved.trans (heq.trans (if_neg (by rw [hcont]; decide))))) ⟨h.evq, h.rest, congrArg Pers.scan h.pers⟩
  · intro q up
    have hin : [1, 2].contains c = true := by
      obtain rfl | rfl := hc
      · decide
      · decide
    have hserved := persItem_served hb hin hs (Sys.scanGap n)
    refine ⟨fun hidle => ?_, fun hgap hup hact => ?_, fun hgap hup hact => ?_⟩
    · have hsame : Sys.scanGap n (s.sys.noting n .expiry) = s.sys := scanGap_idle hidle
      rw [exec_live (execScanGapExpiry n) rfl rfl hops, hserved, hsame]
    · have h := ((turns_refl n.val s.sys).timerOff .gap).updScan fun q => { q with recent := [], gap := 0 }
      refine does_live_eq (execScanGapExpiry n) rfl rfl hops (hserved.trans ((scanGap_due hgap hup).trans (if_neg (by rw [hact]; decide)))) ?_
      exact ⟨h.rest, congrArg Pers.scan h.pers⟩
    · obtain ⟨es, h⟩ := (turns_refl n.val s.sys).scanEnd false true
      refine does_live_eq (execScanGapExpiry n) rfl rfl hops (hserved.trans ((scanGap_due hgap hup).trans (if_pos hact))) ?_
      exact ⟨h.rest, congrArg Pers.scan h.pers⟩

end Sys2Proof.Machine

/-! SUPPORT. The scale and the keyboard (R350, R351, R361). -/

namespace Sys2Proof.Machine

section Scales

variable {y t : Sys} {n : Nat} {S : Slot} {p : Pers} {es : List Spill}

/-- A personality with another scale record. -/
def Pers.setScale (p : Pers) (q : Scale) : Pers := { p with scale := q }

theorem Sys.Turns.updScale (h : y.Turns n S p es t) (f : Scale → Scale) : y.Turns n S (p.setScale (f p.scale)) es (t.updScale n f) :=
  h.updPers fun p => { p with scale := f p.scale }

theorem scaleDws_big {r : ScaleReport} (hb : scaleBig r = false) (t y : Sys) : t.scaleDws r = y.scaleDws r := by
  unfold Sys.scaleDws
  rw [hb]
  rfl

/-- A BAD scale shows no weight. -/
theorem bad_hidden : (ScaleSt.bad == ScaleSt.stable || ScaleSt.bad == ScaleSt.zero) = false := rfl

theorem bad_unstable : (ScaleSt.bad == ScaleSt.stable) = false := rfl

theorem stable_still : (ScaleStatus.stable == ScaleStatus.inMotion) = false := rfl

/-- A report that leaves the scale BAD, where it was. -/
theorem Sys.Turns.scaleIn_bad (h : y.Turns n S p es t) {r : ScaleReport} (hr : scaleReason r ≠ 0) (hst : p.scale.st = .bad) :
    y.Turns n S ((p.stops .stab).setScale { p.scale with cand := none }) es (t.scaleIn n r) := by
  have hover := (h.timerOff .stab).updScale fun s => { s with st := .bad, cand := none }
  have heq : t.scaleIn n r = (t.timerOff n .stab).updScale n fun s => { s with st := .bad, cand := none } := by
    unfold Sys.scaleIn
    simp only [h.pers, hst, hr, ne_eq, not_false_eq_true, if_true, bad_hidden, Bool.false_eq_true, if_false]
  have hq : p.setScale { p.scale with cand := none } = p.setScale { p.scale with st := .bad, cand := none } := by rw [← hst]
  rw [heq, show (p.stops .stab).setScale { p.scale with cand := none } = (p.stops .stab).setScale { p.scale with st := .bad, cand := none }
    from congrArg (fun z : Pers => z.stops .stab) hq]
  exact hover

/-- A stable weight that a report ends, reported with its reason. -/
theorem Sys.Turns.scaleIn_unstable (h : y.Turns n S p es t) {i : Nat} {r : ScaleReport} (hf : y.contain.chipFault = false)
    (hi : y.hears n i) (hS : S.inst = (y.slot n).inst ∧ S.port = (y.slot n).port) (hr : scaleReason r ≠ 0) (hst : p.scale.st = .stable)
    (hb : scaleBig r = false) :
    y.Turns n S ((p.stops .stab).setScale { p.scale with st := .bad, cand := none })
      (es ++ [{ inst := i, seq := 0, ev := y.persEv n 0x42 p.inEpid (y.reportAt n) (y.scaleDws r ++ [Word.ofN (scaleReason r)]) }])
      (t.scaleIn n r) := by
  have hev := h.persEvent_heard hf hi hS 0x42 p.inEpid (y.reportAt n) (y.scaleDws r ++ [Word.ofN (scaleReason r)])
  have hover := (hev.timerOff .stab).updScale fun s => { s with st := .bad, cand := none }
  unfold Sys.scaleIn Sys.unstable
  simp only [h.pers, hst, hr, ne_eq, not_false_eq_true, if_true, h.reportAt, hb, Bool.false_eq_true, if_false,
    scaleDws_big hb t y, beq_self_eq_true, Bool.true_or]
  exact hover

/-- A steady report of a scale that is BAD begins a candidate. -/
theorem Sys.Turns.scaleIn_begins (h : y.Turns n S p es t) {r : ScaleReport} (hr : scaleReason r = 0) (hsteady : r.st = .stable)
    (hst : p.scale.st = .bad) (hc : p.scale.cand = none) :
    y.Turns n S ((y.arms .stab (y.reportAt n) (p.h 0) p).setScale
      { p.scale with timer := p.scale.timer + 1
                     cand := some { v := r.v, last := r, timer := p.scale.timer + 1, due := y.persDue (y.reportAt n) (p.h 0) } })
      es (t.scaleIn n r) := by
  have harm := (h.armTimer .stab (y.reportAt n) (p.h 0)).updScale fun s =>
    { s with timer := s.timer + 1
             cand := some { v := r.v, last := r, timer := s.timer + 1, due := y.persDue (y.reportAt n) (p.h 0) } }
  have heq : t.scaleIn n r = (t.armTimer n .stab (y.reportAt n) (p.h 0)).updScale n fun s =>
      { s with timer := s.timer + 1
               cand := some { v := r.v, last := r, timer := s.timer + 1, due := y.persDue (y.reportAt n) (p.h 0) } } := by
    unfold Sys.scaleIn
    simp only [h.pers, hst, hc, hr, hsteady, ne_eq, not_true_eq_false, if_false, Bool.false_eq_true,
      Bool.false_and, h.reportAt, h.persDue, bad_hidden, stable_still]
  rw [heq]
  exact harm

/-- The candidate's time is up: it counts as reported (R351). -/
def ScaleCand.over (c : ScaleCand) : ScaleCand := { c with timer := 0 }

/-- The end of a candidate's time at no weight: ZERO, whether or not that is reported. -/
theorem Sys.Turns.scaleTimer_zero (h : y.Turns n S p es t) {c : ScaleCand} (hc : p.scale.cand = some c) (hc0 : c.timer ≠ 0)
    (hup : t.timerUp n .stab = true) (hz : gapOf c.last.v 0 ≤ (p.h 4 : Int)) :
    ∃ es', y.Turns n S ((p.stops .stab).setScale { p.scale with st := .zero, shown := c.last.v, cand := some c.over }) es'
      (t.scaleTimer n c.timer) := by
  have hover := (h.timerOff .stab).updScale fun s => { s with cand := some c.over }
  unfold Sys.scaleTimer
  simp only [h.pers, hc, hc0, hup, ne_eq, not_true_eq_false, Bool.not_true, Bool.false_eq_true, or_self, if_false, hz, if_true]
  split
  · obtain ⟨es', hev⟩ := hover.persEvent 0x43 p.inEpid c.due
      (((t.timerOff n .stab).updScale n fun s => { s with cand := some c.over }).scaleDws c.last)
    exact ⟨es', hev.updScale fun s => { s with st := .zero, shown := c.last.v }⟩
  · exact ⟨es, hover.updScale fun s => { s with st := .zero, shown := c.last.v }⟩

/-- The end of a candidate's time at a weight that a BAD scale can report: STABLE, reported with its number. -/
theorem Sys.Turns.scaleTimer_stable (h : y.Turns n S p es t) {i : Nat} {c : ScaleCand} {m : Int} (hf : y.contain.chipFault = false)
    (hi : y.hears n i) (hS : S.inst = (y.slot n).inst ∧ S.port = (y.slot n).port) (hc : p.scale.cand = some c) (hc0 : c.timer ≠ 0)
    (hup : t.timerUp n .stab = true) (hz : (p.h 4 : Int) < gapOf c.last.v 0) (hm : scaleMg c.last = some m)
    (hl : (leNat (p.seq 6 4) : Int) ≤ m) (hst : p.scale.st = .bad) (hb : scaleBig c.last = false) :
    y.Turns n S ((p.stops .stab).setScale
        { p.scale with st := .stable, shown := c.last.v, seq := p.scale.seq + 1, cand := some c.over })
      (es ++ [{ inst := i, seq := 0, ev := y.persEv n 0x41 p.inEpid c.due (y.scaleDws c.last ++ [Word.ofN (p.scale.seq % 65536)]) }])
      (t.scaleTimer n c.timer) := by
  have hover := (h.timerOff .stab).updScale fun s => { s with cand := some c.over }
  have hev := (hover.persEvent_heard hf hi hS 0x41 p.inEpid c.due (y.scaleDws c.last ++ [Word.ofN (p.scale.seq % 65536)])).updScale
    fun s => { s with st := .stable, shown := c.last.v, seq := s.seq + 1 }
  unfold Sys.scaleTimer
  simp only [h.pers, hc, hc0, hup, ne_eq, not_true_eq_false, Bool.not_true, Bool.false_eq_true, or_self, if_false, not_le.2 hz, hm,
    not_lt.2 hl, decide_false, hst, bad_unstable, Bool.false_and, scaleDws_big hb _ y]
  exact hev

end Scales

section Keyboard

variable {y t : Sys} {n : Nat} {S : Slot} {p : Pers} {es : List Spill} {rep : List Byte}

theorem Sys.Turns.keyIn_roll (h : y.Turns n S p es t) (hroll : rollOver (bootKeys rep) = true) : y.Turns n S p es (t.keyIn n rep) := by
  unfold Sys.keyIn
  simp only [hroll, if_true]
  exact h

/-- One new key under unchanged modifiers, where releases are not reported, is one event. -/
theorem Sys.Turns.keyIn_press (h : y.Turns n S p es t) {i : Nat} {k : Byte} (hf : y.contain.chipFault = false) (hi : y.hears n i)
    (hS : S.inst = (y.slot n).inst ∧ S.port = (y.slot n).port) (hroll : rollOver (bootKeys rep) = false) (hrel : p.b 1 % 2 = 0)
    (hk : pressed p.keys (bootKeys rep) = [k]) (hm : BitVec.ofNat 8 p.mods = byteAt rep 0) :
    y.Turns n S { p with keys := bootKeys rep, mods := (byteAt rep 0).toNat }
      (es ++ [{ inst := i, seq := 0, ev := y.persEv n 0x48 p.inEpid (y.reportAt n) [
        Word.ofN (k.toNat + (byteAt rep 0).toNat * 256 + 65536), Word.ofN (keyPoint (p.b 0) k (byteAt rep 0))] }])
      (t.keyIn n rep) := by
  have hev := (h.persEvent_heard hf hi hS 0x48 p.inEpid (y.reportAt n)
    [Word.ofN (k.toNat + (byteAt rep 0).toNat * 256 + 65536), Word.ofN (keyPoint (p.b 0) k (byteAt rep 0))]).updPers
    fun p => { p with keys := bootKeys rep, mods := (byteAt rep 0).toNat }
  have hsame (z : Sys) : each (fun i (y : Sys) =>
      if (byteAt rep 0).getLsbD i != (byteAt rep 0).getLsbD i && ((byteAt rep 0).getLsbD i || (0 == 1)) then
        y.keyEvent n (BitVec.ofNat 8 (0xE0 + i)) (byteAt rep 0) ((byteAt rep 0).getLsbD i) else y) (List.range 8) z = z :=
    each_id _ fun i _ => if_neg (by simp)
  have hnever : ((0 : Nat) == 1) = false := rfl
  have heq : t.keyIn n rep = (t.keyEvent n k (byteAt rep 0) true).updPers n fun p =>
      { p with keys := bootKeys rep, mods := (byteAt rep 0).toNat } := by
    unfold Sys.keyIn
    simp only [hroll, Bool.false_eq_true, if_false, h.pers, hm, hrel, hk, each, hsame]
    simp only [hnever, Bool.false_eq_true, if_false]
  rw [heq]
  unfold Sys.keyEvent
  simp only [h.pers, h.reportAt, if_true]
  exact hev

end Keyboard

/-- Settles O42: each clause is one turn of the scale or the keyboard on the slot as the item finds it. -/
theorem weightsAndKeysAreJudged : Obligations.weights_and_keys_are_judged := by
  unfold Obligations.weights_and_keys_are_judged
  refine ⟨fun s n r hops ⟨hb, hs⟩ hpo => ?_, fun s n tm c hops ⟨hb, hs⟩ => ?_, fun s n rep hops ⟨hb, hs⟩ => ?_⟩
  · intro p now c
    have h := turns_noting n.val s.sys
    have hserved : Sys.persItem n .report [3] r.poison (Sys.scaleIn n r) s.sys = Sys.scaleIn n r (s.sys.noting n .report) := by
      rw [hpo]
      exact persItem_served hb (by decide) hs _
    refine ⟨fun hr hst => ?_, fun i hi hr hst hbig => ?_, fun hr hsteady hst hc => ?_⟩
    · have hbad := h.scaleIn_bad hr hst
      exact does_live_eq (execScaleReport n r) rfl rfl hops hserved ⟨hbad.rest, congrArg Pers.scale hbad.pers⟩
    · have hun := h.scaleIn_unstable hb.1 hi ⟨rfl, rfl⟩ hr hst hbig
      exact does_live_eq (execScaleReport n r) rfl rfl hops hserved ⟨hun.evq, congrArg Pers.scale hun.pers⟩
    · have hnew := h.scaleIn_begins hr hsteady hst hc
      exact does_live_eq (execScaleReport n r) rfl rfl hops hserved ⟨hnew.rest, congrArg Pers.scale hnew.pers⟩
  · intro p hc htm hne hup
    subst htm
    have h := turns_refl n.val s.sys
    have hserved : Sys.persItem n .expiry [3] false (Sys.scaleTimer n c.timer) s.sys = Sys.scaleTimer n c.timer s.sys :=
      persItem_served hb (by decide) hs _
    refine ⟨fun hz => ?_, fun i m hi hz hm hl hst hbig => ?_⟩
    · obtain ⟨es, hzero⟩ := h.scaleTimer_zero hc hne hup hz
      exact does_live_eq (execScaleStabilityExpiry n c.timer) rfl rfl hops hserved ⟨hzero.rest, congrArg Pers.scale hzero.pers⟩
    · have hst := h.scaleTimer_stable hb.1 hi ⟨rfl, rfl⟩ hc hne hup hz hm hl hst hbig
      exact does_live_eq (execScaleStabilityExpiry n c.timer) rfl rfl hops hserved ⟨hst.evq, congrArg Pers.scale hst.pers⟩
  · intro p
    have h := turns_noting n.val s.sys
    have hserved := persItem_served (cs := [7]) hb (by decide) hs (Sys.keyIn n rep)
    refine ⟨fun hroll => ?_, fun i k hi hroll hrel hk hm => ?_⟩
    · have hsame := h.keyIn_roll hroll
      exact does_live_eq (execKeyboardReport n rep false) rfl rfl hops hserved ⟨hsame.rest, hsame.pers⟩
    · have hkey := h.keyIn_press hb.1 hi ⟨rfl, rfl⟩ hroll hrel hk hm
      exact does_live_eq (execKeyboardReport n rep false) rfl rfl hops hserved ⟨hkey.evq, hkey.rest, hkey.pers⟩

end Sys2Proof.Machine

/-! SUPPORT. The printer (R352-R355). -/

namespace Sys2Proof.Machine

section Bits

/-- `putBit` writes the bit where it stands. -/
theorem putBit_eq (w b : Nat) (v : Bool) : putBit w b v = 2 ^ b * (2 * (w / 2 ^ b / 2) + v.toNat) + w % 2 ^ b := by
  have hw := Nat.div_add_mod w (2 ^ b)
  have hq := Nat.div_add_mod (w / 2 ^ b) 2
  have hbit : Nat.testBit w b = decide (w / 2 ^ b % 2 = 1) := Nat.testBit_eq_decide_div_mod_eq
  unfold putBit
  rw [hbit]
  generalize w / 2 ^ b = q at *
  generalize w % 2 ^ b = r at *
  generalize 2 ^ b = P at *
  generalize q / 2 = h at *
  subst hw
  obtain he | he := Nat.mod_two_eq_zero_or_one q
  · rw [he, Nat.add_zero] at hq
    subst hq
    cases v with
    | false => simp
    | true => simp [Nat.mul_add]; omega
  · rw [he] at hq
    subst hq
    cases v with
    | false => simp [Nat.mul_add]; omega
    | true => simp [Nat.mul_add]; omega

theorem testBit_putBit (w b c : Nat) (v : Bool) : Nat.testBit (putBit w b v) c = if c = b then v else Nat.testBit w c := by
  have hlt : w % 2 ^ b < 2 ^ b := Nat.mod_lt _ (Nat.two_pow_pos b)
  rw [putBit_eq, Nat.testBit_two_pow_mul_add _ hlt]
  obtain hc | rfl | hc := Nat.lt_trichotomy c b
  · simp [hc, hc.ne, Nat.testBit_mod_two_pow]
  · cases v with
    | false => simp
    | true => simp
  · obtain ⟨k, rfl⟩ : ∃ k, c = k + 1 + b := ⟨c - b - 1, by omega⟩
    rw [if_neg (by omega), if_neg (by omega), Nat.add_sub_cancel, Nat.testBit_succ, Nat.testBit_add, Nat.testBit_succ]
    congr 1
    cases v with
    | false => simp
    | true => simp; omega
end Bits

section Printers

variable {y t : Sys} {n : Nat} {S : Slot} {p : Pers} {es : List Spill}

/-- A personality with another printer record. -/
def Pers.setPrn (p : Pers) (q : Printer) : Pers := { p with prn := q }

theorem Sys.Turns.updPrn (h : y.Turns n S p es t) (f : Printer → Printer) :
    y.Turns n S (p.setPrn (f p.prn)) es (t.updPers n fun p => { p with prn := f p.prn }) :=
  h.updPers fun p => { p with prn := f p.prn }

/-- A new status is shown, and the rest of the printer's record but what times a job's end stays, whatever is reported. -/
theorem Sys.Turns.prnStatus (h : y.Turns n S p es t) (epid st a : Nat) :
    ∃ es' p', y.Turns n S p' es' (t.prnStatus n epid st a) ∧ p'.prn.status = st ∧ p'.prn.job = p.prn.job ∧ p'.inEpid = p.inEpid := by
  have hst := h.updPrn fun q => { q with status := st }
  unfold Sys.prnStatus
  extract_lets q complete z w
  have hw : ∃ es' p', y.Turns n S p' es' w ∧ p'.prn.status = st ∧ p'.prn.job = p.prn.job ∧ p'.inEpid = p.inEpid := by
    simp only [w]
    split
    · split
      · obtain ⟨es', hev⟩ := hst.persEvent 0x47 epid a [Word.ofN (st + 0x1FF * 65536)]
        exact ⟨es', _, hev.updPrn fun q => { q with first := false }, rfl, rfl, rfl⟩
      · exact ⟨es, _, hst, rfl, rfl, rfl⟩
    · split
      · obtain ⟨es', hev⟩ := hst.persEvent 0x47 epid a [Word.ofN (st + (st ^^^ q.status) * 65536)]
        exact ⟨es', _, hev, rfl, rfl, rfl⟩
      · exact ⟨es, _, hst, rfl, rfl, rfl⟩
  obtain ⟨es', p', hw, hkeep⟩ := hw
  split
  · exact ⟨es', _, (hw.armTimer .idle a _).updPrn fun q => { q with idleWait := false, idleDue := true }, hkeep⟩
  · exact ⟨es', p', hw, hkeep⟩

/-- The end of a job leaves the count 0 and nothing timed. -/
theorem Sys.Turns.printDone (h : y.Turns n S p es t) (epid a : Nat) :
    ∃ es', y.Turns n S ((p.stops .idle).setPrn { p.prn with job := 0, idleDue := false, idleWait := false }) es' (t.printDone n epid a) := by
  obtain ⟨es', hev⟩ := h.persEvent 0x46 epid a [Word.ofN (t.slot n).pers.prn.job, Word.ofN (t.slot n).pers.prn.status]
  exact ⟨es', (hev.timerOff .idle).updPrn fun q => { q with job := 0, idleDue := false, idleWait := false }⟩

theorem Sys.Turns.printDone_heard (h : y.Turns n S p es t) {i : Nat} (hf : y.contain.chipFault = false) (hi : y.hears n i)
    (hS : S.inst = (y.slot n).inst ∧ S.port = (y.slot n).port) (epid a : Nat) :
    y.Turns n S ((p.stops .idle).setPrn { p.prn with job := 0, idleDue := false, idleWait := false })
      (es ++ [{ inst := i, seq := 0, ev := y.persEv n 0x46 epid a [Word.ofN p.prn.job, Word.ofN p.prn.status] }])
      (t.printDone n epid a) := by
  have hev := ((h.persEvent_heard hf hi hS 0x46 epid a [Word.ofN p.prn.job, Word.ofN p.prn.status]).timerOff .idle).updPrn
    fun q => { q with job := 0, idleDue := false, idleWait := false }
  unfold Sys.printDone
  simp only [h.pers]
  exact hev

/-- A job that may be over: the status stays. -/
theorem Sys.Turns.maybeDone (h : y.Turns n S p es t) (idles : Bool) (epid a : Nat) :
    ∃ es' p', y.Turns n S p' es' (if idles then t.printDone n epid a else t) ∧ p'.prn.status = p.prn.status := by
  cases idles with
  | true =>
    obtain ⟨es', hdone⟩ := h.printDone epid a
    exact ⟨es', _, hdone, rfl⟩
  | false => exact ⟨es, p, h, rfl⟩

/-- A status bit read through its locator, or as it was. -/
def readBit (loc : Nat) (blk : List Byte) (b st : Nat) : Nat :=
  match locBit loc blk with | some v => putBit st b v | none => st

theorem testBit_readBit (loc b st c : Nat) (blk : List Byte) :
    Nat.testBit (readBit loc blk b st) c = if c = b then (locBit loc blk).getD (Nat.testBit st b) else Nat.testBit st c := by
  unfold readBit
  cases hv : locBit loc blk with
  | none => by_cases hc : c = b
            · subst hc; simp
            · simp [hc]
  | some v => exact testBit_putBit st b c v

/-- The status that a complete block gives (R352). -/
def blockStatus (p : Pers) (blk : List Byte) : Nat :=
  readBit (p.b 10) blk 7 (readBit (p.b 9) blk 6 (readBit (p.b 8) blk 5 (readBit (p.b 7) blk 4 (readBit (p.b 5) blk 3
    (putBit p.prn.status 2 ((locBit (p.b 6) blk).getD p.prn.blkOut || p.prn.pollOut))))))

theorem testBit_blockStatus (p : Pers) (blk : List Byte) :
    (∀ b ∈ [(3, 5), (4, 7), (5, 8), (6, 9), (7, 10)],
      Nat.testBit (blockStatus p blk) b.1 = (locBit (p.b b.2) blk).getD (Nat.testBit p.prn.status b.1)) ∧
    Nat.testBit (blockStatus p blk) 2 = ((locBit (p.b 6) blk).getD p.prn.blkOut || p.prn.pollOut) ∧
    ∀ b ∈ [0, 1, 8], Nat.testBit (blockStatus p blk) b = Nat.testBit p.prn.status b := by
  unfold blockStatus
  simp [testBit_readBit, testBit_putBit]

theorem Sys.Turns.prnBlock (h : y.Turns n S p es t) {blk : List Byte} (hlen : blk.length = p.b 4) (hne : blk ≠ []) :
    ∃ es' p', y.Turns n S p' es' (t.prnBlock n blk) ∧ p'.prn.status = blockStatus p blk := by
  have hseen := h.updPrn fun q => { q with blkOut := (locBit (p.b 6) blk).getD p.prn.blkOut, blkSeen := true }
  have hfull : (blk.length != p.b 4 || blk.isEmpty) = false := by
    cases blk with
    | nil => exact absurd rfl hne
    | cons => simp [hlen]
  unfold Sys.prnBlock
  simp only [h.pers, hfull, Bool.false_eq_true, if_false]
  obtain ⟨es', p', hst, hstat, -⟩ := hseen.prnStatus p.inEpid (blockStatus p blk) (Sys.reportAt _ n)
  obtain ⟨es'', p'', hend, hsame⟩ := hst.maybeDone _ p.inEpid (Sys.reportAt _ n)
  exact ⟨es'', p'', hend, hsame.trans hstat⟩

theorem Sys.Turns.prnBlock_short (h : y.Turns n S p es t) {blk : List Byte} (hlen : blk.length ≠ p.b 4 ∨ blk = []) :
    t.prnBlock n blk = t := by
  unfold Sys.prnBlock
  simp only [h.pers]
  refine if_pos ?_
  obtain h | h := hlen
  · simp [h]
  · simp [h]

/-- The slot with its OUT-completion notices handled (R439). -/
def Slot.outHandled (s : Slot) : Slot := { s with notice := 0, outNotice := false }

def Slot.powerHandled (s : Slot) : Slot := { s with pwrNotice := false }

/-- The sum of the notices joins the job; IDLE_MS starts where nothing but it ends a job. -/
theorem turns_prnOut (n : Nat) (y : Sys) :
    ∃ p', y.Turns n (y.slot n).outHandled p' [] (y.prnOut n) ∧
      p'.prn.job = min 4294967295 ((y.slot n).pers.prn.job + (y.slot n).notice) ∧
      ((y.slot n).outNotice = true → (y.slot n).pers.b 9 < 128 → 0 < (y.slot n).pers.prn.job + (y.slot n).notice →
        p'.prn.idleDue = true ∧ p'.prn.idleWait = false) := by
  have hsum := ((turns_refl n y).updSlot (f := Slot.outHandled) (S' := (y.slot n).outHandled) rfl).updPrn
    fun q => { q with job := min 4294967295 (q.job + (y.slot n).notice) }
  have hpers := hsum.pers
  unfold Sys.prnOut
  extract_lets sum some_ u v p
  have hp : p = (y.slot n).pers.setPrn { (y.slot n).pers.prn with job := min 4294967295 ((y.slot n).pers.prn.job + (y.slot n).notice) } :=
    hpers
  split
  · exact ⟨_, (hsum.armTimer .idle _ _).updPrn fun q => { q with idleDue := true, idleWait := false }, rfl, fun _ _ _ => ⟨rfl, rfl⟩⟩
  · next hno =>
    refine ⟨_, hsum, rfl, fun hsome hloc hpos => absurd ⟨hsome, ?_, ?_⟩ hno⟩
    · rw [hp]
      exact Nat.div_eq_of_lt hloc
    · rw [hp]
      show 0 < min 4294967295 ((y.slot n).pers.prn.job + (y.slot n).notice)
      omega

theorem turns_prnPower (n : Nat) (y : Sys) :
    ∃ es' p', y.Turns n (y.slot n).powerHandled p' es' (y.prnPower n) ∧
      p'.prn.status = putBit (y.slot n).pers.prn.status 8 (y.noHpwr n) := by
  have hnote := (turns_refl n y).updSlot (f := Slot.powerHandled) (S' := (y.slot n).powerHandled) rfl
  have hno : (y.updSlot n Slot.powerHandled).noHpwr n = y.noHpwr n := by
    unfold Sys.noHpwr
    simp only [updSlot_slot_self, updSlot_port]
    rfl
  obtain ⟨es', p', h, hst, -⟩ := hnote.prnStatus 0 (putBit (y.slot n).pers.prn.status 8 (y.noHpwr n))
    ((y.updSlot n Slot.powerHandled).slot n).noteAt
  refine ⟨es', p', ?_, hst⟩
  have heq : y.prnPower n = (y.updSlot n Slot.powerHandled).prnStatus n 0 (putBit (y.slot n).pers.prn.status 8 (y.noHpwr n))
      ((y.updSlot n Slot.powerHandled).slot n).noteAt := by
    rw [← hno, ← hnote.pers]
    rfl
  rw [heq]
  exact h

theorem prnIdle_idle {y : Sys} (h : (y.slot n).pers.prn.idleDue = false ∨ y.timerUp n .idle = false) : y.prnIdle n = y := by
  refine if_pos ?_
  obtain h | h := h
  · simp [h]
  · simp [h]

theorem prnIdle_due {y : Sys} (hd : (y.slot n).pers.prn.idleDue = true) (hup : y.timerUp n .idle = true) :
    y.prnIdle n = if healthy (y.slot n).pers.prn.status then y.printDone n 0 y.tb
      else (y.timerOff n .idle).updPers n fun p => { p with prn := { p.prn with idleDue := false, idleWait := true } } :=
  if_neg (by simp [hd, hup])

theorem prnPollDue_idle {y : Sys} (h : (y.slot n).pers.h 0 = 0 ∨ y.timerUp n .poll = false) : y.prnPollDue n = y := by
  refine if_pos ?_
  obtain h | h := h
  · simp [h]
  · simp [h]

theorem prnPollDue_due {y : Sys} (h0 : (y.slot n).pers.h 0 ≠ 0) (hup : y.timerUp n .poll = true) :
    y.prnPollDue n = (y.armTimer n .poll y.tb ((y.slot n).pers.h 0)).persReq n .poll := if_neg (by simp [h0, hup])

end Printers

theorem persOf_prn (n : Nat) (y : Sys) : (y.persOf n).prn = (y.slot n).pers.prn := by
  unfold Sys.persOf
  split <;> rfl

theorem persOf_b (n i : Nat) (y : Sys) : (y.persOf n).b i = (y.slot n).pers.b i := by
  unfold Sys.persOf
  split <;> rfl

/-- Settles O43: each clause is one turn of the printer. -/
theorem printersReportStatusAndJobs : Obligations.printers_report_status_and_jobs := by
  unfold Obligations.printers_report_status_and_jobs
  intro s n hops hall p q up
  obtain ⟨hb, hrep⟩ := hall .report (by decide)
  obtain ⟨-, hnote⟩ := hall .notice (by decide)
  obtain ⟨-, hexp⟩ := hall .expiry (by decide)
  have hnow := turns_noting n.val s.sys
  have h := turns_refl n.val s.sys
  have hblock (blk : List Byte) := persItem_served (cs := [4]) hb (by decide) hrep (Sys.prnBlock n blk)
  have hexpiry (f : Sys → Sys) : s.sys.persItem n .expiry [4] false f = f s.sys := persItem_served hb (by decide) hexp f
  have hnotice (f : Sys → Sys) : s.sys.persItem n .notice [4] false f = f s.sys := persItem_served hb (by decide) hnote f
  refine ⟨fun blk hshort => ?_, fun blk hlen hne => ?_, fun hno => ?_, fun h0 hup => ?_, ?_, ?_, fun hno => ?_, fun hd hup hsick => ?_,
    fun i hi hd hup hwell => ?_⟩
  · refine does_live_eq (execPrinterStatusBlock n blk false) rfl rfl hops
      ((hblock blk).trans (hnow.prnBlock_short (by rwa [persOf_b]))) ⟨hnow.rest, hnow.self⟩
  · obtain ⟨es, p', hblk, hst⟩ := hnow.prnBlock (by rwa [persOf_b]) hne
    have hbits := testBit_blockStatus (s.sys.persOf n) blk
    simp only [persOf_prn, persOf_b] at hbits
    refine does_live_eq (execPrinterStatusBlock n blk false) rfl rfl hops (hblock blk) ⟨hblk.rest, ?_⟩
    rw [hblk.pers, hst]
    exact hbits
  · rw [exec_live (execPrinterStatusPoll n) rfl rfl hops, hexpiry]
    exact congrArg (fun t => Host.Outcome.next { s with sys := t }) (prnPollDue_idle hno)
  · have hdue := (h.armTimer .poll s.sys.tb (p.h 0)).persReq .poll
    exact does_live_eq (execPrinterStatusPoll n) rfl rfl hops ((hexpiry _).trans (prnPollDue_due h0 hup)) ⟨hdue.rest, hdue.self⟩
  · obtain ⟨p', hdone, hjob, htimed⟩ := turns_prnOut n.val s.sys
    refine does_live_eq (execPrinterOutNotice n) rfl rfl hops (hnotice _) ⟨hdone.rest, ?_, ?_, ?_, ?_⟩
    · exact congrArg Slot.notice hdone.self
    · exact congrArg Slot.outNotice hdone.self
    · rw [hdone.pers]
      exact hjob
    · rw [hdone.pers]
      exact htimed
  · obtain ⟨es, p', hdone, hst⟩ := turns_prnPower n.val s.sys
    refine does_live_eq (execPowerChangeNotice n) rfl rfl hops (hnotice _) ⟨hdone.rest, ?_, ?_, fun b hb => ?_⟩
    · exact congrArg Slot.pwrNotice hdone.self
    · rw [hdone.pers, hst, testBit_putBit, if_pos rfl]
    · rw [hdone.pers, hst, testBit_putBit, if_neg (by omega)]
  · rw [exec_live (execPrinterIdleExpiry n) rfl rfl hops, hexpiry]
    exact congrArg (fun t => Host.Outcome.next { s with sys := t }) (prnIdle_idle hno)
  · have hwait := (h.timerOff .idle).updPrn fun q => { q with idleDue := false, idleWait := true }
    exact does_live_eq (execPrinterIdleExpiry n) rfl rfl hops ((hexpiry _).trans ((prnIdle_due hd hup).trans (if_neg (by rw [hsick]; decide))))
      ⟨hwait.rest, hwait.self⟩
  · have hdone := h.printDone_heard hb.1 hi ⟨rfl, rfl⟩ 0 s.sys.tb
    exact does_live_eq (execPrinterIdleExpiry n) rfl rfl hops ((hexpiry _).trans ((prnIdle_due hd hup).trans (if_pos hwell)))
      ⟨hdone.evq, hdone.pers⟩

end Sys2Proof.Machine

/-! SUPPORT. The drawer (R356-R358). -/

namespace Sys2Proof.Machine

section Drawers

variable {y t : Sys} {n : Nat} {S : Slot} {p : Pers} {es : List Spill}

/-- A personality with another drawer record. -/
def Pers.setDrw (p : Pers) (d : Drawer) : Pers := { p with drw := d }

theorem Sys.Turns.updDrw (h : y.Turns n S p es t) (f : Drawer → Drawer) : y.Turns n S (p.setDrw (f p.drw)) es (t.updDrw n f) :=
  h.updPers fun p => { p with drw := f p.drw }

theorem Sys.Turns.slotEq (h : y.Turns n S p es t) {q : Pers} (hq : p = q) : t.slot n = S.setPers q := by rw [h.self, hq]

/-! ## The sense input (R356) -/

theorem Sys.Turns.senseReport_unread (h : y.Turns n S p es t) {rep : List Byte} (hl : locBit (p.b 8) rep = none) :
    t.senseReport n rep = t := by
  unfold Sys.senseReport
  simp only [h.pers, hl]

theorem Sys.Turns.senseReport_agrees (h : y.Turns n S p es t) {rep : List Byte} {v : Bool} (hl : locBit (p.b 8) rep = some v)
    (ha : p.drw.acc = some v) : y.Turns n S ((p.stops .sense).setDrw { p.drw with cand := none }) es (t.senseReport n rep) := by
  have hover := (h.timerOff .sense).updDrw fun d => { d with cand := none }
  have heq : t.senseReport n rep = (t.timerOff n .sense).updDrw n fun d => { d with cand := none } := by
    unfold Sys.senseReport
    simp only [h.pers, hl, ha, beq_self_eq_true, if_true]
  rw [heq]
  exact hover

theorem Sys.Turns.senseReport_differs (h : y.Turns n S p es t) {rep : List Byte} {v : Bool} (hl : locBit (p.b 8) rep = some v)
    (ha : p.drw.acc ≠ some v) :
    y.Turns n S (if p.drw.cand = some v then p else (y.arms .sense (y.reportAt n) (p.h 6) p).setDrw { p.drw with cand := some v }) es
      (t.senseReport n rep) := by
  have harm := (h.armTimer .sense (y.reportAt n) (p.h 6)).updDrw fun d => { d with cand := some v }
  have hne : (p.drw.acc == some v) = false := by simpa using ha
  unfold Sys.senseReport
  simp only [h.pers, hl, hne, Bool.false_eq_true, if_false, h.reportAt]
  by_cases hc : p.drw.cand = some v
  · simp only [hc, beq_self_eq_true, if_true]
    exact h
  · have hc' : (p.drw.cand == some v) = false := by simpa using hc
    simp only [hc, hc', Bool.false_eq_true, if_false]
    exact harm

theorem senseExpiry_idle {y : Sys} (h : (y.slot n).pers.drw.cand = none ∨ y.timerUp n .sense = false) : y.senseExpiry n = y := by
  unfold Sys.senseExpiry
  obtain h | h := h
  · simp [h]
  · simp [h]

theorem senseExpiry_opened {i : Nat} (hf : y.contain.chipFault = false) (hi : y.hears n i) (hup : y.timerUp n .sense = true)
    (hc : (y.slot n).pers.drw.cand = some true) (ha : (y.slot n).pers.drw.acc = some false)
    (hw : (y.slot n).pers.drw.waitOpen = false) :
    y.Turns n (y.slot n) (((y.slot n).pers.stops .sense).setDrw
        { (y.slot n).pers.drw with acc := some true, cand := none, openAt := some y.tb })
      [{ inst := i, seq := 0, ev := y.persEv n 0x44 (y.slot n).pers.inEpid y.tb [0] }] (y.senseExpiry n) := by
  have hacc := ((turns_refl n y).timerOff .sense).updDrw fun d => { d with acc := some true, cand := none, openAt := some y.tb }
  have hev := hacc.persEvent_heard hf hi ⟨rfl, rfl⟩ 0x44 (y.slot n).pers.inEpid y.tb [0]
  have heq : y.senseExpiry n = ((y.timerOff n .sense).updDrw n fun d =>
      { d with acc := some true, cand := none, openAt := some y.tb }).persEvent n 0x44 (y.slot n).pers.inEpid y.tb [0] := by
    unfold Sys.senseExpiry
    simp only [hup, hc, ha, hw, if_true, Bool.false_eq_true, if_false, Option.isNone_some]
    rfl
  rw [heq]
  exact hev

theorem senseExpiry_closed {i u : Nat} (hf : y.contain.chipFault = false) (hi : y.hears n i) (hup : y.timerUp n .sense = true)
    (hc : (y.slot n).pers.drw.cand = some false) (ha : (y.slot n).pers.drw.acc = some true)
    (hu : (y.slot n).pers.drw.openAt = some u) :
    y.Turns n (y.slot n) (((y.slot n).pers.stops .sense).setDrw
        { (y.slot n).pers.drw with acc := some false, cand := none, openAt := none })
      [{ inst := i, seq := 0, ev := y.persEv n 0x45 (y.slot n).pers.inEpid y.tb [0, Word.ofN ((y.tb - u) / 1000)] }] (y.senseExpiry n) := by
  have hacc := ((turns_refl n y).timerOff .sense).updDrw fun d => { d with acc := some false, cand := none, openAt := none }
  have hev := hacc.persEvent_heard hf hi ⟨rfl, rfl⟩ 0x45 (y.slot n).pers.inEpid y.tb [0, Word.ofN ((y.tb - u) / 1000)]
  have heq : y.senseExpiry n = ((y.timerOff n .sense).updDrw n fun d =>
      { d with acc := some false, cand := none, openAt := none }).persEvent n 0x45 (y.slot n).pers.inEpid y.tb
        [0, Word.ofN ((y.tb - u) / 1000)] := by
    unfold Sys.senseExpiry
    simp only [hup, hc, ha, hu, if_true, Bool.false_eq_true, if_false, Option.isNone_some]
    rfl
  rw [heq]
  exact hev

/-! ## Kicks (R357, R358) -/

theorem kick_waits (hk : (y.slot n).pers.drw.kick ≠ .none) (tag pulse : Nat) :
    y.kick n tag pulse = y.updDrw n fun d => { d with next := some (tag, pulse) } := if_pos (by simp [hk])

/-- A KICK that finds none running. -/
theorem kick_starts (hk : (y.slot n).pers.drw.kick = .none) (hw : (y.slot n).pers.drw.waitOpen = false) (tag pulse : Nat) :
    y.kick n tag pulse = y.kickStart n tag pulse := if_neg (by simp [hk, hw])

theorem kickStart_open (ha : (y.slot n).pers.drw.acc = some true) (tag pulse : Nat) :
    y.kickStart n tag pulse = y.drawerOpen n (y.slot n).pers.cmdEpid 2 tag := if_pos (by simp [ha])

/-- A drawer whose KICK has begun (step 1 of R357). -/
def Drawer.begins (d : Drawer) (tag pulse : Nat) : Drawer := { d with tag := tag, failed := false, waitOpen := false, pulse := pulse }

/-- A KICK of a drawer that is not open, with no pulse before it to keep a gap from, sends OPEN_DATA. -/
theorem turns_kickStart (ha : (y.slot n).pers.drw.acc ≠ some true) (hl : (y.slot n).pers.drw.lastPulse = none) (tag pulse : Nat) :
    let ms := if pulse = 0 then (y.slot n).pers.h 0 else max 10 (min 500 pulse)
    y.Turns n (y.slot n) { (y.slot n).pers with drw := { (y.slot n).pers.drw.begins tag ms with kick := .openReq }
                                                req := (y.slot n).pers.req ++ [.kickOpen] } [] (y.kickStart n tag pulse) := by
  intro ms
  have hset := (turns_refl n y).updDrw fun d => d.begins tag ms
  have hreq := (hset.updDrw fun d => { d with kick := .openReq }).persReq .kickOpen
  have hnot : ((y.slot n).pers.drw.acc == some true) = false := by simpa using ha
  have hlast : ((y.slot n).pers.drw.begins tag ms).lastPulse = none := hl
  have heq : y.kickStart n tag pulse = ((y.updDrw n fun d => d.begins tag ms).updDrw n
      fun d => { d with kick := .openReq }).persReq n .kickOpen := by
    refine (if_neg (by rw [hnot]; decide)).trans ?_
    show (y.updDrw n fun d => d.begins tag ms).kickGo n = _
    unfold Sys.kickGo
    simp only [hset.pers, Pers.setDrw, hlast, if_true]
  rw [heq]
  exact hreq

theorem kickGap_idle (h : (y.slot n).pers.drw.kick ≠ .gap ∨ y.timerUp n .kickGap = false) : y.kickGap n = y := by
  refine if_neg ?_
  obtain h | h := h
  · simp [h]
  · simp [h]

theorem kickGap_due (hk : (y.slot n).pers.drw.kick = .gap) (hup : y.timerUp n .kickGap = true) :
    y.kickGap n = ((y.timerOff n .kickGap).updDrw n fun d => { d with kick := .openReq }).persReq n .kickOpen := if_pos (by simp [hk, hup])

theorem pulseEnd_idle (h : (y.slot n).pers.drw.kick ≠ .pulse ∨ y.timerUp n .pulse = false) : y.pulseEnd n = y := by
  refine if_pos ?_
  obtain h | h := h
  · simp [h]
  · simp [h]

theorem pulseEnd_due (hk : (y.slot n).pers.drw.kick = .pulse) (hup : y.timerUp n .pulse = true) :
    y.pulseEnd n = if y.slotQuiet n then (y.timerOff n .pulse).updDrw n fun d => { d with kick := .releaseOwed }
      else ((y.timerOff n .pulse).updDrw n fun d => { d with kick := .release }).persReq n .kickRelease := if_neg (by simp [hk, hup])

theorem openWaitEnd_idle (h : (y.slot n).pers.drw.waitOpen = false ∨ y.timerUp n .openWait = false) : y.openWaitEnd n = y := by
  refine if_neg ?_
  obtain h | h := h
  · simp [h]
  · simp [h]

/-- The wait for an open ends while the kick still runs: the failure is reported. -/
theorem turns_openWaitEnd {i : Nat} (hf : y.contain.chipFault = false) (hi : y.hears n i) (hw : (y.slot n).pers.drw.waitOpen = true)
    (hup : y.timerUp n .openWait = true) (hk : (y.slot n).pers.drw.kick ≠ .none) :
    y.Turns n (y.slot n) (((y.slot n).pers.stops .openWait).setDrw { (y.slot n).pers.drw with waitOpen := false })
      [{ inst := i, seq := 0, ev := y.persEv n 0x45 (y.slot n).pers.cmdEpid y.tb [Word.ofN (1 + (y.slot n).pers.drw.tag * 65536), 0] }]
      (y.openWaitEnd n) := by
  have hev := (((turns_refl n y).persEvent_heard hf hi ⟨rfl, rfl⟩ 0x45 (y.slot n).pers.cmdEpid y.tb
    [Word.ofN (1 + (y.slot n).pers.drw.tag * 65536), 0]).timerOff .openWait).updDrw fun d => { d with waitOpen := false }
  have hdone {u : Sys} (hu : (u.slot n).pers.drw.kick ≠ .none) : u.kickDone n = u := if_neg (by simp [hu])
  have heq : y.openWaitEnd n = ((y.persEvent n 0x45 (y.slot n).pers.cmdEpid y.tb
      [Word.ofN (1 + (y.slot n).pers.drw.tag * 65536), 0]).timerOff n .openWait).updDrw n fun d => { d with waitOpen := false } := by
    refine (if_pos (by simp [hw, hup])).trans (hdone ?_)
    exact fun h => hk ((congrArg (fun p : Pers => p.drw.kick) hev.pers).symm.trans h)
  rw [heq]
  exact hev

end Drawers

theorem persOf_drw (n : Nat) (y : Sys) : (y.persOf n).drw = (y.slot n).pers.drw := by
  unfold Sys.persOf
  split <;> rfl

theorem persOf_h (n i : Nat) (y : Sys) : (y.persOf n).h i = (y.slot n).pers.h i := by
  unfold Sys.persOf
  split <;> rfl

/-- A drawer record set with no request more. -/
theorem pers_drw_req_nil (z : Pers) (e : Drawer) : { z with drw := e, req := z.req ++ [] } = z.setDrw e := by
  rw [List.append_nil]
  rfl

/-- Settles O44: each clause is one turn of the drawer. -/
theorem drawersAreKickedAndSensed : Obligations.drawers_are_kicked_and_sensed := by
  unfold Obligations.drawers_are_kicked_and_sensed
  intro s n hops hall p r d up gets with_
  obtain ⟨hb, hrep⟩ := hall .report (by decide)
  obtain ⟨-, hrec⟩ := hall .record (by decide)
  obtain ⟨-, hexp⟩ := hall .expiry (by decide)
  have hnow := turns_noting n.val s.sys
  have h := turns_refl n.val s.sys
  have hreport (f : Sys → Sys) := persItem_served (cs := [5]) hb (by decide) hrep f
  have hexpiry (f : Sys → Sys) : s.sys.persItem n .expiry [5] false f = f s.sys := persItem_served hb (by decide) hexp f
  have hrecord (tag ms : Nat) : s.sys.persItem n .record [5, 6] false (Sys.kickRec n tag ms) = s.sys.kick n tag ms :=
    (persItem_served hb (by decide) hrec _).trans (if_neg (by
      show ¬ (s.sys.slot n).pers.code = 6
      rw [hb.2.2.1]
      decide))
  have hnil (z : Pers) (e : Drawer) : with_ z e [] = z.setDrw e := pers_drw_req_nil z e
  refine ⟨fun rep => ⟨fun hl => ?_, fun v hl ha => ?_, fun v hl ha => ?_⟩, fun hno => ?_, fun i hi hup hc ha hw => ?_,
    fun i u hi hup hc ha hu => ?_, fun tag ms => ⟨fun hk => ?_, fun i hi hk hw ha => ?_, fun hk hw ha hl => ?_⟩, fun hk hup => ?_, fun hno => ?_,
    fun hk hup hq => ?_, fun hk hup hq => ?_, fun hno => ?_, fun hno => ?_, fun i hi hw hup hk => ?_⟩
  · exact does_live_eq (execDrawerSenseReport n rep false) rfl rfl hops
      ((hreport _).trans (hnow.senseReport_unread (by rwa [persOf_b]))) ⟨hnow.rest, hnow.self⟩
  · have ht := hnow.senseReport_agrees (rep := rep) (v := v) (by rwa [persOf_b]) (by rwa [persOf_drw])
    refine does_live_eq (execDrawerSenseReport n rep false) rfl rfl hops (hreport _) ⟨ht.rest, ht.self.trans ?_⟩
    rw [hnil, persOf_drw]
    rfl
  · have ht := hnow.senseReport_differs (rep := rep) (v := v) (by rwa [persOf_b]) (by rwa [persOf_drw])
    refine does_live_eq (execDrawerSenseReport n rep false) rfl rfl hops (hreport _) ⟨ht.rest, ht.self.trans ?_⟩
    rw [hnil, persOf_drw, persOf_h]
    rfl
  · exact exec_live_same (execDrawerSenseExpiry n) rfl rfl hops ((hexpiry _).trans (senseExpiry_idle hno))
  · have ht := senseExpiry_opened hb.1 hi hup hc ha hw
    refine does_live_eq (execDrawerSenseExpiry n) rfl rfl hops (hexpiry _) ⟨⟨ht.rest, ht.self.trans ?_⟩, ht.evq⟩
    rw [hnil]
    rfl
  · have ht := senseExpiry_closed hb.1 hi hup hc ha hu
    refine does_live_eq (execDrawerSenseExpiry n) rfl rfl hops (hexpiry _) ⟨⟨ht.rest, ht.self.trans ?_⟩, ht.evq⟩
    rw [hnil]
    rfl
  · have ht := h.updDrw fun d => { d with next := some (tag.val, ms.val) }
    refine does_live_eq (execKick n tag ms) rfl rfl hops ((hrecord _ _).trans (kick_waits hk _ _)) ⟨ht.rest, ht.self.trans ?_⟩
    rw [hnil]
    rfl
  · have ht := h.persEvent_heard hb.1 hi ⟨rfl, rfl⟩ 0x44 p.cmdEpid s.sys.tb [Word.ofN (2 + tag.val * 65536)]
    exact does_live_eq (execKick n tag ms) rfl rfl hops
      ((hrecord _ _).trans ((kick_starts hk hw _ _).trans (kickStart_open ha _ _))) ⟨⟨ht.rest, ht.self⟩, ht.evq⟩
  · have ht := turns_kickStart ha hl tag.val ms.val
    exact does_live_eq (execKick n tag ms) rfl rfl hops ((hrecord _ _).trans (kick_starts hk hw _ _)) ⟨ht.rest, ht.self.trans (by
      unfold Drawer.begins
      rw [hw]
      rfl)⟩
  · have ht := ((h.timerOff .kickGap).updDrw fun d => { d with kick := .openReq }).persReq .kickOpen
    exact does_live_eq (execKickGapExpiry n) rfl rfl hops ((hexpiry _).trans (kickGap_due hk hup)) ⟨ht.rest, ht.self⟩
  · exact exec_live_same (execKickGapExpiry n) rfl rfl hops ((hexpiry _).trans (kickGap_idle hno))
  · have ht := ((h.timerOff .pulse).updDrw fun d => { d with kick := .release }).persReq .kickRelease
    exact does_live_eq (execPulseExpiry n) rfl rfl hops
      ((hexpiry _).trans ((pulseEnd_due hk hup).trans (if_neg (by rw [hq]; decide)))) ⟨ht.rest, ht.self⟩
  · have ht := (h.timerOff .pulse).updDrw fun d => { d with kick := .releaseOwed }
    refine does_live_eq (execPulseExpiry n) rfl rfl hops
      ((hexpiry _).trans ((pulseEnd_due hk hup).trans (if_pos hq))) ⟨ht.rest, ht.self.trans ?_⟩
    rw [hnil]
    rfl
  · exact exec_live_same (execPulseExpiry n) rfl rfl hops ((hexpiry _).trans (pulseEnd_idle hno))
  · exact exec_live_same (execOpenWaitExpiry n) rfl rfl hops ((hexpiry _).trans (openWaitEnd_idle hno))
  · have ht := turns_openWaitEnd hb.1 hi hw hup hk
    refine does_live_eq (execOpenWaitExpiry n) rfl rfl hops (hexpiry _) ⟨⟨ht.rest, ht.self.trans ?_⟩, ht.evq⟩
    rw [hnil]
    rfl

end Sys2Proof.Machine

/-! SUPPORT. The SMBus target (R549-R554): the pages it reaches and a Block Read of their headers. -/

namespace Sys2Proof.Machine

section Words

/-- The bits of a word one of whose fields has been replaced. -/
theorem getLsbD_put {hi lo : Nat} (hhi : hi < 32) (hlo : lo ≤ hi) (w : Word) (v j : Nat) :
    (w.put hi lo v).getLsbD j = if lo ≤ j ∧ j ≤ hi then Nat.testBit v (j - lo) else w.getLsbD j := by
  unfold Word.put Word.mk
  simp only [BitVec.getLsbD_or, BitVec.getLsbD_and, BitVec.getLsbD_not, BitVec.getLsbD_ofNat, Nat.testBit_shiftLeft,
    Nat.testBit_two_pow_sub_one, Nat.testBit_mod_two_pow]
  by_cases hj : j < 32
  · by_cases h1 : lo ≤ j
    · by_cases h2 : j ≤ hi
      · have h3 : j - lo < hi - lo + 1 := by omega
        simp [hj, h1, h2, h3]
      · have h3 : ¬ j - lo < hi - lo + 1 := by omega
        simp [hj, h1, h2, h3]
    · simp [hj, h1]
  · have h2 : ¬ j ≤ hi := by omega
    have h3 : w.getLsbD j = false := BitVec.getLsbD_of_ge _ _ (by omega)
    simp [hj, h2, h3]

theorem testBit_fld (w : Word) (hi lo i : Nat) : Nat.testBit (w.fld hi lo) i = (decide (i < hi - lo + 1) && w.getLsbD (i + lo)) := by
  unfold Word.fld
  rw [Nat.testBit_mod_two_pow, Nat.testBit_shiftRight, Nat.add_comm lo i]
  rfl

/-- A field reads back what was put into it. -/
theorem fld_put_self {hi lo : Nat} (hhi : hi < 32) (hlo : lo ≤ hi) (w : Word) (v : Nat) :
    (w.put hi lo v).fld hi lo = v % 2 ^ (hi - lo + 1) := by
  refine Nat.eq_of_testBit_eq fun i => ?_
  rw [testBit_fld, getLsbD_put hhi hlo, Nat.testBit_mod_two_pow]
  by_cases hi' : i < hi - lo + 1
  · rw [if_pos ⟨by omega, by omega⟩, Nat.add_sub_cancel]
  · simp [hi']

/-- Another field stays. -/
theorem fld_put_other {hi lo hi' lo' : Nat} (hhi : hi < 32) (hlo : lo ≤ hi) (hlo' : lo' ≤ hi') (h : hi' < lo ∨ hi < lo') (w : Word) (v : Nat) :
    (w.put hi lo v).fld hi' lo' = w.fld hi' lo' := by
  refine Nat.eq_of_testBit_eq fun i => ?_
  rw [testBit_fld, testBit_fld, getLsbD_put hhi hlo]
  by_cases hi'' : i < hi' - lo' + 1
  · rw [if_neg (by omega)]
  · simp [hi'']

theorem satInc_le (top n : Nat) : satInc top n ≤ top := by
  unfold satInc
  split <;> omega

/-- A counter of a register counts up to its full field. -/
theorem fld_incFld {hi lo : Nat} (hhi : hi < 32) (hlo : lo ≤ hi) (g : Pg) (o : Nat) (y : Sys) :
    ((y.incFld g o hi lo).pgReg g o).fld hi lo = satInc (2 ^ (hi - lo + 1) - 1) ((y.pgReg g o).fld hi lo) := by
  have hle : satInc (2 ^ (hi - lo + 1) - 1) ((y.pgReg g o).fld hi lo) ≤ 2 ^ (hi - lo + 1) - 1 := satInc_le _ _
  have hpos : 0 < 2 ^ (hi - lo + 1) := Nat.two_pow_pos _
  unfold Sys.incFld Sys.setFld
  rw [pgReg_setPg_self, fld_put_self hhi hlo, Nat.mod_eq_of_lt (by omega)]

end Words

section Pages

variable {ptr o : Nat} {g : Pg} {y : Sys}

theorem target_smbus_iff : target .smbus ptr = .page g o ↔
    0xA00000 ≤ ptr ∧ ptr < 0xB00000 ∧ Pg.ofOff ptr = some g ∧ ptr % 0x1000 = o := by
  unfold target
  dsimp only
  split
  · next h =>
    cases Pg.ofOff ptr with
    | none => simp
    | some p => simp [h]
  · next h =>
    simp only [reduceCtorEq, false_iff]
    exact fun hn => h ⟨hn.1, hn.2.1⟩

/-- The always-on range holds the pages of the always-on blocks (R549). -/
theorem alwaysOn_of_range (hlo : 0xA00000 ≤ ptr) (hhi : ptr < 0xB00000) (h : Pg.ofOff ptr = some g) :
    g.blk = .snw ∨ g.blk = .nvs ∨ g.blk = .mon ∨ g.blk = .mnt := by
  unfold Pg.ofOff at h
  rw [if_neg (by omega), if_neg (by omega), if_neg (by omega), if_pos hhi] at h
  unfold pageIn at h
  dsimp only at h
  split_ifs at h <;> cases h <;> simp

theorem alwaysOn_of_target (h : target .smbus ptr = .page g o) : g.dom = 63 ∧ g.region = 10 ∧ g.blk ≠ .tmb ∧ g.blk ≠ .mbx ∧ g.blk ≠ .cic := by
  obtain ⟨hlo, hhi, hof, -⟩ := target_smbus_iff.1 h
  unfold Pg.dom Pg.region
  obtain hb | hb | hb | hb := alwaysOn_of_range hlo hhi hof <;> simp [hb]

/-- Another offset of the same page. -/
theorem target_smbus_page (h : target .smbus ptr = .page g 0) (ho : o < 0x1000) : target .smbus (ptr + o) = .page g o := by
  obtain ⟨hlo, hhi, hof, hoff⟩ := target_smbus_iff.1 h
  have hq : ptr = ptr / 0x1000 * 0x1000 := (Nat.div_mul_cancel (Nat.dvd_of_mod_eq_zero hoff)).symm
  have hpage : Pg.ofOff (ptr + o) = some g := by
    rw [hq, ofOff_page ho, ← hq, hof]
  exact target_smbus_iff.2 ⟨by omega, by omega, hpage, by omega⟩

/-- The target reaches an always-on page in every state (R549, R571). -/
theorem viaPage_smbus (h : target .smbus ptr = .page g o) (isRead : Bool) (f : Sys → Sys) (y : Sys) :
    y.viaPage .smbus g o isRead f = f y := by
  obtain ⟨hdom, hreg, htmb, hmbx, -⟩ := alwaysOn_of_target h
  have hlets : y.pageLets .smbus g o isRead = true := by
    simp [Sys.pageLets, Sys.domLets, Sys.inReset, Pg.mailReg, Sys.on, hdom, hreg, htmb, hmbx]
  exact if_pos hlets

/-- A read of a page's header, at an offset that its read does not clear, leaves the block as it is. -/
theorem smbRead_hdr (h : target .smbus ptr = .page g o) (ho : o < 0x40) (hc : o ≠ 0x24) (ha : ptr % 4 = 0) (y : Sys) :
    y.smbRead ptr = (y.viewHdr g o, y) := by
  obtain ⟨-, hhi, -, -⟩ := target_smbus_iff.1 h
  have hv : y.view g o = y.viewHdr g o := if_pos ho
  have hread : readBy Sys.rdNow .smbus ptr y = y.answer .smbus ptr (y.viewHdr g o) := by
    simp only [readBy, h, ha, ne_eq, not_true_eq_false, if_false, Sys.viaAny, viaPage_smbus h, mbxDead_hdr ho, Sys.rdNow, nvAt_hdr ho,
      rd_hdr ho, clearRc_hdr ho hc, hv]
  unfold Sys.smbRead
  rw [if_pos hhi, hread]
  rfl

theorem smbNv_hdr (h : target .smbus ptr = .page g o) (ho : o < 0x40) : smbNv ptr = none := by
  unfold smbNv
  rw [h]
  exact nvAt_hdr ho

end Pages

section Runs

variable {ptr : Nat} {g : Pg} {y : Sys}

/-- A Block Read of `n` dwords that has read `got`. -/
def Sys.reading (n : Nat) (got : List Word) (y : Sys) : Sys := { y with smb := { y.smb with run := some { n := n, got := got } } }

/-- What ends a Block Read: its bytes go out and the pointer moves. -/
def Sys.readOut (n : Nat) (got : List Word) (y : Sys) : Sys :=
  ((({ y with smb := { y.smb with run := none } }).emit (.smb (dwBytes got))).smbStep (4 * n)).smbDone

theorem smbGo_ends {n : Nat} {got : List Word} (h : n ≤ got.length) (fuel : Nat) : (y.reading n got).smbGo (fuel + 1) = y.readOut n got := by
  unfold Sys.smbGo Sys.reading
  simp only [lt_self_iff_false, if_false, h, if_true]
  rfl

/-- A dword of the header is read without waiting. -/
theorem smbGo_reads (ht : target .smbus y.smb.ptr = .page g 0) {n : Nat} {got : List Word} (h : got.length < n) (hn : n ≤ 8) (fuel : Nat) :
    (y.reading n got).smbGo (fuel + 1) = (y.reading n (got ++ [(y.reading n got).viewHdr g (4 * got.length)])).smbGo fuel := by
  have hoff : 4 * got.length < 0x40 := by omega
  have hpage := target_smbus_page ht (o := 4 * got.length) (by omega)
  have halign : (y.smb.ptr + 4 * got.length) % 4 = 0 := by
    obtain ⟨-, -, -, hp⟩ := target_smbus_iff.1 ht
    omega
  have hread := smbRead_hdr hpage hoff (by omega) halign (y.reading n got)
  have hnot : ¬ n ≤ got.length := by omega
  have hptr : (y.reading n got).smb.ptr = y.smb.ptr := rfl
  have hrun : (y.reading n got).smb.run = some { n := n, got := got } := rfl
  conv_lhs => unfold Sys.smbGo
  simp only [hrun, hptr, lt_self_iff_false, if_false, hnot, smbNv_hdr hpage hoff, decide_false, Bool.false_and, Bool.false_eq_true, hread]
  rfl

/-- A Block Read within a header goes through. -/
theorem smbGo_hdr (ht : target .smbus y.smb.ptr = .page g 0) {n : Nat} (hn : n ≤ 8) :
    ∀ (k fuel : Nat) (got : List Word), got.length + k = n → k < fuel →
      ∃ ws, ws.length = k ∧ (y.reading n got).smbGo fuel = y.readOut n (got ++ ws) := by
  intro k
  induction k with
  | zero =>
    intro fuel got hlen hfuel
    obtain ⟨f, rfl⟩ : ∃ f, fuel = f + 1 := ⟨fuel - 1, by omega⟩
    exact ⟨[], rfl, by rw [smbGo_ends (by omega), List.append_nil]⟩
  | succ k ih =>
    intro fuel got hlen hfuel
    obtain ⟨f, rfl⟩ : ∃ f, fuel = f + 1 := ⟨fuel - 1, by omega⟩
    obtain ⟨ws, hws, hgo⟩ := ih f (got ++ [(y.reading n got).viewHdr g (4 * got.length)]) (by simp; omega) (by omega)
    exact ⟨_ :: ws, by simp [hws], by rw [smbGo_reads ht (by omega) hn, hgo, List.append_assoc, List.singleton_append]⟩

/-- The first dword is BLK_ID. -/
theorem smbGo_blkId (ht : target .smbus y.smb.ptr = .page g 0) {n fuel : Nat} (hpos : 0 < n) (hn : n ≤ 8) (hf : n < fuel) :
    ∃ ws, ws.length + 1 = n ∧ (y.reading n []).smbGo fuel = y.readOut n (g.blkId :: ws) := by
  obtain ⟨f, rfl⟩ : ∃ f, fuel = f + 1 := ⟨fuel - 1, by omega⟩
  obtain ⟨ws, hws, hgo⟩ := smbGo_hdr ht hn (n - 1) f [g.blkId] (by simp; omega) (by omega)
  exact ⟨ws, by omega, by rw [smbGo_reads ht (by simpa using hpos) hn]; exact hgo⟩

end Runs

section Transactions

variable {y : Sys}

/-- SNW_SMB_CNT with one completed transaction more (R554). -/
def smbXfers (w : Word) : Word := w.put 15 0 (satInc 65535 (w.fld 15 0))

/-- SNW_SMB_CNT with one error more. -/
def smbErrs (w : Word) : Word := w.put 31 16 (satInc 65535 (w.fld 31 16))

theorem smbDone_cnt (y : Sys) : (y.smbDone).pgReg (onePg .snw 2) 0x50 = smbXfers (y.pgReg (onePg .snw 2) 0x50) :=
  pgReg_setPg_self _ _ _ _

theorem smbCount_cnt (y : Sys) : (y.smbCount).pgReg (onePg .snw 2) 0x50 = smbErrs (y.pgReg (onePg .snw 2) 0x50) :=
  pgReg_setPg_self _ _ _ _

theorem smbDone_eq (y : Sys) : y.smbDone = { y with regs := y.smbDone.regs } := rfl

theorem smbCount_eq (y : Sys) : y.smbCount = { y with regs := y.smbCount.regs } := rfl

theorem smbXfers_smbErrs (w : Word) : (smbXfers (smbErrs w)).fld 31 16 = satInc 65535 (w.fld 31 16) ∧
    (smbXfers (smbErrs w)).fld 15 0 = satInc 65535 (w.fld 15 0) := by
  have hx := satInc_le 65535 (w.fld 15 0)
  have he := satInc_le 65535 (w.fld 31 16)
  have hlow : (smbErrs w).fld 15 0 = w.fld 15 0 := fld_put_other (by decide) (by decide) (by decide) (by decide) _ _
  constructor
  · exact (fld_put_other (by decide) (by decide) (by decide) (by decide) _ _).trans
      ((fld_put_self (by decide) (by decide) _ _).trans (Nat.mod_eq_of_lt (by omega)))
  · refine (fld_put_self (by decide) (by decide) _ _).trans ?_
    rw [hlow]
    exact Nat.mod_eq_of_lt (by omega)

/-- After a transaction with a wrong PEC both counts have gone up. -/
theorem smbDone_fields {t : Sys} (h : t.regs = y.smbCount.regs) :
    (t.smbDone.pgReg (onePg .snw 2) 0x50).fld 31 16 = satInc 65535 ((y.pgReg (onePg .snw 2) 0x50).fld 31 16) ∧
    (t.smbDone.pgReg (onePg .snw 2) 0x50).fld 15 0 = satInc 65535 ((y.pgReg (onePg .snw 2) 0x50).fld 15 0) := by
  have hc : t.pgReg (onePg .snw 2) 0x50 = smbErrs (y.pgReg (onePg .snw 2) 0x50) := by
    rw [← smbCount_cnt]
    unfold Sys.pgReg Sys.reg
    rw [h]
  rw [smbDone_cnt, hc]
  exact smbXfers_smbErrs _

theorem smbStep_within {n : Nat} (h : y.smb.ptr + n < 0xB00000) : y.smbStep n = { y with smb := { y.smb with ptr := y.smb.ptr + n } } :=
  if_pos h

/-- A Block Read that ends within the range. -/
theorem readOut_within {n : Nat} (h : y.smb.ptr + 4 * n < 0xB00000) (hrun : y.smb.run = none) (got : List Word) :
    y.readOut n got = ({ y with out := .smb (dwBytes got) :: y.out, smb := { y.smb with ptr := y.smb.ptr + 4 * n } } : Sys).smbDone := by
  have hs : { y.smb with run := none } = y.smb := by rw [← hrun]
  have hemit : ({ y with smb := { y.smb with run := none } } : Sys).emit (.smb (dwBytes got)) =
      { y with out := .smb (dwBytes got) :: y.out } := by
    rw [hs]
    rfl
  unfold Sys.readOut
  rw [hemit, smbStep_within (y := { y with out := .smb (dwBytes got) :: y.out }) h]

theorem dwBytes_length (l : List Word) : (dwBytes l).length = 4 * l.length := by
  induction l with
  | nil => rfl
  | cons w r ih =>
    rw [dwBytes, List.length_cons, List.length_cons, List.length_cons, List.length_cons, ih, List.length_cons]
    omega

/-- A write of an always-on page's ERR_STAT (R63). -/
theorem doRegWrite_smbus_stat {ptr : Nat} {g : Pg} (ht : target .smbus ptr = .page g 0x18) (hu : y.unarmed g = true) (v : Word) :
    doRegWrite .smbus ptr v y = y.setPg g 0x18 (y.pgReg g 0x18 &&& ~~~v) := by
  have halign : ptr % 4 = 0 := by
    obtain ⟨-, -, -, hp⟩ := target_smbus_iff.1 ht
    omega
  obtain ⟨-, -, -, -, hcic⟩ := alwaysOn_of_target ht
  have hw : y.wr .smbus g 0x18 v = y.wr .manager g 0x18 v := rfl
  have hhdr : y.wrHdr g 0x18 v = y.setPg g 0x18 (y.pgReg g 0x18 &&& ~~~v) := rfl
  simp only [doRegWrite, ht, halign, ne_eq, not_true_eq_false, if_false, Sys.viaAny, viaPage_smbus ht,
    mbxDead_hdr (show 0x18 < 0x40 by decide), hw]
  rw [wr_hdr_unarmed (by decide) hcic (by rwa [hhdr, unarmed_setPg (by decide)]), hhdr]

/-- The monitor whose sample `peak` picks is one of them, and none reads more. -/
theorem peak_max (y : Sys) (l : List Nat) : (l = [] ∧ y.peak false l = none) ∨ ∃ k ∈ l, y.peak false l = some k ∧
    ∀ m ∈ l, monInt m (FMap.get 0 m y.mari.sample) ≤ monInt k (FMap.get 0 k y.mari.sample) := by
  induction l with
  | nil => exact .inl ⟨rfl, rfl⟩
  | cons a r ih =>
    right
    obtain ⟨rfl, hnone⟩ | ⟨k, hk, hpeak, hmax⟩ := ih
    · refine ⟨a, List.mem_cons_self, ?_, fun m hm => ?_⟩
      · unfold Sys.peak
        rw [hnone]
      · obtain rfl : m = a := by simpa using hm
        exact le_rfl
    · unfold Sys.peak
      simp only [hpeak, Bool.false_eq_true, if_false]
      by_cases hlt : monInt a (FMap.get 0 a y.mari.sample) < monInt k (FMap.get 0 k y.mari.sample)
      · refine ⟨k, List.mem_cons_of_mem _ hk, if_pos hlt, fun m hm => ?_⟩
        obtain rfl | hm := List.mem_cons.1 hm
        · exact hlt.le
        · exact hmax m hm
      · refine ⟨a, List.mem_cons_self, if_neg hlt, fun m hm => ?_⟩
        obtain rfl | hm := List.mem_cons.1 hm
        · exact le_rfl
        · exact (hmax m hm).trans (not_lt.1 hlt)

end Transactions

section Commands

variable {s : State}

/-- While the target acts on no transaction, a command of it that is not a timeout finds its arm open. -/
theorem smbOn_idle {y : Sys} (ht : y.jtag.test = false) (hr : y.smb.run = none) : y.smbOn = true := by simp [Sys.smbOn, ht, hr]

/-- The target does nothing while it is silent or stretches SCL. -/
theorem exec_smb_silent (hops : s.operates = true) (hoff : s.sys.smbOn = false) (w : Option Word) (pec : Option Bool) :
    ∀ c ∈ [Instr.smbPtr w pec, .smbData w pec, .smbBurst, .smbSummary, .alertResponse], exec c s = .next s := by
  have hnot : ¬ s.sys.smbOn = true := by simp [hoff]
  simp only [List.forall_mem_cons, List.not_mem_nil, false_implies, implies_true, and_true]
  refine ⟨exec_live_same (execSmbPtr w pec) rfl rfl hops (if_neg hnot), exec_live_same (execSmbData w pec) rfl rfl hops (if_neg hnot),
    exec_live_same execSmbBurst rfl rfl hops (if_neg hnot), exec_live_same execSmbSummary rfl rfl hops (if_neg hnot),
    exec_live_same execAlertResponse rfl rfl hops (if_neg (by simp [hoff]))⟩

/-- Where the target acts, PTR, DATA, BURST and SUMMARY are what their functions say. -/
theorem exec_smb_acts (hops : s.operates = true) (hon : s.sys.smbOn = true) :
    (∀ w pec, exec (.smbPtr w pec) s = .next { s with sys := s.sys.smbPtr w pec }) ∧
    (∀ w pec, exec (.smbData w pec) s = .next { s with sys := s.sys.smbData w pec }) ∧
    exec .smbBurst s = .next { s with sys := s.sys.smbBurst } ∧ exec .smbSummary s = .next { s with sys := s.sys.smbSummary } := by
  refine ⟨fun w pec => ?_, fun w pec => ?_, ?_, ?_⟩
  · rw [exec_live (execSmbPtr w pec) rfl rfl hops, if_pos hon]
  · rw [exec_live (execSmbData w pec) rfl rfl hops, if_pos hon]
  · rw [exec_live execSmbBurst rfl rfl hops, if_pos hon]
  · rw [exec_live execSmbSummary rfl rfl hops, if_pos hon]

/-- A timeout outside a boundary test (R550). -/
theorem exec_smbTimeout (hops : s.operates = true) (ht : s.sys.jtag.test = false) :
    exec .smbTimeout s = .next { s with sys := ({ s.sys with smb := { s.sys.smb with run := none } } : Sys).smbCount } := by
  rw [exec_live execSmbTimeout rfl rfl hops, if_neg (by simp [ht])]

/-- The byte of a won Alert Response carries the target's address (R553). -/
theorem alertByte_div (a f : Nat) (ha : a < 128) : (BitVec.ofNat 8 (2 * a + f % 2)).toNat / 2 = a := by
  rw [BitVec.toNat_ofNat]
  omega

theorem fld_lt (w : Word) (hi lo : Nat) : w.fld hi lo < 2 ^ (hi - lo + 1) := Nat.mod_lt _ (Nat.two_pow_pos _)

end Commands

/-- What a PTR write in range does, by what its PEC says (R549, R550). -/
theorem smbPtr_taken {y z : Sys} {v : Word} {pec : Option Bool} (hlo : 0xA00000 ≤ v.toNat) (hhi : v.toNat < 0xB00000)
    (hpec : y.smbPec pec = (true, z)) : y.smbPtr (some v) pec = ({ z with smb := { z.smb with ptr := v.toNat } } : Sys).smbDone := by
  refine (if_neg (by omega)).trans ?_
  rw [hpec]
  rfl

theorem smbPtr_discarded {y z : Sys} {v : Word} {pec : Option Bool} (hlo : 0xA00000 ≤ v.toNat) (hhi : v.toNat < 0xB00000)
    (hpec : y.smbPec pec = (false, z)) : y.smbPtr (some v) pec = z.smbDone := by
  refine (if_neg (by omega)).trans ?_
  rw [hpec]
  rfl

/-- A command known by what it leaves. -/
theorem does_of_exec {s : State} {c : Instr} {u t : Sys} {P : Sys → Prop} (h : exec c s = .next { s with sys := u }) (hu : u = t) (hP : P t) :
    Does c s P := ⟨t, h.trans (by rw [hu]), hP⟩

/-- A read of DATA at an NV register with writes before it waits for them (R551). -/
theorem smbData_waits {y : Sys} {j : Nat} (hnv : smbNv y.smb.ptr = some j) (hb : 0 < y.nv.before j)
    (pec : Option Bool) : y.smbData none pec =
      { y with smb := { y.smb with run := some { n := 1, reg := j, left := y.nv.before j, waited := true } } } := by
  have hnot : ¬ 1 ≤ 0 := by decide
  show ({ y with smb := { y.smb with run := some { n := 1 } } } : Sys).smbGo 3 = _
  unfold Sys.smbGo
  simp only [lt_self_iff_false, if_false, List.length_nil, hnot, Nat.mul_zero, Nat.add_zero, hnv, hb, decide_true, Bool.not_false,
    Bool.and_self, if_true]

/-- A read of a page's BLK_ID over SMBus, alone or with the registers after it. -/
theorem smbData_blkId {y : Sys} {g : Pg} (hrun : y.smb.run = none) (ht : target .smbus y.smb.ptr = .page g 0) (pec : Option Bool) :
    y.smbData none pec =
      ({ y with out := .smb (dwBytes [g.blkId]) :: y.out, smb := { y.smb with ptr := y.smb.ptr + 4 } } : Sys).smbDone := by
  obtain ⟨hlo, hhi, -, hoff⟩ := target_smbus_iff.1 ht
  obtain ⟨ws, hws, hgo⟩ := smbGo_blkId (y := y) ht (n := 1) (fuel := 3) (by decide) (by decide) (by decide)
  obtain rfl : ws = [] := List.length_eq_zero_iff.1 (by omega)
  exact hgo.trans (readOut_within (by omega) hrun _)

theorem smbBurst_blkId {y : Sys} {g : Pg} (hrun : y.smb.run = none) (ht : target .smbus y.smb.ptr = .page g 0) :
    ∃ ws, ws.length = 7 ∧ y.smbBurst =
      ({ y with out := .smb (dwBytes (g.blkId :: ws)) :: y.out, smb := { y.smb with ptr := y.smb.ptr + 32 } } : Sys).smbDone := by
  obtain ⟨hlo, hhi, -, hoff⟩ := target_smbus_iff.1 ht
  obtain ⟨ws, hws, hgo⟩ := smbGo_blkId (y := y) ht (n := 8) (fuel := 10) (by decide) (by decide) (by decide)
  exact ⟨ws, by omega, hgo.trans (readOut_within (by omega) hrun _)⟩

/-- A write of ERR_STAT over SMBus. -/
theorem smbData_stat {y : Sys} {g : Pg} (ht : target .smbus y.smb.ptr = .page g 0x18) (hu : y.unarmed g = true) (v : Word) :
    y.smbData (some v) (some true) =
      ({ y.setPg g 0x18 (y.pgReg g 0x18 &&& ~~~v) with smb := { y.smb with ptr := y.smb.ptr + 4 } } : Sys).smbDone := by
  obtain ⟨hlo, hhi, -, hoff⟩ := target_smbus_iff.1 ht
  have hstep := smbStep_within (y := y.setPg g 0x18 (y.pgReg g 0x18 &&& ~~~v)) (n := 4)
    (show y.smb.ptr + 4 < 0xB00000 by omega)
  show ((doRegWrite .smbus y.smb.ptr v y).smbStep 4).smbDone = _
  rw [doRegWrite_smbus_stat ht hu, hstep]
  rfl

/-- The hottest sample leads SUMMARY (R552). -/
theorem summary_hottest (y : Sys) {m : Nat} (hm : m < 13) (hv : FMap.get false m y.mari.valid = true) :
    ∃ k < 13, FMap.get false k y.mari.valid = true ∧ monInt m (FMap.get 0 m y.mari.sample) ≤ monInt k (FMap.get 0 k y.mari.sample) ∧
      y.summary.take 3 = [BitVec.ofNat 8 (FMap.get 0 k y.mari.sample), BitVec.ofNat 8 (FMap.get 0 k y.mari.sample / 256),
        BitVec.ofNat 8 k] := by
  have hmem (j : Nat) : j ∈ y.sampled 0 13 ↔ j < 13 ∧ FMap.get false j y.mari.valid = true := by
    simp [Sys.sampled]
  obtain ⟨hnil, -⟩ | ⟨k, hk, hpeak, hmax⟩ := peak_max y (y.sampled 0 13)
  · have := (hmem m).2 ⟨hm, hv⟩
    rw [hnil] at this
    exact absurd this (List.not_mem_nil)
  · obtain ⟨hk13, hkv⟩ := (hmem k).1 hk
    refine ⟨k, hk13, hkv, hmax m ((hmem m).2 ⟨hm, hv⟩), ?_⟩
    unfold Sys.summary Sys.peakVal
    simp only [hpeak]
    rfl

/-- Settles O57: each transaction as its function has it, with the reads of a page's header going through. -/
theorem smbusTargetAnswers : Obligations.smbus_target_answers := by
  unfold Obligations.smbus_target_answers
  refine ⟨fun s w pec hops ht => ?_, fun s w pec hops ht hrun => ⟨exec_smb_silent hops (by simp [Sys.smbOn, Option.isSome_iff_ne_none.2 hrun]) w pec, ?_⟩,
    fun s hops ht hrun => ?_⟩
  · intro c hc
    have hoff : s.sys.smbOn = false := by simp [Sys.smbOn, ht]
    have hsilent := exec_smb_silent hops hoff w pec
    by_cases htime : c = .smbTimeout
    · subst htime
      exact exec_live_same execSmbTimeout rfl rfl hops (if_pos ht)
    · refine hsilent c ?_
      simp only [List.mem_cons, List.not_mem_nil, or_false, htime, false_or] at hc ⊢
      exact hc
  · exact ⟨_, exec_smbTimeout hops ht, rfl⟩
  · intro cnt done ptr
    obtain ⟨hptr, hdata, hburst, hsum⟩ := exec_smb_acts hops (smbOn_idle ht hrun)
    refine ⟨fun pec => ⟨_, hptr none pec, rfl, smbDone_cnt _, rfl⟩, fun v pec => ⟨fun hout => ?_, fun hlo hhi => ⟨fun hok => ?_, fun hp hreq => ?_,
      fun hp => ?_⟩⟩, fun j pec hnv hbefore => ?_, fun g pec htg => ⟨?_, ?_⟩, fun g v htg hu => ?_, ?_, ?_, fun hal => ?_, fun hal => ?_⟩
    · exact (hptr (some v) pec).trans (congrArg (fun t => Host.Outcome.next { s with sys := t }) (if_pos hout))
    · obtain rfl | ⟨rfl, hreq⟩ := hok
      · exact does_of_exec (hptr _ _) (smbPtr_taken hlo hhi rfl) ⟨rfl, smbDone_cnt _⟩
      · exact does_of_exec (hptr _ _) (smbPtr_taken hlo hhi (by rw [Sys.smbPec, hreq]; rfl)) ⟨rfl, smbDone_cnt _⟩
    · subst hp
      exact does_of_exec (hptr _ _) (smbPtr_discarded hlo hhi (by rw [Sys.smbPec, hreq]; rfl)) ⟨rfl, smbDone_cnt _⟩
    · subst hp
      cases hreq : (s.sys.nv.last 284).bit 8 with
      | true =>
        refine does_of_exec (hptr _ _) (smbPtr_discarded (z := s.sys.smbCount) hlo hhi (by rw [Sys.smbPec, hreq]; rfl)) ⟨rfl, ?_⟩
        exact smbDone_fields (y := s.sys) rfl
      | false =>
        refine does_of_exec (hptr _ _) (smbPtr_taken (z := s.sys.smbCount) hlo hhi (by rw [Sys.smbPec, hreq]; rfl)) ⟨rfl, ?_⟩
        exact smbDone_fields (y := s.sys) rfl
    · rw [hdata, smbData_waits hnv hbefore]
    · exact does_of_exec (hdata _ _) (smbData_blkId hrun htg pec) ⟨rfl, smbDone_cnt _, rfl, rfl⟩
    · obtain ⟨ws, hws, heq⟩ := smbBurst_blkId hrun htg
      refine does_of_exec hburst heq ⟨⟨_, List.mem_cons_self, ?_, rfl⟩, rfl⟩
      rw [dwBytes_length, List.length_cons, hws]
    · refine does_of_exec (hdata _ _) (smbData_stat htg hu v) ⟨rfl, ?_⟩
      exact (pgReg_setPg_ne g (onePg .snw 2) (o := 0x18) (o' := 0x50) (by decide) _ _).trans (pgReg_setPg_self _ _ _ _)
    · exact ⟨_, hsum, smbDone_cnt _, s.sys.summary, rfl, rfl, rfl, rfl, rfl, rfl, fun m hm hv => summary_hottest s.sys hm hv⟩
    · refine does_of_exec (exec_smbTimeout hops ht) rfl ⟨?_, smbCount_cnt _⟩
      rw [← hrun]
      rfl
    · exact exec_live_same execAlertResponse rfl rfl hops (if_neg (by simp [hal]))
    · refine does_live_eq execAlertResponse rfl rfl hops (if_pos (by simp [smbOn_idle ht hrun, hal])) ⟨rfl, smbDone_cnt _, _, rfl, ?_⟩
      have hbit : (Config.freeWord s.sys.fresh).fld 0 0 < 2 := fld_lt _ _ _
      have hlt : (if smbBad (s.sys.nv.last 284) then 0x6A else (s.sys.nv.last 284).fld 6 0) < 128 := by
        split
        · decide
        · exact fld_lt _ _ _
      have hdiv := alertByte_div _ ((Config.freeWord s.sys.fresh).fld 0 0) hlt
      rwa [Nat.mod_eq_of_lt hbit] at hdiv

end Sys2Proof.Machine

/-! SUPPORT. A core that enters RETENTION while a source with WAKE = 1 asks for it alone. -/

namespace Sys2Proof.Machine

/-- Core 2 is about to be in RETENTION. Source 40 asserts its level, is enabled with WAKE = 1, and has core 2 as its only target; the
wake latch of core 2 is enabled. -/
def wantedCore : State where
  sys := { inService with
    doms := FMap.upd {} 20 (fun m => { m with st := .on, trans := .commit .ret }) inService.doms
    eng := { cic := { src := [(40, { lvl := true, inp := true })] } }
    regs := [((onePg .cic 2).base + 0x40 + 4 * 40, 0x40009#32), ((onePg .snw 1).base + 0x40, 0x80000#32)] }
  pending := []

/-- What runs on core 2's domain after its transition has ended in `wantedCore`. -/
def wantedTrans : Option Trans :=
  match exec (.domainTransitionEnd 20) wantedCore with
  | .next t => some (t.sys.dom 20).trans
  | _ => none

/-- Routing finds no core that can take the source, and wakes core 2 (R453, R516, R517). -/
theorem wantedTrans_eq : wantedTrans = some .exit := by decide +kernel

theorem wantedCore_enters : wantedCore.operates = true ∧ (wantedCore.sys.dom 20).trans = .commit .ret ∧
    (wantedCore.sys.dom 20).wake = false ∧ (wantedCore.sys.dom 20).target = none := by decide +kernel

/-- Refutes O54: the end of the entry in `wantedCore` reaches RETENTION and at once begins core 2's exit, where the statement has no
transition run. -/
theorem not_domainsChangeState : ¬ Obligations.domains_change_state := by
  unfold Obligations.domains_change_state
  rintro ⟨-, hends, -, -⟩
  obtain ⟨hlive, htr, hwake, htarget⟩ := wantedCore_enters
  obtain ⟨-, -, -, -, hret, -⟩ := hends wantedCore 20 .ret hlive
  obtain ⟨t, hexec, -, htrans⟩ := hret htr hwake htarget
  have h : wantedTrans = some (t.dom 20).trans := by
    unfold wantedTrans
    rw [hexec]
  have hnone : (t.dom 20).trans = .none := htrans
  rw [wantedTrans_eq, hnone] at h
  exact absurd h (by decide)

end Sys2Proof.Machine

/-! SUPPORT. A region reset while a captured commit names a register of the island. -/

namespace Sys2Proof.Machine

/-- Port 3, of region 0, is enabled, and a commit past its point has captured the register 0x800 below the reset counts of the island's
page 3: no capture of R82 takes such a register. -/
def strayResetCount : State where
  sys := { inService with
    host := { commitBusy := true, commitPast := true, capRegs := [{ off := (onePg .snw 3).base + 0x44 - 0x800, val := 0x70000, left := [] }] }
    usb := { ports := [(3, { st := .enabled, speed := .full })] } }
  pending := []

/-- The count of region resets after one of region 0 in `strayResetCount`. -/
def strayResets : Option Nat :=
  match exec (.regionReset 0) strayResetCount with
  | .next t => some ((t.sys.pgReg (onePg .snw 3) 0x44).fld 23 16)
  | _ => none

/-- Port 3's SOF stops with the region, and the captured value lands on the counts. -/
theorem strayResets_eq : strayResets = some 7 := by decide +kernel

theorem strayResetCount_serves : strayResetCount.serves .manager = true ∧
    strayResetCount.sys.pageLets .manager (onePg .snw 3) 0x40 false = true ∧ strayResetCount.sys.ldr.phase = .ready ∧
    strayResetCount.sys.contain.chipFault = false ∧ FMap.get false 0 strayResetCount.sys.contain.resetting = false ∧
    satInc 255 ((strayResetCount.sys.pgReg (onePg .snw 3) 0x44).fld 23 16) = 1 := by decide +kernel

/-- Refutes O58: the region reset in `strayResetCount` counts 7 region resets where the statement has 1. -/
theorem not_resetsReachTheirScope : ¬ Obligations.resets_reach_their_scope := by
  unfold Obligations.resets_reach_their_scope
  rintro ⟨-, hregion, -⟩
  obtain ⟨hs, hp, hldr, hchip, hres, hone⟩ := strayResetCount_serves
  obtain ⟨t, hexec, -, -, -, -, -, -, -, hcount⟩ := (hregion strayResetCount 0 hs hp).2 hldr hchip hres
  have h : strayResets = some ((t.pgReg (onePg .snw 3) 0x44).fld 23 16) := by
    unfold strayResets
    rw [hexec]
  have hone' : (t.pgReg (onePg .snw 3) 0x44).fld 23 16 = 1 := hcount.trans hone
  rw [strayResets_eq, hone'] at h
  exact absurd h (by decide)

end Sys2Proof.Machine

/-! SUPPORT. What turning every domain OFF leaves, and the power-on of HOST and SCHED. -/

namespace Sys2Proof.Machine

namespace FMap

variable {α : Type}

theorem get_filter_kept (d : α) {k : Nat} {p : Nat × α → Bool} (hp : ∀ v, p (k, v) = true) (m : FMap α) :
    get d k (m.filter p) = get d k m := by
  induction m with
  | nil => rfl
  | cons e r ih =>
    obtain ⟨j, v⟩ := e
    by_cases hj : j = k
    · subst hj
      simp [List.filter, hp, get]
    · cases hq : p (j, v) <;> simp [List.filter, hq, get, hj, ih]

theorem get_filter_dropped (d : α) {k : Nat} {p : Nat × α → Bool} (hp : ∀ v, p (k, v) = false) (m : FMap α) :
    get d k (m.filter p) = d := by
  induction m with
  | nil => rfl
  | cons e r ih =>
    obtain ⟨j, v⟩ := e
    by_cases hj : j = k
    · subst hj
      simpa [List.filter, hp] using ih
    · cases hq : p (j, v) <;> simp [List.filter, hq, get, hj, ih]

end FMap

/-- A row of domains set to one state: those of the row have it and no transition, the others and everything else stay. -/
theorem each_setDom_idle (st : DomSt) (l : List Nat) (y : Sys) :
    ∃ m, each (fun n (y : Sys) => y.setDom n st) l y = { y with doms := m } ∧
      ∀ d ∈ l, (({ y with doms := m } : Sys).dom d).st = st ∧ (({ y with doms := m } : Sys).dom d).trans = .none := by
  induction l generalizing y with
  | nil => exact ⟨y.doms, rfl, by simp⟩
  | cons a r ih =>
    obtain ⟨m, he, hin⟩ := ih (y.setDom a st)
    refine ⟨m, he, fun d hd => ?_⟩
    by_cases hr : d ∈ r
    · exact hin d hr
    · obtain rfl : d = a := by simpa [hr] using hd
      have hkeep : (each (fun n (y : Sys) => y.setDom n st) r (y.setDom d st)).dom d = (y.setDom d st).dom d := by
        obtain ⟨m', he', -, hout'⟩ := each_setDom st r (y.setDom d st)
        rw [he']
        exact hout' d hr
      rw [he] at hkeep
      have hm : ({ y with doms := m } : Sys).dom d = (y.setDom d st).dom d := hkeep
      rw [hm]
      simp [Sys.setDom]

/-! ## Everything outside the island -/

/-- A register of the always-on island's pages. -/
def isleReg (off : Nat) : Bool := match Pg.ofOff off with | some g => g.region == 10 | none => false

/-- `t` is the block `y` with everything outside the island gone: what every domain's turning OFF leaves, the domains apart. -/
structure Sys.Wiped (y t : Sys) : Prop where
  regs : t.regs = y.regs.filter fun e => isleReg e.1
  usb : t.usb = {}
  host : t.host = {}
  slots : t.eng.slots = []
  nv : t.nv = y.nv
  tb : t.tb = y.tb
  ldr : t.ldr = y.ldr
  jtag : t.jtag = y.jtag
  pins : t.pins = y.pins

theorem wipe_wiped (y : Sys) : y.Wiped y.wipe := by
  have hunits : ∃ m, each (fun d (y : Sys) => y.dropUnits d) (List.range 34) y = { y with mari := m } :=
    each_keeps (P := fun t => ∃ m, t = { y with mari := m }) _ (by rintro d - t ⟨m, rfl⟩; exact ⟨_, rfl⟩) ⟨_, rfl⟩
  have hlatch : ∀ z : Sys, ∃ c, z.relatch = { z with eng := { z.eng with cic := c } } := fun z =>
    each_keeps (P := fun t => ∃ c, t = { z with eng := { z.eng with cic := c } }) _
      (by
        rintro l - t ⟨c, rfl⟩
        dsimp only
        split
        · exact ⟨_, rfl⟩
        · exact ⟨_, rfl⟩)
      ⟨_, rfl⟩
  obtain ⟨m, hm⟩ := hunits
  unfold Sys.wipe
  dsimp only
  rw [hm]
  obtain ⟨c, hc⟩ := hlatch _
  rw [hc]
  exact ⟨rfl, rfl, rfl, rfl, rfl, rfl, rfl, rfl, rfl⟩

/-! ## The block with every domain OFF (R473, R499) -/

/-- `t` is the block `y` with every domain OFF and the loader as after reset. -/
structure Sys.Down (y t : Sys) : Prop where
  doms : ∀ d, d < 34 → (t.dom d).st = .off ∧ (t.dom d).trans = .none
  ldr : t.ldr = {}
  usb : t.usb = {}
  host : t.host = {}
  nv : t.nv = y.nv
  tb : t.tb = y.tb

theorem allOff_down (y : Sys) : y.Down y.allOff.ldrReset ∧ y.allOff.ldrReset.pins = (y.cfgReset false).pins ∧
    y.allOff.ldrReset.regs = y.regs.filter fun e => isleReg e.1 := by
  have hw := wipe_wiped y
  obtain ⟨m, he, hoff⟩ := each_setDom_idle .off (List.range 34) (y.wipe.cfgReset false)
  unfold Sys.allOff
  rw [he]
  refine ⟨⟨fun d hd => hoff d (List.mem_range.2 hd), rfl, hw.usb, hw.host, hw.nv, hw.tb⟩, ?_, hw.regs⟩
  show (y.wipe.cfgReset false).pins = _
  unfold Sys.cfgReset
  rw [hw.pins]

theorem pgReg_of_isle {y t : Sys} (h : t.regs = y.regs.filter fun e => isleReg e.1) {g : Pg} {o : Nat}
    (ho : isleReg (g.base + o) = true) : t.pgReg g o = y.pgReg g o := by
  unfold Sys.pgReg Sys.reg
  rw [h, FMap.get_filter_kept _ fun _ => ho]

theorem pgReg_of_not_isle {y t : Sys} (h : t.regs = y.regs.filter fun e => isleReg e.1) {g : Pg} {o : Nat}
    (ho : isleReg (g.base + o) = false) : t.pgReg g o = regReset (g.base + o) := by
  unfold Sys.pgReg Sys.reg
  rw [h, FMap.get_filter_dropped _ fun _ => ho]

/-! ## PERST# and the loss of the supplies -/

theorem perstOn_down (y : Sys) : y.Down y.perstOn ∧ y.perstOn.pins.railen = false ∧ y.perstOn.pins.perst = true ∧
    y.perstOn.contain.chipFault = false ∧
    (y.perstOn.pgReg snw3 0x44).fld 7 0 = satInc 255 ((y.pgReg snw3 0x44).fld 7 0) := by
  obtain ⟨hd, -, hr⟩ := allOff_down y
  unfold Sys.perstOn
  generalize y.allOff.ldrReset = z at *
  refine ⟨⟨hd.doms, hd.ldr, hd.usb, hd.host, hd.nv, hd.tb⟩, rfl, rfl, rfl, ?_⟩
  have hcount : z.resetIsland.pgReg snw3 0x44 = y.pgReg snw3 0x44 :=
    (reg_setReg_ne (by decide) _ _).trans (pgReg_of_isle hr (by decide))
  rw [← hcount]
  exact fld_incFld (by decide) (by decide) snw3 0x44 _

/-- Where the manager takes no notice of errors, recording one tells HOST nothing (R64). -/
theorem errNotify_quiet {y : Sys} (h : (y.pgReg (onePg .hst 0) 0x4C).bit 8 = false) (n : Nat) : y.errNotify n = y := by
  simp [Sys.errNotify, h]

theorem recordErr_quiet {g : Pg} {b d : Nat} {y : Sys} (hb : b ≠ 0) (hg : ¬ errTouches g 0x4C)
    (h : y.pgReg (onePg .hst 0) 0x4C = 0) : (y.recordErr g b d).host = y.host := by
  have hctl : ∀ z : Sys, z.reg 0x4C = 0 → (z.pgReg (onePg .hst 0) 0x4C).bit 8 = false := by
    intro z hz
    rw [show z.pgReg (onePg .hst 0) 0x4C = 0 from hz]
    decide
  simp only [errTouches, not_or] at hg
  obtain ⟨h1, h2, h3, h4, -⟩ := hg
  have hlatch : ∀ z : Sys, (z.latchFirst g b d).reg 0x4C = z.reg 0x4C ∧ (z.latchFirst g b d).host = z.host := by
    intro z
    unfold Sys.latchFirst
    split
    · exact ⟨rfl, rfl⟩
    · exact ⟨(reg_setReg_ne h4 _ _).trans (reg_setReg_ne h2 _ _), rfl⟩
  obtain ⟨hreg, hhost⟩ := hlatch (y.setBit g 0x18 b)
  unfold Sys.recordErr
  simp only [hb, if_false, decide_false, Bool.false_and, Bool.false_eq_true]
  have hquiet : ((y.setBit g 0x18 b).latchFirst g b d |>.incFld g 0x24 15 0).reg 0x4C = 0 :=
    (reg_setReg_ne h3 _ _).trans (hreg.trans ((reg_setReg_ne h1 _ _).trans h))
  rw [errNotify_quiet (hctl _ hquiet)]
  exact hhost

theorem reportsOnly_kept {y t : Sys} (h : y.reportsOnly t) : t.doms = y.doms ∧ t.ldr = y.ldr ∧ t.usb = y.usb ∧ t.nv = y.nv ∧
    t.tb = y.tb ∧ t.pins.railpg = y.pins.railpg := by
  unfold Sys.reportsOnly at h
  refine ⟨?_, ?_, ?_, ?_, ?_, ?_⟩ <;> rw [h]

theorem railLoss_down {y : Sys} (ht : y.jtag.test = false) (hr : y.pins.railen = true) :
    y.Down y.railLoss ∧ y.railLoss.pins.railen = false ∧ y.railLoss.pins.needPerst = true ∧ y.railLoss.pins.railpg = false ∧
      (y.railLoss.pgReg snw0 0x18).bit 8 = true := by
  obtain ⟨hd, hp, hregs⟩ := allOff_down { y with pins := { y.pins with railpg := false } }
  have heq : y.railLoss = (let z := ({ y with pins := { y.pins with railpg := false } } : Sys).allOff.ldrReset.recordErr snw0 8 0
      { z with pins := { z.pins with railen := false, needPerst := true } }) := by
    simp [Sys.railLoss, ht, hr]
  rw [heq]
  have hstat : ∀ z : Sys, ((z.recordErr snw0 8 0).pgReg snw0 0x18).bit 8 = true := fun z => by
    rw [recordErr_stat]
    exact Word.bit_put_self _ (by decide)
  have hrep := fun z : Sys => reportsOnly_recordErr snw0 8 0 z
  generalize ({ y with pins := { y.pins with railpg := false } } : Sys).allOff.ldrReset = z at *
  have hh : (z.recordErr snw0 8 0).host = {} :=
    (recordErr_quiet (by decide) (by unfold errTouches; decide) (pgReg_of_not_isle hregs (by decide))).trans hd.host
  have h := hrep z
  have hst := hstat z
  generalize z.recordErr snw0 8 0 = w at *
  obtain ⟨hdoms, hldr, husb, hnv, htb, hpg⟩ := reportsOnly_kept h
  refine ⟨⟨fun d hdm => ?_, hldr.trans hd.ldr, husb.trans hd.usb, hh, hnv.trans hd.nv, htb.trans hd.tb⟩, rfl, rfl, ?_, hst⟩
  · show (FMap.get {} d w.doms).st = _ ∧ (FMap.get {} d w.doms).trans = _
    rw [hdoms]
    exact hd.doms d hdm
  · exact hpg.trans (congrArg Pins.railpg hp)

/-! ## HOST and SCHED turn ON (R471, R498) -/

/-- The domains and the pins of `t` are those of `y`. -/
def Sys.SamePower (y t : Sys) : Prop := t.doms = y.doms ∧ t.pins = y.pins

theorem samePower_refl (y : Sys) : y.SamePower y := ⟨rfl, rfl⟩

theorem samePower_trans {a b c : Sys} (h : a.SamePower b) (k : b.SamePower c) : a.SamePower c := ⟨k.1.trans h.1, k.2.trans h.2⟩

theorem samePower_emit (o : Out) (y : Sys) : y.SamePower (y.emit o) := by
  unfold Sys.emit
  split
  · split
    · exact samePower_refl y
    · split
      · exact ⟨rfl, rfl⟩
      · split <;> exact ⟨rfl, rfl⟩
  · exact ⟨rfl, rfl⟩

theorem samePower_msix (v : Nat) (y : Sys) : y.SamePower (y.msix v) := by
  unfold Sys.msix
  split
  · exact ⟨rfl, rfl⟩
  · refine samePower_trans ?_ (samePower_emit _ _)
    split <;> exact ⟨rfl, rfl⟩

theorem samePower_tlqGo (n : Nat) (b : Bool) (y : Sys) : y.SamePower (y.tlqGo n b).2 := by
  induction n generalizing b y with
  | zero => exact samePower_refl y
  | succ n ih =>
    unfold Sys.tlqGo
    split
    · split
      · refine samePower_trans ?_ (ih true _)
        exact ⟨(samePower_emit _ y).1, (samePower_emit _ y).2⟩
      · exact samePower_refl y
    · exact samePower_refl y

theorem samePower_tlqDrain (y : Sys) : y.SamePower y.tlqDrain := by
  unfold Sys.tlqDrain
  dsimp only
  split
  · exact samePower_trans (samePower_tlqGo _ _ y) (samePower_msix _ _)
  · exact samePower_tlqGo _ _ y

theorem hostUp_on {y : Sys} (hen : y.pins.railen = true) (hpg : y.pins.railpg = true) (hp : y.pins.perst = false)
    (h16 : (y.dom 16).st = .off) : y.hostUp.on 16 = true ∧ y.hostUp.on 17 = true ∧ y.hostUp.pins = y.pins ∧
      ∀ d, d ≠ 16 → d ≠ 17 → y.hostUp.dom d = y.dom d := by
  have heq : y.hostUp = ((y.setDom 16 .on).setDom 17 .on).tlqDrain := by simp [Sys.hostUp, hen, hpg, hp, h16]
  obtain ⟨hd, hpins⟩ := samePower_tlqDrain ((y.setDom 16 .on).setDom 17 .on)
  have hdom : ∀ d, y.hostUp.dom d = ((y.setDom 16 .on).setDom 17 .on).dom d := fun d => by
    rw [heq, Sys.dom, hd]
    rfl
  have hon : ∀ d, ((y.setDom 16 .on).setDom 17 .on).on d = true → y.hostUp.on d = true := fun d h => by
    rw [Sys.on, hdom]
    exact h
  refine ⟨hon 16 ?_, hon 17 ?_, ?_, fun d h6 h7 => ?_⟩
  · have h := setDom_dom_ne (show 16 ≠ 17 by decide) .on (y.setDom 16 .on)
    rw [Sys.on, h]
    simp [Sys.setDom]
  · simp [Sys.on, Sys.setDom]
  · rw [heq]
    exact hpins
  · rw [hdom, setDom_dom_ne h7, setDom_dom_ne h6]

/-- PERST# rises where nothing keeps RAILEN low. -/
theorem perstOff_up {y : Sys} (ht : y.jtag.test = false) (hpg : y.pins.railpg = true) (hn : y.pins.needPerst = false)
    (htrip : y.mari.tripped = false) (h16 : (y.dom 16).st = .off) :
    y.perstOff.pins.perst = false ∧ y.perstOff.pins.railen = true ∧ y.perstOff.on 16 = true ∧ y.perstOff.on 17 = true := by
  obtain ⟨j, hj⟩ : ∃ j, y.perstOff =
      Sys.hostUp { y with jtag := j, mari := { y.mari with tripped := false }, pins := { y.pins with perst := false, railen := true } } := by
    unfold Sys.perstOff Sys.testEnd_
    simp only [ht, Bool.false_eq_true, if_false, Sys.updJtag, hn, htrip, Bool.false_and, Bool.or_self]
    exact ⟨_, rfl⟩
  obtain ⟨hon, hon', hp, -⟩ := hostUp_on
    (y := { y with jtag := j, mari := { y.mari with tripped := false }, pins := { y.pins with perst := false, railen := true } })
    rfl hpg rfl h16
  rw [hj]
  exact ⟨by rw [hp], by rw [hp], hon, hon'⟩

theorem perstOff_waits {y : Sys} (ht : y.jtag.test = false) (hn : y.pins.needPerst = true) :
    y.perstOff.pins.perst = false ∧ y.perstOff.pins.railen = y.pins.railen ∧ y.perstOff.doms = y.doms := by
  unfold Sys.perstOff Sys.testEnd_
  simp [ht, hn, Sys.updJtag]

/-! ## The statement -/

theorem exec_powerOnResetEnd_good {s : State} (compat : Bool) (h : smbBad (s.sys.nv.last 284) = false) :
    exec (.powerOnResetEnd compat false) s =
      .next { s with sys := s.sys.powerReset compat s.sys.nv, vin := true, testen := false } := by
  have hend : s.sys.porEnd compat = s.sys.powerReset compat s.sys.nv := by
    unfold Sys.porEnd
    exact if_neg (by rw [show ((s.sys.powerReset compat s.sys.nv).nv.last 284) = s.sys.nv.last 284 from rfl, h]; decide)
  show execPowerOnResetEnd compat false s = _
  rw [execPowerOnResetEnd, hend]

/-- Settles O52, command by command: what turning every domain OFF leaves, and what brings HOST and SCHED up. -/
theorem powerAndPerstBringTheChipUp : Obligations.power_and_perst_bring_the_chip_up := by
  unfold Obligations.power_and_perst_bring_the_chip_up
  refine ⟨fun s compat h => ⟨_, exec_powerOnResetEnd_good compat h, rfl, rfl, rfl, rfl, rfl, rfl, rfl, rfl, rfl⟩,
    fun s hops => ⟨?_, fun ht => ⟨fun hr => ?_, fun hr => ?_, fun hr hp h16 => ?_, fun hpg hn htr h16 => ?_, fun hn => ?_⟩⟩,
    fun s hops hh hl => ?_⟩
  · obtain ⟨hd, hen, hp, hf, hc⟩ := perstOn_down s.sys
    exact does_live execPerstAssert rfl rfl hops ⟨⟨hd.doms, hd.ldr, hd.usb, hd.host, hd.nv, hd.tb, hen⟩, hp, hf, hc⟩
  · obtain ⟨hd, hen, hn, hpg, hstat⟩ := railLoss_down ht hr
    exact does_live execRailpgLoss rfl rfl hops ⟨⟨hd.doms, hd.ldr, hd.usb, hd.host, hd.nv, hd.tb, hen⟩, hn, hpg, hstat⟩
  · refine (exec_live execRailpgLoss rfl rfl hops).trans ?_
    have heq : s.sys.railLoss = { s.sys with pins := { s.sys.pins with railpg := false } } := by simp [Sys.railLoss, ht, hr]
    rw [heq]
  · have heq : s.sys.railGood = ({ s.sys with pins := { s.sys.pins with railpg := true } } : Sys).hostUp := by simp [Sys.railGood, ht]
    obtain ⟨hon, hon', hpins, hdom⟩ := hostUp_on (y := { s.sys with pins := { s.sys.pins with railpg := true } }) hr rfl hp h16
    exact does_live_eq execRailpgGood rfl rfl hops heq ⟨hon, hon', congrArg Pins.railpg hpins, hdom⟩
  · exact does_live execPerstDeassert rfl rfl hops (perstOff_up ht hpg hn htr h16)
  · obtain ⟨hp, hen, hd⟩ := perstOff_waits ht hn
    exact does_live execPerstDeassert rfl rfl hops ⟨hp, hen, fun d => by rw [Sys.dom, hd]; rfl⟩
  · refine (exec_live execLoaderWindowReady rfl rfl hops).trans ?_
    have heq : s.sys.windowReady = s.sys.enterLoading := by simp [Sys.windowReady, hh, hl]
    rw [heq]
    rfl

end Sys2Proof.Machine

/-! SUPPORT. An overcurrent trip of a port that waits for its VBUSEN in the order of a region that is not its own. -/

namespace Sys2Proof.Machine

/-- VBUSEN of port 5 after a hard trip in `strayStagger`, where region 1 holds port 5 of region 0 in its order of rising VBUSENs. -/
def strayTrip : Option Bool :=
  match exec (.ocHardTrip 5) strayStagger with
  | .next t => some (t.sys.port 5).vbus
  | _ => none

/-- The pass that ends the trip lets the first VBUSEN of region 1's order rise (R260, R261). -/
theorem strayTrip_eq : strayTrip = some true := by decide +kernel

theorem strayStagger_live : strayStagger.operates = true ∧ strayStagger.sys.pwrWorks 5 = true ∧
    (strayStagger.sys.port 5).vbus = true ∧ (strayStagger.sys.port 5).hpwr = false := by decide +kernel

/-- Refutes O30: a hard trip in `strayStagger` takes VBUSEN low and out of region 0's order only, and its pass raises it again. -/
theorem not_overcurrentTripsAndRetries : ¬ Obligations.overcurrent_trips_and_retries := by
  unfold Obligations.overcurrent_trips_and_retries
  rintro ⟨-, htrip, -⟩
  obtain ⟨hops, hw, hv, hh⟩ := strayStagger_live
  obtain ⟨t, hexec, -, hvbus, -⟩ := htrip strayStagger 5 hops hw strayStagger_vacant hv hh
  have h : strayTrip = some (t.port 5).vbus := by
    unfold strayTrip
    rw [hexec]
  have hlow : (t.port 5).vbus = false := hvbus
  rw [strayTrip_eq, hlow] at h
  exact absurd h (by decide)

end Sys2Proof.Machine

/-! SUPPORT. The end of a test mode in a moment that has seen an event which goes after it. -/

namespace Sys2Proof.Machine

/-- Port 5 is in a test mode, and an event of a rank above all of R247's has changed its state in this moment. -/
def markedTest : State where
  sys := { inService with usb := { ports := [(5, { st := .test, test := 3, evAt := 1, evRank := 7, evWas := .powered })] } }
  pending := []

/-- The rank of the event that port 5 remembers once its test mode is left in `markedTest`. -/
def markedRank : Option Nat :=
  match exec (.testModeClear 5) markedTest with
  | .next t => some (t.sys.port 5).evRank
  | _ => none

/-- The clearing goes before the remembered event (R247), finds the port in another state than it leaves it in, and is remembered. -/
theorem markedRank_eq : markedRank = some 5 := by decide +kernel

theorem markedTest_serves : markedTest.serves .manager = true ∧ markedTest.sys.pageLets .manager (lnkPg 5) 0x4C false = true ∧
    (markedTest.sys.port 5).test ≠ 0 ∧ (markedTest.sys.port 5).st = .test ∧ (markedTest.sys.frame 5).cur = none ∧
    (markedTest.sys.frame 5).cspOrder = [] ∧ markedTest.sys.host.commitPast = false ∧ (markedTest.sys.ptab 5).leave = [] := by
  decide +kernel

/-- Refutes O31: clearing SEL in `markedTest` changes which event the port remembers, where the statement keeps it. -/
theorem not_testModesAreEnteredAndLeft : ¬ Obligations.test_modes_are_entered_and_left := by
  unfold Obligations.test_modes_are_entered_and_left
  rintro ⟨-, hclear, -⟩
  obtain ⟨hs, hp, htest, hst, hcur, hcsp, hpast, hleave⟩ := markedTest_serves
  obtain ⟨t, hexec, hport, -⟩ := hclear markedTest 5 hs hp htest hst hcur hcsp hpast hleave
  have h : markedRank = some (t.port 5).evRank := by
    unfold markedRank
    rw [hexec]
  have hrank : (t.port 5).evRank = 7 := congrArg Port.evRank hport
  rw [markedRank_eq, hrank] at h
  exact absurd h (by decide)

end Sys2Proof.Machine

/-! SUPPORT. The end of a context read on a channel that also counts bytes of a long transfer. -/

namespace Sys2Proof.Machine

/-- Channel 0 of host DMA reads the context of ring 0 of tenant 0, which is RUNNING, and has 64 bytes left of a long transfer: no
channel that reads a context has a total. -/
def strayTotal : State where
  sys := { inService with
    host := { rings := [(0, { st := .running })] }
    usb := { dma := [(0, { st := .active, use := .ctx 0, len := 64, req := 64, total := 128 })] } }
  pending := []

/-- What left the chip at the end of the context read in `strayTotal`. -/
def strayOut : Option Nat :=
  match exec (.contextFetch 0 0 (.ok [])) strayTotal with
  | .next t => some t.sys.out.length
  | _ => none

/-- The rest of the long transfer is asked for. -/
theorem strayOut_eq : strayOut = some 1 := by decide +kernel

theorem strayTotal_fetches : strayTotal.operates = true ∧ strayTotal.sys.ringUnit = true ∧
    (strayTotal.sys.ring (ringKey 0 0)).st ≠ .none ∧ strayTotal.sys.host.cache.contains (ringKey 0 0) = false ∧
    strayTotal.sys.host.cache.length < 8192 ∧ strayTotal.sys.hostCarrier (.ctx (ringKey 0 0)) = some 0 ∧
    (strayTotal.sys.chan 0 0).got < (strayTotal.sys.chan 0 0).req ∧ (strayTotal.sys.chan 0 0).st ≠ .preempted ∧
    (strayTotal.sys.ring (ringKey 0 0)).waiting = [] ∧ strayTotal.sys.fetchNext = none := by decide +kernel

/-- Refutes O35: the end of the context read in `strayTotal` sends a read request, where the statement has nothing leave the chip. -/
theorem not_submissionRingsTakeAndDispatch : ¬ Obligations.submission_rings_take_and_dispatch := by
  unfold Obligations.submission_rings_take_and_dispatch
  rintro ⟨-, hctx, -⟩
  obtain ⟨hops, hu, hst, hc, hlen, hcar, hgot, hpre, hw, hnext⟩ := strayTotal_fetches
  obtain ⟨t, hexec, -, -, -, hsame⟩ := hctx strayTotal 0 0 [] 0 hops hu hst hc hlen hcar hgot hpre (by simp [strayTotal]) hw
  have h : strayOut = some t.out.length := by
    unfold strayOut
    rw [hexec]
  have hout : t.out.length = 0 := congrArg (fun t => t.out.length) (hsame rfl rfl hnext)
  rw [strayOut_eq, hout] at h
  exact absurd h (by decide)

end Sys2Proof.Machine

/-! SUPPORT. A failed read on a firmware channel that carries what the chip itself has to read. -/

namespace Sys2Proof.Machine

/-- Firmware's first channel of host DMA is ACTIVE with a read for Decust's queue: no such read goes to a firmware channel. -/
def strayUse : State where
  sys := { inService with usb := { dma := [(24, { st := .active, use := .mcq, len := 64, req := 64 })] } }
  pending := []

/-- The channel's state once its read has failed in `strayUse`. -/
def strayRetry : Option ChSt :=
  match exec (.dmaReadCompletion 0 24 .ur) strayUse with
  | .next t => some (t.sys.chan 0 24).st
  | _ => none

/-- The read is not firmware's, so the report says nothing. -/
theorem strayRetry_eq : strayRetry = some .active := by decide +kernel

theorem strayUse_reads : strayUse.operates = true ∧ strayUse.sys.dmaRuns 0 = true ∧ (strayUse.sys.chan 0 24).reads = true ∧
    (strayUse.sys.chan 0 24).retries < strayUse.sys.dmaRetry 0 := by decide +kernel

/-- Refutes O37: the failed read of `strayUse` leaves its channel ACTIVE, where the statement has it wait to issue the read again. -/
theorem not_regionBurstsRun : ¬ Obligations.region_bursts_run := by
  unfold Obligations.region_bursts_run
  rintro ⟨-, hretry, -⟩
  obtain ⟨hops, hruns, hreads, hleft⟩ := strayUse_reads
  obtain ⟨t, hexec, hst, -⟩ := hretry strayUse 0 24 hops hruns hreads (.inr (by decide)) hleft
  have h : strayRetry = some (t.chan 0 24).st := by
    unfold strayRetry
    rw [hexec]
  have hwait : (t.chan 0 24).st = .retry := hst
  rw [strayRetry_eq, hwait] at h
  exact absurd h (by decide)

end Sys2Proof.Machine

/-! SUPPORT. Data for a firmware channel that carries what the chip itself has to read. -/

namespace Sys2Proof.Machine

/-- As `strayUse`, with 4 bytes outstanding that are to go into local memory. -/
def strayData : State where
  sys := { inService with usb := { dma := [(24, { st := .active, use := .mcq, len := 4, req := 4, laddr := 0x800000 })] } }
  pending := []

/-- The bytes that have moved on firmware's first channel once its 4 bytes have come in `strayData`. -/
def strayMoved : Option Nat :=
  match exec (.dmaReadCompletion 0 24 (.ok [1, 2, 3, 4])) strayData with
  | .next t => some (t.sys.chan 0 24).bytes
  | _ => none

/-- The read is not firmware's, so the report says nothing. -/
theorem strayMoved_eq : strayMoved = some 0 := by decide +kernel

theorem strayData_reads : strayData.operates = true ∧ strayData.sys.dmaRuns 0 = true ∧ (strayData.sys.chan 0 24).reads = true ∧
    (strayData.sys.chan 0 24).st ≠ .preempted ∧ (strayData.sys.chan 0 24).buf = [] ∧
    (strayData.sys.chan 0 24).req = (strayData.sys.chan 0 24).len ∧ 4 = (strayData.sys.chan 0 24).len - (strayData.sys.chan 0 24).got ∧
    0x800000 ≤ (strayData.sys.chan 0 24).laddr + (strayData.sys.chan 0 24).bytes ∧
    (strayData.sys.chan 0 24).laddr + (strayData.sys.chan 0 24).bytes + 4 ≤ 0x1000000 ∧
    strayData.sys.unarmed (dmaPg 0 24) = true ∧ strayData.sys.unarmed (onePg .wsc 0) = true ∧ (strayData.sys.chan 0 24).bytes = 0 := by
  decide +kernel

theorem strayData_lone : strayData.sys.lone 0 24 := by
  intro m hm hne
  obtain rfl : m = (24, { st := .active, use := .mcq, len := 4, req := 4, laddr := 0x800000 }) := by simpa [strayData] using hm
  exact absurd rfl hne

/-- Refutes O38: the data that come in `strayData` move nothing, where the statement has the 4 bytes in local memory. -/
theorem not_firmwareTransfersRun : ¬ Obligations.firmware_transfers_run := by
  unfold Obligations.firmware_transfers_run
  rintro ⟨-, hrun, -⟩
  obtain ⟨hops, hruns, hreads, hpre, hbuf, hreq, hlen, hlo, hhi, hu, hu', hzero⟩ := strayData_reads
  obtain ⟨-, hdata, -⟩ := hrun strayData 24 hops (by decide)
  obtain ⟨t, hexec, hchan, -⟩ := hdata [1, 2, 3, 4] hruns hreads hpre strayData_lone hbuf hreq hlen hlo hhi hu hu'
  have h : strayMoved = some (t.chan 0 24).bytes := by
    unfold strayMoved
    rw [hexec]
  have hmoved : (t.chan 0 24).bytes = 4 := (congrArg Chan2.bytes hchan).trans (congrArg (· + 4) hzero)
  rw [strayMoved_eq, hmoved] at h
  exact absurd h (by decide)

end Sys2Proof.Machine

/-! SUPPORT. The end of a read of Decust's queue on a channel that also counts bytes of a long transfer. -/

namespace Sys2Proof.Machine

/-- MCQ and MEQ are enabled with 16 entries each, and MCQ holds one, which channel 16 of host DMA reads; the channel has 64 bytes left
of a long transfer: no channel that reads MCQ has a total. -/
def strayQueue : State where
  sys := { inService with
    regs := [(tenPg.base + 0x58, 0x80000004), (tenPg.base + 0x5C, 1), (tenPg.base + 0x6C, 0x80000004)]
    usb := { dma := [(16, { st := .active, use := .mcq, len := 64, req := 64, total := 128 })] } }
  pending := []

/-- What left the chip at the end of the read in `strayQueue`, which brings a command of OPCODE 1. -/
def strayCopied : Option Nat :=
  match exec (.mcqTake (.ok [1])) strayQueue with
  | .next t => some t.sys.out.length
  | _ => none

/-- The rest of the long transfer is asked for. -/
theorem strayCopied_eq : strayCopied = some 1 := by decide +kernel

theorem strayQueue_takes : strayQueue.operates = true ∧ strayQueue.sys.mcqTakes = true ∧ strayQueue.sys.unarmed tenPg = true ∧
    strayQueue.sys.hostCarrier .mcq = some 16 ∧ (strayQueue.sys.chan 0 16).got < (strayQueue.sys.chan 0 16).req ∧
    (strayQueue.sys.chan 0 16).st ≠ .preempted ∧
    ({ seq := strayQueue.sys.host.decust.nseq, idx := (strayQueue.sys.pgReg tenPg 0x60).toNat % 65536, dws := [1] } : DCmd).keys ≠ [] := by
  decide +kernel

/-- Refutes O46: the end of the read in `strayQueue` sends a read request, where the statement has nothing leave the chip. -/
theorem not_decustQueuesMove : ¬ Obligations.decust_queues_move := by
  unfold Obligations.decust_queues_move
  rintro ⟨htake, -⟩
  obtain ⟨hops, ht, hu, hcar, hgot, hpre, hkeys⟩ := strayQueue_takes
  obtain ⟨hok, -⟩ := htake strayQueue (.ok [1]) 16 hops ht hu hcar hgot hpre
  obtain ⟨t, hexec, -, -, hsame⟩ := (hok [1] rfl rfl).1 hkeys
  have h : strayCopied = some t.out.length := by
    unfold strayCopied
    rw [hexec]
  have hout : t.out.length = 0 := congrArg (fun t => t.out.length) hsame
  rw [strayCopied_eq, hout] at h
  exact absurd h (by decide)

end Sys2Proof.Machine

/-! SUPPORT. The debounce of a hub port where the slot table lists the hub's slot twice. -/

namespace Sys2Proof.Machine

/-- The position of port 1 of the hub on a root port. -/
def strayTier : Word := 33554433

/-- Slot 5 stands twice in the slot table: first unused, with port 1 in debounce, and then as a device on root port 5; slot 6 is
another device there. The model's operations keep each slot once. -/
def straySlots : State where
  sys := { inService with eng := { slots :=
    [(5, { hubRec := { ports := [(1, { deb := true })] } }), (5, { used := true, port := 5 }), (6, { used := true, port := 5 })] } }
  pending := []

/-- The place in the attach order of the device that the debounce's end queues in `straySlots`. -/
def strayOrder : Option Nat :=
  match exec (.hubPortDebounceEnd 5 strayTier true) straySlots with
  | .next t => t.sys.usb.enums.head?.map (·.order)
  | _ => none

/-- Storing the port's change leaves slot 5 once, so slot 6 stands for the hub when the device is queued. -/
theorem strayOrder_eq : strayOrder = some 0 := by decide +kernel

theorem straySlots_at : straySlots.operates = true ∧ straySlots.sys.hubPortAt 5 strayTier.toNat = some (5, 1, { deb := true }) ∧
    straySlots.sys.slotAt 5 strayTier.toNat = none ∧ straySlots.sys.attachKey 5 = 5 := by decide +kernel

/-- Refutes O32: the debounce's end in `straySlots` queues the device at place 0 of the attach order, where the statement has 5. -/
theorem not_hubsAreHandled : ¬ Obligations.hubs_are_handled := by
  unfold Obligations.hubs_are_handled
  rintro ⟨-, -, -, hdeb, -⟩
  obtain ⟨hops, hat, hnone, hkey⟩ := straySlots_at
  obtain ⟨-, hqueue⟩ := hdeb straySlots 5 strayTier 5 1 { deb := true } hops hat rfl
  obtain ⟨t, hexec, -, henums⟩ := hqueue hnone
  have h : strayOrder = t.usb.enums.head?.map (·.order) := by
    unfold strayOrder
    rw [hexec]
  rw [strayOrder_eq, henums] at h
  have horder : 0 = straySlots.sys.attachKey 5 := Option.some.inj h
  rw [hkey] at horder
  exact absurd horder (by decide)

end Sys2Proof.Machine

/-! SUPPORT. A device leaves its tenant while a ring of it that is to be destroyed waits for the room of one completion record. -/

namespace Sys2Proof.Machine

/-- UNASSIGN_DEVICE for slot 5. -/
def unassignFive : DCmd := { idx := 0, dws := [0x0D, 5] }

/-- Slot 5 is assigned to tenant 0, whose ring 1 is to be destroyed once its last record is written; the record can be written, and no
command waits for it: the command that destroys a ring stays in progress till then. -/
def strayDestroy : State where
  sys := { inService with
    pins := { inService.pins with pasidEn := true }
    eng := { slots := [(5, { used := true, served := true, inst := some 0 })] }
    host := {
      decust := { maj := 2, cmds := [unassignFive] }
      cache := [16]
      rings := [(1, { st := .stopping, slot := 5, destroying := true }),
                (16, { st := .running, known := 1, waiting := [
                  { xid := 0, status := 0, sring := 1, entry := 0, slot := 5, epid := 0, bytes := 0, mf := 0, us := 0, ioc := false,
                    entries := [], inst := 0, own := false, seq := 0, fseq := 0 }] })] } }
  pending := []

/-- The state of ring 1 once the device has left its tenant in `strayDestroy`. -/
def strayRing : Option RingSt :=
  match exec (.unassignDevice 0) strayDestroy with
  | .next t => some (t.sys.ring 1).st
  | _ => none

/-- Its last record is written, and the ring is gone. -/
theorem strayRing_eq : strayRing = some .none := by decide +kernel

theorem strayDestroy_holds : strayDestroy.operates = true ∧ slotOk (unassignFive.f 1 13 0) = true ∧
    strayDestroy.sys.inService (unassignFive.f 1 13 0) = true ∧ strayDestroy.sys.holds 0 0x0D unassignFive ∧
    unassignFive.clean false [(1, 0x3FFF)] = true ∧ (strayDestroy.sys.slot (unassignFive.f 1 13 0)).inst = some 0 ∧
    (strayDestroy.sys.ring 1).slot = unassignFive.f 1 13 0 ∧ (strayDestroy.sys.ring 1).st ≠ .none := by
  unfold Sys.holds
  decide +kernel

/-- Refutes O48: in `strayDestroy` the device's ring 1 is gone, where the statement has it orphaned. -/
theorem not_devicesAndPortsFollowCommands : ¬ Obligations.devices_and_ports_follow_commands := by
  unfold Obligations.devices_and_ports_follow_commands
  intro h
  obtain ⟨hops, hok, hserves, hholds, hclean, hinst, hslot, hst⟩ := strayDestroy_holds
  obtain ⟨hdev, -⟩ := h strayDestroy 0 unassignFive hops rfl
  obtain ⟨-, hun, -⟩ := hdev hok hserves
  obtain ⟨t, hexec, -, -, -, -, horphan, -⟩ := hun 0 hholds hclean hinst (by decide) rfl
  have h : strayRing = some (t.ring 1).st := by
    unfold strayRing
    rw [hexec]
  rw [strayRing_eq, horphan 1 (by decide) hslot hst] at h
  exact absurd h (by decide)

end Sys2Proof.Machine

/-! SUPPORT. A write of no bytes at the end of the image area. -/

namespace Sys2Proof.Machine

/-- The loader waits for its image, and the image area takes writes. -/
def awaitingImage : State where
  sys := { inService with ldr := { phase := .loading } }
  pending := []

/-- What has left the chip once a write of no bytes at the first offset past the image area has come to `awaitingImage`. -/
def emptyWriteOut : Option (List Out) :=
  match exec (.imageWrite imageLen []) awaitingImage with
  | .next t => some t.sys.out
  | _ => none

/-- The access is to no page, and completes with UR (R48), which AER logs (R567). -/
theorem emptyWriteOut_eq : emptyWriteOut = some [.aer .unsupportedRequest .cor, .ur .loader imageLen false] := by decide +kernel

theorem awaitingImage_takes : awaitingImage.serves .loader = true ∧ awaitingImage.sys.imageLets = true ∧
    awaitingImage.sys.ldr.phase = .loading ∧ awaitingImage.sys.unarmed (onePg .wsc 0) = true ∧
    awaitingImage.sys.out = [] := by decide +kernel

/-- Refutes O53: a write of no bytes whose offset is the length of the image area ends within the area as the statement has it, and is
answered with UR, where the statement has nothing but shared SRAM change. -/
theorem not_theImageIsWrittenAndRun : ¬ Obligations.the_image_is_written_and_run := by
  unfold Obligations.the_image_is_written_and_run
  rintro ⟨hwrite, -⟩
  obtain ⟨hserves, hlets, hphase, hunarmed, hout⟩ := awaitingImage_takes
  obtain ⟨hloading, -⟩ := hwrite awaitingImage imageLen [] hserves hlets (by decide)
  obtain ⟨t, hexec, -, -, hsame⟩ := hloading hphase hunarmed
  have h : emptyWriteOut = some t.out := by
    unfold emptyWriteOut
    rw [hexec]
  rw [hsame] at h
  have h : emptyWriteOut = some [] := h.trans (congrArg some hout)
  rw [emptyWriteOut_eq] at h
  exact absurd h (by decide)

end Sys2Proof.Machine

/-! SUPPORT. What an event of the interrupt controller can change (R449-R454): the sources, the handlers of the cores, the wake latches of
Snowdrop's page 1, and the transitions of the domains that it wakes. The states of the domains and the cores' work stay. -/

namespace Sys2Proof.Machine

/-- A core with the handlers of another. -/
def Core.withHandlers (k h : Core) : Core :=
  { k with nsrc := h.nsrc, nclaimed := h.nclaimed, nvec := h.nvec, fsrc := h.fsrc, fclaimed := h.fclaimed, fvec := h.fvec }

/-- What an event of the interrupt controller can change. -/
def Sys.Stirs (y t : Sys) : Prop :=
  t = { y with regs := t.regs, doms := t.doms, eng := { y.eng with cic := t.eng.cic, cores := t.eng.cores } } ∧
  (∀ d, (t.dom d).st = (y.dom d).st ∧ t.on d = y.on d) ∧ (∀ a, a < 0xA01000 ∨ 0xA02000 ≤ a → t.reg a = y.reg a) ∧
  ∀ c, t.core c = (y.core c).withHandlers (t.core c)

theorem stirs_refl (y : Sys) : y.Stirs y := ⟨rfl, fun _ => ⟨rfl, rfl⟩, fun _ _ => rfl, fun _ => rfl⟩

theorem Sys.Stirs.trans {y z t : Sys} (h : y.Stirs z) (k : z.Stirs t) : y.Stirs t := by
  obtain ⟨he, hd, hr, hc⟩ := h
  obtain ⟨ke, kd, kr, kc⟩ := k
  refine ⟨by rw [ke, he], fun d => ⟨(kd d).1.trans (hd d).1, (kd d).2.trans (hd d).2⟩, fun a ha => (kr a ha).trans (hr a ha), fun c => ?_⟩
  rw [kc c, hc c]
  rfl

theorem Sys.Stirs.ite {y t t' : Sys} {p : Prop} [Decidable p] (h : y.Stirs t) (k : y.Stirs t') : y.Stirs (if p then t else t') := by
  split <;> assumption

theorem stirs_each {α : Type} {f : α → Sys → Sys} (l : List α) (h : ∀ a ∈ l, ∀ y : Sys, y.Stirs (f a y)) (y : Sys) :
    y.Stirs (each f l y) := by
  induction l generalizing y with
  | nil => exact stirs_refl y
  | cons a r ih => exact (h a List.mem_cons_self y).trans (ih (fun b hb => h b (List.mem_cons_of_mem _ hb)) _)

/-- A register of Snowdrop's page 1. -/
theorem stirs_setPg {o : Nat} (ho : o < 0x1000) (v : Word) (y : Sys) : y.Stirs (y.setPg (onePg .snw 1) o v) := by
  refine ⟨rfl, fun _ => ⟨rfl, rfl⟩, fun a ha => reg_setReg_ne ?_ _ _, fun _ => rfl⟩
  show a ≠ 0xA00000 + 1 * 0x1000 + o
  omega

theorem stirs_incFld {o : Nat} (ho : o < 0x1000) (hi lo : Nat) (y : Sys) : y.Stirs (y.incFld (onePg .snw 1) o hi lo) := stirs_setPg ho _ y

/-- A change of a domain that leaves its state; its transition stays too, or the domain is not ON. -/
theorem stirs_updDom {f : Dom → Dom} {d : Nat} {y : Sys} (hf : ∀ m, (f m).st = m.st)
    (ht : (∀ m, (f m).trans = m.trans) ∨ (y.dom d).st ≠ .on) : y.Stirs (y.updDom d f) := by
  refine ⟨rfl, fun e => ?_, fun _ _ => rfl, fun _ => rfl⟩
  by_cases he : e = d
  · subst he
    rw [Sys.on, Sys.on, updDom_dom_self, hf]
    refine ⟨rfl, ?_⟩
    rcases ht with ht | ht
    · rw [ht]
    · rw [beq_eq_false_iff_ne.2 ht, Bool.false_and, Bool.false_and]
  · rw [Sys.on, Sys.on, updDom_dom_ne he]
    exact ⟨rfl, rfl⟩

theorem stirs_updSrc (n : Nat) (f : CSrc → CSrc) (y : Sys) : y.Stirs (y.updSrc n f) := ⟨rfl, fun _ => ⟨rfl, rfl⟩, fun _ _ => rfl, fun _ => rfl⟩

theorem stirs_updCore {f : Core → Core} (hf : ∀ k, f k = k.withHandlers (f k)) (c : Nat) (y : Sys) : y.Stirs (y.updCore c f) := by
  refine ⟨rfl, fun _ => ⟨rfl, rfl⟩, fun _ _ => rfl, fun e => ?_⟩
  by_cases he : e = c
  · subst he
    rw [updCore_core_self]
    exact hf _
  · rw [updCore_core_ne he]
    rfl

theorem stirs_beginExit (fuel : Nat) (wake : Bool) {d : Nat} {y : Sys} (hd : (y.dom d).st ≠ .on) : y.Stirs (y.beginExit fuel wake d) := by
  induction fuel generalizing wake d y with
  | zero => exact stirs_refl y
  | succ fuel ih =>
    unfold Sys.beginExit
    dsimp only
    have h : y.Stirs (y.updDom d fun m => { m with wakes := if wake then satInc 255 m.wakes else m.wakes, byWake := wake }) :=
      stirs_updDom (fun _ => rfl) (.inl fun _ => rfl)
    refine h.trans ?_
    have hd' := (h.2.1 d).1.trans_ne hd
    generalize (y.updDom d fun m => { m with wakes := if wake then satInc 255 m.wakes else m.wakes, byWake := wake }) = z at hd' ⊢
    have hleaf : ∀ tr, z.Stirs (z.updDom d fun m => { m with trans := tr }) := fun tr => stirs_updDom (fun _ => rfl) (.inr hd')
    split
    · exact hleaf _
    · rename_i p _
      split
      · exact hleaf _
      · rename_i hp
        refine (hleaf .waitParent).trans ?_
        have hw := ((hleaf .waitParent).2.1 p).2.trans (Bool.eq_false_iff.2 hp)
        generalize (z.updDom d fun m => { m with trans := .waitParent }) = w at hw ⊢
        split
        · rename_i htr
          have hcount : w.Stirs (w.countReq p) := stirs_updDom (f := fun m => { m with reqs := satInc 255 m.reqs }) (fun _ => rfl) (.inl fun _ => rfl)
          refine hcount.trans (ih false ((hcount.2.1 p).1.trans_ne ?_))
          intro hst
          simp [Sys.on, hst, beq_iff_eq.1 htr] at hw
        · exact stirs_refl w

theorem stirs_wakeDom (d : Nat) (y : Sys) : y.Stirs (y.wakeDom d) := by
  have hmark : y.Stirs ((y.updDom d fun m => { m with wake := true }).incFld (onePg .snw 1) 0x50 31 16) :=
    (stirs_updDom (f := fun m => { m with wake := true }) (fun _ => rfl) (.inl fun _ => rfl)).trans (stirs_incFld (o := 0x50) (by decide) _ _ _)
  unfold Sys.wakeDom
  dsimp only
  split
  · exact hmark
  · exact hmark
  · exact hmark
  · exact stirs_refl y
  · exact stirs_refl y
  · by_cases hon : (y.dom d).st = .on
    · rw [if_pos (by simp [hon])]
      exact stirs_refl y
    · exact .ite (stirs_refl y) (stirs_beginExit _ _ hon)

theorem stirs_raiseWake (ds : List Nat) (y : Sys) : y.Stirs (y.raiseWake (.doms ds)) :=
  (stirs_incFld (o := 0x50) (by decide) _ _ y).trans (stirs_each ds (fun d _ => stirs_wakeDom d) _)

theorem stirs_latchEdge {l : Nat} (hl : l < 64) (ds : List Nat) (y : Sys) : y.Stirs (y.latchEdge l (.doms ds)) := by
  have h : y.Stirs ((y.setBit (onePg .snw 1) (0x48 + 4 * (l / 32)) (l % 32)).updSrc (256 + l) fun s => { s with lvl := true }) :=
    (stirs_setPg (by omega) _ y).trans (stirs_updSrc _ _ _)
  exact .ite (h.trans (stirs_raiseWake ds _)) h

theorem stirs_routeOne (fast : Bool) (n : Nat) (y : Sys) : y.Stirs (y.routeOne fast n) := by
  unfold Sys.routeOne
  dsimp only
  refine .ite ?_ (stirs_refl y)
  split
  · refine Sys.Stirs.trans (z := { y with eng := { y.eng with cic := _ } }) ?_ (stirs_updCore (fun k => ?_) _ _)
    · exact ⟨rfl, fun _ => ⟨rfl, rfl⟩, fun _ _ => rfl, fun _ => rfl⟩
    · split <;> rfl
  · refine .ite ?_ (stirs_refl y)
    split
    · rename_i c hc
      have hc : c < 16 := List.mem_range.1 (List.mem_of_find?_eq_some hc)
      exact stirs_latchEdge (by omega) _ y
    · exact stirs_refl y

theorem stirs_routeAll (y : Sys) : y.Stirs y.routeAll :=
  .ite ((stirs_each _ (fun n _ => stirs_routeOne true n) y).trans (stirs_each _ (fun n _ => stirs_routeOne false n) _)) (stirs_refl y)

theorem stirs_latchSet {l : Nat} (hl : l < 64) (ds : List Nat) (y : Sys) : y.Stirs (y.latchSet l (.doms ds)) :=
  (stirs_latchEdge hl ds y).trans (stirs_routeAll _)

theorem stirs_srcRise (n : Nat) (y : Sys) : y.Stirs (y.srcRise n) :=
  .ite (stirs_refl y) (.ite (stirs_refl y) (.ite
    (.ite ((stirs_updSrc _ _ y).trans (stirs_latchEdge (by decide) _ _)) (stirs_updSrc _ _ y)) (stirs_updSrc _ _ y)))

theorem stirs_cicPulse (n : Nat) (y : Sys) : y.Stirs (y.cicPulse n) :=
  ((stirs_srcRise n y).trans (stirs_updSrc _ _ _)).trans (stirs_routeAll _)

end Sys2Proof.Machine

/-! SUPPORT. Marigold's maintenance units (R524-R537, R557): which waiting unit starts, and what each unit's end leaves. -/

namespace Sys2Proof.Machine

/-! ## The unit that starts -/

/-- Of the unit found so far and a waiting one, the one of the better precedence. -/
def Sys.better (y : Sys) (a : Option MWait) (w : MWait) : Option MWait :=
  match a with
  | none => some w
  | some b => if y.unitRank w < y.unitRank b then some w else some b

theorem nextUnit_eq (y : Sys) : y.nextUnit = (y.mari.wait.filter fun w => y.unitAble w.u).foldl y.better none := rfl

/-- The best of the units found is one of them, and none goes before it. -/
theorem foldl_better_some (y : Sys) (l : List MWait) (b : MWait) :
    ∃ w, l.foldl y.better (some b) = some w ∧ (w = b ∨ w ∈ l) ∧ y.unitRank w ≤ y.unitRank b ∧ ∀ v ∈ l, y.unitRank w ≤ y.unitRank v := by
  induction l generalizing b with
  | nil => exact ⟨b, rfl, .inl rfl, Nat.le_refl _, by simp⟩
  | cons a r ih =>
    by_cases hab : y.unitRank a < y.unitRank b
    · obtain ⟨w, hw, hin, hle, hall⟩ := ih a
      refine ⟨w, ?_, .inr (hin.elim (fun h => h ▸ List.mem_cons_self) (List.mem_cons_of_mem _)), by omega, ?_⟩
      · rw [List.foldl_cons, Sys.better, if_pos hab, hw]
      · exact List.forall_mem_cons.2 ⟨hle, hall⟩
    · obtain ⟨w, hw, hin, hle, hall⟩ := ih b
      refine ⟨w, ?_, hin.imp_right (List.mem_cons_of_mem _), hle, ?_⟩
      · rw [List.foldl_cons, Sys.better, if_neg hab, hw]
      · exact List.forall_mem_cons.2 ⟨by omega, hall⟩

theorem nextUnit_none {y : Sys} (h : ∀ w ∈ y.mari.wait, y.unitAble w.u = false) : y.nextUnit = none := by
  rw [nextUnit_eq, List.filter_eq_nil_iff.2 fun w hw => by simp [h w hw]]
  rfl

theorem nextUnit_some {y : Sys} {v : MWait} (hv : v ∈ y.mari.wait) (hable : y.unitAble v.u = true) :
    ∃ w, y.nextUnit = some w ∧ w ∈ y.mari.wait ∧ y.unitAble w.u = true ∧ y.unitRank w ≤ y.unitRank v := by
  have hmem : v ∈ y.mari.wait.filter fun w => y.unitAble w.u := List.mem_filter.2 ⟨hv, hable⟩
  have hsub : ∀ w ∈ y.mari.wait.filter fun w => y.unitAble w.u, w ∈ y.mari.wait ∧ y.unitAble w.u = true :=
    fun w hw => List.mem_filter.1 hw
  rw [nextUnit_eq]
  generalize (y.mari.wait.filter fun w => y.unitAble w.u) = l at hmem hsub
  cases l with
  | nil => exact absurd hmem (by simp)
  | cons a r =>
    obtain ⟨w, hw, hin, hle, hall⟩ := foldl_better_some y r a
    have hw' : w ∈ a :: r := hin.elim (fun h => h ▸ List.mem_cons_self) (List.mem_cons_of_mem _)
    exact ⟨w, hw, (hsub w hw').1, (hsub w hw').2, List.forall_mem_cons (p := fun v => y.unitRank w ≤ y.unitRank v) |>.2 ⟨hle, hall⟩ v hmem⟩

/-! ## Wear -/

theorem nvWear_keeps (k j c n : Nat) (y : Sys) : (y.nvWear k j c n).nv = y.nv ∧ (y.nvWear k j c n).mari = y.mari := by
  have h := tellsOnly_meqEvent none (y.ev 0x11 0 0 0
    [Word.ofN (k + j * 65536), Word.ofN (c + n * 1048576), Word.ofN y.nv.free]) y
  obtain ⟨hs, -, -, -⟩ := stirs_cicPulse 16 (y.meqEvent none (y.ev 0x11 0 0 0
    [Word.ofN (k + j * 65536), Word.ofN (c + n * 1048576), Word.ofN y.nv.free]))
  unfold Sys.tellsOnly at h
  unfold Sys.nvWear
  rw [hs, h]
  exact ⟨rfl, rfl⟩

theorem sparesLow_keeps (was : Nat) (y : Sys) : (y.sparesLow was).nv = y.nv ∧ (y.sparesLow was).mari = y.mari := by
  have hif : ∀ (p : Prop) [Decidable p] (z : Sys), (if p then z.nvWear 3 0 0 0 else z).nv = z.nv ∧
      (if p then z.nvWear 3 0 0 0 else z).mari = z.mari := by
    intro p _ z
    split
    · exact nvWear_keeps 3 0 0 0 z
    · exact ⟨rfl, rfl⟩
  exact ⟨(hif _ _).1.trans (hif _ _).1, (hif _ _).2.trans (hif _ _).2⟩

/-- The next spare stands behind register `j`. -/
def Sys.spareIn (j : Nat) (y : Sys) : Sys :=
  { y with
    nv := { y.nv with
      taken := y.nv.taken + 1
      migrated := y.nv.migrated + 1
      want := y.nv.want.filter (· != j)
      spare := FMap.put 0 j (y.nv.taken + 1) y.nv.spare
      cnt := FMap.put 0 j 0 y.nv.cnt
      warned := FMap.put false j false y.nv.warned }
    mari := { y.mari with cnt := { y.mari.cnt with migrs := y.mari.cnt.migrs + 1 } } }

/-- A migration that finds no bad spare. -/
theorem migrated_good {y : Sys} (j : Nat) (h : y.nv.taken < 64) :
    y.migrated j 0 = ((y.spareIn j).nvWear 2 j 0 y.nv.taken).sparesLow y.nv.free := by
  simp only [Sys.migrated, Nat.zero_min, List.range_zero, each]
  exact if_pos h

theorem wearEnd_good {y : Sys} {j : Nat} (hrun : MUnit.wear j ∈ y.mari.run) (h : y.nv.taken < 64) :
    (y.wearEnd j 0).nv = (y.spareIn j).nv ∧ (y.wearEnd j 0).mari.run = y.mari.run.erase (.wear j) := by
  have he : y.wearEnd j 0 = (y.unitDone (.wear j)).migrated j 0 := if_pos (List.contains_iff_mem.2 hrun)
  rw [he, migrated_good j (y := y.unitDone (.wear j)) h, (sparesLow_keeps _ _).1, (sparesLow_keeps _ _).2, (nvWear_keeps _ _ _ _ _).1,
    (nvWear_keeps _ _ _ _ _).2]
  exact ⟨rfl, rfl⟩

/-! ## Scrubbing -/

/-- Nothing waits for a domain that is ON to come back. -/
theorem unitWake_on {y : Sys} {d : Nat} (hd : d ≠ 63) (h : y.on d = true) (en : Bool) : y.unitWake d en = y := by
  have hret : y.isRet d = false := by
    simp only [Sys.on, Bool.or_eq_true, beq_iff_eq, Bool.and_eq_true] at h
    simp [Sys.isRet, (h.resolve_left hd).1]
  simp [Sys.unitWake, hret]

theorem memDom_ne (mem : Fin 17) : memDom mem ≠ 63 := by
  unfold memDom
  split <;> omega

/-- Recording an error leaves register 44H of every page but the second, where interrupts are counted. -/
theorem recordErr_pgReg_44 {g q : Pg} (hq : q.base ≠ 0x1000) (b d : Nat) (y : Sys) :
    (y.recordErr g b d).pgReg q 0x44 = y.pgReg q 0x44 := by
  refine recordErr_reg ?_ b d y
  have hg := base_mod g
  have hm := base_mod q
  unfold errTouches
  omega

theorem put_one_idem (w : Word) : (w.put 0 0 1).put 0 0 1 = w.put 0 0 1 := by
  refine BitVec.eq_of_getLsbD_eq fun i _ => ?_
  rw [getLsbD_put (by decide) (Nat.le_refl 0), getLsbD_put (by decide) (Nat.le_refl 0)]
  split <;> rfl

/-- Words corrected one after another: CORR is set where there is one, and nothing else but reports changes. -/
theorem each_corr (g : Pg) (l : List Nat) (y : Sys) :
    y.reportsOnly (each (fun _ (y : Sys) => y.recordErr g 0 0) l y) ∧
    (each (fun _ (y : Sys) => y.recordErr g 0 0) l y).pgReg (mntPg 1) 0x44 = y.pgReg (mntPg 1) 0x44 ∧
    (each (fun _ (y : Sys) => y.recordErr g 0 0) l y).pgReg g 0x18 =
      (if 0 < l.length then (y.pgReg g 0x18).put 0 0 1 else y.pgReg g 0x18) := by
  induction l generalizing y with
  | nil => exact ⟨reportsOnly_refl y, rfl, rfl⟩
  | cons a r ih =>
    obtain ⟨hrep, h44, h18⟩ := ih (y.recordErr g 0 0)
    refine ⟨reportsOnly_trans (reportsOnly_recordErr g 0 0 y) hrep, h44.trans (recordErr_pgReg_44 (by decide) 0 0 y), ?_⟩
    rw [each, h18, recordErr_stat, put_one_idem, ite_self]
    exact (if_pos (Nat.zero_lt_succ _)).symm

/-- The counts of a line that has been scrubbed, with `c` words corrected and `m` beyond correction. -/
def Sys.lineDone (mem k c m : Nat) (y : Sys) : Sys :=
  let y := (y.unitDone (.scrub mem k)).telCount fun t =>
    { t with scrubLines := t.scrubLines + 1, scrubCorr := t.scrubCorr + c, scrubUnc := t.scrubUnc + m }
  let w := y.pgReg (mntPg 1) 0x44
  let y := y.setPg (mntPg 1) 0x44 (Word.ofN (min 65535 (w.fld 15 0 + c) + min 65535 (w.fld 31 16 + m) * 65536))
  if k + 1 = scrubLen mem then y.passEnd mem else y

theorem lineDone_eq (mem k c m : Nat) (y : Sys) : ∃ mari, y.lineDone mem k c m = { y with
      regs := (y.setPg (mntPg 1) 0x44 (Word.ofN (min 65535 ((y.pgReg (mntPg 1) 0x44).fld 15 0 + c) +
        min 65535 ((y.pgReg (mntPg 1) 0x44).fld 31 16 + m) * 65536))).regs
      mari := mari } ∧ mari.run = y.mari.run.erase (.scrub mem k) ∧ mari.everUnc = y.mari.everUnc := by
  unfold Sys.lineDone
  dsimp only
  split
  · exact ⟨_, rfl, rfl, rfl⟩
  · exact ⟨_, rfl, rfl, rfl⟩

theorem lineDone_pgReg (mem k c m : Nat) (y : Sys) :
    (y.lineDone mem k c m).pgReg (mntPg 1) 0x44 = Word.ofN (min 65535 ((y.pgReg (mntPg 1) 0x44).fld 15 0 + c) +
        min 65535 ((y.pgReg (mntPg 1) 0x44).fld 31 16 + m) * 65536) ∧
    ∀ g, (y.lineDone mem k c m).pgReg g 0x18 = y.pgReg g 0x18 := by
  obtain ⟨mari, he, -⟩ := lineDone_eq mem k c m y
  rw [he]
  exact ⟨pgReg_setPg_self _ _ _ _, fun g => pgReg_setPg_ne g (mntPg 1) (by decide) _ y⟩

/-- The page that a memory's errors are recorded in. -/
def memPg (mem : Nat) : Pg := if mem = 16 then wscPg else corePg mem

theorem scrubEnd_run {y : Sys} {mem k : Nat} (h : y.scrubRun mem = some k) (c m : Nat) :
    y.scrubEnd mem c m =
      (let z := each (fun _ (y : Sys) => y.recordErr (memPg mem) 0 0) (List.range c) (y.lineDone mem k c m)
       if m = 0 then z
       else
         let z := z.updMari fun m => { m with everUnc := true }
         if mem = 16 then z.lineFault k m else z.uncorr (memPg mem) 0) := by
  unfold Sys.scrubEnd
  rw [h]
  rfl

theorem scrubEnd_corrected {y : Sys} {mem k : Nat} (h : y.scrubRun mem = some k) (c : Nat) :
    (y.scrubEnd mem c 0).mari.run = y.mari.run.erase (.scrub mem k) ∧ (y.scrubEnd mem c 0).mari.everUnc = y.mari.everUnc ∧
    (y.scrubEnd mem c 0).pgReg (mntPg 1) 0x44 = Word.ofN (min 65535 ((y.pgReg (mntPg 1) 0x44).fld 15 0 + c) +
      (y.pgReg (mntPg 1) 0x44).fld 31 16 * 65536) ∧
    (y.scrubEnd mem c 0).pgReg (memPg mem) 0x18 =
      if 0 < c then (y.pgReg (memPg mem) 0x18).put 0 0 1 else y.pgReg (memPg mem) 0x18 := by
  obtain ⟨hrep, h44, h18⟩ := each_corr (memPg mem) (List.range c) (y.lineDone mem k c 0)
  obtain ⟨mari, he, hrun, hunc⟩ := lineDone_eq mem k c 0 y
  obtain ⟨hcnt, hstat⟩ := lineDone_pgReg mem k c 0 y
  have hmari : (y.scrubEnd mem c 0).mari = mari := by
    unfold Sys.reportsOnly at hrep
    rw [scrubEnd_run h, if_pos rfl, hrep, he]
  have hhigh : min 65535 ((y.pgReg (mntPg 1) 0x44).fld 31 16 + 0) = (y.pgReg (mntPg 1) 0x44).fld 31 16 := by
    have := fld_lt (y.pgReg (mntPg 1) 0x44) 31 16
    omega
  rw [hmari]
  refine ⟨hrun, hunc, ?_, ?_⟩
  · rw [scrubEnd_run h, if_pos rfl, h44, hcnt, hhigh]
  · rw [scrubEnd_run h, if_pos rfl, h18, List.length_range, hstat]

/-- An uncorrectable error of a core halts it, and leaves Marigold's units and counts. -/
theorem uncorr_core (c d : Nat) (y : Sys) : (y.uncorr (corePg c) d).mari = y.mari ∧ ((y.uncorr (corePg c) d).core c).st = .halted ∧
    ((y.uncorr (corePg c) d).pgReg (corePg c) 0x18).bit 2 = true ∧
    (y.uncorr (corePg c) d).pgReg (mntPg 1) 0x44 = y.pgReg (mntPg 1) 0x44 := by
  have hrep := reportsOnly_recordErr (corePg c) 2 d y
  have hstat := recordErr_stat (corePg c) 2 d y
  have hquiet := recordErr_pgReg_44 (g := corePg c) (q := mntPg 1) (by decide) 2 d y
  have hmari : (y.recordErr (corePg c) 2 d).mari = y.mari := by
    unfold Sys.reportsOnly at hrep
    rw [hrep]
  unfold Sys.uncorr
  generalize y.recordErr (corePg c) 2 d = w at hstat hquiet hmari ⊢
  have hhalt : w.haltBlock (corePg c) = (w.markHalt (corePg c)).updCore c fun k => { k with st := .halted } := rfl
  rw [hhalt]
  exact ⟨hmari, congrArg Core.st (updCore_core_self _ _ _), (congrArg (Word.bit · 2) hstat).trans (Word.bit_put_self _ (by decide)), hquiet⟩

/-- Words beyond correction in a core's local SRAM halt the core. -/
theorem scrubEnd_uncorrected {y : Sys} {mem k m : Nat} (h : y.scrubRun mem = some k) (hm : 0 < m) (hmem : mem < 16) (c : Nat) :
    (y.scrubEnd mem c m).mari.everUnc = true ∧ ((y.scrubEnd mem c m).core mem).st = .halted ∧
    ((y.scrubEnd mem c m).pgReg (corePg mem) 0x18).bit 2 = true ∧
    (y.scrubEnd mem c m).pgReg (mntPg 1) 0x44 = Word.ofN (min 65535 ((y.pgReg (mntPg 1) 0x44).fld 15 0 + c) +
      min 65535 ((y.pgReg (mntPg 1) 0x44).fld 31 16 + m) * 65536) := by
  obtain ⟨-, h44, -⟩ := each_corr (memPg mem) (List.range c) (y.lineDone mem k c m)
  have hcnt := h44.trans (lineDone_pgReg mem k c m y).1
  have hpg : memPg mem = corePg mem := if_neg (by omega)
  rw [scrubEnd_run h, if_neg (by omega), if_neg (by omega)]
  rw [hpg] at hcnt ⊢
  generalize each (fun _ (y : Sys) => y.recordErr (corePg mem) 0 0) (List.range c) (y.lineDone mem k c m) = z at hcnt ⊢
  obtain ⟨hmari, hst, hbit, hq⟩ := uncorr_core mem 0 (z.updMari fun m => { m with everUnc := true })
  exact ⟨congrArg Mari.everUnc hmari, hst, hbit, hq.trans hcnt⟩

/-! ## Calibration -/

/-- Five steps are asked for on port `16 n + k`. -/
def Sys.calAsk (n k : Nat) (y : Sys) : Sys :=
  let p := 16 * n + k
  let y := if FMap.get 0 p y.mari.calLeft = 0 then y.unitAsk (.cal p) else y
  y.updMari fun m => { m with calLeft := FMap.put 0 p 5 m.calLeft }

theorem calAsk_wait (n k : Nat) (y : Sys) : (∀ w ∈ y.mari.wait, w ∈ (y.calAsk n k).mari.wait) ∧
    (FMap.get 0 (16 * n + k) y.mari.calLeft = 0 → ∃ w ∈ (y.calAsk n k).mari.wait, w.u = .cal (16 * n + k)) := by
  unfold Sys.calAsk
  dsimp only
  split
  · exact ⟨fun w hw => List.mem_append_left _ hw, fun _ => ⟨_, List.mem_append_right _ (List.mem_singleton.2 rfl), rfl⟩⟩
  · rename_i h
    exact ⟨fun w hw => hw, fun h0 => absurd h0 h⟩

theorem calAsk_left (n k p : Nat) (y : Sys) :
    FMap.get 0 p (y.calAsk n k).mari.calLeft = if p = 16 * n + k then 5 else FMap.get 0 p y.mari.calLeft := by
  have h : (y.calAsk n k).mari.calLeft = FMap.put 0 (16 * n + k) 5 y.mari.calLeft := by
    unfold Sys.calAsk
    dsimp only
    split <;> rfl
  rw [h]
  split
  · subst p
    exact FMap.get_put_self _ _ _ _
  · rename_i hp
    exact FMap.get_put_ne _ hp _ _

/-- A pass over a row of a region's ports. -/
theorem each_calAsk (n : Nat) (l : List Nat) (y : Sys) (p : Nat) :
    (∀ w ∈ y.mari.wait, w ∈ (each (Sys.calAsk n) l y).mari.wait) ∧
    ((∃ k ∈ l, p = 16 * n + k) → FMap.get 0 p (each (Sys.calAsk n) l y).mari.calLeft = 5 ∧
      (FMap.get 0 p y.mari.calLeft = 0 → ∃ w ∈ (each (Sys.calAsk n) l y).mari.wait, w.u = .cal p)) ∧
    ((¬ ∃ k ∈ l, p = 16 * n + k) → FMap.get 0 p (each (Sys.calAsk n) l y).mari.calLeft = FMap.get 0 p y.mari.calLeft) := by
  induction l generalizing y with
  | nil => exact ⟨fun w hw => hw, by simp, fun _ => rfl⟩
  | cons a r ih =>
    obtain ⟨hw, hin, hout⟩ := ih (y.calAsk n a)
    obtain ⟨haw, hask⟩ := calAsk_wait n a y
    have hleft := calAsk_left n a p y
    rw [each]
    refine ⟨fun w h => hw w (haw w h), fun h => ?_, fun h => ?_⟩
    · by_cases hr : ∃ k ∈ r, p = 16 * n + k
      · refine ⟨(hin hr).1, fun h0 => ?_⟩
        by_cases hp : p = 16 * n + a
        · obtain ⟨w, hmem, hu⟩ := hask (hp ▸ h0)
          exact ⟨w, hw w hmem, hu.trans (by rw [hp])⟩
        · exact (hin hr).2 (hleft.trans ((if_neg hp).trans h0))
      · obtain ⟨k, hk, hp⟩ := h
        have hka : k = a := (List.mem_cons.1 hk).resolve_right fun h => hr ⟨k, h, hp⟩
        subst hka
        refine ⟨(hout hr).trans (hleft.trans (if_pos hp)), fun h0 => ?_⟩
        obtain ⟨w, hmem, hu⟩ := hask (hp ▸ h0)
        exact ⟨w, hw w hmem, hu.trans (by rw [hp])⟩
    · have hr : ¬ ∃ k ∈ r, p = 16 * n + k := fun ⟨k, hk, hp⟩ => h ⟨k, List.mem_cons_of_mem _ hk, hp⟩
      have hp : p ≠ 16 * n + a := fun hp => h ⟨a, List.mem_cons_self, hp⟩
      exact (hout hr).trans (hleft.trans (if_neg hp))

theorem calPeriod_eq {n : Nat} {y : Sys} (hn : n < 8) (hon : y.on (8 + n) = true) (hh : y.halted (mntPg 0) = false) :
    y.calPeriod n = each (Sys.calAsk n) (List.range 16) (y.calMark n) := by
  have hst : (y.dom (8 + n)).st = .on := by
    simp only [Sys.on, Bool.or_eq_true, beq_iff_eq, Bool.and_eq_true] at hon
    exact (hon.resolve_left (by omega)).1
  unfold Sys.calPeriod
  rw [unitWake_on (by omega) hon]
  exact if_neg (by simp [hst, hh])

/-- A trim step of port `p` is counted. -/
def Sys.stepDone (p : Nat) (y : Sys) : Sys :=
  (((y.unitDone (.cal p)).telCount fun t => { t with calSteps := t.calSteps + 1 }).incFld (mntPg 2) 0x44 15 0).updMari
    fun m => { m with calLeft := FMap.put 0 p (FMap.get 0 p y.mari.calLeft - 1) m.calLeft }

/-- Port `p` asks for its next step. -/
def Sys.stepNext (p l : Nat) (y : Sys) : Sys := if 0 < l then y.unitAsk (.cal p) else y

theorem stepNext_eq (p l : Nat) (y : Sys) : y.stepNext p l = { y with mari := { y.mari with
    wait := y.mari.wait ++ (if 0 < l then [{ u := .cal p, since := y.tb }] else []) } } := by
  unfold Sys.stepNext
  split
  · rfl
  · rw [List.append_nil]

/-- The end of a trim's range, where it is met. -/
theorem trimEnd_keeps (e : Bool) (p : Nat) (y : Sys) :
    y.reportsOnly (if e then y.recordErr (mntPg 0) 9 p else y) ∧
    (if e then y.recordErr (mntPg 0) 9 p else y).pgReg (mntPg 2) 0x44 = y.pgReg (mntPg 2) 0x44 ∧
    (if e then y.recordErr (mntPg 0) 9 p else y).pgReg (mntPg 0) 0x18 =
      if e then (y.pgReg (mntPg 0) 0x18).put 9 9 1 else y.pgReg (mntPg 0) 0x18 := by
  cases e
  · exact ⟨reportsOnly_refl y, rfl, rfl⟩
  · exact ⟨reportsOnly_recordErr _ _ _ y, recordErr_pgReg_44 (by decide) _ _ y, recordErr_stat _ _ _ y⟩

/-- A trim step that ends on port `p`. -/
theorem calEnd_run {p : Nat} {y : Sys} (h : MUnit.cal p ∈ y.mari.run) (e : Bool) :
    FMap.get 0 p (y.calEnd p e).mari.calLeft = FMap.get 0 p y.mari.calLeft - 1 ∧
    (y.calEnd p e).mari.run = y.mari.run.erase (.cal p) ∧
    (y.calEnd p e).mari.wait = y.mari.wait ++ (if 1 < FMap.get 0 p y.mari.calLeft then [{ u := .cal p, since := y.tb }] else []) ∧
    (y.calEnd p e).pgReg (mntPg 2) 0x44 = (y.pgReg (mntPg 2) 0x44).put 15 0 (satInc 65535 ((y.pgReg (mntPg 2) 0x44).fld 15 0)) ∧
    (y.calEnd p e).pgReg (mntPg 0) 0x18 = if e then (y.pgReg (mntPg 0) 0x18).put 9 9 1 else y.pgReg (mntPg 0) 0x18 := by
  have he : y.calEnd p e = (if e then (y.stepDone p).recordErr (mntPg 0) 9 p else y.stepDone p).stepNext p
      (FMap.get 0 p y.mari.calLeft - 1) := if_pos (List.contains_iff_mem.2 h)
  obtain ⟨hrep, h44, h18⟩ := trimEnd_keeps e p (y.stepDone p)
  have hkept : (y.stepDone p).pgReg (mntPg 0) 0x18 = y.pgReg (mntPg 0) 0x18 := pgReg_setPg_ne _ (mntPg 2) (by decide) _ _
  have hcnt : (y.stepDone p).pgReg (mntPg 2) 0x44 = (y.pgReg (mntPg 2) 0x44).put 15 0 (satInc 65535 ((y.pgReg (mntPg 2) 0x44).fld 15 0)) :=
    pgReg_setPg_self (mntPg 2) 0x44 _ _
  rw [he, stepNext_eq]
  generalize (if e then (y.stepDone p).recordErr (mntPg 0) 9 p else y.stepDone p) = z at hrep h44 h18
  have hmari : z.mari = (y.stepDone p).mari ∧ z.tb = y.tb := by
    unfold Sys.reportsOnly at hrep
    rw [hrep]
    exact ⟨rfl, rfl⟩
  rw [hmari.1, hmari.2]
  have hlt : (0 < FMap.get 0 p y.mari.calLeft - 1) = (1 < FMap.get 0 p y.mari.calLeft) := propext (by omega)
  refine ⟨FMap.get_put_self _ _ _ _, rfl, ?_, h44.trans hcnt, ?_⟩
  · simp only [hlt]
    rfl
  · exact h18.trans (by rw [hkept])

/-- A step of port `p` that has waited, and one that has not been counted. -/
theorem calDefer_none {p : Nat} {y : Sys} (h : ∀ w ∈ y.mari.wait, w.u = .cal p → w.counted = true) : y.calDefer p = y := by
  refine if_neg ?_
  simp only [List.any_eq_true, Bool.and_eq_true, beq_iff_eq, Bool.not_eq_true', not_exists, not_and, Bool.not_eq_false]
  exact h

theorem calDefer_some {p : Nat} {y : Sys} (h : ∃ w ∈ y.mari.wait, w.u = .cal p ∧ w.counted = false) :
    (∀ w ∈ (y.calDefer p).mari.wait, w.u = .cal p → w.counted = true) ∧ (y.calDefer p).mari.cnt.calDefer = y.mari.cnt.calDefer + 1 ∧
    (y.calDefer p).pgReg (mntPg 2) 0x44 = (y.pgReg (mntPg 2) 0x44).put 31 16 (satInc 65535 ((y.pgReg (mntPg 2) 0x44).fld 31 16)) := by
  have hany : (y.mari.wait.any fun w => w.u == .cal p && !w.counted) = true := by
    obtain ⟨w, hw, hu, hc⟩ := h
    exact List.any_eq_true.2 ⟨w, hw, by simp [hu, hc]⟩
  have he : y.calDefer p =
      ((y.updMari fun m => { m with wait := m.wait.map fun w => if w.u = .cal p then { w with counted := true } else w }).telCount fun t =>
        { t with calDefer := t.calDefer + 1 }).incFld (mntPg 2) 0x44 31 16 := if_pos hany
  rw [he]
  refine ⟨fun w hw hu => ?_, rfl, pgReg_setPg_self (mntPg 2) 0x44 _ _⟩
  obtain ⟨v, -, rfl⟩ := List.mem_map.1 (show w ∈ y.mari.wait.map _ from hw)
  by_cases hv : v.u = .cal p
  · rw [if_pos hv]
  · rw [if_neg hv] at hu
    exact absurd hu hv

/-- A memory's period that ends while its domain is ON. -/
theorem scrubPeriod_on {mem : Fin 17} {y : Sys} (hon : y.on (memDom mem) = true) :
    y.scrubPeriod mem = if FMap.get false mem.val y.mari.scrubDone then
        y.updMari fun m => { m with scrubDone := FMap.put false mem.val false m.scrubDone }
      else (y.recordErr (mntPg 0) 8 mem).updMari fun m => { m with scrubLate := FMap.put false mem.val true m.scrubLate } := by
  have hst : (y.dom (memDom mem)).st = .on := by
    simp only [Sys.on, Bool.or_eq_true, beq_iff_eq, Bool.and_eq_true] at hon
    exact (hon.resolve_left (memDom_ne mem)).1
  unfold Sys.scrubPeriod
  rw [unitWake_on (memDom_ne mem) hon]
  exact if_neg (by simp [hst])

theorem fullCal_done {n : Nat} {y : Sys} (hu : FMap.get false n y.mari.uncal = true) (hon : y.on (8 + n) = true) :
    (y.fullCal n).mari.uncal = FMap.put false n false y.mari.uncal := by
  have he : y.fullCal n = (y.updMari fun m => { m with uncal := FMap.put false n false m.uncal }).calMark n :=
    if_pos (by simp [hu, hon])
  rw [he]
  rfl

/-- Settles O55: each unit's end is counted and taken off the units that run, and what it then asks for or records is its own. -/
theorem maintenanceUnitsRun : Obligations.maintenance_units_run := by
  refine ⟨fun s hops => ⟨fun hh => ?_, fun hh hnone => ?_, fun hh v hv hable => ?_⟩,
    fun s j hops => ⟨fun hrun => ?_, fun hrun hfree => ?_⟩, fun s mem hops => ?_, fun s n hops => ?_, fun s p hops => ?_⟩
  · exact exec_live_same execMarigoldUnitStart rfl rfl hops (if_pos hh)
  · refine exec_live_same execMarigoldUnitStart rfl rfl hops ?_
    rw [Sys.unitStart, if_neg (by simp [hh]), nextUnit_none hnone]
  · obtain ⟨w, hw, hmem, hwable, hle⟩ := nextUnit_some hv hable
    refine ⟨w, hmem, hwable, hle, (exec_live execMarigoldUnitStart rfl rfl hops).trans ?_⟩
    rw [Sys.unitStart, if_neg (by simp [hh]), hw]
    rfl
  · exact exec_live_same (execWearMigrationEnd j 0) rfl rfl hops (if_neg (by simpa using hrun))
  · exact does_live (execWearMigrationEnd j 0) rfl rfl hops (wearEnd_good hrun hfree)
  · refine ⟨fun hh hd hdone hl => ?_, fun hd => ?_, fun k c hrun => ?_, fun k c m hrun hm hmem => ?_, fun hon hdone => ?_, fun hon hdone => ?_⟩
    · refine (exec_live (execScrubLineDue mem) rfl rfl hops).trans ?_
      rw [Sys.scrubDue, if_neg (by simp [hh, hd, hdone]; omega)]
      rfl
    · exact exec_live_same (execScrubLineDue mem) rfl rfl hops (if_pos (by simp [hd]))
    · obtain ⟨hr, hunc, hcnt, hstat⟩ := scrubEnd_corrected hrun c
      exact does_live (execScrubUnitEnd mem c 0) rfl rfl hops ⟨hr, hcnt, hstat, hunc⟩
    · obtain ⟨hunc, hst, hbit, hcnt⟩ := scrubEnd_uncorrected hrun hm hmem c
      refine does_live (execScrubUnitEnd mem c m) rfl rfl hops ⟨hunc, hst, ?_, hcnt⟩
      rw [if_neg (by omega)]
      exact hbit
    · refine (exec_live (execScrubPeriodEnd mem) rfl rfl hops).trans ?_
      rw [scrubPeriod_on hon, if_pos hdone]
      rfl
    · refine does_live_eq (execScrubPeriodEnd mem) rfl rfl hops ((scrubPeriod_on hon).trans (if_neg (by simp [hdone])))
        ⟨recordErr_stat _ _ _ _, FMap.get_put_self false mem.val true _⟩
  · refine ⟨fun hon hh => ?_, fun hu => exec_live_same (execFullCalibrationEnd n) rfl rfl hops (if_neg (by simp [hu])), fun hu hon => ?_⟩
    · refine does_live_eq (execCalPeriodExpiry n) rfl rfl hops (calPeriod_eq n.isLt hon hh) fun p => ?_
      obtain ⟨-, hin, hout⟩ := each_calAsk n (List.range 16) (s.sys.calMark n) p
      refine ⟨fun hp => hin ⟨p % 16, List.mem_range.2 (Nat.mod_lt _ (by decide)), by omega⟩, fun hp => hout ?_⟩
      rintro ⟨k, hk, rfl⟩
      have := List.mem_range.1 hk
      omega
    · refine does_live (execFullCalibrationEnd n) rfl rfl hops ⟨?_, fun m hm => ?_⟩
      · rw [fullCal_done hu hon]
        exact FMap.get_put_self _ _ _ _
      · rw [fullCal_done hu hon]
        exact FMap.get_put_ne _ hm _ _
  · refine ⟨fun hrun e => ?_, fun hrun e => ?_, fun hnone => ?_, fun hsome => ?_⟩
    · exact exec_live_same (execCalStepEnd p e) rfl rfl hops (if_neg (by simpa using hrun))
    · exact does_live (execCalStepEnd p e) rfl rfl hops (calEnd_run hrun e)
    · exact exec_live_same (execCalDeferExpiry p) rfl rfl hops (calDefer_none hnone)
    · exact does_live (execCalDeferExpiry p) rfl rfl hops (calDefer_some hsome)

end Sys2Proof.Machine

/-! SUPPORT. Routing (R450-R454): what it leaves of a source, and where it delivers the one source that requests. -/

namespace Sys2Proof.Machine

/-! ## Wakes leave the controller alone -/

theorem beginExit_eng (fuel : Nat) (wake : Bool) (d : Nat) (y : Sys) : (y.beginExit fuel wake d).eng = y.eng := by
  induction fuel generalizing wake d y with
  | zero => rfl
  | succ fuel ih =>
    unfold Sys.beginExit
    dsimp only
    have hz : (y.updDom d fun m => { m with wakes := if wake then satInc 255 m.wakes else m.wakes, byWake := wake }).eng = y.eng := rfl
    rw [← hz]
    generalize (y.updDom d fun m => { m with wakes := if wake then satInc 255 m.wakes else m.wakes, byWake := wake }) = z
    split
    · rfl
    · split
      · rfl
      · split
        · exact ih _ _ _
        · rfl

theorem wakeDom_eng (d : Nat) (y : Sys) : (y.wakeDom d).eng = y.eng := by
  unfold Sys.wakeDom
  dsimp only
  split
  · rfl
  · rfl
  · rfl
  · rfl
  · rfl
  · split
    · rfl
    · exact beginExit_eng _ _ _ _

theorem raiseWake_eng (ds : List Nat) (y : Sys) : (y.raiseWake (.doms ds)).eng = y.eng :=
  each_keeps (P := fun t => t.eng = y.eng) ds (fun d _ z hz => (wakeDom_eng d z).trans hz) rfl

/-! ## What routing leaves of a source -/

/-- Source `n` as routing may leave it: delivered, or, of a wake latch, requesting. -/
def CSrc.Routed (n : Nat) (z z' : CSrc) : Prop :=
  (z'.inp = z.inp ∧ z'.since = z.since ∧ z'.ext = z.ext ∧ z'.pend = z.pend) ∧ (z.lvl = true → z'.lvl = true) ∧
    (n < 256 → z'.lvl = z.lvl)

/-- Routing keeps the inputs and pending bits of every source. -/
def Sys.KeepsInputs (y t : Sys) : Prop := ∀ n, CSrc.Routed n (y.csrc n) (t.csrc n)

theorem keepsInputs_of_cic {y t : Sys} (h : t.eng.cic.src = y.eng.cic.src) : y.KeepsInputs t := by
  intro n
  rw [show t.csrc n = y.csrc n by rw [Sys.csrc, Sys.csrc, h]]
  exact ⟨⟨rfl, rfl, rfl, rfl⟩, id, fun _ => rfl⟩

theorem Sys.KeepsInputs.trans {y z t : Sys} (h : y.KeepsInputs z) (k : z.KeepsInputs t) : y.KeepsInputs t := by
  intro n
  obtain ⟨⟨hi, hs, he, hp⟩, hl, hlow⟩ := h n
  obtain ⟨⟨ki, ks, ke, kp⟩, kl, klow⟩ := k n
  exact ⟨⟨ki.trans hi, ks.trans hs, ke.trans he, kp.trans hp⟩, fun h => kl (hl h), fun h => (klow h).trans (hlow h)⟩

theorem keepsInputs_updSrc {n : Nat} {f : CSrc → CSrc} (hf : ∀ z, CSrc.Routed n z (f z)) (y : Sys) : y.KeepsInputs (y.updSrc n f) := by
  intro m
  by_cases h : m = n
  · subst h
    rw [updSrc_csrc_self]
    exact hf _
  · rw [updSrc_csrc_ne h]
    exact ⟨⟨rfl, rfl, rfl, rfl⟩, id, fun _ => rfl⟩

theorem keepsInputs_latchEdge (l : Nat) (ds : List Nat) (y : Sys) : y.KeepsInputs (y.latchEdge l (.doms ds)) := by
  have h : y.KeepsInputs ((y.setBit (onePg .snw 1) (0x48 + 4 * (l / 32)) (l % 32)).updSrc (256 + l) fun s => { s with lvl := true }) :=
    (keepsInputs_of_cic (y := y) rfl).trans (keepsInputs_updSrc (n := 256 + l) (f := fun s => { s with lvl := true })
      (fun z => ⟨⟨rfl, rfl, rfl, rfl⟩, fun _ => rfl, fun h => absurd h (by omega)⟩) _)
  unfold Sys.latchEdge
  dsimp only
  split
  · exact h.trans (keepsInputs_of_cic (congrArg (fun e : EngS => e.cic.src) (raiseWake_eng ds _)))
  · exact h

/-- The state of a source delivered to a core, with the rotation moved. -/
def Sys.deliverSrc (fast : Bool) (n c : Nat) (y : Sys) : Sys :=
  let y := y.updSrc n fun z => { z with insv := some (c, fast) }
  let y := { y with eng := { y.eng with cic :=
    if fast then { y.eng.cic with rotF := c } else { y.eng.cic with rotN := c } } }
  let vec := y.coreVec c n
  y.updCore c fun k => if fast then { k with fsrc := some n, fclaimed := false, fvec := vec }
    else { k with nsrc := some n, nclaimed := false, nvec := vec }

theorem deliverSrc_src (fast : Bool) (n c : Nat) (y : Sys) :
    (y.deliverSrc fast n c).eng.cic.src = (y.updSrc n fun z => { z with insv := some (c, fast) }).eng.cic.src := by
  cases fast <;> rfl

/-- The core that a source of a class goes to, among those eligible (R452). -/
def Sys.coreFor (y : Sys) (fast : Bool) (n : Nat) : Option Nat :=
  firstMax (fun c => (y.core c).wprio) ((coresAfter (if fast then y.eng.cic.rotF else y.eng.cic.rotN)).filter (y.eligible n))

/-- Whether source `n` is enabled in a class, in no service, and requests. -/
def Sys.asks (y : Sys) (fast : Bool) (n : Nat) : Bool :=
  (y.srcCfg n).bit 0 && (y.srcCfg n).bit 1 == fast && (y.csrc n).insv.isNone && y.requests n

theorem routeOne_quiet {fast : Bool} {n : Nat} {y : Sys} (h : y.asks fast n = false) : y.routeOne fast n = y :=
  if_neg (by rw [← Sys.asks, h]; decide)

theorem routeOne_delivers {fast : Bool} {n c : Nat} {y : Sys} (h : y.asks fast n = true) (hc : y.coreFor fast n = some c) :
    y.routeOne fast n = y.deliverSrc fast n c := by
  unfold Sys.coreFor at hc
  unfold Sys.asks at h
  unfold Sys.routeOne
  dsimp only
  rw [if_pos h, hc]
  rfl

theorem keepsInputs_routeOne (fast : Bool) (n : Nat) (y : Sys) : y.KeepsInputs (y.routeOne fast n) := by
  have hid : y.KeepsInputs y := keepsInputs_of_cic rfl
  by_cases h : y.asks fast n = true
  · cases hc : y.coreFor fast n with
    | some c =>
      rw [routeOne_delivers h hc]
      exact (keepsInputs_updSrc (f := fun z => { z with insv := some (c, fast) }) (fun z => ⟨⟨rfl, rfl, rfl, rfl⟩, id, fun _ => rfl⟩) y).trans
        (keepsInputs_of_cic (deliverSrc_src fast n c y))
    | none =>
      unfold Sys.coreFor at hc
      unfold Sys.asks at h
      unfold Sys.routeOne
      dsimp only
      rw [if_pos h, hc]
      dsimp only
      split
      · split
        · exact keepsInputs_latchEdge _ _ y
        · exact hid
      · exact hid
  · rw [routeOne_quiet (Bool.eq_false_iff.2 h)]
    exact hid

theorem keepsInputs_each {α : Type} {f : α → Sys → Sys} (l : List α) (h : ∀ a y, Sys.KeepsInputs y (f a y)) (y : Sys) :
    y.KeepsInputs (each f l y) :=
  each_keeps (P := fun t => y.KeepsInputs t) l (fun a _ _ hz => hz.trans (h a _)) (keepsInputs_of_cic rfl)

theorem keepsInputs_routeAll (y : Sys) : y.KeepsInputs y.routeAll := by
  unfold Sys.routeAll
  dsimp only
  split
  · exact (keepsInputs_each _ (fun n z => keepsInputs_routeOne true n z) y).trans
      (keepsInputs_each _ (fun n z => keepsInputs_routeOne false n z) _)
  · exact keepsInputs_of_cic rfl

/-! ## Routing with one source that requests, and with none -/

theorem asks_of_quiet {fast : Bool} {n : Nat} {y : Sys} (h : y.requests n = false) : y.asks fast n = false := by
  rw [Sys.asks, h, Bool.and_false]

theorem routeAll_quiet {y : Sys} (h : ∀ e ∈ y.eng.cic.src, y.requests e.1 = false) : y.routeAll = y := by
  have hmem : ∀ (f : Bool), ∀ n ∈ y.eng.cic.src.map (·.1), y.routeOne f n = y := by
    intro f n hn
    obtain ⟨e, he, rfl⟩ := List.mem_map.1 hn
    exact routeOne_quiet (asks_of_quiet (h e he))
  unfold Sys.routeAll
  dsimp only
  rw [each_id _ (hmem true), each_id _ (hmem false), ite_self]

/-- A row of sources of which one alone can do anything, which it does once. -/
theorem each_routeOne_only {fast : Bool} {n : Nat} {y t : Sys} (l : List Nat) (hn : n ∈ l) (hy : ∀ m ∈ l, m ≠ n → y.routeOne fast m = y)
    (hstep : y.routeOne fast n = t) (ht : ∀ m ∈ l, t.routeOne fast m = t) : each (fun m y => y.routeOne fast m) l y = t := by
  induction l with
  | nil => exact absurd hn (by simp)
  | cons a r ih =>
    rw [each]
    by_cases ha : a = n
    · rw [ha, hstep]
      exact each_id r fun m hm => ht m (List.mem_cons_of_mem _ hm)
    · rw [hy a List.mem_cons_self ha]
      exact ih ((List.mem_cons.1 hn).resolve_left (Ne.symm ha)) (fun m hm => hy m (List.mem_cons_of_mem _ hm))
        fun m hm => ht m (List.mem_cons_of_mem _ hm)

/-- A source that has been delivered asks for nothing more, and no other source has changed. -/
theorem deliverSrc_asks (fast f : Bool) (n c m : Nat) (y : Sys) :
    (y.deliverSrc fast n c).asks f m = if m = n then false else y.asks f m := by
  have hcfg : (y.deliverSrc fast n c).srcCfg m = y.srcCfg m := rfl
  have hsrc : (y.deliverSrc fast n c).csrc m = (y.updSrc n fun z => { z with insv := some (c, fast) }).csrc m := by
    rw [Sys.csrc, Sys.csrc, deliverSrc_src]
  rw [Sys.asks, Sys.requests, hcfg, hsrc]
  by_cases h : m = n
  · subst h
    rw [if_pos rfl, updSrc_csrc_self]
    simp
  · rw [if_neg h, updSrc_csrc_ne h]
    rfl

/-- Where one source alone requests, routing delivers it to the core that its class chooses. -/
theorem routeAll_delivers {fast : Bool} {n c : Nat} {y : Sys} (hon : y.on 17 = true) (hh : y.halted (onePg .cic 0) = false)
    (hmem : ∃ e ∈ y.eng.cic.src, e.1 = n) (hothers : ∀ e ∈ y.eng.cic.src, e.1 ≠ n → y.requests e.1 = false) (hasks : y.asks fast n = true)
    (hc : y.coreFor fast n = some c) : y.routeAll = y.deliverSrc fast n c := by
  have hclass : (y.srcCfg n).bit 1 = fast := by
    simp only [Sys.asks, Bool.and_eq_true, beq_iff_eq] at hasks
    exact hasks.1.1.2
  have hn : n ∈ y.eng.cic.src.map (·.1) := by
    obtain ⟨e, he, hen⟩ := hmem
    exact List.mem_map.2 ⟨e, he, hen⟩
  have hy : ∀ f, ∀ m ∈ y.eng.cic.src.map (·.1), m ≠ n → y.asks f m = false := by
    intro f m hm hmn
    obtain ⟨e, he, rfl⟩ := List.mem_map.1 hm
    exact asks_of_quiet (hothers e he hmn)
  have hother : ∀ f, f ≠ fast → y.asks f n = false := by
    intro f hf
    rw [Sys.asks, hclass, beq_eq_false_iff_ne.2 (Ne.symm hf)]
    simp
  have ht : ∀ f, ∀ m ∈ y.eng.cic.src.map (·.1), (y.deliverSrc fast n c).routeOne f m = y.deliverSrc fast n c := by
    intro f m hm
    refine routeOne_quiet ?_
    rw [deliverSrc_asks]
    split
    · rfl
    · exact hy f m hm ‹_›
  have hrow := each_routeOne_only _ hn (fun m hm hmn => routeOne_quiet (hy fast m hm hmn)) (routeOne_delivers hasks hc) (ht fast)
  have hidle : ∀ f, f ≠ fast → each (fun m y => y.routeOne f m) (y.eng.cic.src.map (·.1)) y = y := by
    intro f hf
    refine each_id _ fun m hm => routeOne_quiet ?_
    by_cases hmn : m = n
    · rw [hmn, hother f hf]
    · exact hy f m hm hmn
  unfold Sys.routeAll
  dsimp only
  rw [if_pos (by rw [hon, hh]; rfl)]
  cases fast
  · rw [hidle true (by decide)]
    exact hrow
  · rw [hrow]
    exact each_id _ (ht false)

end Sys2Proof.Machine

/-! SUPPORT. The core interrupt controller's inputs (R449-R451) and registers (R455-R457, R468), as the statement about sources needs them. -/

namespace Sys2Proof.Machine

/-! ## A source's input -/

/-- Nothing but source `n` has changed. -/
def Sys.SrcOnly (n : Nat) (y t : Sys) : Prop :=
  t = { y with eng := { y.eng with cic := { y.eng.cic with src := t.eng.cic.src } } } ∧ (∀ m, m ≠ n → t.csrc m = y.csrc m) ∧
    ∀ e ∈ t.eng.cic.src, e.1 ≠ n → ∃ e' ∈ y.eng.cic.src, e'.1 = e.1

theorem srcOnly_refl (n : Nat) (y : Sys) : y.SrcOnly n y := ⟨rfl, fun _ _ => rfl, fun e he _ => ⟨e, he, rfl⟩⟩

theorem srcOnly_updSrc (n : Nat) (f : CSrc → CSrc) (y : Sys) : y.SrcOnly n (y.updSrc n f) :=
  ⟨rfl, fun _ hm => updSrc_csrc_ne hm _ _, fun e he hne => (mem_upd (v := e.2) he).elim (fun h => ⟨e, h, rfl⟩) fun h => absurd h.1 hne⟩

theorem Sys.SrcOnly.trans {n : Nat} {y z t : Sys} (h : y.SrcOnly n z) (k : z.SrcOnly n t) : y.SrcOnly n t := by
  obtain ⟨he, hs, hk⟩ := h
  obtain ⟨ke, ks, kk⟩ := k
  refine ⟨by rw [ke, he], fun m hm => (ks m hm).trans (hs m hm), fun e hmem hne => ?_⟩
  obtain ⟨e', hmem', he'⟩ := kk e hmem hne
  obtain ⟨e'', hmem'', he''⟩ := hk e' hmem' (he' ▸ hne)
  exact ⟨e'', hmem'', he''.trans he'⟩

/-- What only one source's change leaves: what the model reads of the rest. -/
theorem Sys.SrcOnly.reads {n : Nat} {y t : Sys} (h : y.SrcOnly n t) :
    t.regs = y.regs ∧ t.doms = y.doms ∧ t.tb = y.tb ∧ t.eng.cores = y.eng.cores ∧ t.eng.cic.rotN = y.eng.cic.rotN ∧
    t.eng.cic.rotF = y.eng.cic.rotF ∧ t.contain = y.contain := by
  rw [h.1]
  exact ⟨rfl, rfl, rfl, rfl, rfl, rfl, rfl⟩

theorem Sys.SrcOnly.srcCfg {n : Nat} {y t : Sys} (h : y.SrcOnly n t) (m : Nat) : t.srcCfg m = y.srcCfg m := by
  rw [h.1]
  rfl

theorem Sys.SrcOnly.on {n : Nat} {y t : Sys} (h : y.SrcOnly n t) (d : Nat) : t.on d = y.on d := by
  rw [h.1]
  rfl

/-- The level at a source's input, before the source accepts it. -/
def Sys.srcLevel (n : Nat) (high : Bool) (y : Sys) : Sys :=
  if (y.csrc n).inp == high then y else y.updSrc n fun z => { z with inp := high, since := y.tb }

theorem srcLevel_only (n : Nat) (high : Bool) (y : Sys) : y.SrcOnly n (y.srcLevel n high) := by
  unfold Sys.srcLevel
  split
  · exact srcOnly_refl n y
  · exact srcOnly_updSrc n _ y

theorem srcLevel_src (n : Nat) (high : Bool) (y : Sys) : ((y.srcLevel n high).csrc n).inp = high ∧
    ((y.srcLevel n high).csrc n).lvl = (y.csrc n).lvl ∧ ((y.srcLevel n high).csrc n).pend = (y.csrc n).pend ∧
    ((y.srcLevel n high).csrc n).ext = (y.csrc n).ext ∧ ((y.srcLevel n high).csrc n).insv = (y.csrc n).insv := by
  unfold Sys.srcLevel
  split
  · rename_i h
    exact ⟨beq_iff_eq.1 h, rfl, rfl, rfl, rfl⟩
  · rw [updSrc_csrc_self]
    exact ⟨rfl, rfl, rfl, rfl, rfl⟩

/-- Where the source's domain is ON, or it has none, its input is accepted through the filter alone. -/
theorem srcInput_on {n : Nat} {y : Sys} (hd : srcDom n = 63 ∨ y.on (srcDom n) = true) (high : Bool) :
    y.srcInput n high = (y.srcLevel n high).srcAccept n := by
  have hcond : (high && !(y.csrc n).inp && srcDom n != 63 && !(y.srcLevel n high).on (srcDom n)) = false := by
    rcases hd with hd | hd
    · simp [hd]
    · simp [(srcLevel_only n high y).on, hd]
  exact if_neg (by rw [← Sys.srcLevel, hcond]; decide)

/-- A level that the filter does not let through yet. -/
theorem srcAccept_waits {n : Nat} {y : Sys} (h : y.srcSettled n = false) : y.srcAccept n = y := by
  simp [Sys.srcAccept, h]

/-- A level that a source without a filter takes up. -/
theorem srcAccept_unfiltered {n : Nat} {y : Sys} (hd : srcDom n = 63 ∨ y.on (srcDom n) = true) (hf : y.srcFilt n = 0) :
    y.srcAccept n = if (y.csrc n).inp == (y.csrc n).lvl then y else if (y.csrc n).inp then y.srcRise n else y.srcFall n := by
  have hdom : (srcDom n != 63 && !y.on (srcDom n)) = false := by
    rcases hd with hd | hd <;> simp [hd]
  unfold Sys.srcAccept
  simp only [Sys.srcSettled, hf, Nat.zero_le, decide_true, Bool.not_true, Bool.or_false, hdom]

theorem srcRise_on {n : Nat} {y : Sys} (hr : srcReal n = true) (hd : srcDom n = 63 ∨ y.on (srcDom n) = true) :
    y.srcRise n = y.updSrc n fun z => { z with lvl := true, pend := z.pend || ((y.srcCfg n).bit 2 && !z.lvl) } := by
  have hoff : (srcDom n != 63 && y.isOff (srcDom n)) = false := by
    rcases hd with hd | hd
    · simp [hd]
    · by_cases h63 : srcDom n = 63
      · simp [h63]
      · simp only [Sys.on, Bool.or_eq_true, beq_iff_eq, Bool.and_eq_true] at hd
        simp [Sys.isOff, (hd.resolve_left h63).1]
  have hdoze : (srcDom n != 63 && !y.on (srcDom n)) = false := by
    rcases hd with hd | hd <;> simp [hd]
  unfold Sys.srcRise
  dsimp only
  rw [if_neg (by simp [hr]), if_neg (by simp [hoff]), if_neg (by simp [hdoze])]

theorem srcFilt_of_only {n : Nat} {y t : Sys} (h : y.SrcOnly n t) (m : Nat) : t.srcFilt m = y.srcFilt m := by
  rw [Sys.srcFilt, Sys.srcFilt, h.srcCfg]

/-- A rise at the input of a source without a filter. -/
theorem srcInput_rises {n : Nat} {y : Sys} (hr : srcReal n = true) (hd : srcDom n = 63 ∨ y.on (srcDom n) = true) (hf : y.srcFilt n = 0) :
    y.SrcOnly n (y.srcInput n true) ∧ ((y.srcInput n true).csrc n).lvl = true ∧
    ((y.srcInput n true).csrc n).pend = ((y.csrc n).pend || ((y.srcCfg n).bit 2 && !(y.csrc n).lvl)) ∧
    ((y.srcInput n true).csrc n).insv = (y.csrc n).insv := by
  have honly := srcLevel_only n true y
  obtain ⟨hinp, hlvl, hpend, -, hinsv⟩ := srcLevel_src n true y
  have hd' : srcDom n = 63 ∨ (y.srcLevel n true).on (srcDom n) = true := by rwa [honly.on]
  rw [srcInput_on hd, srcAccept_unfiltered hd' ((srcFilt_of_only honly n).trans hf), srcRise_on hr hd', honly.srcCfg, hinp, hlvl]
  generalize y.srcLevel n true = z at *
  cases hl : (y.csrc n).lvl
  · rw [if_neg (by decide), if_pos rfl, updSrc_csrc_self]
    refine ⟨honly.trans (srcOnly_updSrc n _ z), rfl, ?_, hinsv⟩
    dsimp only
    rw [hlvl, hpend, hl]
  · rw [if_pos (beq_self_eq_true _)]
    exact ⟨honly, hlvl.trans hl, by rw [hpend]; simp, hinsv⟩

/-- A level that stays behind the filter. -/
theorem srcInput_filtered {n : Nat} {y : Sys} (hd : srcDom n = 63 ∨ y.on (srcDom n) = true) (hf : 0 < y.srcFilt n)
    (hinp : (y.csrc n).inp = false) :
    y.srcInput n true = y.updSrc n fun z => { z with inp := true, since := y.tb } := by
  have hlevel : y.srcLevel n true = y.updSrc n fun z => { z with inp := true, since := y.tb } := if_neg (by simp [hinp])
  rw [srcInput_on hd, hlevel]
  refine srcAccept_waits ?_
  have hsince : ((y.updSrc n fun z => { z with inp := true, since := y.tb }).csrc n).since = y.tb := by rw [updSrc_csrc_self]
  rw [Sys.srcSettled, srcFilt_of_only (srcOnly_updSrc n _ y), hsince]
  exact decide_eq_false (by show ¬ y.srcFilt n ≤ 25 * (y.tb - y.tb); omega)

/-- A fall at the input of a source without a filter. -/
theorem srcInput_falls {n : Nat} {y : Sys} (hd : srcDom n = 63 ∨ y.on (srcDom n) = true) (hf : y.srcFilt n = 0) :
    ((y.srcInput n false).csrc n).lvl = false ∧ ((y.srcInput n false).csrc n).pend = (y.csrc n).pend := by
  have honly := srcLevel_only n false y
  obtain ⟨hinp, hlvl, hpend, -⟩ := srcLevel_src n false y
  have hd' : srcDom n = 63 ∨ (y.srcLevel n false).on (srcDom n) = true := by rwa [honly.on]
  rw [srcInput_on hd, srcAccept_unfiltered hd' ((srcFilt_of_only honly n).trans hf), hinp, hlvl]
  generalize y.srcLevel n false = z at *
  cases hl : (y.csrc n).lvl
  · rw [if_pos (beq_self_eq_true _)]
    exact ⟨hlvl.trans hl, hpend⟩
  · rw [if_neg (by decide), if_neg (by decide), Sys.srcFall, updSrc_csrc_self]
    exact ⟨rfl, hpend⟩

/-- The input that a change of accepted level leaves. -/
def Sys.SameLine (n : Nat) (y t : Sys) : Prop := (t.csrc n).inp = (y.csrc n).inp ∧ (t.csrc n).ext = (y.csrc n).ext

theorem Sys.SameLine.trans {n : Nat} {y z t : Sys} (h : y.SameLine n z) (k : z.SameLine n t) : y.SameLine n t :=
  ⟨k.1.trans h.1, k.2.trans h.2⟩

theorem Sys.KeepsInputs.line {y t : Sys} (h : y.KeepsInputs t) (n : Nat) : y.SameLine n t := ⟨(h n).1.1, (h n).1.2.2.1⟩

theorem sameLine_updSrc {n : Nat} {f : CSrc → CSrc} (hf : ∀ z, (f z).inp = z.inp ∧ (f z).ext = z.ext) (y : Sys) :
    y.SameLine n (y.updSrc n f) := by
  rw [Sys.SameLine, updSrc_csrc_self]
  exact hf _

theorem sameLine_srcRise (n : Nat) (y : Sys) : y.SameLine n (y.srcRise n) := by
  unfold Sys.srcRise
  dsimp only
  split
  · exact ⟨rfl, rfl⟩
  · split
    · exact ⟨rfl, rfl⟩
    · split
      · have h : y.SameLine n (y.updSrc n fun z => { z with latch := true }) := sameLine_updSrc (by exact fun _ => ⟨rfl, rfl⟩) y
        split
        · exact h.trans ((keepsInputs_latchEdge 33 [17] _).line n)
        · exact h
      · exact sameLine_updSrc (by exact fun _ => ⟨rfl, rfl⟩) y

theorem sameLine_srcAccept (n : Nat) (y : Sys) : y.SameLine n (y.srcAccept n) := by
  unfold Sys.srcAccept
  dsimp only
  split
  · exact ⟨rfl, rfl⟩
  · split
    · exact sameLine_srcRise n y
    · exact sameLine_updSrc (by exact fun _ => ⟨rfl, rfl⟩) y

theorem srcInput_line (n : Nat) (high : Bool) (y : Sys) : ((y.srcInput n high).csrc n).inp = high ∧
    ((y.srcInput n high).csrc n).ext = (y.csrc n).ext := by
  obtain ⟨hinp, -, -, hext, -⟩ := srcLevel_src n high y
  have h : (y.srcLevel n high).SameLine n (y.srcInput n high) := by
    unfold Sys.srcInput
    dsimp only
    rw [← Sys.srcLevel]
    split
    · exact sameLine_srcRise n _
    · exact sameLine_srcAccept n _
  exact ⟨h.1.trans hinp, h.2.trans hext⟩

end Sys2Proof.Machine

/-! SUPPORT. Accesses of the interrupt controller's registers by a core and by the manager (R455-R457, R468). -/

namespace Sys2Proof.Machine

/-- Whether an origin's accesses go by the offsets of the manager window (R51). -/
def Origin.byPage : Origin → Bool
  | .manager | .core _ => true
  | _ => false

theorem target_cic {org : Origin} (horg : Origin.byPage org = true) {off p o : Nat} (hp : p < 4) (ho : o < 0x1000)
    (hoff : off = 0x920000 + 0x1000 * p + o) : target org off = .page (onePg .cic p) o := by
  have hm : target .manager off = .page (onePg .cic p) o := by
    rw [target_page_iff]
    have hq : off = (0x920 + p) * 0x1000 + o := by omega
    refine ⟨by omega, ?_, by omega⟩
    rw [hq, ofOff_page ho]
    obtain rfl | rfl | rfl | rfl : p = 0 ∨ p = 1 ∨ p = 2 ∨ p = 3 := by omega
    all_goals decide
  cases org with
  | manager => exact hm
  | core k => exact hm
  | tenant => exact absurd horg (by decide)
  | loader => exact absurd horg (by decide)
  | smbus => exact absurd horg (by decide)

theorem viaPage_lets {org : Origin} {g : Pg} {o : Nat} {r : Bool} {y : Sys} (h : y.pageLets org g o r = true) (f : Sys → Sys) :
    y.viaPage org g o r f = f y := by
  cases org with
  | core c =>
    have hacts : y.coreActs c = true := by
      simp only [Sys.pageLets, Bool.and_eq_true] at h
      exact h.1.1
    simp [Sys.viaPage, hacts, h]
  | _ => simp [Sys.viaPage, h]

theorem serves_core {s : State} (h : s.operates = true) (k : Fin 16) : s.serves (.core k) = true := by
  obtain ⟨hv, ht⟩ := operates_iff.1 h
  exact serves_iff.2 ⟨hv, ht, rfl⟩

section Access
variable {org : Origin} {off p o : Nat} {y : Sys} (horg : Origin.byPage org = true) (hp : p < 4) (ho : o < 0x1000)
  (hoff : off = 0x920000 + 0x1000 * p + o) (halign : o % 4 = 0)
include horg hp ho hoff halign

theorem doCicRead_eq (hlets : y.pageLets org (onePg .cic p) o true = true) :
    doCicRead org off y = y.rdOut org off (onePg .cic p) o := by
  have hread : doRegRead org off y = y.rdOut org off (onePg .cic p) o := by
    have ha : off % 4 = 0 := by omega
    simp only [doRegRead, readBy, target_cic horg hp ho hoff, ha, ne_eq, not_true_eq_false, if_false, Sys.viaAny, viaPage_lets hlets,
      mbxDead_other (show (onePg .cic p).blk ≠ .mbx from nofun)]
  cases org with
  | manager => exact hread
  | core k => exact hread
  | tenant => exact absurd horg (by decide)
  | loader => exact absurd horg (by decide)
  | smbus => exact absurd horg (by decide)

theorem doCicWrite_eq (hlets : y.pageLets org (onePg .cic p) o false = true) (v : Word) :
    doCicWrite org off v y = y.wr org (onePg .cic p) o v := by
  have hwrite : doRegWrite org off v y = y.wr org (onePg .cic p) o v := by
    have ha : off % 4 = 0 := by omega
    simp only [doRegWrite, target_cic horg hp ho hoff, ha, ne_eq, not_true_eq_false, if_false, Sys.viaAny, viaPage_lets hlets,
      mbxDead_other (show (onePg .cic p).blk ≠ .mbx from nofun)]
  cases org with
  | manager => exact hwrite
  | core k => exact hwrite
  | tenant => exact absurd horg (by decide)
  | loader => exact absurd horg (by decide)
  | smbus => exact absurd horg (by decide)

end Access

/-! ## What an access does -/

theorem wr_cic_core {o : Nat} (ho : 0x40 ≤ o) (k : Fin 16) (p : Nat) (v : Word) (y : Sys) :
    y.wr (.core k) (onePg .cic p) o v = y.wrCic p o v := if_neg (Nat.not_lt.2 ho)

theorem wr_cic_manager (p o : Nat) (v : Word) (y : Sys) : y.wr .manager (onePg .cic p) o v = y.accErr (onePg .cic p) := rfl

/-- A core's read of a claim register claims. -/
theorem rdOut_claim {p c : Nat} (hp : p ≤ 1) (hc : c < 16) (k : Fin 16) (off : Nat) (y : Sys) :
    y.rdOut (.core k) off (onePg .cic p) (0x80 + 4 * c) =
      (y.claim (p == 1) c).2.answer (.core k) off (Word.ofN (y.claim (p == 1) c).1) := by
  have hdiv : (0x80 + 4 * c - 0x80) / 4 = c := by omega
  have hrd : y.rd (.core k) (onePg .cic p) (0x80 + 4 * c) = (Word.ofN (y.claim (p == 1) c).1, (y.claim (p == 1) c).2) := by
    refine (if_pos (show p ≤ 1 ∧ 0x80 ≤ 0x80 + 4 * c ∧ 0x80 + 4 * c < 0xC0 by omega)).trans ?_
    rw [hdiv]
    rfl
  have hnv : nvAt (onePg .cic p) (0x80 + 4 * c) = none := rfl
  rw [Sys.rdOut, hnv]
  dsimp only [Option.map_none]
  rw [Sys.rdNow, hnv]
  dsimp only
  rw [hrd]

/-- The manager's read of a claim register shows what is delivered. -/
theorem rdOut_delivered {c : Nat} (hc : c < 16) (off : Nat) (y : Sys) :
    y.rdOut .manager off (onePg .cic 0) (0x80 + 4 * c) = y.answer .manager off (Word.ofN (y.delivered false c)) := by
  have hdiv : (0x80 + 4 * c - 0x80) / 4 = c := by omega
  have hview : y.view (onePg .cic 0) (0x80 + 4 * c) = Word.ofN (y.delivered false c) := by
    have hcic : y.viewCic 0 (0x80 + 4 * c) = some (Word.ofN (y.delivered false ((0x80 + 4 * c - 0x80) / 4))) :=
      if_pos ⟨.inl rfl, by omega, by omega⟩
    have hv : y.view (onePg .cic 0) (0x80 + 4 * c) = (y.viewCic 0 (0x80 + 4 * c)).getD (y.pgReg (onePg .cic 0) (0x80 + 4 * c)) :=
      if_neg (by omega)
    rw [hv, hcic, hdiv]
    rfl
  have hrd : y.rd .manager (onePg .cic 0) (0x80 + 4 * c) = (y.view (onePg .cic 0) (0x80 + 4 * c), y) :=
    if_pos (show 0 ≤ 1 ∧ 0x80 ≤ 0x80 + 4 * c ∧ 0x80 + 4 * c < 0xC0 by omega)
  have hnv : nvAt (onePg .cic 0) (0x80 + 4 * c) = none := rfl
  rw [Sys.rdOut, hnv]
  dsimp only [Option.map_none]
  rw [Sys.rdNow, hnv]
  dsimp only
  rw [hrd, hview]

/-- The source that a core's class handles, and whether it is claimed. -/
def Core.source (k : Core) (fast : Bool) : Option Nat := if fast then k.fsrc else k.nsrc
def Core.claimed (k : Core) (fast : Bool) : Bool := if fast then k.fclaimed else k.nclaimed

theorem claim_none {fast : Bool} {c : Nat} {y : Sys} (h : (y.core c).source fast = none) : y.claim fast c = (511, y.spurious c) := by
  unfold Core.source at h
  unfold Sys.claim
  dsimp only
  rw [h]

theorem claim_some {fast : Bool} {c n : Nat} {y : Sys} (h : (y.core c).source fast = some n) (hnew : (y.core c).claimed fast = false)
    (hreq : y.requests n = true) (hen : (y.srcCfg n).bit 0 = true) :
    y.claim fast c = (n, (y.updSrc n fun z => { z with pend := z.pend && !(y.srcCfg n).bit 2 }).updCore c fun k =>
        if fast then { k with fclaimed := true } else { k with nclaimed := true }) := by
  unfold Core.source at h
  unfold Core.claimed at hnew
  unfold Sys.claim
  dsimp only
  rw [h]
  dsimp only
  rw [if_neg (by simp [hnew]), if_pos (by simp [Sys.claimable, hreq, hen])]

theorem spurious_count (c : Nat) (y : Sys) : (y.spurious c).eng = y.eng ∧ (y.spurious c).out = y.out ∧
    ((y.spurious c).pgReg (onePg .cic 0) 0x184).fld 15 0 = satInc 65535 ((y.pgReg (onePg .cic 0) 0x184).fld 15 0) := by
  have hkeep : ∀ (g : Pg) (o hi lo : Nat) (z : Sys), (z.incFld g o hi lo).eng = z.eng ∧ (z.incFld g o hi lo).out = z.out :=
    fun _ _ _ _ _ => ⟨rfl, rfl⟩
  unfold Sys.spurious
  refine ⟨(hkeep _ _ _ _ _).1.trans (hkeep _ _ _ _ _).1, (hkeep _ _ _ _ _).2.trans (hkeep _ _ _ _ _).2, ?_⟩
  have h : ∀ z : Sys, (z.incFld ⟨.core, c, 0⟩ 0x50 31 24).pgReg (onePg .cic 0) 0x184 = z.pgReg (onePg .cic 0) 0x184 :=
    fun z => pgReg_setPg_ne _ _ (by decide) _ z
  rw [h, Sys.incFld, Sys.setFld, pgReg_setPg_self]
  exact (fld_put_self (by decide) (by decide) _ _).trans (Nat.mod_eq_of_lt (Nat.lt_succ_of_le (satInc_le 65535 _)))

/-- A completion of the source in service, where nothing then requests. -/
theorem complete_serving {fast : Bool} {c n : Nat} {y : Sys} (h : (y.csrc n).insv = some (c, fast))
    (hq : ∀ e ∈ y.eng.cic.src, y.requests e.1 = false) :
    y.complete fast c n = (y.updSrc n fun z => { z with insv := none }).endHandler fast c := by
  have he : y.complete fast c n = ((y.updSrc n fun z => { z with insv := none }).endHandler fast c).routeAll := if_pos (by simp [h])
  rw [he]
  refine routeAll_quiet fun e hmem => ?_
  have hcic : ((y.updSrc n fun z => { z with insv := none }).endHandler fast c).eng.cic = (y.updSrc n fun z => { z with insv := none }).eng.cic :=
    rfl
  rw [hcic] at hmem
  have hsame : ∀ m, ((y.updSrc n fun z => { z with insv := none }).endHandler fast c).requests m = y.requests m := by
    intro m
    have hsrc : (((y.updSrc n fun z => { z with insv := none }).endHandler fast c).csrc m).pend = (y.csrc m).pend ∧
        (((y.updSrc n fun z => { z with insv := none }).endHandler fast c).csrc m).lvl = (y.csrc m).lvl := by
      show ((y.updSrc n fun z => { z with insv := none }).csrc m).pend = _ ∧ ((y.updSrc n fun z => { z with insv := none }).csrc m).lvl = _
      by_cases hm : m = n
      · subst hm
        rw [updSrc_csrc_self]
        exact ⟨rfl, rfl⟩
      · rw [updSrc_csrc_ne hm]
        exact ⟨rfl, rfl⟩
    rw [Sys.requests, Sys.requests, hsrc.1, hsrc.2]
    rfl
  rw [hsame]
  by_cases hn : e.1 = n
  · have hne : y.csrc n ≠ {} := by
      intro h0
      rw [h0] at h
      exact nomatch h
    have hmem' : (n, FMap.get {} n y.eng.cic.src) ∈ y.eng.cic.src := get_mem hne
    have hreq := hq _ hmem'
    rwa [hn]
  · obtain ⟨e', he', hk⟩ := (srcOnly_updSrc n _ y).2.2 e hmem hn
    exact hk ▸ hq e' he'

/-- A write of PEND clears the pending bit of each edge source whose bit is written as 1. -/
theorem pendClear_keeps {n m : Nat} (h : m ≠ n) (y : Sys) : (y.pendClear m).csrc n = y.csrc n ∧ (y.pendClear m).regs = y.regs := by
  unfold Sys.pendClear
  split
  · exact ⟨updSrc_csrc_ne (Ne.symm h) _ _, rfl⟩
  · exact ⟨rfl, rfl⟩

end Sys2Proof.Machine

/-! SUPPORT. A source's assertion from outside, from its input to the core it goes to (R449-R454). -/

namespace Sys2Proof.Machine

theorem stirs_srcLevel (n : Nat) (high : Bool) (y : Sys) : y.Stirs (y.srcLevel n high) := .ite (stirs_refl y) (stirs_updSrc n _ y)

theorem stirs_srcAccept (n : Nat) (y : Sys) : y.Stirs (y.srcAccept n) :=
  .ite (stirs_refl y) (.ite (stirs_srcRise n y) (stirs_updSrc n _ y))

theorem stirs_srcInput (n : Nat) (high : Bool) (y : Sys) : y.Stirs (y.srcInput n high) := by
  unfold Sys.srcInput
  dsimp only
  rw [← Sys.srcLevel]
  exact (stirs_srcLevel n high y).trans (.ite (stirs_srcRise n _) (stirs_srcAccept n _))

theorem stirs_srcOutside (n : Nat) (high : Bool) (y : Sys) : y.Stirs (y.srcOutside n high) :=
  ((stirs_updSrc n _ y).trans (stirs_srcInput n _ _)).trans (stirs_routeAll _)

/-- Nothing is armed on the interrupt controller by an event of it. -/
theorem Sys.Stirs.unarmed_cic {y t : Sys} (h : y.Stirs t) : t.unarmed (onePg .cic 0) = y.unarmed (onePg .cic 0) := by
  have hreg : ∀ q ∈ (onePg .cic 0).blockPages, t.pgReg q 0x28 = y.pgReg q 0x28 := by
    intro q hq
    obtain ⟨i, hi, rfl⟩ := List.mem_map.1 hq
    have hi : i < 4 := List.mem_range.1 hi
    refine h.2.2.1 _ (.inl ?_)
    show 0x920000 + i * 0x1000 + 0x28 < 0xA01000
    omega
  have harm : ∀ q ∈ (onePg .cic 0).blockPages, ∀ c, t.armed q c = y.armed q c := by
    intro q hq c
    rw [Sys.armed, Sys.armed, hreg q hq]
  rw [Sys.unarmed, Sys.unarmed, Bool.eq_iff_iff, List.all_eq_true, List.all_eq_true]
  exact forall₂_congr fun q hq => by rw [harm q hq, harm q hq, harm q hq]

/-- With nothing armed on the interrupt controller an assertion is its event alone. -/
theorem does_cicSourceAssert {s : State} {n : Fin 512} {P : Sys → Prop} (hops : s.operates = true) (hd : (s.sys.dom 17).st ≠ .off)
    (hh : s.sys.halted (onePg .cic 0) = false) (hu : s.sys.unarmed (onePg .cic 0) = true) (hP : P (s.sys.srcOutside n true)) :
    Does (.cicSourceAssert n) s P := by
  refine does_live_eq (execCicSourceAssert n) rfl rfl hops ((if_neg (by simp [hd, hh])).trans (carry_unarmed ?_)) hP
  exact (stirs_srcOutside n true s.sys).unarmed_cic.trans hu

theorem does_cicSourceRelease {s : State} {n : Fin 512} {P : Sys → Prop} (hops : s.operates = true) (hd : (s.sys.dom 17).st ≠ .off)
    (hh : s.sys.halted (onePg .cic 0) = false) (hP : P (s.sys.srcOutside n false)) : Does (.cicSourceRelease n) s P :=
  does_live_eq (execCicSourceRelease n) rfl rfl hops (if_neg (by simp [hd, hh])) hP

/-- The source before its input moves: what is outside this model drives it, or no longer does. -/
def Sys.srcDrive (n : Nat) (high : Bool) (y : Sys) : Sys := y.updSrc n fun z => { z with ext := high }

theorem srcDrive_src (n : Nat) (high : Bool) (y : Sys) : (y.srcDrive n high).csrc n = { y.csrc n with ext := high } :=
  updSrc_csrc_self _ _ _

theorem srcOutside_assert (n : Nat) (y : Sys) : y.srcOutside n true = ((y.srcDrive n true).srcInput n true).routeAll := rfl

theorem srcOutside_release (n : Nat) (y : Sys) : y.srcOutside n false = ((y.srcDrive n false).srcInput n (y.srcDriven n)).routeAll := rfl

/-- An assertion that the filter holds back. -/
theorem srcOutside_filtered {n : Nat} {y : Sys} (hn : n < 256) (hd : srcDom n = 63 ∨ y.on (srcDom n) = true) (hf : 0 < y.srcFilt n)
    (hinp : (y.csrc n).inp = false) : ((y.srcOutside n true).csrc n).inp = true ∧ ((y.srcOutside n true).csrc n).since = y.tb ∧
    ((y.srcOutside n true).csrc n).lvl = (y.csrc n).lvl ∧ ((y.srcOutside n true).csrc n).pend = (y.csrc n).pend := by
  have honly : y.SrcOnly n (y.srcDrive n true) := srcOnly_updSrc n _ y
  have hsrc := srcDrive_src n true y
  have hlate := srcInput_filtered (y := y.srcDrive n true) (by rwa [honly.on]) (by rwa [srcFilt_of_only honly])
    ((congrArg CSrc.inp hsrc).trans hinp)
  rw [srcOutside_assert, hlate]
  obtain ⟨⟨hi, hs, -, hp⟩, -, hl⟩ :=
    keepsInputs_routeAll ((y.srcDrive n true).updSrc n fun z => { z with inp := true, since := (y.srcDrive n true).tb }) n
  rw [updSrc_csrc_self, hsrc] at hi hs hp hl
  exact ⟨hi, hs, hl hn, hp⟩

/-- An assertion that the filter lets through: the state that is then routed. -/
theorem srcOutside_rises {n : Nat} {y : Sys} (hr : srcReal n = true) (hd : srcDom n = 63 ∨ y.on (srcDom n) = true) (hf : y.srcFilt n = 0) :
    ∃ t, y.srcOutside n true = t.routeAll ∧ y.SrcOnly n t ∧ (t.csrc n).lvl = true ∧
      (t.csrc n).pend = ((y.csrc n).pend || ((y.srcCfg n).bit 2 && !(y.csrc n).lvl)) ∧ (t.csrc n).insv = (y.csrc n).insv := by
  have honly : y.SrcOnly n (y.srcDrive n true) := srcOnly_updSrc n _ y
  obtain ⟨ht, hlvl, hpend, hinsv⟩ := srcInput_rises (y := y.srcDrive n true) hr (by rwa [honly.on]) (by rwa [srcFilt_of_only honly])
  rw [srcDrive_src, honly.srcCfg] at hpend
  rw [srcDrive_src] at hinsv
  exact ⟨_, srcOutside_assert n y, honly.trans ht, hlvl, hpend, hinsv⟩

theorem Sys.SrcOnly.requests_ne {n m : Nat} {y t : Sys} (h : y.SrcOnly n t) (hm : m ≠ n) : t.requests m = y.requests m := by
  rw [Sys.requests, Sys.requests, h.srcCfg, h.2.1 m hm]

theorem Sys.SrcOnly.coreFor {n : Nat} {y t : Sys} (h : y.SrcOnly n t) (fast : Bool) (m : Nat) : t.coreFor fast m = y.coreFor fast m := by
  rw [h.1]
  rfl

/-- The one source that requests goes to the core its class chooses. -/
theorem deliverSrc_of_only {n c : Nat} {fast : Bool} {y t : Sys} (h : y.SrcOnly n t) (hon : y.on 17 = true)
    (hh : y.halted (onePg .cic 0) = false) (hothers : ∀ e ∈ y.eng.cic.src, e.1 ≠ n → y.requests e.1 = false)
    (hlvl : (t.csrc n).lvl = true) (hasks : t.asks fast n = true) (hc : y.coreFor fast n = some c) :
    t.routeAll = t.deliverSrc fast n c := by
  obtain ⟨-, -, -, -, -, -, hcont⟩ := h.reads
  refine routeAll_delivers ((h.on 17).trans hon) ?_ ⟨(n, t.csrc n), ?_, rfl⟩ (fun e he hne => ?_) hasks ((h.coreFor fast n).trans hc)
  · rw [Sys.halted, hcont]
    exact hh
  · refine get_mem (d := ({} : CSrc)) fun h0 => ?_
    have : (t.csrc n).lvl = false := congrArg CSrc.lvl h0
    rw [hlvl] at this
    exact absurd this (by decide)
  · obtain ⟨e', he', hk⟩ := h.2.2 e he hne
    rw [h.requests_ne hne, ← hk]
    exact hothers e' he' (hk ▸ hne)

theorem deliverSrc_reads {n c : Nat} {fast : Bool} {y t : Sys} (h : y.SrcOnly n t) :
    ((t.deliverSrc fast n c).csrc n).insv = some (c, fast) ∧ ((t.deliverSrc fast n c).core c).source fast = some n ∧
    (if fast then ((t.deliverSrc fast n c).core c).fvec else ((t.deliverSrc fast n c).core c).nvec) =
      (y.pgReg ⟨.core, c, 0⟩ 0x4C).toNat + 16 * n := by
  have hreg : t.pgReg ⟨.core, c, 0⟩ 0x4C = y.pgReg ⟨.core, c, 0⟩ 0x4C := by
    rw [h.1]
    rfl
  have hsrc : (t.deliverSrc fast n c).csrc n = { t.csrc n with insv := some (c, fast) } := by
    rw [Sys.csrc, deliverSrc_src]
    exact updSrc_csrc_self n _ t
  rw [hsrc, ← hreg]
  have hcore : (t.deliverSrc fast n c).core c = if fast then { t.core c with fsrc := some n, fclaimed := false, fvec := t.coreVec c n }
      else { t.core c with nsrc := some n, nclaimed := false, nvec := t.coreVec c n } := by
    cases fast
    · exact updCore_core_self _ _ _
    · exact updCore_core_self _ _ _
  rw [hcore]
  cases fast <;> exact ⟨rfl, rfl, rfl⟩

/-- A release that the filter lets through. -/
theorem srcOutside_falls {n : Nat} {y : Sys} (hn : n < 256) (hd : srcDom n = 63 ∨ y.on (srcDom n) = true) (hf : y.srcFilt n = 0)
    (hdriven : y.srcDriven n = false) :
    ((y.srcOutside n false).csrc n).lvl = false ∧ ((y.srcOutside n false).csrc n).pend = (y.csrc n).pend := by
  have honly : y.SrcOnly n (y.srcDrive n false) := srcOnly_updSrc n _ y
  obtain ⟨hlvl, hpend⟩ := srcInput_falls (y := y.srcDrive n false) (by rwa [honly.on]) (by rwa [srcFilt_of_only honly])
  rw [srcDrive_src] at hpend
  rw [srcOutside_release, hdriven]
  obtain ⟨⟨-, -, -, hp⟩, -, hl⟩ := keepsInputs_routeAll ((y.srcDrive n false).srcInput n false) n
  exact ⟨(hl hn).trans hlvl, hp.trans hpend⟩

/-- A release of a source that a block drives too. -/
theorem srcOutside_driven {n : Nat} {y : Sys} (hdriven : y.srcDriven n = true) :
    ((y.srcOutside n false).csrc n).inp = true ∧ ((y.srcOutside n false).csrc n).ext = false := by
  obtain ⟨hinp, hext⟩ := srcInput_line n true (y.srcDrive n false)
  rw [srcDrive_src] at hext
  rw [srcOutside_release, hdriven]
  obtain ⟨hi, he⟩ := (keepsInputs_routeAll ((y.srcDrive n false).srcInput n true)).line n
  exact ⟨hi.trans hinp, he.trans hext⟩

end Sys2Proof.Machine

/-! SUPPORT. The interrupt controller's commands (R449-R457, R468), command by command. -/

namespace Sys2Proof.Machine

theorem wrCic_swi (v : Word) (y : Sys) : y.wrCic 0 0x180 v = y.swi (v.fld 3 0) := by simp [Sys.wrCic]

section Core
variable {s : State} {k c : Fin 16} (hops : s.operates = true)
include hops

/-- A core's read of a claim register. -/
theorem does_cicClaim {P : Sys → Prop} (hlets : s.sys.pageLets (.core k) (onePg .cic 0) (0x80 + 4 * c) true = true)
    (hP : P ((s.sys.claim false c).2.answer (.core k) (0x920080 + 4 * c) (Word.ofN (s.sys.claim false c).1))) :
    Does (.cicClaim (.core k) c) s P := by
  refine does_win_eq (execCicClaim (.core k) c) rfl rfl (serves_core hops k) ?_ hP
  have hc := c.isLt
  exact (doCicRead_eq rfl (by omega) (by omega) (by omega) (by omega) hlets).trans (rdOut_claim (Nat.zero_le 1) hc k _ _)

theorem does_cicFclaim {P : Sys → Prop} (hlets : s.sys.pageLets (.core k) (onePg .cic 1) (0x80 + 4 * c) true = true)
    (hP : P ((s.sys.claim true c).2.answer (.core k) (0x921080 + 4 * c) (Word.ofN (s.sys.claim true c).1))) :
    Does (.cicFclaim (.core k) c) s P := by
  refine does_win_eq (execCicFclaim (.core k) c) rfl rfl (serves_core hops k) ?_ hP
  have hc := c.isLt
  exact (doCicRead_eq rfl (by omega) (by omega) (by omega) (by omega) hlets).trans (rdOut_claim (Nat.le_refl 1) hc k _ _)

/-- A core's write of a completion register. -/
theorem does_complete {n : Fin 512} {fast : Bool} {P : Sys → Prop}
    (hlets : s.sys.pageLets (.core k) (onePg .cic (if fast then 1 else 0)) (0xC0 + 4 * c) false = true)
    (hP : P (s.sys.complete fast c n)) :
    Does (if fast then .cicFcomplete (.core k) c n else .cicComplete (.core k) c n) s P := by
  have hc := c.isLt
  have hdiv : (0xC0 + 4 * c.val - 0xC0) / 4 = c := by omega
  have hn : (Word.ofN n.val).fld 8 0 = n := by
    have := n.isLt
    simp [Word.fld, Word.ofN]
  have hwr : ∀ p, p ≤ 1 → s.sys.wr (.core k) (onePg .cic p) (0xC0 + 4 * c) (Word.ofN n) = s.sys.complete (p == 1) c n := by
    intro p hp
    rw [wr_cic_core (by omega)]
    refine (if_pos (show p ≤ 1 ∧ 0xC0 ≤ 0xC0 + 4 * c.val ∧ 0xC0 + 4 * c.val < 0x100 by omega)).trans ?_
    rw [hdiv, hn]
  cases fast
  · exact does_win_eq (execCicComplete (.core k) c n) rfl rfl (serves_core hops k)
      ((doCicWrite_eq (p := 0) rfl (by omega) (by omega) (by omega) (by omega) hlets _).trans (hwr 0 (Nat.zero_le 1))) hP
  · exact does_win_eq (execCicFcomplete (.core k) c n) rfl rfl (serves_core hops k)
      ((doCicWrite_eq (p := 1) rfl (by omega) (by omega) (by omega) (by omega) hlets _).trans (hwr 1 (Nat.le_refl 1))) hP

/-- A core's write of CIC_SWI. -/
theorem does_cicSwi {P : Sys → Prop} (hlets : s.sys.pageLets (.core k) (onePg .cic 0) 0x180 false = true) (hP : P (s.sys.swi c)) :
    Does (.cicSwi (.core k) c) s P := by
  have hc : (Word.ofN c.val).fld 3 0 = c := by
    have := c.isLt
    simp [Word.fld, Word.ofN]
  refine does_win_eq (execCicSwi (.core k) c) rfl rfl (serves_core hops k) ?_ hP
  refine (doCicWrite_eq rfl (by omega) (by omega) (by omega) (by omega) hlets _).trans ?_
  rw [wr_cic_core (by decide), wrCic_swi, hc]

end Core

/-- A row of the bits of a PEND register, the one of source `n` written as 1. -/
theorem each_pendClear {n w b : Nat} {v : Word} (hn : n = 32 * w + b) (l : List Nat) (hv : ∀ i ∈ l, (v.bit i = true ↔ i = b)) (y : Sys) :
    ((each (fun i (y : Sys) => if v.bit i then y.pendClear (32 * w + i) else y) l y).csrc n).pend =
      if b ∈ l ∧ (srcReal n && (y.srcCfg n).bit 2) = true then false else (y.csrc n).pend := by
  induction l generalizing y with
  | nil => simp [each]
  | cons a r ih =>
    rw [each, ih fun i hi => hv i (List.mem_cons_of_mem _ hi)]
    have ha := hv a List.mem_cons_self
    by_cases hab : a = b
    · subst hab
      rw [if_pos (ha.2 rfl), ← hn]
      have hreg : (y.pendClear n).srcCfg n = y.srcCfg n := by
        unfold Sys.pendClear
        split <;> rfl
      have hpend : ((y.pendClear n).csrc n).pend = if (srcReal n && (y.srcCfg n).bit 2) = true then false else (y.csrc n).pend := by
        unfold Sys.pendClear
        split
        · rw [updSrc_csrc_self]
        · rfl
      rw [hreg, hpend]
      by_cases hc : (srcReal n && (y.srcCfg n).bit 2) = true
      · simp [hc]
      · simp [hc]
    · rw [if_neg fun h => hab (ha.1 h)]
      simp [Ne.symm hab]

theorem bit_mk_one {b : Nat} (hb : b < 32) (i : Nat) : (Word.mk b b 1).bit i = decide (i = b) := by
  rw [Word.bit_eq, Word.mk, Word.one_bit]
  by_cases hi : i = b
  · simp [hi, hb]
  · simp [hi]

/-- A core's write of a PEND register with one bit. -/
theorem does_cicPendClear {s : State} {k : Fin 16} {n : Fin 512} {P : Sys → Prop} (hops : s.operates = true)
    (hlets : s.sys.pageLets (.core k) (onePg .cic 0) (0x100 + 4 * (n.val / 32)) false = true)
    (hP : ∀ t, (t.csrc n).pend = (if srcReal n && (s.sys.srcCfg n).bit 2 then false else (s.sys.csrc n).pend) → P t) :
    Does (.cicPendClear (.core k) n) s P := by
  have hn := n.isLt
  have hb : n.val % 32 < 32 := Nat.mod_lt _ (by decide)
  have hdiv : (0x100 + 4 * (n.val / 32) - 0x100) / 4 = n.val / 32 := by omega
  refine does_win_eq (execCicPendClear (.core k) n) rfl rfl (serves_core hops k)
    ((doCicWrite_eq (p := 0) rfl (by omega) (by omega) (by omega) (by omega) hlets _).trans (wr_cic_core (by omega) k 0 _ _)) (hP _ ?_)
  have hwr : s.sys.wrCic 0 (0x100 + 4 * (n.val / 32)) (Word.mk (n.val % 32) (n.val % 32) 1) =
      (each (fun i (y : Sys) => if (Word.mk (n.val % 32) (n.val % 32) 1).bit i then y.pendClear (32 * (n.val / 32) + i) else y)
        (List.range 32) s.sys).routeAll := by
    refine (if_neg (by omega)).trans ((if_pos (by omega)).trans ?_)
    rw [hdiv]
  rw [hwr]
  refine ((keepsInputs_routeAll _ n).1.2.2.2).trans ?_
  rw [each_pendClear (b := n.val % 32) (by omega) _ fun i _ => by rw [bit_mk_one hb, decide_eq_true_iff]]
  simp [hb]

/-- The manager's writes of the controller's registers are discarded (R457). -/
theorem accErr_cic (y : Sys) : y.reportsOnly (y.accErr (onePg .cic 0)) ∧
    (y.accErr (onePg .cic 0)).pgReg (onePg .cic 0) 0x18 = (y.pgReg (onePg .cic 0) 0x18).put 4 4 1 :=
  ⟨reportsOnly_recordErr _ _ _ y, recordErr_stat _ _ _ y⟩

/-- Settles O51: an input that its filter lets through reaches the source, and routing takes the one source that requests to the core its
class chooses; a claim, a completion and a write of the registers each touch one source and one core. -/
theorem interruptSourcesAreDelivered : Obligations.interrupt_sources_are_delivered := by
  refine ⟨fun s n hops hd hh => ⟨fun hr hdom hu hn hf hinp => ?_, fun hr hdom hu hf => ?_, fun hn hdom hf hdriven => ?_, fun hdriven => ?_⟩,
    fun s k c hops => ⟨fun hlets => ⟨fun n hsrc hnew hreq hen => ?_, fun hnone => ?_⟩,
      fun hlets => ⟨fun n hsrc hnew hreq hen => ?_, fun hnone => ?_⟩,
      fun n fast hlets => ⟨fun hserve hq => ?_, fun hother => ?_⟩, fun hlets => ?_, fun n hlets => ?_⟩,
    fun s c n hs => ⟨fun hlets => ?_, fun hlets => ?_, fun hlets => ?_⟩⟩
  · exact does_cicSourceAssert hops hd hh hu (srcOutside_filtered hn hdom hf hinp)
  · obtain ⟨t, ht, honly, hlvl, hpend, hinsv⟩ := srcOutside_rises hr hdom hf
    have hkept := keepsInputs_routeAll t n
    refine does_cicSourceAssert hops hd hh hu ?_
    rw [ht]
    refine ⟨hkept.2.1 hlvl, hkept.1.2.2.2.trans hpend, fun c hon hothers hen hfree hlow _ hc => ?_⟩
    have hasks : t.asks ((s.sys.srcCfg n).bit 1) n = true := by
      have hreq : t.requests n = true := by
        rw [Sys.requests, honly.srcCfg, hlvl, hpend, hlow]
        cases (s.sys.srcCfg n).bit 2 <;> simp
      rw [Sys.asks, honly.srcCfg, hen, hinsv, hfree, hreq]
      simp
    rw [deliverSrc_of_only honly hon hh hothers hlvl hasks hc]
    exact deliverSrc_reads honly
  · exact does_cicSourceRelease hops hd hh (srcOutside_falls hn hdom hf hdriven)
  · exact does_cicSourceRelease hops hd hh (srcOutside_driven hdriven)
  · refine does_cicClaim hops hlets ?_
    rw [claim_some (fast := false) hsrc hnew hreq hen]
    exact ⟨rfl, updCore_core_self _ _ _, updSrc_csrc_self _ _ _⟩
  · refine does_cicClaim hops hlets ?_
    rw [claim_none (fast := false) hnone]
    obtain ⟨heng, hout, hcnt⟩ := spurious_count c s.sys
    generalize s.sys.spurious c = z at *
    exact ⟨congrArg (_ :: ·) hout, heng, hcnt⟩
  · refine does_cicFclaim hops hlets ?_
    rw [claim_some (fast := true) hsrc hnew hreq hen]
    exact ⟨rfl, updCore_core_self _ _ _, updSrc_csrc_self _ _ _⟩
  · refine does_cicFclaim hops hlets ?_
    rw [claim_none (fast := true) hnone]
    obtain ⟨heng, hout, -⟩ := spurious_count c s.sys
    generalize s.sys.spurious c = z at *
    exact ⟨congrArg (_ :: ·) hout, heng⟩
  · refine does_complete hops hlets ?_
    rw [complete_serving hserve hq]
    refine ⟨updSrc_csrc_self _ _ _, ?_, rfl⟩
    rw [Sys.endHandler, updCore_core_self]
    cases fast <;> rfl
  · refine does_complete hops hlets ?_
    have he : s.sys.complete fast c n = s.sys.recordErr (onePg .cic 0) 8 n := if_neg (by simpa using hother)
    rw [he]
    exact ⟨reportsOnly_recordErr _ _ _ _, recordErr_stat _ _ _ _⟩
  · refine does_cicSwi hops hlets ((keepsInputs_routeAll _ _).1.2.2.2.trans ?_)
    rw [updSrc_csrc_self]
  · exact does_cicPendClear hops hlets fun t ht => ht
  · refine (exec_win (execCicClaim .manager c) rfl rfl hs).trans ?_
    have hc := c.isLt
    rw [doCicClaim, doCicRead_eq rfl (by omega) (by omega) (by omega) (by omega) hlets, rdOut_delivered hc]
    rfl
  · exact does_win_eq (execCicSwi .manager c) rfl rfl hs (doCicWrite_eq (p := 0) rfl (by omega) (by omega) (by omega) (by omega) hlets _)
      (accErr_cic s.sys)
  · have hc := c.isLt
    exact does_win_eq (execCicComplete .manager c n) rfl rfl hs
      (doCicWrite_eq (p := 0) rfl (by omega) (by omega) (by omega) (by omega) hlets _) (accErr_cic s.sys)

end Sys2Proof.Machine

/-! SUPPORT. Telemetry (R539-R548): what a sample's judgement leaves alone. -/

namespace Sys2Proof.Machine

/-- What a condition's change leaves: of Marigold the records that wait and the conditions alone differ, and each domain is as ON as it
was. -/
def Sys.Alerts (y t : Sys) : Prop :=
  t.mari = { y.mari with tlq := t.mari.tlq, seq := t.mari.seq, lostPend := t.mari.lostPend, cond := t.mari.cond } ∧ ∀ d, t.on d = y.on d

theorem alerts_refl (y : Sys) : y.Alerts y := ⟨rfl, fun _ => rfl⟩

theorem Sys.Alerts.trans {y z t : Sys} (h : y.Alerts z) (k : z.Alerts t) : y.Alerts t := by
  obtain ⟨hm, hd⟩ := h
  obtain ⟨km, kd⟩ := k
  exact ⟨by rw [km, hm], fun d => (kd d).trans (hd d)⟩

theorem Sys.Alerts.ite {y t t' : Sys} {p : Prop} [Decidable p] (h : y.Alerts t) (k : y.Alerts t') : y.Alerts (if p then t else t') := by
  split <;> assumption

theorem on_of_doms {y t : Sys} (h : t.doms = y.doms) (d : Nat) : t.on d = y.on d := by rw [Sys.on, Sys.on, Sys.dom, Sys.dom, h]

theorem alerts_of_same {y t : Sys} (hm : t.mari = y.mari) (hd : t.doms = y.doms) : y.Alerts t := ⟨by rw [hm], on_of_doms hd⟩

theorem alerts_of_tells {y t : Sys} (h : y.tellsOnly t) : y.Alerts t := by
  unfold Sys.tellsOnly at h
  exact alerts_of_same (by rw [h]) (by rw [h])

theorem alerts_recordErr (g : Pg) (b d : Nat) (y : Sys) : y.Alerts (y.recordErr g b d) := alerts_of_tells (tellsOnly_recordErr g b d y)

theorem alerts_of_stirs {y t : Sys} (h : y.Stirs t) : y.Alerts t := by
  obtain ⟨he, hd, -, -⟩ := h
  exact ⟨by rw [he], fun d => (hd d).2⟩

theorem alerts_emit (o : Out) (y : Sys) : y.Alerts (y.emit o) :=
  .ite (.ite (alerts_refl y) (.ite (alerts_refl y) (.ite (alerts_refl y) (alerts_refl y)))) (alerts_refl y)

theorem alerts_tlqGo (n : Nat) (b : Bool) (y : Sys) : y.Alerts (y.tlqGo n b).2 := by
  induction n generalizing b y with
  | zero => exact alerts_refl y
  | succ n ih =>
    unfold Sys.tlqGo
    split
    · rename_i r rest _
      split
      · refine Sys.Alerts.trans ?_ (ih true _)
        have h := alerts_emit (.mem none false false
          (lohi (y.pgReg (mntPg 3) 0x40) (y.pgReg (mntPg 3) 0x44) + 128 * ((y.pgReg (mntPg 3) 0x4C).toNat % 65536)) (r.bytes y.mari.lostPend)) y
        exact ⟨congrArg (fun m : Mari => { m with tlq := rest, lostPend := false }) h.1, h.2⟩
      · exact alerts_refl y
    · exact alerts_refl y

theorem alerts_tlqDrop (y : Sys) : y.Alerts y.tlqDrop := by
  have h : y.Alerts ((y.incFld (mntPg 3) 0x54 15 0).recordErr (mntPg 0) 10 0) :=
    Sys.Alerts.trans (alerts_of_same rfl rfl) (alerts_recordErr (mntPg 0) 10 0 (y.incFld (mntPg 3) 0x54 15 0))
  exact h.trans ⟨rfl, fun _ => rfl⟩

theorem alerts_tlqPut (r : TlRec) (y : Sys) : y.Alerts (y.tlqPut r) := by
  have h : y.Alerts (y.updMari fun m => { m with seq := (m.seq + 1) % 65536 }) := ⟨rfl, fun _ => rfl⟩
  refine h.trans ?_
  unfold Sys.tlqPut
  generalize (y.updMari fun m => { m with seq := (m.seq + 1) % 65536 }) = z
  refine .ite ?_ (.ite ?_ (alerts_tlqDrop z))
  · exact Sys.Alerts.trans ⟨rfl, fun _ => rfl⟩ (alerts_tlqGo _ _ _)
  · exact Sys.Alerts.trans ⟨rfl, fun _ => rfl⟩ (alerts_tlqDrop _)

theorem alerts_judge (m e eIn eOut level : Nat) (up : Bool) (thr hyst : Int) (due v : Nat) (y : Sys) :
    y.Alerts (y.judge m e eIn eOut level up thr hyst due v) := by
  unfold Sys.judge
  dsimp only
  refine .ite (alerts_refl y) ?_
  generalize hz : Sys.cicPulse 15 _ = z
  have h : y.Alerts z := by
    rw [← hz]
    exact Sys.Alerts.trans (Sys.Alerts.trans (z := y.updMari fun s => { s with cond := FMap.put false e (monCond up (FMap.get false e y.mari.cond) (monInt m v) thr hyst) s.cond })
      ⟨rfl, fun _ => rfl⟩ (alerts_tlqPut _ _)) (alerts_of_stirs (stirs_cicPulse 15 _))
  refine h.trans ?_
  generalize hw : (if (z.pgReg (monPg 2) (0x48 + 4 * (m / 32))).bit (m % 32) then { z with smb := { z.smb with alert := true } } else z) = w
  have h' : z.Alerts w := by
    rw [← hw]
    exact .ite (alerts_of_same rfl rfl) (alerts_refl z)
  exact h'.trans (.ite (alerts_refl w) (alerts_of_tells (tellsOnly_meqEvent _ _ w)))

end Sys2Proof.Machine

/-! SUPPORT. The samples of a TEL unit, monitor by monitor (R539, R543). -/

namespace Sys2Proof.Machine

/-- A sample as monitor `k` reports it: the pace monitors have 8 bits (R27). -/
def monVal (k v : Nat) : Nat := v % (if 37 ≤ k then 256 else 65536)

/-- Monitor `k` reads as it did. -/
def Sys.SameMonitor (k : Nat) (y t : Sys) : Prop :=
  FMap.get 0 k t.mari.sample = FMap.get 0 k y.mari.sample ∧ FMap.get false k t.mari.valid = FMap.get false k y.mari.valid ∧
  FMap.get 0 k t.mari.cnts = FMap.get 0 k y.mari.cnts ∧ FMap.get 0 k t.mari.sums = FMap.get 0 k y.mari.sums

/-- The units that run, the open window and the comparators are as they were, and so is what is ON. -/
def Sys.SameWindow (y t : Sys) : Prop :=
  (t.mari.run = y.mari.run ∧ t.mari.temps = y.mari.temps ∧ t.mari.tripped = y.mari.tripped) ∧
  (t.mari.win = y.mari.win ∧ t.mari.winStart = y.mari.winStart ∧ t.mari.winLen = y.mari.winLen ∧ t.mari.nSamples = y.mari.nSamples) ∧
  ∀ d, t.on d = y.on d

/-- Monitor `k` has taken the sample `v`, or its domain is not ON and it holds none. -/
def Sys.Took (k v : Nat) (y t : Sys) : Prop :=
  (paceDom k = 63 ∨ y.on (paceDom k) = true →
    FMap.get 0 k t.mari.sample = monVal k v ∧ FMap.get false k t.mari.valid = true ∧
    FMap.get 0 k t.mari.cnts = FMap.get 0 k y.mari.cnts + 1 ∧
    FMap.get 0 k t.mari.sums = FMap.get 0 k y.mari.sums + monInt k (monVal k v)) ∧
  (paceDom k ≠ 63 → y.on (paceDom k) = false → FMap.get false k t.mari.valid = false ∧
    FMap.get 0 k t.mari.cnts = FMap.get 0 k y.mari.cnts)

theorem sameMonitor_refl (k : Nat) (y : Sys) : y.SameMonitor k y := ⟨rfl, rfl, rfl, rfl⟩

theorem Sys.SameMonitor.trans {k : Nat} {y z t : Sys} (h : y.SameMonitor k z) (j : z.SameMonitor k t) : y.SameMonitor k t := by
  obtain ⟨h1, h2, h3, h4⟩ := h
  obtain ⟨j1, j2, j3, j4⟩ := j
  exact ⟨j1.trans h1, j2.trans h2, j3.trans h3, j4.trans h4⟩

theorem sameWindow_refl (y : Sys) : y.SameWindow y := ⟨⟨rfl, rfl, rfl⟩, ⟨rfl, rfl, rfl, rfl⟩, fun _ => rfl⟩

theorem Sys.SameWindow.trans {y z t : Sys} (h : y.SameWindow z) (j : z.SameWindow t) : y.SameWindow t := by
  obtain ⟨⟨h1, h2, h3⟩, ⟨h4, h5, h6, h7⟩, h8⟩ := h
  obtain ⟨⟨j1, j2, j3⟩, ⟨j4, j5, j6, j7⟩, j8⟩ := j
  exact ⟨⟨j1.trans h1, j2.trans h2, j3.trans h3⟩, ⟨j4.trans h4, j5.trans h5, j6.trans h6, j7.trans h7⟩, fun d => (j8 d).trans (h8 d)⟩

theorem Sys.Took.after {k v : Nat} {y z t : Sys} (h : y.SameMonitor k z) (hw : y.SameWindow z) (j : z.Took k v t) : y.Took k v t := by
  obtain ⟨h1, h2, h3, h4⟩ := h
  unfold Sys.Took at j
  rwa [h3, h4, hw.2.2] at j

theorem Sys.Took.before {k v : Nat} {y z t : Sys} (h : y.Took k v z) (j : z.SameMonitor k t) : y.Took k v t := by
  obtain ⟨j1, j2, j3, j4⟩ := j
  unfold Sys.Took
  rw [j1, j2, j3, j4]
  exact h

theorem Sys.Alerts.same {y t : Sys} (h : y.Alerts t) : y.SameWindow t ∧ ∀ k, y.SameMonitor k t := by
  obtain ⟨hm, hd⟩ := h
  refine ⟨⟨⟨?_, ?_, ?_⟩, ⟨?_, ?_, ?_, ?_⟩, hd⟩, fun k => ⟨?_, ?_, ?_, ?_⟩⟩ <;> rw [hm]

/-- Whether monitor `m` samples. -/
def Sys.live (m : Nat) (y : Sys) : Bool := paceDom m == 63 || y.on (paceDom m)

/-- Monitor `m` takes the value `v`. -/
def Sys.sampleIn (m v : Nat) (y : Sys) : Sys :=
  let i := monInt m v
  let first := FMap.get 0 m y.mari.cnts == 0
  y.updMari fun s =>
    { s with sample := FMap.put 0 m v s.sample, valid := FMap.put false m true s.valid,
             cnts := FMap.upd 0 m (· + 1) s.cnts, sums := FMap.upd 0 m (· + i) s.sums,
             mins := FMap.upd 0 m (fun a => if first ∨ i < a then i else a) s.mins,
             maxs := FMap.upd 0 m (fun a => if first ∨ a < i then i else a) s.maxs }

theorem sampleIn_mari (m v : Nat) (y : Sys) : (y.sampleIn m v).mari.sample = FMap.put 0 m v y.mari.sample ∧
    (y.sampleIn m v).mari.valid = FMap.put false m true y.mari.valid ∧ (y.sampleIn m v).mari.cnts = FMap.upd 0 m (· + 1) y.mari.cnts ∧
    (y.sampleIn m v).mari.sums = FMap.upd 0 m (· + monInt m v) y.mari.sums := ⟨rfl, rfl, rfl, rfl⟩

theorem sampleIn_ne {k m : Nat} (h : k ≠ m) (v : Nat) (y : Sys) : y.SameMonitor k (y.sampleIn m v) := by
  obtain ⟨hs, hv, hc, hu⟩ := sampleIn_mari m v y
  rw [Sys.SameMonitor, hs, hv, hc, hu]
  exact ⟨FMap.get_put_ne _ h _ _, FMap.get_put_ne _ h _ _, FMap.get_upd_ne _ h _ _, FMap.get_upd_ne _ h _ _⟩

theorem sampleIn_self {m v : Nat} {y : Sys} (h : y.live m = true) : y.Took m v (y.sampleIn m (monVal m v)) := by
  obtain ⟨hs, hv, hc, hu⟩ := sampleIn_mari m (monVal m v) y
  rw [Sys.Took, hs, hv, hc, hu]
  refine ⟨fun _ => ⟨FMap.get_put_self _ _ _ _, FMap.get_put_self _ _ _ _, FMap.get_upd_self _ _ _ _, FMap.get_upd_self _ _ _ _⟩,
    fun h63 hoff => ?_⟩
  simp [Sys.live, h63, hoff] at h

/-- A monitor whose domain is not ON holds no sample. -/
theorem monSample_dead {due m v : Nat} {lim crit : List Word} {ctl : Word} {y : Sys} (h : y.live m = false) :
    y.monSample due lim crit ctl m v = y.updMari fun s => { s with valid := FMap.put false m false s.valid } :=
  if_pos (by rw [← Sys.live, h]; rfl)

/-- A live monitor takes its sample, and its conditions are judged. -/
theorem monSample_live {due m v : Nat} {lim crit : List Word} {ctl : Word} {y : Sys} (h : y.live m = true) :
    (y.sampleIn m (monVal m v)).Alerts (y.monSample due lim crit ctl m v) := by
  have he : y.monSample due lim crit ctl m v =
      (let l := lim.getD m 0
       let h := monHyst ctl m
       let z := (y.sampleIn m (monVal m v)).judge m (3 * m) 1 2 (if m < 13 then 1 else 0) true (monInt m (l.fld 31 16)) h due (monVal m v)
       let z := z.judge m (3 * m + 1) 3 4 0 false (monInt m (l.fld 15 0)) h due (monVal m v)
       if m < 13 then z.judge m (3 * m + 2) 5 6 2 true (monInt m ((crit.getD m 0).fld 15 0)) h due (monVal m v) else z) :=
    if_neg (by rw [← Sys.live, h]; decide)
  rw [he]
  dsimp only
  have h2 := (alerts_judge m (3 * m) 1 2 (if m < 13 then 1 else 0) true (monInt m ((lim.getD m 0).fld 31 16)) (monHyst ctl m) due (monVal m v)
    (y.sampleIn m (monVal m v))).trans
    (alerts_judge m (3 * m + 1) 3 4 0 false (monInt m ((lim.getD m 0).fld 15 0)) (monHyst ctl m) due (monVal m v) _)
  exact .ite (h2.trans (alerts_judge _ _ _ _ _ _ _ _ _ _ _)) h2

theorem monSample_at (due : Nat) (lim crit : List Word) (ctl : Word) (m v : Nat) (y : Sys) :
    y.SameWindow (y.monSample due lim crit ctl m v) ∧ (∀ k, k ≠ m → y.SameMonitor k (y.monSample due lim crit ctl m v)) ∧
    y.Took m v (y.monSample due lim crit ctl m v) := by
  cases h : y.live m
  · rw [monSample_dead h]
    refine ⟨⟨⟨rfl, rfl, rfl⟩, ⟨rfl, rfl, rfl, rfl⟩, fun _ => rfl⟩, fun k hk => ⟨rfl, FMap.get_put_ne false (d' := false) hk false _, rfl, rfl⟩,
      fun hlive => ?_, fun _ _ => ⟨FMap.get_put_self false m false _, rfl⟩⟩
    rw [Sys.live, Bool.or_eq_false_iff, beq_eq_false_iff_ne] at h
    exact absurd hlive (by simp [h.1, h.2])
  · obtain ⟨hw, hm⟩ := (monSample_live (due := due) (v := v) (lim := lim) (crit := crit) (ctl := ctl) h).same
    have hin : y.SameWindow (y.sampleIn m (monVal m v)) := ⟨⟨rfl, rfl, rfl⟩, ⟨rfl, rfl, rfl, rfl⟩, fun _ => rfl⟩
    exact ⟨hin.trans hw, fun k hk => (sampleIn_ne hk _ y).trans (hm k), (sampleIn_self h).before (hm m)⟩

/-- A row of monitors take their samples. -/
theorem each_monSample (due : Nat) (lim crit : List Word) (ctl : Word) (f : Nat → Nat) (l : List Nat) (hl : l.Nodup) (y : Sys) :
    y.SameWindow (each (fun m (y : Sys) => y.monSample due lim crit ctl m (f m)) l y) ∧
    (∀ k, k ∉ l → y.SameMonitor k (each (fun m (y : Sys) => y.monSample due lim crit ctl m (f m)) l y)) ∧
    ∀ k ∈ l, y.Took k (f k) (each (fun m (y : Sys) => y.monSample due lim crit ctl m (f m)) l y) := by
  induction l generalizing y with
  | nil => exact ⟨sameWindow_refl y, fun k _ => sameMonitor_refl k y, by simp⟩
  | cons a r ih =>
    obtain ⟨ha, hr⟩ := List.nodup_cons.1 hl
    obtain ⟨hw, hothers, htook⟩ := monSample_at due lim crit ctl a (f a) y
    obtain ⟨kw, kothers, ktook⟩ := ih hr (y.monSample due lim crit ctl a (f a))
    rw [each]
    refine ⟨hw.trans kw, fun k hk => ?_, fun k hk => ?_⟩
    · obtain ⟨hka, hkr⟩ := not_or.1 (mt List.mem_cons.2 hk)
      exact (hothers k hka).trans (kothers k hkr)
    · obtain rfl | hkr := List.mem_cons.1 hk
      · exact htook.before (kothers k ha)
      · exact (ktook k hkr).after (hothers k fun h => ha (h ▸ hkr)) hw

end Sys2Proof.Machine

/-! SUPPORT. The end of a TEL unit, the window it may close and the thermal trip (R539-R545, R560). -/

namespace Sys2Proof.Machine

/-- A pass of trim steps moves nothing of a sample. -/
def Sys.PassOnly (y t : Sys) : Prop :=
  t.mari = { y.mari with wait := t.mari.wait, calLeft := t.mari.calLeft, calLast := t.mari.calLast } ∧ t.doms = y.doms

theorem passOnly_refl (y : Sys) : y.PassOnly y := ⟨rfl, rfl⟩

theorem Sys.PassOnly.trans {y z t : Sys} (h : y.PassOnly z) (k : z.PassOnly t) : y.PassOnly t := by
  obtain ⟨hm, hd⟩ := h
  obtain ⟨km, kd⟩ := k
  exact ⟨by rw [km, hm], kd.trans hd⟩

theorem Sys.PassOnly.ite {y t t' : Sys} {p : Prop} [Decidable p] (h : y.PassOnly t) (k : y.PassOnly t') :
    y.PassOnly (if p then t else t') := by
  split <;> assumption

theorem passOnly_each {α : Type} {f : α → Sys → Sys} (l : List α) (h : ∀ a y, Sys.PassOnly y (f a y)) (y : Sys) : y.PassOnly (each f l y) :=
  each_keeps (P := fun t => y.PassOnly t) l (fun a _ _ hz => hz.trans (h a _)) (passOnly_refl y)

theorem passOnly_calAsk (n k : Nat) (y : Sys) : y.PassOnly (y.calAsk n k) := by
  unfold Sys.calAsk
  dsimp only
  split <;> exact ⟨rfl, rfl⟩

theorem passOnly_calPass (n : Nat) (y : Sys) : y.PassOnly (y.calPass n) := by
  have he : y.calPass n = if (y.dom (8 + n)).st == .off || y.halted (mntPg 0) then y
      else each (Sys.calAsk n) (List.range 16) (y.calMark n) := rfl
  rw [he]
  split
  · exact passOnly_refl y
  · exact Sys.PassOnly.trans (z := y.calMark n) ⟨rfl, rfl⟩ (passOnly_each _ (fun k z => passOnly_calAsk n k z) _)

theorem passOnly_calDelta (n : Nat) (y : Sys) : y.PassOnly (y.calDelta n) := by
  unfold Sys.calDelta
  exact .ite (passOnly_calPass n y) (passOnly_refl y)

theorem Sys.PassOnly.same {y t : Sys} (h : y.PassOnly t) : y.SameWindow t ∧ ∀ k, y.SameMonitor k t := by
  obtain ⟨hm, hd⟩ := h
  refine ⟨⟨⟨?_, ?_, ?_⟩, ⟨?_, ?_, ?_, ?_⟩, on_of_doms hd⟩, fun k => ⟨?_, ?_, ?_, ?_⟩⟩ <;> rw [hm]

/-- What follows the samples: one message for the records written, and the passes that a moved temperature asks for. -/
def Sys.telAfter (pi : Word) (y : Sys) : Sys :=
  each (fun n (y : Sys) => y.calDelta n) (List.range 8)
    (if y.pgReg (mntPg 3) 0x4C = pi then y else y.msix ((y.pgReg (mntPg 3) 0x48).fld 13 8))

/-- A TEL unit's count, before its samples. -/
def Sys.telBegin (u : MUnit) (y : Sys) : Sys := (y.unitDone u).updMari fun m => { m with nSamples := m.nSamples + 1 }

/-- A TEL unit's samples taken. -/
def Sys.telSampled (due : Nat) (lim crit : List Word) (ctl : Word) (v : List Nat) (y : Sys) : Sys :=
  each (fun m (y : Sys) => y.monSample due lim crit ctl m (v.getD m 0)) (List.range 47) (y.telBegin (.tel due lim crit ctl))

theorem telTake_eq (due : Nat) (lim crit : List Word) (ctl : Word) (v : List Nat) (y : Sys) :
    y.telTake due lim crit ctl v =
      (let z := y.telSampled due lim crit ctl v
       (if due = z.mari.winStart + z.mari.winLen then z.winClose due else z).telAfter (y.pgReg (mntPg 3) 0x4C)) := by
  unfold Sys.telTake Sys.telAfter Sys.telSampled Sys.telBegin
  with_reducible rfl

theorem telAfter_same (pi : Word) (y : Sys) : ∃ z, y.Alerts z ∧ z.PassOnly (y.telAfter pi) := by
  refine ⟨_, ?_, passOnly_each _ (fun n z => passOnly_calDelta n z) _⟩
  exact .ite (alerts_refl y) (alerts_of_tells (tellsOnly_of_reportsOnly (reportsOnly_msix _ y)))

theorem telSampled_at (due : Nat) (lim crit : List Word) (ctl : Word) (v : List Nat) (y : Sys) :
    (y.telBegin (.tel due lim crit ctl)).SameWindow (y.telSampled due lim crit ctl v) ∧
    ∀ k, k < 47 → y.Took k (v.getD k 0) (y.telSampled due lim crit ctl v) := by
  obtain ⟨hw, -, htook⟩ := each_monSample due lim crit ctl (fun m => v.getD m 0) (List.range 47) List.nodup_range
    (y.telBegin (.tel due lim crit ctl))
  unfold Sys.telSampled
  generalize each (fun m (y : Sys) => y.monSample due lim crit ctl m (v.getD m 0)) (List.range 47) (y.telBegin (.tel due lim crit ctl)) = z
    at hw htook ⊢
  exact ⟨hw, fun k hk => htook k (List.mem_range.2 hk)⟩

/-- The window that stays open. -/
theorem telTake_open {due : Nat} {lim crit : List Word} {ctl : Word} {v : List Nat} {y : Sys} (h : due ≠ y.mari.winStart + y.mari.winLen) :
    (y.telBegin (.tel due lim crit ctl)).SameWindow (y.telTake due lim crit ctl v) ∧
    ∀ k, k < 47 → y.Took k (v.getD k 0) (y.telTake due lim crit ctl v) := by
  obtain ⟨hw, htook⟩ := telSampled_at due lim crit ctl v y
  obtain ⟨z, hz, hpass⟩ := telAfter_same (y.pgReg (mntPg 3) 0x4C) (y.telSampled due lim crit ctl v)
  have hopen : due ≠ (y.telSampled due lim crit ctl v).mari.winStart + (y.telSampled due lim crit ctl v).mari.winLen := by
    rw [hw.2.1.2.1, hw.2.1.2.2.1]
    exact h
  have he : y.telTake due lim crit ctl v = (y.telSampled due lim crit ctl v).telAfter (y.pgReg (mntPg 3) 0x4C) := by
    rw [telTake_eq]
    dsimp only
    rw [if_neg hopen]
  rw [he]
  exact ⟨hw.trans (hz.same.1.trans hpass.same.1), fun k hk => ((htook k hk).before (hz.same.2 k)).before (hpass.same.2 k)⟩

/-- What a closed window leaves open: the next one, without a sample. -/
def Sys.Closed (due win : Nat) (t : Sys) : Prop :=
  t.mari.win = win + 1 ∧ t.mari.winStart = due ∧ t.mari.nSamples = 0 ∧ t.mari.cnts = [] ∧ t.mari.snap = none

theorem Sys.Closed.alerts {due win : Nat} {y t : Sys} (h : y.Closed due win) (k : y.Alerts t) : t.Closed due win := by
  unfold Sys.Closed
  rw [k.1]
  exact h

theorem Sys.Closed.passes {due win : Nat} {y t : Sys} (h : y.Closed due win) (k : y.PassOnly t) : t.Closed due win := by
  unfold Sys.Closed
  rw [k.1]
  exact h

theorem winClose_closed (due : Nat) (y : Sys) : (y.winClose due).Closed due y.mari.win ∧ (y.winClose due).mari.temps = y.mari.temps ∧
    (y.winClose due).mari.tripped = y.mari.tripped := by
  unfold Sys.winClose
  dsimp only
  generalize hz : Sys.tlqPut _ (Sys.tlqPut _ (Sys.tlqPut _ y)) = z
  have h : y.Alerts z := by
    rw [← hz]
    exact ((alerts_tlqPut _ _).trans (alerts_tlqPut _ _)).trans (alerts_tlqPut _ _)
  obtain ⟨⟨-, ht, htr⟩, ⟨hw, -⟩, -⟩ := h.same.1
  exact ⟨⟨congrArg (· + 1) hw, rfl, rfl, rfl, rfl⟩, ht, htr⟩

theorem telTake_closes {due : Nat} {lim crit : List Word} {ctl : Word} {v : List Nat} {y : Sys} (h : due = y.mari.winStart + y.mari.winLen) :
    (y.telTake due lim crit ctl v).Closed due y.mari.win := by
  obtain ⟨hw, -⟩ := telSampled_at due lim crit ctl v y
  have hclose : due = (y.telSampled due lim crit ctl v).mari.winStart + (y.telSampled due lim crit ctl v).mari.winLen := by
    rw [hw.2.1.2.1, hw.2.1.2.2.1]
    exact h
  have he : y.telTake due lim crit ctl v = ((y.telSampled due lim crit ctl v).winClose due).telAfter (y.pgReg (mntPg 3) 0x4C) := by
    rw [telTake_eq]
    dsimp only
    rw [if_pos hclose]
  obtain ⟨hc, -⟩ := winClose_closed due (y.telSampled due lim crit ctl v)
  rw [hw.2.1.1] at hc
  obtain ⟨z, hz, hpass⟩ := telAfter_same (y.pgReg (mntPg 3) 0x4C) ((y.telSampled due lim crit ctl v).winClose due)
  rw [he]
  exact (hc.alerts hz).passes hpass

/-- The samples leave the comparators of the trip. -/
theorem telTake_trip (due : Nat) (lim crit : List Word) (ctl : Word) (v : List Nat) (y : Sys) :
    (y.telTake due lim crit ctl v).mari.temps = y.mari.temps ∧ (y.telTake due lim crit ctl v).mari.tripped = y.mari.tripped := by
  obtain ⟨hw, -⟩ := telSampled_at due lim crit ctl v y
  obtain ⟨⟨-, ht, htr⟩, -, -⟩ := hw
  rw [telTake_eq]
  dsimp only
  generalize hz : (if due = (y.telSampled due lim crit ctl v).mari.winStart + (y.telSampled due lim crit ctl v).mari.winLen then
    (y.telSampled due lim crit ctl v).winClose due else y.telSampled due lim crit ctl v) = z
  have h : z.mari.temps = y.mari.temps ∧ z.mari.tripped = y.mari.tripped := by
    rw [← hz]
    split
    · obtain ⟨-, kt, ktr⟩ := winClose_closed due (y.telSampled due lim crit ctl v)
      exact ⟨kt.trans ht, ktr.trans htr⟩
    · exact ⟨ht, htr⟩
  obtain ⟨w, hw, hpass⟩ := telAfter_same (y.pgReg (mntPg 3) 0x4C) z
  obtain ⟨⟨-, at_, atr⟩, -, -⟩ := hw.same.1
  obtain ⟨⟨-, pt, ptr⟩, -, -⟩ := hpass.same.1
  exact ⟨(pt.trans at_).trans h.1, (ptr.trans atr).trans h.2⟩

theorem tooHot_of_temps {y t : Sys} (h : t.mari.temps = y.mari.temps) (v : List Nat) : t.tooHot v = y.tooHot v := by
  rw [Sys.tooHot, Sys.tooHot, h]

/-! ## The thermal trip -/

/-- What the window shows of Marigold. -/
def Mari.window (m : Mari) : Nat × Nat × Nat × FMap Nat × Option (TelCnt × Nat × Nat) := (m.win, m.winStart, m.nSamples, m.cnts, m.snap)

/-- Turning every domain OFF leaves the window. -/
theorem allOff_window (y : Sys) : y.allOff.mari.window = y.mari.window := by
  have hunits : ∀ l : List Nat, (each (fun d (y : Sys) => y.dropUnits d) l y).mari.window = y.mari.window := fun l =>
    each_keeps (f := fun d (y : Sys) => y.dropUnits d) (P := fun t => t.mari.window = y.mari.window) l (fun _ _ _ h => h) rfl
  have hlatch : ∀ z : Sys, z.relatch.mari = z.mari := fun z =>
    each_keeps (P := fun t => t.mari = z.mari) _ (by
      intro l _ t h
      split
      · exact h
      · exact h) rfl
  obtain ⟨m, he, -⟩ := each_setDom .off (List.range 34) (y.wipe.cfgReset false)
  have hoff : y.allOff.mari = y.wipe.mari := by
    unfold Sys.allOff
    rw [he]
    rfl
  have hwipe : y.wipe.mari.window = (each (fun d (y : Sys) => y.dropUnits d) (List.range 34) y).mari.window := by
    unfold Sys.wipe
    dsimp only
    rw [hlatch]
  rw [hoff, hwipe, hunits]

theorem closed_of_window {due win : Nat} {y t : Sys} (h : y.Closed due win) (k : t.mari.window = y.mari.window) : t.Closed due win := by
  simp only [Mari.window, Prod.mk.injEq] at k
  obtain ⟨k1, k2, k3, k4, k5⟩ := k
  unfold Sys.Closed
  rw [k1, k2, k3, k4, k5]
  exact h

/-- The chip turned off by the thermal trip, before the trip is recorded. -/
def Sys.dark (y : Sys) : Sys :=
  let y := { y.allOff with ldr := {} }
  { y with pins := { y.pins with railen := false, needPerst := true } }

theorem thermalTrip_eq (y : Sys) :
    y.thermalTrip = (y.dark.recordErr (onePg .snw 0) 9 0).updMari fun m => { m with tripped := true, everTrip := true } := rfl

theorem dark_off (y : Sys) (d : Nat) (hd : d < 34) : (y.dark.dom d).st = .off ∧ (y.dark.dom d).trans = .none := by
  obtain ⟨m, he, hoff⟩ := each_setDom_idle .off (List.range 34) (y.wipe.cfgReset false)
  have h : y.dark.doms = m := by
    unfold Sys.dark Sys.allOff
    rw [he]
  have := hoff d (List.mem_range.2 hd)
  rwa [Sys.dom, h]

/-- The trip turns everything off, and is recorded (R542). -/
theorem thermalTrip_off (y : Sys) : (y.thermalTrip.mari.tripped = true ∧ y.thermalTrip.mari.everTrip = true) ∧
    (y.thermalTrip.pins.railen = false ∧ y.thermalTrip.pins.needPerst = true) ∧ y.thermalTrip.ldr.phase = .notReady ∧
    (∀ d, d < 34 → (y.thermalTrip.dom d).st = .off ∧ (y.thermalTrip.dom d).trans = .none) ∧
    (y.thermalTrip.pgReg (onePg .snw 0) 0x18).bit 9 = true ∧ y.thermalTrip.mari.window = y.mari.window := by
  have hwin : y.dark.mari.window = y.mari.window := allOff_window y
  have hldr : y.dark.ldr = {} := rfl
  have hpins : y.dark.pins.railen = false ∧ y.dark.pins.needPerst = true := ⟨rfl, rfl⟩
  have hdoms := dark_off y
  rw [thermalTrip_eq]
  generalize y.dark = z at hwin hldr hpins hdoms ⊢
  have hrep := reportsOnly_recordErr (onePg .snw 0) 9 0 z
  have hstat := recordErr_stat (onePg .snw 0) 9 0 z
  generalize z.recordErr (onePg .snw 0) 9 0 = w at hrep hstat ⊢
  unfold Sys.reportsOnly at hrep
  refine ⟨⟨rfl, rfl⟩, ?_, ?_, fun d hd => ?_, (congrArg (Word.bit · 9) hstat).trans (Word.bit_put_self _ (by decide)), ?_⟩
  · rw [hrep]
    exact hpins
  · rw [hrep]
    show z.ldr.phase = _
    rw [hldr]
  · rw [hrep]
    exact hdoms d hd
  · rw [hrep]
    exact hwin

theorem tripSense_cool {v : List Nat} {y : Sys} (h : y.tooHot v = false) :
    y.tripSense v = y.updMari fun m => { m with temps := v.take 13 } := if_neg (by simp [h])

theorem tripSense_hot {v : List Nat} {y : Sys} (h : y.tooHot v = true) (ht : y.mari.tripped = false) :
    y.tripSense v = (y.updMari fun m => { m with temps := v.take 13 }).thermalTrip :=
  if_pos (show (y.tooHot v && !y.mari.tripped) = true by simp [h, ht])

theorem tripSense_window (v : List Nat) (y : Sys) : (y.tripSense v).mari.window = y.mari.window := by
  unfold Sys.tripSense
  dsimp only
  split
  · obtain ⟨-, -, -, -, -, h⟩ := thermalTrip_off (y.updMari fun m => { m with temps := v.take 13 })
    exact h
  · rfl

/-! ## Commands -/

theorem telEnd_run {v : List Nat} {due : Nat} {lim crit : List Word} {ctl : Word} {y : Sys} (hw : y.monWorks = true)
    (hr : y.telRun = some (.tel due lim crit ctl)) : y.telEnd v = (y.telTake due lim crit ctl v).tripSense v := by
  unfold Sys.telEnd
  rw [if_neg (by rw [hw]; decide), hr]

theorem telEnd_halted {v : List Nat} {y : Sys} (hw : y.monWorks = false) : y.telEnd v = y.tripSense v := if_pos (by rw [hw]; rfl)

theorem exec_tlqCi {s : State} (hs : s.serves .manager = true) (hp : s.sys.pageLets .manager (mntPg 3) 0x50 false = true) (v : Word) :
    exec (.tlqCiWrite v) s = .next { s with sys := s.sys.tlqCi v } := by
  refine (exec_win (execTlqCiWrite v) rfl rfl hs).trans ?_
  rw [doTlqCi]
  exact congrArg (fun t => Host.Outcome.next { s with sys := t }) (viaPage_manager hp _)

theorem fld_16_mod (v : Word) : v.fld 16 0 % 65536 = v.fld 15 0 := by
  simp only [Word.fld]
  omega

/-- Settles O56: samples reach each live monitor and the open window, a due window closes, and the trip turns everything off. -/
theorem telemetrySamplesAndReports : Obligations.telemetry_samples_and_reports := by
  refine ⟨fun s hops => ⟨fun hm hn => ?_, fun hh => ?_⟩,
    fun s v hops => ⟨fun hw hnone => ?_, fun hw => ⟨fun hcool => ?_, fun hhot htr => ?_⟩, fun due lim crit ctl hw hr => ⟨fun hcool _ hopen => ?_,
      fun hclose => ?_, fun hhot htr => ?_⟩⟩,
    fun s v hs hp => ⟨fun hbad => ?_, fun hlow hfit hempty => ?_⟩, fun s hs hp => ?_⟩
  · have hworks : (!s.sys.monWorks) = false := by simp [Sys.monWorks, hm, hn]
    refine does_live execTelDue rfl rfl hops ?_
    unfold Sys.telDue
    dsimp only
    rw [if_neg (by rw [Bool.not_eq_true]; exact hworks)]
    split <;> exact ⟨rfl, rfl, rfl, rfl⟩
  · have hworks : (!s.sys.monWorks) = true := by
      simp only [Sys.monWorks]
      rcases hh with h | h <;> simp [h]
    exact (exec_live execTelDue rfl rfl hops).trans (congrArg (fun t => Host.Outcome.next { s with sys := t }) (if_pos hworks))
  · refine exec_live_same (execTelUnitEnd v) rfl rfl hops ?_
    unfold Sys.telEnd
    rw [if_neg (by rw [hw]; decide), hnone]
  · refine (exec_live (execTelUnitEnd v) rfl rfl hops).trans ?_
    rw [telEnd_halted hw, tripSense_cool hcool]
    rfl
  · obtain ⟨⟨htrip, -⟩, ⟨hrail, -⟩, -, hoff, -⟩ := thermalTrip_off (s.sys.updMari fun m => { m with temps := v.take 13 })
    exact does_live_eq (execTelUnitEnd v) rfl rfl hops ((telEnd_halted hw).trans (tripSense_hot hhot htr))
      ⟨htrip, hrail, fun d hd => (hoff d hd).1⟩
  · obtain ⟨⟨⟨hrun, -⟩, ⟨-, -, -, hn⟩, -⟩, htook⟩ := telTake_open (v := v) (lim := lim) (crit := crit) (ctl := ctl) hopen
    have htemps := (telTake_trip due lim crit ctl v s.sys).1
    refine does_live_eq (execTelUnitEnd v) rfl rfl hops
      ((telEnd_run hw hr).trans (tripSense_cool ((tooHot_of_temps htemps v).trans hcool))) ?_
    generalize s.sys.telTake due lim crit ctl v = z at hrun hn htook ⊢
    exact ⟨hn, hrun, htook⟩
  · have hc := telTake_closes (v := v) (lim := lim) (crit := crit) (ctl := ctl) hclose
    exact does_live_eq (execTelUnitEnd v) rfl rfl hops (telEnd_run hw hr) (closed_of_window hc (tripSense_window v _))
  · obtain ⟨htemps, htripped⟩ := telTake_trip due lim crit ctl v s.sys
    obtain ⟨⟨htrip, hever⟩, ⟨hrail, hperst⟩, hldr, hoff, hbit, -⟩ :=
      thermalTrip_off ((s.sys.telTake due lim crit ctl v).updMari fun m => { m with temps := v.take 13 })
    exact does_live_eq (execTelUnitEnd v) rfl rfl hops
      ((telEnd_run hw hr).trans (tripSense_hot ((tooHot_of_temps htemps v).trans hhot) (htripped.trans htr)))
      ⟨htrip, hever, hrail, hperst, hldr, hoff, hbit⟩
  · have hq : s.sys.tlqCi v = s.sys.cfgErr (mntPg 3) := by
      refine if_pos ?_
      rw [qBad, fld_16_mod]
      simpa using hbad
    refine does_of_exec (exec_tlqCi hs hp v) hq ⟨reportsOnly_recordErr _ _ _ _, ?_, recordErr_stat _ _ _ _⟩
    exact recordErr_pgReg_past_header (by decide) (by decide) _ _ _ _ _
  · rw [exec_tlqCi hs hp]
    have hq : s.sys.tlqCi v = (s.sys.setPg (mntPg 3) 0x50 (Word.ofN (v.fld 16 0))).tlqDrain := by
      refine if_neg ?_
      rw [qBad, fld_16_mod]
      simp only [Bool.or_eq_true, decide_eq_true_eq, not_or]
      omega
    have hdrain : ∀ y : Sys, y.mari.tlq = [] → y.tlqDrain = y := by
      intro y h
      rw [Sys.tlqDrain, h]
      rfl
    rw [hq, hdrain (s.sys.setPg (mntPg 3) 0x50 (Word.ofN (v.fld 16 0))) hempty]
  · refine does_win_eq (execTbMfRead .manager) rfl rfl hs (viaPage_manager hp _) ⟨rfl, ?_, ?_, fun a ha => ?_⟩
    · have hmf : Word.ofN s.sys.mf = Word.ofN (s.sys.tb / 125) := by
        refine BitVec.eq_of_toNat_eq ?_
        simp [Word.ofN, Sys.mf]
      exact congrArg (fun w => Out.cpl .manager 0xA02040 w :: s.sys.out) hmf
    · exact pgReg_setPg_self (onePg .snw 2) 0x44 _ s.sys
    · exact reg_setReg_ne ha _ s.sys

end Sys2Proof.Machine

/-! SUPPORT. Doorbells (R91, R101-R134, R612): what each does to its ring, and what a read that it asks for leaves. -/

namespace Sys2Proof.Machine

/-! ## Reads of the host DMA -/

/-- What the issue of a read can change: the channels, what leaves the chip, and the reads that wait for a channel. -/
def Sys.ReadOnly (y t : Sys) : Prop :=
  t = { y with usb := t.usb, out := t.out, heldOut := t.heldOut, heldPasid := t.heldPasid, host := { y.host with fetchQ := t.host.fetchQ } }

theorem readOnly_refl (y : Sys) : y.ReadOnly y := rfl

theorem Sys.ReadOnly.trans {y z t : Sys} (h : y.ReadOnly z) (k : z.ReadOnly t) : y.ReadOnly t := by
  unfold Sys.ReadOnly at *
  rw [k, h]

theorem Sys.ReadOnly.ite {y t t' : Sys} {p : Prop} [Decidable p] (h : y.ReadOnly t) (k : y.ReadOnly t') : y.ReadOnly (if p then t else t') := by
  split <;> assumption

theorem readOnly_emit (o : Out) (y : Sys) : y.ReadOnly (y.emit o) :=
  .ite (.ite (readOnly_refl y) (.ite (by exact rfl) (.ite (by exact rfl) (by exact rfl)))) (by exact rfl)

theorem readOnly_readIssue (e c fuel : Nat) (y : Sys) : y.ReadOnly (y.readIssue e c fuel) := by
  induction fuel generalizing y with
  | zero => exact readOnly_refl y
  | succ fuel ih =>
    unfold Sys.readIssue
    dsimp only
    split
    · split
      · rename_i a n _ _
        refine Sys.ReadOnly.trans ?_ (ih _)
        have h : y.ReadOnly (y.updChan e c fun k => { k with req := k.req + n, outst := k.outst ++ [n] }) := rfl
        refine (h.trans (readOnly_emit (.rd (y.pfx (y.chan e c).inst) a n) _)).trans ?_
        exact rfl
      · exact readOnly_refl y
    · exact readOnly_refl y

theorem readOnly_updChan (e c : Nat) (f : Chan2 → Chan2) (y : Sys) : y.ReadOnly (y.updChan e c f) := rfl

theorem readOnly_hostTake (g : Nat) (u : HUse) (i : Option Nat) (a n : Nat) (y : Sys) : y.ReadOnly (y.hostTake g u i a n) := by
  unfold Sys.hostTake
  refine .ite (readOnly_refl y) ?_
  split
  · exact readOnly_refl y
  · rename_i c _
    have h := readOnly_updChan 0 c (fun k =>
        { st := .active, use := u, prio := (y.pgReg (dmaPg 0 c) (0x40 + 0x40 * (c % 8))).fld 1 0, inst := i, addr := a, len := n,
          err := k.err }) y
    dsimp only
    generalize (y.updChan 0 c fun k =>
        { st := .active, use := u, prio := (y.pgReg (dmaPg 0 c) (0x40 + 0x40 * (c % 8))).fld 1 0, inst := i, addr := a, len := n,
          err := k.err }) = z at h ⊢
    have h2 : z.ReadOnly (if (decide (0 < n) && z.blocked c (z.chan 0 c)) = true then z.updChan 0 c fun k => { k with st := .preempted } else z) :=
      .ite (readOnly_updChan 0 c _ z) (readOnly_refl z)
    refine (h.trans h2).trans ?_
    generalize (if (decide (0 < n) && z.blocked c (z.chan 0 c)) = true then z.updChan 0 c fun k => { k with st := .preempted } else z) = w
    exact .ite ((readOnly_updChan 0 c _ w).trans (readOnly_emit _ _)) (readOnly_readIssue 0 c 8 w)

theorem readOnly_fetchWait (u : HUse) (y : Sys) : y.ReadOnly (y.fetchWait u) := .ite (readOnly_refl y) (by exact rfl)

theorem readOnly_ctxRead (k : Nat) (y : Sys) : y.ReadOnly (y.ctxRead k) :=
  .ite (readOnly_refl y) (.ite (.ite (readOnly_refl y) (readOnly_hostTake _ _ _ _ _ y)) (readOnly_fetchWait _ y))

theorem readOnly_scanRead (k : Nat) (y : Sys) : y.ReadOnly (y.scanRead k) :=
  .ite (readOnly_refl y) (.ite (.ite (readOnly_hostTake _ _ _ _ _ y) (readOnly_refl y)) (readOnly_fetchWait _ y))

/-! ## One ring's change -/

/-- Nothing but ring `k` and the context cache has changed. -/
def Sys.RingOnly (k : Nat) (y t : Sys) : Prop :=
  (∀ j, j ≠ k → t.ring j = y.ring j) ∧ t = { y with host := { y.host with rings := t.host.rings, cache := t.host.cache } }

theorem ringOnly_refl (k : Nat) (y : Sys) : y.RingOnly k y := ⟨fun _ _ => rfl, rfl⟩

theorem Sys.RingOnly.trans {k : Nat} {y z t : Sys} (h : y.RingOnly k z) (j : z.RingOnly k t) : y.RingOnly k t :=
  ⟨fun m hm => (j.1 m hm).trans (h.1 m hm), by rw [j.2, h.2]⟩

theorem ringOnly_updRing (k : Nat) (f : Ring → Ring) (y : Sys) : y.RingOnly k (y.updRing k f) := ⟨fun _ hj => updRing_ring_ne hj _ _, rfl⟩

theorem cacheUse_host (k : Nat) (y : Sys) : ∃ c, y.cacheUse k = { y with host := { y.host with cache := c } } := by
  unfold Sys.cacheUse
  split
  · exact ⟨_, rfl⟩
  · exact ⟨_, rfl⟩

theorem cacheUse_ring (k j : Nat) (y : Sys) : (y.cacheUse k).ring j = y.ring j := by
  obtain ⟨c, h⟩ := cacheUse_host k y
  rw [h]
  rfl

theorem ringOnly_cacheUse (k j : Nat) (y : Sys) : y.RingOnly k (y.cacheUse j) := by
  refine ⟨fun m _ => cacheUse_ring j m y, ?_⟩
  obtain ⟨c, h⟩ := cacheUse_host j y
  rw [h]

/-! ## DISABLE -/

/-- Nothing is outstanding for ring `k`, and no record waits in its completion ring. -/
def Sys.NoneOut (k : Nat) (y : Sys) : Prop :=
  y.ringBusy k = false ∧ (y.ring (ringKey (k / 32) (16 + (y.ring k).cmp))).waiting = []

theorem xfers_of_idle {k : Nat} {y : Sys} (h : y.ringBusy k = false) :
    ∀ x ∈ y.host.xfers, (x.inst == some (k / 32) && x.ring == k % 32) = false := by
  simp only [Sys.ringBusy, Bool.or_eq_false_iff] at h
  exact fun x hx => by simpa using List.any_eq_false.1 h.1 x hx

/-- The completion ring of a submission ring is another ring. -/
theorem cmpKey_ne {k c : Nat} (hk : k % 32 < 16) : ringKey (k / 32) (16 + c) ≠ k := by
  unfold ringKey
  omega

/-- A stop with nothing outstanding discards what is taken. -/
theorem ringStop_idle {k st : Nat} {y : Sys} (hk : k % 32 < 16) (h : y.NoneOut k) :
    y.ringStop k st = y.updRing k fun r => r.discard fun _ => true := by
  obtain ⟨hbusy, hwait⟩ := h
  have hx := xfers_of_idle hbusy
  have hnone : (y.host.xfers.filter fun x => x.inst == some (k / 32) && x.ring == k % 32 && x.fin.isNone) = [] :=
    List.filter_eq_nil_iff.2 fun x h => by simp [hx x h]
  have hbegun : (y.host.xfers.filter fun x => x.inst == some (k / 32) && x.ring == k % 32 && (x.begun || x.fin.isSome)) = [] :=
    List.filter_eq_nil_iff.2 fun x h => by simp [hx x h]
  unfold Sys.ringStop
  rw [hnone, hbegun]
  have hkeep : (fun t : Taken => !((List.flatMap (fun x : Xfer => x.entries.map (·.1)) []).contains t.idx)) = fun _ => true := rfl
  dsimp only [each]
  rw [hkeep]
  generalize hz : (y.updRing k fun r => r.discard fun _ => true) = z
  have hcmp : (z.ring k).cmp = (y.ring k).cmp := by
    rw [← hz, updRing_ring_self]
    rfl
  have hflush : (z.ring (ringKey (k / 32) (16 + (z.ring k).cmp))).waiting = [] := by
    rw [hcmp, ← hz, updRing_ring_ne (cmpKey_ne hk)]
    exact hwait
  rw [Sys.flushRecs, hflush]
  rfl

theorem noneOut_updRing {k : Nat} {f : Ring → Ring} {y : Sys} (hk : k % 32 < 16) (hf : ∀ r, (f r).cmp = r.cmp) (h : y.NoneOut k) :
    (y.updRing k f).NoneOut k := by
  obtain ⟨hbusy, hwait⟩ := h
  have hcmp : ((y.updRing k f).ring k).cmp = (y.ring k).cmp := by rw [updRing_ring_self, hf]
  have hw : ((y.updRing k f).ring (ringKey (k / 32) (16 + ((y.updRing k f).ring k).cmp))).waiting = [] := by
    rw [hcmp, updRing_ring_ne (cmpKey_ne hk)]
    exact hwait
  refine ⟨?_, hw⟩
  simp only [Sys.ringBusy, Bool.or_eq_false_iff] at hbusy ⊢
  exact ⟨hbusy.1, by rw [hw]; rfl⟩

/-- A STOPPING ring that nothing keeps comes to rest. -/
theorem ringSettle_idle {k : Nat} {y : Sys} (h : y.ringBusy k = false) (hst : (y.ring k).st = .stopping) (hd : (y.ring k).destroying = false)
    (ht : (y.ring k).toHalt = false) :
    y.ringSettle k = y.updRing k fun r =>
      let e := r.enableRec
      let r := r.rest (if r.toHalt then .halted else .disabled)
      if e then r.enable else { r with enableRec := false } := by
  unfold Sys.ringSettle
  dsimp only
  rw [if_neg (by simp [h]), if_neg (by simp [hd]), if_pos (by simp [hst, ht])]

/-- DISABLE of a RUNNING ring without anything outstanding. -/
theorem ringDisable_idle {k : Nat} {y : Sys} (hk : k % 32 < 16) (h : y.NoneOut k) (hst : (y.ring k).st = .running)
    (hd : (y.ring k).destroying = false) (ht : (y.ring k).toHalt = false) :
    ((y.ringDisable k).ring k).st = .disabled ∧ ((y.ringDisable k).ring k).taken = [] ∧ ((y.ringDisable k).ring k).fetch = (y.ring k).fetch ∧
    y.RingOnly k (y.ringDisable k) := by
  have he : y.ringDisable k = ((y.updRing k fun r => { r with st := .stopping, enableRec := false }).ringStop k 7).ringSettle k := by
    rw [Sys.ringDisable, hst]
  have h1 := noneOut_updRing (f := fun r => { r with st := .stopping, enableRec := false }) hk (fun _ => rfl) h
  have ho1 := ringOnly_updRing k (fun r => { r with st := .stopping, enableRec := false }) y
  have hr1 : (y.updRing k fun r => { r with st := .stopping, enableRec := false }).ring k =
      { y.ring k with st := .stopping, enableRec := false } := updRing_ring_self _ _ _
  rw [he, ringStop_idle hk h1]
  generalize (y.updRing k fun r => { r with st := .stopping, enableRec := false }) = z at h1 ho1 hr1 ⊢
  have h2 := noneOut_updRing (f := fun r => r.discard fun _ => true) hk (fun _ => rfl) h1
  have ho2 := ho1.trans (ringOnly_updRing k (fun r => r.discard fun _ => true) z)
  have hr2 : (z.updRing k fun r => r.discard fun _ => true).ring k =
      ({ y.ring k with st := .stopping, enableRec := false } : Ring).discard fun _ => true := by rw [updRing_ring_self, hr1]
  generalize (z.updRing k fun r => r.discard fun _ => true) = w at h2 ho2 hr2 ⊢
  have htaken : (w.ring k).taken = [] := by
    rw [hr2]
    exact List.filter_eq_nil_iff.2 (by simp)
  have hhalt : (w.ring k).toHalt = false := by
    rw [hr2]
    exact ht
  have hrec : (w.ring k).enableRec = false := by
    rw [hr2]
    rfl
  rw [ringSettle_idle h2.1 (by rw [hr2]; rfl) (by rw [hr2]; exact hd) hhalt]
  have hr3 : (w.updRing k fun r =>
      let e := r.enableRec
      let r := r.rest (if r.toHalt then .halted else .disabled)
      if e then r.enable else { r with enableRec := false }).ring k = { (w.ring k).rest .disabled with enableRec := false } := by
    rw [updRing_ring_self]
    dsimp only
    rw [hrec, hhalt]
    rfl
  rw [hr3]
  refine ⟨rfl, htaken, ?_, ho2.trans (ringOnly_updRing k _ w)⟩
  show (w.ring k).fetch = _
  rw [hr2]
  rfl

/-! ## Doorbells -/

theorem ringKey_div {i r : Nat} (h : r < 32) : ringKey i r / 32 = i := by
  unfold ringKey
  omega

theorem ringKey_mod {i r : Nat} (h : r < 32) : ringKey i r % 32 = r := by
  unfold ringKey
  omega

/-- An access of a tenant to an tenant that answers. -/
theorem viaInst_here {y : Sys} {i : Nat} (hh : y.hostOn = true) (hc : y.contain.chipFault = false) (hi : y.instHere i = true) (o : Nat) (r : Bool)
    (f : Sys → Sys) : y.viaInst i o r f = f y := by
  rw [Sys.viaInst, if_pos (by simp [hh, hc, hi])]

theorem doorbell_gone {k : Nat} {y : Sys} (h : (y.ring k).st = .none) (op : DbOp) : y.doorbell k op = y := by
  rw [Sys.doorbell, if_pos (by simp [Sys.ringHere, h])]

theorem ringHere_of_ne {k : Nat} {y : Sys} (h : (y.ring k).st ≠ .none) : y.ringHere k = true := by
  simpa [Sys.ringHere] using h

theorem doorbell_cached {k : Nat} {y : Sys} (h : (y.ring k).st ≠ .none) (hc : y.cached k = true) (op : DbOp) : y.doorbell k op = y.dbAct k op := by
  rw [Sys.doorbell, if_neg (by simp [ringHere_of_ne h]), if_pos hc]

/-- A doorbell whose ring's context is not on chip waits for it. -/
theorem doorbell_waits {k : Nat} {y : Sys} (h : (y.ring k).st ≠ .none) (hc : y.cached k = false) (op : DbOp) :
    (y.doorbell k op).host.dbWait = y.host.dbWait ++ [(k, op)] ∧ (y.doorbell k op).host.rings = y.host.rings := by
  have ht := readOnly_ctxRead k { y with host := { y.host with dbWait := y.host.dbWait ++ [(k, op)] } }
  rw [Sys.doorbell, if_neg (by simp [ringHere_of_ne h]), if_neg (by simp [hc])]
  generalize Sys.ctxRead k { y with host := { y.host with dbWait := y.host.dbWait ++ [(k, op)] } } = t at ht ⊢
  exact ⟨by rw [ht], by rw [ht]⟩

/-- What a doorbell does to its ring is what the ring's operation does: its use in the cache shows in the cache alone. -/
theorem dbAct_ringOnly {k : Nat} {y z : Sys} (h : y.RingOnly k z) :
    y.RingOnly k (z.cacheUse k) ∧ (z.cacheUse k).ring k = z.ring k :=
  ⟨h.trans (ringOnly_cacheUse k k z), cacheUse_ring k k z⟩

theorem ringWake_running {k : Nat} {y : Sys} (h : (y.ring k).st = .running) :
    y.ringWake k = y.updRing k fun r => { r with stopped := false } := by rw [Sys.ringWake, if_pos (by rw [h]; rfl)]

theorem ringWake_other {k : Nat} {y : Sys} (h : (y.ring k).st ≠ .running) : y.ringWake k = y := by
  rw [Sys.ringWake, if_neg (by simpa using h)]

theorem ringEnable_rest {k : Nat} {y : Sys} (h : (y.ring k).st = .disabled ∨ (y.ring k).st = .halted) :
    y.ringEnable k = y.updRing k Ring.enable := by
  rcases h with h | h <;> rw [Sys.ringEnable, h]

theorem ringEnable_stopping {k : Nat} {y : Sys} (h : (y.ring k).st = .stopping) :
    y.ringEnable k = y.updRing k fun r => { r with enableRec := true } := by rw [Sys.ringEnable, h]

theorem ringDisable_stopping {k : Nat} {y : Sys} (h : (y.ring k).st = .stopping) :
    y.ringDisable k = y.updRing k fun r => { r with enableRec := false } := by rw [Sys.ringDisable, h]

theorem ringClearHalt_acts {k e : Nat} {y : Sys}
    (h : (y.ring k).st = .disabled ∨ (y.ring k).st = .running ∨ (y.ring k).st = .stopping ∨ (y.ring k).st = .halted) :
    y.ringClearHalt k e = y.updEp (y.ring k).slot e fun p => { p with halted := false } := by
  rcases h with h | h | h | h <;> rw [Sys.ringClearHalt, h]

/-- A scan begins where an entry is not known free; a ring of events with some spilled has a walk fall due. -/
theorem scanStart_begins {k : Nat} {y : Sys} (h : (y.ring k).known < (y.ring k).size) :
    (y.scanStart k).ring k = { y.ring k with scanning := true } ∧ (∀ j, j ≠ k → (y.scanStart k).ring j = y.ring j) ∧
    (y.scanStart k).host.walkDue = (y.host.walkDue || (decide (k % 32 = 20) && y.host.spq.any fun s => s.inst == k / 32 && !s.dead)) := by
  have hr := updRing_ring_self k (fun r => { r with scanning := true }) y
  have hne : ∀ j, j ≠ k → (y.updRing k fun r => { r with scanning := true }).ring j = y.ring j := fun j hj => updRing_ring_ne hj _ _
  have hu : (y.updRing k fun r => { r with scanning := true }).host.walkDue = y.host.walkDue ∧
      (y.updRing k fun r => { r with scanning := true }).host.spq = y.host.spq := ⟨rfl, rfl⟩
  unfold Sys.scanStart
  dsimp only
  rw [if_neg (Nat.not_le.2 h)]
  generalize (y.updRing k fun r => { r with scanning := true }) = z at hr hne hu ⊢
  have ht := readOnly_scanRead k z
  generalize z.scanRead k = w at ht ⊢
  have hw : ∀ j, w.ring j = z.ring j := fun j => by rw [ht]; rfl
  have hd : w.host.walkDue = y.host.walkDue := by rw [ht]; exact hu.1
  have hq : w.host.spq = y.host.spq := by rw [ht]; exact hu.2
  rw [hq]
  by_cases hk : (decide (k % 32 = 20) && y.host.spq.any fun s => s.inst == k / 32 && !s.dead) = true
  · rw [if_pos (by simpa using hk), hk, Bool.or_true]
    exact ⟨(hw k).trans hr, fun j hj => (hw j).trans (hne j hj), rfl⟩
  · rw [if_neg (by simpa using hk), Bool.eq_false_iff.2 hk, Bool.or_false]
    exact ⟨(hw k).trans hr, fun j hj => (hw j).trans (hne j hj), hd⟩

theorem spilled_any (y : Sys) (i : Nat) : (y.host.spq.any fun s => s.inst == i && !s.dead) = decide (0 < y.spilled i) := by
  rw [Bool.eq_iff_iff, decide_eq_true_iff, Sys.spilled, List.length_pos_iff_ne_nil, ne_eq, List.filter_eq_nil_iff, List.any_eq_true]
  push Not
  rfl

/-- A doorbell that reports entries returned. -/
theorem doorbell_returned {k : Nat} {y : Sys} (h : (y.ring k).st ≠ .none) (hc : y.cached k = true) (hk : (y.ring k).known < (y.ring k).size) :
    (y.doorbell k .returned).ring k = { y.ring k with scanning := true } ∧ (∀ j, j ≠ k → (y.doorbell k .returned).ring j = y.ring j) ∧
    (y.doorbell k .returned).host.walkDue =
      (y.host.walkDue || (decide (k % 32 = 20) && y.host.spq.any fun s => s.inst == k / 32 && !s.dead)) := by
  obtain ⟨hself, hne, hwalk⟩ := scanStart_begins hk
  rw [doorbell_cached h hc]
  unfold Sys.dbAct
  dsimp only
  refine ⟨(cacheUse_ring k k _).trans hself, fun j hj => (cacheUse_ring k j _).trans (hne j hj), ?_⟩
  rw [← hwalk]
  obtain ⟨c, hcache⟩ := cacheUse_host k (y.scanStart k)
  rw [hcache]

/-- A DISABLE doorbell of a RUNNING ring without anything outstanding. -/
theorem doorbell_disable_idle {k : Nat} {y : Sys} (hk : k % 32 < 16) (h : y.NoneOut k) (hc : y.cached k = true) (hst : (y.ring k).st = .running)
    (hd : (y.ring k).destroying = false) (ht : (y.ring k).toHalt = false) :
    ((y.doorbell k .disable).ring k).st = .disabled ∧ ((y.doorbell k .disable).ring k).taken = [] ∧
    ((y.doorbell k .disable).ring k).fetch = (y.ring k).fetch ∧ y.RingOnly k (y.doorbell k .disable) := by
  obtain ⟨hdis, htaken, hfetch, ho⟩ := ringDisable_idle hk h hst hd ht
  obtain ⟨hall, hself⟩ := dbAct_ringOnly ho
  rw [doorbell_cached (by rw [hst]; decide) hc]
  unfold Sys.dbAct
  dsimp only
  rw [hself]
  exact ⟨hdis, htaken, hfetch, hall⟩

/-- A doorbell of a ring of the chip, through the tenant's page. -/
theorem viaInst_doorbell {s : State} {i : Nat} (hh : s.sys.hostOn = true) (hc : s.sys.contain.chipFault = false) (hi : s.sys.instHere i = true)
    {o k : Nat} {op : DbOp} {f : Sys → Sys} (hf : f = fun y => y.viaInst i o false fun y => y.doorbell k op) :
    f s.sys = s.sys.doorbell k op := by
  rw [hf]
  exact viaInst_here hh hc hi o false _

/-- What the four doorbells of a submission ring do where its context is on chip. -/
theorem doorbell_ring {k : Nat} {y : Sys} (hc : y.cached k = true) (hne : (y.ring k).st ≠ .none) {op : DbOp} {f : Ring → Ring}
    (h : y.dbAct k op = (y.updRing k f).cacheUse k) : (y.doorbell k op).ring k = f (y.ring k) ∧ y.RingOnly k (y.doorbell k op) := by
  obtain ⟨hall, hself⟩ := dbAct_ringOnly (ringOnly_updRing k f y)
  rw [doorbell_cached hne hc, h]
  exact ⟨hself.trans (updRing_ring_self _ _ _), hall⟩

/-- DISABLE in the manager's view, of a RUNNING ring without anything outstanding. -/
theorem viewDisable_idle {y : Sys} {sel : Word} {k : Nat} (hs : y.pgReg (onePg .rng 2) 0x40 = sel) (hr : sel.fld 4 0 < 16)
    (hk : ringKey (sel.fld 27 16) (sel.fld 4 0) = k) (hst : (y.ring k).st = .running)
    (hdis : ((y.doorbell k .disable).ring k).st = .disabled) : y.viewDisable = y.doorbell k .disable := by
  unfold Sys.viewDisable
  dsimp only
  rw [hs, hk, if_pos (by simp [hr, hst]), if_neg (by simp [hdis])]

/-- Settles O34: each doorbell by the state in which it finds its ring. -/
theorem doorbellsActOnTheirRings : Obligations.doorbells_act_on_their_rings := by
  unfold Obligations.doorbells_act_on_their_rings
  refine ⟨fun s i r hserves hh hcf hi => ?_, fun s i hserves hh hcf hi => ⟨fun c hne hc hk => ?_, fun hne hc hk => ?_⟩,
    fun s hserves hp hr hst hc hbusy ht hd hw => ?_⟩
  · dsimp only
    have hr : r.val < 32 := by omega
    have hmod : ringKey i r % 32 < 16 := by rw [ringKey_mod hr]; exact r.isLt
    have hv : ∀ op : DbOp, s.sys.viaInst i (4 * r) false (fun y => y.doorbell (ringKey i r) op) = s.sys.doorbell (ringKey i r) op :=
      fun op => viaInst_here hh hcf hi _ _ _
    have hwake : ∀ P : Sys → Prop, P (s.sys.doorbell (ringKey i r) .wake) → Does (.dbWake i r) s P := fun P hP =>
      does_win_eq (execDbWake i r) rfl rfl hserves (hv .wake) hP
    have henable : ∀ P : Sys → Prop, P (s.sys.doorbell (ringKey i r) .enable) → Does (.dbEnable i r) s P := fun P hP =>
      does_win_eq (execDbEnable i r) rfl rfl hserves (hv .enable) hP
    have hdisable : ∀ P : Sys → Prop, P (s.sys.doorbell (ringKey i r) .disable) → Does (.dbDisable i r) s P := fun P hP =>
      does_win_eq (execDbDisable i r) rfl rfl hserves (hv .disable) hP
    have hclear : ∀ (e : Fin 32) (P : Sys → Prop), P (s.sys.doorbell (ringKey i r) (.clearHalt e)) → Does (.dbClearHalt i r e) s P :=
      fun e P hP => does_win_eq (execDbClearHalt i r e) rfl rfl hserves (hv (.clearHalt e)) hP
    have hdiv : ringKey i r / 32 = i.val := ringKey_div hr
    generalize ringKey i r = k at hmod hwake henable hdisable hclear hdiv ⊢
    refine ⟨fun hst e c hmem => ?_, fun hne hnc c hmem => ?_, fun hc => ⟨fun hst => ?_, fun hst => ?_, fun hst => ?_, fun hst => ?_,
      fun hst => ?_, fun hst hbusy ht hd hw => ?_, fun e hst => ?_⟩⟩
    · have hsame : ∀ c, Does c s (fun t => t = s.sys) → exec c s = .next s := fun c hdoes => by
        obtain ⟨t, hex, rfl⟩ := hdoes
        exact hex
      simp only [List.mem_cons, List.not_mem_nil, or_false] at hmem
      refine hsame c ?_
      rcases hmem with rfl | rfl | rfl | rfl
      · exact hwake _ (doorbell_gone hst _)
      · exact henable _ (doorbell_gone hst _)
      · exact hdisable _ (doorbell_gone hst _)
      · exact hclear e _ (doorbell_gone hst _)
    · simp only [List.mem_cons, List.not_mem_nil, or_false] at hmem
      rcases hmem with rfl | rfl | rfl
      · exact hwake _ (doorbell_waits hne hnc _)
      · exact henable _ (doorbell_waits hne hnc _)
      · exact hdisable _ (doorbell_waits hne hnc _)
    · refine hwake _ (doorbell_ring hc (by rw [hst]; decide) (f := fun g => { g with stopped := false }) ?_)
      rw [Sys.dbAct, ringWake_running hst]
    · by_cases hnone : (s.sys.ring k).st = .none
      · refine hwake _ ?_
        rw [doorbell_gone hnone]
        exact ⟨rfl, ringOnly_refl k s.sys⟩
      · obtain ⟨hall, hself⟩ := dbAct_ringOnly (ringOnly_refl k s.sys)
        refine hwake _ ?_
        rw [doorbell_cached hnone hc, Sys.dbAct, ringWake_other hst]
        exact ⟨hself, hall⟩
    · obtain ⟨hself, hall⟩ := doorbell_ring (y := s.sys) (k := k) hc (by rcases hst with h | h <;> rw [h] <;> decide) (op := .enable) (f := Ring.enable)
        (by rw [Sys.dbAct, ringEnable_rest hst])
      refine henable _ ?_
      rw [hself]
      exact ⟨rfl, rfl, rfl, rfl, hall⟩
    · refine henable _ (doorbell_ring hc (by rw [hst]; decide) (f := fun g => { g with enableRec := true }) ?_)
      rw [Sys.dbAct, ringEnable_stopping hst]
    · refine hdisable _ (doorbell_ring hc (by rw [hst]; decide) (f := fun g => { g with enableRec := false }) ?_)
      rw [Sys.dbAct, ringDisable_stopping hst]
    · exact hdisable _ (doorbell_disable_idle hmod ⟨hbusy, by rw [hdiv]; exact hw⟩ hc hst hd ht)
    · refine hclear e _ ?_
      rw [doorbell_cached (by rcases hst with h | h | h | h <;> rw [h] <;> decide) hc, Sys.dbAct, ringClearHalt_acts hst]
      have hep := ep_updEp_self (s.sys.ring k).slot e (fun p => { p with halted := false }) s.sys
      have hslot : ∀ n, n ≠ (s.sys.ring k).slot →
          (s.sys.updEp (s.sys.ring k).slot e fun p => { p with halted := false }).slot n = s.sys.slot n := fun n hn => updSlot_slot_ne hn _ _
      have hrings : (s.sys.updEp (s.sys.ring k).slot e fun p => { p with halted := false }).host.rings = s.sys.host.rings ∧
          (s.sys.updEp (s.sys.ring k).slot e fun p => { p with halted := false }).usb = s.sys.usb := ⟨rfl, rfl⟩
      generalize (s.sys.updEp (s.sys.ring k).slot e fun p => { p with halted := false }) = z at hep hslot hrings ⊢
      obtain ⟨c, hcache⟩ := cacheUse_host k z
      rw [hcache]
      exact ⟨hep, hslot, hrings⟩
  · obtain ⟨hself, hall, -⟩ := doorbell_returned hne hc hk
    exact does_win_eq (execDbCmp i c) rfl rfl hserves (viaInst_here hh hcf hi _ _ _) ⟨hself, hall⟩
  · obtain ⟨hself, hall, hwalk⟩ := doorbell_returned hne hc hk
    refine does_win_eq (execDbEvt i) rfl rfl hserves (viaInst_here hh hcf hi _ _ _) ⟨hself, ?_, hall⟩
    have hmod : evtKey i % 32 = 20 := by unfold evtKey; omega
    have hdiv : evtKey i / 32 = i := by unfold evtKey; omega
    rw [hwalk, hmod, hdiv, spilled_any]
    rfl
  · have hmod : ringKey ((s.sys.pgReg (onePg .rng 2) 0x40).fld 27 16) ((s.sys.pgReg (onePg .rng 2) 0x40).fld 4 0) % 32 < 16 := by
      rw [ringKey_mod (by omega)]
      exact hr
    have hdiv : ringKey ((s.sys.pgReg (onePg .rng 2) 0x40).fld 27 16) ((s.sys.pgReg (onePg .rng 2) 0x40).fld 4 0) / 32 =
        (s.sys.pgReg (onePg .rng 2) 0x40).fld 27 16 := ringKey_div (by omega)
    obtain ⟨hdis, htaken, -, hall⟩ := doorbell_disable_idle hmod ⟨hbusy, by rw [hdiv]; exact hw⟩ hc hst hd ht
    refine does_win_eq execRngViewDisable rfl rfl hserves (t := s.sys.doorbell _ .disable) ?_ ⟨hdis, htaken, hall.1⟩
    rw [doViewDisable, viaPage_manager hp]
    exact viewDisable_idle rfl hr rfl hst hdis

end Sys2Proof.Machine

/-! SUPPORT. Commands of Decust (R368, R369, R615): how the one command in progress is answered, and what the answer leaves. -/

namespace Sys2Proof.Machine

/-! ## The response -/

/-- What leaves the chip without a PASID where HOST answers. -/
theorem emit_host {o : Out} {y : Sys} (hp : o.pasid = none) (hf : y.contain.chipFault = false) (hh : y.hostOn = true) :
    y.emit o = { y with out := o :: y.out } := by simp [Sys.emit, hp, hf, hh]

/-- What a response can change: registers, what leaves the chip, messages that are masked, and the responses on chip. -/
def Sys.Replies (y t : Sys) : Prop :=
  t = { y with
    regs := t.regs, out := t.out,
    host := { y.host with
      msixPend := t.host.msixPend,
      decust := { y.host.decust with resps := t.host.decust.resps } } }

theorem replies_refl (y : Sys) : y.Replies y := rfl

theorem Sys.Replies.trans {y z t : Sys} (h : y.Replies z) (k : z.Replies t) : y.Replies t := by
  unfold Sys.Replies at *
  rw [k, h]

theorem msix_counted_replies (y : Sys) : y.Replies (if y.hostOn && !y.contain.chipFault then y.incFld (onePg .imu 0) 0x44 31 16 else y) ∧
    (if y.hostOn && !y.contain.chipFault then y.incFld (onePg .imu 0) 0x44 31 16 else y).out = y.out := by
  split
  · exact ⟨rfl, rfl⟩
  · exact ⟨rfl, rfl⟩

/-- A message leaves the chip or is pending; nothing that has left the chip is taken back. -/
theorem msix_replies (v : Nat) {y : Sys} (hf : y.contain.chipFault = false) (hh : y.hostOn = true) :
    y.Replies (y.msix v) ∧ ∀ o ∈ y.out, o ∈ (y.msix v).out := by
  unfold Sys.msix
  split
  · exact ⟨rfl, fun _ ho => ho⟩
  · obtain ⟨hrep, hout⟩ := msix_counted_replies y
    generalize (if y.hostOn && !y.contain.chipFault then y.incFld (onePg .imu 0) 0x44 31 16 else y) = z at hrep hout ⊢
    have hfz : z.contain.chipFault = false := by rw [hrep]; exact hf
    have hhz : z.hostOn = true := by rw [hrep]; exact hh
    rw [emit_host (o := .msix v) rfl hfz hhz]
    exact ⟨hrep.trans rfl, fun o ho => List.mem_cons_of_mem _ (by rw [hout]; exact ho)⟩

/-- A record that MEQ takes leaves the chip as it stands. -/
theorem meqPut_replies {dws : List Word} {y : Sys} (hlen : dws.length = 8) (hf : y.contain.chipFault = false) (hh : y.hostOn = true) :
    y.Replies (y.meqPut 2 dws) ∧ .mem none false false
      (lohi (y.pgReg tenPg 0x64) (y.pgReg tenPg 0x68) + 64 * ((y.pgReg tenPg 0x70).toNat % 65536))
      (dwBytes (Word.ofN 2 :: List.replicate 7 0 ++ dws)) ∈ (y.meqPut 2 dws).out := by
  have htake : (dws ++ List.replicate 8 0).take 8 = dws := List.take_left' hlen
  unfold Sys.meqPut
  dsimp only
  rw [emit_host rfl hf hh, htake]
  exact ⟨rfl, List.mem_cons_self ..⟩

theorem respond_answers {dws : List Word} {y : Sys} (hlen : dws.length = 8) (hf : y.contain.chipFault = false) (hh : y.hostOn = true) :
    y.Replies (y.respond dws) ∧ y.responded (y.respond dws) dws := by
  unfold Sys.respond
  split
  · next hgoes =>
    obtain ⟨⟨hen, hq⟩, hr⟩ : (y.meqEn = true ∧ y.queueChan = true) ∧ y.host.decust.resps = [] := by simpa using hgoes
    obtain ⟨hput, hsent⟩ := meqPut_replies hlen hf hh
    generalize y.meqPut 2 dws = z at hput hsent ⊢
    have hfz : z.contain.chipFault = false := by rw [hput]; exact hf
    have hhz : z.hostOn = true := by rw [hput]; exact hh
    obtain ⟨hmsg, hkept⟩ := msix_replies (y.meqVec none) hfz hhz
    refine ⟨hput.trans hmsg, fun _ _ _ => ⟨_, hkept _ hsent⟩, fun hno => ?_⟩
    rcases hno with h | ⟨h, -⟩ | h
    · exact absurd (hen.symm.trans h) (by decide)
    · exact absurd (hq.symm.trans h) (by decide)
    · exact absurd hr h
  · next hwaits =>
    refine ⟨rfl, fun hen hq hr => ?_, fun _ => rfl⟩
    have hq : y.queueChan = true := hq
    exact absurd (by simp [hen, hq, hr]) hwaits

/-! ## The one command in progress -/

/-- The one command in progress has become `c`, and all that its answer looks at is as in `y`. -/
def Sys.HoldsStill (y z : Sys) (c : DCmd) : Prop :=
  z.regs = y.regs ∧ z.tb = y.tb ∧ z.doms = y.doms ∧ z.contain = y.contain ∧ z.host.decust.resps = y.host.decust.resps ∧
    z.host.decust.restart = false ∧ z.host.decust.cmds = [c]

theorem respDws_length (y : Sys) (op tag idx st : Nat) (res : List Word) : (y.respDws op tag idx st res).length = 8 := by
  simp [Sys.respDws]

/-- Without a command in progress. -/
def Sys.decIdle (y : Sys) : Sys := y.updDec fun d => { d with cmds := [] }

/-- The end of the only command in progress: it is answered, and nothing waits behind it. -/
theorem decEnd_only {z : Sys} {c : DCmd} (hcmds : z.host.decust.cmds = [c]) (hr : z.host.decust.restart = false)
    (hf : z.contain.chipFault = false) (hh : z.hostOn = true) (st : Nat) (res : List Word) :
    z.decIdle.Replies (z.decEnd c.seq st res) ∧ z.decIdle.responded (z.decEnd c.seq st res) (z.respDws c.op c.tag c.idx st res) := by
  have hfind : (z.host.decust.cmds.find? fun e => e.seq == c.seq) = some c := by simp [hcmds]
  have hw : (z.updDec fun d => { d with cmds := d.cmds.filter fun e => e.seq != c.seq }) = z.decIdle := by
    rw [Sys.decIdle, Sys.updDec, Sys.updDec, hcmds]
    simp
  have hfin : z.decFin c.seq st res = Sys.respond (z.respDws c.op c.tag c.idx st res) z.decIdle := by
    unfold Sys.decFin
    rw [hfind]
    dsimp only
    rw [hw]
    exact if_neg (by simp [Sys.decIdle, Sys.updDec, hr])
  obtain ⟨hrep, hres⟩ := respond_answers (y := z.decIdle) (respDws_length z c.op c.tag c.idx st res) hf hh
  rw [Sys.decEnd, hfin]
  generalize Sys.respond (z.respDws c.op c.tag c.idx st res) z.decIdle = t at hrep hres ⊢
  have hnone : t.host.decust.cmds = [] := by rw [hrep]; rfl
  have hon : t.host.decust.restart = false := by rw [hrep]; exact hr
  have hsweep : t.decSweep = t := by rw [Sys.decSweep, hnone]; rfl
  rw [hsweep, Sys.restartEnd, if_neg (by simp [hon])]
  exact ⟨hrep, hres⟩

/-- The end of command `c` of `y`, once the command's work has left the block as `z`. -/
theorem decEnd_answered {y z : Sys} {c c' : DCmd} (hf : y.contain.chipFault = false) (hh : y.hostOn = true) (h : y.HoldsStill z c')
    (hsame : c'.op = c.op ∧ c'.tag = c.tag ∧ c'.idx = c.idx) (st : Nat) (res : List Word) :
    z.decIdle.Replies (z.decEnd c'.seq st res) ∧ y.answered (z.decEnd c'.seq st res) c st res := by
  obtain ⟨hregs, htb, hdoms, hcon, hresps, hrest, hcmds⟩ := h
  obtain ⟨hop, htag, hidx⟩ := hsame
  have hpg : ∀ o, z.pgReg tenPg o = y.pgReg tenPg o := fun o => by rw [Sys.pgReg, Sys.reg, hregs]; rfl
  have hdws : z.respDws c'.op c'.tag c'.idx st res = y.respDws c.op c.tag c.idx st res := by
    rw [hop, htag, hidx, Sys.respDws, Sys.respDws, Sys.mf, Sys.us, Sys.mf, Sys.us, htb]
  have hon : z.hostOn = true := by
    rw [← hh, Sys.hostOn, Sys.hostOn, Sys.on, Sys.on, Sys.dom, Sys.dom, hdoms]
  obtain ⟨hrep, hgo, hwait⟩ := decEnd_only hcmds hrest (by rw [hcon]; exact hf) hon st res
  rw [hdws] at hgo hwait
  generalize z.decEnd c'.seq st res = t at hrep hgo hwait ⊢
  have hq : t.queueChan = z.queueChan := by rw [hrep]; rfl
  have hen : z.decIdle.meqEn = y.meqEn := by
    rw [Sys.meqEn, Sys.meqEn]
    exact congrArg (·.bit 31) (hpg 0x6C)
  refine ⟨hrep, by rw [hrep]; rfl, fun h1 h2 h3 => ?_, fun hno => ?_⟩
  · have hres := hgo (hen.trans h1) h2 (hresps.trans h3)
    rw [show z.decIdle.pgReg tenPg 0x64 = y.pgReg tenPg 0x64 from hpg _, show z.decIdle.pgReg tenPg 0x68 = y.pgReg tenPg 0x68 from hpg _]
      at hres
    exact hres
  · have hres := hwait ?_
    · rw [hres, show z.decIdle.host.decust.resps = y.host.decust.resps from hresps]
    · rcases hno with h | ⟨-, h⟩ | h
      · exact .inl (hen.trans h)
      · exact .inr (.inl ⟨hq.symm.trans h, h⟩)
      · exact .inr (.inr (by rw [show z.decIdle.host.decust.resps = y.host.decust.resps from hresps]; exact h))

/-! ## What a command holds, and its checks -/

theorem holds_live {y : Sys} {idx op : Nat} {c : DCmd} (h : y.holds idx op c) : y.contain.chipFault = false ∧ y.hostOn = true := by
  obtain ⟨hw, hh, -⟩ := h
  simp only [Sys.tenWorks, Bool.and_eq_true, Bool.not_eq_true'] at hw
  exact ⟨hw.1.2, hh⟩

/-- The unit carries out the command that it holds. -/
theorem decRow_holds {y : Sys} {idx op : Nat} {c : DCmd} (h : y.holds idx op c) (f : DCmd → Sys → Sys) : y.decRow idx op f = f c y := by
  obtain ⟨hw, -, hcmds, -, hidx, hop, hst⟩ := h
  unfold Sys.decRow
  rw [if_pos hw, hcmds]
  simp [hidx, hop, hst]

theorem decJudge_passes {c : DCmd} {l : List (Bool × Nat)} (h : ∀ x ∈ l, x.1 = false) (go : Sys → Sys) (y : Sys) :
    y.decJudge c l go = go y := by
  have hnone : l.find? (·.1) = none := List.find?_eq_none.2 fun x hx => by simp [h x hx]
  rw [Sys.decJudge, hnone]

/-- The checks before an answer's own, passed. -/
theorem preCheck_passes {y : Sys} {c : DCmd} {auto : Bool} {ms : List (Nat × Word)} {bad : Bool} (hclean : c.clean auto ms = true)
    (hmaj : y.host.decust.maj = 2) (hauto : c.auto = false) (hbad : bad = false) : ∀ x ∈ y.preCheck c auto ms bad, x.1 = false := by
  simp [Sys.preCheck, hclean, hmaj, hauto, hbad]

theorem holdsStill_refl {y : Sys} {idx op : Nat} {c : DCmd} (h : y.holds idx op c) : y.HoldsStill y c := by
  obtain ⟨-, -, hcmds, hr, -, -, -⟩ := h
  exact ⟨rfl, rfl, rfl, rfl, rfl, hr, hcmds⟩

/-- The answer of a command that `y` holds, once its work has left the block as `z`. -/
theorem holds_answered {y z : Sys} {idx op : Nat} {c : DCmd} (h : y.holds idx op c) (hz : y.HoldsStill z c) (st : Nat) (res : List Word) :
    z.decIdle.Replies (z.decEnd c.seq st res) ∧ y.answered (z.decEnd c.seq st res) c st res := by
  obtain ⟨hf, hh⟩ := holds_live h
  exact decEnd_answered hf hh hz ⟨rfl, rfl, rfl⟩ st res

end Sys2Proof.Machine

/-! SUPPORT. Versions, instances and rings by command (R363, R380, R381, R404, R405, R613). -/

namespace Sys2Proof.Machine

theorem ring_of_replies {z t : Sys} (h : z.decIdle.Replies t) (j : Nat) : t.ring j = z.ring j := by
  rw [h]
  rfl

theorem inst_of_replies {z t : Sys} (h : z.decIdle.Replies t) (j : Nat) : t.inst j = z.inst j := by
  rw [h]
  rfl

/-! ## Contexts -/

/-- What the write of a context leaves: words of the chip's own taken, a record sent or waiting. -/
def Sys.CtxOnly (y t : Sys) : Prop := t = { y with fresh := t.fresh, out := t.out, host := { y.host with ctxOut := t.host.ctxOut } }

theorem ctxWrite_only (k : Nat) {y : Sys} (hf : y.contain.chipFault = false) (hh : y.hostOn = true) : y.CtxOnly (y.ctxWrite k) := by
  unfold Sys.ctxWrite
  split
  · unfold Sys.ctxPut
    dsimp only
    refine (congrArg y.CtxOnly (emit_host ?_ ?_ ?_)).mpr rfl
    · rfl
    · exact hf
    · exact hh
  · rfl

/-- What the end of rings leaves: their contexts written, and the rings themselves. -/
def Sys.RingsOff (y t : Sys) : Prop :=
  t = { y with
    fresh := t.fresh, out := t.out,
    host := { y.host with ctxOut := t.host.ctxOut, cache := t.host.cache, rings := t.host.rings } }

theorem Sys.RingsOff.trans {y z t : Sys} (h : y.RingsOff z) (k : z.RingsOff t) : y.RingsOff t := by
  unfold Sys.RingsOff at *
  rw [k, h]

theorem Sys.CtxOnly.ringsOff {y t : Sys} (h : y.CtxOnly t) : y.RingsOff t := by
  unfold Sys.RingsOff
  rw [h]

theorem ringGone_ends (k : Nat) {y : Sys} (hf : y.contain.chipFault = false) (hh : y.hostOn = true) :
    y.RingsOff (y.ringGone k) ∧ (y.ringGone k).ring k = {} ∧ ∀ j, j ≠ k → (y.ringGone k).ring j = y.ring j := by
  have hself : (y.updRing k fun _ => {}).ring k = {} := updRing_ring_self _ _ _
  have hne : ∀ j, j ≠ k → (y.updRing k fun _ => {}).ring j = y.ring j := fun j hj => updRing_ring_ne hj _ _
  have hoff : y.RingsOff (y.updRing k fun _ => {}) := rfl
  have hctx := ctxWrite_only k (y := y.updRing k fun _ => {}) hf hh
  unfold Sys.ringGone
  dsimp only
  generalize (y.updRing k fun _ => {}) = z at hself hne hoff hctx ⊢
  generalize z.ctxWrite k = w at hctx ⊢
  have hw : ∀ j, w.ring j = z.ring j := fun j => by rw [hctx]; rfl
  exact ⟨(hoff.trans hctx.ringsOff).trans rfl, (hw k).trans hself, fun j hj => (hw j).trans (hne j hj)⟩

/-- The end of several rings. -/
theorem rings_end (l : List Nat) {y : Sys} (hf : y.contain.chipFault = false) (hh : y.hostOn = true) :
    y.RingsOff (each (fun k y => y.ringGone k) l y) ∧ (∀ j ∈ l, (each (fun k y => y.ringGone k) l y).ring j = {}) ∧
    ∀ j, (each (fun k y => y.ringGone k) l y).ring j = y.ring j ∨ (each (fun k y => y.ringGone k) l y).ring j = {} := by
  induction l generalizing y with
  | nil => exact ⟨rfl, by simp, fun _ => .inl rfl⟩
  | cons k l ih =>
    obtain ⟨hoff, hk, hne⟩ := ringGone_ends k hf hh
    rw [each]
    generalize y.ringGone k = z at hoff hk hne ⊢
    have hfz : z.contain.chipFault = false := by rw [hoff]; exact hf
    have hhz : z.hostOn = true := by rw [hoff]; exact hh
    obtain ⟨hall, hgone, hkept⟩ := ih hfz hhz
    generalize each (fun k y => y.ringGone k) l z = t at hall hgone hkept ⊢
    refine ⟨hoff.trans hall, fun j hj => ?_, fun j => ?_⟩
    · rcases List.mem_cons.1 hj with rfl | hj
      · rcases hkept j with h | h
        · exact h.trans hk
        · exact h
      · exact hgone j hj
    · rcases hkept j with h | h
      · by_cases hj : j = k
        · exact .inr (h.trans (by rw [hj]; exact hk))
        · exact .inl (h.trans (hne j hj))
      · exact .inr h

/-! ## The end of an tenant -/

/-- What R380's effects can change where no device and no transfer is the tenant's own. -/
def Sys.InstOff (y t : Sys) : Prop :=
  t = { y with
    fresh := t.fresh, out := t.out,
    host := { y.host with
      ctxOut := t.host.ctxOut, cache := t.host.cache, rings := t.host.rings, evq := t.host.evq, spq := t.host.spq, insts := t.host.insts } }

theorem Sys.InstOff.trans {y z t : Sys} (h : y.InstOff z) (k : z.InstOff t) : y.InstOff t := by
  unfold Sys.InstOff at *
  rw [k, h]

theorem Sys.RingsOff.instOff {y t : Sys} (h : y.RingsOff t) : y.InstOff t := by
  unfold Sys.InstOff
  rw [h]

/-- An tenant as R380 leaves it, its events lost or not. -/
def Inst.cleared (n : Inst) (lost : Bool) : Inst :=
  { n with ownUsed := 0, sharedUsed := 0, exhausted := false, vivMaj := 0, vivMin := 0, evLost := n.evLost || lost,
           msgs := n.msgs.map fun e => (e.1, { sent := e.2.sent }) }

theorem ring_listed {y : Sys} {i j : Nat} (hj : j / 32 = i) (h : (y.ring j).st ≠ .none) :
    j ∈ (y.host.rings.filter fun e => e.1 / 32 == i && e.2.st != .none).map (·.1) := by
  have hmem : (j, y.ring j) ∈ y.host.rings := get_mem (d := ({} : Ring)) (k := j) (m := y.host.rings) fun h0 => h (by rw [Sys.ring, h0])
  exact List.mem_map.2 ⟨_, List.mem_filter.2 ⟨hmem, by simp [hj, h]⟩, rfl⟩

theorem instClear_bare {y : Sys} {i : Nat} (hf : y.contain.chipFault = false) (hh : y.hostOn = true) (hx : y.host.xfers = [])
    (hs : y.slotsOfInst i = []) :
    y.InstOff (y.instClear i) ∧ (∃ lost, (y.instClear i).inst i = (y.inst i).cleared lost) ∧
    (∀ j, j ≠ i → (y.instClear i).inst j = y.inst j) ∧ ∀ r, r < 32 → ((y.instClear i).ring (ringKey i r)).st = .none := by
  have horph : y.orphanXfers i = y := by
    unfold Sys.orphanXfers
    rw [hx]
    rfl
  unfold Sys.instClear
  rw [horph]
  dsimp only
  obtain ⟨hoff, hgone, hkept⟩ := rings_end ((y.host.rings.filter fun e => e.1 / 32 == i && e.2.st != .none).map (·.1)) hf hh
  have hnone : ∀ j, j / 32 = i → ((each (fun k y => y.ringGone k)
      ((y.host.rings.filter fun e => e.1 / 32 == i && e.2.st != .none).map (·.1)) y).ring j).st = .none := fun j hj => by
    by_cases hst : (y.ring j).st = .none
    · rcases hkept j with h | h
      · rw [h]; exact hst
      · rw [h]
    · rw [hgone j (ring_listed hj hst)]
  generalize (each (fun k y => y.ringGone k) ((y.host.rings.filter fun e => e.1 / 32 == i && e.2.st != .none).map (·.1)) y) = z
    at hoff hnone ⊢
  have hz : z.RingsOff (z.updRing (evtKey i) fun _ => {}) := rfl
  have hevt : ∀ j, j / 32 = i → ((z.updRing (evtKey i) fun _ => {}).ring j).st = .none := fun j hj => by
    by_cases he : j = evtKey i
    · rw [he, updRing_ring_self]
    · rw [updRing_ring_ne he]
      exact hnone j hj
  generalize (z.updRing (evtKey i) fun _ => {}) = w at hz hevt ⊢
  have hw : y.RingsOff w := hoff.trans hz
  have hslots : w.slotsOfInst i = [] := by
    rw [hw]
    exact hs
  have hinst : ∀ j, w.inst j = y.inst j := fun j => by
    rw [hw]
    rfl
  rw [show Sys.slotsOfInst { w with host := { w.host with
    evq := w.host.evq.filter (fun s => s.inst != i),
    spq := w.host.spq.map (fun s => if s.inst == i then { s with dead := true } else s) } } i = w.slotsOfInst i from rfl, hslots]
  rw [each]
  refine ⟨hw.instOff.trans rfl, ⟨w.host.evq.any (fun s => s.inst == i) || w.host.spq.any (fun s => s.inst == i && !s.dead),
    (updInst_inst_self i _ _).trans ?_⟩, fun j hj => (updInst_inst_ne hj _ _).trans (hinst j), fun r hr => hevt _ (ringKey_div hr)⟩
  show (w.inst i).cleared _ = _
  rw [hinst]

theorem upRevoke_idle {y : Sys} {i : Nat} (h : (y.inst i).up.go = false) (cause : Nat) : y.upRevoke i cause = y := by
  unfold Sys.upRevoke
  exact if_neg (by simp [h])

/-- The one command in progress comes to wait. -/
theorem decWait_only {y : Sys} {c : DCmd} (h : y.host.decust.cmds = [c]) (w : CWait) (res : List Word) :
    y.decWait c w res = y.updDec fun d => { d with cmds := [{ c with wait := w, res := res }] } := by
  unfold Sys.decWait Sys.updCmd Sys.updDec
  dsimp only
  rw [h]
  simp

/-- The one command in progress is woken. -/
theorem decWake_only {y : Sys} {c : DCmd} {sel : CWait → Bool} (h : y.host.decust.cmds = [c]) (hsel : sel c.wait = true) :
    y.decWake sel 0 [] = y.decEnd c.seq 0 c.res := by
  unfold Sys.decWake
  rw [h]
  simp [hsel, each]

theorem instBursts_congr {y z : Sys} {i : Nat} (husb : z.usb = y.usb) (hp : z.heldPasid = y.heldPasid) (ho : z.heldOut = y.heldOut)
    (hm : z.host.msgWait = y.host.msgWait) (hf : (z.inst i).flushing = (y.inst i).flushing) : z.instBursts i = y.instBursts i := by
  unfold Sys.instBursts
  rw [husb, hp, ho, hm, hf]

/-- What the wait for the end of an tenant's bursts finds: all that it looks at is as before the command. -/
theorem instOff_holds {y z : Sys} {c : DCmd} {i : Nat} (h : y.InstOff z) (hc : y.host.decust.cmds = [c])
    (hr : y.host.decust.restart = false) (w : CWait) (res : List Word) :
    y.HoldsStill (z.decWait c w res) { c with wait := w, res := res } ∧
    ((z.inst i).flushing = (y.inst i).flushing → (z.decWait c w res).instBursts i = y.instBursts i) ∧
    (z.decWait c w res).host.insts = z.host.insts ∧ (z.decWait c w res).host.rings = z.host.rings := by
  have hz : z.host.decust.cmds = [c] := by rw [h]; exact hc
  have hzr : z.host.decust.restart = false := by rw [h]; exact hr
  have husb : z.usb = y.usb := by rw [h]
  have hregs : z.regs = y.regs := by rw [h]
  have htb : z.tb = y.tb := by rw [h]
  have hdoms : z.doms = y.doms := by rw [h]
  have hcon : z.contain = y.contain := by rw [h]
  have hp : z.heldPasid = y.heldPasid := by rw [h]
  have ho : z.heldOut = y.heldOut := by rw [h]
  have hm : z.host.msgWait = y.host.msgWait := by rw [h]
  have hresp : z.host.decust.resps = y.host.decust.resps := by rw [h]
  rw [decWait_only hz]
  exact ⟨⟨hregs, htb, hdoms, hcon, hresp, hzr, rfl⟩, fun hf => instBursts_congr husb hp ho hm hf, rfl, rfl⟩

/-- An tenant being reset, which has no burst, is CREATED again. -/
theorem instSettle_reset {y : Sys} {i : Nat} {c : DCmd} (hb : y.instBursts i = false) (hst : (y.inst i).st = .resetting)
    (hdn : (y.inst i).dn.go = false) (hc : y.host.decust.cmds = [c]) (hw : c.wait = .bursts i) :
    y.instSettle i = Sys.decEnd c.seq 0 c.res
      (y.updInst i fun n => { n with st := .created, lostPend := n.lostPend || n.evLost, evLost := false }) := by
  unfold Sys.instSettle
  dsimp only
  rw [if_neg (by simp [hb]), hst, hdn]
  exact decWake_only (y := y.updInst i fun n => { n with st := .created, lostPend := n.lostPend || n.evLost, evLost := false }) hc
    (by simp [hw])

/-- An tenant being destroyed, which has no burst, is free. -/
theorem instSettle_destroy {y : Sys} {i : Nat} {c : DCmd} (hb : y.instBursts i = false) (hst : (y.inst i).st = .destroying)
    (hc : y.host.decust.cmds = [c]) (hw : c.wait = .bursts i) :
    y.instSettle i = Sys.decEnd c.seq 0 c.res (y.updInst i fun _ => {}) := by
  unfold Sys.instSettle
  dsimp only
  rw [if_neg (by simp [hb]), hst]
  exact decWake_only (y := y.updInst i fun _ => {}) hc (by simp [hw])

/-! ## The commands -/

/-- What a command that ends tenant `i` finds: no device, transfer, message or burst of the tenant. -/
def Sys.Bare (y : Sys) (i : Nat) : Prop :=
  y.slotsOfInst i = [] ∧ y.host.xfers = [] ∧ (y.inst i).up.go = false ∧ (y.inst i).dn.go = false ∧ y.instBursts i = false

/-- A command that ends an tenant: what it leaves before the tenant's last burst is over. -/
theorem bare_clears {y : Sys} {i : Nat} {st : InstSt} (h : y.Bare i) (hf : y.contain.chipFault = false) (hh : y.hostOn = true) :
    ∃ z, (y.updInst i fun n => { n with st := st }).instClear i = z ∧ y.InstOff z ∧ z.slotsOfInst i = [] ∧
      (∃ lost, z.inst i = ({ y.inst i with st := st } : Inst).cleared lost) ∧ (∀ j, j ≠ i → z.inst j = y.inst j) ∧
      ∀ r, r < 32 → (z.ring (ringKey i r)).st = .none := by
  obtain ⟨hs, hx, -⟩ := h
  have hself : (y.updInst i fun n => { n with st := st }).inst i = { y.inst i with st := st } := updInst_inst_self _ _ _
  have hne : ∀ j, j ≠ i → (y.updInst i fun n => { n with st := st }).inst j = y.inst j := fun j hj => updInst_inst_ne hj _ _
  have hoff0 : y.InstOff (y.updInst i fun n => { n with st := st }) := rfl
  obtain ⟨hoff, ⟨lost, hi⟩, hothers, hrings⟩ := instClear_bare (y := y.updInst i fun n => { n with st := st }) (i := i) hf hh hx hs
  generalize (y.updInst i fun n => { n with st := st }) = w at hself hne hoff0 hoff hi hothers hrings ⊢
  have hall := hoff0.trans hoff
  refine ⟨_, rfl, hall, ?_, ⟨lost, by rw [hi, hself]⟩, fun j hj => (hothers j hj).trans (hne j hj), hrings⟩
  rw [hall]
  exact hs

/-- RESET_INSTANCE of an tenant without devices, transfers and bursts. -/
theorem cReset_bare {y : Sys} {c : DCmd} {idx : Nat} (hold : y.holds idx 0x04 c) (hmaj : y.host.decust.maj = 2) (hauto : c.auto = false)
    (hclean : c.clean false [(1, 0xFFF)] = true) (hlive : y.instLive (c.f 1 11 0) = true) (hbare : y.Bare (c.f 1 11 0)) :
    ∃ t, y.cReset c = t ∧ y.answered t c 0 [] ∧ (∀ j, j ≠ c.f 1 11 0 → t.inst j = y.inst j) ∧
      (∀ r, r < 32 → (t.ring (ringKey (c.f 1 11 0) r)).st = .none) ∧
      ∃ m, t.inst (c.f 1 11 0) = m ∧ m.st = .created ∧ m.pasid = (y.inst (c.f 1 11 0)).pasid ∧ m.vivMaj = 0 ∧ m.ownUsed = 0 ∧ m.sharedUsed = 0 ∧
        m.exhausted = false := by
  obtain ⟨hf, hh⟩ := holds_live hold
  obtain ⟨hw, hho, hcmds, hr, hidx, hop, hst⟩ := hold
  unfold Sys.cReset
  dsimp only
  rw [decJudge_passes (by
    intro x hx
    rcases List.mem_append.1 hx with hx | hx
    · exact preCheck_passes hclean hmaj hauto rfl x hx
    · rw [List.mem_singleton.1 hx, hlive]; rfl)]
  generalize c.f 1 11 0 = i at hlive hbare ⊢
  obtain ⟨z, hz, hoff, -, ⟨lost, hi⟩, hothers, hrings⟩ := bare_clears (st := .resetting) hbare hf hh
  obtain ⟨-, -, hup, hdn, hb⟩ := hbare
  rw [hz, upRevoke_idle (by rw [hi]; exact hup)]
  obtain ⟨hstill, hbursts, hinsts, hrs⟩ := instOff_holds (i := i) hoff hcmds hr (.bursts i) []
  have hb' := (hbursts (by rw [hi]; rfl)).trans hb
  generalize z.decWait c (.bursts i) [] = w at hstill hb' hinsts hrs ⊢
  have hwi : ∀ j, w.inst j = z.inst j := fun j => by rw [Sys.inst, hinsts]; rfl
  have hwr : ∀ j, w.ring j = z.ring j := fun j => by rw [Sys.ring, hrs]; rfl
  obtain ⟨hregs, htb, hdoms, hcon, hresps, hrest, hcm⟩ := hstill
  rw [instSettle_reset hb' (by rw [hwi, hi]; rfl) (by rw [hwi, hi]; exact hdn) hcm rfl]
  obtain ⟨hrep, hans⟩ := decEnd_answered (y := y)
    (z := w.updInst i fun n => { n with st := .created, lostPend := n.lostPend || n.evLost, evLost := false }) (c := c)
    (c' := { c with wait := .bursts i, res := [] }) hf hh ⟨hregs, htb, hdoms, hcon, hresps, hrest, hcm⟩ ⟨rfl, rfl, rfl⟩ 0 []
  refine ⟨_, rfl, hans, fun j hj => ?_, fun r hr => ?_, _, inst_of_replies hrep i, ?_⟩
  · rw [inst_of_replies hrep, updInst_inst_ne hj, hwi, hothers j hj]
  · rw [ring_of_replies hrep]
    exact (congrArg Ring.st (hwr _)).trans (hrings r hr)
  · rw [updInst_inst_self, hwi, hi]
    exact ⟨rfl, rfl, rfl, rfl, rfl, rfl⟩

/-- DESTROY_INSTANCE of an tenant without devices, transfers and bursts. -/
theorem cDestroy_bare {y : Sys} {c : DCmd} {idx : Nat} (hold : y.holds idx 0x03 c) (hmaj : y.host.decust.maj = 2) (hauto : c.auto = false)
    (hclean : c.clean false [(1, 0xFFF)] = true) (hlive : y.instLive (c.f 1 11 0) = true) (hbare : y.Bare (c.f 1 11 0)) :
    ∃ t, y.cDestroy c = t ∧ y.answered t c 0 [0] ∧ t.inst (c.f 1 11 0) = {} ∧ (∀ j, j ≠ c.f 1 11 0 → t.inst j = y.inst j) ∧
      ∀ r, r < 32 → (t.ring (ringKey (c.f 1 11 0) r)).st = .none := by
  obtain ⟨hf, hh⟩ := holds_live hold
  obtain ⟨hw, hho, hcmds, hr, hidx, hop, hst⟩ := hold
  unfold Sys.cDestroy
  dsimp only
  rw [decJudge_passes (by
    intro x hx
    rcases List.mem_append.1 hx with hx | hx
    · exact preCheck_passes hclean hmaj hauto rfl x hx
    · rw [List.mem_singleton.1 hx, hlive]; rfl)]
  generalize c.f 1 11 0 = i at hlive hbare ⊢
  obtain ⟨z, hz, hoff, hslots, ⟨lost, hi⟩, hothers, hrings⟩ := bare_clears (st := .destroying) hbare hf hh
  obtain ⟨-, -, hup, -, hb⟩ := hbare
  rw [hz, hslots]
  dsimp only [each, List.length_nil]
  rw [upRevoke_idle (by rw [hi]; exact hup)]
  have hself : (z.updInst i fun n => { n with dn := {}, agent := false, vec := 0 }).inst i =
      { z.inst i with dn := {}, agent := false, vec := 0 } := updInst_inst_self _ _ _
  have hne : ∀ j, j ≠ i → (z.updInst i fun n => { n with dn := {}, agent := false, vec := 0 }).inst j = z.inst j := fun j hj =>
    updInst_inst_ne hj _ _
  have hzr : ∀ j, (z.updInst i fun n => { n with dn := {}, agent := false, vec := 0 }).ring j = z.ring j := fun _ => rfl
  have hoff2 : y.InstOff (z.updInst i fun n => { n with dn := {}, agent := false, vec := 0 }) := hoff.trans rfl
  generalize (z.updInst i fun n => { n with dn := {}, agent := false, vec := 0 }) = v at hself hne hzr hoff2 ⊢
  obtain ⟨hstill, hbursts, hinsts, hrs⟩ := instOff_holds (i := i) hoff2 hcmds hr (.bursts i) [Word.ofN 0]
  have hb' := (hbursts (by rw [hself, hi]; rfl)).trans hb
  generalize v.decWait c (.bursts i) [Word.ofN 0] = w at hstill hb' hinsts hrs ⊢
  have hwi : ∀ j, w.inst j = v.inst j := fun j => by rw [Sys.inst, hinsts]; rfl
  have hwr : ∀ j, w.ring j = v.ring j := fun j => by rw [Sys.ring, hrs]; rfl
  obtain ⟨hregs, htb, hdoms, hcon, hresps, hrest, hcm⟩ := hstill
  rw [instSettle_destroy hb' (by rw [hwi, hself, hi]; rfl) hcm rfl]
  obtain ⟨hrep, hans⟩ := decEnd_answered (y := y) (z := w.updInst i fun _ => {}) (c := c)
    (c' := { c with wait := .bursts i, res := [Word.ofN 0] }) hf hh ⟨hregs, htb, hdoms, hcon, hresps, hrest, hcm⟩ ⟨rfl, rfl, rfl⟩ 0
    [Word.ofN 0]
  refine ⟨_, rfl, hans, (inst_of_replies hrep i).trans (updInst_inst_self _ _ _), fun j hj => ?_, fun r hr => ?_⟩
  · rw [inst_of_replies hrep, updInst_inst_ne hj, hwi, hne j hj, hothers j hj]
  · rw [ring_of_replies hrep]
    exact (congrArg Ring.st ((hwr _).trans (hzr _))).trans (hrings r hr)

end Sys2Proof.Machine

/-! SUPPORT. Versions, creation, agreement and rings by command (R363, R404, R405, R613). -/

namespace Sys2Proof.Machine

theorem decJudge_fails {c : DCmd} {l : List (Bool × Nat)} {n : Nat} (h : (l.find? (·.1)).map (·.2) = some n) (go : Sys → Sys) (y : Sys) :
    y.decJudge c l go = y.decEnd c.seq n [] := by
  unfold Sys.decJudge
  cases hl : l.find? (·.1) with
  | none => rw [hl] at h; cases h
  | some x =>
    rw [hl] at h
    rw [← Option.some.inj h]

/-- Checks that come before the one that fails. -/
theorem find_after {l l' : List (Bool × Nat)} (h : ∀ x ∈ l, x.1 = false) :
    ((l ++ l').find? (·.1)).map (·.2) = (l'.find? (·.1)).map (·.2) := by
  have hnone : l.find? (·.1) = none := List.find?_eq_none.2 fun x hx => by simp [h x hx]
  rw [List.find?_append, hnone]
  rfl

/-- What carries on the command once it has left the block as `z`. -/
theorem holdsStill_of {y z : Sys} {idx op : Nat} {c : DCmd} (hold : y.holds idx op c) (hregs : z.regs = y.regs) (htb : z.tb = y.tb)
    (hdoms : z.doms = y.doms) (hcon : z.contain = y.contain) (hresps : z.host.decust.resps = y.host.decust.resps)
    (hr : z.host.decust.restart = y.host.decust.restart) (hc : z.host.decust.cmds = y.host.decust.cmds) : y.HoldsStill z c := by
  obtain ⟨-, -, hcmds, hrest, -, -, -⟩ := hold
  exact ⟨hregs, htb, hdoms, hcon, hresps, hr.trans hrest, hc.trans hcmds⟩

/-- HELLO before a version is agreed (R363). -/
theorem cHello_agrees {y : Sys} {c : DCmd} {idx : Nat} (hold : y.holds idx 0x01 c) (hclean : c.clean false [(1, 0xFFFF)] = true)
    (hmaj : y.host.decust.maj = 0) (hv : c.f 1 7 0 ≠ 0) :
    y.answered (y.cHello c) c 0 [Word.ofN (if c.f 1 7 0 = 1 then 1 else 2)] ∧
    (y.cHello c).host.decust.maj = (if c.f 1 7 0 = 1 then 1 else 2) ∧ (y.cHello c).host.decust.min = 0 := by
  unfold Sys.cHello
  dsimp only
  rw [hclean, decJudge_passes (by simp [hmaj, hv]), if_pos hmaj]
  have hres : (y.updDec fun d => { d with maj := if c.f 1 7 0 = 1 then 1 else 2, min := 0 }).host.decust.maj = (if c.f 1 7 0 = 1 then 1 else 2) ∧
      (y.updDec fun d => { d with maj := if c.f 1 7 0 = 1 then 1 else 2, min := 0 }).host.decust.min = 0 := ⟨rfl, rfl⟩
  have hstill : y.HoldsStill (y.updDec fun d => { d with maj := if c.f 1 7 0 = 1 then 1 else 2, min := 0 }) c :=
    holdsStill_of hold rfl rfl rfl rfl rfl rfl rfl
  generalize (if c.f 1 7 0 = 1 then 1 else 2) = v at hres hstill ⊢
  generalize (y.updDec fun d => { d with maj := v, min := 0 }) = z at hres hstill ⊢
  obtain ⟨hm, hn⟩ := hres
  rw [hm, hn, Nat.zero_mul, Nat.add_zero]
  obtain ⟨hrep, hans⟩ := holds_answered hold hstill 0 [Word.ofN v]
  refine ⟨hans, ?_, ?_⟩
  · rw [hrep]; exact hm
  · rw [hrep]; exact hn

theorem cHello_refuses {y : Sys} {c : DCmd} {idx : Nat} (hold : y.holds idx 0x01 c) (hclean : c.clean false [(1, 0xFFFF)] = true)
    (hmaj : y.host.decust.maj = 0) (hv : c.f 1 7 0 = 0) :
    y.answered (y.cHello c) c 0x0E [] ∧ (y.cHello c).host.decust.maj = 0 := by
  obtain ⟨hrep, hans⟩ := holds_answered hold (holdsStill_refl hold) 0x0E []
  unfold Sys.cHello
  dsimp only
  rw [hclean, decJudge_fails (n := 0x0E) (by simp [hmaj, hv])]
  exact ⟨hans, by rw [hrep]; exact hmaj⟩

/-- VIVEL_AGREE, up to its own checks. -/
theorem cVivel_judges {y : Sys} {c : DCmd} {idx : Nat} (hold : y.holds idx 0x06 c) (hmaj : y.host.decust.maj = 2) (hauto : c.auto = false)
    (hclean : c.clean false [(1, 0xFFF), (2, 0xFFFF)] = true) (hv : vivels.contains (c.f 2 7 0, c.f 2 15 8) = true)
    (hcompat : y.pins.compat = false) (hlive : y.instLive (c.f 1 11 0) = true) :
    (verLe (c.f 2 7 0, c.f 2 15 8) ((y.inst (c.f 1 11 0)).vivMaxMaj, (y.inst (c.f 1 11 0)).vivMaxMin) = true →
      (y.inst (c.f 1 11 0)).st = .created → y.answered (y.cVivel c) c 0 [] ∧
        (y.cVivel c).inst (c.f 1 11 0) = { y.inst (c.f 1 11 0) with st := .running, vivMaj := c.f 2 7 0, vivMin := c.f 2 15 8 } ∧
        ∀ j, j ≠ c.f 1 11 0 → (y.cVivel c).inst j = y.inst j) ∧
    (verLe (c.f 2 7 0, c.f 2 15 8) ((y.inst (c.f 1 11 0)).vivMaxMaj, (y.inst (c.f 1 11 0)).vivMaxMin) = true →
      (y.inst (c.f 1 11 0)).st = .running → y.answered (y.cVivel c) c 5 [] ∧ (y.cVivel c).inst (c.f 1 11 0) = y.inst (c.f 1 11 0)) ∧
    (verLe (c.f 2 7 0, c.f 2 15 8) ((y.inst (c.f 1 11 0)).vivMaxMaj, (y.inst (c.f 1 11 0)).vivMaxMin) = false →
      y.answered (y.cVivel c) c 0x0E [] ∧ (y.cVivel c).inst (c.f 1 11 0) = y.inst (c.f 1 11 0)) := by
  have hpre := preCheck_passes (bad := false) hclean hmaj hauto rfl
  have hfirst : (!vivels.contains (c.f 2 7 0, c.f 2 15 8) || (y.pins.compat && !verLe (c.f 2 7 0, c.f 2 15 8) (1, 2))) = false := by
    simp only [hv, hcompat, Bool.not_true, Bool.false_and, Bool.or_false]
  refine ⟨fun hle hst => ?_, fun hle hst => ?_, fun hle => ?_⟩
  · have hjudge : y.cVivel c = Sys.decEnd c.seq 0 []
        (y.updInst (c.f 1 11 0) fun n => { n with st := .running, vivMaj := c.f 2 7 0, vivMin := c.f 2 15 8 }) := by
      unfold Sys.cVivel
      dsimp only
      rw [decJudge_passes]
      intro x hx
      rcases List.mem_append.1 hx with hx | hx
      · exact hpre x hx
      · rw [hfirst, hle, hlive, hst] at hx
        simp only [List.mem_cons, List.not_mem_nil, or_false] at hx
        rcases hx with rfl | rfl | rfl | rfl <;> rfl
    rw [hjudge]
    obtain ⟨hrep, hans⟩ := holds_answered hold (z := y.updInst (c.f 1 11 0) fun n =>
      { n with st := .running, vivMaj := c.f 2 7 0, vivMin := c.f 2 15 8 }) (holdsStill_of hold rfl rfl rfl rfl rfl rfl rfl) 0 []
    exact ⟨hans, (inst_of_replies hrep _).trans (updInst_inst_self _ _ _),
      fun j hj => (inst_of_replies hrep j).trans (updInst_inst_ne hj _ _)⟩
  · have hjudge : y.cVivel c = y.decEnd c.seq 5 [] := by
      unfold Sys.cVivel
      dsimp only
      rw [decJudge_fails]
      rw [find_after hpre, hfirst, hle, hlive, hst]
      rfl
    obtain ⟨hrep, hans⟩ := holds_answered hold (holdsStill_refl hold) 5 []
    rw [hjudge]
    exact ⟨hans, inst_of_replies hrep _⟩
  · have hjudge : y.cVivel c = y.decEnd c.seq 0x0E [] := by
      unfold Sys.cVivel
      dsimp only
      rw [decJudge_fails]
      rw [find_after hpre, hfirst, hle, hlive]
      rfl
    obtain ⟨hrep, hans⟩ := holds_answered hold (holdsStill_refl hold) 0x0E []
    rw [hjudge]
    exact ⟨hans, inst_of_replies hrep _⟩

/-- The checks of CREATE_INSTANCE with a number and a PASID that are free. -/
def Sys.createChecks (y : Sys) (c : DCmd) : List (Bool × Nat) :=
  y.preCheck c false [(1, 0x0FFFFFFF), (2, 0x000FFFFF), (3, 0x003FFFFF)] false ++
    [(((true && InstSt.free != InstSt.free) || false), 0x06), (y.ctxBase == 0, 0x05), (!true, 0x0D),
      (!true && decide (4096 ≤ lowInst 0 y.host.insts), 0x03)]

theorem createChecks_pass {y : Sys} {c : DCmd} (hclean : c.clean false [(1, 0x0FFFFFFF), (2, 0x000FFFFF), (3, 0x003FFFFF)] = true)
    (hmaj : y.host.decust.maj = 2) (hauto : c.auto = false) (hbase : y.ctxBase ≠ 0) : ∀ x ∈ y.createChecks c, x.1 = false := by
  intro x hx
  rcases List.mem_append.1 hx with hx | hx
  · exact preCheck_passes hclean hmaj hauto rfl x hx
  · have hb : (y.ctxBase == 0) = false := by simpa using hbase
    rw [hb] at hx
    simp only [List.mem_cons, List.not_mem_nil, or_false] at hx
    rcases hx with rfl | rfl | rfl | rfl <;> rfl

/-- CREATE_INSTANCE with a number of its own, free, and no slot to claim (R378). -/
theorem cCreate_creates {y : Sys} {c : DCmd} {idx : Nat} (hold : y.holds idx 0x02 c) (hmaj : y.host.decust.maj = 2) (hauto : c.auto = false)
    (hclean : c.clean false [(1, 0x0FFFFFFF), (2, 0x000FFFFF), (3, 0x003FFFFF)] = true) (hsub : c.f 1 24 20 ≤ 16) (hcmp1 : 1 ≤ c.f 1 27 25)
    (hcmp4 : c.f 1 27 25 ≤ 4) (hv : vivels.contains (c.f 3 7 0, c.f 3 15 8) = true) (hreq : (c.dw 1).bit 12 = true)
    (hclaim : (c.dw 1).bit 14 = false) (hfree : (y.inst (c.f 1 11 0)).st = .free)
    (hpasid : ∀ e ∈ y.host.insts, e.2.st ≠ .free → e.2.pasid ≠ c.f 2 19 0) (hbase : y.ctxBase ≠ 0) (hen : y.pins.pasidEn = true) :
    y.answered (y.cCreate c) c 0 [Word.ofN (c.f 1 11 0), 0] ∧
    (y.cCreate c).inst (c.f 1 11 0) =
      { st := .created, pasid := c.f 2 19 0, pool := (c.dw 1).bit 13 || y.pins.compat, cls := c.f 1 19 16, maxSub := c.f 1 24 20,
        maxCmp := c.f 1 27 25, vivMaxMaj := c.f 3 7 0, vivMaxMin := c.f 3 15 8, agent := (c.dw 1).bit 15, vec := c.f 3 21 16 } ∧
    ∀ j, j ≠ c.f 1 11 0 → (y.cCreate c).inst j = y.inst j := by
  have hused : ((y.host.insts.filter fun e => e.2.st != .free).any fun e => e.2.pasid == c.f 2 19 0) = false :=
    List.any_eq_false.2 fun e he => by
      obtain ⟨hmem, hst⟩ := List.mem_filter.1 he
      simpa using hpasid e hmem (by simpa using hst)
  have hbad : (decide (16 < c.f 1 24 20) || decide (c.f 1 27 25 < 1 ∨ 4 < c.f 1 27 25) || !vivels.contains (c.f 3 7 0, c.f 3 15 8)) = false := by
    rw [hv, decide_eq_false (by omega), decide_eq_false (by omega)]
    rfl
  have hjudge : y.cCreate c = Sys.decEnd c.seq 0 [Word.ofN (c.f 1 11 0), Word.ofN 0] (y.updInst (c.f 1 11 0) fun _ =>
      { st := .created, pasid := c.f 2 19 0, pool := (c.dw 1).bit 13 || y.pins.compat, cls := c.f 1 19 16, maxSub := c.f 1 24 20,
        maxCmp := c.f 1 27 25, vivMaxMaj := c.f 3 7 0, vivMaxMin := c.f 3 15 8, agent := (c.dw 1).bit 15, vec := c.f 3 21 16 }) := by
    unfold Sys.cCreate
    dsimp only
    rw [hreq, hused, hbad, hen, hclaim, if_pos rfl, hfree]
    have hpass := createChecks_pass hclean hmaj hauto hbase
    have hnone : (y.createChecks c).find? (·.1) = none := List.find?_eq_none.2 fun x hx => by simp [hpass x hx]
    rw [show y.preCheck c false [(1, 0x0FFFFFFF), (2, 0x000FFFFF), (3, 0x003FFFFF)] false ++
        [(((true && InstSt.free != InstSt.free) || false), 0x06), (y.ctxBase == 0, 0x05), (!true, 0x0D),
          (!true && decide (4096 ≤ lowInst 0 y.host.insts), 0x03)] = y.createChecks c from rfl]
    rw [hnone, decJudge_passes hpass]
    rfl
  rw [hjudge]
  obtain ⟨hrep, hans⟩ := holds_answered hold (z := y.updInst (c.f 1 11 0) fun _ =>
      { st := .created, pasid := c.f 2 19 0, pool := (c.dw 1).bit 13 || y.pins.compat, cls := c.f 1 19 16, maxSub := c.f 1 24 20,
        maxCmp := c.f 1 27 25, vivMaxMaj := c.f 3 7 0, vivMaxMin := c.f 3 15 8, agent := (c.dw 1).bit 15, vec := c.f 3 21 16 })
    (holdsStill_of hold rfl rfl rfl rfl rfl rfl rfl) 0 [Word.ofN (c.f 1 11 0), Word.ofN 0]
  exact ⟨hans, (inst_of_replies hrep _).trans (updInst_inst_self _ _ _),
    fun j hj => (inst_of_replies hrep j).trans (updInst_inst_ne hj _ _)⟩

end Sys2Proof.Machine

/-! SUPPORT. Rings by command (R89, R380, R613). -/

namespace Sys2Proof.Machine

/-! ## CREATE_RING -/

theorem cachePut_room {y : Sys} (h : y.host.cache.length < 8192) (k : Nat) :
    y.cachePut k = { y with host := { y.host with cache := k :: y.host.cache.filter (· != k) } } := by
  unfold Sys.cachePut
  exact if_pos (Nat.lt_of_le_of_lt (List.length_filter_le _ _) h)

/-- A ring as CREATE_RING makes it: of its kind, at its place. -/
def DCmd.ring (c : DCmd) (o : Ring) : Ring :=
  if decide (c.f 1 20 16 < 16) then
    { st := .disabled, log2 := c.f 1 27 24, base := (c.dw 2).toNat + (c.dw 3).toNat * 4294967296, slot := c.f 4 13 0, cmp := c.f 4 17 16 }
  else
    { st := .running, log2 := c.f 1 27 24, base := (c.dw 2).toNat + (c.dw 3).toNat * 4294967296, msg := c.f 4 1 0, msgEn := (c.dw 4).bit 2,
      mod := c.f 4 31 16, known := 2 ^ c.f 1 27 24, nextSpill := o.nextSpill, nextDeliver := o.nextDeliver }

/-- CREATE_RING whose checks pass. -/
theorem cRing_creates {y : Sys} {c : DCmd} {idx : Nat} (hold : y.holds idx 0x08 c) (hmaj : y.host.decust.maj = 2) (hauto : c.auto = false)
    (hclean : c.clean false [(1, 0x0F1F0FFF), (2, 0xFFFFF000), (3, 0xFFFFFFFF),
      (4, if decide (c.f 1 20 16 < 16) then 0x00033FFF else 0xFFFF0007)] = true)
    (hlive : y.instLive (c.f 1 11 0) = true) (hlog : 4 ≤ c.f 1 27 24) (hr20 : c.f 1 20 16 ≤ 20)
    (hsub : c.f 1 20 16 < 16 → c.f 1 20 16 < (y.inst (c.f 1 11 0)).maxSub ∧ slotOk (c.f 4 13 0) = true ∧ y.inService (c.f 4 13 0) = true ∧
      (y.slot (c.f 4 13 0)).inst = some (c.f 1 11 0) ∧ (y.ring (ringKey (c.f 1 11 0) (16 + c.f 4 17 16))).st ≠ .none)
    (hcmp : 16 ≤ c.f 1 20 16 → c.f 1 20 16 < 16 + (y.inst (c.f 1 11 0)).maxCmp ∨ c.f 1 20 16 = 20)
    (hnone : (y.ring (ringKey (c.f 1 11 0) (c.f 1 20 16))).st = .none) (hroom : y.host.cache.length < 8192) :
    y.answered (y.cRing c) c 0 [] ∧
    (y.cRing c).ring (ringKey (c.f 1 11 0) (c.f 1 20 16)) = c.ring (y.ring (ringKey (c.f 1 11 0) (c.f 1 20 16))) ∧
    ∀ j, j ≠ ringKey (c.f 1 11 0) (c.f 1 20 16) → (y.cRing c).ring j = y.ring j := by
  obtain ⟨hf, hh⟩ := holds_live hold
  have hjudge : y.cRing c = Sys.decEnd c.seq 0 [] (((y.updRing (ringKey (c.f 1 11 0) (c.f 1 20 16)) c.ring).ctxWrite
      (ringKey (c.f 1 11 0) (c.f 1 20 16))).cachePut (ringKey (c.f 1 11 0) (c.f 1 20 16))) := by
    unfold Sys.cRing
    dsimp only
    rw [decJudge_passes]
    · rfl
    · intro x hx
      rcases List.mem_append.1 hx with hx | hx
      · refine preCheck_passes hclean hmaj hauto ?_ x hx
        rw [hlive, decide_eq_false (by omega : ¬ 20 < c.f 1 20 16), decide_eq_false (by omega : ¬ c.f 1 27 24 < 4)]
        by_cases hs : c.f 1 20 16 < 16
        · obtain ⟨hmax, hslot, -⟩ := hsub hs
          rw [hslot, decide_eq_true hs, decide_eq_false (by omega)]
          rfl
        · rw [decide_eq_false hs]
          rcases hcmp (by omega) with h | h
          · rw [decide_eq_false (by omega : ¬ 16 + (y.inst (c.f 1 11 0)).maxCmp ≤ c.f 1 20 16)]
            simp
          · simp [h]
      · simp only [List.mem_cons, List.not_mem_nil, or_false] at hx
        by_cases hs : c.f 1 20 16 < 16
        · obtain ⟨-, -, hserv, hinst, hring⟩ := hsub hs
          rcases hx with rfl | rfl | rfl
          · simp [hlive, hserv, hring]
          · simp [hinst]
          · simp [hnone]
        · rcases hx with rfl | rfl | rfl
          · simp [hlive, hs]
          · simp [hs]
          · simp [hnone]
  rw [hjudge]
  generalize hk : ringKey (c.f 1 11 0) (c.f 1 20 16) = k at *
  have hself := updRing_ring_self k c.ring y
  have hne : ∀ j, j ≠ k → (y.updRing k c.ring).ring j = y.ring j := fun j hj => updRing_ring_ne hj _ _
  have hoff : y.RingsOff (y.updRing k c.ring) := rfl
  have hctx := ctxWrite_only k (y := y.updRing k c.ring) hf hh
  have hcache : (y.updRing k c.ring).host.cache.length < 8192 := hroom
  generalize (y.updRing k c.ring) = z at hself hne hoff hctx hcache ⊢
  generalize z.ctxWrite k = w at hctx ⊢
  have hw : ∀ j, w.ring j = z.ring j := fun j => by rw [hctx]; rfl
  rw [cachePut_room (by rw [hctx]; exact hcache)]
  have hall : y.RingsOff { w with host := { w.host with cache := k :: w.host.cache.filter (· != k) } } :=
    (hoff.trans hctx.ringsOff).trans rfl
  have hv : ∀ j, Sys.ring { w with host := { w.host with cache := k :: w.host.cache.filter (· != k) } } j = w.ring j := fun _ => rfl
  generalize ({ w with host := { w.host with cache := k :: w.host.cache.filter (· != k) } } : Sys) = v at hall hv ⊢
  have hstill : y.HoldsStill v c := by
    refine holdsStill_of hold ?_ ?_ ?_ ?_ ?_ ?_ ?_ <;> rw [hall]
  obtain ⟨hrep, hans⟩ := holds_answered hold hstill 0 []
  refine ⟨hans, ?_, fun j hj => ?_⟩
  · rw [ring_of_replies hrep, hv, hw, hself]
  · rw [ring_of_replies hrep, hv, hw, hne j hj]

/-! ## DESTROY_RING -/

/-- What nothing keeps: no transfer is outstanding, and no record waits in the ring's completion ring. -/
theorem noneOut_of_none {y : Sys} {k : Nat} (hx : y.host.xfers = [])
    (hw : (y.ring (ringKey (k / 32) (16 + (y.ring k).cmp))).waiting = []) : y.NoneOut k := by
  refine ⟨?_, hw⟩
  unfold Sys.ringBusy
  dsimp only
  rw [hx, hw]
  rfl

/-- A ring that is being destroyed and that nothing keeps is gone. -/
theorem ringSettle_destroys {y : Sys} {k : Nat} (hb : y.ringBusy k = false) (hd : (y.ring k).destroying = true) :
    y.ringSettle k = Sys.decWake (· == .ringDone (k / 32) (k % 32)) 0 [] (y.ringGone k) := by
  unfold Sys.ringSettle
  dsimp only
  rw [if_neg (by simp [hb]), if_pos hd]
  rfl

/-- Records that leave a completion ring which has none leave nothing else behind. -/
theorem noneOut_filter {y : Sys} {k : Nat} (hk : k % 32 < 16) (p : CRec → Bool) (h : y.NoneOut k) :
    (y.updRing (ringKey (k / 32) (16 + (y.ring k).cmp)) fun r => { r with waiting := r.waiting.filter p }).NoneOut k := by
  obtain ⟨hbusy, hw⟩ := h
  have hck := cmpKey_ne (c := (y.ring k).cmp) hk
  have hself : ((y.updRing (ringKey (k / 32) (16 + (y.ring k).cmp)) fun r => { r with waiting := r.waiting.filter p }).ring
      (ringKey (k / 32) (16 + (y.ring k).cmp))).waiting = [] := by
    rw [updRing_ring_self, hw]
    rfl
  have hring : (y.updRing (ringKey (k / 32) (16 + (y.ring k).cmp)) fun r => { r with waiting := r.waiting.filter p }).ring k = y.ring k :=
    updRing_ring_ne hck.symm _ _
  have hx : (y.updRing (ringKey (k / 32) (16 + (y.ring k).cmp)) fun r => { r with waiting := r.waiting.filter p }).host.xfers = y.host.xfers := rfl
  generalize (y.updRing (ringKey (k / 32) (16 + (y.ring k).cmp)) fun r => { r with waiting := r.waiting.filter p }) = z at hself hring hx ⊢
  rw [← hring] at hself
  simp only [Sys.ringBusy, Bool.or_eq_false_iff] at hbusy
  refine ⟨?_, hself⟩
  unfold Sys.ringBusy
  dsimp only
  rw [hself, hx, hbusy.1]
  rfl

/-- A ring that nothing keeps is destroyed at once. -/
theorem subDestroy_idle {y : Sys} {k : Nat} (hk : k % 32 < 16) (hx : y.host.xfers = [])
    (hw : (y.ring (ringKey (k / 32) (16 + (y.ring k).cmp))).waiting = []) :
    ∃ z, y.subDestroy k = Sys.decWake (· == .ringDone (k / 32) (k % 32)) 0 [] (z.ringGone k) ∧ y.RingsOff z := by
  have h0 := noneOut_filter hk (fun w => w.sring != k % 32) (noneOut_of_none hx hw)
  have ho0 : y.RingsOff (y.updRing (ringKey (k / 32) (16 + (y.ring k).cmp)) fun r =>
      { r with waiting := r.waiting.filter fun w => w.sring != k % 32 }) := rfl
  have hx0 : (y.updRing (ringKey (k / 32) (16 + (y.ring k).cmp)) fun r =>
      { r with waiting := r.waiting.filter fun w => w.sring != k % 32 }).host.xfers = [] := hx
  unfold Sys.subDestroy
  dsimp only
  rw [hw]
  dsimp only [each, List.filter_nil]
  generalize (y.updRing (ringKey (k / 32) (16 + (y.ring k).cmp)) fun r =>
      { r with waiting := r.waiting.filter fun w => w.sring != k % 32 }) = u at h0 ho0 hx0 ⊢
  have hmap : (u.mapX fun x => if (x.inst == some (k / 32) && x.ring == k % 32) && (x.begun || x.fin.isSome) then { x with silent := true } else x)
      = u := by
    rw [Sys.mapX, hx0, List.map_nil, ← hx0]
  rw [hmap]
  have h1 := noneOut_updRing (f := fun r => { r with st := .stopping, destroying := true, stopped := true, enableRec := false }) hk
    (fun _ => rfl) h0
  have hd1 : ((u.updRing k fun r => { r with st := .stopping, destroying := true, stopped := true, enableRec := false }).ring k).destroying = true := by
    rw [updRing_ring_self]
  have ho1 : y.RingsOff (u.updRing k fun r => { r with st := .stopping, destroying := true, stopped := true, enableRec := false }) :=
    ho0.trans rfl
  have hx1 : (u.updRing k fun r => { r with st := .stopping, destroying := true, stopped := true, enableRec := false }).host.xfers = [] := hx0
  generalize (u.updRing k fun r => { r with st := .stopping, destroying := true, stopped := true, enableRec := false }) = v at h1 hd1 ho1 hx1 ⊢
  rw [ringStop_idle hk h1]
  have h2 := noneOut_updRing (f := fun r => r.discard fun _ => true) hk (fun _ => rfl) h1
  have hd2 : ((v.updRing k fun r => r.discard fun _ => true).ring k).destroying = true := by
    rw [updRing_ring_self]
    exact hd1
  have ho2 : y.RingsOff (v.updRing k fun r => r.discard fun _ => true) := ho1.trans rfl
  have hx2 : (v.updRing k fun r => r.discard fun _ => true).host.xfers = [] := hx1
  generalize (v.updRing k fun r => r.discard fun _ => true) = w at h2 hd2 ho2 hx2 ⊢
  rw [hx2]
  dsimp only [each, List.filter_nil]
  exact ⟨w, ringSettle_destroys h2.1 hd2, ho2⟩

/-- DESTROY_RING of a submission ring that nothing keeps. -/
theorem cRingOff_sub {y : Sys} {c : DCmd} {idx : Nat} (hold : y.holds idx 0x09 c) (hmaj : y.host.decust.maj = 2) (hauto : c.auto = false)
    (hclean : c.clean false [(1, 0x001F0FFF)] = true) (hlive : y.instLive (c.f 1 11 0) = true)
    (hst : (y.ring (ringKey (c.f 1 11 0) (c.f 1 20 16))).st ≠ .none) (hx : y.host.xfers = []) (hr : c.f 1 20 16 < 16)
    (hw : (y.ring (ringKey (c.f 1 11 0) (16 + (y.ring (ringKey (c.f 1 11 0) (c.f 1 20 16))).cmp))).waiting = []) :
    y.answered (y.cRingOff c) c 0 [] ∧ (y.cRingOff c).ring (ringKey (c.f 1 11 0) (c.f 1 20 16)) = {} := by
  obtain ⟨hf, hh⟩ := holds_live hold
  have hjudge : y.cRingOff c = Sys.subDestroy (ringKey (c.f 1 11 0) (c.f 1 20 16)) (y.decWait c (.ringDone (c.f 1 11 0) (c.f 1 20 16)) []) := by
    unfold Sys.cRingOff
    dsimp only
    rw [decJudge_passes, if_pos hr]
    intro x hx
    rcases List.mem_append.1 hx with hx | hx
    · exact preCheck_passes hclean hmaj hauto (decide_eq_false (by omega)) x hx
    · simp only [List.mem_cons, List.not_mem_nil, or_false] at hx
      rcases hx with rfl | rfl
      · simp [hlive, hst]
      · simp [Nat.not_le.2 hr]
  have hdiv : ringKey (c.f 1 11 0) (c.f 1 20 16) / 32 = c.f 1 11 0 := ringKey_div (by omega)
  have hmod : ringKey (c.f 1 11 0) (c.f 1 20 16) % 32 = c.f 1 20 16 := ringKey_mod (by omega)
  obtain ⟨hwk, hho, hcmds, hrest, hidx, hop, hstart⟩ := hold
  rw [hjudge, decWait_only hcmds]
  generalize ringKey (c.f 1 11 0) (c.f 1 20 16) = k at hst hw hdiv hmod ⊢
  have hdec : (y.updDec fun d => { d with cmds := [{ c with wait := .ringDone (c.f 1 11 0) (c.f 1 20 16), res := [] }] }).host.decust.cmds =
      [{ c with wait := .ringDone (c.f 1 11 0) (c.f 1 20 16), res := [] }] := rfl
  obtain ⟨z, hz, hoff⟩ := subDestroy_idle (y := y.updDec fun d => { d with cmds := [{ c with wait := .ringDone (c.f 1 11 0) (c.f 1 20 16), res := [] }] })
    (k := k) (by omega) hx (by rw [hdiv]; exact hw)
  rw [hz]
  have hstill : y.HoldsStill (y.updDec fun d => { d with cmds := [{ c with wait := .ringDone (c.f 1 11 0) (c.f 1 20 16), res := [] }] })
      { c with wait := .ringDone (c.f 1 11 0) (c.f 1 20 16), res := [] } := ⟨rfl, rfl, rfl, rfl, rfl, hrest, rfl⟩
  generalize (y.updDec fun d => { d with cmds := [{ c with wait := .ringDone (c.f 1 11 0) (c.f 1 20 16), res := [] }] }) = u at hdec hoff hstill
  obtain ⟨hregs, htb, hdoms, hcon, hresps, hrestart, hcm⟩ := hstill
  have hfz : z.contain.chipFault = false := by rw [hoff]; exact (congrArg Contain.chipFault hcon).trans hf
  have hhz : z.hostOn = true := by
    rw [← hh, Sys.hostOn, Sys.hostOn, Sys.on, Sys.on, Sys.dom, Sys.dom, show z.doms = u.doms by rw [hoff], hdoms]
  obtain ⟨hgone, hk0, -⟩ := ringGone_ends k hfz hhz
  have hall := hoff.trans hgone
  generalize z.ringGone k = t at hall hk0 ⊢
  have hstill : y.HoldsStill t { c with wait := .ringDone (c.f 1 11 0) (c.f 1 20 16), res := [] } := by
    refine ⟨?_, ?_, ?_, ?_, ?_, ?_, ?_⟩
    · rw [hall]; exact hregs
    · rw [hall]; exact htb
    · rw [hall]; exact hdoms
    · rw [hall]; exact hcon
    · rw [hall]; exact hresps
    · rw [hall]; exact hrestart
    · rw [hall]; exact hcm
  obtain ⟨hrep, hans⟩ := decEnd_answered (c := c) hf hh hstill ⟨rfl, rfl, rfl⟩ 0 []
  rw [decWake_only (c := { c with wait := .ringDone (c.f 1 11 0) (c.f 1 20 16), res := [] }) hstill.2.2.2.2.2.2 (by simp [hdiv, hmod])]
  exact ⟨hans, (ring_of_replies hrep k).trans hk0⟩

/-- DESTROY_RING of an event ring. -/
theorem cRingOff_event {y : Sys} {c : DCmd} {idx : Nat} (hold : y.holds idx 0x09 c) (hmaj : y.host.decust.maj = 2) (hauto : c.auto = false)
    (hclean : c.clean false [(1, 0x001F0FFF)] = true) (hlive : y.instLive (c.f 1 11 0) = true)
    (hst : (y.ring (ringKey (c.f 1 11 0) (c.f 1 20 16))).st ≠ .none) (hr : c.f 1 20 16 = 20) :
    y.answered (y.cRingOff c) c 0 [] ∧ ((y.cRingOff c).ring (ringKey (c.f 1 11 0) (c.f 1 20 16))).st = .none ∧
    ∀ j, j ≠ ringKey (c.f 1 11 0) (c.f 1 20 16) → (y.cRingOff c).ring j = y.ring j := by
  obtain ⟨hf, hh⟩ := holds_live hold
  have hjudge : y.cRingOff c = Sys.decEnd c.seq 0 [] ((y.ringGone (ringKey (c.f 1 11 0) (c.f 1 20 16))).updRing (ringKey (c.f 1 11 0) (c.f 1 20 16))
      fun z => { z with nextSpill := (y.ring (ringKey (c.f 1 11 0) (c.f 1 20 16))).nextSpill,
                        nextDeliver := (y.ring (ringKey (c.f 1 11 0) (c.f 1 20 16))).nextDeliver }) := by
    unfold Sys.cRingOff
    dsimp only
    rw [decJudge_passes, if_neg (by omega)]
    intro x hx
    rcases List.mem_append.1 hx with hx | hx
    · exact preCheck_passes hclean hmaj hauto (decide_eq_false (by omega)) x hx
    · simp only [List.mem_cons, List.not_mem_nil, or_false] at hx
      rcases hx with rfl | rfl
      · simp [hlive, hst]
      · simp [hr]
  rw [hjudge]
  generalize ringKey (c.f 1 11 0) (c.f 1 20 16) = k at hst ⊢
  obtain ⟨hgone, hk0, hne0⟩ := ringGone_ends k hf hh
  generalize (y.ring k).nextSpill = a
  generalize (y.ring k).nextDeliver = b
  generalize y.ringGone k = z at hgone hk0 hne0 ⊢
  have hall : y.RingsOff (z.updRing k fun z => { z with nextSpill := a, nextDeliver := b }) := hgone.trans rfl
  have hself : (z.updRing k fun z => { z with nextSpill := a, nextDeliver := b }).ring k = { z.ring k with nextSpill := a, nextDeliver := b } :=
    updRing_ring_self _ _ _
  have hne : ∀ j, j ≠ k → (z.updRing k fun z => { z with nextSpill := a, nextDeliver := b }).ring j = z.ring j := fun j hj => updRing_ring_ne hj _ _
  generalize (z.updRing k fun z => { z with nextSpill := a, nextDeliver := b }) = w at hall hself hne ⊢
  have hstill : y.HoldsStill w c := by
    refine holdsStill_of hold ?_ ?_ ?_ ?_ ?_ ?_ ?_ <;> rw [hall]
  obtain ⟨hrep, hans⟩ := holds_answered hold hstill 0 []
  refine ⟨hans, ?_, fun j hj => ?_⟩
  · rw [ring_of_replies hrep, hself, hk0]
  · rw [ring_of_replies hrep, hne j hj, hne0 j hj]

/-- DESTROY_RING of a completion ring to which a submission ring is bound. -/
theorem cRingOff_used {y : Sys} {c : DCmd} {idx : Nat} (hold : y.holds idx 0x09 c) (hmaj : y.host.decust.maj = 2) (hauto : c.auto = false)
    (hclean : c.clean false [(1, 0x001F0FFF)] = true) (hlive : y.instLive (c.f 1 11 0) = true)
    (hst : (y.ring (ringKey (c.f 1 11 0) (c.f 1 20 16))).st ≠ .none) (h16 : 16 ≤ c.f 1 20 16) (h20 : c.f 1 20 16 < 20) {r : Nat} (hr : r < 16)
    (hr0 : (y.ring (ringKey (c.f 1 11 0) r)).st ≠ .none) (hrc : (y.ring (ringKey (c.f 1 11 0) r)).cmp = c.f 1 20 16 - 16) :
    y.answered (y.cRingOff c) c 5 [] ∧ (y.cRingOff c).ring (ringKey (c.f 1 11 0) (c.f 1 20 16)) = y.ring (ringKey (c.f 1 11 0) (c.f 1 20 16)) := by
  have huser : (y.host.rings.any fun e => e.1 / 32 == c.f 1 11 0 && decide (e.1 % 32 < 16) && e.2.st != .none && e.2.cmp == c.f 1 20 16 - 16) = true := by
    refine List.any_eq_true.2 ⟨(ringKey (c.f 1 11 0) r, y.ring (ringKey (c.f 1 11 0) r)), ?_, ?_⟩
    · exact get_mem (d := ({} : Ring)) fun h0 => hr0 (by rw [Sys.ring, h0])
    · simp [ringKey_div (show r < 32 by omega), ringKey_mod (show r < 32 by omega), hr, hr0, hrc]
  have hjudge : y.cRingOff c = y.decEnd c.seq 5 [] := by
    unfold Sys.cRingOff
    dsimp only
    rw [decJudge_fails]
    rw [find_after (preCheck_passes hclean hmaj hauto (decide_eq_false (by omega))), huser]
    simp [hlive, hst, h16, h20]
  obtain ⟨hrep, hans⟩ := holds_answered hold (holdsStill_refl hold) 5 []
  rw [hjudge]
  exact ⟨hans, ring_of_replies hrep _⟩

/-- Settles O47: each command's checks, its work and its answer. -/
theorem instancesAndRingsAreManaged : Obligations.instances_and_rings_are_managed := by
  unfold Obligations.instances_and_rings_are_managed
  intro s idx c hops
  dsimp only
  have hlive_of : (s.sys.inst (c.f 1 11 0)).st = .created ∨ (s.sys.inst (c.f 1 11 0)).st = .running → s.sys.instLive (c.f 1 11 0) = true := by
    rintro (h | h) <;> simp [Sys.instLive, h]
  refine ⟨fun hold hclean hmaj => ⟨fun hv => ?_, fun hv => ?_⟩,
    fun hold hmaj hauto hclean hsub h1 h4 hv hreq hclaim hfree hpasid hbase hen => ?_,
    fun hmaj hauto hclean hlive hs hx hup hdn hb => ⟨fun hold => ?_, fun hold => ?_⟩,
    fun hold hmaj hauto hclean hv hcompat => ⟨fun hst hle => ?_, fun hst hle => ?_, fun hst hle => ?_⟩,
    fun hold hmaj hauto hlive hlog hnone hroom => ⟨fun hr hmax hslot hserv hinst hring hclean => ?_, fun hr hmax h4 hclean => ?_⟩,
    fun hold hmaj hauto hclean hlive hst hx => ⟨fun hr hw => ?_, fun hr => ?_, fun h16 h20 huse => ?_⟩⟩
  · exact does_live_eq (execHello idx) rfl rfl hops (decRow_holds hold _) (cHello_agrees hold hclean hmaj hv)
  · exact does_live_eq (execHello idx) rfl rfl hops (decRow_holds hold _) (cHello_refuses hold hclean hmaj hv)
  · exact does_live_eq (execCreateInstance idx) rfl rfl hops (decRow_holds hold _)
      (cCreate_creates hold hmaj hauto hclean hsub h1 h4 hv hreq hclaim hfree hpasid hbase hen)
  · obtain ⟨t, ht, hans, hi, hothers, hrings⟩ := cDestroy_bare hold hmaj hauto hclean (hlive_of hlive) ⟨hs, hx, hup, hdn, hb⟩
    exact does_live_eq (execDestroyInstance idx) rfl rfl hops ((decRow_holds hold _).trans ht) ⟨hans, hi, hothers, hrings⟩
  · obtain ⟨t, ht, hans, hothers, hrings, m, rfl, hm⟩ := cReset_bare hold hmaj hauto hclean (hlive_of hlive) ⟨hs, hx, hup, hdn, hb⟩
    exact does_live_eq (execResetInstance idx) rfl rfl hops ((decRow_holds hold _).trans ht) ⟨hans, ⟨hothers, hrings⟩, hm⟩
  · obtain ⟨hgood, -, -⟩ := cVivel_judges hold hmaj hauto hclean hv hcompat (hlive_of (.inl hst))
    exact does_live_eq (execVivelAgree idx) rfl rfl hops (decRow_holds hold _) (hgood hle hst)
  · obtain ⟨-, hstate, -⟩ := cVivel_judges hold hmaj hauto hclean hv hcompat (hlive_of (.inr hst))
    exact does_live_eq (execVivelAgree idx) rfl rfl hops (decRow_holds hold _) (hstate hle hst)
  · obtain ⟨-, -, hver⟩ := cVivel_judges hold hmaj hauto hclean hv hcompat (hlive_of (.inl hst))
    exact does_live_eq (execVivelAgree idx) rfl rfl hops (decRow_holds hold _) (hver hle)
  · obtain ⟨hans, hk, hothers⟩ := cRing_creates hold hmaj hauto (by rw [decide_eq_true hr]; exact hclean) (hlive_of hlive) hlog (by omega)
      (fun _ => ⟨hmax, hslot, hserv, hinst, hring⟩) (fun h => absurd hr (by omega)) hnone hroom
    refine does_live_eq (execCreateRing idx) rfl rfl hops (decRow_holds hold _) ⟨hans, hothers, ?_⟩
    rw [hk, DCmd.ring, if_pos (decide_eq_true hr)]
  · obtain ⟨hans, hk, hothers⟩ := cRing_creates hold hmaj hauto (by rw [decide_eq_false (by omega)]; exact hclean) (hlive_of hlive) hlog (by omega)
      (fun h => absurd h (by omega)) (fun _ => hmax) hnone hroom
    refine does_live_eq (execCreateRing idx) rfl rfl hops (decRow_holds hold _) ⟨hans, hothers, ?_⟩
    rw [hk, DCmd.ring, if_neg (by simpa using hr)]
    exact ⟨rfl, rfl, rfl, rfl, rfl, rfl, rfl, rfl⟩
  · exact does_live_eq (execDestroyRing idx) rfl rfl hops (decRow_holds hold _)
      (cRingOff_sub hold hmaj hauto hclean (hlive_of hlive) hst hx hr hw)
  · exact does_live_eq (execDestroyRing idx) rfl rfl hops (decRow_holds hold _) (cRingOff_event hold hmaj hauto hclean (hlive_of hlive) hst hr)
  · obtain ⟨r, hr, hr0, hrc⟩ := huse
    exact does_live_eq (execDestroyRing idx) rfl rfl hops (decRow_holds hold _)
      (cRingOff_used hold hmaj hauto hclean (hlive_of hlive) hst h16 h20 hr hr0 hrc)

end Sys2Proof.Machine

/-! SUPPORT. Mailboxes (R394-R398, R458-R463): what telling a receiver leaves alone. -/

namespace Sys2Proof.Machine

/-- The mailboxes, and the registers of every page but the host region's first sixteen and the second page of SNW, have not changed. -/
def Sys.MailKept (y t : Sys) : Prop :=
  t.eng.mbx = y.eng.mbx ∧ t.host.insts = y.host.insts ∧ ∀ a, 0x11000 ≤ a → a < 0xA01000 ∨ 0xA02000 ≤ a → t.reg a = y.reg a

theorem mailKept_refl (y : Sys) : y.MailKept y := ⟨rfl, rfl, fun _ _ _ => rfl⟩

theorem Sys.MailKept.trans {y z t : Sys} (h : y.MailKept z) (k : z.MailKept t) : y.MailKept t :=
  ⟨k.1.trans h.1, k.2.1.trans h.2.1, fun a h1 h2 => (k.2.2 a h1 h2).trans (h.2.2 a h1 h2)⟩

theorem Sys.MailKept.ite {y t t' : Sys} {p : Prop} [Decidable p] (h : y.MailKept t) (k : y.MailKept t') : y.MailKept (if p then t else t') := by
  split <;> assumption

theorem Sys.Stirs.mailKept {y t : Sys} (h : y.Stirs t) : y.MailKept t := by
  obtain ⟨he, -, hreg, -⟩ := h
  exact ⟨by rw [he], by rw [he], fun a _ h2 => hreg a h2⟩

theorem mailKept_of_reports {y t : Sys} (h : y.reportsOnly t)
    (hreg : ∀ a, 0x11000 ≤ a → a < 0xA01000 ∨ 0xA02000 ≤ a → t.reg a = y.reg a) : y.MailKept t := by
  unfold Sys.reportsOnly at h
  exact ⟨by rw [h], by rw [h], hreg⟩

theorem mailKept_msix (v : Nat) (y : Sys) : y.MailKept (y.msix v) :=
  mailKept_of_reports (reportsOnly_msix v y) fun a h1 _ => msix_reg (by omega) _ _

theorem mailKept_emit (o : Out) (y : Sys) : y.MailKept (y.emit o) :=
  .ite (.ite (mailKept_refl y) (.ite (mailKept_refl y) (.ite (mailKept_refl y) (mailKept_refl y)))) (mailKept_refl y)

theorem mailKept_meqEvent (v : Option Nat) (e : Ev) (y : Sys) : y.MailKept (y.meqEvent v e) := by
  have hput : ∀ z : Sys, (z.meqPutEv e).eng.mbx = z.eng.mbx ∧ (z.meqPutEv e).host.insts = z.host.insts := fun z => by
    obtain ⟨hm, hi, -⟩ := mailKept_emit (.mem none false false (lohi (z.pgReg tenPg 0x64) (z.pgReg tenPg 0x68) +
      64 * ((z.pgReg tenPg 0x70).toNat % 65536)) (dwBytes (Word.ofN 1 :: List.replicate 7 0 ++
        (({ e with lost := e.lost || z.host.decust.lost } : Ev).dws ++ List.replicate 8 0).take 8))) z
    exact ⟨hm, hi⟩
  have hrec : y.MailKept ((y.incFld tenPg 0x7C 15 0).recordErr tenPg 9 0) := by
    have h := reportsOnly_recordErr tenPg 9 0 (y.incFld tenPg 0x7C 15 0)
    unfold Sys.reportsOnly at h
    refine ⟨by rw [h]; rfl, by rw [h]; rfl, fun a h1 _ => ?_⟩
    have hbase : tenPg.base = 0x10000 := rfl
    exact (recordErr_reg (by unfold errTouches; omega) _ _ _).trans (reg_setReg_ne (by omega) _ _)
  refine ⟨?_, ?_, fun a h1 _ => meqEvent_reg h1 v e y⟩
  · unfold Sys.meqEvent
    split_ifs
    · rfl
    · exact ((mailKept_msix _ _).1).trans (hput y).1
    · rfl
    · exact hrec.1
  · unfold Sys.meqEvent
    split_ifs
    · rfl
    · exact ((mailKept_msix _ _).2.1).trans (hput y).2
    · rfl
    · exact hrec.2.1

theorem mailKept_setBit_snw (o : Nat) (ho : o < 0x1000) (b : Nat) (y : Sys) : y.MailKept (y.setBit (onePg .snw 1) o b) := by
  refine ⟨rfl, rfl, fun a _ h2 => reg_setReg_ne ?_ _ _⟩
  have hbase : (onePg .snw 1).base = 0xA01000 := rfl
  omega

/-- A latch that wakes the host sets its bit and its source, and at most asks for the power that HOST needs. -/
theorem mailKept_latchHost {l : Nat} (hl : l < 64) (y : Sys) : y.MailKept (y.latchSet l .host) := by
  have hbase : (onePg .snw 1).base = 0xA01000 := rfl
  have hset : y.MailKept ((y.setBit (onePg .snw 1) (0x48 + 4 * (l / 32)) (l % 32)).updSrc (256 + l) fun s => { s with lvl := true }) :=
    (mailKept_setBit_snw _ (by omega) _ y).trans ⟨rfl, rfl, fun _ _ _ => rfl⟩
  have hwake : ∀ z : Sys, z.MailKept (z.raiseWake .host) := fun z => by
    have hinc : z.MailKept (z.incFld (onePg .snw 1) 0x50 15 0) := ⟨rfl, rfl, fun a _ h2 => reg_setReg_ne (by omega) _ _⟩
    exact hinc.trans (.ite ((mailKept_refl _).trans (mailKept_emit _ _)) ⟨rfl, rfl, fun _ _ _ => rfl⟩)
  exact (Sys.MailKept.ite (hset.trans (hwake _)) hset).trans (stirs_routeAll _).mailKept

theorem mailKept_latchSet {l : Nat} (hl : l < 64) {w : WakeTo} (hw : w = .host ∨ ∃ ds, w = .doms ds) (y : Sys) : y.MailKept (y.latchSet l w) := by
  rcases hw with rfl | ⟨ds, rfl⟩
  · exact mailKept_latchHost hl y
  · exact (stirs_latchSet hl ds y).mailKept

/-- Telling a receiver changes no mailbox (R458). -/
theorem mailKept_mbxTell (j : Nat) (e : Ev) (first : Bool) (y : Sys) : y.MailKept (y.mbxTell j e first) := by
  have hmsg : y.MailKept y.ldrMsg := .ite (mailKept_msix _ y) (mailKept_refl y)
  have htell : y.MailKept (if 1 ≤ (y.mbx j).recv ∧ (y.mbx j).recv ≤ 16 then y.cicPulse (32 + j)
      else if (y.mbx j).recv = 18 then y.meqEvent none e
      else if (y.mbx j).recv = 19 then (if first then y.ldrMsg else y)
      else y) :=
    .ite (stirs_cicPulse _ y).mailKept (.ite (mailKept_meqEvent _ _ y) (.ite (.ite hmsg (mailKept_refl y)) (mailKept_refl y)))
  unfold Sys.mbxTell
  dsimp only
  generalize (if 1 ≤ (y.mbx j).recv ∧ (y.mbx j).recv ≤ 16 then y.cicPulse (32 + j)
      else if (y.mbx j).recv = 18 then y.meqEvent none e
      else if (y.mbx j).recv = 19 then (if first then y.ldrMsg else y)
      else y) = z at htell ⊢
  refine .ite (htell.trans (mailKept_latchSet (by decide) ?_ z)) htell
  split_ifs
  · exact .inl rfl
  · exact .inr ⟨_, rfl⟩
  · exact .inr ⟨_, rfl⟩

/-- Whether a block's injections are armed stands in its own pages. -/
theorem unarmed_block {y t : Sys} {g : Pg} (h : ∀ q ∈ g.blockPages, t.pgReg q 0x28 = y.pgReg q 0x28) : t.unarmed g = y.unarmed g := by
  have harm : ∀ q ∈ g.blockPages, ∀ c, t.armed q c = y.armed q c := fun q hq c => by rw [Sys.armed, Sys.armed, h q hq]
  have hmap : ∀ l : List Pg, (∀ q ∈ l, ∀ c, t.armed q c = y.armed q c) →
      (l.all fun q => !t.armed q 0 && !t.armed q 1 && !t.armed q 2) = l.all fun q => !y.armed q 0 && !y.armed q 1 && !y.armed q 2 := by
    intro l hl
    induction l with
    | nil => rfl
    | cons q l ih =>
      have hq := hl q List.mem_cons_self
      rw [List.all_cons, List.all_cons, hq, hq, hq, ih fun r hr => hl r (List.mem_cons_of_mem _ hr)]
  exact hmap _ harm

theorem Sys.MailKept.unarmed_tmb {y t : Sys} (h : y.MailKept t) (i : Nat) : t.unarmed (tmbPg i) = y.unarmed (tmbPg i) := by
  refine unarmed_block fun q hq => ?_
  obtain ⟨k, -, rfl⟩ := List.mem_map.1 hq
  exact h.2.2 (0x1000000 + i * 0x1000 + 0x28) (by omega) (by omega)

theorem Sys.MailKept.unarmed_mbx {y t : Sys} (h : y.MailKept t) (j : Nat) : t.unarmed (mbxPg j) = y.unarmed (mbxPg j) := by
  refine unarmed_block fun q hq => ?_
  obtain ⟨k, hk, rfl⟩ := List.mem_map.1 hq
  have hk : k < 8 := List.mem_range.1 hk
  exact h.2.2 (0x930000 + k * 0x1000 + 0x28) (by omega) (by omega)

end Sys2Proof.Machine

/-! SUPPORT. Posts, frees and locks of the tenants' mailboxes (R394-R397, R403, R404). -/

namespace Sys2Proof.Machine

/-! ## UP -/

theorem instLets_live {y : Sys} {i o : Nat} (h : y.instLets i o = true) : y.hostOn = true ∧ y.contain.chipFault = false := by
  simp only [Sys.instLets, Bool.and_eq_true, Bool.not_eq_true'] at h
  exact ⟨h.1.1.1, h.1.1.2⟩

theorem hostOn_st {y : Sys} (h : y.hostOn = true) : (y.dom 16).st = .on := by
  simp only [Sys.hostOn, Sys.on, Bool.or_eq_true, Bool.and_eq_true, beq_iff_eq] at h
  exact (h.resolve_left (by decide)).1

theorem setLen_valid {n : Nat} (h1 : 1 ≤ n) (h16 : n ≤ 16) (c : Chan) : c.setLen n = { c with len := n } := if_pos ⟨h1, h16⟩

/-- A post is no eligible event of a page with nothing armed. -/
theorem tmbPostC_unarmed {y z : Sys} {i len : Nat} {org : Origin} (hz : doTmbPost i org len y = z) (h : z.unarmed (tmbPg i) = true) :
    doTmbPostC i org len y = z := by
  unfold doTmbPostC
  dsimp only
  rw [hz]
  split
  · rfl
  · exact carry_unarmed h

theorem tmbPost_tenant {y z : Sys} {i len : Nat} (h : y.instLets i 0x2000 = true) (hz : y.upCtlSend i true len = z)
    (hu : z.unarmed (tmbPg i) = true) : doTmbPostC i .tenant len y = z :=
  tmbPostC_unarmed ((if_pos h).trans hz) hu

theorem tmbPost_busy {y : Sys} {i : Nat} (h : y.instLets i 0x2000 = true) (hgo : (y.inst i).up.go = true) (len : Nat) :
    doTmbPostC i .tenant len y = y := by
  have hpost : doTmbPost i .tenant len y = y := (if_pos h).trans (if_pos hgo)
  unfold doTmbPostC
  dsimp only
  rw [hpost, if_pos rfl]

/-- The UP channel as a tenant's post leaves it. -/
def Sys.upPosted (i len : Nat) (y : Sys) : Sys :=
  (y.updInst i fun n => { n with up := n.up.setLen len }).updInst i fun n => { n with up := { n.up with go := true, sender := 0, again := false } }

theorem upPosted_inst {i len : Nat} (h1 : 1 ≤ len) (h16 : len ≤ 16) (y : Sys) :
    (y.upPosted i len).inst i = { y.inst i with up := { (y.inst i).up with go := true, sender := 0, len := len, again := false } } := by
  unfold Sys.upPosted
  rw [updInst_inst_self, updInst_inst_self, setLen_valid h1 h16]

theorem upPosted_inst_ne {i j len : Nat} (h : j ≠ i) (y : Sys) : (y.upPosted i len).inst j = y.inst j :=
  (updInst_inst_ne h _ _).trans (updInst_inst_ne h _ _)

theorem upCtlSend_idle {y : Sys} {i len : Nat} (hgo : (y.inst i).up.go = false) (hagent : (y.inst i).agent = false) (h1 : 1 ≤ len) (h16 : len ≤ 16) :
    y.upCtlSend i true len = (y.upPosted i len).upEvent i := by
  have hto : (y.upPosted i len).toAgent i ((y.upPosted i len).inst i).up = false := by
    rw [Sys.toAgent, upPosted_inst h1 h16]
    simp [hagent]
  unfold Sys.upCtlSend
  rw [if_neg (by simp [hgo])]
  dsimp only
  rw [if_pos rfl]
  exact if_neg (Bool.eq_false_iff.1 hto)

theorem inst_of_mailKept {y t : Sys} (h : y.MailKept t) (j : Nat) : t.inst j = y.inst j := by rw [Sys.inst, h.2.1]; rfl

/-- A tenant's post on an idle UP channel tells the manager. -/
theorem tmbPost_up {y : Sys} {i len : Nat} (hl : y.instLets i 0x2000 = true) (hgo : (y.inst i).up.go = false) (hagent : (y.inst i).agent = false)
    (h1 : 1 ≤ len) (h16 : len ≤ 16) (hu : y.unarmed (tmbPg i) = true) :
    (∀ j, j ≠ i → (doTmbPostC i .tenant len y).inst j = y.inst j) ∧
    (doTmbPostC i .tenant len y).inst i = { y.inst i with up := { (y.inst i).up with go := true, sender := 0, len := len, again := false } } ∧
    (y.meqEn = false → y.host.decust.events.length < 256 → ∃ e, e.ty = 0xB ∧
      (doTmbPostC i .tenant len y).host.decust.events = y.host.decust.events ++ [.event e (some (y.inst i).vec)]) := by
  obtain ⟨hh, hf⟩ := instLets_live hl
  have hposted : (y.upPosted i len).unarmed (tmbPg i) = true := (unarmed_of_regs rfl _).trans hu
  have hself := upPosted_inst h1 h16 y (i := i)
  have hne := fun j (hj : j ≠ i) => upPosted_inst_ne hj y (len := len)
  have hsend := upCtlSend_idle hgo hagent h1 h16
  have hmeq : (y.upPosted i len).meqEn = y.meqEn ∧ (y.upPosted i len).host.decust = y.host.decust ∧ (y.upPosted i len).contain = y.contain ∧
      (y.upPosted i len).hostOn = y.hostOn := ⟨rfl, rfl, rfl, rfl⟩
  obtain ⟨hen, hdec, hcon, hon⟩ := hmeq
  generalize y.upPosted i len = z at hposted hself hne hsend hen hdec hcon hon
  rw [Sys.upEvent] at hsend
  have hkept := mailKept_meqEvent (some (z.inst i).vec) (z.ev 0xB 0 0 0 (mailDws i 0 false (z.inst i).up)) z
  rw [tmbPost_tenant hl hsend ((hkept.unarmed_tmb i).trans hposted)]
  refine ⟨fun j hj => (inst_of_mailKept hkept j).trans (hne j hj), (inst_of_mailKept hkept i).trans hself, fun hoff hroom => ?_⟩
  refine ⟨z.ev 0xB 0 0 0 (mailDws i 0 false (z.inst i).up), rfl, ?_⟩
  have hevent := meqEvent_disabled (y := z) (by rw [hcon]; exact hf) (by rw [hostOn_st (hon.trans hh)]; decide) (hen.trans hoff) (by rw [hdec]; exact hroom)
    (some (z.inst i).vec) (z.ev 0xB 0 0 0 (mailDws i 0 false (z.inst i).up))
  rw [hevent, show (z.inst i).vec = (y.inst i).vec by rw [hself], ← hdec]
  rfl

/-! ## DOWN -/

/-- The master's own lock, or none, lets it write the DOWN channel. -/
theorem dnLocked_own {y : Sys} {i m : Nat} (h : (y.inst i).lock = 0 ∨ (y.inst i).lock = m) : y.dnLocked i m = false := by
  rcases h with h | h <;> simp [Sys.dnLocked, h]

theorem dnLocked_other {y : Sys} {i m : Nat} (h0 : (y.inst i).lock ≠ 0) (hm : (y.inst i).lock ≠ m) : y.dnLocked i m = true := by
  simp [Sys.dnLocked, h0, hm]

/-- The DOWN channel as a master's post leaves it. -/
def Sys.dnPosted (i m len : Nat) (y : Sys) : Sys :=
  (y.updInst i fun n => { n with dn := n.dn.setLen len }).updInst i fun n => { n with dn := { n.dn with go := true, sender := m } }

theorem dnPosted_inst {i m len : Nat} (h1 : 1 ≤ len) (h16 : len ≤ 16) (y : Sys) :
    (y.dnPosted i m len).inst i = { y.inst i with dn := { (y.inst i).dn with go := true, sender := m, len := len } } := by
  unfold Sys.dnPosted
  rw [updInst_inst_self, updInst_inst_self, setLen_valid h1 h16]

theorem dnPosted_inst_ne {i j m len : Nat} (h : j ≠ i) (y : Sys) : (y.dnPosted i m len).inst j = y.inst j :=
  (updInst_inst_ne h _ _).trans (updInst_inst_ne h _ _)

theorem dnCtlSend_idle {y : Sys} {i m len : Nat} (hlock : (y.inst i).lock = 0 ∨ (y.inst i).lock = m) (hgo : (y.inst i).dn.go = false) :
    y.dnCtlSend i m true len = (y.dnPosted i m len).dnEvent i := by
  unfold Sys.dnCtlSend
  rw [if_neg (by simp [dnLocked_own hlock]), if_neg (by simp [hgo])]
  rfl

/-- A DOWN message of a RUNNING tenant, with HOST not in RETENTION: its event waits for the event ring. -/
theorem dnEvent_running {y : Sys} {i : Nat} (hf : y.contain.chipFault = false) (hst : (y.inst i).st = .running) (hret : y.isRet 16 = false) :
    y.dnEvent i = { y with host := { y.host with evq := y.host.evq ++ [{ inst := i, seq := 0, ev := y.ev 0xB 0 0 0 (mailDws i 1 false (y.inst i).dn) }] } } := by
  have hty : (y.ev 0xB 0 0 0 (mailDws i 1 false (y.inst i).dn)).ty = 0xB := rfl
  have hevent : y.tenantEvent i (y.ev 0xB 0 0 0 (mailDws i 1 false (y.inst i).dn)) =
      { y with host := { y.host with evq := y.host.evq ++ [{ inst := i, seq := 0, ev := y.ev 0xB 0 0 0 (mailDws i 1 false (y.inst i).dn) }] } } := by
    generalize y.ev 0xB 0 0 0 (mailDws i 1 false (y.inst i).dn) = e at hty ⊢
    unfold Sys.tenantEvent
    rw [if_neg (by simp [hf]), hst]
    dsimp only
    exact if_neg (by simp [hty])
  unfold Sys.dnEvent
  dsimp only
  rw [hevent]
  exact if_neg (Bool.eq_false_iff.1 hret)

theorem masterPost_via {y : Sys} {i : Nat} {org : Origin} (ho : org = .manager ∨ ∃ k, org = .core k)
    (hp : y.pageLets org (tmbPg i) 0xC0 false = true) (len : Nat) : doTmbPost i org len y = y.dnCtlSend i (masterOf org) true len := by
  rcases ho with rfl | ⟨k, rfl⟩
  · exact viaPage_lets hp _
  · exact viaPage_lets hp _

/-- A master's post on an idle DOWN channel, whose tenant runs. -/
theorem tmbPost_down {y : Sys} {i len : Nat} {org : Origin} (ho : org = .manager ∨ ∃ k, org = .core k)
    (hp : y.pageLets org (tmbPg i) 0xC0 false = true) (hlock : (y.inst i).lock = 0 ∨ (y.inst i).lock = masterOf org)
    (hgo : (y.inst i).dn.go = false) (h1 : 1 ≤ len) (h16 : len ≤ 16) (hst : (y.inst i).st = .running) (hh : y.hostOn = true)
    (hf : y.contain.chipFault = false) (hu : y.unarmed (tmbPg i) = true) :
    (doTmbPostC i org len y).inst i = { y.inst i with dn := { (y.inst i).dn with go := true, sender := masterOf org, len := len } } ∧
    (∃ e, e.ty = 0xB ∧ y.evAdded (doTmbPostC i org len y) i [e]) ∧ ∀ j, j ≠ i → (doTmbPostC i org len y).inst j = y.inst j := by
  have hsend := (masterPost_via ho hp len).trans (dnCtlSend_idle hlock hgo)
  have hself := dnPosted_inst (m := masterOf org) (i := i) h1 h16 y
  have hne := fun j (hj : j ≠ i) => dnPosted_inst_ne (m := masterOf org) (len := len) hj y
  have hkept : (y.dnPosted i (masterOf org) len).regs = y.regs ∧ (y.dnPosted i (masterOf org) len).contain = y.contain ∧
      (y.dnPosted i (masterOf org) len).isRet 16 = y.isRet 16 ∧ (y.dnPosted i (masterOf org) len).host.evq = y.host.evq := ⟨rfl, rfl, rfl, rfl⟩
  obtain ⟨hregs, hcon, hret, hevq⟩ := hkept
  generalize y.dnPosted i (masterOf org) len = z at hsend hself hne hregs hcon hret hevq
  rw [dnEvent_running (by rw [hcon]; exact hf) (by rw [hself]; exact hst) (hret.trans (by simp [Sys.isRet, hostOn_st hh]))] at hsend
  rw [tmbPostC_unarmed hsend ((unarmed_of_regs hregs _).trans hu)]
  refine ⟨hself, ⟨z.ev 0xB 0 0 0 (mailDws i 1 false (z.inst i).dn), rfl, ?_⟩, hne⟩
  unfold Sys.evAdded
  dsimp only
  rw [hevq]
  rfl

/-- A master's post against another's lock. -/
theorem tmbPost_locked {y : Sys} {i len : Nat} {org : Origin} (ho : org = .manager ∨ ∃ k, org = .core k)
    (hp : y.pageLets org (tmbPg i) 0xC0 false = true) (h0 : (y.inst i).lock ≠ 0) (hm : (y.inst i).lock ≠ masterOf org) :
    doTmbPostC i org len y = y.recordErr (tmbPg i) 8 0 := by
  have hsend : doTmbPost i org len y = y.recordErr (tmbPg i) 8 0 := (masterPost_via ho hp len).trans (if_pos (dnLocked_other h0 hm))
  have hrep := reportsOnly_recordErr (tmbPg i) 8 0 y
  unfold Sys.reportsOnly at hrep
  unfold doTmbPostC
  dsimp only
  rw [hsend]
  refine if_pos ?_
  rw [hrep]

/-! ## Frees and locks -/

theorem dnFree_eq (y : Sys) (i : Nat) : y.dnCtlRecv i true false = y.updInst i fun n => { n with dn := { n.dn with go := false } } := by
  simp [Sys.dnCtlRecv]

theorem upFree_eq (y : Sys) (i : Nat) : y.upCtlRecv i true false = y.updInst i fun n => { n with up := { n.up with go := false } } := by
  simp [Sys.upCtlRecv]

theorem tmbFree_master {y : Sys} {i : Nat} {org : Origin} (ho : org = .manager ∨ ∃ k, org = .core k)
    (hp : y.pageLets org (tmbPg i) 0x40 false = true) :
    doTmbFree i org y = y.updInst i fun n => { n with up := { n.up with go := false } } := by
  rcases ho with rfl | ⟨k, rfl⟩
  · exact (viaPage_lets hp _).trans (upFree_eq y i)
  · exact (viaPage_lets hp _).trans (upFree_eq y i)

theorem dnLockRead_eq (y : Sys) (i m : Nat) : y.dnLockRead i m =
    (if (y.inst i).lock = m then 0 else (y.inst i).lock, if (y.inst i).lock = 0 then y.updInst i fun n => { n with lock := m } else y) := by
  unfold Sys.dnLockRead
  dsimp only
  by_cases h0 : (y.inst i).lock = 0
  · rw [if_pos h0, if_pos h0, h0]
    split <;> rfl
  · rw [if_neg h0, if_neg h0]
    split <;> rfl

theorem dnLockAcquire_eq {y : Sys} {i : Nat} {org : Origin} (ho : org = .manager ∨ ∃ k, org = .core k)
    (hp : y.pageLets org (tmbPg i) 0x144 true = true) :
    doDnLockAcquire i org y =
      { (if (y.inst i).lock = 0 then y.updInst i fun n => { n with lock := masterOf org } else y) with
        out := .cpl org ((tmbPg i).base + 0x144) (Word.ofN (if (y.inst i).lock = masterOf org then 0 else (y.inst i).lock)) :: y.out } := by
  have hread := dnLockRead_eq y i (masterOf org)
  have hout : (if (y.inst i).lock = 0 then y.updInst i fun n => { n with lock := masterOf org } else y).out = y.out := by split <;> rfl
  have hbody : doDnLockAcquire i org y = { (y.dnLockRead i (masterOf org)).2 with
      out := .cpl org ((tmbPg i).base + 0x144) (Word.ofN (y.dnLockRead i (masterOf org)).1) :: (y.dnLockRead i (masterOf org)).2.out } := by
    rcases ho with rfl | ⟨k, rfl⟩
    · rw [doDnLockAcquire, viaPage_lets hp]
    · rw [doDnLockAcquire, viaPage_lets hp]
  rw [hbody, hread]
  dsimp only
  rw [hout]

theorem dnLockRelease_eq {y : Sys} {i : Nat} {org : Origin} (ho : org = .manager ∨ ∃ k, org = .core k)
    (hp : y.pageLets org (tmbPg i) 0x144 false = true) :
    doDnLockRelease i org y = if (y.inst i).lock = masterOf org then y.updInst i fun n => { n with lock := 0 } else y := by
  have hbody : doDnLockRelease i org y = y.dnLockWrite i (masterOf org) 0 := by
    rcases ho with rfl | ⟨k, rfl⟩
    · exact viaPage_lets hp _
    · exact viaPage_lets hp _
  rw [hbody]
  simp [Sys.dnLockWrite]

end Sys2Proof.Machine

/-! SUPPORT. The firmware agent's answer, messages that are unmasked, and the internal mailboxes (R403, R404, R408, R409, R458-R460). -/

namespace Sys2Proof.Machine

/-! ## The agent -/

theorem liveCores_choice {y : Sys} (h : y.liveCores ≠ []) (n : Nat) :
    ∃ k : Fin 16, y.coreActs k = true ∧ y.liveCores.getD (n % y.liveCores.length) 0 = k.val := by
  have hlt : n % y.liveCores.length < y.liveCores.length := Nat.mod_lt _ (List.length_pos_iff.2 h)
  have hmem : y.liveCores.getD (n % y.liveCores.length) 0 ∈ y.liveCores := by
    rw [List.getD_eq_getElem _ _ hlt]
    exact List.getElem_mem hlt
  generalize y.liveCores.getD (n % y.liveCores.length) 0 = c at hmem ⊢
  obtain ⟨hc, hacts⟩ := List.mem_filter.1 hmem
  exact ⟨⟨c, List.mem_range.1 hc⟩, hacts, rfl⟩

/-- The first two dwords of a message of three. -/
theorem data_of_three (a b c : Word) (m : FMap Word) :
    FMap.get 0 0 (FMap.putAll 0 0 [a, b, c] m) = a ∧ FMap.get 0 1 (FMap.putAll 0 0 [a, b, c] m) = b := by
  simp only [FMap.putAll]
  refine ⟨?_, ?_⟩
  · rw [FMap.get_put_ne 0 (by decide), FMap.get_put_ne 0 (by decide), FMap.get_put_self]
  · rw [FMap.get_put_ne 0 (by decide), FMap.get_put_self]

/-- A tenant that has agreed version `v` with the agent, whose answer from core `c` waits on DOWN. -/
def Sys.agreed (i c : Nat) (v : Nat × Nat) (ack : FMap Word) (y : Sys) : Sys :=
  ((({ y with fresh := y.fresh + 1 } : Sys).updInst i fun n =>
    { n with up := { n.up with go := false }, dn := { n.dn with go := true, len := 3, sender := c + 1, data := ack } }).updInst i fun n =>
      { n with st := .running, vivMaj := v.1, vivMin := v.2 })

theorem vivelHello_agrees {y : Sys} {i : Nat} {v : Nat × Nat} (hgo : (y.inst i).up.go = true) (hto : y.toAgent i (y.inst i).up = true)
    (hcores : y.liveCores ≠ []) (hdn : (y.inst i).dn.go = false) (hlock : (y.inst i).lock = 0) (hst : (y.inst i).st = .created)
    (hv : y.vivelFor i ((FMap.get 0 1 (y.inst i).up.data).fld 15 8, (FMap.get 0 1 (y.inst i).up.data).fld 7 0)
      ((FMap.get 0 1 (y.inst i).up.data).fld 31 24, (FMap.get 0 1 (y.inst i).up.data).fld 23 16) = some v) :
    ∃ (k : Fin 16) (ack : FMap Word), y.coreActs k = true ∧ y.vivelHello i = (y.agreed i k v ack).dnEvent i ∧
      FMap.get 0 0 ack = Word.ofN (2 + (FMap.get 0 0 (y.inst i).up.data).fld 31 16 * 65536) ∧
      FMap.get 0 1 ack = Word.ofN (v.2 * 256 + v.1 * 65536) := by
  obtain ⟨k, hacts, hk⟩ := liveCores_choice hcores (Config.freeWord y.fresh).toNat
  obtain ⟨h0, h1⟩ := data_of_three (Word.ofN (2 + (FMap.get 0 0 (y.inst i).up.data).fld 31 16 * 65536)) (Word.ofN (0 + v.2 * 256 + v.1 * 65536))
    (Word.ofN (i + (y.inst i).maxSub * 65536 + (y.inst i).maxCmp * 16777216)) (y.inst i).dn.data
  refine ⟨k, _, hacts, ?_, h0, by rw [h1, Nat.zero_add]⟩
  have hlen : 0 < y.liveCores.length := List.length_pos_iff.2 hcores
  have hr : Sys.vivelFor { y with fresh := y.fresh + 1 } i
      ((FMap.get 0 1 (y.inst i).up.data).fld 15 8, (FMap.get 0 1 (y.inst i).up.data).fld 7 0)
      ((FMap.get 0 1 (y.inst i).up.data).fld 31 24, (FMap.get 0 1 (y.inst i).up.data).fld 23 16) = some v := hv
  unfold Sys.vivelHello
  dsimp only
  rw [if_neg (by simp [hgo, hto, hst, hlen, hdn, hlock]), hk, hr, hst]
  rfl

theorem agreed_inst (i c : Nat) (v : Nat × Nat) (ack : FMap Word) (y : Sys) : (y.agreed i c v ack).inst i =
    { y.inst i with
      st := .running, vivMaj := v.1, vivMin := v.2, up := { (y.inst i).up with go := false },
      dn := { (y.inst i).dn with go := true, len := 3, sender := c + 1, data := ack } } := by
  unfold Sys.agreed
  rw [updInst_inst_self, updInst_inst_self]
  rfl

/-! ## Messages -/

theorem target_msgs {i o : Nat} (h : o < 0x1000) : target .tenant (i * 0x4000 + 0x3000 + o) = .msgs i o := by
  have hdiv : (i * 0x4000 + 0x3000 + o) / 0x4000 = i := by omega
  have hmod : (i * 0x4000 + 0x3000 + o) % 0x4000 = 0x3000 + o := by omega
  unfold target
  dsimp only
  rw [hdiv, hmod, if_neg (by omega), if_neg (by omega), if_neg (by omega), Nat.add_sub_cancel_left]

theorem target_msix {o : Nat} (h : o < 0x1000) : target .manager (0xFE000 + o) = .msix o := by
  unfold target
  dsimp only
  rw [if_pos ⟨by omega, by omega⟩, Nat.add_sub_cancel_left]

/-- Entry `e`'s message with its mask clear. -/
def Sys.msgOpen (i e : Nat) (y : Sys) : Sys :=
  y.updInst i fun n => { n with msgs := FMap.upd {} e (fun m => { m with mask := false }) n.msgs }

theorem msgOpen_entry (i e : Nat) (y : Sys) :
    FMap.get {} e ((y.msgOpen i e).inst i).msgs = { FMap.get {} e (y.inst i).msgs with mask := false } := by
  unfold Sys.msgOpen
  rw [updInst_inst_self]
  exact FMap.get_upd_self ({} : MsgEnt) e (fun m => { m with mask := false }) _

theorem doMsgUnmask_eq {y : Sys} {i e : Nat} (he : e < 4) (h : y.instLets i (0x300C + 16 * e) = true) :
    doMsgUnmask i e y = if (FMap.get {} e (y.inst i).msgs).pend then (y.msgOpen i e).sendMsg i e else y.msgOpen i e := by
  have hoff : i * 0x4000 + 0x300C + 16 * e = i * 0x4000 + 0x3000 + (0xC + 16 * e) := by omega
  have hlets : y.instLets i (0x3000 + (0xC + 16 * e)) = true := by
    rw [show 0x3000 + (0xC + 16 * e) = 0x300C + 16 * e by omega]
    exact h
  have hpend : (FMap.get {} e ((y.msgOpen i e).inst i).msgs).pend = (FMap.get {} e (y.inst i).msgs).pend := by rw [msgOpen_entry]
  unfold doMsgUnmask doRegWrite
  rw [hoff, target_msgs (by omega)]
  dsimp only
  rw [if_neg (by omega), Sys.viaSub, if_pos hlets]
  unfold Sys.wrMsgs
  dsimp only
  rw [if_neg (by omega), show (0xC + 16 * e) % 16 / 4 = 3 by omega, show (0xC + 16 * e) / 16 = e by omega]
  show (if !((0 : Word).bit 0) && (FMap.get {} e ((y.msgOpen i e).inst i).msgs).pend then (y.msgOpen i e).sendMsg i e else y.msgOpen i e) = _
  rw [hpend]
  rfl

/-- A message that may leave the chip. -/
theorem sendMsg_sends {y : Sys} {i e : Nat} (hmask : (FMap.get {} e (y.inst i).msgs).mask = false)
    (haddr : (FMap.get {} e (y.inst i).msgs).lo ≠ 0 ∨ (FMap.get {} e (y.inst i).msgs).hi ≠ 0) (hf : y.contain.chipFault = false)
    (hh : y.hostOn = true) (hp : y.pins.pasidEn = true) :
    FMap.get {} e ((y.sendMsg i e).inst i).msgs =
      { FMap.get {} e (y.inst i).msgs with sent := satInc 65535 (FMap.get {} e (y.inst i).msgs).sent, pend := false } ∧
    (y.sendMsg i e).out = .msg { inst := i, pasid := (y.inst i).pasid } (lohi (FMap.get {} e (y.inst i).msgs).lo (FMap.get {} e (y.inst i).msgs).hi)
      (FMap.get {} e (y.inst i).msgs).data :: y.out := by
  have hzero : ((FMap.get {} e (y.inst i).msgs).lo == 0 && (FMap.get {} e (y.inst i).msgs).hi == 0) = false := by
    rw [Bool.and_eq_false_iff]
    exact haddr.imp (fun h => by simpa using h) (fun h => by simpa using h)
  have hself : FMap.get {} e ((y.updInst i fun n => { n with
      msgs := FMap.upd {} e (fun m => { m with sent := satInc 65535 m.sent, pend := false }) n.msgs }).inst i).msgs =
      { FMap.get {} e (y.inst i).msgs with sent := satInc 65535 (FMap.get {} e (y.inst i).msgs).sent, pend := false } := by
    rw [updInst_inst_self]
    exact FMap.get_upd_self ({} : MsgEnt) e (fun m => { m with sent := satInc 65535 m.sent, pend := false }) _
  unfold Sys.sendMsg
  dsimp only
  rw [if_neg (Bool.eq_false_iff.1 hmask), if_neg (Bool.eq_false_iff.1 hzero), if_neg (Bool.eq_false_iff.1 hf), if_neg (by simp [hh, hp])]
  rw [emit_sent _ (y := y.updInst i fun n => { n with
      msgs := FMap.upd {} e (fun m => { m with sent := satInc 65535 m.sent, pend := false }) n.msgs }) hf hh hp]
  exact ⟨hself, rfl⟩

theorem doMsixUnmask_eq {y : Sys} {v : Nat} (hv : v < 64) (h : y.pageLets .manager (onePg .hst 0) 0x40 false = true) :
    doMsixUnmask v y = if FMap.get false v y.host.msixPend then
      Sys.msix v { y.setReg (0xFE00C + 16 * v) 0 with host := { y.host with msixPend := FMap.put false v false y.host.msixPend } }
      else y.setReg (0xFE00C + 16 * v) 0 := by
  have hoff : 0xFE00C + 16 * v = 0xFE000 + (0xC + 16 * v) := by omega
  have hzero : (0 : Word) &&& 1#32 = 0 := by decide
  unfold doMsixUnmask doRegWrite
  rw [hoff, target_msix (by omega)]
  dsimp only
  rw [if_neg (by omega), show ∀ a f, y.viaMsix .manager a false f = f y from fun _ _ => if_pos h]
  unfold Sys.wrMsix
  dsimp only
  rw [if_neg (by omega), if_pos (by omega), show (0xC + 16 * v) / 16 = v by omega, hzero, show (0 : Word).bit 0 = false from rfl]
  rfl

theorem pageLets_manager {y : Sys} {g : Pg} {o : Nat} (h : y.pageLets .manager g o false = true) (hg : (g.region == 10) = false) :
    y.hostOn = true ∧ y.contain.chipFault = false := by
  simp only [Sys.pageLets, Bool.and_eq_true, Bool.false_or, Bool.or_eq_true, hg] at h
  obtain ⟨⟨hh, hf⟩, -⟩ := h
  exact ⟨hh, by simpa using hf⟩

/-- A message that waits behind its mask leaves the chip when the mask is cleared. -/
theorem msix_goes {y : Sys} {v : Nat} (hmask : y.reg (0xFE00C + 16 * v) = 0) (hh : y.hostOn = true) (hf : y.contain.chipFault = false) :
    (y.msix v).reg (0xFE00C + 16 * v) = 0 ∧ (y.msix v).host = y.host ∧ (y.msix v).out = .msix v :: y.out := by
  have hreg : (y.msix v).reg (0xFE00C + 16 * v) = 0 := (msix_reg (by omega) _ _).trans hmask
  have hgo : y.msix v = { y.incFld (onePg .imu 0) 0x44 31 16 with out := .msix v :: y.out } := by
    unfold Sys.msix
    rw [show 0xFE000 + 16 * v + 12 = 0xFE00C + 16 * v by omega, hmask, if_neg (by decide), if_pos (by simp [hh, hf])]
    exact emit_host (y := y.incFld (onePg .imu 0) 0x44 31 16) rfl hf hh
  refine ⟨hreg, ?_, ?_⟩
  · rw [hgo]; rfl
  · rw [hgo]

/-! ## Internal mailboxes -/

/-- A master that reaches a channel's register acts on it. -/
theorem viaMaster_reaches {y : Sys} {j m o : Nat} {r : Bool} (h : y.reaches j m o r = true) (f : Sys → Sys) : y.viaMaster j m o r f = f y := by
  obtain ⟨hno, hway⟩ : y.noRecv j = false ∧ _ := by simpa only [Sys.reaches, Bool.and_eq_true, Bool.not_eq_true'] using h
  unfold Sys.viaMaster
  dsimp only
  by_cases h18 : m = 18
  · rw [if_pos h18] at hway ⊢
    rw [viaPage_lets hway, if_neg (Bool.eq_false_iff.1 hno)]
  · rw [if_neg h18] at hway ⊢
    by_cases hc : 1 ≤ m ∧ m ≤ 16
    · rw [dif_pos hc] at hway ⊢
      rw [viaPage_lets hway, if_neg (Bool.eq_false_iff.1 hno)]
    · rw [dif_neg hc] at hway ⊢
      simp only [Bool.and_eq_true, decide_eq_true_eq, Bool.not_eq_true'] at hway
      obtain ⟨⟨⟨⟨h0, hhalt⟩, hon⟩, hf⟩, hdown⟩ := hway
      rw [if_neg (by simp [h0, hhalt, hon, hf]; simpa using hdown), if_neg (Bool.eq_false_iff.1 hno)]

theorem mbxWrite_own {y : Sys} {j m : Nat} (h : (y.mbx j).lock = 0 ∨ (y.mbx j).lock = m) (f : Sys → Sys) : y.mbxWrite j m f = f y := by
  unfold Sys.mbxWrite
  rw [if_neg (by omega)]

theorem mbxWrite_locked {y : Sys} {j m : Nat} (h0 : (y.mbx j).lock ≠ 0) (hm : (y.mbx j).lock ≠ m) (f : Sys → Sys) :
    y.mbxWrite j m f = y.recordErr (mbxPg j) 8 j := by
  unfold Sys.mbxWrite
  rw [if_pos ⟨h0, hm⟩]

theorem updMbx_mbx_self (j : Nat) (f : Mbx → Mbx) (y : Sys) : (y.updMbx j f).mbx j = f (y.mbx j) := FMap.get_upd_self _ _ _ _

theorem updMbx_mbx_ne {j k : Nat} (h : k ≠ j) (f : Mbx → Mbx) (y : Sys) : (y.updMbx j f).mbx k = y.mbx k := FMap.get_upd_ne _ h _ _

theorem mbx_of_mailKept {y t : Sys} (h : y.MailKept t) (j : Nat) : t.mbx j = y.mbx j := by rw [Sys.mbx, h.1]; rfl

/-- A post is no eligible event of a page with nothing armed, nor one that changes no channel. -/
theorem mbxPostC_of {y z : Sys} {j m len : Nat} (hz : doMbxPost j m len y = z) (h : z.eng.mbx = y.eng.mbx ∨ z.unarmed (mbxPg j) = true) :
    doMbxPostC j m len y = z := by
  unfold doMbxPostC
  dsimp only
  rw [hz]
  split
  · rfl
  · next hne => exact carry_unarmed (h.resolve_left hne)

/-- A channel as a sender's post leaves it. -/
def Sys.mbxSent (j m len : Nat) (y : Sys) : Sys :=
  (y.updMbx j fun c => { c with ch := c.ch.setLen len }).updMbx j fun c => { c with ch := { c.ch with go := true, sender := m } }

theorem mbxSent_self {j m len : Nat} (h1 : 1 ≤ len) (h16 : len ≤ 16) (y : Sys) :
    (y.mbxSent j m len).mbx j = { y.mbx j with ch := { (y.mbx j).ch with go := true, sender := m, len := len } } := by
  unfold Sys.mbxSent
  rw [updMbx_mbx_self, updMbx_mbx_self, setLen_valid h1 h16]

theorem mbxSent_ne {j k m len : Nat} (h : k ≠ j) (y : Sys) : (y.mbxSent j m len).mbx k = y.mbx k :=
  (updMbx_mbx_ne h _ _).trans (updMbx_mbx_ne h _ _)

theorem mbxSend_idle {y : Sys} {j m len : Nat} (hr : (y.mbx j).recv ≠ 0) (hgo : (y.mbx j).ch.go = false) :
    ∃ e first, y.mbxSend j m true len = (y.mbxSent j m len).mbxTell j e first := by
  unfold Sys.mbxSend
  dsimp only
  rw [if_neg hr, if_neg (Bool.eq_false_iff.1 hgo), if_pos rfl]
  exact ⟨_, _, rfl⟩

theorem mbxPost_sends {y : Sys} {j m len : Nat} (hreach : y.reaches j m 0 false = true) (hr : (y.mbx j).recv ≠ 0) (hm : m ≠ (y.mbx j).recv)
    (hlock : (y.mbx j).lock = 0 ∨ (y.mbx j).lock = m) (hgo : (y.mbx j).ch.go = false) (h1 : 1 ≤ len) (h16 : len ≤ 16)
    (hu : y.unarmed (mbxPg j) = true) :
    (∀ k, k ≠ j → (doMbxPostC j m len y).mbx k = y.mbx k) ∧
    (doMbxPostC j m len y).mbx j = { y.mbx j with ch := { (y.mbx j).ch with go := true, sender := m, len := len } } := by
  obtain ⟨e, first, hsend⟩ := mbxSend_idle (m := m) (len := len) hr hgo
  have hpost : doMbxPost j m len y = (y.mbxSent j m len).mbxTell j e first := by
    unfold doMbxPost
    rw [viaMaster_reaches hreach, mbxWrite_own hlock, if_neg hm, hsend]
  have hself := mbxSent_self (j := j) (m := m) h1 h16 y
  have hne := fun k (hk : k ≠ j) => mbxSent_ne (m := m) (len := len) hk y
  have hun : (y.mbxSent j m len).unarmed (mbxPg j) = true := (unarmed_of_regs rfl _).trans hu
  generalize y.mbxSent j m len = z at hpost hself hne hun
  have hkept := mailKept_mbxTell j e first z
  rw [mbxPostC_of hpost (.inr ((hkept.unarmed_mbx j).trans hun))]
  exact ⟨fun k hk => (mbx_of_mailKept hkept k).trans (hne k hk), (mbx_of_mailKept hkept j).trans hself⟩

/-- What an error recorded on a mailbox page leaves. -/
theorem mbxErr_stat (j b d : Nat) (y : Sys) : y.reportsOnly (y.recordErr (mbxPg j) b d) ∧
    (y.recordErr (mbxPg j) b d).pgReg (mbxPg j) 0x18 = (y.pgReg (mbxPg j) 0x18).put b b 1 :=
  ⟨reportsOnly_recordErr _ _ _ _, recordErr_stat _ _ _ _⟩

theorem mbx_of_reports {y t : Sys} (h : y.reportsOnly t) : t.eng.mbx = y.eng.mbx := by
  unfold Sys.reportsOnly at h
  rw [h]

theorem mbxPost_receiver {y : Sys} {j m : Nat} (hreach : y.reaches j m 0 false = true) (hm : m = (y.mbx j).recv)
    (hlock : (y.mbx j).lock = 0 ∨ (y.mbx j).lock = m) (len : Nat) : doMbxPostC j m len y = y.recordErr (mbxPg j) 4 0 := by
  refine mbxPostC_of ?_ (.inl (mbx_of_reports (reportsOnly_recordErr _ _ _ _)))
  unfold doMbxPost
  rw [viaMaster_reaches hreach, mbxWrite_own hlock, if_pos hm]
  rfl

theorem mbxPost_locked {y : Sys} {j m : Nat} (hreach : y.reaches j m 0 false = true) (h0 : (y.mbx j).lock ≠ 0) (hm : (y.mbx j).lock ≠ m)
    (len : Nat) : doMbxPostC j m len y = y.recordErr (mbxPg j) 8 j := by
  refine mbxPostC_of ?_ (.inl (mbx_of_reports (reportsOnly_recordErr _ _ _ _)))
  unfold doMbxPost
  rw [viaMaster_reaches hreach, mbxWrite_locked h0 hm]

theorem mbxFree_receiver {y : Sys} {j m : Nat} (hreach : y.reaches j m 0 false = true) (hm : m = (y.mbx j).recv)
    (hlock : (y.mbx j).lock = 0 ∨ (y.mbx j).lock = m) : doMbxFree j m y = y.updMbx j fun c => { c with ch := { c.ch with go := false } } := by
  unfold doMbxFree
  rw [viaMaster_reaches hreach, mbxWrite_own hlock, if_pos hm]
  simp [Sys.mbxRecv]

theorem mbxFree_sender {y : Sys} {j m : Nat} (hreach : y.reaches j m 0 false = true) (hm : m ≠ (y.mbx j).recv)
    (hlock : (y.mbx j).lock = 0 ∨ (y.mbx j).lock = m) : doMbxFree j m y = y.recordErr (mbxPg j) 4 0 := by
  unfold doMbxFree
  rw [viaMaster_reaches hreach, mbxWrite_own hlock, if_neg hm]
  rfl

theorem mbxFree_locked {y : Sys} {j m : Nat} (hreach : y.reaches j m 0 false = true) (h0 : (y.mbx j).lock ≠ 0) (hm : (y.mbx j).lock ≠ m) :
    doMbxFree j m y = y.recordErr (mbxPg j) 8 j := by
  unfold doMbxFree
  rw [viaMaster_reaches hreach, mbxWrite_locked h0 hm]

theorem mbxLockRead_eq (y : Sys) (j m : Nat) : y.mbxLockRead j m =
    (if (y.mbx j).lock = m then 0 else (y.mbx j).lock, if (y.mbx j).lock = 0 then y.updMbx j fun c => { c with lock := m } else y) := by
  unfold Sys.mbxLockRead
  dsimp only
  by_cases h0 : (y.mbx j).lock = 0
  · rw [if_pos h0, if_pos h0, h0]
    split <;> rfl
  · rw [if_neg h0, if_neg h0]
    split <;> rfl

theorem mbxLock_acquires {y : Sys} {j m : Nat} (hreach : y.reaches j m 4 true = true) :
    (∀ k, k ≠ j → (doMbxLock j m y).mbx k = y.mbx k) ∧
    (doMbxLock j m y).mbx j = { y.mbx j with lock := (if (y.mbx j).lock = 0 then m else (y.mbx j).lock) } ∧
    ∃ org off, (doMbxLock j m y).out = .cpl org off (Word.ofN (if (y.mbx j).lock = m then 0 else (y.mbx j).lock)) :: y.out := by
  unfold doMbxLock
  rw [viaMaster_reaches hreach, mbxLockRead_eq]
  dsimp only
  by_cases h0 : (y.mbx j).lock = 0
  · rw [if_pos h0, if_pos h0]
    exact ⟨fun k hk => updMbx_mbx_ne hk _ _, updMbx_mbx_self _ _ _, _, _, rfl⟩
  · rw [if_neg h0, if_neg h0]
    exact ⟨fun _ _ => rfl, rfl, _, _, rfl⟩

theorem mbxUnlock_eq {y : Sys} {j m : Nat} (hreach : y.reaches j m 4 false = true) :
    doMbxUnlock j m y = if (y.mbx j).lock = m then y.updMbx j fun c => { c with lock := 0 } else y := by
  unfold doMbxUnlock
  rw [viaMaster_reaches hreach]
  simp [Sys.mbxLockWrite]

/-- Settles O49: the tenants' mailboxes, the agent, the messages and the internal mailboxes, each access by what it finds. -/
theorem messagesArePostedAndFreed : Obligations.messages_are_posted_and_freed := by
  unfold Obligations.messages_are_posted_and_freed
  refine ⟨fun s i len hserves => ?_, fun s i org hserves ho => ?_, fun s i v hops hf => ?_, fun s i e hserves hl => ?_, fun s v hserves hp => ?_,
    fun s j m hserves => ?_⟩
  · dsimp only
    refine ⟨fun hl => ⟨fun hgo => ?_, fun hgo hagent h1 h16 hu => ?_⟩, fun hl => ?_⟩
    · exact (exec_win (execTmbPost i .tenant len) rfl rfl hserves).trans (by rw [tmbPost_busy hl hgo])
    · exact does_win (execTmbPost i .tenant len) rfl rfl hserves (tmbPost_up hl hgo hagent h1 h16 hu)
    · exact (exec_win (execTmbFree i .tenant) rfl rfl hserves).trans (by rw [doTmbFree, Sys.viaMbox, if_pos hl, dnFree_eq])
  · dsimp only
    refine ⟨fun len hp => ⟨fun hlock hgo h1 h16 hst hh hf hu => ?_, fun h0 hm => ?_⟩, fun hp => ?_, fun hp => ?_, fun hp => ?_⟩
    · exact does_win (execTmbPost i org len) rfl rfl hserves (tmbPost_down ho hp hlock hgo h1 h16 hst hh hf hu)
    · exact does_win_eq (execTmbPost i org len) rfl rfl hserves (tmbPost_locked ho hp h0 hm)
        ⟨reportsOnly_recordErr _ _ _ _, recordErr_stat _ _ _ _⟩
    · exact (exec_win (execTmbFree i org) rfl rfl hserves).trans (by rw [tmbFree_master ho hp])
    · exact (exec_win (execTmbDnLockAcquire i org) rfl rfl hserves).trans (by rw [dnLockAcquire_eq ho hp])
    · exact (exec_win (execTmbDnLockRelease i org) rfl rfl hserves).trans (by rw [dnLockRelease_eq ho hp])
  · dsimp only
    intro hgo hto hcores hdn hlock hst hv hret
    obtain ⟨k, ack, hacts, heq, h0, h1⟩ := vivelHello_agrees hgo hto hcores hdn hlock hst hv
    have hself := agreed_inst i k v ack s.sys
    have hkept : (s.sys.agreed i k v ack).contain = s.sys.contain ∧ (s.sys.agreed i k v ack).isRet 16 = s.sys.isRet 16 ∧
        (s.sys.agreed i k v ack).host.evq = s.sys.host.evq := ⟨rfl, rfl, rfl⟩
    obtain ⟨hcon, hr, hevq⟩ := hkept
    generalize s.sys.agreed i k v ack = z at heq hself hcon hr hevq
    rw [dnEvent_running (by rw [hcon]; exact hf) (by rw [hself]) (hr.trans hret)] at heq
    refine does_live_eq (execVivelHello i) rfl rfl hops heq ?_
    have hinst : ∀ l, Sys.inst { z with host := { z.host with evq := l } } i = z.inst i := fun _ => rfl
    dsimp only
    rw [hinst, hself]
    refine ⟨rfl, rfl, rfl, rfl, rfl, ⟨k, hacts, rfl⟩, h0, h1, z.ev 0xB 0 0 0 (mailDws i 1 false (z.inst i).dn), rfl, ?_⟩
    rw [← hself]
    unfold Sys.evAdded
    dsimp only
    rw [hevq]
    rfl
  · dsimp only
    obtain ⟨hh, hf⟩ := instLets_live hl
    have heq := doMsgUnmask_eq e.isLt hl
    have hent := msgOpen_entry i e s.sys
    refine ⟨fun hpend => ?_, fun hpend haddr hp => ?_⟩
    · rw [hpend] at heq
      exact does_win_eq (execMsgUnmask i e) rfl rfl hserves heq ⟨hent, rfl⟩
    · rw [hpend] at heq
      obtain ⟨hm, hout⟩ := sendMsg_sends (y := s.sys.msgOpen i e) (i := i) (e := e) (by rw [hent]) (by rw [hent]; exact haddr) hf hh hp
      refine does_win_eq (execMsgUnmask i e) rfl rfl hserves heq ⟨hm.trans (by rw [hent]), hout.trans ?_⟩
      rw [hent]
      have hpasid : ((s.sys.msgOpen i e).inst i).pasid = (s.sys.inst i).pasid := by
        rw [Sys.msgOpen, updInst_inst_self]
      rw [hpasid]
      rfl
  · obtain ⟨hh, hf⟩ := pageLets_manager hp rfl
    have heq := doMsixUnmask_eq v.isLt hp
    refine ⟨fun hpend => ?_, fun hpend => ?_⟩
    · rw [hpend] at heq
      exact does_win_eq (execMsixUnmask v) rfl rfl hserves heq ⟨reg_setReg_self _ _ _, rfl⟩
    · rw [hpend] at heq
      obtain ⟨hreg, hhost, hout⟩ := msix_goes (v := v)
        (y := { s.sys.setReg (0xFE00C + 16 * v) 0 with host := { s.sys.host with msixPend := FMap.put false v false s.sys.host.msixPend } })
        (reg_setReg_self _ _ s.sys) hh hf
      refine does_win_eq (execMsixUnmask v) rfl rfl hserves heq ⟨hreg, ?_, hout⟩
      rw [if_pos rfl, hhost]
      exact FMap.get_put_self false v false _
  · dsimp only
    refine ⟨fun len hreach => ⟨fun hr hm hlock hgo h1 h16 hu => ?_, fun hm hlock => ?_⟩, fun hreach => ⟨fun hm hlock => ?_, fun hm hlock => ?_⟩,
      fun hreach h0 hm len o ho => ?_, fun hreach => ?_, fun hreach => ?_⟩
    · exact does_win (execMbxPost j m len) rfl rfl hserves (mbxPost_sends hreach hr hm hlock hgo h1 h16 hu)
    · exact does_win_eq (execMbxPost j m len) rfl rfl hserves (mbxPost_receiver hreach hm hlock len) (mbxErr_stat j 4 0 s.sys)
    · exact (exec_win (execMbxFree j m) rfl rfl hserves).trans (by rw [mbxFree_receiver hreach hm hlock])
    · exact does_win_eq (execMbxFree j m) rfl rfl hserves (mbxFree_sender hreach hm hlock) (mbxErr_stat j 4 0 s.sys)
    · simp only [List.mem_cons, List.not_mem_nil, or_false] at ho
      rcases ho with rfl | rfl
      · exact does_win_eq (execMbxPost j m len) rfl rfl hserves (mbxPost_locked hreach h0 hm len) (mbxErr_stat j 8 j s.sys)
      · exact does_win_eq (execMbxFree j m) rfl rfl hserves (mbxFree_locked hreach h0 hm) (mbxErr_stat j 8 j s.sys)
    · exact does_win (execMbxLockAcquire j m) rfl rfl hserves (mbxLock_acquires hreach)
    · exact (exec_win (execMbxLockRelease j m) rfl rfl hserves).trans (by rw [mbxUnlock_eq hreach])

end Sys2Proof.Machine

/-! SUPPORT. Suspend and resume (R309-R316): what the events and requests of a resume leave of the ports. -/

namespace Sys2Proof.Machine

/-! ## What leaves the ports alone -/

/-- The ports' own records, their power, the enumerations, the domains and Decust's commands have not changed. -/
def Sys.PortsKept (y t : Sys) : Prop :=
  t.usb.ports = y.usb.ports ∧ t.host.decust.cmds = y.host.decust.cmds ∧ t.usb.power = y.usb.power ∧ t.doms = y.doms ∧
    t.usb.enums = y.usb.enums

theorem portsKept_refl (y : Sys) : y.PortsKept y := ⟨rfl, rfl, rfl, rfl, rfl⟩

theorem Sys.PortsKept.trans {y z t : Sys} (h : y.PortsKept z) (k : z.PortsKept t) : y.PortsKept t := by
  obtain ⟨h1, h2, h3, h4, h5⟩ := h
  obtain ⟨k1, k2, k3, k4, k5⟩ := k
  exact ⟨k1.trans h1, k2.trans h2, k3.trans h3, k4.trans h4, k5.trans h5⟩

theorem Sys.PortsKept.ite {y t t' : Sys} {p : Prop} [Decidable p] (h : y.PortsKept t) (k : y.PortsKept t') : y.PortsKept (if p then t else t') := by
  split <;> assumption

theorem Sys.PortsKept.port {y t : Sys} (h : y.PortsKept t) (p : Nat) : t.port p = y.port p := by
  rw [Sys.port, h.1]
  rfl

theorem portsKept_each {α : Type} {f : α → Sys → Sys} (l : List α) (h : ∀ a (y : Sys), y.PortsKept (f a y)) (y : Sys) :
    y.PortsKept (each f l y) :=
  each_keeps (P := y.PortsKept) l (fun a _ z hz => hz.trans (h a z)) (portsKept_refl y)

theorem portsKept_reports {y t : Sys} (h : y.reportsOnly t) : y.PortsKept t := by
  unfold Sys.reportsOnly at h
  exact ⟨by rw [h], by rw [h], by rw [h], by rw [h], by rw [h]⟩

theorem portsKept_emit (o : Out) (y : Sys) : y.PortsKept (y.emit o) :=
  .ite (.ite (portsKept_refl y) (.ite (portsKept_refl y) (.ite (portsKept_refl y) (portsKept_refl y)))) (portsKept_refl y)

theorem portsKept_updDec {f : Decust → Decust} (hf : ∀ d, (f d).cmds = d.cmds) (y : Sys) : y.PortsKept (y.updDec f) := ⟨rfl, hf _, rfl, rfl, rfl⟩

theorem portsKept_setReg (o : Nat) (v : Word) (y : Sys) : y.PortsKept (y.setReg o v) := ⟨rfl, rfl, rfl, rfl, rfl⟩

theorem portsKept_meqPut (kind : Nat) (rec : List Word) (y : Sys) : y.PortsKept (y.meqPut kind rec) := by
  unfold Sys.meqPut
  exact (portsKept_emit _ y).trans (portsKept_setReg _ _ _)

theorem portsKept_meqEvent (v : Option Nat) (e : Ev) (y : Sys) : y.PortsKept (y.meqEvent v e) := by
  have hput : y.PortsKept (y.meqPutEv e) := by
    unfold Sys.meqPutEv
    exact (portsKept_meqPut _ _ y).trans (portsKept_updDec (fun _ => rfl) _)
  have hrec : y.PortsKept ((y.incFld tenPg 0x7C 15 0).recordErr tenPg 9 0) :=
    (portsKept_setReg _ _ y).trans (portsKept_reports (reportsOnly_recordErr _ _ _ _))
  unfold Sys.meqEvent
  split_ifs
  · exact portsKept_refl y
  · exact hput.trans (portsKept_reports (reportsOnly_msix _ _))
  · exact portsKept_updDec (fun _ => rfl) y
  · exact hrec.trans (portsKept_updDec (fun _ => rfl) _)

theorem portsKept_tenantEvent (i : Nat) (e : Ev) (y : Sys) : y.PortsKept (y.tenantEvent i e) := by
  unfold Sys.tenantEvent
  refine .ite (portsKept_refl y) ?_
  split
  · exact portsKept_refl y
  · exact portsKept_refl y
  · exact ⟨rfl, rfl, rfl, rfl, rfl⟩
  · exact .ite (portsKept_refl y) ⟨rfl, rfl, rfl, rfl, rfl⟩

/-! ## Requests of the chip's own -/

/-- Sending a request of the chip's own changes no register, no port and no frame. -/
def Sys.SendOnly (y t : Sys) : Prop := y.PortsKept t ∧ t.regs = y.regs ∧ t.usb.frame = y.usb.frame ∧ t.out = y.out

theorem sendOnly_refl (y : Sys) : y.SendOnly y := ⟨portsKept_refl y, rfl, rfl, rfl⟩

theorem Sys.SendOnly.trans {y z t : Sys} (h : y.SendOnly z) (k : z.SendOnly t) : y.SendOnly t :=
  ⟨h.1.trans k.1, k.2.1.trans h.2.1, k.2.2.1.trans h.2.2.1, k.2.2.2.trans h.2.2.2⟩

theorem sendOnly_ctlIssue (r : CReq) (y : Sys) : y.SendOnly (y.ctlIssue r) := by
  have hnow : y.SendOnly (y.issueNow r) := by
    unfold Sys.issueNow
    dsimp only
    split
    · exact ⟨portsKept_refl y, rfl, rfl, rfl⟩
    · exact ⟨portsKept_refl y, rfl, rfl, rfl⟩
  unfold Sys.ctlIssue
  split
  · exact hnow
  · exact ⟨portsKept_refl y, rfl, rfl, rfl⟩

theorem sendOnly_armWake (p t : Nat) (y : Sys) : y.SendOnly (y.armWake p t) :=
  each_keeps (P := y.SendOnly) _ (fun n _ z hz => by
    dsimp only
    split
    · exact hz.trans (sendOnly_ctlIssue _ z)
    · exact hz) (sendOnly_refl y)

theorem portsKept_fifo {y t : Sys} (h : y.FifoOnly t) : y.PortsKept t := by
  obtain ⟨m, rfl⟩ := h
  exact ⟨rfl, rfl, rfl, rfl, rfl⟩

theorem portsKept_xferLeaves (x : Xfer) (y : Sys) : y.PortsKept (y.xferLeaves x) := by
  have hrsv : ∀ z : Sys, z.PortsKept (z.rsvFree x.port x) := fun z => .ite (portsKept_refl z) ⟨rfl, rfl, rfl, rfl, rfl⟩
  unfold Sys.xferLeaves
  dsimp only
  split
  · exact portsKept_fifo ((fifoOnly_updFifo _ _ _).trans (fifoOnly_reclaimTx _ _))
  · exact ((portsKept_fifo ((fifoOnly_updFifo _ _ _).trans (fifoOnly_reclaimTx _ _))).trans (hrsv _)).trans ⟨rfl, rfl, rfl, rfl, rfl⟩

theorem portsKept_chipOver (sel : Xfer → Bool) (y : Sys) : y.PortsKept (y.chipOver sel) :=
  portsKept_each _ (fun x y => by
    dsimp only
    split
    · exact .trans ⟨rfl, rfl, rfl, rfl, rfl⟩ (portsKept_xferLeaves _ _)
    · exact .trans ⟨rfl, rfl, rfl, rfl, rfl⟩ (portsKept_xferLeaves _ _)) y

theorem portsKept_issue (o p t : Nat) (setup data : List Byte) (y : Sys) : y.PortsKept (y.issue o p t setup data) := by
  have hover : y.PortsKept ((y.updHolly fun h =>
      { h with ctl := h.ctl.filter (· != (o, p, t)),
               ctlWait := h.ctlWait.filter fun w => w.free || !(w.own == o && w.port == p && w.tier == t) }).chipDone o p t) :=
    .trans ⟨rfl, rfl, rfl, rfl, rfl⟩ (portsKept_chipOver _ _)
  exact hover.trans (sendOnly_ctlIssue _ _).1

theorem portsKept_issueReq (n : Nat) (y : Sys) : y.PortsKept (y.issueReq n) := by
  unfold Sys.issueReq
  dsimp only
  split
  · exact portsKept_issue _ _ _ _ _ y
  · exact portsKept_refl y

theorem portsKept_releaseOwed (n : Nat) (y : Sys) : y.PortsKept (y.releaseOwed n) := by
  have hreq : ∀ (r : PReq) (z : Sys), z.PortsKept (z.persReq n r) := fun r z =>
    .ite (.trans ⟨rfl, rfl, rfl, rfl, rfl⟩ (portsKept_issueReq n _)) ⟨rfl, rfl, rfl, rfl, rfl⟩
  exact .ite (.trans ⟨rfl, rfl, rfl, rfl, rfl⟩ (hreq .kickRelease _)) (portsKept_refl y)

/-! ## The end of a resume -/

theorem decWake_none {y : Sys} (h : y.host.decust.cmds = []) (sel : CWait → Bool) (st : Nat) (res : List Word) : y.decWake sel st res = y := by
  rw [Sys.decWake, h]
  rfl

theorem portsKept_resumeDone {y : Sys} (h : y.host.decust.cmds = []) (p t kind result : Nat) (rw' : Bool) :
    y.PortsKept (y.resumeDone p t kind result rw') := by
  unfold Sys.resumeDone
  dsimp only
  generalize ({ y.ev 9 ((y.slotAt p t).getD 0) p 0 [Word.ofN t, Word.ofN (kind + result * 2)] with rw := rw' } : Ev) = e
  have hall := (portsKept_meqEvent none e y).trans
    (portsKept_each (y.tenantsOf (y.under p t)) (fun i z => portsKept_tenantEvent i e z) (y.meqEvent none e))
  rw [decWake_none (hall.2.1.trans h)]
  exact hall

/-- The end of a root port's resume where nothing is held and no wake waits: the port is ACTIVE (R311). -/
theorem resumeEnd_root {y : Sys} {p kind : Nat} {rw' : Bool} (hw : (y.port p).wakePend = 0) (hh : (y.port p).hold = 0)
    (hc : y.host.decust.cmds = []) :
    (y.resumeEnd p 0 kind rw').port p = { y.port p with st := .enabled, susp := .active, hold := 0, wakeRun := false } := by
  have hwake : y.rwakeOut p = y := by
    unfold Sys.rwakeOut
    dsimp only
    exact if_neg (by simp [hw])
  have hhold : y.holdAt p 0 = 0 := (if_pos rfl).trans hh
  unfold Sys.resumeEnd
  dsimp only
  rw [if_pos rfl, hwake, hhold, if_pos rfl, if_neg (by decide)]
  have hself := updPort_port_self p (fun q => { q with st := .enabled, susp := .active, hold := 0, wakeRun := false }) y
  have hcmds : (y.updPort p fun q => { q with st := .enabled, susp := .active, hold := 0, wakeRun := false }).host.decust.cmds = [] := hc
  generalize (y.updPort p fun q => { q with st := .enabled, susp := .active, hold := 0, wakeRun := false }) = z at hself hcmds ⊢
  have hdone := portsKept_resumeDone hcmds p 0 kind 0 rw'
  generalize z.resumeDone p 0 kind 0 rw' = w at hdone ⊢
  have hseen : w.PortsKept (if rw' then each (fun n (y : Sys) => each (fun k (y : Sys) =>
      y.updRing k fun r => { r with rwSeen := true }) (y.ringsOfSlot n) y) (w.under p 0) w else w) :=
    .ite (portsKept_each _ (fun n v => portsKept_each (f := fun k (y : Sys) => y.updRing k fun r => { r with rwSeen := true }) _
      (fun k u => ⟨rfl, rfl, rfl, rfl, rfl⟩) v) w) (portsKept_refl w)
  have howed : ∀ (l : List Nat) (v : Sys), v.PortsKept (each (fun n (y : Sys) => if y.slotQuiet n then y else y.releaseOwed n) l v) :=
    fun l v => portsKept_each l (fun n u => .ite (portsKept_refl u) (portsKept_releaseOwed n u)) v
  exact (((hdone.trans hseen).trans (howed _ _)).port p).trans hself

end Sys2Proof.Machine

/-! SUPPORT. Requests to suspend and to resume, and what each event of a resume does (R309-R316). -/

namespace Sys2Proof.Machine

/-! ## Requests of PRG_PORT_SUSP -/

/-- A request counted, with its RWAKE_EN. -/
def Sys.suspAsked (p : Nat) (rw' : Bool) (y : Sys) : Sys := (y.incFld (lnkPg p) 0x58 23 16).updPort p fun q => { q with rwEn := rw' }

theorem pgReg_of_regs {y t : Sys} (h : t.regs = y.regs) (g : Pg) (o : Nat) : t.pgReg g o = y.pgReg g o := by
  rw [Sys.pgReg, Sys.reg, h]
  rfl

theorem incFld_setReg (g : Pg) (o hi lo : Nat) (y : Sys) : ∃ v, y.incFld g o hi lo = y.setReg (g.base + o) v := ⟨_, rfl⟩

/-- What RWAKE_EN and a register leave: the rest of the port, the frame and what has left the chip. -/
theorem rwEn_kept (p : Nat) (rw' : Bool) {y z : Sys} {o : Nat} {v : Word} (hz : z = y.setReg o v) :
    (z.updPort p fun q => { q with rwEn := rw' }).port p = { y.port p with rwEn := rw' } ∧
    (z.updPort p fun q => { q with rwEn := rw' }).frame p = y.frame p ∧ (z.updPort p fun q => { q with rwEn := rw' }).out = y.out ∧
    (z.updPort p fun q => { q with rwEn := rw' }).regs = z.regs := by
  have hport : z.port p = y.port p := by rw [hz, (portsKept_setReg o v y).port]
  have hframe : z.frame p = y.frame p := by
    rw [hz]
    rfl
  have hout : z.out = y.out := by rw [hz]; rfl
  exact ⟨by rw [updPort_port_self, hport], hframe, hout, rfl⟩

/-- What a request that is counted leaves. -/
theorem suspAsked_kept (p : Nat) (rw' : Bool) (y : Sys) :
    (y.suspAsked p rw').port p = { y.port p with rwEn := rw' } ∧ (y.suspAsked p rw').frame p = y.frame p ∧
    (y.suspAsked p rw').out = y.out ∧ (y.suspAsked p rw').regs = (y.incFld (lnkPg p) 0x58 23 16).regs := by
  obtain ⟨v, hv⟩ := incFld_setReg (lnkPg p) 0x58 23 16 y
  exact rwEn_kept p rw' hv

theorem suspAsked_port (p : Nat) (rw' : Bool) (y : Sys) : (y.suspAsked p rw').port p = { y.port p with rwEn := rw' } := (suspAsked_kept p rw' y).1

theorem suspAsked_count (p : Nat) (rw' : Bool) (y : Sys) :
    ((y.suspAsked p rw').pgReg (lnkPg p) 0x58).fld 23 16 = satInc 255 ((y.pgReg (lnkPg p) 0x58).fld 23 16) := by
  rw [pgReg_of_regs (suspAsked_kept p rw' y).2.2.2]
  exact fld_incFld (by decide) (by decide) _ _ _

theorem suspWrite_here {y : Sys} {p : Nat} (h : (y.port p).st = .enabled ∨ (y.port p).st = .suspended) (res rw' : Bool) :
    y.suspWrite p res rw' = y.suspReq p 0 res rw' := by
  rcases h with h | h <;> rw [Sys.suspWrite, h]

theorem suspAsked_suspAt (p : Nat) (rw' : Bool) (y : Sys) : (y.suspAsked p rw').suspAt p 0 = (y.port p).susp :=
  (if_pos rfl).trans (by rw [suspAsked_port])

/-- A request at a root port, counted, goes by the port's suspend state. -/
theorem suspReq_root {p : Nat} {rw' : Bool} {y z : Sys} (hz : y.suspAsked p rw' = z) :
    (z.suspAt p 0 = .active → y.suspReq p 0 false rw' = z.suspendGo p 0) ∧
    (z.suspAt p 0 = .suspended → y.suspReq p 0 true rw' = z.resumeGo p 0 false) ∧
    (z.suspAt p 0 = .suspending → y.suspReq p 0 true rw' = z.setHold p 0 2) ∧
    (z.suspAt p 0 = .resuming → y.suspReq p 0 false rw' = z.setHold p 0 1) := by
  unfold Sys.suspReq
  dsimp only
  rw [if_pos rfl, show (y.incFld (lnkPg p) 0x58 23 16).updPort p (fun q => { q with rwEn := rw' }) = z from hz]
  refine ⟨fun h => ?_, fun h => ?_, fun h => ?_, fun h => ?_⟩ <;> rw [h]

/-- A port that sends SOF begins to suspend: its devices are armed before SOF stops. -/
theorem suspendGo_root {y : Sys} {p : Nat} (hsof : (y.frame p).sof = true) :
    ((y.suspendGo p 0).port p) = { y.port p with susp := .suspending, hold := 0 } ∧ (y.suspendGo p 0).regs = y.regs := by
  have hself := updPort_port_self p (fun q => { q with susp := .suspending, hold := 0 }) y
  have hkept : (y.updPort p fun q => { q with susp := .suspending, hold := 0 }).regs = y.regs ∧
      ((y.updPort p fun q => { q with susp := .suspending, hold := 0 }).frame p).sof = true := ⟨rfl, hsof⟩
  unfold Sys.suspendGo
  rw [if_pos rfl]
  dsimp only
  generalize (y.updPort p fun q => { q with susp := .suspending, hold := 0 }) = z at hself hkept ⊢
  obtain ⟨hregs, hsof⟩ := hkept
  have harm : z.SendOnly (if (z.port p).rwEn then z.armWake p 0 else z) := by
    split
    · exact sendOnly_armWake p 0 z
    · exact sendOnly_refl z
  generalize (if (z.port p).rwEn then z.armWake p 0 else z) = w at harm ⊢
  have hframe : (w.frame p).sof = true := by
    rw [Sys.frame, harm.2.2.1]
    exact hsof
  rw [if_pos hframe]
  exact ⟨(harm.1.port p).trans hself, harm.2.1.trans hregs⟩

/-- A root port drives K. -/
theorem resumeGo_root (p : Nat) (wake : Bool) (y : Sys) :
    (((y.resumeGo p 0 wake).port p).susp = .resuming ∧ ((y.resumeGo p 0 wake).port p).wakeRun = wake ∧
      ((y.resumeGo p 0 wake).port p).st = (y.port p).st ∧ ((y.resumeGo p 0 wake).port p).rwEn = (y.port p).rwEn) ∧
    (y.resumeGo p 0 wake).out = .bus p .resumeK :: y.out ∧ (y.resumeGo p 0 wake).regs = y.regs := by
  unfold Sys.resumeGo
  rw [if_pos rfl]
  generalize hz : (y.updPort p fun q => { q with susp := .resuming, hold := 0, wakeRun := wake, rwSeen := false, resMf := y.perIndex p }) = z
  have hself : z.port p = { y.port p with susp := .resuming, hold := 0, wakeRun := wake, rwSeen := false, resMf := y.perIndex p } := by
    rw [← hz, updPort_port_self]
  have hkept : z.out = y.out ∧ z.regs = y.regs := by
    rw [← hz]
    exact ⟨rfl, rfl⟩
  have hemit : z.emit (.bus p .resumeK) = { z with out := .bus p .resumeK :: z.out } := rfl
  rw [hemit]
  show ((z.port p).susp = _ ∧ (z.port p).wakeRun = _ ∧ (z.port p).st = _ ∧ (z.port p).rwEn = _) ∧ _
  rw [hself]
  exact ⟨⟨rfl, rfl, rfl, rfl⟩, by rw [← hkept.1], hkept.2⟩

theorem setHold_root (p k : Nat) (y : Sys) : y.setHold p 0 k = y.updPort p fun q => { q with hold := k } := if_pos rfl

/-- A request of PRG_PORT_SUSP counted in `t`, with its RWAKE_EN. -/
def Sys.suspCounted (p : Nat) (rw' : Bool) (y t : Sys) : Prop :=
  (t.pgReg (lnkPg p) 0x58).fld 23 16 = satInc 255 ((y.pgReg (lnkPg p) 0x58).fld 23 16) ∧ (t.port p).rwEn = rw'

theorem suspCounted_of {p : Nat} {rw' : Bool} {y t : Sys} (hregs : t.regs = (y.suspAsked p rw').regs) (hen : (t.port p).rwEn = rw') :
    y.suspCounted p rw' t := ⟨by rw [pgReg_of_regs hregs, suspAsked_count], hen⟩

theorem suspWrite_suspends {y : Sys} {p : Nat} (h : (y.port p).st = .enabled ∨ (y.port p).st = .suspended) (hs : (y.port p).susp = .active)
    (hsof : (y.frame p).sof = true) (rw' : Bool) :
    ((y.suspWrite p false rw').port p).susp = .suspending ∧ ((y.suspWrite p false rw').port p).hold = 0 ∧
    y.suspCounted p rw' (y.suspWrite p false rw') := by
  obtain ⟨hport, hregs⟩ := suspendGo_root (y := y.suspAsked p rw') (p := p) (by rw [(suspAsked_kept p rw' y).2.1]; exact hsof)
  rw [suspWrite_here h, (suspReq_root rfl).1 ((suspAsked_suspAt p rw' y).trans hs)]
  refine ⟨by rw [hport], by rw [hport], suspCounted_of hregs ?_⟩
  rw [hport, suspAsked_port]

theorem suspWrite_holds_suspend {y : Sys} {p : Nat} (h : (y.port p).st = .enabled ∨ (y.port p).st = .suspended) (hs : (y.port p).susp = .resuming)
    (rw' : Bool) : (y.suspWrite p false rw').port p = { y.port p with rwEn := rw', hold := 1 } ∧ y.suspCounted p rw' (y.suspWrite p false rw') := by
  rw [suspWrite_here h, (suspReq_root rfl).2.2.2 ((suspAsked_suspAt p rw' y).trans hs), setHold_root]
  have hport : ((y.suspAsked p rw').updPort p fun q => { q with hold := 1 }).port p = { y.port p with rwEn := rw', hold := 1 } := by
    rw [updPort_port_self, suspAsked_port]
  exact ⟨hport, suspCounted_of (updPort_regs _ _ _) (by rw [hport])⟩

theorem suspWrite_resumes {y : Sys} {p : Nat} (h : (y.port p).st = .enabled ∨ (y.port p).st = .suspended) (hs : (y.port p).susp = .suspended)
    (rw' : Bool) :
    ((y.suspWrite p true rw').port p).susp = .resuming ∧ ((y.suspWrite p true rw').port p).wakeRun = false ∧
    (y.suspWrite p true rw').out = .bus p .resumeK :: y.out ∧ y.suspCounted p rw' (y.suspWrite p true rw') := by
  obtain ⟨⟨hsusp, hwake, -, hen⟩, hout, hregs⟩ := resumeGo_root p false (y.suspAsked p rw')
  rw [suspWrite_here h, (suspReq_root rfl).2.1 ((suspAsked_suspAt p rw' y).trans hs)]
  exact ⟨hsusp, hwake, hout.trans (by rw [(suspAsked_kept p rw' y).2.2.1]), suspCounted_of hregs (by rw [hen, suspAsked_port])⟩

theorem suspWrite_holds_resume {y : Sys} {p : Nat} (h : (y.port p).st = .enabled ∨ (y.port p).st = .suspended) (hs : (y.port p).susp = .suspending)
    (rw' : Bool) : (y.suspWrite p true rw').port p = { y.port p with rwEn := rw', hold := 2 } ∧ y.suspCounted p rw' (y.suspWrite p true rw') := by
  rw [suspWrite_here h, (suspReq_root rfl).2.2.1 ((suspAsked_suspAt p rw' y).trans hs), setHold_root]
  have hport : ((y.suspAsked p rw').updPort p fun q => { q with hold := 2 }).port p = { y.port p with rwEn := rw', hold := 2 } := by
    rw [updPort_port_self, suspAsked_port]
  exact ⟨hport, suspCounted_of (updPort_regs _ _ _) (by rw [hport])⟩

/-- A request in a state without a device. -/
theorem suspWrite_absent {y : Sys} {p : Nat} (h : ¬ ((y.port p).st = .enabled ∨ (y.port p).st = .suspended)) (res rw' : Bool) :
    y.suspCounted p rw' (y.suspWrite p res rw') ∧ ((y.suspWrite p res rw').pgReg (lnkPg p) 0x18).fld 3 3 = 1 ∧
    ((y.suspWrite p res rw').port p).susp = (y.port p).susp := by
  have hwrite : y.suspWrite p res rw' = ((y.updPort p fun q => { q with rwEn := rw' }).incFld (lnkPg p) 0x58 23 16).recordErr (lnkPg p) 3 0 := by
    unfold Sys.suspWrite
    split
    · next he => exact absurd (.inl he) h
    · next he => exact absurd (.inr he) h
    · rfl
  have hport : ((y.updPort p fun q => { q with rwEn := rw' }).incFld (lnkPg p) 0x58 23 16).port p = { y.port p with rwEn := rw' } := by
    obtain ⟨v, hv⟩ := incFld_setReg (lnkPg p) 0x58 23 16 (y.updPort p fun q => { q with rwEn := rw' })
    rw [hv, (portsKept_setReg _ _ _).port, updPort_port_self]
  have hregs : (y.updPort p fun q => { q with rwEn := rw' }).regs = y.regs := rfl
  have hcount : (((y.updPort p fun q => { q with rwEn := rw' }).incFld (lnkPg p) 0x58 23 16).pgReg (lnkPg p) 0x58).fld 23 16 =
      satInc 255 ((y.pgReg (lnkPg p) 0x58).fld 23 16) := by
    rw [← pgReg_of_regs hregs]
    exact fld_incFld (by decide) (by decide) _ _ _
  rw [hwrite]
  generalize (y.updPort p fun q => { q with rwEn := rw' }).incFld (lnkPg p) 0x58 23 16 = z at hport hcount ⊢
  have hkept := (portsKept_reports (reportsOnly_recordErr (lnkPg p) 3 0 z)).port p
  refine ⟨⟨?_, by rw [hkept, hport]⟩, ?_, by rw [hkept, hport]⟩
  · rw [recordErr_pgReg_past_header (by decide) (by decide)]
    exact hcount
  · rw [recordErr_stat]
    exact fld_put_self (by decide) (by decide) _ _

/-! ## The events of a suspend and a resume -/

/-- The end of a root port's suspend entry, with no command in progress. -/
theorem suspendEntry_root {y : Sys} {p : Nat} (hs : (y.port p).susp = .suspending) (hsof : (y.frame p).sof = false)
    (hc : y.host.decust.cmds = []) :
    y.suspendEntry p 0 = if (y.port p).hold = 2 then
        (y.updPort p fun q => { q with st := .suspended, susp := .suspended, hold := 0 }).resumeGo p 0 false
      else y.updPort p fun q => { q with st := .suspended, susp := .suspended, hold := 0 } := by
  have hat : y.suspAt p 0 = .suspending := (if_pos rfl).trans hs
  have hhold : y.holdAt p 0 = (y.port p).hold := if_pos rfl
  unfold Sys.suspendEntry
  rw [hat, if_neg (by decide), if_pos rfl, if_neg (Bool.eq_false_iff.1 hsof)]
  unfold Sys.suspendEnd
  dsimp only
  rw [hhold, if_pos rfl, decWake_none (y := y.updPort p fun q => { q with st := .suspended, susp := .suspended, hold := 0 }) hc]

/-- The end of K at a root port that has not restarted SOF. -/
theorem resumeSignal_ends {y : Sys} {p : Nat} (hs : (y.port p).susp = .resuming) (hsof : (y.frame p).sof = false)
    (hw : (y.port p).wakePend = 0) : y.resumeSignal p = (y.updFrame p fun f => { f with sof := true }).emit (.bus p .lsEop) := by
  have hwake : y.rwakeOut p = y := by
    unfold Sys.rwakeOut
    dsimp only
    exact if_neg (by simp [hw])
  unfold Sys.resumeSignal
  rw [if_pos (by simp [hs, hsof]), hwake]

theorem resumeSignal_done {y : Sys} {p : Nat} (hsof : (y.frame p).sof = true) : y.resumeSignal p = y := by
  unfold Sys.resumeSignal
  exact if_neg (by simp [hsof])

/-- A device's wake at a suspended root port: the root is the first suspended port on every path. -/
theorem remoteWake_root {y : Sys} {p : Nat} (t : Nat) (mo : Nat × Nat) (hs : (y.port p).susp = .suspended) :
    y.remoteWake p t mo = (y.resumeGo p 0 true).updPort p fun q => { q with wakePend := t + 1, wakeMf := mo.1, wakeUs := mo.2 } := by
  have hat : y.suspAt p 0 = .suspended := (if_pos rfl).trans hs
  have hzero : tierAbove t 0 = 0 := by
    unfold tierAbove
    omega
  have hpath : (pathOf t).find? (fun u => y.suspAt p u != .active) = some 0 := by
    unfold pathOf
    rw [List.range_succ_eq_map, List.map_cons, hzero]
    exact List.find?_cons_of_pos (by rw [hat]; rfl)
  unfold Sys.remoteWake
  rw [hpath]
  dsimp only
  rw [hat]
  exact if_pos rfl

/-! ## A hub port's resume that comes too late -/

theorem queueNew_queued (p t : Nat) (y : Sys) : ∃ e ∈ (y.queueNew p t .granted).usb.enums, e.port = p ∧ e.tier = t ∧ e.st = .queued :=
  ⟨_, List.mem_append_right _ (List.mem_singleton.2 rfl), rfl, rfl, rfl⟩

theorem queueAgain_queued (p t n : Nat) (y : Sys) : ∃ e ∈ (y.queueAgain p t n).usb.enums, e.port = p ∧ e.tier = t ∧ e.st = .queued :=
  ⟨_, List.mem_append_right _ (List.mem_singleton.2 rfl), rfl, rfl, rfl⟩

theorem updPortOf_usb (p t : Nat) (f : HubPort → HubPort) (y : Sys) : (y.updPortOf p t f).usb = y.usb := by
  unfold Sys.updPortOf
  split <;> rfl

/-- A reset of a hub's port queues its device, or a device to come. -/
theorem requeue_hub_queued {p t : Nat} (ht : t ≠ 0) (y : Sys) :
    ∃ e ∈ (y.requeue p t).usb.enums, e.port = p ∧ e.tier = t ∧ e.st = .queued := by
  unfold Sys.requeue
  dsimp only
  rw [if_neg ht]
  generalize ((y.resumeCut p t 1).resetTree p t) = z
  unfold Sys.requeueHub
  dsimp only
  rw [updPortOf_usb]
  split
  · exact queueAgain_queued _ _ _ _
  · exact queueNew_queued _ _ _

theorem treeFault_hub {y : Sys} {p t h hp : Nat} {q : HubPort} (ht : t ≠ 0) (hat : y.hubPortAt p t = some (h, hp, q))
    (hr : y.resettable p t = true) (hlate : ¬ (0 < q.faultAt ∧ y.tb < q.faultAt - 1 + 10000000)) :
    ∃ e ∈ (y.treeFault p t).usb.enums, e.port = p ∧ e.tier = t ∧ e.st = .queued := by
  have hlast : y.lastFault p t = q.faultAt := by
    unfold Sys.lastFault
    rw [if_neg ht, hat]
  unfold Sys.treeFault
  dsimp only
  rw [if_neg (by simp [hr]), hlast, if_neg (by simpa using hlate)]
  exact requeue_hub_queued ht _

/-- Settles O33: each request and event by the suspend state that it finds. -/
theorem portsSuspendAndResume : Obligations.ports_suspend_and_resume := by
  unfold Obligations.ports_suspend_and_resume
  refine ⟨fun s p rw' hserves hp => ?_, fun s p hops hs hsof hc => ?_, fun s p hops hl hs => ?_, fun s p hops hl hs hsof hh hw hc => ?_,
    fun s p tier h hp q hops ht hat hs htold hr hlate => ?_, fun s p tier hops hl hs => ?_⟩
  · have hsus : ∀ P : Sys → Prop, P (s.sys.suspWrite p false rw') → Does (.portSuspendReq p rw') s P := fun P hP =>
      does_win_eq (execPortSuspendReq p rw') rfl rfl hserves (viaPage_lets hp _) hP
    have hres : ∀ P : Sys → Prop, P (s.sys.suspWrite p true rw') → Does (.portResumeReq p rw') s P := fun P hP =>
      does_win_eq (execPortResumeReq p rw') rfl rfl hserves (viaPage_lets hp _) hP
    refine ⟨fun here hst hsof => hsus _ (suspWrite_suspends here hst hsof rw'), fun here hst => hsus _ (suspWrite_holds_suspend here hst rw'),
      fun here hst => hres _ (suspWrite_resumes here hst rw'), fun here hst => hres _ (suspWrite_holds_resume here hst rw'), fun here c hc => ?_⟩
    simp only [List.mem_cons, List.not_mem_nil, or_false] at hc
    rcases hc with rfl | rfl
    · exact hsus _ (suspWrite_absent here false rw')
    · exact hres _ (suspWrite_absent here true rw')
  · have heq := suspendEntry_root hs hsof hc
    refine ⟨fun hh => ?_, fun hh => ?_⟩
    · rw [if_neg hh] at heq
      exact does_live_eq (execSuspendEntryEnd p 0) rfl rfl hops heq ⟨updPort_port_self _ _ _, rfl⟩
    · rw [if_pos hh] at heq
      obtain ⟨⟨hsusp, -, hst, -⟩, hout, -⟩ :=
        resumeGo_root p false (s.sys.updPort p fun q => { q with st := .suspended, susp := .suspended, hold := 0 })
      exact does_live_eq (execSuspendEntryEnd p 0) rfl rfl hops heq ⟨hst.trans (by rw [updPort_port_self]), hsusp, hout⟩
  · refine ⟨fun hsof => ?_, fun hsof hw => ?_⟩
    · exact exec_live_same (execResumeSignalEnd p) rfl rfl hops ((if_pos hl).trans (resumeSignal_done hsof))
    · exact (exec_live (execResumeSignalEnd p) rfl rfl hops).trans (by rw [if_pos hl, resumeSignal_ends hs hsof hw])
  · refine does_live_eq (execResumeRecoveryEnd p 0) rfl rfl hops (if_pos hl) ?_
    have hrec : s.sys.recoveryEnd p 0 = s.sys.resumeEnd p 0 (if (s.sys.port p).wakeRun then 1 else 0) (s.sys.port p).rwSeen :=
      (if_pos rfl).trans (if_pos (by simp [hs, hsof]))
    show (s.sys.recoveryEnd p 0).port p = _
    rw [hrec]
    exact resumeEnd_root hw hh hc
  · refine does_live_eq (execHubResumeTimeout p tier) rfl rfl hops (t := s.sys.treeFault p tier.toNat) ?_ (treeFault_hub ht hat hr hlate)
    unfold Sys.resumeLate
    rw [hat]
    exact if_pos (by simp [hs, htold])
  · obtain ⟨⟨hsusp, hwake, -, -⟩, hout, -⟩ := resumeGo_root p true s.sys
    refine does_live_eq (execRemoteWake p tier) rfl rfl hops ((if_pos hl).trans (remoteWake_root tier.toNat (s.sys.mf, s.sys.us) hs)) ?_
    generalize s.sys.resumeGo p 0 true = z at hsusp hwake hout
    rw [updPort_port_self]
    refine ⟨hsusp, hwake, rfl, ?_⟩
    show z.out.head? = _
    rw [hout]
    rfl

end Sys2Proof.Machine

/-! SUPPORT. Events into event rings and SPQ (R113-R115): what a message and a record leave. -/

namespace Sys2Proof.Machine

/-! ## Messages of a ring -/

/-- What a message can change: reports, and the messages of the tenants. -/
def Sys.MsgOnly (y t : Sys) : Prop :=
  t = { y with
    regs := t.regs, out := t.out, heldOut := t.heldOut, heldPasid := t.heldPasid, pins := { y.pins with aerCor := t.pins.aerCor, aerUnc := t.pins.aerUnc },
    host := { y.host with insts := t.host.insts, msixPend := t.host.msixPend, msgWait := t.host.msgWait } } ∧
  ∀ j, ∃ ms, t.inst j = { y.inst j with msgs := ms }

theorem msgOnly_refl (y : Sys) : y.MsgOnly y := ⟨rfl, fun j => ⟨(y.inst j).msgs, rfl⟩⟩

theorem Sys.MsgOnly.trans {y z t : Sys} (h : y.MsgOnly z) (k : z.MsgOnly t) : y.MsgOnly t := by
  obtain ⟨he, hi⟩ := h
  obtain ⟨ke, ki⟩ := k
  refine ⟨by rw [ke, he], fun j => ?_⟩
  obtain ⟨m, hm⟩ := hi j
  obtain ⟨n, hn⟩ := ki j
  exact ⟨n, by rw [hn, hm]⟩

theorem msgOnly_reports {y t : Sys} (h : y.reportsOnly t) : y.MsgOnly t := by
  unfold Sys.reportsOnly at h
  refine ⟨by rw [h], fun j => ⟨(y.inst j).msgs, ?_⟩⟩
  rw [h]
  rfl

theorem msgOnly_emit (o : Out) (y : Sys) : y.MsgOnly (y.emit o) := by
  unfold Sys.emit
  split_ifs
  · exact msgOnly_refl y
  · exact ⟨rfl, fun j => ⟨(y.inst j).msgs, rfl⟩⟩
  · exact ⟨rfl, fun j => ⟨(y.inst j).msgs, rfl⟩⟩
  · exact ⟨rfl, fun j => ⟨(y.inst j).msgs, rfl⟩⟩
  · exact ⟨rfl, fun j => ⟨(y.inst j).msgs, rfl⟩⟩

theorem msgOnly_setReg (o : Nat) (v : Word) (y : Sys) : y.MsgOnly (y.setReg o v) := ⟨rfl, fun j => ⟨(y.inst j).msgs, rfl⟩⟩

theorem msgOnly_msgs (i : Nat) (f : FMap MsgEnt → FMap MsgEnt) (y : Sys) : y.MsgOnly (y.updInst i fun n => { n with msgs := f n.msgs }) := by
  refine ⟨rfl, fun j => ?_⟩
  by_cases hj : j = i
  · subst hj
    exact ⟨_, updInst_inst_self _ _ _⟩
  · exact ⟨(y.inst j).msgs, updInst_inst_ne hj _ _⟩

theorem msgOnly_wait (l : List (Nat × Nat)) (y : Sys) : y.MsgOnly { y with host := { y.host with msgWait := l } } :=
  ⟨rfl, fun j => ⟨(y.inst j).msgs, rfl⟩⟩

theorem msgOnly_sendMsg (i e : Nat) (y : Sys) : y.MsgOnly (y.sendMsg i e) := by
  unfold Sys.sendMsg
  dsimp only
  split_ifs
  · exact msgOnly_msgs i _ y
  · exact (msgOnly_reports (reportsOnly_recordErr _ _ _ y)).trans (msgOnly_msgs i _ _)
  · exact msgOnly_refl y
  · exact (msgOnly_wait _ y).trans (msgOnly_msgs i _ _)
  · exact ((msgOnly_msgs i _ y).trans (msgOnly_emit _ _)).trans (msgOnly_setReg _ _ _)

/-! ## Records of events -/

/-- What a record in an event ring leaves: the ring of key `k`, up to its moderation, reads `g`, tenant `i` has no lost event to tell of,
and the other rings, the other tenants' notes of lost events, and the events that wait are as they were. -/
structure Sys.Delivers (k : Nat) (g : Ring) (y t : Sys) : Prop where
  ring : ∃ a b, t.ring k = { g with modRun := a, modDue := b }
  rings : ∀ j, j ≠ k → t.ring j = y.ring j
  evq : t.host.evq = y.host.evq
  spq : t.host.spq = y.host.spq
  lost : (t.inst (k / 32)).lostPend = false

/-- A ring's message, whatever it finds, changes the ring's moderation alone. -/
theorem delivers_ringMsg {k : Nat} {g : Ring} {y z : Sys} (h : Sys.Delivers k g y z) : Sys.Delivers k g y (z.ringMsg k) := by
  obtain ⟨⟨a, b, hring⟩, hrings, hevq, hspq, hlost⟩ := h
  unfold Sys.ringMsg
  dsimp only
  split_ifs
  · exact ⟨⟨a, b, hring⟩, hrings, hevq, hspq, hlost⟩
  · refine ⟨⟨a, true, ?_⟩, fun j hj => (updRing_ring_ne hj _ _).trans (hrings j hj), hevq, hspq, hlost⟩
    rw [updRing_ring_self, hring]
  · have hself : (z.updRing k fun r => { r with modRun := decide (0 < r.mod), modDue := false }).ring k =
        { g with modRun := decide (0 < g.mod), modDue := false } := by rw [updRing_ring_self, hring]
    have hne : ∀ j, j ≠ k → (z.updRing k fun r => { r with modRun := decide (0 < r.mod), modDue := false }).ring j = y.ring j := fun j hj =>
      (updRing_ring_ne hj _ _).trans (hrings j hj)
    have hq : (z.updRing k fun r => { r with modRun := decide (0 < r.mod), modDue := false }).host.evq = y.host.evq ∧
        (z.updRing k fun r => { r with modRun := decide (0 < r.mod), modDue := false }).host.spq = y.host.spq ∧
        ((z.updRing k fun r => { r with modRun := decide (0 < r.mod), modDue := false }).inst (k / 32)).lostPend = false :=
      ⟨hevq, hspq, hlost⟩
    generalize (z.updRing k fun r => { r with modRun := decide (0 < r.mod), modDue := false }) = w at hself hne hq ⊢
    obtain ⟨hevq, hspq, hlost⟩ := hq
    obtain ⟨he, hi⟩ := msgOnly_sendMsg (k / 32) (z.ring k).msg w
    obtain ⟨ms, hms⟩ := hi (k / 32)
    generalize w.sendMsg (k / 32) (z.ring k).msg = t at he hms ⊢
    have hr : ∀ j, t.ring j = w.ring j := fun j => by rw [he]; rfl
    refine ⟨⟨_, _, (hr k).trans hself⟩, fun j hj => (hr j).trans (hne j hj), ?_, ?_, by rw [hms]; exact hlost⟩
    · rw [he]; exact hevq
    · rw [he]; exact hspq

theorem evtKey_div (i : Nat) : evtKey i / 32 = i := by
  unfold evtKey
  omega

/-- An event put into its ring (R110). -/
theorem delivers_putEvent (i : Nat) (e : Ev) (y : Sys) :
    Sys.Delivers (evtKey i) { y.ring (evtKey i) with
      wpos := ((y.ring (evtKey i)).wpos + 1) % (y.ring (evtKey i)).size, known := (y.ring (evtKey i)).known - 1 } y (y.putEvent i e) := by
  unfold Sys.putEvent
  dsimp only
  refine delivers_ringMsg ?_
  generalize (Out.mem (y.pfx (some i)) false false ((y.ring (evtKey i)).base + 32 * (y.ring (evtKey i)).wpos)
    (dwBytes ({ e with lost := e.lost || (y.inst i).lostPend } : Ev).dws)) = o
  obtain ⟨hemit, -⟩ := msgOnly_emit o y
  generalize y.emit o = z at hemit ⊢
  have hr : ∀ j, z.ring j = y.ring j := fun j => by rw [hemit]; rfl
  have hz : z.host.evq = y.host.evq ∧ z.host.spq = y.host.spq := by
    rw [hemit]
    exact ⟨rfl, rfl⟩
  have hself := updRing_ring_self (evtKey i) (fun r => { r with wpos := (r.wpos + 1) % r.size, known := r.known - 1 }) z
  have hne : ∀ j, j ≠ evtKey i → (z.updRing (evtKey i) fun r => { r with wpos := (r.wpos + 1) % r.size, known := r.known - 1 }).ring j = z.ring j :=
    fun j hj => updRing_ring_ne hj _ _
  have hw : (z.updRing (evtKey i) fun r => { r with wpos := (r.wpos + 1) % r.size, known := r.known - 1 }).host.evq = z.host.evq ∧
      (z.updRing (evtKey i) fun r => { r with wpos := (r.wpos + 1) % r.size, known := r.known - 1 }).host.spq = z.host.spq := ⟨rfl, rfl⟩
  generalize (z.updRing (evtKey i) fun r => { r with wpos := (r.wpos + 1) % r.size, known := r.known - 1 }) = w at hself hne hw ⊢
  have hi := updInst_inst_self i (fun n => { n with lostPend := false }) w
  have hv : (∀ j, (w.updInst i fun n => { n with lostPend := false }).ring j = w.ring j) ∧
      (w.updInst i fun n => { n with lostPend := false }).host.evq = w.host.evq ∧
      (w.updInst i fun n => { n with lostPend := false }).host.spq = w.host.spq := ⟨fun _ => rfl, rfl, rfl⟩
  generalize (w.updInst i fun n => { n with lostPend := false }) = v at hi hv ⊢
  obtain ⟨c, hc⟩ := cacheUse_host (evtKey i) v
  rw [hc]
  obtain ⟨hvr, hve, hvs⟩ := hv
  refine ⟨⟨(y.ring (evtKey i)).modRun, (y.ring (evtKey i)).modDue, ?_⟩, fun j hj => ?_, hve.trans (hw.1.trans hz.1), hvs.trans (hw.2.trans hz.2), ?_⟩
  · exact (hvr _).trans (hself.trans (by rw [hr]))
  · exact (hvr j).trans ((hne j hj).trans (hr j))
  · rw [evtKey_div]
    exact congrArg Inst.lostPend hi

/-! ## Delivery -/

/-- The oldest event goes into its tenant's event ring (R113). -/
theorem deliverEvent_straight {y : Sys} {e : Spill} {rest : List Spill} (hq : y.host.evq = e :: rest) (hst : (y.inst e.inst).st = .running)
    (ho : y.recOpen = true) (hg : (y.ring (evtKey e.inst)).st = .running) (hk : 0 < (y.ring (evtKey e.inst)).known) (hs : y.spilled e.inst = 0)
    (hc : y.cached (evtKey e.inst) = true) :
    y.deliverEvent = Sys.putEvent e.inst e.ev { y with host := { y.host with evq := rest } } := by
  unfold Sys.deliverEvent
  rw [hq]
  dsimp only
  rw [hst, hg, hs, ho, hc, decide_eq_true hk]
  rfl

theorem deliverEvent_gone {y : Sys} {e : Spill} {rest : List Spill} (hq : y.host.evq = e :: rest)
    (hst : (y.inst e.inst).st = .free ∨ (y.inst e.inst).st = .destroying) : y.deliverEvent = { y with host := { y.host with evq := rest } } := by
  unfold Sys.deliverEvent
  rw [hq]
  dsimp only
  rcases hst with h | h <;> rw [h] <;> rfl

theorem deliverEvent_spills {y : Sys} {e : Spill} {rest : List Spill} (hq : y.host.evq = e :: rest) (hst : (y.inst e.inst).st = .running)
    (ho : y.recChan = true)
    (hno : (y.ring (evtKey e.inst)).known = 0 ∨ (y.ring (evtKey e.inst)).st ≠ .running ∨ 0 < y.spilled e.inst) :
    y.deliverEvent = Sys.spillEvent e.inst e.ev { y with host := { y.host with evq := rest } } := by
  have hstraight : ((y.ring (evtKey e.inst)).st == .running && decide (0 < (y.ring (evtKey e.inst)).known) && y.spilled e.inst == 0) = false := by
    rcases hno with h | h | h
    · simp [h]
    · simp [h]
    · simp [Nat.pos_iff_ne_zero.1 h]
  unfold Sys.deliverEvent
  rw [hq]
  dsimp only
  rw [hst, hstraight, ho]
  rfl

/-- An event that SPQ has room for is spilled. -/
theorem spillEvent_spilled {y : Sys} {i : Nat} {e : Ev} (hl : y.spilled i < (y.pgReg (onePg .rng 1) 0x880).fld 11 0)
    (hs : y.host.spq.length < y.spqSize) (hb : (y.pgReg (onePg .rng 0) 0x58).bit 31 = true) :
    (y.spillEvent i e).host.spq = y.host.spq ++ [{ inst := i, seq := (y.ring (evtKey i)).nextSpill, ev := e }] ∧
    (y.spillEvent i e).host.evq = y.host.evq ∧
    ((y.spillEvent i e).ring (evtKey i)).nextSpill = ((y.ring (evtKey i)).nextSpill + 1) % 65536 := by
  unfold Sys.spillEvent
  dsimp only
  rw [if_neg (by simp only [hb, not_or, Nat.not_le]; exact ⟨hl, hs, by decide⟩)]
  have hput : (y.spqPut { inst := i, seq := (y.ring (evtKey i)).nextSpill, ev := e }).host.spq =
        y.host.spq ++ [{ inst := i, seq := (y.ring (evtKey i)).nextSpill, ev := e }] ∧
      (y.spqPut { inst := i, seq := (y.ring (evtKey i)).nextSpill, ev := e }).host.evq = y.host.evq := by
    unfold Sys.spqPut
    dsimp only
    generalize (Out.mem none false false _ _) = o
    obtain ⟨hemit, -⟩ := msgOnly_emit o { y with host := { y.host with
      spq := y.host.spq ++ [{ inst := i, seq := (y.ring (evtKey i)).nextSpill, ev := e }] } }
    refine ⟨?_, ?_⟩
    · show (Sys.emit o _).host.spq = _
      rw [hemit]
    · show (Sys.emit o _).host.evq = _
      rw [hemit]
  generalize y.spqPut { inst := i, seq := (y.ring (evtKey i)).nextSpill, ev := e } = z at hput ⊢
  exact ⟨hput.1, hput.2, by rw [updRing_ring_self]⟩

/-! ## The walk -/

/-- A walk that finds one event, next in its tenant's order, with an entry free. -/
theorem spqWalk_delivers {y : Sys} {e : Spill} (hq : y.host.spq = [e]) (hd : e.dead = false) (hc : y.cached (evtKey e.inst) = true)
    (hseq : e.seq = (y.ring (evtKey e.inst)).nextDeliver) (hg : (y.ring (evtKey e.inst)).st = .running)
    (hk : 0 < (y.ring (evtKey e.inst)).known) :
    y.spqWalk.host.spq = [] ∧
    (y.spqWalk.ring (evtKey e.inst)).wpos = ((y.ring (evtKey e.inst)).wpos + 1) % (y.ring (evtKey e.inst)).size ∧
    (y.spqWalk.ring (evtKey e.inst)).nextDeliver = ((y.ring (evtKey e.inst)).nextDeliver + 1) % 65536 ∧ y.spqWalk.host.walkDue = false := by
  have hfind : (y.host.spq.find? fun s => !s.dead && (y.ring (evtKey s.inst)).st == .running && !y.cached (evtKey s.inst)) = none := by
    rw [hq]
    simp [hc]
  have hone : ∃ z : Sys, y.walkOne e = (true, (z.putEvent e.inst e.ev).updRing (evtKey e.inst) fun r =>
      { r with nextDeliver := (r.nextDeliver + 1) % 65536 }) ∧ z.host.spq = [] ∧ z.ring (evtKey e.inst) = y.ring (evtKey e.inst) := by
    unfold Sys.walkOne
    dsimp only
    generalize hz : Sys.setPg (onePg .rng 0) 0x60
      (Word.ofN (advIdx (Sys.spqSize { y with host := { y.host with spq := y.host.spq.drop 1 } }) (y.pgReg (onePg .rng 0) 0x60).toNat))
      { y with host := { y.host with spq := y.host.spq.drop 1 } } = z
    have hzq : z.host.spq = [] := by
      rw [← hz]
      show y.host.spq.drop 1 = []
      rw [hq]
      rfl
    have hzr : z.ring (evtKey e.inst) = y.ring (evtKey e.inst) := by
      rw [← hz]
      rfl
    rw [hd, if_neg (by decide), hzr, if_pos (by simp [hseq, hg, hk])]
    exact ⟨z, rfl, hzq, hzr⟩
  obtain ⟨z, hwalk, hzq, hzr⟩ := hone
  have hput := delivers_putEvent e.inst e.ev z
  rw [hzr] at hput
  obtain ⟨⟨a, b, hring⟩, -, -, hspq, -⟩ := hput
  generalize z.putEvent e.inst e.ev = w at hring hspq hwalk
  have hself := updRing_ring_self (evtKey e.inst) (fun r => { r with nextDeliver := (r.nextDeliver + 1) % 65536 }) w
  have hq' : (w.updRing (evtKey e.inst) fun r => { r with nextDeliver := (r.nextDeliver + 1) % 65536 }).host.spq = [] := hspq.trans hzq
  unfold Sys.spqWalk
  rw [hfind]
  dsimp only
  rw [hq, Sys.walkAll, hwalk]
  dsimp only [Sys.walkAll]
  generalize (w.updRing (evtKey e.inst) fun r => { r with nextDeliver := (r.nextDeliver + 1) % 65536 }) = v at hself hq' ⊢
  refine ⟨hq', ?_, ?_, by rw [hq']; rfl⟩
  · exact (congrArg Ring.wpos hself).trans (by rw [hring])
  · exact (congrArg Ring.nextDeliver hself).trans (by rw [hring])

end Sys2Proof.Machine

/-! SUPPORT. What the end of a command and the messages that go with it leave (R371, R396-R404, R613): the rings, the ports and their power,
the slots, and which domains are ON. -/

namespace Sys2Proof.Machine

/-! ## What leaves the rings alone -/

/-- No ring has changed. -/
def Sys.RingsKept (y t : Sys) : Prop := t.host.rings = y.host.rings

theorem ringsKept_refl (y : Sys) : y.RingsKept y := rfl

theorem Sys.RingsKept.trans {y z t : Sys} (h : y.RingsKept z) (k : z.RingsKept t) : y.RingsKept t := Eq.trans k h

theorem Sys.RingsKept.ring {y t : Sys} (h : y.RingsKept t) (j : Nat) : t.ring j = y.ring j := by
  rw [Sys.ring, show t.host.rings = y.host.rings from h]
  rfl

theorem ringsKept_each {α : Type} {f : α → Sys → Sys} (l : List α) (h : ∀ a (y : Sys), y.RingsKept (f a y)) (y : Sys) :
    y.RingsKept (each f l y) :=
  each_keeps (P := y.RingsKept) l (fun a _ z hz => hz.trans (h a z)) (ringsKept_refl y)

theorem Sys.MsgOnly.ringsKept {y t : Sys} (h : y.MsgOnly t) : y.RingsKept t := by
  unfold Sys.RingsKept
  rw [h.1]

/-! ## What leaves the rings, the USB side and the slots alone -/

/-- Of the work on the cores nothing has changed but the handlers: the engine's lists, the local SRAM, the faults, the registers of the
engine and the cores, and what each core does. -/
def Sys.WorkKept (y t : Sys) : Prop :=
  t.eng.holly = y.eng.holly ∧ t.eng.lsram = y.eng.lsram ∧ t.contain = y.contain ∧
  (∀ a, 0x900000 ≤ a → a < 0x920000 → t.reg a = y.reg a) ∧ ∀ c, t.core c = (y.core c).withHandlers (t.core c)

theorem workKept_refl (y : Sys) : y.WorkKept y := ⟨rfl, rfl, rfl, fun _ _ _ => rfl, fun _ => rfl⟩

theorem Sys.WorkKept.trans {y z t : Sys} (h : y.WorkKept z) (k : z.WorkKept t) : y.WorkKept t := by
  obtain ⟨h1, h2, h3, h4, h5⟩ := h
  obtain ⟨k1, k2, k3, k4, k5⟩ := k
  refine ⟨k1.trans h1, k2.trans h2, k3.trans h3, fun a ha hb => (k4 a ha hb).trans (h4 a ha hb), fun c => ?_⟩
  rw [k5 c, h5 c]
  rfl

/-- No ring, nothing of the USB side, no slot and none of the work on the cores has changed, and the same domains are ON. -/
def Sys.DeskOnly (y t : Sys) : Prop :=
  t.host.rings = y.host.rings ∧ t.usb = y.usb ∧ t.eng.slots = y.eng.slots ∧ (∀ d, t.on d = y.on d) ∧ y.WorkKept t

theorem deskOnly_refl (y : Sys) : y.DeskOnly y := ⟨rfl, rfl, rfl, fun _ => rfl, workKept_refl y⟩

/-- A change of other parts. -/
theorem deskOnly_of {y t : Sys} (hr : t.host.rings = y.host.rings) (hu : t.usb = y.usb) (hs : t.eng.slots = y.eng.slots) (hd : ∀ d, t.on d = y.on d)
    (hh : t.eng.holly = y.eng.holly) (hl : t.eng.lsram = y.eng.lsram) (hc : t.contain = y.contain) (hg : t.regs = y.regs)
    (hk : t.eng.cores = y.eng.cores) : y.DeskOnly t := by
  refine ⟨hr, hu, hs, hd, hh, hl, hc, fun a _ _ => by rw [Sys.reg, hg]; rfl, fun c => ?_⟩
  rw [Sys.core, hk]
  rfl

theorem Sys.DeskOnly.trans {y z t : Sys} (h : y.DeskOnly z) (k : z.DeskOnly t) : y.DeskOnly t := by
  obtain ⟨h1, h2, h3, h4, h5⟩ := h
  obtain ⟨k1, k2, k3, k4, k5⟩ := k
  exact ⟨k1.trans h1, k2.trans h2, k3.trans h3, fun d => (k4 d).trans (h4 d), h5.trans k5⟩

theorem Sys.DeskOnly.ite {y t t' : Sys} {p : Prop} [Decidable p] (h : y.DeskOnly t) (k : y.DeskOnly t') : y.DeskOnly (if p then t else t') := by
  split <;> assumption

theorem Sys.DeskOnly.ringsKept {y t : Sys} (h : y.DeskOnly t) : y.RingsKept t := h.1

theorem deskOnly_each {α : Type} {f : α → Sys → Sys} (l : List α) (h : ∀ a (y : Sys), y.DeskOnly (f a y)) (y : Sys) :
    y.DeskOnly (each f l y) :=
  each_keeps (P := y.DeskOnly) l (fun a _ z hz => hz.trans (h a z)) (deskOnly_refl y)

theorem Sys.MsgOnly.deskOnly {y t : Sys} (h : y.MsgOnly t) (hr : ∀ a, 0x900000 ≤ a → a < 0x920000 → t.reg a = y.reg a) : y.DeskOnly t := by
  obtain ⟨h, -⟩ := h
  refine ⟨by rw [h], by rw [h], by rw [h], fun d => by rw [h]; rfl, by rw [h], by rw [h], by rw [h], hr, fun c => ?_⟩
  rw [show t.core c = y.core c by rw [h]; rfl]
  rfl

theorem deskOnly_msix (v : Nat) (y : Sys) : y.DeskOnly (y.msix v) :=
  (msgOnly_reports (reportsOnly_msix v y)).deskOnly fun _ ha _ => msix_reg (by omega) v y

theorem deskOnly_recordErr {g : Pg} (hg : ∀ a, 0x900000 ≤ a → a < 0x920000 → ¬ errTouches g a) (b d : Nat) (y : Sys) :
    y.DeskOnly (y.recordErr g b d) :=
  (msgOnly_reports (reportsOnly_recordErr g b d y)).deskOnly fun a ha hb => recordErr_reg (hg a ha hb) b d y

theorem deskOnly_emit (o : Out) (y : Sys) : y.DeskOnly (y.emit o) :=
  (msgOnly_emit o y).deskOnly fun _ _ _ => by rw [Sys.reg, emit_regs]; rfl

theorem Sys.Stirs.deskOnly {y t : Sys} (h : y.Stirs t) : y.DeskOnly t := by
  obtain ⟨h, hd, hr, hc⟩ := h
  exact ⟨by rw [h], by rw [h], by rw [h], fun d => (hd d).2, by rw [h], by rw [h], by rw [h], fun a _ ha => hr a (.inl (by omega)), hc⟩

/-- A write of a register of neither the engine nor a core. -/
theorem deskOnly_setReg {o : Nat} (ho : o < 0x900000 ∨ 0x920000 ≤ o) (v : Word) (y : Sys) : y.DeskOnly (y.setReg o v) :=
  ⟨rfl, rfl, rfl, fun _ => rfl, rfl, rfl, rfl, fun _ _ _ => reg_setReg_ne (by omega) v y, fun _ => rfl⟩

theorem deskOnly_updDec (f : Decust → Decust) (y : Sys) : y.DeskOnly (y.updDec f) :=
  deskOnly_of rfl rfl rfl (fun _ => rfl) rfl rfl rfl rfl rfl

theorem deskOnly_updInst (i : Nat) (f : Inst → Inst) (y : Sys) : y.DeskOnly (y.updInst i f) :=
  deskOnly_of rfl rfl rfl (fun _ => rfl) rfl rfl rfl rfl rfl

theorem deskOnly_updSrc (n : Nat) (f : CSrc → CSrc) (y : Sys) : y.DeskOnly (y.updSrc n f) :=
  deskOnly_of rfl rfl rfl (fun _ => rfl) rfl rfl rfl rfl rfl

theorem deskOnly_updMbx (j : Nat) (f : Mbx → Mbx) (y : Sys) : y.DeskOnly (y.updMbx j f) :=
  deskOnly_of rfl rfl rfl (fun _ => rfl) rfl rfl rfl rfl rfl

theorem snw1_above (o : Nat) : 0x920000 ≤ (onePg .snw 1).base + o := by
  show 0x920000 ≤ 0xA00000 + 1 * 0x1000 + o
  omega

theorem tenPg_apart (a : Nat) (ha : 0x900000 ≤ a) (_ : a < 0x920000) : ¬ errTouches tenPg a := by
  show ¬ errTouches ⟨.ten, 0, 0⟩ a
  unfold errTouches
  simp only [Pg.base]
  omega

theorem deskOnly_meqPut (kind : Nat) (rec : List Word) (y : Sys) : y.DeskOnly (y.meqPut kind rec) := by
  unfold Sys.meqPut
  exact (deskOnly_emit _ y).trans (deskOnly_setReg (.inl (by decide)) _ _)

theorem deskOnly_meqEvent (v : Option Nat) (e : Ev) (y : Sys) : y.DeskOnly (y.meqEvent v e) := by
  unfold Sys.meqEvent
  split_ifs
  · exact deskOnly_refl y
  · refine Sys.DeskOnly.trans ?_ (deskOnly_msix _ _)
    unfold Sys.meqPutEv
    exact (deskOnly_meqPut _ _ y).trans (deskOnly_updDec _ _)
  · exact deskOnly_updDec _ y
  · exact ((deskOnly_setReg (.inl (by decide)) _ y).trans (deskOnly_recordErr tenPg_apart _ _ _)).trans (deskOnly_updDec _ _)

theorem deskOnly_tenantEvent (i : Nat) (e : Ev) (y : Sys) : y.DeskOnly (y.tenantEvent i e) := by
  unfold Sys.tenantEvent
  refine .ite (deskOnly_refl y) ?_
  split
  · exact deskOnly_refl y
  · exact deskOnly_refl y
  · exact deskOnly_updInst _ _ y
  · exact .ite (deskOnly_refl y) (deskOnly_of rfl rfl rfl (fun _ => rfl) rfl rfl rfl rfl rfl)

theorem deskOnly_wakeHost (y : Sys) : y.DeskOnly y.wakeHost := by
  have hpme : y.DeskOnly { y with pins := { y.pins with pmeStatus := true } } := deskOnly_of rfl rfl rfl (fun _ => rfl) rfl rfl rfl rfl rfl
  unfold Sys.wakeHost
  dsimp only
  exact .ite (hpme.trans (deskOnly_emit _ _)) hpme

theorem deskOnly_latchHost (l : Nat) (y : Sys) : y.DeskOnly (y.latchSet l .host) := by
  have hset : y.DeskOnly ((y.setBit (onePg .snw 1) (0x48 + 4 * (l / 32)) (l % 32)).updSrc (256 + l) fun s => { s with lvl := true }) :=
    Sys.DeskOnly.trans (z := y.setBit (onePg .snw 1) (0x48 + 4 * (l / 32)) (l % 32)) (deskOnly_setReg (.inr (snw1_above _)) _ y) (deskOnly_updSrc _ _ _)
  have hwake : ∀ z : Sys, z.DeskOnly (z.raiseWake .host) := fun z => by
    have hinc : z.DeskOnly (z.incFld (onePg .snw 1) 0x50 15 0) := deskOnly_setReg (.inr (snw1_above _)) _ z
    exact hinc.trans (deskOnly_wakeHost _)
  exact (Sys.DeskOnly.ite (hset.trans (hwake _)) hset).trans (stirs_routeAll _).deskOnly

theorem deskOnly_latchSet {l : Nat} (hl : l < 64) {w : WakeTo} (hw : w = .host ∨ ∃ ds, w = .doms ds) (y : Sys) : y.DeskOnly (y.latchSet l w) := by
  rcases hw with rfl | ⟨ds, rfl⟩
  · exact deskOnly_latchHost l y
  · exact (stirs_latchSet hl ds y).deskOnly

theorem deskOnly_mbxTell (j : Nat) (e : Ev) (first : Bool) (y : Sys) : y.DeskOnly (y.mbxTell j e first) := by
  have hmsg : y.DeskOnly y.ldrMsg := .ite (deskOnly_msix _ y) (deskOnly_refl y)
  have htell : y.DeskOnly (if 1 ≤ (y.mbx j).recv ∧ (y.mbx j).recv ≤ 16 then y.cicPulse (32 + j)
      else if (y.mbx j).recv = 18 then y.meqEvent none e
      else if (y.mbx j).recv = 19 then (if first then y.ldrMsg else y)
      else y) :=
    .ite (stirs_cicPulse _ y).deskOnly (.ite (deskOnly_meqEvent _ _ y) (.ite (.ite hmsg (deskOnly_refl y)) (deskOnly_refl y)))
  unfold Sys.mbxTell
  dsimp only
  generalize (if 1 ≤ (y.mbx j).recv ∧ (y.mbx j).recv ≤ 16 then y.cicPulse (32 + j)
      else if (y.mbx j).recv = 18 then y.meqEvent none e
      else if (y.mbx j).recv = 19 then (if first then y.ldrMsg else y)
      else y) = z at htell ⊢
  refine .ite (htell.trans (deskOnly_latchSet (by decide) ?_ z)) htell
  split_ifs
  · exact .inl rfl
  · exact .inr ⟨_, rfl⟩
  · exact .inr ⟨_, rfl⟩

/-! ## The end of a command -/

theorem deskOnly_tmbReset (m cause : Nat) (y : Sys) : y.DeskOnly (y.tmbReset m cause) := by
  have hrevoke : ∀ i (z : Sys), z.DeskOnly (z.dnRevoke i cause) := fun i z =>
    .ite ((deskOnly_updInst _ _ z).trans (deskOnly_tenantEvent _ _ _)) (deskOnly_refl z)
  refine deskOnly_each _ (fun i z => ?_) y
  dsimp only
  have hr : z.DeskOnly (if (z.inst i).dn.sender == m then z.dnRevoke i cause else z) := .ite (hrevoke i z) (deskOnly_refl z)
  generalize (if (z.inst i).dn.sender == m then z.dnRevoke i cause else z) = w at hr ⊢
  exact .ite (hr.trans (deskOnly_updInst _ _ w)) hr

theorem deskOnly_mbxReset (m cause : Nat) (y : Sys) : y.DeskOnly (y.mbxReset m cause) := by
  refine deskOnly_each _ (fun j z => ?_) y
  dsimp only
  have hr : z.DeskOnly (if (z.mbx j).lock == m then z.updMbx j fun c => { c with lock := 0 } else z) :=
    .ite (deskOnly_updMbx _ _ z) (deskOnly_refl z)
  generalize (if (z.mbx j).lock == m then z.updMbx j fun c => { c with lock := 0 } else z) = w at hr ⊢
  generalize z.mbx j = c
  refine .ite ?_ (.ite (hr.trans (deskOnly_updMbx _ _ w)) hr)
  have hu := hr.trans (deskOnly_updMbx j (fun d => { d with ch := d.ch.revoke, again := decide (d.recv = m) }) w)
  exact .ite hu (hu.trans (deskOnly_mbxTell _ _ _ _))

theorem deskOnly_mbxAgain (m : Nat) (y : Sys) : y.DeskOnly (y.mbxAgain m) := by
  refine deskOnly_each _ (fun j z => ?_) y
  dsimp only
  exact .ite ((deskOnly_updMbx j (fun c => { c with again := false }) z).trans (deskOnly_mbxTell _ _ _ _)) (deskOnly_refl z)

theorem deskOnly_restartEnd (y : Sys) : y.DeskOnly y.restartEnd := by
  unfold Sys.restartEnd
  refine .ite ?_ (deskOnly_refl y)
  dsimp only
  have h1 := (deskOnly_tmbReset 18 3 y).trans (deskOnly_mbxReset 18 3 _)
  generalize (y.tmbReset 18 3).mbxReset 18 3 = a at h1 ⊢
  have h2 := h1.trans (deskOnly_each (f := fun (e : Nat × Inst) (y : Sys) => y.updInst e.1 fun n => { n with up := { n.up with again := true } })
    (a.host.insts.filter fun e => e.2.up.go) (fun e z => deskOnly_updInst _ _ z) a)
  generalize each (fun (e : Nat × Inst) (y : Sys) => y.updInst e.1 fun n => { n with up := { n.up with again := true } })
    (a.host.insts.filter fun e => e.2.up.go) a = b at h2 ⊢
  refine Sys.DeskOnly.trans ?_ (deskOnly_mbxAgain 18 _)
  refine Sys.DeskOnly.trans ?_ (deskOnly_updDec _ _)
  refine Sys.DeskOnly.trans ?_ (deskOnly_setReg (.inl (by decide)) _ _)
  refine Sys.DeskOnly.trans ?_ (deskOnly_setReg (.inl (by decide)) _ _)
  refine Sys.DeskOnly.trans ?_ (deskOnly_setReg (.inl (by decide)) _ _)
  refine Sys.DeskOnly.trans ?_ (deskOnly_setReg (.inl (by decide)) _ _)
  refine Sys.DeskOnly.trans ?_ (deskOnly_setReg (.inl (by decide)) _ _)
  refine Sys.DeskOnly.trans ?_ (deskOnly_setReg (.inl (by decide)) _ _)
  exact h2

theorem deskOnly_decEnd (q st : Nat) (res : List Word) (y : Sys) : y.DeskOnly (y.decEnd q st res) := by
  have hresp : ∀ (d : List Word) (z : Sys), z.DeskOnly (z.respond d) := fun d z =>
    .ite ((deskOnly_meqPut _ _ z).trans (deskOnly_msix _ _)) (deskOnly_updDec _ z)
  have hfin : ∀ (q st : Nat) (res : List Word) (z : Sys), z.DeskOnly (z.decFin q st res) := fun q st res z => by
    unfold Sys.decFin
    split
    · exact deskOnly_refl z
    · dsimp only
      exact .ite (deskOnly_updDec _ z) ((deskOnly_updDec _ z).trans (hresp _ _))
  refine ((hfin q st res y).trans ?_).trans (deskOnly_restartEnd _)
  exact deskOnly_each _ (fun c z => .ite (hfin _ _ _ z) (deskOnly_refl z)) _

theorem deskOnly_decWake (sel : CWait → Bool) (st : Nat) (res : List Word) (y : Sys) : y.DeskOnly (y.decWake sel st res) :=
  deskOnly_each _ (fun _ z => deskOnly_decEnd _ _ _ z) y

theorem deskOnly_dnEvent (i : Nat) (y : Sys) : y.DeskOnly (y.dnEvent i) := by
  unfold Sys.dnEvent
  dsimp only
  exact .ite ((deskOnly_tenantEvent _ _ _).trans (deskOnly_latchHost 35 _)) (deskOnly_tenantEvent _ _ _)

theorem deskOnly_instSettle (i : Nat) (y : Sys) : y.DeskOnly (y.instSettle i) := by
  unfold Sys.instSettle
  refine .ite (deskOnly_refl y) ?_
  split
  · have hset := deskOnly_updInst i (fun n => { n with st := .created, lostPend := n.lostPend || n.evLost, evLost := false }) y
    exact Sys.DeskOnly.trans (.ite (hset.trans (deskOnly_dnEvent i _)) hset) (deskOnly_decWake _ _ _ _)
  · exact (deskOnly_updInst _ _ y).trans (deskOnly_decWake _ _ _ _)
  · exact deskOnly_refl y

end Sys2Proof.Machine

/-! SUPPORT. The read that a scan's channel carries (R188, R612): other reads leave it alone. -/

namespace Sys2Proof.Machine

/-! ## One channel's change -/

/-- Of the host DMA's channels only channel `c` has changed, and it serves `u`. -/
def Sys.ChanOnly (c : Nat) (u : HUse) (y t : Sys) : Prop := (∀ m, m ≠ c → t.chan 0 m = y.chan 0 m) ∧ (t.chan 0 c).use = u

theorem chan_of_dma {y t : Sys} (h : t.usb.dma = y.usb.dma) (e m : Nat) : t.chan e m = y.chan e m := by
  rw [Sys.chan, h]
  rfl

theorem chanOnly_updChan {c : Nat} {u : HUse} {y z : Sys} (h : y.ChanOnly c u z) {f : Chan2 → Chan2} (hf : ∀ k, (f k).use = k.use) :
    y.ChanOnly c u (z.updChan 0 c f) :=
  ⟨fun m hm => (FMap.get_upd_ne ({} : Chan2) (by omega) f z.usb.dma).trans (h.1 m hm),
    (congrArg Chan2.use (FMap.get_upd_self ({} : Chan2) (0 * 32 + c) f z.usb.dma)).trans ((hf _).trans h.2)⟩

theorem chanOnly_take (c : Nat) {u : HUse} {f : Chan2 → Chan2} (hf : (f = fun k => { f k with use := u })) (y : Sys) :
    y.ChanOnly c u (y.updChan 0 c f) :=
  ⟨fun m hm => FMap.get_upd_ne ({} : Chan2) (by omega) f y.usb.dma,
    (congrArg Chan2.use (FMap.get_upd_self ({} : Chan2) (0 * 32 + c) f y.usb.dma)).trans (by rw [hf])⟩

theorem Sys.ChanOnly.dma {c : Nat} {u : HUse} {y z t : Sys} (h : y.ChanOnly c u z) (k : t.usb.dma = z.usb.dma) : y.ChanOnly c u t :=
  ⟨fun m hm => (chan_of_dma k 0 m).trans (h.1 m hm), by rw [chan_of_dma k]; exact h.2⟩

theorem emit_dma (o : Out) (y : Sys) : (y.emit o).usb.dma = y.usb.dma := by
  rw [(msgOnly_emit o y).1]

theorem chanOnly_readIssue {c : Nat} {u : HUse} (fuel : Nat) {y z : Sys} (h : y.ChanOnly c u z) : y.ChanOnly c u (z.readIssue 0 c fuel) := by
  induction fuel generalizing z with
  | zero => exact h
  | succ fuel ih =>
    unfold Sys.readIssue
    dsimp only
    split
    · split
      · rename_i a n _ _
        refine ih ?_
        have hsent := (chanOnly_updChan h (f := fun k => { k with req := k.req + n, outst := k.outst ++ [n] }) fun _ => rfl).dma
          (emit_dma (.rd (z.pfx (z.chan 0 c).inst) a n) _)
        exact hsent.dma rfl
      · exact h
    · exact h

/-! ## What carries a read -/

/-- The channels that carry `u` carry it still, and no other does; what does not carry anything may have been taken for another use. -/
def Sys.Spares (u : HUse) (y t : Sys) : Prop :=
  ∀ c, t.chan 0 c = y.chan 0 c ∨ ((y.chan 0 c).carries = false ∧ (t.chan 0 c).use ≠ u)

theorem spares_refl (u : HUse) (y : Sys) : y.Spares u y := fun _ => .inl rfl

theorem Sys.Spares.trans {u : HUse} {y z t : Sys} (h : y.Spares u z) (k : z.Spares u t) : y.Spares u t := fun c => by
  rcases h c with h | ⟨hc, hu⟩
  · rcases k c with k | ⟨kc, ku⟩
    · exact .inl (k.trans h)
    · exact .inr ⟨by rw [← h]; exact kc, ku⟩
  · rcases k c with k | ⟨-, ku⟩
    · exact .inr ⟨hc, by rw [k]; exact hu⟩
    · exact .inr ⟨hc, ku⟩

theorem Sys.Spares.dma {u : HUse} {y z t : Sys} (h : y.Spares u z) (k : t.usb.dma = z.usb.dma) : y.Spares u t :=
  h.trans fun c => .inl (chan_of_dma k 0 c)

/-- The channel that carries a read is the same one. -/
theorem Sys.Spares.carrier {u : HUse} {y t : Sys} (h : y.Spares u t) : t.hostCarrier u = y.hostCarrier u := by
  unfold Sys.hostCarrier
  congr 1
  funext c
  rcases h c with h | ⟨hc, hu⟩
  · rw [h]
  · rw [hc, beq_false_of_ne hu, Bool.and_false, Bool.false_and]

theorem Sys.Spares.chan {u : HUse} {y t : Sys} (h : y.Spares u t) {c : Nat} (hc : (y.chan 0 c).carries = true) : t.chan 0 c = y.chan 0 c := by
  rcases h c with h | ⟨hno, -⟩
  · exact h
  · exact absurd (hc.symm.trans hno) (by decide)

theorem spares_hostTake {u v : HUse} {y : Sys} (h : v ≠ u ∨ (y.hostCarrier u).isSome = true) (g : Nat) (i : Option Nat) (a n : Nat) :
    y.Spares u (y.hostTake g v i a n) := by
  unfold Sys.hostTake
  by_cases hno : ((y.hostCarrier v).isSome || (i.isSome && !y.pins.pasidEn)) = true
  · rw [if_pos hno]
    exact spares_refl u y
  · have hvu : v ≠ u := by
      rintro rfl
      rcases h with h | h
      · exact h rfl
      · rw [h] at hno
        exact hno rfl
    rw [if_neg hno]
    split
    · exact spares_refl u y
    · rename_i c hc
      have hidle : (y.chan 0 c).st = .idle := by simpa using List.find?_some hc
      have hfree : (y.chan 0 c).carries = false := by simp [Chan2.carries, hidle]
      dsimp only
      have h0 : y.ChanOnly c v (y.updChan 0 c fun k =>
          { st := .active, use := v, prio := (y.pgReg (dmaPg 0 c) (0x40 + 0x40 * (c % 8))).fld 1 0, inst := i, addr := a, len := n,
            err := k.err }) :=
        chanOnly_take c rfl y
      generalize (y.updChan 0 c fun k =>
          { st := .active, use := v, prio := (y.pgReg (dmaPg 0 c) (0x40 + 0x40 * (c % 8))).fld 1 0, inst := i, addr := a, len := n,
            err := k.err }) = z at h0 ⊢
      have h1 : y.ChanOnly c v (if (decide (0 < n) && z.blocked c (z.chan 0 c)) = true then z.updChan 0 c fun k => { k with st := .preempted }
          else z) := by
        split
        · exact chanOnly_updChan h0 fun _ => rfl
        · exact h0
      generalize (if (decide (0 < n) && z.blocked c (z.chan 0 c)) = true then z.updChan 0 c fun k => { k with st := .preempted } else z) = w
        at h1 ⊢
      have h2 : y.ChanOnly c v (if n = 0 then (w.updChan 0 c fun k => { k with outst := [0] }).emit (.rd (w.pfx i) a 0) else w.readIssue 0 c 8) := by
        split
        · exact (chanOnly_updChan (f := fun k => { k with outst := [0] }) h1 fun _ => rfl).dma (emit_dma _ _)
        · exact chanOnly_readIssue 8 h1
      intro m
      by_cases hm : m = c
      · subst hm
        exact .inr ⟨hfree, by rw [h2.2]; exact hvu⟩
      · exact .inl (h2.1 m hm)

/-! ## The pump -/

/-- What the pump of the FETCH channels leaves for a scan that is carried, or that does not wait: the rings, and the scan's carrier. -/
def Sys.ScanKept (k : Nat) (y t : Sys) : Prop := y.Spares (.scan k) t ∧ y.RingsKept t

theorem scanKept_refl (k : Nat) (y : Sys) : y.ScanKept k y := ⟨spares_refl _ y, ringsKept_refl y⟩

theorem Sys.ScanKept.trans {k : Nat} {y z t : Sys} (h : y.ScanKept k z) (j : z.ScanKept k t) : y.ScanKept k t :=
  ⟨h.1.trans j.1, h.2.trans j.2⟩

theorem Sys.ScanKept.ite {k : Nat} {y t t' : Sys} {p : Prop} [Decidable p] (h : y.ScanKept k t) (j : y.ScanKept k t') :
    y.ScanKept k (if p then t else t') := by
  split <;> assumption

theorem scanKept_of {k : Nat} {y t : Sys} (hd : t.usb.dma = y.usb.dma) (hr : t.host.rings = y.host.rings) : y.ScanKept k t :=
  ⟨(spares_refl _ y).dma hd, hr⟩

theorem ringsKept_hostTake (g : Nat) (u : HUse) (i : Option Nat) (a n : Nat) (y : Sys) : y.RingsKept (y.hostTake g u i a n) := by
  unfold Sys.RingsKept
  rw [readOnly_hostTake g u i a n y]

theorem scanKept_hostTake {k : Nat} {v : HUse} {y : Sys} (h : v ≠ .scan k ∨ (y.hostCarrier (.scan k)).isSome = true) (g : Nat) (i : Option Nat)
    (a n : Nat) : y.ScanKept k (y.hostTake g v i a n) := ⟨spares_hostTake h g i a n, ringsKept_hostTake g v i a n y⟩

theorem scanKept_ctxPut (k j : Nat) (y : Sys) : y.ScanKept k (y.ctxPut j) := by
  unfold Sys.ctxPut
  dsimp only
  generalize (Out.mem none false false _ _) = o
  exact scanKept_of (emit_dma o { y with fresh := y.fresh + 10 }) (msgOnly_emit o { y with fresh := y.fresh + 10 }).ringsKept

theorem scanKept_ctxRead (k j : Nat) (y : Sys) : y.ScanKept k (y.ctxRead j) := by
  unfold Sys.ctxRead
  split_ifs
  · exact scanKept_refl k y
  · unfold Sys.ctxGo
    split_ifs
    · exact scanKept_refl k y
    · exact scanKept_hostTake (.inl (by simp)) _ _ _ _
  · unfold Sys.fetchWait
    split_ifs
    · exact scanKept_refl k y
    · exact scanKept_of rfl rfl

theorem scanKept_fetchIssue (k fuel : Nat) (y : Sys) : y.ScanKept k (y.fetchIssue fuel) := by
  induction fuel generalizing y with
  | zero => exact scanKept_refl k y
  | succ fuel ih =>
    unfold Sys.fetchIssue
    split
    · rename_i j _ _ _
      refine Sys.ScanKept.trans ?_ (ih _)
      have hturn : y.ScanKept k { y with host := { y.host with fetchInst := j / 32, fetchRing := FMap.put 15 (j / 32) (j % 32) y.host.fetchRing } } :=
        scanKept_of rfl rfl
      dsimp only
      generalize ({ y with host := { y.host with fetchInst := j / 32, fetchRing := FMap.put 15 (j / 32) (j % 32) y.host.fetchRing } } : Sys) = z
        at hturn ⊢
      split
      · exact hturn.trans (scanKept_hostTake (.inl (by simp)) _ _ _ _)
      · exact hturn.trans (scanKept_ctxRead k j z)
    · exact scanKept_refl k y

theorem scanKept_fetchTake {k : Nat} {y : Sys} (h : (y.hostCarrier (.scan k)).isSome = true) (u : HUse) : y.ScanKept k (y.fetchTake u) := by
  have hq : y.ScanKept k { y with host := { y.host with fetchQ := y.host.fetchQ.filter (· != u) } } := scanKept_of rfl rfl
  have hcar : (Sys.hostCarrier { y with host := { y.host with fetchQ := y.host.fetchQ.filter (· != u) } } (.scan k)).isSome = true := h
  unfold Sys.fetchTake
  dsimp only
  generalize ({ y with host := { y.host with fetchQ := y.host.fetchQ.filter (· != u) } } : Sys) = z at hq hcar ⊢
  split
  · unfold Sys.ctxGo
    split_ifs
    · exact hq
    · exact hq.trans (scanKept_hostTake (.inr hcar) _ _ _ _)
  · unfold Sys.scanGo
    dsimp only
    split_ifs
    · exact hq.trans (scanKept_hostTake (.inr hcar) _ _ _ _)
    · exact hq
  · exact hq

theorem scanKept_fetchPump {k : Nat} {y : Sys} (h : (y.hostCarrier (.scan k)).isSome = true ∨ y.host.fetchQ = []) : y.ScanKept k y.fetchPump := by
  have hput : ∀ (l : List Nat) (z : Sys), z.ScanKept k (each (fun j (y : Sys) => y.ctxPut j) l z) := fun l z =>
    each_keeps (P := z.ScanKept k) l (fun j _ w hw => hw.trans (scanKept_ctxPut k j w)) (scanKept_refl k z)
  have hputq : ∀ (l : List Nat) (z : Sys), (each (fun j (y : Sys) => y.ctxPut j) l z).host.fetchQ = z.host.fetchQ := fun l z =>
    each_keeps (P := fun w => w.host.fetchQ = z.host.fetchQ) l (fun j _ w hw => by
      unfold Sys.ctxPut
      dsimp only
      generalize (Out.mem none false false _ _) = o
      rw [(msgOnly_emit o { w with fresh := w.fresh + 10 }).1]
      exact hw) rfl
  unfold Sys.fetchPump
  dsimp only
  have h1 : y.ScanKept k (if (y.hostChan 0).isSome then each (fun k (y : Sys) => y.ctxPut k) y.host.ctxOut { y with host := { y.host with ctxOut := [] } }
      else y) ∧ (if (y.hostChan 0).isSome then each (fun k (y : Sys) => y.ctxPut k) y.host.ctxOut { y with host := { y.host with ctxOut := [] } }
      else y).host.fetchQ = y.host.fetchQ := by
    split
    · exact ⟨(scanKept_of (t := { y with host := { y.host with ctxOut := [] } }) rfl rfl).trans (hput _ _), hputq _ _⟩
    · exact ⟨scanKept_refl k y, rfl⟩
  obtain ⟨h1, hq⟩ := h1
  generalize (if (y.hostChan 0).isSome then each (fun k (y : Sys) => y.ctxPut k) y.host.ctxOut { y with host := { y.host with ctxOut := [] } }
      else y) = z at h1 hq ⊢
  refine Sys.ScanKept.trans ?_ (scanKept_fetchIssue k 8 _)
  rcases h with h | h
  · have hz : (z.hostCarrier (.scan k)).isSome = true := by rw [h1.1.carrier]; exact h
    refine h1.trans (each_keeps (P := z.ScanKept k) z.host.fetchQ (fun u _ w hw => ?_) (scanKept_refl k z))
    exact .ite (hw.trans (scanKept_fetchTake (by rw [hw.1.carrier]; exact hz) u)) hw
  · rw [hq, h]
    exact h1

end Sys2Proof.Machine

/-! SUPPORT. Scans, flushing reads and completion records (R109, R117-R119, R612). -/

namespace Sys2Proof.Machine

/-! ## The answer of a read -/

theorem ringsKept_emits (l : List (Nat × Nat)) (y : Sys) : y.RingsKept (each (fun (t : Nat × Nat) (y : Sys) => y.emit (.rd none t.1 t.2)) l y) :=
  ringsKept_each (f := fun (t : Nat × Nat) (y : Sys) => y.emit (.rd none t.1 t.2)) l (fun _ z => (msgOnly_emit _ z).ringsKept) y

theorem ringsKept_readRest (fuel a n : Nat) (y : Sys) : y.RingsKept (y.readRest fuel a n) := by
  induction fuel generalizing y a n with
  | zero => exact ringsKept_refl y
  | succ fuel ih =>
    unfold Sys.readRest
    split
    · exact ringsKept_refl y
    · exact (ringsKept_emits _ y).trans (ih _ _ _)

/-- The answer of the read that a channel carries, all of it brought. -/
theorem hostAnswer_ok {y : Sys} {u : HUse} {c : Nat} (h : y.hostCarrier u = some c) (hg : (y.chan 0 c).got < (y.chan 0 c).req)
    (hp : (y.chan 0 c).st ≠ .preempted) : ∃ t, y.hostAnswer u 0 = (some true, t) ∧ y.RingsKept t := by
  unfold Sys.hostAnswer
  rw [h]
  dsimp only
  rw [if_neg (not_or.2 ⟨by omega, fun h => hp h.2⟩), if_pos rfl]
  exact ⟨_, rfl, (ringsKept_readRest _ _ _ y).trans rfl⟩

theorem hostAnswer_poison {y : Sys} {u : HUse} {c : Nat} (h : y.hostCarrier u = some c) (hg : (y.chan 0 c).got < (y.chan 0 c).req)
    (hp : (y.chan 0 c).st ≠ .preempted) (hu : u ≠ .mcq) : ∃ t, y.hostAnswer u 5 = (some false, t) ∧ y.RingsKept t := by
  unfold Sys.hostAnswer
  rw [h]
  dsimp only
  rw [if_neg (not_or.2 ⟨by omega, fun h => hp h.2⟩), if_neg (by decide), if_neg (by simp [hu]), if_pos rfl]
  exact ⟨_, rfl, rfl⟩

/-! ## Scans -/

theorem scan_free (m : Nat) {g : Ring} (h : g.known + m ≤ g.size) :
    g.scan (List.replicate m true) = { g with known := g.known + m, scanning := g.scanning && decide (g.known + m < g.size) } := by
  induction m generalizing g with
  | zero => rfl
  | succ m ih =>
    rw [List.replicate_succ, Ring.scan, if_pos (by omega), ih (g := { g with known := g.known + 1 }) (by
      show g.known + 1 + m ≤ g.size
      omega)]
    have hk : g.known + 1 + m = g.known + (m + 1) := by omega
    show ({ g with known := g.known + 1 + m, scanning := g.scanning && decide (g.known + 1 + m < g.size) } : Ring) = _
    rw [hk]

theorem scan_stops (m : Nat) (os : List Bool) {g : Ring} (h : g.known + m < g.size) :
    g.scan (List.replicate m true ++ false :: os) = { g with known := g.known + m, scanning := false } := by
  induction m generalizing g with
  | zero => rfl
  | succ m ih =>
    rw [List.replicate_succ, List.cons_append, Ring.scan, if_pos (by omega), ih (g := { g with known := g.known + 1 }) (by
      show g.known + 1 + m < g.size
      omega)]
    have hk : g.known + 1 + m = g.known + (m + 1) := by omega
    show ({ g with known := g.known + 1 + m, scanning := false } : Ring) = _
    rw [hk]

theorem ringsKept_scanRead (k : Nat) (y : Sys) : y.RingsKept (y.scanRead k) := by
  unfold Sys.RingsKept
  rw [readOnly_scanRead k y]

theorem flushRecs_none {y : Sys} {k : Nat} (h : (y.ring k).waiting = []) : y.flushRecs k = y := by
  rw [Sys.flushRecs, h]
  rfl

theorem ringsKept_ringErr (k cause entry : Nat) (y : Sys) : y.RingsKept (y.ringErr k cause entry) := by
  unfold Sys.ringErr
  dsimp only
  exact (Sys.DeskOnly.ite (deskOnly_meqEvent _ _ y) ((deskOnly_meqEvent _ _ y).trans (deskOnly_tenantEvent _ _ _))).ringsKept

/-- A scan's read of its own ring: the entries found free, and the rest of the rings. -/
theorem scan_ends {y z : Sys} {k : Nat} {g : Ring} (hz : y.RingsKept z) (hg : y.ring k = g) (os : List Bool)
    (hw : (g.scan (os.take 8)).waiting = []) :
    (((z.updRing k fun r => r.scan (os.take 8)).flushRecs k).scanRead k).ring k = g.scan (os.take 8) ∧
    ∀ j, j ≠ k → (((z.updRing k fun r => r.scan (os.take 8)).flushRecs k).scanRead k).ring j = y.ring j := by
  have hself : (z.updRing k fun r => r.scan (os.take 8)).ring k = g.scan (os.take 8) := by rw [updRing_ring_self, hz.ring, hg]
  have hne : ∀ j, j ≠ k → (z.updRing k fun r => r.scan (os.take 8)).ring j = y.ring j := fun j hj =>
    (updRing_ring_ne hj _ _).trans (hz.ring j)
  generalize (z.updRing k fun r => r.scan (os.take 8)) = w at hself hne ⊢
  rw [flushRecs_none (by rw [hself]; exact hw)]
  exact ⟨((ringsKept_scanRead k w).ring k).trans hself, fun j hj => ((ringsKept_scanRead k w).ring j).trans (hne j hj)⟩

theorem scanRead_carried {y : Sys} {k : Nat} (h : (y.hostCarrier (.scan k)).isSome = true) : y.scanRead k = y := by
  unfold Sys.scanRead
  exact if_pos (by simp [h])

theorem scanRead_idle {y : Sys} {k : Nat} (h : (y.ring k).scanning = false) : y.scanRead k = y := by
  unfold Sys.scanRead
  exact if_pos (by simp [h])

/-! ## A flushing read that is done -/

/-- The rings, the transfers, the tenants and the bindings have not changed. -/
def Sys.PostKept (y t : Sys) : Prop :=
  t.host.rings = y.host.rings ∧ t.host.xfers = y.host.xfers ∧ t.host.insts = y.host.insts ∧ ∀ n, (t.slot n).pers = (y.slot n).pers

theorem postKept_refl (y : Sys) : y.PostKept y := ⟨rfl, rfl, rfl, fun _ => rfl⟩

theorem Sys.PostKept.trans {y z t : Sys} (h : y.PostKept z) (k : z.PostKept t) : y.PostKept t := by
  obtain ⟨h1, h2, h3, h4⟩ := h
  obtain ⟨k1, k2, k3, k4⟩ := k
  exact ⟨k1.trans h1, k2.trans h2, k3.trans h3, fun n => (k4 n).trans (h4 n)⟩

theorem Sys.PostKept.ite {y t t' : Sys} {p : Prop} [Decidable p] (h : y.PostKept t) (k : y.PostKept t') : y.PostKept (if p then t else t') := by
  split <;> assumption

theorem postKept_emit (o : Out) (y : Sys) : y.PostKept (y.emit o) := by
  unfold Sys.emit
  split_ifs
  · exact postKept_refl y
  · exact ⟨rfl, rfl, rfl, fun _ => rfl⟩
  · exact ⟨rfl, rfl, rfl, fun _ => rfl⟩
  · exact ⟨rfl, rfl, rfl, fun _ => rfl⟩
  · exact ⟨rfl, rfl, rfl, fun _ => rfl⟩

theorem postKept_updSlot {n : Nat} {f : Slot → Slot} (hf : ∀ s, (f s).pers = s.pers) (y : Sys) : y.PostKept (y.updSlot n f) := by
  refine ⟨rfl, rfl, rfl, fun m => ?_⟩
  by_cases hm : m = n
  · subst hm
    rw [updSlot_slot_self, hf]
  · rw [updSlot_slot_ne hm]

theorem postKept_ctlEffects (x : Xfer) (y : Sys) : y.PostKept (y.ctlEffects x) := by
  unfold Sys.ctlEffects
  dsimp only
  exact .ite (postKept_updSlot (by exact fun _ => rfl) y)
    (.ite (postKept_updSlot (by exact fun _ => rfl) y) (.ite (postKept_updSlot (by exact fun _ => rfl) y) (postKept_refl y)))

theorem postKept_recordErr (g : Pg) (b d : Nat) (y : Sys) : y.PostKept (y.recordErr g b d) := by
  have h := reportsOnly_recordErr g b d y
  unfold Sys.reportsOnly at h
  generalize y.recordErr g b d = t at h ⊢
  exact ⟨by rw [h], by rw [h], by rw [h], fun n => by rw [h]; rfl⟩

theorem ringSettle_running {y : Sys} {k : Nat} (hst : (y.ring k).st = .running) (hd : (y.ring k).destroying = false) : y.ringSettle k = y := by
  unfold Sys.ringSettle
  dsimp only
  rw [hst, hd]
  split <;> rfl

theorem writeRecs_full {y : Sys} {k : Nat} (h : (y.ring k).known = 0) (n : Nat) : y.writeRecs k n = y := by
  cases n with
  | zero => rfl
  | succ n =>
    unfold Sys.writeRecs
    exact if_pos (by simp [h])

/-- The record of a finished transfer is ready, and waits for an entry of its completion ring. -/
theorem postX_waits {y : Sys} {x : Xfer} {i st : Nat} (hi : x.inst = some i) (hs : x.silent = false) (hring : x.ring < 16)
    (hxf : y.host.xfers = [x]) (hpers : (y.slot x.slot).pers.code ≠ 4) (hknown : (y.ring (ringKey i (16 + x.cmp))).known = 0)
    (hcmp : x.cmp < 4) (hrun : (y.ring x.rkey).st = .running) (hd : (y.ring x.rkey).destroying = false) :
    (y.postX x st).host.xfers = [] ∧ (y.postX x st).host.insts = y.host.insts ∧
    ∃ c : CRec, ((y.postX x st).ring (ringKey i (16 + x.cmp))).waiting = recIns c (y.ring (ringKey i (16 + x.cmp))).waiting ∧ c.xid = x.id ∧
      c.status = st ∧ c.sring = x.ring ∧ c.entry = x.last ∧ c.bytes = x.bytes ∧ c.fseq = x.fseq := by
  have hkey : x.rkey = ringKey i x.ring := by rw [Xfer.rkey, hi]; rfl
  have hck : ringKey i (16 + x.cmp) ≠ x.rkey := by
    rw [hkey]
    unfold ringKey
    omega
  unfold Sys.postX
  rw [hi]
  dsimp only
  rw [if_neg (Bool.eq_false_iff.1 hs)]
  have h1 : y.PostKept (if st = 0 ∧ x.ty = 2 then y.ctlEffects x else y) := .ite (postKept_ctlEffects x y) (postKept_refl y)
  generalize (if st = 0 ∧ x.ty = 2 then y.ctlEffects x else y) = a at h1 ⊢
  generalize (y.ring x.rkey).base = base
  have h2 : y.PostKept (each (fun (e : Nat × Word) (y : Sys) =>
      y.emit (.mem (y.pfx (some i)) false false (base + 32 * e.1) (dwBytes [e.2 &&& ~~~1#32]))) x.entries a) :=
    h1.trans (each_keeps (P := a.PostKept) _ (fun _ _ w hw => hw.trans (postKept_emit _ w)) (postKept_refl a))
  generalize (each (fun (e : Nat × Word) (y : Sys) =>
      y.emit (.mem (y.pfx (some i)) false false (base + 32 * e.1) (dwBytes [e.2 &&& ~~~1#32]))) x.entries a) = b at h2 ⊢
  obtain ⟨hr, hx, hin, hp⟩ := h2
  have hbr : ∀ j, b.ring j = y.ring j := fun j => by rw [Sys.ring, hr]; rfl
  generalize hbad : (fun r : Ring => ({ r with
      taken := r.taken.filter (fun t => !(x.entries.any fun e => e.1 == t.idx)), bad := r.bad || (decide (1 < st) && st != 15) }).advHead) = f
  have hf : ∀ r, (f r).st = r.st ∧ (f r).destroying = r.destroying := fun r => by
    rw [← hbad]
    exact ⟨rfl, rfl⟩
  have hdx : ((b.dropXfer x.id).updRing x.rkey f).host.xfers = [] := by
    show b.host.xfers.filter (fun z => z.id != x.id) = []
    rw [hx, hxf]
    simp
  have hdi : ((b.dropXfer x.id).updRing x.rkey f).host.insts = y.host.insts := hin
  have hdk : ((b.dropXfer x.id).updRing x.rkey f).ring x.rkey = f (y.ring x.rkey) := by
    rw [updRing_ring_self, ← hbr]
    rfl
  have hdc : ((b.dropXfer x.id).updRing x.rkey f).ring (ringKey i (16 + x.cmp)) = y.ring (ringKey i (16 + x.cmp)) :=
    (updRing_ring_ne hck _ _).trans (hbr _)
  have hdp : (((b.dropXfer x.id).updRing x.rkey f).slot x.slot).pers.code ≠ 4 := by
    show (b.slot x.slot).pers.code ≠ 4
    rw [hp]
    exact hpers
  generalize (b.dropXfer x.id).updRing x.rkey f = d at hdx hdi hdk hdc hdp ⊢
  rw [if_neg (fun h => hdp h.1)]
  generalize hc : ({ xid := x.id, status := st, sring := x.ring, entry := x.last, slot := x.slot, epid := x.epid,
                     bytes := x.bytes, mf := x.finMf, us := x.finUs, ioc := x.ioc, entries := [], inst := i,
                     own := x.own, seq := x.seq, fseq := x.fseq } : CRec) = c
  have hself := updRing_ring_self (ringKey i (16 + x.cmp)) (fun r => { r with waiting := recIns c r.waiting }) d
  have hother : (d.updRing (ringKey i (16 + x.cmp)) fun r => { r with waiting := recIns c r.waiting }).ring x.rkey = d.ring x.rkey :=
    updRing_ring_ne hck.symm _ _
  have hkeep : (d.updRing (ringKey i (16 + x.cmp)) fun r => { r with waiting := recIns c r.waiting }).host.xfers = [] ∧
      (d.updRing (ringKey i (16 + x.cmp)) fun r => { r with waiting := recIns c r.waiting }).host.insts = y.host.insts := ⟨hdx, hdi⟩
  generalize (d.updRing (ringKey i (16 + x.cmp)) fun r => { r with waiting := recIns c r.waiting }) = e at hself hother hkeep ⊢
  have hfull : (e.ring (ringKey i (16 + x.cmp))).known = 0 := by
    rw [hself, hdc]
    exact hknown
  rw [Sys.flushRecs, writeRecs_full hfull, ringSettle_running (by rw [hother, hdk, (hf _).1]; exact hrun) (by rw [hother, hdk, (hf _).2]; exact hd)]
  refine ⟨hkeep.1, hkeep.2, c, by rw [hself, hdc], ?_⟩
  rw [← hc]
  exact ⟨rfl, rfl, rfl, rfl, rfl, rfl⟩

end Sys2Proof.Machine

/-! SUPPORT. The end of a flushing read that covers one transfer (R117-R120). -/

namespace Sys2Proof.Machine

/-! ## Before the record -/

/-- What the release of a record by a flushing read rests on: the rings, the transfers, the bindings, a RECORD channel, and that nothing
received is still to be drained. -/
structure Sys.FlushKept (i id p : Nat) (y t : Sys) : Prop where
  rings : t.host.rings = y.host.rings
  xfers : t.host.xfers = y.host.xfers
  insts : t.host.insts = y.host.insts
  pers : ∀ n, (t.slot n).pers = (y.slot n).pers
  recOpen : y.recOpen = true → t.recOpen = true
  pending : t.rxPending p id = y.rxPending p id
  drain : y.drainBusy id = false → t.drainBusy id = false

theorem flushKept_refl (i id p : Nat) (y : Sys) : y.FlushKept i id p y := ⟨rfl, rfl, rfl, fun _ => rfl, fun h => h, rfl, fun h => h⟩

theorem Sys.FlushKept.trans {i id p : Nat} {y z t : Sys} (h : y.FlushKept i id p z) (k : z.FlushKept i id p t) : y.FlushKept i id p t :=
  ⟨k.rings.trans h.rings, k.xfers.trans h.xfers, k.insts.trans h.insts, fun n => (k.pers n).trans (h.pers n),
    fun ho => k.recOpen (h.recOpen ho), k.pending.trans h.pending, fun hd => k.drain (h.drain hd)⟩

theorem hostChan_isSome {y : Sys} {g : Nat} : (y.hostChan g).isSome = true ↔ ∃ j < 8, (y.chan 0 (g + j)).st = .idle := by
  unfold Sys.hostChan
  rw [List.find?_isSome]
  simp

theorem flushKept_chanIdle {i id p c : Nat} (hc : c < 32) (y : Sys) : y.FlushKept i id p (y.chanIdle 0 c) := by
  refine ⟨rfl, rfl, rfl, fun _ => rfl, fun ho => ?_, rfl, fun hd => ?_⟩
  · simp only [Sys.recOpen, Sys.recChan, Bool.and_eq_true, hostChan_isSome] at ho ⊢
    obtain ⟨⟨j, hj, hidle⟩, hp⟩ := ho
    refine ⟨⟨j, hj, ?_⟩, hp⟩
    by_cases hjc : 8 + j = c
    · rw [hjc]
      exact congrArg Chan2.st (FMap.get_upd_self ({} : Chan2) (0 * 32 + c) (fun k => { st := .idle, err := k.err }) y.usb.dma)
    · exact (congrArg Chan2.st (FMap.get_upd_ne ({} : Chan2) (by omega) (fun k => { st := .idle, err := k.err }) y.usb.dma)).trans hidle
  · unfold Sys.drainBusy at hd ⊢
    rw [List.any_eq_false] at hd ⊢
    rintro ⟨j, v⟩ hmem
    have hmem : (j, v) ∈ FMap.upd ({} : Chan2) (0 * 32 + c) (fun k => { st := .idle, err := k.err }) y.usb.dma := hmem
    rcases mem_upd hmem with h | ⟨hj, -, -⟩
    · exact hd _ h
    · have : ¬ 32 ≤ j := by omega
      simp [this]

theorem flushKept_recordErr (i id p : Nat) (g : Pg) (b d : Nat) (y : Sys) : y.FlushKept i id p (y.recordErr g b d) := by
  obtain ⟨hr, hx, hi, hp⟩ := postKept_recordErr g b d y
  have h := reportsOnly_recordErr g b d y
  unfold Sys.reportsOnly at h
  generalize y.recordErr g b d = t at hr hx hi hp h ⊢
  refine ⟨hr, hx, hi, hp, fun ho => ?_, ?_, fun hd => ?_⟩
  · rw [h]; exact ho
  · rw [h]; rfl
  · rw [h]; exact hd

theorem flushKept_updEp {i id p : Nat} (n e : Nat) (f : Ep → Ep) (y : Sys) : y.FlushKept i id p (y.updEp n e f) :=
  ⟨rfl, rfl, rfl, (postKept_updSlot (n := n) (f := fun s => { s with eps := FMap.upd {} e f s.eps }) (fun _ => rfl) y).2.2.2, fun h => h, rfl, fun h => h⟩

theorem Sys.FlushKept.ite {i id p : Nat} {y t t' : Sys} {q : Prop} [Decidable q] (h : y.FlushKept i id p t) (k : y.FlushKept i id p t') :
    y.FlushKept i id p (if q then t else t') := by
  split <;> assumption

/-- The read's channel is free again, and its failure recorded. -/
def Sys.flushOver (i : Nat) (ok : Bool) (y : Sys) : Sys :=
  let y := match y.hostCarrier (.flush i) with
    | some c => y.chanIdle 0 c
    | none => y
  if ok then y else y.recordErr (onePg .hdma 0) 9 i

theorem flushKept_over (i id p : Nat) (ok : Bool) (y : Sys) : y.FlushKept i id p (y.flushOver i ok) := by
  have hidle : y.FlushKept i id p (match y.hostCarrier (.flush i) with
      | some c => y.chanIdle 0 c
      | none => y) := by
    split
    · next c hc => exact flushKept_chanIdle (List.mem_range.1 (List.mem_of_find?_eq_some hc)) y
    · exact flushKept_refl i id p y
  unfold Sys.flushOver
  dsimp only
  generalize (match y.hostCarrier (.flush i) with
      | some c => y.chanIdle 0 c
      | none => y) = z at hidle ⊢
  exact .ite hidle (hidle.trans (flushKept_recordErr i id p _ _ _ z))

/-- A transfer that a flushing read covers, as the read leaves it. -/
def Xfer.flushed (x : Xfer) (st : Nat) : Xfer := { x with flush := 3, fin := some st }

/-- A finished transfer whose flushing read is done has its record go on. -/
theorem tryPost_flushed {y : Sys} {x : Xfer} {i st : Nat} (hxf : y.host.xfers = [x.flushed st]) (hi : x.inst = some i) (hs : x.silent = false)
    (hdrained : x.isIn = true → y.rxPending x.port x.id = false ∧ y.drainBusy x.id = false) (ho : y.recOpen = true) :
    y.tryPost x.id = y.postX (x.flushed st) st := by
  have hfind : y.xfer? x.id = some (x.flushed st) := by
    rw [Sys.xfer?, hxf]
    exact List.find?_cons_of_pos (beq_self_eq_true _)
  have hgone : (x.flushed st).gone = false := by
    simp [Xfer.gone, Xfer.flushed, hs]
  have hwait : ((x.flushed st).isIn && (y.rxPending (x.flushed st).port x.id || y.drainBusy x.id)) = false := by
    have hin : (x.flushed st).isIn = x.isIn := rfl
    rw [hin]
    cases h : x.isIn with
    | false => rfl
    | true =>
      obtain ⟨h1, h2⟩ := hdrained h
      rw [show (x.flushed st).port = x.port from rfl, h1, h2]
      rfl
  have hsil : (x.flushed st).silent = false := hs
  have hinst : (x.flushed st).inst = some i := hi
  unfold Sys.tryPost
  rw [hfind]
  dsimp only
  rw [show (x.flushed st).fin = some st from rfl]
  dsimp only
  have hsame : (if (x.flushed st).gone = true then y.rxRelease (x.flushed st).port x.id else y) = y := if_neg (Bool.eq_false_iff.1 hgone)
  rw [hsame, hwait, if_neg (by decide), hsil, if_neg (by decide), hinst, ho]
  rfl

/-- What a flushing read does to a transfer that it covers. -/
def Xfer.release (x : Xfer) (ok : Bool) (st : Nat) (y : Sys) : Sys :=
  (if !ok && x.epid != 0 && x.ty != 3 && x.inst.isSome && x.ty != 4 then y.updEp x.slot x.epid fun e => { e with halted := true } else y).updX
    x.id fun z => { z with flush := 3, fin := some st }

theorem flushDone_eq {y : Sys} {x : Xfer} {i st : Nat} {ok : Bool} (ho : y.recOpen = true) (hfl : (y.inst i).flushing = true)
    (hxf : y.host.xfers = [x]) (hi : x.inst = some i) (hflush : x.flush = 2) (hfin : x.fin = some st) :
    y.flushDone i ok =
      (((x.release ok (if ok then st else 10) ((y.updInst i fun n => { n with flushing := false }).flushOver i ok)).tryPost x.id).flushIssue
        i).instSettle i := by
  have hcov : (y.host.xfers.filter fun x => x.inst == some i && x.flush == 2).foldl
      (fun (l : List Xfer) x => l.takeWhile (·.fseq ≤ x.fseq) ++ x :: l.dropWhile (·.fseq ≤ x.fseq)) [] = [x] := by
    rw [hxf]
    simp [hi, hflush]
  unfold Sys.flushDone
  rw [if_neg (by simp [hfl])]
  dsimp only
  rw [hcov, ho]
  dsimp only [each]
  rw [hfin, if_neg (by decide)]
  rfl

theorem release_kept {y z : Sys} {x : Xfer} {i : Nat} (h : y.FlushKept i x.id x.port z) (hxf : y.host.xfers = [x]) (ok : Bool) (st : Nat) :
    y.FlushKept i x.id x.port { x.release ok st z with host := { (x.release ok st z).host with xfers := y.host.xfers } } ∧
    (x.release ok st z).host.xfers = [x.flushed st] := by
  have hep : z.FlushKept i x.id x.port (if (!ok && x.epid != 0 && x.ty != 3 && x.inst.isSome && x.ty != 4) = true then
      z.updEp x.slot x.epid fun e => { e with halted := true } else z) := .ite (flushKept_updEp _ _ _ z) (flushKept_refl _ _ _ z)
  unfold Xfer.release
  generalize (if (!ok && x.epid != 0 && x.ty != 3 && x.inst.isSome && x.ty != 4) = true then
      z.updEp x.slot x.epid fun e => { e with halted := true } else z) = d at hep ⊢
  have hall := h.trans hep
  refine ⟨⟨hall.rings, rfl, hall.insts, hall.pers, hall.recOpen, hall.pending, hall.drain⟩, ?_⟩
  show d.host.xfers.map _ = _
  rw [hall.xfers, hxf]
  simp [Xfer.flushed]

/-- A flushing read that covers one transfer, whose completion ring has no entry known free. -/
theorem flushDone_one {y : Sys} {x : Xfer} {i st : Nat} {ok : Bool} (ho : y.recOpen = true) (hfl : (y.inst i).flushing = true)
    (hst : (y.inst i).st = .running) (hxf : y.host.xfers = [x]) (hi : x.inst = some i) (hflush : x.flush = 2) (hfin : x.fin = some st)
    (hs : x.silent = false) (hdrained : x.isIn = true → y.rxPending x.port x.id = false ∧ y.drainBusy x.id = false) (hring : x.ring < 16)
    (hcmp : x.cmp < 4) (hpers : (y.slot x.slot).pers.code ≠ 4) (hknown : (y.ring (ringKey i (16 + x.cmp))).known = 0)
    (hrun : (y.ring x.rkey).st = .running) (hd : (y.ring x.rkey).destroying = false) :
    (y.flushDone i ok).host.xfers = [] ∧ ((y.flushDone i ok).inst i).flushing = false ∧
    ∃ c : CRec, ((y.flushDone i ok).ring (ringKey i (16 + x.cmp))).waiting = recIns c (y.ring (ringKey i (16 + x.cmp))).waiting ∧ c.xid = x.id ∧
      c.status = (if ok then st else 10) ∧ c.sring = x.ring ∧ c.entry = x.last ∧ c.bytes = x.bytes ∧ c.fseq = x.fseq := by
  rw [flushDone_eq ho hfl hxf hi hflush hfin]
  generalize (if ok = true then st else 10) = st'
  have hself := updInst_inst_self i (fun n => { n with flushing := false }) y
  have hkeep : (y.updInst i fun n => { n with flushing := false }).host.rings = y.host.rings ∧
      (y.updInst i fun n => { n with flushing := false }).host.xfers = y.host.xfers ∧
      (∀ n, (y.updInst i fun n => { n with flushing := false }).slot n = y.slot n) ∧
      (y.updInst i fun n => { n with flushing := false }).recOpen = y.recOpen ∧
      (y.updInst i fun n => { n with flushing := false }).rxPending x.port x.id = y.rxPending x.port x.id ∧
      (y.updInst i fun n => { n with flushing := false }).drainBusy x.id = y.drainBusy x.id := ⟨rfl, rfl, fun _ => rfl, rfl, rfl, rfl⟩
  generalize (y.updInst i fun n => { n with flushing := false }) = a at hself hkeep ⊢
  obtain ⟨har, hax, has, hao, hap, had⟩ := hkeep
  obtain ⟨hall, hx⟩ := release_kept (flushKept_over i x.id x.port ok a) (hax.trans hxf) ok st'
  have hr : ∀ j, (x.release ok st' (a.flushOver i ok)).ring j = y.ring j := fun j => by
    rw [Sys.ring, show (x.release ok st' (a.flushOver i ok)).host.rings = a.host.rings from hall.rings, har]
    rfl
  have hins : (x.release ok st' (a.flushOver i ok)).host.insts = a.host.insts := hall.insts
  have hps : ((x.release ok st' (a.flushOver i ok)).slot x.slot).pers.code ≠ 4 := by
    rw [show ((x.release ok st' (a.flushOver i ok)).slot x.slot).pers = (a.slot x.slot).pers from hall.pers x.slot, has]
    exact hpers
  have hopen : (x.release ok st' (a.flushOver i ok)).recOpen = true := hall.recOpen (hao.trans ho)
  have hdr : x.isIn = true → (x.release ok st' (a.flushOver i ok)).rxPending x.port x.id = false ∧
      (x.release ok st' (a.flushOver i ok)).drainBusy x.id = false := fun h => by
    obtain ⟨h1, h2⟩ := hdrained h
    exact ⟨hall.pending.trans (hap.trans h1), hall.drain (had.trans h2)⟩
  generalize x.release ok st' (a.flushOver i ok) = e at hx hr hins hps hopen hdr ⊢
  rw [tryPost_flushed hx hi hs hdr hopen]
  obtain ⟨hx', hi', hc⟩ := postX_waits (x := x.flushed st') (st := st') (i := i) (y := e) hi hs hring hx hps (by rw [hr]; exact hknown) hcmp
    (by rw [hr]; exact hrun) (by rw [hr]; exact hd)
  rw [hr] at hc
  generalize e.postX (x.flushed st') st' = t at hx' hi' hc ⊢
  have hti : t.inst i = { y.inst i with flushing := false } := by
    rw [Sys.inst, hi', hins]
    exact hself
  have hissue : t.flushIssue i = t := by
    unfold Sys.flushIssue
    rw [hti, if_neg Bool.false_ne_true, hx']
    rfl
  have hsettle : t.instSettle i = t := instSettle_other (by rw [hti]; simp [hst])
  rw [hissue, hsettle]
  exact ⟨hx', by rw [hti], hc⟩

end Sys2Proof.Machine

/-! Settles O36: completions and events reach their rings. -/

namespace Sys2Proof.Machine

/-! ## The read of a scan -/

theorem carries_of_hostCarrier {y : Sys} {u : HUse} {c : Nat} (h : y.hostCarrier u = some c) : (y.chan 0 c).carries = true := by
  have := List.find?_some h
  simp only [Bool.and_eq_true] at this
  exact this.1

/-- A read that no scan of this ring has issued. -/
theorem entryScanRead_none {s : State} {i : Fin 4096} {r : Fin 32} {rd : ScanRes} (hops : s.operates = true)
    (h : ((s.sys.scanRead (ringKey i r)).fetchPump).hostCarrier (.scan (ringKey i r)) = none) : exec (.entryScanRead i r rd) s = .next s :=
  exec_live_same (execEntryScanRead i r rd) rfl rfl hops (by
    dsimp only
    rw [h, ite_self])

theorem entryScanRead_found {s : State} {i : Fin 4096} {r : Fin 32} {os : List Bool} {c : Nat} {t : Sys} (hops : s.operates = true)
    (hu : s.sys.ringUnit = true) (hc : ((s.sys.scanRead (ringKey i r)).fetchPump).hostCarrier (.scan (ringKey i r)) = some c)
    (hs : (s.sys.ring (ringKey i r)).scanning = true)
    (ha : (((s.sys.scanRead (ringKey i r)).fetchPump).chan 0 c).addr = (s.sys.ring (ringKey i r)).base +
      entryBytes (ringKey i r) * (((s.sys.ring (ringKey i r)).wpos + (s.sys.ring (ringKey i r)).known) % (s.sys.ring (ringKey i r)).size))
    (ht : ((s.sys.scanRead (ringKey i r)).fetchPump).hostAnswer (.scan (ringKey i r)) 0 = (some true, t)) :
    exec (.entryScanRead i r (.ok os)) s = .next { s with sys :=
      (((t.instSettle i).updRing (ringKey i r) fun g => g.scan (os.take 8)).flushRecs (ringKey i r)).scanRead (ringKey i r) } := by
  refine (exec_live (execEntryScanRead i r (.ok os)) rfl rfl hops).trans ?_
  dsimp only
  rw [if_pos hu, hc]
  dsimp only [scanCode]
  rw [ht, hs, ha, beq_self_eq_true]
  rfl

theorem entryScanRead_poisoned {s : State} {i : Fin 4096} {r : Fin 32} {c : Nat} {t : Sys} (hops : s.operates = true)
    (hu : s.sys.ringUnit = true) (hc : ((s.sys.scanRead (ringKey i r)).fetchPump).hostCarrier (.scan (ringKey i r)) = some c)
    (hs : (s.sys.ring (ringKey i r)).scanning = true)
    (ha : (((s.sys.scanRead (ringKey i r)).fetchPump).chan 0 c).addr = (s.sys.ring (ringKey i r)).base +
      entryBytes (ringKey i r) * (((s.sys.ring (ringKey i r)).wpos + (s.sys.ring (ringKey i r)).known) % (s.sys.ring (ringKey i r)).size))
    (ht : ((s.sys.scanRead (ringKey i r)).fetchPump).hostAnswer (.scan (ringKey i r)) 5 = (some false, t)) :
    exec (.entryScanRead i r .poison) s = .next { s with sys :=
      (Sys.ringErr (ringKey i r) 5 (((s.sys.ring (ringKey i r)).wpos + (s.sys.ring (ringKey i r)).known) % (s.sys.ring (ringKey i r)).size)
        ((t.instSettle i).updRing (ringKey i r) fun g => { g with scanning := false })) } := by
  refine (exec_live (execEntryScanRead i r .poison) rfl rfl hops).trans ?_
  dsimp only
  rw [if_pos hu, hc]
  dsimp only [scanCode]
  rw [ht, hs, ha, beq_self_eq_true]
  rfl

theorem take_eight {m : Nat} (h : m ≤ 8) : (List.replicate m true).take 8 = List.replicate m true := by
  rw [List.take_replicate, Nat.min_eq_right h]

theorem take_eight_stop {m : Nat} (h : m < 8) (os : List Bool) :
    ∃ os', (List.replicate m true ++ false :: os).take 8 = List.replicate m true ++ false :: os' := by
  obtain ⟨n, hn⟩ : ∃ n, 8 - m = n + 1 := ⟨7 - m, by omega⟩
  refine ⟨os.take n, ?_⟩
  rw [List.take_append, take_eight (by omega), List.length_replicate, hn, List.take_succ_cons]

/-- The read of a running scan, by what it brings. -/
theorem scan_reads {s : State} {i : Fin 4096} {r : Fin 32} {c : Nat} (hops : s.operates = true) (hu : s.sys.ringUnit = true)
    (hs : (s.sys.ring (ringKey i r)).scanning = true) (hc : s.sys.hostCarrier (.scan (ringKey i r)) = some c)
    (hgot : (s.sys.chan 0 c).got < (s.sys.chan 0 c).req) (hp : (s.sys.chan 0 c).st ≠ .preempted)
    (ha : (s.sys.chan 0 c).addr = (s.sys.ring (ringKey i r)).base +
      entryBytes (ringKey i r) * (((s.sys.ring (ringKey i r)).wpos + (s.sys.ring (ringKey i r)).known) % (s.sys.ring (ringKey i r)).size)) :
    (∃ z, s.sys.RingsKept z ∧ ∀ os, exec (.entryScanRead i r (.ok os)) s = .next { s with sys :=
      ((z.updRing (ringKey i r) fun g => g.scan (os.take 8)).flushRecs (ringKey i r)).scanRead (ringKey i r) }) ∧
    ∃ z a, s.sys.RingsKept z ∧ exec (.entryScanRead i r .poison) s = .next { s with sys :=
      (Sys.ringErr (ringKey i r) 5 a (z.updRing (ringKey i r) fun g => { g with scanning := false })) } := by
  have hsome : (s.sys.hostCarrier (.scan (ringKey i r))).isSome = true := by rw [hc]; rfl
  have hsame : s.sys.scanRead (ringKey i r) = s.sys := scanRead_carried hsome
  obtain ⟨hsp, hrk⟩ := scanKept_fetchPump (k := ringKey i r) (y := s.sys) (.inl hsome)
  have hchan := hsp.chan (carries_of_hostCarrier hc)
  have hc' := hsp.carrier.trans hc
  rw [← hchan] at hgot hp ha
  obtain ⟨t, ht, htk⟩ := hostAnswer_ok hc' hgot hp
  obtain ⟨w, hw, hwk⟩ := hostAnswer_poison hc' hgot hp (by simp)
  rw [← hsame] at hc' ha ht hw
  rw [hsame] at ha hc' ht hw
  refine ⟨⟨t.instSettle i, hrk.trans (htk.trans (deskOnly_instSettle i t).ringsKept), fun os =>
    entryScanRead_found hops hu (by rw [hsame]; exact hc') hs (by rw [hsame]; exact ha) (by rw [hsame]; exact ht)⟩,
    w.instSettle i, _, hrk.trans (hwk.trans (deskOnly_instSettle i w).ringsKept),
    entryScanRead_poisoned hops hu (by rw [hsame]; exact hc') hs (by rw [hsame]; exact ha) (by rw [hsame]; exact hw)⟩

theorem scan_outcomes {s : State} {i : Fin 4096} {r : Fin 32} (hops : s.operates = true) (hu : s.sys.ringUnit = true) :
    let k := ringKey i r
    let g := s.sys.ring k
    let same := fun (t : Sys) => ∀ j, j ≠ k → t.ring j = s.sys.ring j
    (s.sys.hostCarrier (.scan k) = none → g.scanning = false → s.sys.host.fetchQ = [] → ∀ rd,
      Does (.entryScanRead i r rd) s fun t => t.host.rings = s.sys.host.rings) ∧
    ∀ c, g.scanning = true → s.sys.hostCarrier (.scan k) = some c → (s.sys.chan 0 c).got < (s.sys.chan 0 c).req →
      (s.sys.chan 0 c).st ≠ .preempted → (s.sys.chan 0 c).addr = g.base + entryBytes k * ((g.wpos + g.known) % g.size) → g.waiting = [] →
      (∀ m, m ≤ 8 → g.known + m ≤ g.size → Does (.entryScanRead i r (.ok (List.replicate m true))) s fun t =>
        t.ring k = { g with known := g.known + m, scanning := decide (g.known + m < g.size) } ∧ same t) ∧
      (∀ m os, m < 8 → g.known + m < g.size → Does (.entryScanRead i r (.ok (List.replicate m true ++ false :: os))) s fun t =>
        t.ring k = { g with known := g.known + m, scanning := false } ∧ same t) ∧
      Does (.entryScanRead i r .poison) s fun t => t.ring k = { g with scanning := false } ∧ same t := by
  intro k g same
  refine ⟨fun hno hscan hq rd => ?_, fun c hscan hc hgot hp ha hw => ?_⟩
  · refine ⟨s.sys, (entryScanRead_none hops ?_).trans rfl, rfl⟩
    rw [scanRead_idle hscan, (scanKept_fetchPump (k := k) (.inr hq)).1.carrier]
    exact hno
  · obtain ⟨⟨z, hz, hok⟩, w, a, hwk, hpoison⟩ := scan_reads hops hu hscan hc hgot hp ha
    refine ⟨fun m hm hsize => ⟨_, hok _, ?_⟩, fun m os hm hsize => ⟨_, hok _, ?_⟩, ⟨_, hpoison, ?_⟩⟩
    · have hg := scan_free m hsize
      have h := scan_ends hz (g := g) rfl (List.replicate m true) (by rw [take_eight hm, hg]; exact hw)
      rw [take_eight hm, hg, hscan, Bool.true_and] at h
      rw [take_eight hm]
      exact h
    · obtain ⟨os', hos⟩ := take_eight_stop hm os
      have hg := scan_stops m os' hsize
      have h := scan_ends hz (g := g) rfl (List.replicate m true ++ false :: os) (by rw [hos, hg]; exact hw)
      rw [hos, hg] at h
      rw [hos]
      exact h
    · have hkept := ringsKept_ringErr (ringKey i r) 5 a (w.updRing (ringKey i r) fun g => { g with scanning := false })
      exact ⟨(hkept.ring k).trans ((updRing_ring_self _ _ _).trans (by rw [hwk.ring])),
        fun j hj => (hkept.ring j).trans ((updRing_ring_ne hj _ _).trans (hwk.ring j))⟩

/-! ## The obligation -/

/-- Settles O36, clause by clause: the flushing read that covers one transfer has its record wait in the completion ring (`flushDone_one`),
a scan's answer is judged entry by entry (`scan_outcomes`), and an event goes straight to its ring, to SPQ, or nowhere. -/
theorem completionsAndEventsReachTheirRings : Obligations.completions_and_events_reach_their_rings := by
  unfold Obligations.completions_and_events_reach_their_rings
  refine ⟨fun s i ok hops => ⟨fun hfl => ?_, ?_⟩, fun s i r hops => ?_, fun s i r hops hu => scan_outcomes hops hu,
    fun s hops hu => ⟨fun hq => ?_, fun e rest hq => ⟨fun hst => ?_, fun hst => ⟨?_, ?_⟩⟩⟩, fun s hops hu => ⟨fun hw => ?_, ?_⟩⟩
  · refine exec_live_same (execFlushingReadDone i ok) rfl rfl hops ?_
    have : s.sys.flushDone i ok = s.sys := by
      unfold Sys.flushDone
      exact if_pos (by rw [hfl]; rfl)
    rw [this, ite_self]
  · intro x st hcf ho hfl hst hxf hi hflush hfin hs hdr hring hcmp hpers ck hknown hrun hd
    refine does_live (execFlushingReadDone i ok) rfl rfl hops ?_
    rw [if_neg (Bool.eq_false_iff.1 hcf)]
    exact flushDone_one ho hfl hst hxf hi hflush hfin hs hdr hring hcmp hpers hknown hrun hd
  · exact exec_live (execModIntervalExpiry i r) rfl rfl hops
  · refine exec_live_same execEventDelivery rfl rfl hops ?_
    rw [if_pos hu, Sys.deliverEvent, hq]
  · refine (exec_live execEventDelivery rfl rfl hops).trans ?_
    rw [if_pos hu, deliverEvent_gone hq hst]
  · intro ho hg hk hs hc
    refine does_live execEventDelivery rfl rfl hops ?_
    rw [if_pos hu, deliverEvent_straight hq hst ho hg hk hs hc]
    have h := delivers_putEvent e.inst e.ev { s.sys with host := { s.sys.host with evq := rest } }
    obtain ⟨a, b, hring⟩ := h.ring
    have hlost := h.lost
    rw [evtKey_div] at hlost
    exact ⟨h.evq, by rw [hring]; rfl, by rw [hring]; rfl, hlost, h.spq⟩
  · intro ho hno hl hlen hb
    refine does_live execEventDelivery rfl rfl hops ?_
    rw [if_pos hu, deliverEvent_spills hq hst ho hno]
    obtain ⟨h1, h2, h3⟩ := spillEvent_spilled (y := { s.sys with host := { s.sys.host with evq := rest } }) (i := e.inst) (e := e.ev) hl hlen hb
    exact ⟨h2, h1, h3⟩
  · refine exec_live_same execSpqWalk rfl rfl hops ?_
    rw [hw, Bool.and_false, Bool.false_and, if_neg (by decide)]
  · intro e ho hw hq hd g hc hseq hg hk
    refine does_live execSpqWalk rfl rfl hops ?_
    rw [hu, hw, ho, if_pos (by decide)]
    exact spqWalk_delivers hq hd hc hseq hg hk

end Sys2Proof.Machine

/-! SUPPORT. The pending-list pass and a detach's power (R250, R257, R260, R261): what they leave of a port that is out of service. -/

namespace Sys2Proof.Machine

/-! ## What leaves a port's pad alone -/

/-- Port `p` keeps its state, its VBUSEN and what it shows of a device, the waiting VBUSENs and their spacings stay, and the same domains
are ON. -/
structure Sys.PadKept (p : Nat) (y t : Sys) : Prop where
  st : (t.port p).st = (y.port p).st
  vbus : (t.port p).vbus = (y.port p).vbus
  conn : (t.port p).conn = (y.port p).conn
  speed : (t.port p).speed = (y.port p).speed
  susp : (t.port p).susp = (y.port p).susp
  stag : t.usb.power.stag5 = y.usb.power.stag5
  run : t.usb.power.stag5Run = y.usb.power.stag5Run
  on : ∀ d, t.on d = y.on d

theorem padKept_refl (p : Nat) (y : Sys) : y.PadKept p y := ⟨rfl, rfl, rfl, rfl, rfl, rfl, rfl, fun _ => rfl⟩

theorem Sys.PadKept.trans {p : Nat} {y z t : Sys} (h : y.PadKept p z) (k : z.PadKept p t) : y.PadKept p t :=
  ⟨k.st.trans h.st, k.vbus.trans h.vbus, k.conn.trans h.conn, k.speed.trans h.speed, k.susp.trans h.susp, k.stag.trans h.stag, k.run.trans h.run,
    fun d => (k.on d).trans (h.on d)⟩

theorem Sys.PadKept.ite {p : Nat} {y t t' : Sys} {q : Prop} [Decidable q] (h : y.PadKept p t) (k : y.PadKept p t') :
    y.PadKept p (if q then t else t') := by
  split <;> assumption

theorem padKept_each {α : Type} {p : Nat} {f : α → Sys → Sys} (l : List α) (h : ∀ a (y : Sys), y.PadKept p (f a y)) (y : Sys) :
    y.PadKept p (each f l y) :=
  each_keeps (P := y.PadKept p) l (fun a _ z hz => hz.trans (h a z)) (padKept_refl p y)

theorem padKept_of {y t : Sys} (p : Nat) (hp : t.usb.ports = y.usb.ports) (hw : t.usb.power = y.usb.power) (hd : ∀ d, t.on d = y.on d) :
    y.PadKept p t := by
  have hport : t.port p = y.port p := by
    rw [Sys.port, hp]
    rfl
  exact ⟨by rw [hport], by rw [hport], by rw [hport], by rw [hport], by rw [hport], by rw [hw], by rw [hw], hd⟩

theorem Sys.PortsKept.padKept {y t : Sys} (h : y.PortsKept t) (p : Nat) : y.PadKept p t := by
  obtain ⟨hp, -, hw, hd, -⟩ := h
  exact padKept_of p hp hw (on_of_doms hd)

theorem Sys.DeskOnly.padKept {y t : Sys} (h : y.DeskOnly t) (p : Nat) : y.PadKept p t := by
  obtain ⟨-, hu, -, hd, -⟩ := h
  exact padKept_of p (by rw [hu]) (by rw [hu]) hd

theorem padKept_eng {y t : Sys} (p : Nat) (hu : t.usb = y.usb) (hd : t.doms = y.doms) : y.PadKept p t :=
  padKept_of p (by rw [hu]) (by rw [hu]) (on_of_doms hd)

theorem padKept_updPort {q : Nat} {f : Port → Port} (hf : ∀ k, (f k).st = k.st ∧ (f k).vbus = k.vbus ∧ (f k).conn = k.conn ∧
    (f k).speed = k.speed ∧ (f k).susp = k.susp) (p : Nat) (y : Sys) : y.PadKept p (y.updPort q f) := by
  have hport : ∀ {k : Port}, k = y.port p ∨ k = f (y.port p) → k.st = (y.port p).st ∧ k.vbus = (y.port p).vbus ∧ k.conn = (y.port p).conn ∧
      k.speed = (y.port p).speed ∧ k.susp = (y.port p).susp := by
    rintro k (rfl | rfl)
    · exact ⟨rfl, rfl, rfl, rfl, rfl⟩
    · exact hf _
  obtain ⟨h1, h2, h3, h4, h5⟩ := hport (k := (y.updPort q f).port p) (by
    by_cases hpq : p = q
    · subst hpq
      exact .inr (updPort_port_self _ _ _)
    · exact .inl (updPort_port_ne hpq _ _))
  exact ⟨h1, h2, h3, h4, h5, rfl, rfl, fun _ => rfl⟩

theorem padKept_updPower {f : Power → Power} (hf : ∀ w, (f w).stag5 = w.stag5 ∧ (f w).stag5Run = w.stag5Run) (p : Nat) (y : Sys) :
    y.PadKept p (y.updPower f) := ⟨rfl, rfl, rfl, rfl, rfl, (hf _).1, (hf _).2, fun _ => rfl⟩

theorem padKept_updEnums (f : List Enum → List Enum) (p : Nat) (y : Sys) : y.PadKept p (y.updEnums f) :=
  padKept_of p rfl rfl fun _ => rfl

/-! ## The steps of a pass -/

theorem padKept_slotEvent (n : Nat) (e : Ev) (p : Nat) (y : Sys) : y.PadKept p (y.slotEvent n e) := by
  unfold Sys.slotEvent
  dsimp only
  split
  · exact ((portsKept_meqEvent none e y).trans (portsKept_tenantEvent _ _ _)).padKept p
  · exact (portsKept_meqEvent none e y).padKept p

theorem padKept_powerDenied (p q n r lim st kind req avail : Nat) (y : Sys) : y.PadKept p (y.powerDenied q n r lim st kind req avail) := by
  unfold Sys.powerDenied
  exact ((portsKept_setReg _ _ y).padKept p).trans (padKept_slotEvent _ _ p _)

theorem padKept_reserve (p q r : Nat) (amount : Int) (y : Sys) : y.PadKept p (y.reserve q r amount) :=
  padKept_updPort (fun k => by split <;> exact ⟨rfl, rfl, rfl, rfl, rfl⟩) p y

theorem padKept_setPend (p r : Nat) (l : List PwReq) (y : Sys) : y.PadKept p (y.setPend r l) := padKept_updPower (by exact fun _ => ⟨rfl, rfl⟩) p y

theorem noticeDrain_usb (fuel : Nat) (y : Sys) : (y.noticeDrain fuel).usb = y.usb ∧ (y.noticeDrain fuel).doms = y.doms := by
  induction fuel generalizing y with
  | zero => exact ⟨rfl, rfl⟩
  | succ fuel ih =>
    unfold Sys.noticeDrain
    split
    · exact ⟨rfl, rfl⟩
    · dsimp only
      split
      · exact ih _
      · exact ⟨rfl, rfl⟩

theorem padKept_hpwrNotice (p q : Nat) (y : Sys) : y.PadKept p (y.hpwrNotice q) := by
  unfold Sys.hpwrNotice
  dsimp only
  refine .ite ?_ (padKept_refl p y)
  unfold Sys.notify
  obtain ⟨hu, hd⟩ := noticeDrain_usb 1 (y.updSlot (y.port q).slot fun s =>
    { s with notice := min 4294967295 (s.notice + 0), outNotice := s.outNotice || !true, pwrNotice := s.pwrNotice || true, noteAt := y.tb })
  exact padKept_eng p hu hd

theorem padKept_hpwrUp (p q : Nat) (y : Sys) : y.PadKept p (y.hpwrUp q) :=
  (padKept_updPort (by exact fun _ => ⟨rfl, rfl, rfl, rfl, rfl⟩) p y).trans (padKept_hpwrNotice p q _)

theorem padKept_hpwrKick (p : Nat) (y : Sys) : y.PadKept p y.hpwrKick := by
  unfold Sys.hpwrKick
  refine .ite (padKept_refl p y) ?_
  split
  · exact (padKept_updPower (by exact fun _ => ⟨rfl, rfl⟩) p y).trans (padKept_hpwrUp p _ _)
  · exact padKept_refl p y

theorem padKept_hpwrWant (p q : Nat) (y : Sys) : y.PadKept p (y.hpwrWant q) :=
  (padKept_updPower (by exact fun _ => ⟨rfl, rfl⟩) p y).trans (padKept_hpwrKick p _)

theorem padKept_hpwrDown (p q : Nat) (y : Sys) : y.PadKept p (y.hpwrDown q) := by
  have hdown : y.PadKept p ((y.updPort q fun k => { k with hpwr := false }).updPower fun w => { w with stagH := w.stagH.filter (· != q) }) :=
    (padKept_updPort (by exact fun _ => ⟨rfl, rfl, rfl, rfl, rfl⟩) p y).trans (padKept_updPower (by exact fun _ => ⟨rfl, rfl⟩) p _)
  unfold Sys.hpwrDown
  dsimp only
  exact .ite (hdown.trans (padKept_hpwrNotice p q _)) hdown

theorem padKept_enumSetConfig (p q t : Nat) (y : Sys) : y.PadKept p (y.enumSetConfig q t) := by
  unfold Sys.enumSetConfig
  split
  · exact padKept_refl p y
  · next e _ =>
    dsimp only
    have hen : y.PadKept p (y.updEnum q t fun e => { e with st := .running, step := 8, sub := 0, tries := 0 }) := padKept_updEnums _ p y
    generalize (y.updEnum q t fun e => { e with st := .running, step := 8, sub := 0, tries := 0 }) = z at hen ⊢
    have hstep : y.PadKept p (if t = 0 then z.updPort q fun q => { q with step := 8 } else z) :=
      .ite (hen.trans (padKept_updPort (by exact fun _ => ⟨rfl, rfl, rfl, rfl, rfl⟩) p z)) hen
    generalize (if t = 0 then z.updPort q fun q => { q with step := 8 } else z) = w at hstep ⊢
    exact hstep.trans ((portsKept_issue _ _ _ _ _ w).padKept p)

theorem padKept_selectGranted (p q : Nat) (y : Sys) : y.PadKept p (y.selectGranted q) :=
  padKept_each _ (fun c z => by
    dsimp only
    have hcmd : z.PadKept p (z.updCmd c.seq fun c' => { c' with wait := .request (c.f 1 13 0) }) := padKept_of p rfl rfl fun _ => rfl
    exact hcmd.trans ((portsKept_issue _ _ _ _ _ _).padKept p)) y

/-! ## A port out of service -/

/-- Port `p` shows no device, and is POWERED, or OFF with VBUSEN low and nothing that raises it. -/
structure Sys.Gone (y : Sys) (p : Nat) : Prop where
  conn : (y.port p).conn = false
  speed : (y.port p).speed = .none
  susp : (y.port p).susp = .active
  state : (y.port p).st = .powered ∨ ((y.port p).st = .off ∧ (y.port p).vbus = false ∧
    ∀ n < 8, y.on n = true → FMap.get false n y.usb.power.stag5Run = false → p ∉ FMap.get [] n y.usb.power.stag5)

theorem Sys.Gone.kept {y t : Sys} {p : Nat} (h : y.Gone p) (k : y.PadKept p t) : t.Gone p := by
  obtain ⟨hc, hs, hu, hst⟩ := h
  refine ⟨k.conn.trans hc, k.speed.trans hs, k.susp.trans hu, ?_⟩
  rw [k.st, k.vbus, k.stag, k.run]
  simp only [k.on]
  exact hst

/-- A port that is POWERED stays so however VBUSENs rise. -/
theorem gone_of_powered {y t : Sys} {p : Nat} (h : y.Gone p) (hp : (y.port p).st = .powered) (hport : (t.port p).st = (y.port p).st ∧
    (t.port p).conn = (y.port p).conn ∧ (t.port p).speed = (y.port p).speed ∧ (t.port p).susp = (y.port p).susp) : t.Gone p := by
  obtain ⟨h1, h2, h3, h4⟩ := hport
  exact ⟨h2.trans h.conn, h3.trans h.speed, h4.trans h.susp, .inl (h1.trans hp)⟩

theorem mem_natIns {a b : Nat} {l : List Nat} (h : b ∈ natIns a l) : b = a ∨ b ∈ l := by
  induction l with
  | nil => exact .inl (List.mem_singleton.1 h)
  | cons c r ih =>
    unfold natIns at h
    split_ifs at h
    · exact .inr h
    · rcases List.mem_cons.1 h with h | h
      · exact .inl h
      · exact .inr h
    · rcases List.mem_cons.1 h with h | h
      · exact .inr (h ▸ List.mem_cons_self)
      · rcases ih h with h | h
        · exact .inl h
        · exact .inr (List.mem_cons_of_mem _ h)

theorem stag5_vbusLater_self (q : Nat) (y : Sys) :
    FMap.get [] (q / 16) (y.vbusLater q).usb.power.stag5 = riseIns q (FMap.get [] (q / 16) y.usb.power.stag5) := FMap.get_upd_self [] _ _ _

theorem stag5_vbusLater_ne {q n : Nat} (h : n ≠ q / 16) (y : Sys) :
    FMap.get [] n (y.vbusLater q).usb.power.stag5 = FMap.get [] n y.usb.power.stag5 := FMap.get_upd_ne [] h _ _

theorem gone_vbusLater {y : Sys} {p q : Nat} (h : y.Gone p) (hq : q ≠ p ∨ (y.port p).st = .powered) : (y.vbusLater q).Gone p := by
  obtain ⟨hc, hs, hu, hst⟩ := h
  refine ⟨hc, hs, hu, ?_⟩
  rcases hst with hst | ⟨hst, hv, hno⟩
  · exact .inl hst
  · refine .inr ⟨hst, hv, fun n hn hon hrun => ?_⟩
    have hmem := hno n hn hon hrun
    by_cases hnq : n = q / 16
    · subst hnq
      rw [stag5_vbusLater_self]
      intro hin
      rcases mem_natIns hin with h | h
      · rcases hq with hq | hq
        · exact hq h.symm
        · rw [hst] at hq
          cases hq
      · exact hmem h
    · rw [stag5_vbusLater_ne hnq]
      exact hmem

theorem gone_portUp {y : Sys} {p q : Nat} (h : y.Gone p) : (y.portUp q).Gone p ∧ (q = p → ((y.portUp q).port p).st = .powered) := by
  have hup : (y.updPort q fun k => { k with st := .powered, prof := y.nvProfile q }).Gone p ∧
      (q = p → ((y.updPort q fun k => { k with st := .powered, prof := y.nvProfile q }).port p).st = .powered) := by
    by_cases hpq : q = p
    · subst hpq
      have hport := updPort_port_self q (fun k => { k with st := .powered, prof := y.nvProfile q }) y
      have hst : ((y.updPort q fun k => { k with st := .powered, prof := y.nvProfile q }).port q).st = .powered := by rw [hport]
      exact ⟨⟨by rw [hport]; exact h.conn, by rw [hport]; exact h.speed, by rw [hport]; exact h.susp, .inl hst⟩, fun _ => hst⟩
    · have hport := updPort_port_ne (Ne.symm hpq) (fun k => { k with st := .powered, prof := y.nvProfile q }) y
      exact ⟨⟨by rw [hport]; exact h.conn, by rw [hport]; exact h.speed, by rw [hport]; exact h.susp, by rw [hport]; exact h.state⟩,
        fun hqp => absurd hqp hpq⟩
  unfold Sys.portUp
  dsimp only
  generalize (y.updPort q fun k => { k with st := .powered, prof := y.nvProfile q }) = z at hup ⊢
  have hwake := (deskOnly_decWake (· == .powered q) 0 [Word.ofN 1] z).padKept p
  generalize z.decWake (· == .powered q) 0 [Word.ofN 1] = w at hwake ⊢
  have hall : z.PadKept p (if ((y.nvProfile q).fld 3 2 != 0 && (y.nvProfile q).fld 23 16 == 0) || (y.nvProfile q).fld 3 2 == 3 then
      w.recordErr (pwrPg (q / 16)) 9 (q % 16) else w) :=
    .ite (hwake.trans ((portsKept_reports (reportsOnly_recordErr _ _ _ w)).padKept p)) hwake
  exact ⟨hup.1.kept hall, fun hqp => hall.st.trans (hup.2 hqp)⟩

theorem gone_granted {y : Sys} {p : Nat} (h : y.Gone p) (q : Nat) (k : PwKind) : (y.granted q k).Gone p := by
  unfold Sys.granted
  cases k with
  | base =>
    dsimp only
    split
    · obtain ⟨hg, hst⟩ := gone_portUp (q := q) h
      refine gone_vbusLater hg ?_
      by_cases hqp : q = p
      · exact .inr (hst hqp)
      · exact .inl hqp
    · exact h.kept (padKept_updEnums _ p y)
  | config =>
    dsimp only
    split
    · exact h.kept (.ite (padKept_enumSetConfig p q 0 y) (padKept_refl p y))
    · exact h.kept (padKept_selectGranted p q y)
  | high => exact h.kept (padKept_hpwrWant p q y)

theorem gone_passRail {y : Sys} {p : Nat} (h : y.Gone p) (fuel r : Nat) : (y.passRail fuel r).Gone p := by
  induction fuel generalizing y with
  | zero => exact h
  | succ fuel ih =>
    unfold Sys.passRail
    split
    · exact h
    · next q rest _ =>
      split
      · exact h
      · exact ih (gone_granted (((h.kept (padKept_setPend p r rest y)).kept (padKept_reserve p q.port r q.amount _)).kept
          (padKept_powerDenied p _ _ _ _ _ _ _ _ _)) _ _)

theorem gone_vbusKick {y : Sys} {p n : Nat} (h : y.Gone p) (hn : n < 8) : (y.vbusKick n).Gone p := by
  unfold Sys.vbusKick
  by_cases hrun : (FMap.get false n y.usb.power.stag5Run || !y.on n) = true
  · rw [if_pos hrun]
    exact h
  rw [if_neg hrun]
  simp only [Bool.or_eq_true, Bool.not_eq_true', not_or, Bool.not_eq_true, Bool.not_eq_false] at hrun
  obtain ⟨hrun, hon⟩ := hrun
  cases hl : FMap.get [] n y.usb.power.stag5 with
  | nil => exact h
  | cons q r =>
    dsimp only
    have hport : ((((y.updPower fun w => { w with stag5 := FMap.put [] n r w.stag5, stag5Run := FMap.put false n true w.stag5Run }).vbusUp
        q).port p) = y.port p) ∨ q = p := by
      by_cases hqp : q = p
      · exact .inr hqp
      · exact .inl (updPort_port_ne (Ne.symm hqp) _ _)
    have hself : q = p → ((y.updPower fun w => { w with stag5 := FMap.put [] n r w.stag5, stag5Run := FMap.put false n true w.stag5Run }).vbusUp
        q).port p = { y.port p with vbus := true, pg := false } := by
      rintro rfl
      exact updPort_port_self _ _ _
    rcases h.state with hst | ⟨hst, hv, hno⟩
    · refine gone_of_powered h hst ?_
      rcases hport with hp | hp
      · rw [hp]; exact ⟨rfl, rfl, rfl, rfl⟩
      · rw [hself hp]; exact ⟨rfl, rfl, rfl, rfl⟩
    · have hnot := hno n hn hon hrun
      rw [hl] at hnot
      have hp : _ = y.port p := hport.resolve_right fun hqp => hnot (hqp ▸ List.mem_cons_self)
      refine ⟨by rw [hp]; exact h.conn, by rw [hp]; exact h.speed, by rw [hp]; exact h.susp, .inr ⟨by rw [hp]; exact hst, by rw [hp]; exact hv,
        fun m hm hmon hmrun => ?_⟩⟩
      have hrun' : FMap.get false m (FMap.put false n true y.usb.power.stag5Run) = false := hmrun
      show p ∉ FMap.get [] m (FMap.put [] n r y.usb.power.stag5)
      by_cases hmn : m = n
      · subst hmn
        rw [FMap.get_put_self] at hrun'
        cases hrun'
      · rw [FMap.get_put_ne _ hmn] at hrun' ⊢
        exact hno m hm hmon hrun'

theorem gone_pass {y : Sys} {p : Nat} (h : y.Gone p) : y.pass.Gone p := by
  unfold Sys.pass
  dsimp only
  exact each_keeps (P := fun z => z.Gone p) _ (fun n hn z hz => gone_vbusKick hz (List.mem_range.1 hn))
    (gone_passRail (gone_passRail (gone_passRail h _ 0) _ 1) _ 2)

/-! ## After a pass -/

/-- No VBUSEN of region `n` waits for a first spacing. -/
def Sys.Kicked (y : Sys) (n : Nat) : Prop :=
  y.on n = true → FMap.get false n y.usb.power.stag5Run = false → FMap.get [] n y.usb.power.stag5 = []

theorem Sys.Kicked.kept {y t : Sys} {n p : Nat} (h : y.Kicked n) (k : y.PadKept p t) : t.Kicked n := by
  unfold Sys.Kicked
  rw [k.on, k.run, k.stag]
  exact h

theorem kicked_vbusKick (n : Nat) (y : Sys) : (y.vbusKick n).Kicked n := by
  unfold Sys.vbusKick
  by_cases hrun : (FMap.get false n y.usb.power.stag5Run || !y.on n) = true
  · rw [if_pos hrun]
    intro hon hr
    rw [hon, hr] at hrun
    cases hrun
  rw [if_neg hrun]
  cases hl : FMap.get [] n y.usb.power.stag5 with
  | nil => exact fun _ _ => hl
  | cons q r =>
    intro _ hr
    have hr : FMap.get false n (FMap.put false n true y.usb.power.stag5Run) = false := hr
    rw [FMap.get_put_self] at hr
    cases hr

theorem Sys.Kicked.vbusKick {y : Sys} {n : Nat} (h : y.Kicked n) (m : Nat) : (y.vbusKick m).Kicked n := by
  by_cases hmn : n = m
  · subst hmn
    exact kicked_vbusKick n y
  unfold Sys.vbusKick
  split_ifs
  · exact h
  · split
    · intro hon hr
      have hr : FMap.get false n (FMap.put false m true y.usb.power.stag5Run) = false := hr
      show FMap.get [] n (FMap.put [] m _ y.usb.power.stag5) = []
      rw [FMap.get_put_ne _ hmn] at hr ⊢
      exact h hon hr
    · exact h

theorem kicked_pass (y : Sys) {n : Nat} (hn : n < 8) : y.pass.Kicked n := by
  have hall : ∀ (l : List Nat) (z : Sys), n ∈ l ∨ z.Kicked n → (each (fun n (y : Sys) => y.vbusKick n) l z).Kicked n := by
    intro l
    induction l with
    | nil => exact fun z h => h.resolve_left List.not_mem_nil
    | cons m l ih =>
      intro z h
      refine ih _ ?_
      rcases h with h | h
      · rcases List.mem_cons.1 h with rfl | h
        · exact .inr (kicked_vbusKick _ z)
        · exact .inl h
      · exact .inr (h.vbusKick m)
  unfold Sys.pass
  dsimp only
  exact hall _ _ (.inl (List.mem_range.2 hn))

theorem kicked_powerReq {y : Sys} {n : Nat} (h : y.Kicked n) (hn : n < 8) (p r : Nat) (amount : Int) (k : PwKind) :
    (y.powerReq p r amount k).2.Kicked n := by
  have hgo : ∀ a m hs, (y.powerGo p r a k m hs).2.Kicked n := fun a m hs => by
    unfold Sys.powerGo
    dsimp only
    split
    · exact h.kept (padKept_reserve p p r a y)
    · exact h.kept ((padKept_setPend p r _ y).trans (padKept_powerDenied p _ _ _ _ _ _ _ _ _))
  unfold Sys.powerReq
  dsimp only
  split
  · show Sys.Kicked (if amount < 0 then (y.reserve p r amount).pass else y.reserve p r amount) n
    split
    · exact kicked_pass _ hn
    · exact h.kept (padKept_reserve p p r amount y)
  · split
    · split
      · exact h.kept (padKept_powerDenied p _ _ _ _ _ _ _ _ y)
      · exact hgo _ _ _
    · exact hgo _ _ _

theorem kicked_detachPower (p : Nat) (y : Sys) {n : Nat} (hn : n < 8) : (y.detachPower p).Kicked n := by
  unfold Sys.detachPower Sys.toBase Sys.highOff
  exact kicked_powerReq (kicked_pass _ hn) hn _ _ _ _

theorem gone_offPended {y : Sys} {p : Nat} (hkick : ∀ n < 8, y.Kicked n) (hs : (y.port p).speed = .none) (hu : (y.port p).susp = .active) :
    (y.offPended p).Gone p := by
  have hp : ((y.vbusDown p).updPort p fun q => { q with st := .off, res5 := 0 }).port p =
      { y.port p with st := .off, res5 := 0, vbus := false, pg := false, conn := false } :=
    (updPort_port_self _ _ _).trans (congrArg (fun q : Port => { q with st := .off, res5 := 0 })
      (updPort_port_self p (fun q : Port => { q with vbus := false, pg := false, conn := false }) y))
  have hstag : ((y.vbusDown p).updPort p fun q => { q with st := .off, res5 := 0 }).usb.power.stag5 =
      FMap.upd [] (p / 16) (·.filter (· != p)) y.usb.power.stag5 := rfl
  have hrun : ((y.vbusDown p).updPort p fun q => { q with st := .off, res5 := 0 }).usb.power.stag5Run = y.usb.power.stag5Run := rfl
  have hdoms : ((y.vbusDown p).updPort p fun q => { q with st := .off, res5 := 0 }).doms = y.doms := by
    simp only [Sys.updPort, Sys.vbusDown, Sys.updPower]
  unfold Sys.offPended
  dsimp only
  generalize ((y.vbusDown p).updPort p fun q => { q with st := .off, res5 := 0 }) = z at hp hstag hrun hdoms ⊢
  have hoff : z.Gone p := by
    refine ⟨by rw [hp], by rw [hp]; exact hs, by rw [hp]; exact hu, .inr ⟨by rw [hp], by rw [hp], fun n hn hzon hzrun => ?_⟩⟩
    have hnil : FMap.get [] n y.usb.power.stag5 = [] := hkick n hn ((on_of_doms hdoms n).symm.trans hzon) (by rw [← hrun]; exact hzrun)
    rw [hstag]
    by_cases hnp : n = p / 16
    · subst hnp
      rw [FMap.get_upd_self, hnil]
      exact List.not_mem_nil
    · rw [FMap.get_upd_ne _ hnp, hnil]
      exact List.not_mem_nil
  exact gone_pass (hoff.kept (padKept_setPend p 0 _ z))

/-- A port whose device has gone (R246, R257, R266). -/
theorem gone_unplug (p : Nat) (y : Sys) : (y.unplug p).Gone p := by
  unfold Sys.unplug
  dsimp only
  have hkick := fun n hn => kicked_detachPower p (((y.dropTree p 0 1).sofStop p).rootClear p) (n := n) hn
  generalize (((y.dropTree p 0 1).sofStop p).rootClear p).detachPower p = z at hkick ⊢
  have hport := updPort_port_self p (fun q => { q with speed := .none, conn := false, susp := .active, hold := 0 }) z
  have hkick' : ∀ n < 8, (z.updPort p fun q => { q with speed := .none, conn := false, susp := .active, hold := 0 }).Kicked n := hkick
  generalize (z.updPort p fun q => { q with speed := .none, conn := false, susp := .active, hold := 0 }) = w at hport hkick' ⊢
  have hgone : (if w.pending p [0] then w.offPended p else w.updPort p fun q => { q with st := .powered }).Gone p := by
    split
    · exact gone_offPended hkick' (by rw [hport]) (by rw [hport])
    · have hp := updPort_port_self p (fun q => { q with st := .powered }) w
      exact ⟨by rw [hp, hport], by rw [hp, hport], by rw [hp, hport], .inl (by rw [hp])⟩
  exact hgone.kept ((portsKept_setReg _ _ _).padKept p)

end Sys2Proof.Machine

/-! Settles O27: connects are debounced and queued (R246, R262-R266). -/

namespace Sys2Proof.Machine

/-! ## The note of an event -/

/-- What the note of an event that changed the state of a port puts into the port's record. -/
def Port.noted (q k : Port) (tb r : Nat) : Port :=
  { q with evAt := tb + 1, evRank := r, evWas := k.st, evPow := k.vbus || k.hpwr, evRun5 := k.run5, evRunH := k.runH }

theorem live_of_evAt {y : Sys} {p : Nat} (h : (y.port p).evAt ≠ y.tb + 1) (r : Nat) : y.moot p r = false ∧ y.evBeats p r = false := by
  constructor
  · unfold Sys.moot
    rw [beq_false_of_ne h, Bool.false_and]
  · unfold Sys.evBeats
    rw [beq_false_of_ne h, Bool.false_and]

/-- An event that nothing of its moment goes before, and that changes the port's state. -/
theorem portEvent_noted {y z : Sys} {p r : Nat} {f : Sys → Sys} (hev : (y.port p).evAt ≠ y.tb + 1) (hz : f y = z) (htb : z.tb = y.tb)
    (hst : (z.port p).st ≠ (y.port p).st) : y.portEvent p r f = z.updPort p fun q => q.noted (y.port p) y.tb r := by
  obtain ⟨hm, hb⟩ := live_of_evAt hev r
  rw [portEvent_of_live hm, hz, Sys.evMark, Sys.stBefore, Sys.powBefore, Sys.runsBefore, hb, htb]
  simp only [Bool.false_eq_true, if_false, Bool.false_and, Bool.or_false]
  exact if_pos (bne_iff_ne.2 hst)

theorem gone_evMark {y : Sys} {p : Nat} (h : y.Gone p) (r : Nat) (y0 : Sys) : (Sys.evMark p r y0 y).Gone p := by
  unfold Sys.evMark
  exact h.kept (.ite (padKept_updPort (by exact fun _ => ⟨rfl, rfl, rfl, rfl, rfl⟩) p y) (padKept_refl p y))

/-! ## The counts of attaches -/

/-- A count of 0x54 and a change bit of 0x44 change those registers of the page. -/
theorem attachCount_regs (g : Pg) (hi lo b : Nat) (y : Sys) :
    ((y.incFld g 0x54 hi lo).setBit g 0x44 b).pgReg g 0x44 = (y.pgReg g 0x44).put b b 1 ∧
    ((y.incFld g 0x54 hi lo).setBit g 0x44 b).pgReg g 0x54 =
      (y.pgReg g 0x54).put hi lo (satInc (2 ^ (hi - lo + 1) - 1) ((y.pgReg g 0x54).fld hi lo)) := by
  unfold Sys.setBit Sys.incFld Sys.setFld
  rw [pgReg_setPg_self, pgReg_setPg_ne g g (by decide), pgReg_setPg_ne g g (by decide), pgReg_setPg_self]
  exact ⟨rfl, rfl⟩

/-- A port's record changes, an attach or a detach is counted and shown, and the record changes again. -/
def Sys.counted (p hi lo : Nat) (f : Port → Port) (y : Sys) : Sys := ((y.updPort p f).incFld (lnkPg p) 0x54 hi lo).portChg p 0

theorem counted_setRegs (p hi lo : Nat) (f : Port → Port) (y : Sys) :
    ∃ a v b w, y.counted p hi lo f = ((y.updPort p f).setReg a v).setReg b w := ⟨_, _, _, _, rfl⟩

theorem counted_kept (p hi lo : Nat) (f : Port → Port) (y : Sys) :
    y.counted p hi lo f = { y with regs := (y.counted p hi lo f).regs, usb := { y.usb with ports := (y.counted p hi lo f).usb.ports } } := by
  obtain ⟨a, v, b, w, h⟩ := counted_setRegs p hi lo f y
  rw [h]
  rfl

theorem counted_regs (p : Nat) {hi lo m : Nat} (hm : 2 ^ (hi - lo + 1) - 1 = m) (f : Port → Port) (y : Sys) :
    (y.counted p hi lo f).pgReg (lnkPg p) 0x44 = (y.pgReg (lnkPg p) 0x44).put 0 0 1 ∧
    (y.counted p hi lo f).pgReg (lnkPg p) 0x54 =
      (y.pgReg (lnkPg p) 0x54).put hi lo (satInc m ((y.pgReg (lnkPg p) 0x54).fld hi lo)) := by
  subst hm
  exact attachCount_regs (lnkPg p) hi lo 0 (y.updPort p f)

theorem counted_port (p hi lo : Nat) (f : Port → Port) (y : Sys) : (y.counted p hi lo f).port p = f (y.port p) := by
  obtain ⟨a, v, b, w, h⟩ := counted_setRegs p hi lo f y
  rw [h]
  exact updPort_port_self p f y

/-- A change of a port's record alone that follows what is `z`. -/
theorem updPort_only {y z : Sys} {p : Nat} {k : Port → Port} (h : z = { y with regs := z.regs, usb := { y.usb with ports := z.usb.ports } }) :
    z.updPort p k = { y with regs := (z.updPort p k).regs, usb := { y.usb with ports := (z.updPort p k).usb.ports } } := by
  rw [h]
  rfl

theorem updPort_portsOnly {y z : Sys} {p : Nat} {k : Port → Port} (h : z = { y with usb := { y.usb with ports := z.usb.ports } }) :
    z.updPort p k = { y with usb := { y.usb with ports := (z.updPort p k).usb.ports } } := by
  rw [h]
  rfl

theorem enumsPort_only {y z : Sys} {p : Nat} {f : List Enum → List Enum} {k : Port → Port}
    (h : z = { y with regs := z.regs, usb := { y.usb with ports := z.usb.ports } }) :
    (z.updEnums f).updPort p k = { y with
      regs := ((z.updEnums f).updPort p k).regs,
      usb := { y.usb with ports := ((z.updEnums f).updPort p k).usb.ports, enums := ((z.updEnums f).updPort p k).usb.enums } } := by
  rw [h]
  rfl

/-- A device queued behind those that wait, and its port's record. -/
theorem queueNew_noted {y z : Sys} {p : Nat} (h : z = { y with regs := z.regs, usb := { y.usb with ports := z.usb.ports } }) (k : Port → Port) :
    ((z.queueNew p 0 .granted).updPort p k).port p = k (z.port p) ∧
    ((z.queueNew p 0 .granted).updPort p k).usb.enums =
      y.usb.enums ++ [{ port := p, tier := 0, order := (z.port p).attKey, attempt := 0 }] ∧
    (∀ g o, ((z.queueNew p 0 .granted).updPort p k).pgReg g o = z.pgReg g o) ∧
    (z.queueNew p 0 .granted).updPort p k = { y with
      regs := ((z.queueNew p 0 .granted).updPort p k).regs,
      usb := { y.usb with ports := ((z.queueNew p 0 .granted).updPort p k).usb.ports,
                          enums := ((z.queueNew p 0 .granted).updPort p k).usb.enums } } := by
  have hen : z.usb.enums = y.usb.enums := by rw [h]
  refine ⟨updPort_port_self _ _ _, ?_, fun _ _ => pgReg_of_regs rfl _ _, enumsPort_only h⟩
  show z.usb.enums ++ [_] = _
  rw [hen, Sys.keyAt, if_pos rfl]
  rfl

theorem queueNew_tb {y z : Sys} {p : Nat} {r : PwRes} (h : z = { y with regs := z.regs, usb := { y.usb with ports := z.usb.ports } }) :
    (z.queueNew p 0 r).tb = y.tb := by
  rw [h]
  rfl

theorem tb_of_ports {y z : Sys} (h : z = { y with regs := z.regs, usb := { y.usb with ports := z.usb.ports } }) : z.tb = y.tb := by rw [h]

theorem queueNew_port {z : Sys} (p q : Nat) (r : PwRes) : (z.queueNew p 0 r).port q = z.port q := rfl

/-! ## The clauses -/

theorem connect_debounces {s : State} {p : Fin 128} {sp : Speed} (hops : s.operates = true) (hl : s.sys.linkWorks p = true)
    (hv : (s.sys.port p).vbus = true) (hpg : (s.sys.port p).pg = true) (hsp : sp ≠ .none) (hst : (s.sys.port p).st = .powered)
    (hev : (s.sys.port p).evAt ≠ s.sys.tb + 1) :
    Does (.connect p sp) s fun t =>
      t.port p = { s.sys.port p with conn := true, st := .debounce, speed := (if sp = .low then .low else .full), evAt := s.sys.tb + 1,
                                     evRank := 5, evWas := .powered, evPow := true, evRun5 := (s.sys.port p).run5, evRunH := (s.sys.port p).runH } ∧
      (∀ q, q ≠ p.val → t.port q = s.sys.port q) ∧ t = { s.sys with usb := { s.sys.usb with ports := t.usb.ports } } := by
  have h1 := updPort_port_self p (fun q => { q with conn := true }) s.sys
  have hn1 : ∀ q, q ≠ p.val → (s.sys.updPort p fun q => { q with conn := true }).port q = s.sys.port q := fun q hq => updPort_port_ne hq _ _
  have hb1 := updPort_portsOnly (y := s.sys) (z := s.sys) (p := p) (k := fun q => { q with conn := true }) rfl
  have hcon : s.sys.portConnect p sp = (s.sys.updPort p fun q => { q with conn := true }).portEvent p 5 fun y =>
      if (y.port p).st == .powered then y.updPort p fun q => { q with st := .debounce, speed := if sp = .low then .low else .full } else y := by
    unfold Sys.portConnect
    dsimp only
    rw [hv, hpg, Bool.true_and, Bool.true_and, if_pos (bne_iff_ne.2 hsp)]
  generalize (s.sys.updPort p fun q => { q with conn := true }) = y at h1 hn1 hb1 hcon
  have htb : y.tb = s.sys.tb := by rw [hb1]
  have hz : (if (y.port p).st == .powered then y.updPort p fun q => { q with st := .debounce, speed := if sp = .low then .low else .full } else y) =
      y.updPort p fun q => { q with st := .debounce, speed := if sp = .low then .low else .full } := if_pos (by rw [h1, hst]; rfl)
  have h2 := updPort_port_self p (fun q => { q with st := .debounce, speed := if sp = .low then .low else .full }) y
  have hn2 : ∀ q, q ≠ p.val → (y.updPort p fun q => { q with st := .debounce, speed := if sp = .low then .low else .full }).port q = y.port q :=
    fun q hq => updPort_port_ne hq _ _
  have hb2 := updPort_portsOnly (y := s.sys) (z := y) (p := p) (k := fun q => { q with st := .debounce, speed := if sp = .low then .low else .full }) hb1
  generalize hz2 : (y.updPort p fun q => { q with st := .debounce, speed := if sp = .low then .low else .full }) = z at h2 hn2 hb2
  have htz : z.tb = s.sys.tb := by rw [hb2]
  refine does_live_eq (execConnect p sp) rfl rfl hops ((if_pos hl).trans (hcon.trans
    (portEvent_noted (by rw [h1, htb]; exact hev) (hz.trans hz2) (htz.trans htb.symm) (by
      rw [h2, h1, hst]
      show PortSt.debounce ≠ PortSt.powered
      decide)))) ⟨?_, fun q hq => ?_, updPort_portsOnly hb2⟩
  · rw [updPort_port_self, h2, h1, htb]
    simp [Port.noted, hst, hv]
  · rw [updPort_port_ne hq, hn2 q hq, hn1 q hq]

theorem debounce_queues {s : State} {p : Fin 128} (hops : s.operates = true) (hl : s.sys.linkWorks p = true)
    (hst : (s.sys.port p).st = .debounce) (hc : (s.sys.port p).conn = true) (hev : (s.sys.port p).evAt ≠ s.sys.tb + 1) :
    Does (.debounceEnd p) s fun t =>
      t.port p = { s.sys.port p with st := .queued, attempt := 0, attKey := s.sys.attachKey p, evAt := s.sys.tb + 1, evRank := 5,
                                     evWas := .debounce, evPow := (s.sys.port p).vbus || (s.sys.port p).hpwr,
                                     evRun5 := (s.sys.port p).run5, evRunH := (s.sys.port p).runH } ∧
      t.usb.enums = s.sys.usb.enums ++ [{ port := p, tier := 0, order := s.sys.attachKey p, attempt := 0 }] ∧
      t.pgReg (lnkPg p) 0x44 = (s.sys.pgReg (lnkPg p) 0x44).put 0 0 1 ∧
      t.pgReg (lnkPg p) 0x54 = (s.sys.pgReg (lnkPg p) 0x54).put 7 0 (satInc 255 ((s.sys.pgReg (lnkPg p) 0x54).fld 7 0)) ∧
      t = { s.sys with regs := t.regs, usb := { s.sys.usb with ports := t.usb.ports, enums := t.usb.enums } } := by
  have hkept := counted_kept p 7 0 (fun q => { q with st := .queued, attempt := 0, attKey := s.sys.attachKey p }) s.sys
  have hregs := counted_regs p (hi := 7) (lo := 0) (m := 255) (by decide) (fun q => { q with st := .queued, attempt := 0, attKey := s.sys.attachKey p }) s.sys
  have hport := counted_port p 7 0 (fun q => { q with st := .queued, attempt := 0, attKey := s.sys.attachKey p }) s.sys
  have hdeb : s.sys.debounced p =
      (s.sys.counted p 7 0 fun q => { q with st := .queued, attempt := 0, attKey := s.sys.attachKey p }).queueNew p 0 .granted := by
    unfold Sys.debounced Sys.counted
    exact if_pos (by rw [hst, hc]; rfl)
  obtain ⟨h1, h2, h3, h4⟩ := queueNew_noted hkept fun q => q.noted (s.sys.port p) s.sys.tb 5
  refine does_live_eq (execDebounceEnd p) rfl rfl hops
    ((if_pos hl).trans (portEvent_noted hev hdeb (queueNew_tb hkept) (by
      rw [queueNew_port, hport, hst]
      show PortSt.queued ≠ PortSt.debounce
      decide))) ⟨?_, ?_, (h3 _ _).trans hregs.1, (h3 _ _).trans hregs.2, h4⟩
  · rw [h1, hport, Port.noted, hst]
  · rw [h2, hport]

theorem conn_dropped (p : Nat) (y : Sys) (r : FMap Word) (m : FMap Port) :
    { (y.updPort p fun q => { q with conn := false }) with
      regs := r, usb := { (y.updPort p fun q => { q with conn := false }).usb with ports := m } } =
    { y with regs := r, usb := { y.usb with ports := m } } := rfl

theorem disconnect_undebounces {s : State} {p : Fin 128} (hops : s.operates = true) (hl : s.sys.linkWorks p = true)
    (hst : (s.sys.port p).st = .debounce) (hev : (s.sys.port p).evAt ≠ s.sys.tb + 1) :
    Does (.disconnect p) s fun t =>
      t.port p = { s.sys.port p with conn := false, st := .powered, speed := .none, evAt := s.sys.tb + 1, evRank := 2,
                                     evWas := .debounce, evPow := (s.sys.port p).vbus || (s.sys.port p).hpwr,
                                     evRun5 := (s.sys.port p).run5, evRunH := (s.sys.port p).runH } ∧
      t.pgReg (lnkPg p) 0x44 = (s.sys.pgReg (lnkPg p) 0x44).put 0 0 1 ∧
      t.pgReg (lnkPg p) 0x54 = (s.sys.pgReg (lnkPg p) 0x54).put 15 8 (satInc 255 ((s.sys.pgReg (lnkPg p) 0x54).fld 15 8)) ∧
      t = { s.sys with regs := t.regs, usb := { s.sys.usb with ports := t.usb.ports } } := by
  have h1 := updPort_port_self p (fun q => { q with conn := false }) s.sys
  have hdis : s.sys.portDisconnect p =
      (s.sys.updPort p fun q => { q with conn := false }).counted p 15 8 fun q => { q with st := .powered, speed := .none } := by
    unfold Sys.portDisconnect Sys.counted
    dsimp only
    rw [h1, hst]
  have hkept := (counted_kept p 15 8 (fun q => { q with st := .powered, speed := .none }) (s.sys.updPort p fun q => { q with conn := false })).trans
    (conn_dropped p s.sys _ _)
  have hregs := counted_regs p (hi := 15) (lo := 8) (m := 255) (by decide) (fun q => { q with st := .powered, speed := .none })
    (s.sys.updPort p fun q => { q with conn := false })
  have hport := counted_port p 15 8 (fun q => { q with st := .powered, speed := .none }) (s.sys.updPort p fun q => { q with conn := false })
  rw [pgReg_of_regs (updPort_regs p _ s.sys), pgReg_of_regs (updPort_regs p _ s.sys)] at hregs
  refine does_live_eq (execDisconnect p) rfl rfl hops
    ((if_pos hl).trans (portEvent_noted hev hdis (tb_of_ports hkept) (by
      rw [hport, hst]
      show PortSt.powered ≠ PortSt.debounce
      decide))) ⟨?_, (pgReg_of_regs (updPort_regs p _ _) _ _).trans hregs.1, (pgReg_of_regs (updPort_regs p _ _) _ _).trans hregs.2, updPort_only hkept⟩
  rw [updPort_port_self, hport, h1, Port.noted, hst]

theorem portDisconnect_device {y : Sys} {p : Nat} (hd : ((y.updPort p fun q => { q with conn := false }).port p).st.device = true)
    (hse : (y.updPort p fun q => { q with conn := false }).inSe0 p = false) :
    y.portDisconnect p = (y.updPort p fun q => { q with conn := false }).unplug p := by
  unfold Sys.portDisconnect
  dsimp only
  generalize (y.updPort p fun q => { q with conn := false }) = z at hd hse ⊢
  unfold PortSt.device at hd
  split <;> simp_all

/-- A disconnect of a port with a device unplugs it. -/
theorem disconnect_unplugs {s : State} {p : Fin 128} (hops : s.operates = true) (hl : s.sys.linkWorks p = true)
    (hd : (s.sys.port p).st.device = true) (hse : s.sys.inSe0 p = false) (hm : s.sys.moot p 2 = false) :
    Does (.disconnect p) s fun t => t.Gone p := by
  have h1 := updPort_port_self p (fun q => { q with conn := false }) s.sys
  have hse' : (s.sys.updPort p fun q => { q with conn := false }).inSe0 p = false := by
    unfold Sys.inSe0 at hse ⊢
    rw [h1]
    exact hse
  have hdis : s.sys.portDisconnect p = (s.sys.updPort p fun q => { q with conn := false }).unplug p :=
    portDisconnect_device (by rw [h1]; exact hd) hse'
  refine does_live_eq (execDisconnect p) rfl rfl hops ((if_pos hl).trans ((portEvent_of_live hm _).trans (by rw [hdis]))) ?_
  exact gone_evMark (gone_unplug p _) 2 s.sys

/-- A connect that an event of its moment goes before, at a port that is connected. -/
theorem portConnect_moot {y : Sys} {p : Nat} (hm : y.moot p 5 = true) (hc : (y.port p).conn = true) (sp : Speed) :
    (∀ q, (y.portConnect p sp).port q = y.port q) ∧
    y.portConnect p sp = { y with usb := { y.usb with ports := (y.portConnect p sp).usb.ports } } := by
  have h1 := updPort_port_self p (fun q => { q with conn := true }) y
  have hm' : (y.updPort p fun q => { q with conn := true }).moot p 5 = true := by
    unfold Sys.moot at hm ⊢
    rw [h1]
    exact hm
  have hsame : ∀ q, (y.updPort p fun q => { q with conn := true }).port q = y.port q := fun q => by
    by_cases hq : q = p
    · subst hq
      rw [h1, ← hc]
    · exact updPort_port_ne hq _ _
  unfold Sys.portConnect
  dsimp only
  rw [portEvent_of_moot hm']
  split
  · exact ⟨hsame, rfl⟩
  · exact ⟨fun _ => rfl, rfl⟩

/-- Settles O27, clause by clause: each event that nothing of its moment goes before is noted with what it changes, a disconnect of a device
leaves its port out of service (`gone_unplug`), and one that comes after another of its moment is discarded. -/
theorem connectsAreDebouncedAndQueued : Obligations.connects_are_debounced_and_queued := by
  unfold Obligations.connects_are_debounced_and_queued
  refine fun s p hops hl => ⟨fun sp hv hpg hsp hst hev => connect_debounces hops hl hv hpg hsp hst hev,
    fun hst hc hev => debounce_queues hops hl hst hc hev, fun hst hev => disconnect_undebounces hops hl hst hev, fun hd hse hm => ?_,
    fun hm => ⟨fun sp hc => ?_, ?_⟩, fun hm => ?_⟩
  · obtain ⟨t, ht, hc, hs, hu, hst⟩ := disconnect_unplugs hops hl hd hse hm
    exact ⟨t, ht, hst.imp_right fun h => ⟨h.1, h.2.1⟩, hc, hs, hu⟩
  · refine does_live (execConnect p sp) rfl rfl hops ?_
    rw [if_pos hl]
    exact portConnect_moot hm hc sp
  · intro c hc
    simp only [List.mem_cons, List.not_mem_nil, or_false] at hc
    rcases hc with rfl | rfl
    · exact exec_live_same (execDebounceEnd p) rfl rfl hops ((if_pos hl).trans (portEvent_of_moot hm _))
    · exact exec_live_same (execResetRecoveryEnd p true) rfl rfl hops ((if_pos hl).trans (portEvent_of_moot hm _))
  · intro c hc
    simp only [List.mem_cons, List.not_mem_nil, or_false] at hc
    rcases hc with rfl | rfl
    · exact exec_live_same (execDisconnect p) rfl rfl hops ((if_pos hl).trans (portEvent_of_moot hm _))
    · exact exec_live_same (execResetRecoveryEnd p false) rfl rfl hops ((if_pos hl).trans (portEvent_of_moot hm _))

end Sys2Proof.Machine

/-! SUPPORT. Enumerations (R267-R271): what a step of one changes. -/

namespace Sys2Proof.Machine

/-! ## The record of an enumeration -/

theorem find_map_at {l : List Enum} {p t : Nat} {f : Enum → Enum} (hf : ∀ e, (f e).port = e.port ∧ (f e).tier = e.tier) :
    ((l.map fun e => if e.port == p && e.tier == t then f e else e).find? fun e => e.port == p && e.tier == t) =
      (l.find? fun e => e.port == p && e.tier == t).map f := by
  have hsame : ((fun e : Enum => e.port == p && e.tier == t) ∘ fun e => if e.port == p && e.tier == t then f e else e) =
      fun e => e.port == p && e.tier == t := by
    funext e
    obtain ⟨hp, ht⟩ := hf e
    rw [Function.comp_apply]
    split
    · rw [hp, ht]
    · rfl
  rw [List.find?_map, hsame]
  cases h : l.find? fun e => e.port == p && e.tier == t with
  | none => rfl
  | some e => exact congrArg some (if_pos (List.find?_some h))

theorem enumAt_updEnum {p t : Nat} {f : Enum → Enum} (hf : ∀ e, (f e).port = e.port ∧ (f e).tier = e.tier) (y : Sys) :
    (y.updEnum p t f).enumAt p t = (y.enumAt p t).map f := find_map_at hf

theorem enumAt_of_enums {y t : Sys} (h : t.usb.enums = y.usb.enums) (p k : Nat) : t.enumAt p k = y.enumAt p k := by
  rw [Sys.enumAt, Sys.enumAt, h]

/-! ## What enumerations leave -/

/-- The ports' states and addresses, the registers, what the slots hold but a hub's own record, and the enumerations are as they were. -/
structure Sys.EnumKept (y t : Sys) : Prop where
  st : ∀ q, (t.port q).st = (y.port q).st
  addr : ∀ q, (t.port q).addr = (y.port q).addr
  regs : t.regs = y.regs
  slot : ∀ n, ∃ r, t.slot n = { y.slot n with hubRec := r }
  enums : t.usb.enums = y.usb.enums

theorem enumKept_refl (y : Sys) : y.EnumKept y := ⟨fun _ => rfl, fun _ => rfl, rfl, fun n => ⟨(y.slot n).hubRec, rfl⟩, rfl⟩

theorem Sys.EnumKept.trans {y z t : Sys} (h : y.EnumKept z) (k : z.EnumKept t) : y.EnumKept t := by
  refine ⟨fun q => (k.st q).trans (h.st q), fun q => (k.addr q).trans (h.addr q), k.regs.trans h.regs, fun n => ?_, k.enums.trans h.enums⟩
  obtain ⟨r, hr⟩ := h.slot n
  obtain ⟨r', hr'⟩ := k.slot n
  exact ⟨r', by rw [hr', hr]⟩

theorem Sys.EnumKept.ite {y t t' : Sys} {q : Prop} [Decidable q] (h : y.EnumKept t) (k : y.EnumKept t') : y.EnumKept (if q then t else t') := by
  split <;> assumption

theorem enumKept_of {y t : Sys} (hp : t.usb.ports = y.usb.ports) (hr : t.regs = y.regs) (hs : t.eng.slots = y.eng.slots)
    (he : t.usb.enums = y.usb.enums) : y.EnumKept t := by
  have hport : ∀ q, t.port q = y.port q := fun q => by
    rw [Sys.port, hp]
    rfl
  exact ⟨fun q => by rw [hport], fun q => by rw [hport], hr, fun n => ⟨(y.slot n).hubRec, by
    rw [Sys.slot, hs]
    rfl⟩, he⟩

theorem enumKept_issue (o p t : Nat) (setup data : List Byte) (y : Sys) : y.EnumKept (y.issue o p t setup data) := by
  obtain ⟨hp, -, -, -, he⟩ := portsKept_issue o p t setup data y
  obtain ⟨u, xs, nx, h, hreq⟩ := requestOnly_issue o p t setup data y
  generalize y.issue o p t setup data = z at hp he hreq
  exact enumKept_of hp (by rw [hreq]) (by rw [hreq]) he

theorem enumKept_updSlot {n : Nat} {f : Slot → Slot} (hf : ∀ s, ∃ r, f s = { s with hubRec := r }) (y : Sys) : y.EnumKept (y.updSlot n f) := by
  refine ⟨fun _ => rfl, fun _ => rfl, rfl, fun m => ?_, rfl⟩
  by_cases hm : m = n
  · subst hm
    obtain ⟨r, hr⟩ := hf (y.slot m)
    exact ⟨r, by rw [updSlot_slot_self, hr]⟩
  · exact ⟨(y.slot m).hubRec, by rw [updSlot_slot_ne hm]⟩

theorem enumKept_hubReq (h : Nat) (k : HReqK) (setup : List Byte) (y : Sys) : y.EnumKept (y.hubReq h k setup) := by
  have hreq : y.EnumKept (if (y.slot h).hubRec.reqs.isEmpty then y.reqTo 1 h setup [] else y) := .ite (enumKept_issue _ _ _ _ _ y) (enumKept_refl y)
  unfold Sys.hubReq
  dsimp only
  generalize (if (y.slot h).hubRec.reqs.isEmpty then y.reqTo 1 h setup [] else y) = z at hreq ⊢
  exact hreq.trans (enumKept_updSlot (fun s => ⟨_, rfl⟩) z)

theorem enumKept_enumIssue (p t : Nat) (y : Sys) : y.EnumKept (y.enumIssue p t) := by
  unfold Sys.enumIssue
  split
  · exact enumKept_refl y
  · next e _ =>
    dsimp only
    split
    · exact enumKept_issue _ _ _ _ _ y
    · exact enumKept_issue _ _ _ _ _ y
    · exact enumKept_issue _ _ _ _ _ y
    · exact enumKept_issue _ _ _ _ _ y
    · exact enumKept_issue _ _ _ _ _ y
    · exact .ite (enumKept_issue _ _ _ _ _ y) (.ite (enumKept_issue _ _ _ _ _ y) (.ite (enumKept_issue _ _ _ _ _ y) (enumKept_refl y)))
    · exact enumKept_hubReq _ _ _ y
    · exact enumKept_hubReq _ _ _ y
    · exact enumKept_hubReq _ _ _ y
    · exact enumKept_hubReq _ _ _ y
    · exact enumKept_refl y

theorem enumKept_updPort {p : Nat} {f : Port → Port} (hf : ∀ q, (f q).st = q.st ∧ (f q).addr = q.addr) (y : Sys) : y.EnumKept (y.updPort p f) := by
  have hport : ∀ q, ((y.updPort p f).port q).st = (y.port q).st ∧ ((y.updPort p f).port q).addr = (y.port q).addr := fun q => by
    by_cases hq : q = p
    · subst hq
      rw [updPort_port_self]
      exact hf _
    · rw [updPort_port_ne hq]
      exact ⟨rfl, rfl⟩
  exact ⟨fun q => (hport q).1, fun q => (hport q).2, rfl, fun n => ⟨(y.slot n).hubRec, rfl⟩, rfl⟩

theorem enumKept_showEnum (p t : Nat) (y : Sys) : y.EnumKept (y.showEnum p t) := by
  unfold Sys.showEnum
  refine .ite (enumKept_refl y) ?_
  split
  · exact enumKept_updPort (by exact fun _ => ⟨rfl, rfl⟩) y
  · exact enumKept_updPort (by exact fun _ => ⟨rfl, rfl⟩) y

theorem Sys.EnumKept.updEnum {a b : Sys} (h : a.EnumKept b) (p t : Nat) (f : Enum → Enum) : (a.updEnum p t f).EnumKept (b.updEnum p t f) :=
  ⟨h.st, h.addr, h.regs, h.slot, congrArg (List.map fun e : Enum => if e.port == p && e.tier == t then f e else e) h.enums⟩

/-! ## A step -/

/-- What a step of an enumeration makes of its record. -/
def Enum.stepped (e : Enum) (step sub : Nat) : Enum := { e with st := .running, step := step, sub := sub, tries := 0 }

/-- A step changes its enumeration's record, and shows and issues it. -/
theorem enumStep_kept (p t step sub : Nat) (y : Sys) : (y.updEnum p t fun e => e.stepped step sub).EnumKept (y.enumStep p t step sub) :=
  (enumKept_showEnum p t _).trans (enumKept_enumIssue p t _)

theorem enumStep_enumAt {p t : Nat} {y : Sys} (step sub : Nat) :
    (y.enumStep p t step sub).enumAt p t = (y.enumAt p t).map fun e => e.stepped step sub :=
  (enumAt_of_enums (enumStep_kept p t step sub y).enums p t).trans (enumAt_updEnum (by exact fun _ => ⟨rfl, rfl⟩) y)

/-- The slot that a device is given. -/
def Sys.givenSlot (y : Sys) (p t : Nat) (e : Enum) : Slot :=
  let tt := y.ttFor p t e.speed
  { used := true, port := p, tier := t, speed := e.speed, hub := tt.1, hubPort := tt.2,
    eps := [(0, { ty := .control, mps := if e.speed = .low then 8 else 64 })] }

theorem enumKept_updPortOf {f : HubPort → HubPort} (p t : Nat) (y : Sys) : y.EnumKept (y.updPortOf p t f) := by
  unfold Sys.updPortOf
  split
  · exact enumKept_updSlot (fun s => ⟨_, rfl⟩) y
  · exact enumKept_refl y

theorem giveSlot_kept {p t n : Nat} {y : Sys} {e : Enum} (he : y.enumAt p t = some e) :
    ((y.updSlot n fun _ => y.givenSlot p t e).updEnum p t fun e => { e with slot := n }).EnumKept (y.giveSlot p t n) := by
  unfold Sys.giveSlot
  rw [he]
  dsimp only
  have hof : (y.updSlot n fun _ => y.givenSlot p t e).EnumKept (if t = 0 then y.updSlot n fun _ => y.givenSlot p t e
      else (y.updSlot n fun _ => y.givenSlot p t e).updPortOf p t fun h => { h with slot := n }) :=
    .ite (enumKept_refl _) (enumKept_updPortOf _ _ _)
  exact (hof.updEnum p t _).trans (enumKept_showEnum p t _)

/-- A device is given slot `n`. -/
theorem giveSlot_given {p t n : Nat} {y : Sys} {e : Enum} (he : y.enumAt p t = some e) :
    (y.giveSlot p t n).enumAt p t = some { e with slot := n } ∧ (y.giveSlot p t n).regs = y.regs ∧
    (∀ q, ((y.giveSlot p t n).port q).st = (y.port q).st) ∧ ∃ r, (y.giveSlot p t n).slot n = { y.givenSlot p t e with hubRec := r } := by
  have hk := giveSlot_kept (n := n) he
  refine ⟨?_, hk.regs, hk.st, ?_⟩
  · have h1 := enumAt_of_enums hk.enums p t
    rw [enumAt_updEnum (by exact fun _ => ⟨rfl, rfl⟩)] at h1
    rw [h1, show (y.updSlot n fun _ => y.givenSlot p t e).enumAt p t = y.enumAt p t from rfl, he]
    rfl
  · obtain ⟨r, hr⟩ := hk.slot n
    rw [show ((y.updSlot n fun _ => y.givenSlot p t e).updEnum p t fun e => { e with slot := n }).slot n =
      (y.updSlot n fun _ => y.givenSlot p t e).slot n from rfl, updSlot_slot_self] at hr
    exact ⟨r, hr⟩

end Sys2Proof.Machine

/-! Settles O28: port resets run (R246, R267, R273, R275). -/

namespace Sys2Proof.Machine

/-! ## The commands -/

theorem evMark_slotWait (p r : Nat) (y0 y : Sys) (k : Nat) : ((Sys.evMark p r y0 y).port k).slotWait = (y.port k).slotWait :=
  evMark_keeps Port.slotWait (fun _ _ _ _ _ _ _ => rfl) p r y0 y k

theorem requeue_root_slotWait (p : Nat) (y : Sys) : ((y.requeue p 0).port p).slotWait = false := by
  unfold Sys.requeue Sys.requeueRoot
  dsimp only
  rw [if_pos rfl, updPort_port_self]

theorem portCmd_acts {y z : Sys} {p cmd : Nat} (hm : y.moot p (cmdRank cmd) = false) (ha : y.rootAct p cmd = some z) :
    y.portCmd p cmd = Sys.evMark p (cmdRank cmd) y z := by
  unfold Sys.portCmd Sys.rootCmd
  rw [hm, ha]
  rfl

theorem portCmd_ignored {y : Sys} {p cmd : Nat} (h : y.moot p (cmdRank cmd) = true ∨ y.rootAct p cmd = none) : y.portCmd p cmd = y.cfgErr (lnkPg p) := by
  unfold Sys.portCmd Sys.rootCmd
  rcases h with h | h
  · rw [h]
    rfl
  · rw [h, Option.map_none, ite_self]

theorem portReset_acts {y : Sys} {p : Nat} (h : y.stBefore p 4 = .enabled ∨ y.stBefore p 4 = .suspended ∨ y.stBefore p 4 = .disabled) :
    y.rootAct p 3 = some (y.requeue p 0) := by
  show y.portReset p = _
  unfold Sys.portReset
  rcases h with h | h | h <;> rw [h]

theorem portReset_ignored {y : Sys} {p : Nat} (h : y.stBefore p 4 ∉ [PortSt.enabled, .suspended, .disabled]) : y.rootAct p 3 = none := by
  show y.portReset p = _
  unfold Sys.portReset
  split <;> simp_all

theorem portDis_acts {y : Sys} {p : Nat} (h : y.stBefore p 3 = .enabled ∨ y.stBefore p 3 = .suspended) : y.rootAct p 4 = some (y.disableAt p 0) := by
  show y.portDis p = _
  unfold Sys.portDis
  rcases h with h | h <;> rw [h]

theorem portDis_ignored {y : Sys} {p : Nat} (h : y.stBefore p 3 ∉ [PortSt.enabled, .suspended]) : y.rootAct p 4 = none := by
  show y.portDis p = _
  unfold Sys.portDis
  split <;> simp_all

theorem cfgErr_only (g : Pg) (y : Sys) : y.reportsOnly (y.cfgErr g) ∧ (y.cfgErr g).pgReg g 0x18 = (y.pgReg g 0x18).put 3 3 1 :=
  ⟨reportsOnly_recordErr g 3 0 y, recordErr_stat g 3 0 y⟩

/-! ## The end of a reset -/

/-- What the end of SE0 writes, after what it sends. -/
theorem settled_only (p : Nat) (f : Port → Port) (g : Enum → Enum) (h : PFrame → PFrame) (o : List Out) (y : Sys) :
    let z : Sys := { y with out := o }
    let t := ((z.updPort p f).updEnum p 0 g).updFrame p h
    t.port p = f (y.port p) ∧ t.frame p = h (y.frame p) ∧ t.out = o ∧
      t = { y with out := t.out, usb := { y.usb with ports := t.usb.ports, frame := t.usb.frame, enums := t.usb.enums } } :=
  ⟨updPort_port_self p f { y with out := o }, updFrame_frame_self p h (({ y with out := o } : Sys).updPort p f |>.updEnum p 0 g), rfl, rfl⟩

theorem resetSignal_settles {y : Sys} {p : Nat} (hst : (y.port p).st = .resetting) (hsof : (y.frame p).sof = false) (chirp : Bool) :
    let hs := chirp && (y.port p).speed != .low && !(y.port p).prof.bit 4
    (y.resetSignal p chirp).port p = { y.port p with speed := (if hs then .high else if (y.port p).speed = .low then .low else .full) } ∧
    (y.resetSignal p chirp).frame p = { y.frame p with sof := true } ∧
    (y.resetSignal p chirp).out = (if hs then [.bus p .chirpReply] else []) ++ y.out ∧
    y.resetSignal p chirp = { y with
      out := (y.resetSignal p chirp).out,
      usb := { y.usb with ports := (y.resetSignal p chirp).usb.ports, frame := (y.resetSignal p chirp).usb.frame,
                          enums := (y.resetSignal p chirp).usb.enums } } := by
  intro hs
  have hse : y.inSe0 p = true := by
    unfold Sys.inSe0
    rw [hst, hsof]
    rfl
  have hemit : (if hs then y.emit (.bus p .chirpReply) else y) = { y with out := (if hs then [.bus p .chirpReply] else []) ++ y.out } := by
    cases hs <;> rfl
  have heq : y.resetSignal p chirp = Sys.updFrame p (fun f => { f with sof := true }) (Sys.updEnum p 0 (fun e => { e with sub := 1 })
      (Sys.updPort p (fun q => { q with speed := if hs then .high else if q.speed == .low then .low else .full })
        { y with out := (if hs then [.bus p .chirpReply] else []) ++ y.out })) := by
    unfold Sys.resetSignal
    dsimp only
    rw [if_pos hse, ← hemit]
  obtain ⟨h1, h2, h3, h4⟩ := settled_only p (fun q => { q with speed := if hs then .high else if q.speed == .low then .low else .full })
    (fun e => { e with sub := 1 }) (fun f => { f with sof := true }) ((if hs then [.bus p .chirpReply] else []) ++ y.out) y
  rw [heq]
  refine ⟨h1.trans ?_, h2, h3, h4⟩
  simp only [beq_iff_eq]

/-- A device whose reset is over, where a slot is free (R267). -/
theorem afterReset_takes {y : Sys} {p n : Nat} {e : Enum} (sp : Speed) (he : y.enumAt p 0 = some e) (hr : e.represent = false)
    (hn : y.slotFree = some n) :
    ((y.afterReset p 0 sp).port p).st = (y.port p).st ∧ (y.afterReset p 0 sp).regs = y.regs ∧
    ((y.afterReset p 0 sp).slot n).used = true ∧ ((y.afterReset p 0 sp).slot n).port = p ∧ ((y.afterReset p 0 sp).slot n).tier = 0 ∧
    ((y.afterReset p 0 sp).slot n).speed = sp ∧ ((y.afterReset p 0 sp).enumAt p 0).map (fun e => (e.slot, e.step)) = some (n, 3) := by
  have heq : y.afterReset p 0 sp = ((y.updEnum p 0 fun e => { e with speed := sp }).giveSlot p 0 n).enumStep p 0 3 0 := by
    have hfree : (y.updEnum p 0 fun e => { e with speed := sp }).slotFree = some n := hn
    unfold Sys.afterReset Sys.takeSlot
    rw [he]
    dsimp only
    rw [hr, hfree]
    rfl
  rw [heq]
  have he' : (y.updEnum p 0 fun e => { e with speed := sp }).enumAt p 0 = some { e with speed := sp } := by
    rw [enumAt_updEnum (by exact fun _ => ⟨rfl, rfl⟩), he]
    rfl
  obtain ⟨hen, hregs, hst, r, hslot⟩ := giveSlot_given (n := n) he'
  have hk := enumStep_kept p 0 3 0 ((y.updEnum p 0 fun e => { e with speed := sp }).giveSlot p 0 n)
  obtain ⟨r', hr'⟩ := hk.slot n
  have hs : (((y.updEnum p 0 fun e => { e with speed := sp }).giveSlot p 0 n).enumStep p 0 3 0).slot n =
      { (y.updEnum p 0 fun e => { e with speed := sp }).givenSlot p 0 { e with speed := sp } with hubRec := r' } := by
    rw [hr']
    exact congrArg (fun s : Slot => { s with hubRec := r' }) hslot
  refine ⟨(hk.st p).trans (hst p), hk.regs.trans hregs, by rw [hs]; rfl, by rw [hs]; rfl, by rw [hs]; rfl, by rw [hs]; rfl, ?_⟩
  rw [enumStep_enumAt, hen]
  rfl

theorem portChg_kept (p b : Nat) (y : Sys) : (∀ q, (y.portChg p b).port q = y.port q) ∧ (∀ q t, (y.portChg p b).enumAt q t = y.enumAt q t) ∧
    (y.portChg p b).slotFree = y.slotFree ∧ (y.portChg p b).pgReg (lnkPg p) 0x44 = (y.pgReg (lnkPg p) 0x44).put b b 1 := by
  have hreg : (y.portChg p b).pgReg (lnkPg p) 0x44 = (y.pgReg (lnkPg p) 0x44).put b b 1 := pgReg_setPg_self _ _ _ _
  obtain ⟨o, v, hv⟩ : ∃ o v, y.portChg p b = y.setReg o v := ⟨_, _, rfl⟩
  rw [hv] at hreg ⊢
  exact ⟨fun _ => rfl, fun _ _ => rfl, rfl, hreg⟩

/-- The end of the recovery of a new device's reset: the port is ENABLED, and the device has the lowest free slot. -/
theorem resetRecovery_takes {y : Sys} {p n : Nat} {e : Enum} (hst : (y.port p).st = .resetting) (hsof : (y.frame p).sof = true)
    (he : y.enumAt p 0 = some e) (hr : e.represent = false) (hn : y.slotFree = some n) :
    ((y.resetRecovery p true).port p).st = .enabled ∧
    ((y.resetRecovery p true).slot n).used = true ∧ ((y.resetRecovery p true).slot n).port = p ∧ ((y.resetRecovery p true).slot n).tier = 0 ∧
    ((y.resetRecovery p true).slot n).speed = (y.port p).speed ∧
    ((y.resetRecovery p true).enumAt p 0).map (fun e => (e.slot, e.step)) = some (n, 3) ∧
    (y.resetRecovery p true).pgReg (lnkPg p) 0x44 = (y.pgReg (lnkPg p) 0x44).put 3 3 1 := by
  have heq : y.resetRecovery p true = ((y.updPort p fun q => { q with st := .enabled, conn := true }).portChg p 3).afterReset p 0
      (((y.updPort p fun q => { q with st := .enabled, conn := true }).portChg p 3).port p).speed := by
    unfold Sys.resetRecovery
    rw [hst, hsof, if_pos (by decide), if_pos rfl]
  obtain ⟨hp, hen, hfree, hreg⟩ := portChg_kept p 3 (y.updPort p fun q => { q with st := .enabled, conn := true })
  have hport := (hp p).trans (updPort_port_self p (fun q => { q with st := .enabled, conn := true }) y)
  obtain ⟨h1, h2, h3, h4, h5, h6, h7⟩ := afterReset_takes (y := (y.updPort p fun q => { q with st := .enabled, conn := true }).portChg p 3)
    (((y.updPort p fun q => { q with st := .enabled, conn := true }).portChg p 3).port p).speed ((hen p 0).trans he) hr (hfree.trans hn)
  rw [heq]
  exact ⟨h1.trans (by rw [hport]), h3, h4, h5, h6.trans (by rw [hport]), h7,
    (pgReg_of_regs h2 _ _).trans (hreg.trans (by rw [pgReg_of_regs (updPort_regs p _ y)]))⟩

/-- The end of the recovery of a reset whose device has gone unplugs the port. -/
theorem resetRecovery_unplugs {y : Sys} {p : Nat} (hst : (y.port p).st = .resetting) (hsof : (y.frame p).sof = true) :
    (y.resetRecovery p false).Gone p := by
  unfold Sys.resetRecovery
  rw [hst, hsof, if_pos (by decide), if_neg (by decide)]
  exact ((gone_unplug p y).kept ((portsKept_setReg _ _ _).padKept p)).kept ((portsKept_setReg _ _ _).padKept p)

theorem evMark_kept (p r : Nat) (y0 y : Sys) : (Sys.evMark p r y0 y).regs = y.regs ∧ (Sys.evMark p r y0 y).eng = y.eng ∧
    (Sys.evMark p r y0 y).usb.enums = y.usb.enums := by
  unfold Sys.evMark
  split
  · exact ⟨rfl, rfl, rfl⟩
  · exact ⟨rfl, rfl, rfl⟩

/-! ## The obligation -/

/-- Settles O28: the commands by the state in which they find the port, and the ends of a reset's SE0 and of its recovery. -/
theorem portResetsRun : Obligations.port_resets_run := by
  unfold Obligations.port_resets_run
  refine ⟨fun s p hs hp => ⟨fun hm hst => ?_, fun hm hst => ?_, fun c r l hc h => ?_⟩,
    fun s p hops hl hst => ⟨fun chirp hsof => ?_, fun e n hsof he hr hn hm => ?_, fun hsof hm => ?_⟩⟩
  · refine does_win (execResetCmd p) rfl rfl hs ?_
    rw [doPortCmd, viaPage_manager hp, portCmd_acts hm (portReset_acts hst)]
    exact ⟨(evMark_st _ _ _ _ _).trans (requeue_root_st _ _), (evMark_slotWait _ _ _ _ _).trans (requeue_root_slotWait _ _)⟩
  · refine does_win (execDisableCmd p) rfl rfl hs ?_
    rw [doPortCmd, viaPage_manager hp, portCmd_acts hm (portDis_acts hst)]
    obtain ⟨h1, h2⟩ := disableAt_root_st p s.sys
    exact ⟨(evMark_st _ _ _ _ _).trans h1, (evMark_susp _ _ _ _ _).trans h2⟩
  · simp only [List.mem_cons, List.not_mem_nil, or_false, Prod.mk.injEq] at hc
    rcases hc with ⟨rfl, rfl, rfl⟩ | ⟨rfl, rfl, rfl⟩
    · refine does_win (execResetCmd p) rfl rfl hs ?_
      rw [doPortCmd, viaPage_manager hp, portCmd_ignored (h.imp_right portReset_ignored)]
      exact cfgErr_only _ _
    · refine does_win (execDisableCmd p) rfl rfl hs ?_
      rw [doPortCmd, viaPage_manager hp, portCmd_ignored (h.imp_right portDis_ignored)]
      exact cfgErr_only _ _
  · refine does_live (execResetSignalEnd p chirp) rfl rfl hops ?_
    rw [if_pos hl]
    exact resetSignal_settles hst hsof chirp
  · refine does_live (execResetRecoveryEnd p true) rfl rfl hops ?_
    rw [if_pos hl, if_pos rfl, portEvent_of_live hm]
    obtain ⟨h1, h2, h3, h4, h5, h6, h7⟩ := resetRecovery_takes hst hsof he hr hn
    obtain ⟨hregs, heng, hen⟩ := evMark_kept p 5 s.sys (s.sys.resetRecovery p true)
    have hslot : (Sys.evMark p 5 s.sys (s.sys.resetRecovery p true)).slot n = (s.sys.resetRecovery p true).slot n := by rw [Sys.slot, heng, Sys.slot]
    rw [hslot, enumAt_of_enums hen, pgReg_of_regs hregs]
    exact ⟨(evMark_st _ _ _ _ _).trans h1, h2, h3, h4, h5, h6, h7⟩
  · refine does_live (execResetRecoveryEnd p false) rfl rfl hops ?_
    rw [if_pos hl, if_neg (by decide), portEvent_of_live hm]
    have hgone := gone_evMark (resetRecovery_unplugs hst hsof) 2 s.sys
    exact ⟨hgone.state.imp_right fun h => ⟨h.1, h.2.1⟩, hgone.conn, hgone.speed⟩

end Sys2Proof.Machine

/-! Settles O29: enumerations advance (R264, R267, R268, R271). -/

namespace Sys2Proof.Machine

/-! ## The end of a port's SOF -/

/-- The enumerations as a property that most operations keep. -/
def enumsKeeper (l : List Enum) : Sys.Keeper where
  P y := y.usb.enums = l
  setReg _ _ h := h
  rest _ _ _ _ _ _ _ _ _ _ _ _ _ _ _ _ h := h
  frame _ _ _ h := h
  eng _ _ _ _ _ _ _ _ _ h := h

theorem sofStop_enums (p : Nat) (y : Sys) : (y.sofStop p).usb.enums = y.usb.enums :=
  Sys.Held.sofStop (K := enumsKeeper y.usb.enums) (y := y) rfl

/-- A port without SOF as a property that most operations keep. -/
def silentKeeper (p : Nat) : Sys.Keeper where
  P y := (y.frame p).sof = false
  setReg _ _ h := h
  rest _ _ _ _ _ _ _ _ _ _ _ _ _ _ _ _ h := h
  frame {y} q f hf h := by
    by_cases hpq : p = q
    · subst hpq
      rw [updFrame_frame_self]
      exact Bool.eq_false_iff.2 fun hs => Bool.eq_false_iff.1 h (hf _ hs)
    · rw [updFrame_frame_ne hpq]
      exact h
  eng _ _ _ _ _ _ _ _ _ h := h

theorem sofStop_sof (p : Nat) (y : Sys) : ((y.sofStop p).frame p).sof = false := by
  unfold Sys.sofStop
  dsimp only
  generalize each (fun id (y : Sys) => y.splitOver p id) ((y.wireCut p).frame p).cspOrder (y.wireCut p) = z
  have hlow : (z.updFrame p fun f => { f with sof := false, due := [], csp := [], cspOrder := [], ended := true }).Held (silentKeeper p) := by
    show ((z.updFrame p _).frame p).sof = false
    rw [updFrame_frame_self]
  generalize (z.updFrame p fun f => { f with sof := false, due := [], csp := [], cspOrder := [], ended := true }) = w at hlow ⊢
  exact Sys.Held.leaveMarked (K := silentKeeper p) (.ite (.commitDone (.applyPort hlow)) hlow)

/-! ## The start -/

theorem emit_bus (p : Nat) (b : Bus) (y : Sys) : y.emit (.bus p b) = { y with out := .bus p b :: y.out } := rfl

theorem driveReset_root (p : Nat) (y : Sys) : ∃ z : Sys, z.usb.enums = (y.updEnum p 0 fun e =>
      { e with st := .running, step := 1, sub := 0, place := true, first := false }).usb.enums ∧ (z.frame p).sof = false ∧
    y.driveReset p 0 = (((z.updPort p fun q => { q with st := .resetting, susp := .active, hold := 0, addr := 0, config := 0 }).incFld
      (lnkPg p) 0x54 23 16).emit (.bus p .reset)) := by
  refine ⟨((y.updEnum p 0 fun e => { e with st := .running, step := 1, sub := 0, place := true, first := false }).showEnum p 0).sofStop p,
    (sofStop_enums p _).trans (enumKept_showEnum p 0 _).enums, sofStop_sof p _, ?_⟩
  unfold Sys.driveReset
  exact if_pos rfl

theorem driveReset_enums (p t : Nat) (y : Sys) : (y.driveReset p t).usb.enums =
    (y.updEnum p t fun e => { e with st := .running, step := 1, sub := 0, place := true, first := false }).usb.enums := by
  by_cases ht : t = 0
  · subst ht
    obtain ⟨z, hz, -, h⟩ := driveReset_root p y
    rw [h, emit_bus]
    dsimp only
    rw [incFld_usb]
    exact hz
  · have hshow := (enumKept_showEnum p t (y.updEnum p t fun e => { e with st := .running, step := 1, sub := 0, place := true, first := false })).enums
    unfold Sys.driveReset
    dsimp only
    rw [if_neg ht]
    generalize ((y.updEnum p t fun e => { e with st := .running, step := 1, sub := 0, place := true, first := false }).showEnum p t) = z at hshow ⊢
    split
    · exact (enumKept_hubReq _ _ _ _).enums.trans hshow
    · exact hshow

/-- A device that takes its place starts at step 1, or goes on at step 3. -/
theorem enumBegin_started {y : Sys} {e e0 : Enum} (h : y.enumAt e.port e.tier = some e0) :
    ((y.enumBegin e).enumAt e.port e.tier).map (fun e => (e.st, e.place, e.step)) = some (.running, true, if e.step = 3 then 3 else 1) := by
  have hplace : (y.updEnum e.port e.tier fun e => { e with place := true, first := false, attempt := max 1 e.attempt }).enumAt e.port e.tier =
      some { e0 with place := true, first := false, attempt := max 1 e0.attempt } := by
    rw [enumAt_updEnum (by exact fun _ => ⟨rfl, rfl⟩), h]
    rfl
  unfold Sys.enumBegin
  dsimp only
  generalize (y.updEnum e.port e.tier fun e => { e with place := true, first := false, attempt := max 1 e.attempt }) = z at hplace ⊢
  by_cases h3 : e.step = 3
  · rw [if_pos h3, if_pos h3, enumStep_enumAt, hplace]
    rfl
  · rw [if_neg h3, if_neg h3, enumAt_of_enums (driveReset_enums _ _ z), enumAt_updEnum (by exact fun _ => ⟨rfl, rfl⟩), hplace]
    rfl

theorem reset_driven {w : Sys} {p : Nat} (hsof : (w.frame p).sof = false) (o hi lo : Nat) :
    let t := (w.updPort p fun q => { q with st := .resetting, susp := .active, hold := 0, addr := 0, config := 0 }).incFld (lnkPg p) o hi lo
    (t.port p).st = .resetting ∧ (Out.bus p .reset :: t.out).head? = some (.bus p .reset) ∧ (t.port p).addr = 0 ∧ (t.frame p).sof = false := by
  have hport := updPort_port_self p (fun q => { q with st := .resetting, susp := .active, hold := 0, addr := 0, config := 0 }) w
  dsimp only
  rw [incFld_port, incFld_frame, hport]
  exact ⟨rfl, List.head?_cons, rfl, hsof⟩

/-- A root port whose device starts: its bus reset is driven. -/
theorem enumBegin_resets {y : Sys} {e : Enum} (ht : e.tier = 0) (h3 : e.step ≠ 3) :
    ((y.enumBegin e).port e.port).st = .resetting ∧ (y.enumBegin e).out.head? = some (.bus e.port .reset) ∧
    ((y.enumBegin e).port e.port).addr = 0 ∧ ((y.enumBegin e).frame e.port).sof = false := by
  unfold Sys.enumBegin
  dsimp only
  rw [if_neg h3, ht]
  generalize (y.updEnum e.port 0 fun e => { e with place := true, first := false, attempt := max 1 e.attempt }) = z
  obtain ⟨w, -, hsof, hw⟩ := driveReset_root e.port z
  rw [hw, emit_bus]
  exact reset_driven hsof _ _ _

theorem chosen_mem {l : List Enum} {a : Option Enum} {e : Enum} {f : Option Enum → Enum → Option Enum} (hf : ∀ a b, f a b = a ∨ f a b = some b)
    (h : l.foldl f a = some e) : a = some e ∨ e ∈ l := by
  induction l generalizing a with
  | nil => exact .inl h
  | cons b r ih =>
    rcases ih h with h | h
    · rcases hf a b with hab | hab
      · exact .inl (hab ▸ h)
      · exact .inr (Option.some.inj (hab.symm.trans h) ▸ List.mem_cons_self)
    · exact .inr (List.mem_cons_of_mem _ h)

theorem nextStart_mem {y : Sys} {e : Enum} (h : y.nextStart = some e) : e ∈ y.usb.enums := by
  rcases chosen_mem (fun a b => by
    cases a with
    | none => exact .inr rfl
    | some c =>
      dsimp only
      split
      · exact .inr rfl
      · exact .inl rfl) h with h | h
  · cases h
  · exact (List.mem_filter.1 h).1

theorem enumAt_of_mem {y : Sys} {e : Enum} (h : e ∈ y.usb.enums) : ∃ e0, y.enumAt e.port e.tier = some e0 :=
  Option.isSome_iff_exists.1 (List.find?_isSome.2 ⟨e, h, by rw [beq_self_eq_true, beq_self_eq_true]; rfl⟩)

theorem evMark_out (p r : Nat) (y0 y : Sys) : (Sys.evMark p r y0 y).out = y.out ∧ (Sys.evMark p r y0 y).usb.frame = y.usb.frame := by
  unfold Sys.evMark
  split
  · exact ⟨rfl, rfl⟩
  · exact ⟨rfl, rfl⟩

/-! ## A slot that comes free -/

/-- The choice of the first of the devices held finds `e`. -/
theorem firstOrder_eq {f : Option Enum → Enum → Option Enum} (hnone : ∀ e, f none e = some e)
    (hsome : ∀ b e, f (some b) e = if e.order < b.order then some e else some b) {l : List Enum} {a : Option Enum} {e : Enum} (hl : ∀ f ∈ l, f = e ∨ e.order < f.order)
    (ha : ∀ b, a = some b → b = e ∨ e.order < b.order) (he : a = some e ∨ e ∈ l) :
    l.foldl f a = some e := by
  induction l generalizing a with
  | nil => exact he.resolve_right List.not_mem_nil
  | cons f r ih =>
    have hf := hl f List.mem_cons_self
    refine ih (fun g hg => hl g (List.mem_cons_of_mem _ hg)) ?_ ?_
    · intro b hb
      cases a with
      | none =>
        rw [hnone] at hb
        exact Option.some.inj hb ▸ hf
      | some c =>
        rw [hsome] at hb
        split at hb
        · exact Option.some.inj hb ▸ hf
        · exact Option.some.inj hb ▸ ha c rfl
    · cases a with
      | none =>
        rw [hnone]
        rcases List.mem_cons.1 (he.resolve_left nofun) with h | h
        · exact .inl (h ▸ rfl)
        · exact .inr h
      | some c =>
        rw [hsome]
        rcases he with h | h
        · cases h
          refine .inl (if_neg ?_)
          rcases hf with rfl | hf
          · exact Nat.lt_irrefl _
          · exact Nat.not_lt.2 hf.le
        · rcases List.mem_cons.1 h with rfl | h
          · rcases ha c rfl with rfl | hc
            · exact .inl (ite_self _)
            · exact .inl (if_pos hc)
          · exact .inr h

/-- A device that goes on at step 3 keeps its slot. -/
theorem enumBegin_goes {y : Sys} {e : Enum} {n : Nat} (h3 : e.step = 3) (he : y.enumAt e.port e.tier = some e) :
    (∃ r, (y.enumBegin e).slot n = { y.slot n with hubRec := r } ∧
      ((y.enumBegin e).enumAt e.port e.tier).map (fun e => (e.slot, e.step)) = some (e.slot, 3)) := by
  have hplace : (y.updEnum e.port e.tier fun e => { e with place := true, first := false, attempt := max 1 e.attempt }).enumAt e.port e.tier =
      some { e with place := true, first := false, attempt := max 1 e.attempt } := by
    rw [enumAt_updEnum (by exact fun _ => ⟨rfl, rfl⟩), he]
    rfl
  have hslot : (y.updEnum e.port e.tier fun e => { e with place := true, first := false, attempt := max 1 e.attempt }).slot n = y.slot n := rfl
  unfold Sys.enumBegin
  dsimp only
  rw [if_pos h3]
  generalize (y.updEnum e.port e.tier fun e => { e with place := true, first := false, attempt := max 1 e.attempt }) = z at hplace hslot ⊢
  obtain ⟨r, hr⟩ := (enumStep_kept e.port e.tier 3 0 z).slot n
  refine ⟨r, hr.trans ?_, ?_⟩
  · rw [← hslot]
    rfl
  · rw [enumStep_enumAt, hplace]
    rfl

/-- A slot that comes free goes to the first device held for one. -/
theorem slotGrant_gives {y : Sys} {e : Enum} {n : Nat} (he : y.enumAt e.port e.tier = some e) (hst : e.st = .slotWait)
    (hfirst : ∀ f ∈ y.usb.enums, f.st = .slotWait → f = e ∨ e.order < f.order) (hn : y.slotFree = some n) :
    (y.slotGrant.slot n).used = true ∧ (y.slotGrant.slot n).port = e.port ∧ (y.slotGrant.slot n).tier = e.tier ∧
    (y.slotGrant.slot n).speed = e.speed ∧ (y.slotGrant.slot n).addr = 0 ∧
    (y.slotGrant.enumAt e.port e.tier).map (fun e => (e.slot, e.step)) = some (n, 3) := by
  have hmem : e ∈ y.usb.enums := List.mem_of_find?_eq_some he
  have hbest := fun f hnone hsome => firstOrder_eq (f := f) hnone hsome (l := y.usb.enums.filter fun e => e.st == .slotWait) (a := none) (e := e)
    (fun f hf => hfirst f (List.mem_filter.1 hf).1 (eq_of_beq (List.mem_filter.1 hf).2)) (fun b hb => nomatch hb)
    (.inr (List.mem_filter.2 ⟨hmem, by rw [hst]; rfl⟩))
  obtain ⟨hen, -, -, r, hslot⟩ := giveSlot_given (n := n) he
  unfold Sys.slotGrant
  dsimp only
  rw [hbest _ ?_ ?_, hn]
  rotate_left
  · exact fun _ => rfl
  · exact fun _ _ => rfl
  dsimp only
  generalize y.giveSlot e.port e.tier n = z at hen hslot ⊢
  have hz := enumAt_updEnum (p := e.port) (t := e.tier) (f := fun e => { e with st := .queued, first := true, step := 3, sub := 0, tries := 0 })
    (by exact fun _ => ⟨rfl, rfl⟩) z
  rw [hen] at hz
  have hzs : (z.updEnum e.port e.tier fun e => { e with st := .queued, first := true, step := 3, sub := 0, tries := 0 }).slot n = z.slot n := rfl
  generalize (z.updEnum e.port e.tier fun e => { e with st := .queued, first := true, step := 3, sub := 0, tries := 0 }) = w at hz hzs ⊢
  have hshow := enumKept_showEnum e.port e.tier w
  have hen' := (enumAt_of_enums hshow.enums e.port e.tier).trans hz
  obtain ⟨r', hr'⟩ := hshow.slot n
  rw [hzs, hslot] at hr'
  generalize w.showEnum e.port e.tier = u at hen' hr' ⊢
  rw [hen']
  dsimp only [Option.map_some]
  split
  · obtain ⟨r'', hr'', hgo⟩ := enumBegin_goes (n := n) (e := { e with slot := n, st := .queued, first := true, step := 3, sub := 0, tries := 0 }) rfl hen'
    rw [hr'', hr', hgo]
    exact ⟨rfl, rfl, rfl, rfl, rfl, rfl⟩
  · rw [hr', hen']
    exact ⟨rfl, rfl, rfl, rfl, rfl, rfl⟩

/-! ## Answers to an enumeration's requests -/

theorem enumKept_chipOver (sel : Xfer → Bool) (y : Sys) : y.EnumKept (y.chipOver sel) := by
  obtain ⟨hp, -, -, -, he⟩ := portsKept_chipOver sel y
  obtain ⟨u, xs, nx, h, hreq⟩ := requestOnly_chipOver sel y
  generalize y.chipOver sel = z at hp he hreq
  exact enumKept_of hp (by rw [hreq]) (by rw [hreq]) he

/-- The end of a request's transfer leaves its enumeration alone. -/
theorem enumKept_reqOver (o p t : Nat) (y : Sys) : y.EnumKept (y.reqOver o p t) := by
  have hres : ∀ flow prio, y.EnumKept (y.reqResult o p t flow prio) := fun flow prio => by
    have hdone : y.EnumKept (y.chipDone o p t) := enumKept_chipOver _ y
    unfold Sys.reqResult
    dsimp only
    generalize y.chipDone o p t = z at hdone ⊢
    exact .ite (hdone.trans (enumKept_of rfl rfl rfl rfl)) hdone
  unfold Sys.reqOver
  split
  · exact hres _ _
  · split
    · exact hres _ _
    · exact enumKept_refl y

/-- SET_ADDRESS answered: the address is in force. -/
theorem requestOk_addressed {y : Sys} {p t : Nat} {e : Enum} (he : y.enumAt p t = some e) (h4 : e.step = 4) (b : List Byte) :
    ((y.requestOk p t e b).slot e.slot).addr = e.addr ∧
    ((y.requestOk p t e b).enumAt p t).map (fun e => (e.step, e.sub, e.tries)) = some (4, 1, 0) ∧
    (t = 0 → ((y.requestOk p t e b).port p).addr = e.addr) := by
  have hslot : (((y.updSlot e.slot fun s => { s with addr := e.addr }).updEnum p t fun e => { e with sub := 1, tries := 0 }).slot e.slot).addr =
      e.addr := congrArg Slot.addr (updSlot_slot_self e.slot (fun s => { s with addr := e.addr }) y)
  have hen : (((y.updSlot e.slot fun s => { s with addr := e.addr }).updEnum p t fun e => { e with sub := 1, tries := 0 }).enumAt p t).map
      (fun e => (e.step, e.sub, e.tries)) = some (4, 1, 0) := by
    rw [enumAt_updEnum (by exact fun _ => ⟨rfl, rfl⟩), show (y.updSlot e.slot fun s => { s with addr := e.addr }).enumAt p t = y.enumAt p t from rfl,
      he, ← h4]
    rfl
  have heq : y.requestOk p t e b =
      let z := (y.updSlot e.slot fun s => { s with addr := e.addr }).updEnum p t fun e => { e with sub := 1, tries := 0 }
      if t = 0 then z.updPort p fun q => { q with addr := e.addr } else z := by
    unfold Sys.requestOk
    rw [h4]
    rfl
  rw [heq]
  dsimp only
  generalize ((y.updSlot e.slot fun s => { s with addr := e.addr }).updEnum p t fun e => { e with sub := 1, tries := 0 }) = z at hslot hen ⊢
  by_cases ht : t = 0
  · rw [if_pos ht]
    exact ⟨hslot, hen, fun _ => by rw [updPort_port_self]⟩
  · rw [if_neg ht]
    exact ⟨hslot, hen, fun h => absurd h ht⟩

/-- A request that has failed less than twice is counted and issued again. -/
theorem requestFail_again {y : Sys} {p t k : Nat} {e : Enum} (he : y.enumAt p t = some e) (ht : e.tries < 2) :
    ((y.requestFail p t k).enumAt p t).map (fun e => (e.step, e.sub, e.tries)) = some (e.step, e.sub, e.tries + 1) := by
  have hen : ((y.updEnum p t fun e => { e with tries := e.tries + 1 }).enumAt p t).map (fun e => (e.step, e.sub, e.tries)) =
      some (e.step, e.sub, e.tries + 1) := by
    rw [enumAt_updEnum (by exact fun _ => ⟨rfl, rfl⟩), he]
    rfl
  unfold Sys.requestFail
  rw [he]
  dsimp only
  rw [if_pos ht]
  generalize (y.updEnum p t fun e => { e with tries := e.tries + 1 }) = z at hen ⊢
  have hall : z.EnumKept (if e.step = 1 then
      match z.hubPortAt p t with
      | some (h, hp, _) => z.hubReq h (.portReset hp) (setupPkt 0x23 3 4 hp 0)
      | none => z
    else z.enumIssue p t) := by
    refine .ite ?_ (enumKept_enumIssue p t z)
    split
    · exact enumKept_hubReq _ _ _ z
    · exact enumKept_refl z
  rw [← enumAt_of_enums hall.enums] at hen
  exact hen

theorem ctlReply_enum {y : Sys} {p t : Nat} {e : Enum} (he : y.enumAt p t = some e) (r : ReqRes) : y.ctlReply p t r = y.enumReply p t r := by
  unfold Sys.ctlReply
  rw [he]

theorem enumReply_ok {y : Sys} {p t : Nat} {e : Enum} {b : List Byte} (he : y.enumAt p t = some e) (ha : e.asks = true) (h4 : e.step = 4) :
    y.enumReply p t (.ok b) = y.requestOk p t e b := by
  have hok : replyOk e b = true := by
    unfold replyOk
    rw [h4]
    rfl
  unfold Sys.enumReply
  rw [he]
  dsimp only
  rw [ha, hok]
  rfl

theorem enumReply_bad {y : Sys} {p t : Nat} {e : Enum} {r : ReqRes} (he : y.enumAt p t = some e) (ha : e.asks = true) (h10 : e.step ≠ 10)
    (hr : r = .stall ∨ r = .failed) : ∃ k, y.enumReply p t r = y.requestFail p t k := by
  unfold Sys.enumReply
  rw [he]
  dsimp only
  rw [ha, if_neg (by decide)]
  have hbad : ¬ (e.step = 10 ∧ 2 ≤ e.tries) := fun h => h10 h.1
  rcases hr with rfl | rfl
  · exact ⟨2, if_neg hbad⟩
  · exact ⟨1, if_neg hbad⟩

/-- An answer to an enumeration's request that has been sent. -/
theorem exec_enumRequestComplete {s : State} {p : Fin 128} {tier : Word} {e : Enum} (hops : s.operates = true) (hl : s.sys.linkWorks p = true)
    (he : s.sys.enumAt p tier.toNat = some e) (ha : e.asks = true) (hw : s.sys.reqWaits 0 p tier.toNat = false) (r : ReqRes) :
    exec (.enumRequestComplete p tier r) s = .next { s with sys := (s.sys.reqOver 0 p tier.toNat).enumReply p tier.toNat r } := by
  have hasked : s.sys.ctlAsked p tier.toNat = true := by
    unfold Sys.ctlAsked
    rw [he]
    exact ha
  have hown : s.sys.ctlOwn p tier.toNat = 0 := by
    unfold Sys.ctlOwn
    rw [he]
    rfl
  refine (exec_live (execEnumRequestComplete p tier r) rfl rfl hops).trans ?_
  rw [hown, hl, hasked, hw, if_pos (by decide), ctlReply_enum ((enumAt_of_enums (enumKept_reqOver _ _ _ _).enums _ _).trans he)]

/-- The timeout of an enumeration's request that has been sent. -/
theorem exec_enumRequestTimeout {s : State} {p : Fin 128} {tier : Word} {e : Enum} (hops : s.operates = true) (hl : s.sys.linkWorks p = true)
    (he : s.sys.enumAt p tier.toNat = some e) (ha : e.asks = true) (hq : s.sys.reqQueued 0 p tier.toNat = false)
    (hh : s.sys.hubStepAt p tier.toNat = false) :
    exec (.enumRequestTimeout p tier) s = .next { s with sys := (s.sys.reqOver 0 p tier.toNat).enumReply p tier.toNat .failed } := by
  have hasked : s.sys.ctlAsked p tier.toNat = true := by
    unfold Sys.ctlAsked
    rw [he]
    exact ha
  have hown : s.sys.ctlOwn p tier.toNat = 0 := by
    unfold Sys.ctlOwn
    rw [he]
    rfl
  refine (exec_live (execEnumRequestTimeout p tier) rfl rfl hops).trans ?_
  dsimp only
  rw [hl, if_neg (by decide), hh, if_neg (by decide), hown, hasked, hq, if_pos (by decide),
    ctlReply_enum ((enumAt_of_enums (enumKept_reqOver _ _ _ _).enums _ _).trans he)]

/-! ## The obligation -/

theorem placeTo_live {y : Sys} {e : Enum} (h : e.tier ≠ 0 ∨ y.moot e.port 5 = false) :
    y.placeTo e = y.enumBegin e ∨ y.placeTo e = Sys.evMark e.port 5 y (y.enumBegin e) := by
  unfold Sys.placeTo
  by_cases ht : e.tier = 0
  · rw [if_pos ht, portEvent_of_live (h.resolve_left fun hn => hn ht)]
    exact .inr rfl
  · exact .inl (if_neg ht)

/-- Settles O29, clause by clause: a start (`enumBegin_started`), a slot granted, and the answers to an enumeration's requests. -/
theorem enumerationsAdvance : Obligations.enumerations_advance := by
  unfold Obligations.enumerations_advance
  refine ⟨fun s e hops hn => ⟨fun ht hm => ?_, fun h => ?_, fun ht h3 hm => ?_⟩, fun s e n hops he hst hfirst hfree => ?_,
    fun s p tier e hops hl he hq => ⟨fun b hw hst h4 h0 => ?_, fun hw ha h10 htr r hr => ?_, fun ha h10 htr hh => ?_, fun hst h4 h1 => ?_⟩⟩
  · refine exec_live_same execEnumStart rfl rfl hops ?_
    rw [hn]
    exact (if_pos ht).trans (portEvent_of_moot hm _)
  · obtain ⟨e0, he0⟩ := enumAt_of_mem (nextStart_mem hn)
    refine does_live execEnumStart rfl rfl hops ?_
    rw [hn]
    dsimp only
    rcases placeTo_live h with hp | hp
    · rw [hp]
      exact enumBegin_started he0
    · rw [hp, enumAt_of_enums (evMark_kept _ _ _ _).2.2]
      exact enumBegin_started he0
  · refine does_live execEnumStart rfl rfl hops ?_
    rw [hn]
    dsimp only
    rw [Sys.placeTo, if_pos ht, portEvent_of_live hm]
    obtain ⟨h1, h2, h3, h4⟩ := enumBegin_resets (y := s.sys) ht h3
    obtain ⟨hout, hframe⟩ := evMark_out e.port 5 s.sys (s.sys.enumBegin e)
    refine ⟨(evMark_st _ _ _ _ _).trans h1, by rw [hout]; exact h2,
      (evMark_keeps Port.addr (fun _ _ _ _ _ _ _ => rfl) _ _ _ _ _).trans h3, ?_⟩
    rw [Sys.frame, hframe]
    exact h4
  · exact does_live execSlotGrant rfl rfl hops (slotGrant_gives he hst hfirst hfree)
  · have ha : e.asks = true := by
      unfold Enum.asks
      rw [hst, h4, h0]
      rfl
    have hen := (enumAt_of_enums (enumKept_reqOver 0 p tier.toNat s.sys).enums p tier.toNat).trans he
    obtain ⟨h1, h2, h3⟩ := requestOk_addressed hen h4 b
    refine ⟨_, exec_enumRequestComplete hops hl he ha hw (.ok b), ?_⟩
    rw [enumReply_ok hen ha h4]
    exact ⟨h1, h2, fun ht => h3 (by rw [ht]; rfl)⟩
  · have hen := (enumAt_of_enums (enumKept_reqOver 0 p tier.toNat s.sys).enums p tier.toNat).trans he
    obtain ⟨k, hk⟩ := enumReply_bad hen ha h10 hr
    refine ⟨_, exec_enumRequestComplete hops hl he ha hw r, ?_⟩
    rw [hk]
    exact requestFail_again hen htr
  · have hen := (enumAt_of_enums (enumKept_reqOver 0 p tier.toNat s.sys).enums p tier.toNat).trans he
    obtain ⟨k, hk⟩ := enumReply_bad hen ha h10 (.inr rfl)
    refine ⟨_, exec_enumRequestTimeout hops hl he ha hq hh, ?_⟩
    rw [hk]
    exact requestFail_again hen htr
  · refine does_live (execSetAddressRecoveryEnd p tier) rfl rfl hops ?_
    unfold Sys.addrRecovered
    rw [he]
    dsimp only
    rw [hst, h4, h1, if_pos (by decide), enumStep_enumAt, he]
    rfl

end Sys2Proof.Machine

/-! SUPPORT. Items on cores (R421-R436, R440, R444, R559): what freeing an entry leaves, what a core drops, and what a fault of the whole
chip records. -/

namespace Sys2Proof.Machine

/-! ## An entry that is freed -/

/-- What waits for an entry can move on: an item may come to the pool, and none goes; the registers, the cores, their local SRAM and the
faults stay. -/
def Sys.Drains (y t : Sys) : Prop :=
  t.regs = y.regs ∧ t.eng.cores = y.eng.cores ∧ t.eng.lsram = y.eng.lsram ∧ t.contain = y.contain ∧
  ∀ j ∈ y.eng.holly.items, j ∈ t.eng.holly.items

theorem drains_refl (y : Sys) : y.Drains y := ⟨rfl, rfl, rfl, rfl, fun _ h => h⟩

theorem Sys.Drains.trans {y z t : Sys} (h : y.Drains z) (k : z.Drains t) : y.Drains t := by
  obtain ⟨h1, h2, h3, h4, h5⟩ := h
  obtain ⟨k1, k2, k3, k4, k5⟩ := k
  exact ⟨k1.trans h1, k2.trans h2, k3.trans h3, k4.trans h4, fun j hj => k5 j (h5 j hj)⟩

theorem Sys.Drains.ite {y t t' : Sys} {p : Prop} [Decidable p] (h : y.Drains t) (k : y.Drains t') : y.Drains (if p then t else t') := by
  split <;> assumption

theorem Sys.Drains.core {y t : Sys} (h : y.Drains t) (c : Nat) : t.core c = y.core c := by
  obtain ⟨-, hk, -⟩ := h
  rw [Sys.core, hk]
  rfl

theorem drains_updHolly {y : Sys} {f : Holly → Holly} (hf : ∀ j ∈ y.eng.holly.items, j ∈ (f y.eng.holly).items) : y.Drains (y.updHolly f) :=
  ⟨rfl, rfl, rfl, rfl, hf⟩

theorem drains_pushItem (i : Item) (y : Sys) : y.Drains (y.pushItem i) := by
  refine drains_updHolly fun j hj => ?_
  split
  · exact hj
  · exact List.mem_append_left _ hj

theorem drains_ovfDrain (y : Sys) : y.Drains y.ovfDrain := by
  fun_cases Sys.ovfDrain y
  · exact drains_refl y
  · exact drains_updHolly fun j hj => List.mem_append_left _ hj
  · exact drains_refl y

theorem drains_expire (d : Delay) (y : Sys) : y.Drains (y.expire d) := .ite (drains_pushItem _ y) (drains_updHolly fun _ h => h)

theorem drains_expiryDrain (fuel : Nat) (y : Sys) : y.Drains (y.expiryDrain fuel) := by
  induction fuel generalizing y with
  | zero => exact drains_refl y
  | succ fuel ih =>
    unfold Sys.expiryDrain
    split
    · exact .ite (((drains_updHolly fun _ h => h).trans (drains_pushItem _ _)).trans (ih _)) (drains_refl y)
    · exact drains_refl y

theorem drains_lateDrain (fuel : Nat) (y : Sys) : y.Drains (y.lateDrain fuel) := by
  induction fuel generalizing y with
  | zero => exact drains_refl y
  | succ fuel ih =>
    unfold Sys.lateDrain
    split
    · refine .ite (Sys.Drains.trans (.ite ?_ ?_) (ih _)) (drains_refl y)
      · exact Sys.Drains.trans (drains_updHolly fun _ h => h) (drains_expire _ _)
      · exact Sys.Drains.trans (drains_updHolly fun _ h => h) (drains_updHolly fun _ h => h)
    · exact drains_refl y

theorem drains_issueNow (r : CReq) (y : Sys) : y.Drains (y.issueNow r) :=
  .ite (drains_refl y) (drains_updHolly fun _ h => h)

theorem drains_issueDrain (fuel : Nat) (y : Sys) : y.Drains (y.issueDrain fuel) := by
  induction fuel generalizing y with
  | zero => exact drains_refl y
  | succ fuel ih =>
    unfold Sys.issueDrain
    split
    · exact .ite ((drains_updHolly fun _ h => h).trans (ih _))
        (.ite (((drains_updHolly fun _ h => h).trans (drains_issueNow _ _)).trans (ih _)) (drains_refl y))
    · exact drains_refl y

theorem drains_noticeDrain (fuel : Nat) (y : Sys) : y.Drains (y.noticeDrain fuel) := by
  induction fuel generalizing y with
  | zero => exact drains_refl y
  | succ fuel ih =>
    unfold Sys.noticeDrain
    refine .ite (drains_refl y) ?_
    dsimp only
    split
    · exact (drains_pushItem _ y).trans (ih _)
    · exact drains_refl y

theorem drains_entryFreed (y : Sys) : y.Drains y.entryFreed :=
  ((((drains_ovfDrain y).trans (drains_expiryDrain _ _)).trans (drains_lateDrain _ _)).trans (drains_issueDrain _ _)).trans (drains_noticeDrain _ _)

/-! ## The end of an item -/

theorem oddRecord_same {c : Nat} {i : Item} {y : Sys} (hcur : (y.core c).cur = some i)
    (h : ¬ (i.what = .record ∧ (y.slot i.flow).pers.code = 6)) : y.oddRecord c = y := by
  unfold Sys.oddRecord
  rw [hcur]
  dsimp only
  refine if_neg fun hc => h ?_
  simp only [Bool.and_eq_true, beq_iff_eq] at hc
  obtain ⟨⟨⟨hw, -⟩, hp⟩, -⟩ := hc
  exact ⟨hw, hp⟩

/-- A core after the end of its item: the next one prefetched, or none. -/
def Core.ended (k : Core) : Core :=
  match k.slots with
  | j :: r => { k with cur := some j, slots := r }
  | [] => { k with cur := none, st := if k.st = .running then .idle else k.st }

theorem itemDone_ends {c : Nat} {y : Sys} (h : (y.core c).cur ≠ none) :
    (y.itemDone c).core c = (y.core c).ended ∧ (y.itemDone c).regs = y.regs ∧ ∀ d, d ≠ c → (y.itemDone c).core d = y.core d := by
  obtain ⟨i, hi⟩ := Option.ne_none_iff_exists'.1 h
  unfold Sys.itemDone
  rw [hi]
  dsimp only
  have hd := drains_entryFreed ((y.updHolly fun h => { h with gran := h.gran - i.gran }).updCore c fun k =>
    match k.slots with
    | j :: r => { k with cur := some j, slots := r }
    | [] => { k with cur := none, st := if k.st == .running then .idle else k.st })
  refine ⟨(hd.core c).trans ((updCore_core_self _ _ _).trans ?_), hd.1, fun d hne => (hd.core d).trans (updCore_core_ne hne _ _)⟩
  show _ = (y.core c).ended
  rw [show (y.updHolly fun h => { h with gran := h.gran - i.gran }).core c = y.core c from rfl]
  unfold Core.ended
  cases (y.core c).slots with
  | nil => simp only [beq_iff_eq]
  | cons j r => rfl

end Sys2Proof.Machine

/-! SUPPORT. What a core drops when it is reset (R428, R431, R559). -/

namespace Sys2Proof.Machine

theorem workKept_of {y t : Sys} (hh : t.eng.holly = y.eng.holly) (hl : t.eng.lsram = y.eng.lsram) (hc : t.contain = y.contain)
    (hg : t.regs = y.regs) (hk : t.eng.cores = y.eng.cores) : y.WorkKept t := by
  refine ⟨hh, hl, hc, fun a _ _ => by rw [Sys.reg, hg]; rfl, fun c => ?_⟩
  rw [Sys.core, hk]
  rfl

theorem Sys.DeskOnly.workKept {y t : Sys} (h : y.DeskOnly t) : y.WorkKept t := by
  obtain ⟨-, -, -, -, h⟩ := h
  exact h

theorem Sys.WorkKept.core {y t : Sys} (h : y.WorkKept t) (c : Nat) :
    (t.core c).st = (y.core c).st ∧ (t.core c).cause = (y.core c).cause ∧ (t.core c).cur = (y.core c).cur ∧ (t.core c).slots = (y.core c).slots := by
  obtain ⟨-, -, -, -, h⟩ := h
  rw [h c]
  exact ⟨rfl, rfl, rfl, rfl⟩

/-- Core `c` has lost its item: what it did and what it prefetched stay with it, the items of the pool, the registers and the faults stay. -/
def Sys.ItemLost (c : Nat) (y t : Sys) : Prop :=
  (t.core c).st = (y.core c).st ∧ (t.core c).cause = (y.core c).cause ∧ (t.core c).cur = none ∧ (t.core c).slots = (y.core c).slots ∧
  t.eng.holly.items = y.eng.holly.items ∧ t.regs = y.regs ∧ t.contain = y.contain

/-- The cores, the pool of items, the registers and the faults have not changed. -/
def Sys.PoolKept (y t : Sys) : Prop :=
  t.eng.cores = y.eng.cores ∧ t.eng.holly.items = y.eng.holly.items ∧ t.regs = y.regs ∧ t.contain = y.contain

theorem poolKept_timerOff (n : Nat) (k : PTimer) (y : Sys) : y.PoolKept (y.timerOff n k) := ⟨rfl, rfl, rfl, rfl⟩

theorem Sys.PoolKept.trans {y z t : Sys} (h : y.PoolKept z) (k : z.PoolKept t) : y.PoolKept t := by
  obtain ⟨h1, h2, h3, h4⟩ := h
  obtain ⟨k1, k2, k3, k4⟩ := k
  exact ⟨k1.trans h1, k2.trans h2, k3.trans h3, k4.trans h4⟩

theorem poolKept_persPoison (n : Nat) (y : Sys) : y.PoolKept (y.persPoison n) := by
  have hlost : y.PoolKept (match (y.slot n).inst with
      | some i => y.updInst i fun z => { z with lostPend := true }
      | none => y) := by
    split
    · exact ⟨rfl, rfl, rfl, rfl⟩
    · exact ⟨rfl, rfl, rfl, rfl⟩
  have hpers : ∀ (f : Pers → Pers) (z : Sys), z.PoolKept (z.updPers n f) := fun _ _ => ⟨rfl, rfl, rfl, rfl⟩
  exact (((hlost.trans (poolKept_timerOff _ _ _)).trans (poolKept_timerOff _ _ _)).trans (poolKept_timerOff _ _ _)).trans (hpers _ _)

theorem itemLost_dropItem (c : Nat) (y : Sys) : y.ItemLost c (y.dropItem c) := by
  unfold Sys.dropItem
  split
  case h_1 hcur => exact ⟨rfl, rfl, hcur, rfl, rfl, rfl, rfl⟩
  case h_2 i hcur =>
    dsimp only
    have hdrop : y.ItemLost c ((y.updHolly fun h => { h with gran := h.gran - i.gran }).updCore c fun k => { k with cur := none }) := by
      unfold Sys.ItemLost
      rw [updCore_core_self]
      exact ⟨rfl, rfl, rfl, rfl, rfl, rfl, rfl⟩
    generalize ((y.updHolly fun h => { h with gran := h.gran - i.gran }).updCore c fun k => { k with cur := none }) = z at hdrop ⊢
    split
    · obtain ⟨hk, hi, hr, hc⟩ := poolKept_persPoison i.flow z
      obtain ⟨h1, h2, h3, h4, h5, h6, h7⟩ := hdrop
      have hcore : (z.persPoison i.flow).core c = z.core c := by rw [Sys.core, hk]; rfl
      exact ⟨by rw [hcore, h1], by rw [hcore, h2], by rw [hcore, h3], by rw [hcore, h4], hi.trans h5, hr.trans h6, hc.trans h7⟩
    · exact hdrop

theorem mem_insSeq {i j : Item} {l : List Item} (h : j = i ∨ j ∈ l) : j ∈ insSeq i l := by
  induction l with
  | nil =>
    rcases h with h | h
    · exact h ▸ List.mem_singleton_self i
    · exact absurd h List.not_mem_nil
  | cons k r ih =>
    unfold insSeq
    split
    · rcases h with h | h
      · exact h ▸ List.mem_cons_self
      · exact List.mem_cons_of_mem _ h
    · rcases h with h | h
      · exact List.mem_cons_of_mem _ (ih (.inl h))
      · rcases List.mem_cons.1 h with h | h
        · exact h ▸ List.mem_cons_self
        · exact List.mem_cons_of_mem _ (ih (.inr h))

theorem mem_insSeq_foldl {j : Item} {is l : List Item} (h : j ∈ is ∨ j ∈ l) : j ∈ is.foldl (fun l i => insSeq i l) l := by
  induction is generalizing l with
  | nil => exact h.resolve_left List.not_mem_nil
  | cons i r ih =>
    refine ih ?_
    rcases h with h | h
    · rcases List.mem_cons.1 h with h | h
      · exact .inr (mem_insSeq (.inl h))
      · exact .inl h
    · exact .inr (mem_insSeq (.inr h))

/-- The items that a core has prefetched go back to the pool. -/
theorem returnSlots_gives (c : Nat) (y : Sys) :
    ((y.returnSlots c).core c) = { y.core c with slots := [] } ∧ (∀ j ∈ (y.core c).slots, j ∈ (y.returnSlots c).eng.holly.items) ∧
    (y.returnSlots c).regs = y.regs ∧ (y.returnSlots c).contain = y.contain :=
  ⟨updCore_core_self _ _ _, fun _ hj => mem_insSeq_foldl (.inl hj), rfl, rfl⟩

/-- The service of a core is dropped: its handlers are free. -/
theorem workKept_dropService (c : Nat) (y : Sys) : y.WorkKept (y.dropService c) := by
  have hsrc : ∀ (f : Nat → Sys → CSrc → CSrc) (ss : List Nat), y.WorkKept (each (fun s (y : Sys) => y.updSrc s (f s y)) ss y) := fun f ss =>
    each_keeps (P := y.WorkKept) ss (fun s _ z hz => hz.trans (deskOnly_updSrc s (f s z) z).workKept) (workKept_refl y)
  refine (hsrc _ _).trans (Sys.Stirs.deskOnly (stirs_updCore (fun k => ?_) c _)).workKept
  rfl

/-- What the core is left with, and what else has changed by then. -/
theorem coreDrop_leaves {c : Nat} (hc : c < 16) (y : Sys) :
    ((y.coreDrop c).core c).st = (y.core c).st ∧ ((y.coreDrop c).core c).cause = (y.core c).cause ∧ ((y.coreDrop c).core c).cur = none ∧
    ((y.coreDrop c).core c).slots = [] ∧ (∀ j ∈ (y.core c).slots, j ∈ (y.coreDrop c).eng.holly.items) ∧
    (y.coreDrop c).halted (corePg c) = false ∧
    ((y.coreDrop c).pgReg (corePg c) 0x50).fld 23 16 = satInc 255 ((y.pgReg (corePg c) 0x50).fld 23 16) ∧
    (y.coreDrop c).pgReg wscPg 0x18 = y.pgReg wscPg 0x18 := by
  obtain ⟨h1, h2, h3, h4, h5, h6, h7⟩ := itemLost_dropItem c y
  obtain ⟨hk, hi, hr, -⟩ := returnSlots_gives c (y.dropItem c)
  have hmail := ((workKept_dropService c ((y.dropItem c).returnSlots c)).trans (deskOnly_tmbReset (c + 1) 4 _).workKept).trans
    (deskOnly_mbxReset (c + 1) 4 _).workKept
  change Sys.WorkKept _ ((((y.dropItem c).returnSlots c).dropService c).coreMail c) at hmail
  have hdrop : y.coreDrop c = (((((y.dropItem c).returnSlots c).dropService c).coreMail c).clearHalt (corePg c)).incFld (corePg c) 0x50 23 16 := rfl
  rw [hdrop]
  obtain ⟨m1, m2, m3, m4⟩ := hmail.core c
  obtain ⟨mh, -, -, mr, -⟩ := hmail
  rw [hk] at m1 m2 m3 m4
  generalize (((y.dropItem c).returnSlots c).dropService c).coreMail c = w at *
  have hreg : ∀ a, 0x900000 ≤ a → a < 0x920000 → w.reg a = y.reg a := fun a ha hb => by
    rw [mr a ha hb, Sys.reg, hr, h6]
    rfl
  refine ⟨m1.trans h1, m2.trans h2, m3.trans h3, m4, fun j hj => ?_, ?_, ?_, ?_⟩
  · show j ∈ w.eng.holly.items
    rw [mh]
    exact hi j (by rw [h4]; exact hj)
  · show FMap.get false (corePg c).haltKey (FMap.put false (corePg c).haltKey false w.contain.halted) = false
    exact FMap.get_put_self _ _ _ _
  · rw [fld_incFld (by decide) (by decide)]
    refine congrArg (fun v : Word => satInc 255 (v.fld 23 16)) (hreg _ ?_ ?_)
    · show 0x900000 ≤ 0x910000 + c * 0x1000 + 0x50
      omega
    · show 0x910000 + c * 0x1000 + 0x50 < 0x920000
      omega
  · rw [Sys.incFld, Sys.setFld, pgReg_setPg_ne _ _ (by decide)]
    exact hreg _ (by decide) (by decide)

end Sys2Proof.Machine

/-! SUPPORT. A core's reset, its watchdog and its reload (R428, R431-R433, R559), and the faults of the whole chip that end its work. -/

namespace Sys2Proof.Machine

/-! ## A core's reset -/

/-- What core `c` does, the items of the pool and of the work's registers and faults what stands in them, are as they were. -/
def Sys.CoreLeft (c : Nat) (y t : Sys) : Prop :=
  ((t.core c).st = (y.core c).st ∧ (t.core c).cause = (y.core c).cause ∧ (t.core c).cur = (y.core c).cur ∧ (t.core c).slots = (y.core c).slots) ∧
  (∀ j ∈ y.eng.holly.items, j ∈ t.eng.holly.items) ∧ t.contain = y.contain ∧ ∀ a, 0x900000 ≤ a → a < 0x920000 → t.reg a = y.reg a

theorem Sys.CoreLeft.trans {c : Nat} {y z t : Sys} (h : y.CoreLeft c z) (k : z.CoreLeft c t) : y.CoreLeft c t := by
  obtain ⟨⟨h1, h2, h3, h4⟩, h5, h6, h7⟩ := h
  obtain ⟨⟨k1, k2, k3, k4⟩, k5, k6, k7⟩ := k
  exact ⟨⟨k1.trans h1, k2.trans h2, k3.trans h3, k4.trans h4⟩, fun j hj => k5 j (h5 j hj), k6.trans h6,
    fun a ha hb => (k7 a ha hb).trans (h7 a ha hb)⟩

theorem Sys.WorkKept.coreLeft {y t : Sys} (h : y.WorkKept t) (c : Nat) : y.CoreLeft c t := by
  have hk := h.core c
  obtain ⟨hh, -, hc, hr, -⟩ := h
  exact ⟨hk, fun j hj => by rw [hh]; exact hj, hc, hr⟩

theorem Sys.Drains.coreLeft {y t : Sys} (h : y.Drains t) (c : Nat) : y.CoreLeft c t := by
  have hk := h.core c
  obtain ⟨hr, -, -, hc, hi⟩ := h
  exact ⟨⟨by rw [hk], by rw [hk], by rw [hk], by rw [hk]⟩, hi, hc, fun a _ _ => by rw [Sys.reg, hr]; rfl⟩

theorem corePg_at {c : Nat} (hc : c < 16) {o : Nat} (ho : o < 0x1000) : 0x900000 ≤ (corePg c).base + o ∧ (corePg c).base + o < 0x920000 := by
  show 0x900000 ≤ 0x910000 + c * 0x1000 + o ∧ 0x910000 + c * 0x1000 + o < 0x920000
  omega

/-- A core that is reset, with the state it had before. -/
def Core.resetBy (cause : Nat) (was : CoreSt) (k : Core) : Core :=
  { k with cause := if k.st == .halted && cause == 1 then 3 else cause,
           st := if was == .halted || was == .starting then .starting else if k.st == .draining then .draining else .idle }

/-- What follows a core's reset, with the state it had before. -/
def Sys.resetTail (c : Nat) (was : CoreSt) (z : Sys) : Sys :=
  (if was == .halted || was == .starting then z else z.mbxAgain (c + 1)).entryFreed.routeAll

theorem coreReset_eq (c cause : Nat) (y : Sys) :
    y.coreReset c cause = ((y.coreDrop c).updCore c (Core.resetBy cause (y.core c).st)).resetTail c (y.core c).st := rfl

theorem coreLeft_resetTail (c : Nat) (was : CoreSt) (z : Sys) : z.CoreLeft c (z.resetTail c was) := by
  have hagain : z.CoreLeft c (if was == .halted || was == .starting then z else z.mbxAgain (c + 1)) := by
    split
    · exact (workKept_refl z).coreLeft c
    · exact (deskOnly_mbxAgain _ z).workKept.coreLeft c
  exact (hagain.trans ((drains_entryFreed _).coreLeft c)).trans ((stirs_routeAll _).deskOnly.workKept.coreLeft c)

/-- What a reset leaves: no work, the items prefetched back in the pool, the halt cleared, the reset counted, and the reason noted. -/
theorem coreReset_leaves {c : Nat} (hc : c < 16) (cause : Nat) (y : Sys) :
    ((y.coreReset c cause).core c).st = (if (y.core c).st == .halted || (y.core c).st == .starting then .starting
      else if (y.core c).st == .draining then .draining else .idle) ∧
    ((y.coreReset c cause).core c).cause = (if (y.core c).st == .halted && cause == 1 then 3 else cause) ∧
    ((y.coreReset c cause).core c).cur = none ∧ ((y.coreReset c cause).core c).slots = [] ∧
    (∀ j ∈ (y.core c).slots, j ∈ (y.coreReset c cause).eng.holly.items) ∧ (y.coreReset c cause).halted (corePg c) = false ∧
    ((y.coreReset c cause).pgReg (corePg c) 0x50).fld 23 16 = satInc 255 ((y.pgReg (corePg c) 0x50).fld 23 16) ∧
    (y.coreReset c cause).pgReg wscPg 0x18 = y.pgReg wscPg 0x18 := by
  obtain ⟨d1, d2, d3, d4, d5, d6, d7, d8⟩ := coreDrop_leaves hc y
  rw [coreReset_eq]
  generalize y.coreDrop c = w at *
  have hset := updCore_core_self c (Core.resetBy cause (y.core c).st) w
  have hheld : w.eng.holly = (w.updCore c (Core.resetBy cause (y.core c).st)).eng.holly := rfl
  have hfault : (w.updCore c (Core.resetBy cause (y.core c).st)).contain = w.contain := rfl
  have hregs : ∀ a, (w.updCore c (Core.resetBy cause (y.core c).st)).reg a = w.reg a := fun _ => rfl
  generalize w.updCore c (Core.resetBy cause (y.core c).st) = z at *
  obtain ⟨⟨l1, l2, l3, l4⟩, l5, l6, l7⟩ := coreLeft_resetTail c (y.core c).st z
  rw [hset] at l1 l2 l3 l4
  obtain ⟨ha, hb⟩ := corePg_at hc (o := 0x50) (by decide)
  refine ⟨l1.trans ?_, l2.trans ?_, l3.trans d3, l4.trans d4, fun j hj => l5 j (hheld ▸ d5 j hj), ?_, ?_, ?_⟩
  · rw [Core.resetBy, d1]
  · rw [Core.resetBy, d1]
  · rw [Sys.halted, l6, hfault]
    exact d6
  · exact (congrArg (fun v : Word => v.fld 23 16) ((l7 _ ha hb).trans (hregs _))).trans d7
  · exact ((l7 _ (by decide) (by decide)).trans (hregs _)).trans d8

/-! ## A core's reload -/

/-- The end of a reload: the core is IDLE with its local SRAM fresh, and nothing of the engine's and the cores' registers has changed. -/
theorem coreReady_gives (c : Nat) (y : Sys) :
    ((y.coreReady c).core c).st = .idle ∧ (∀ e ∈ (y.coreReady c).eng.lsram, e.1 / 0x40000 ≠ c) ∧
    ∀ a, 0x900000 ≤ a → a < 0x920000 → (y.coreReady c).reg a = y.reg a := by
  have hset : ((y.updCore c fun k => { k with st := .idle }).lsFresh c).core c = { y.core c with st := .idle } := by
    show (y.updCore c fun k => { k with st := .idle }).core c = _
    exact updCore_core_self _ _ _
  have hfresh : ∀ e ∈ ((y.updCore c fun k => { k with st := .idle }).lsFresh c).eng.lsram, e.1 / 0x40000 ≠ c := fun e he =>
    bne_iff_ne.1 (List.mem_filter.1 he).2
  have hregs : ((y.updCore c fun k => { k with st := .idle }).lsFresh c).regs = y.regs := rfl
  have hready : y.coreReady c = (((y.updCore c fun k => { k with st := .idle }).lsFresh c).mbxAgain (c + 1)).routeAll := rfl
  rw [hready]
  generalize ((y.updCore c fun k => { k with st := .idle }).lsFresh c) = z at hset hfresh hregs ⊢
  have h := (deskOnly_mbxAgain (c + 1) z).workKept.trans (stirs_routeAll _).deskOnly.workKept
  obtain ⟨h1, -, -, -⟩ := h.core c
  obtain ⟨-, hl, -, hr, -⟩ := h
  refine ⟨h1.trans (by rw [hset]), fun e he => hfresh e (by rw [← hl]; exact he), fun a ha hb => (hr a ha hb).trans ?_⟩
  rw [Sys.reg, hregs]
  rfl

theorem reloadEnd_good {c : Nat} (hc : c < 16) {y : Sys} (hp : y.sramPoison 0x400000 0x200000 = false) (hu : y.unarmed (corePg c) = true) :
    y.reloadEnd c false = y.coreReady c := by
  obtain ⟨-, -, hr⟩ := coreReady_gives c y
  have hun : (y.coreReady c).unarmed (corePg c) = true := by
    rw [unarmed_block (y := y), hu]
    intro q hq
    obtain ⟨i, -, rfl⟩ := List.mem_map.1 hq
    obtain ⟨ha, hb⟩ := corePg_at hc (o := 0x28) (by decide)
    exact hr _ ha hb
  unfold Sys.reloadEnd
  rw [hp]
  exact (if_neg (by decide)).trans (carry_unarmed hun)

/-! ## A fault of the whole chip -/

/-- The reset of a core's domain clears its halt and leaves the engine's. -/
theorem clearHalt_core_ne {c : Nat} (y : Sys) : (y.clearHalt (corePg c)).halted wscPg = y.halted wscPg := by
  show FMap.get false wscPg.haltKey (FMap.put false (corePg c).haltKey false y.contain.halted) = FMap.get false wscPg.haltKey y.contain.halted
  refine FMap.get_put_ne _ ?_ _ _
  show (0x900000 : Nat) ≠ 0x910000 + c * 0x1000
  omega

/-- That the work scheduler is halted, while domains lose what they held. -/
def wscHaltKeeper : Sys.WideKeeper where
  P y := y.halted wscPg = true
  setReg _ _ h := h
  rest _ _ _ _ _ _ _ _ _ _ _ _ _ _ _ _ h := h
  frame _ _ _ h := h
  eng _ _ _ _ _ _ _ _ _ h := h
  usb _ h := h
  resetPages _ h := h
  lsFresh _ h := h
  clear _ h := (clearHalt_core_ne _).trans h

/-- That the top region is quarantined by a fault of the chip, while domains lose what they held. -/
def chipFaultKeeper : Sys.WideKeeper where
  P y := y.quar 9 = true ∧ y.contain.chipFault = true
  setReg _ _ h := h
  rest _ _ _ _ _ _ _ _ _ _ _ _ _ _ _ _ h := h
  frame _ _ _ h := h
  eng _ _ _ _ _ _ _ _ _ h := h
  usb _ h := h
  resetPages _ h := h
  lsFresh _ h := h
  clear _ h := h

theorem faultAer_contain (g : Pg) (y : Sys) : (y.faultAer g).contain = y.contain := by
  unfold Sys.faultAer
  dsimp only
  split_ifs <;> rfl

/-- What a fault of the chip goes on from, once it is recorded. -/
theorem chipFault_turns (g : Pg) {y : Sys} (h : y.contain.chipFault = false) :
    ∃ z : Sys, y.chipFault g = z.workOff ∧ z.contain.chipFault = true ∧ z.contain.quar = y.contain.quar ∧ z.contain.halted = y.contain.halted := by
  refine ⟨_, if_neg (Bool.eq_false_iff.1 h), ?_, ?_, ?_⟩ <;> rw [faultAer_contain]
  · show (if y.contain.valid = true then y else _).contain.quar = _
    split <;> rfl
  · show (if y.contain.valid = true then y else _).contain.halted = _
    split <;> rfl

/-- A fault of the top region quarantines it and turns the work off. -/
theorem topFault_faults (g : Pg) {y : Sys} (h : y.contain.chipFault = false) :
    (y.topFault 9 g).quar 9 = true ∧ (y.topFault 9 g).contain.chipFault = true := by
  have htop : y.topFault 9 g = (Sys.faultCount { y with contain := { y.contain with quar := FMap.put false 9 true y.contain.quar } }).chipFault g :=
    if_neg (Bool.eq_false_iff.1 h)
  obtain ⟨z, hz, hf, hq, -⟩ := chipFault_turns g
    (y := Sys.faultCount { y with contain := { y.contain with quar := FMap.put false 9 true y.contain.quar } }) h
  rw [htop, hz]
  refine Sys.Held.workOff (W := chipFaultKeeper) ⟨?_, hf⟩
  rw [Sys.quar, hq]
  show FMap.get false 9 (FMap.put false 9 true y.contain.quar) = true
  exact FMap.get_put_self _ _ _ _

/-- A fault of the top region leaves the work scheduler halted. -/
theorem topFault_halted (g : Pg) {y : Sys} (h : y.halted wscPg = true) : (y.topFault 9 g).halted wscPg = true := by
  unfold Sys.topFault
  split
  · exact h
  · next hf =>
    obtain ⟨z, hz, -, -, hh⟩ := chipFault_turns g
      (y := Sys.faultCount { y with contain := { y.contain with quar := FMap.put false 9 true y.contain.quar } }) (Bool.eq_false_iff.2 hf)
    dsimp only
    rw [hz]
    refine Sys.Held.workOff (W := wscHaltKeeper) ?_
    show FMap.get false wscPg.haltKey z.contain.halted = true
    rw [hh]
    exact h

end Sys2Proof.Machine

/-! SUPPORT. Dispatch, delay lists and the device context cache (R421, R424, R436, R440, R444), and the obligation on the work of the cores. -/

namespace Sys2Proof.Machine

/-! ## Dispatch -/

theorem giveItem_gives (c : Nat) (i : Item) (y : Sys) :
    (y.giveItem c i).core c = (if (y.core c).cur = none then { y.core c with cur := some i, st := .running }
      else { y.core c with slots := (y.core c).slots ++ [i] }) ∧
    (y.giveItem c i).eng.holly = { y.eng.holly with items := y.eng.holly.items.filter (fun j => j.seq != i.seq), rot := c } ∧
    ∀ d, d ≠ c → (y.giveItem c i).core d = y.core d := by
  refine ⟨(updCore_core_self _ _ _).trans ?_, rfl, fun d hd => updCore_core_ne hd _ _⟩
  show (if (y.core c).cur.isNone = true then { y.core c with cur := some i, st := .running }
    else { y.core c with slots := (y.core c).slots ++ [i] }) = _
  simp only [Option.isNone_iff_eq_none]

theorem itemGive_gives {c : Nat} {i : Item} {y : Sys} (hu : y.unarmed wscPg = true)
    (hc : (y.coreOrder.find? fun c => y.coreTakes c && (y.candidate c).isSome) = some c) (hi : y.candidate c = some i) :
    y.itemGive = y.giveItem c i := by
  unfold Sys.itemGive
  rw [hc]
  dsimp only
  rw [hi]
  exact carry_unarmed ((unarmed_of_regs rfl wscPg).trans hu)

/-! ## Delay lists -/

/-- The lists of delays and what judges them have not changed. -/
def Sys.ListsKept (y t : Sys) : Prop := t.tb = y.tb ∧ t.regs = y.regs ∧ t.eng.holly.delays = y.eng.holly.delays

theorem listsKept_expire (d : Delay) (y : Sys) : y.ListsKept (y.expire d) := by
  unfold Sys.expire
  split
  · refine ⟨rfl, rfl, ?_⟩
    unfold Sys.pushItem
    show (if _ then _ else _ : Holly).delays = _
    split <;> rfl
  · exact ⟨rfl, rfl, rfl⟩

theorem listsKept_expireAll (ds : List Delay) (y : Sys) : y.ListsKept (each (fun d y => y.expire d) ds y) := by
  refine each_keeps (P := y.ListsKept) ds (fun d _ z hz => ?_) ⟨rfl, rfl, rfl⟩
  obtain ⟨h1, h2, h3⟩ := hz
  obtain ⟨k1, k2, k3⟩ := listsKept_expire d z
  exact ⟨k1.trans h1, k2.trans h2, k3.trans h3⟩

theorem Sys.ListsKept.dlyNow {y t : Sys} (h : y.ListsKept t) (j : Nat) : t.dlyNow j = y.dlyNow j := by
  obtain ⟨ht, hr, -⟩ := h
  unfold Sys.dlyNow Sys.dlyTick
  rw [ht, pgReg_of_regs hr]

/-- An entry that expires is an item where one can be taken, the newest, or waits in its list. -/
theorem expire_gives (d : Delay) (y : Sys) :
    (y.eng.holly.expired = [] → y.iCan = true →
      ∃ i ∈ (y.expire d).eng.holly.items ++ (y.expire d).eng.holly.ovf, i.flow = d.flow ∧ i.prio = d.prio ∧ i.seq = y.eng.holly.seq) ∧
    (y.iCan = false → (y.expire d).eng.holly.expired = y.eng.holly.expired ++ [d]) := by
  unfold Sys.expire
  refine ⟨fun he hi => ?_, fun hi => ?_⟩
  · rw [he, hi, if_pos (by decide)]
    refine ⟨{ internalItem .expiry d.flow d.prio with seq := y.eng.holly.seq }, ?_, rfl, rfl, rfl⟩
    unfold Sys.pushItem
    rw [List.mem_append]
    show _ ∈ (if _ then _ else _ : Holly).items ∨ _ ∈ (if _ then _ else _ : Holly).ovf
    split
    · exact .inr (List.mem_append_right _ (List.mem_singleton_self _))
    · exact .inl (List.mem_append_right _ (List.mem_singleton_self _))
  · rw [hi, Bool.and_false]
    rfl

theorem ticksBelow_none {j : Nat} {y : Sys} (h : ∀ i, i < j → y.tb % max 1 (y.dlyTick i) ≠ 0) : y.ticksBelow j = y := by
  unfold Sys.ticksBelow
  refine each_keeps (P := fun z => z = y) (List.range j) (fun i hi z hz => ?_) rfl
  rw [hz]
  exact if_neg (h i (List.mem_range.1 hi))

/-- The entries of list `j` that are due. -/
def Sys.dueOf (j : Nat) (y : Sys) : List Delay := y.eng.holly.delays.filter fun d => d.list == j && tickLe d.due (y.dlyNow j)

/-- The block without the entries of list `j` that are due. -/
def Sys.dueGone (j : Nat) (y : Sys) : Sys :=
  y.updHolly fun h => { h with delays := h.delays.filter fun d => !(d.list == j && tickLe d.due (y.dlyNow j)) }

theorem delayTick_eq {j : Nat} {y : Sys} (h : y.eng.holly.late = []) :
    y.delayTick j = each (fun d y => y.expire d) (y.dueOf j) (y.dueGone j) := by
  have hlate : (y.dueGone j).eng.holly.late.length = 0 := congrArg List.length h
  show Sys.lateDrain (y.dueGone j).eng.holly.late.length (each (fun d y => y.expire d) (y.dueOf j) (y.dueGone j)) = _
  rw [hlate]
  rfl

/-! ## The device context cache -/

theorem dcxEvict_fits {fuel n : Nat} {y : Sys} (h : y.eng.dcx.length ≤ 2048) (he : y.epCached ≤ 16384) : y.dcxEvict fuel n = y := by
  cases fuel with
  | zero => rfl
  | succ fuel => exact if_pos ⟨h, he⟩

theorem dcxUse_miss {n : Nat} {s y : Sys} (hy : y = { s with eng := { s.eng with dcx := n :: s.eng.dcx.filter (· != n) } })
    (hmiss : s.eng.dcx.contains n = false) (hlen : y.eng.dcx.length ≤ 2048) (hep : y.epCached ≤ 16384) (hu : s.unarmed wscPg = true) :
    s.dcxUse n = y.incFld wscPg 0x88 31 16 := by
  have hun : (y.incFld wscPg 0x88 31 16).unarmed wscPg = true := by
    rw [Sys.incFld, Sys.setFld, unarmed_setPg (by decide), unarmed_of_regs (y := s) (by rw [hy])]
    exact hu
  have huse : s.dcxUse n = (if s.eng.dcx.contains n then y
      else (Sys.dcxEvict y.eng.dcx.length n (y.incFld wscPg 0x88 31 16)).carry wscPg) := by
    rw [hy]
    rfl
  rw [huse, hmiss, if_neg (by decide), dcxEvict_fits (y := y.incFld wscPg 0x88 31 16) hlen hep]
  exact carry_unarmed hun

/-! ## The obligation -/

theorem markHalt_halted (g : Pg) (y : Sys) : (y.markHalt g).halted g = true := by
  show FMap.get false g.haltKey (FMap.put false g.haltKey true y.contain.halted) = true
  exact FMap.get_put_self _ _ _ _


/-- A core that acts carries out what its watchdog finds. -/
theorem watchdog_leaves {c : Nat} (hc : c < 16) {y : Sys} (hlim : (y.pgReg wscPg 0x4C).fld 15 0 ≠ 0) (hcur : (y.core c).cur ≠ none)
    (hrun : (y.core c).st = .running) :
    ((y.watchdog c).core c).st = .idle ∧ ((y.watchdog c).core c).cause = 2 ∧ ((y.watchdog c).core c).cur = none ∧
    ((y.watchdog c).core c).slots = [] ∧ (∀ j ∈ (y.core c).slots, j ∈ (y.watchdog c).eng.holly.items) ∧
    ((y.watchdog c).pgReg wscPg 0x18).bit 9 = true := by
  have hgo : ((y.core c).cur.isSome && (y.pgReg wscPg 0x4C).fld 15 0 != 0) = true := by
    rw [Bool.and_eq_true, Option.isSome_iff_ne_none, bne_iff_ne]
    exact ⟨hcur, hlim⟩
  have hcore : (y.recordErr wscPg 9 c).core c = y.core c := by
    rw [reportsOnly_recordErr wscPg 9 c y]
    rfl
  obtain ⟨h1, h2, h3, h4, h5, -, -, h8⟩ := coreReset_leaves hc 2 (y.recordErr wscPg 9 c)
  rw [hcore, hrun] at h1 h2
  rw [hcore] at h5
  rw [Sys.watchdog, if_pos hgo]
  refine ⟨h1, h2, h3, h4, h5, ?_⟩
  rw [h8, recordErr_stat]
  exact Word.bit_put_self _ (by decide)

/-- Settles O50, clause by clause: a dispatch (`itemGive_gives`), the end of an item (`itemDone_ends`), the watchdog and the reset of a core
(`coreReset_leaves`), its reload, the engine's halt (`topFault_halted`), the tick of a delay list (`delayTick_eq`), and the context cache. -/
theorem itemsRunOnCores : Obligations.items_run_on_cores := by
  unfold Obligations.items_run_on_cores
  refine ⟨fun s c i hops hw hu hc hi => ?_, fun s c i hops hact hcur hodd => ?_, fun s c hops hact => ⟨fun h => ?_, fun hlim hcur hrun => ?_⟩,
    fun s c hs hl => ⟨fun hst => ?_, fun hst => ?_⟩, fun s c hops hon hst => ⟨fun hp hu => ?_, fun hf => ?_⟩,
    fun s hops hw => ⟨fun ha => ?_, fun ha => ?_⟩, fun s j hops hw hlate hbelow => ?_, fun s n hops hw hused => ⟨fun hhit => ?_, fun hmiss hlen hep hu => ?_⟩⟩
  · refine does_live_eq execItemDispatch rfl rfl hops ((if_pos hw).trans (itemGive_gives hu hc hi)) ?_
    exact giveItem_gives c i s.sys
  · have hdo : (s.sys.coreActs c && (s.sys.core c).cur.isSome) = true := by
      rw [hact, hcur]
      rfl
    refine does_live_eq (execItemEnd c) rfl rfl hops ((if_pos hdo).trans (by rw [oddRecord_same hcur hodd])) ?_
    have hcur' : ((s.sys.incFld (corePg c) 0x50 15 0).core c).cur ≠ none := by
      rw [incFld_core, hcur]
      exact Option.some_ne_none i
    obtain ⟨h1, h2, h3⟩ := itemDone_ends hcur'
    refine ⟨h1, ?_, h3⟩
    rw [pgReg_of_regs h2]
    exact fld_incFld (by decide) (by decide) _ _ _
  · refine exec_live_same (execWatchdogExpiry c) rfl rfl hops ((if_pos hact).trans (if_neg fun hc => ?_))
    rw [Bool.and_eq_true, Option.isSome_iff_ne_none, bne_iff_ne] at hc
    exact h.elim hc.2 hc.1
  · refine does_live_eq (execWatchdogExpiry c) rfl rfl hops (if_pos hact) ?_
    exact watchdog_leaves c.isLt hlim hcur hrun
  · refine does_win_eq (execCoreReset c) rfl rfl hs (viaPage_manager hl _) ?_
    obtain ⟨h1, h2, h3, h4, h5, -, h7, -⟩ := coreReset_leaves c.isLt 1 s.sys
    rcases hst with hst | hst
    · rw [hst] at h1 h2
      exact ⟨h1, h2, h3, h4, h5, h7⟩
    · rw [hst] at h1 h2
      exact ⟨h1, h2, h3, h4, h5, h7⟩
  · refine does_win_eq (execCoreReset c) rfl rfl hs (viaPage_manager hl _) ?_
    obtain ⟨h1, -, -, -, -, h6, -, -⟩ := coreReset_leaves c.isLt 1 s.sys
    rw [hst] at h1
    exact ⟨h1, h6⟩
  · have hdo : (s.sys.on (18 + c) && (s.sys.core c).st == .starting) = true := by
      rw [hon, hst]
      rfl
    refine does_live_eq (execCoreReloadEnd c false) rfl rfl hops ((if_pos hdo).trans (reloadEnd_good c.isLt hp hu)) ?_
    obtain ⟨h1, h2, -⟩ := coreReady_gives c s.sys
    exact ⟨h1, h2⟩
  · have hdo : (s.sys.on (18 + c) && (s.sys.core c).st == .starting) = true := by
      rw [hon, hst]
      rfl
    exact does_live_eq (execCoreReloadEnd c true) rfl rfl hops (if_pos hdo) (topFault_faults wscPg hf)
  · refine does_live_eq execAllStoppedExpiry rfl rfl hops (if_pos (by rw [hw, ha]; rfl)) ?_
    exact topFault_halted wscPg (markHalt_halted wscPg _)
  · exact exec_live_same execAllStoppedExpiry rfl rfl hops (if_neg (by rw [ha, Bool.and_false]; decide))
  · let y : Sys := { s.sys with tb := s.sys.tickAt j }
    have htick : (y.ticksBelow j).delayTick j = each (fun d y => y.expire d) (y.dueOf j) (y.dueGone j) := by
      rw [ticksBelow_none hbelow, delayTick_eq (y := y) hlate]
    refine does_live_eq (execDelayTick j) rfl rfl hops ((if_pos hw).trans htick) ?_
    have hkept := listsKept_expireAll (y.dueOf j) (y.dueGone j)
    have hnow : (each (fun d y => y.expire d) (y.dueOf j) (y.dueGone j)).dlyNow j = y.dlyNow j := hkept.dlyNow j
    obtain ⟨h1, -, h3⟩ := hkept
    rw [hnow]
    refine ⟨h1, h3, fun d hd => ?_⟩
    rw [show y.dueOf j = [d] from hd]
    exact expire_gives d (y.dueGone j)
  · have hdo : (s.sys.hollyWorks && (s.sys.slot n).used) = true := by
      rw [hw, hused]
      rfl
    refine (exec_live (execDeviceContextFetch n) rfl rfl hops).trans (congrArg (fun y => Host.Outcome.next { s with sys := y }) ?_)
    exact (if_pos hdo).trans (if_pos hhit)
  · have hdo : (s.sys.hollyWorks && (s.sys.slot n).used) = true := by
      rw [hw, hused]
      rfl
    refine does_live_eq (execDeviceContextFetch n) rfl rfl hops ((if_pos hdo).trans (dcxUse_miss rfl hmiss hlen hep hu)) ?_
    exact ⟨rfl, rfl, fld_incFld (by decide) (by decide) _ _ _⟩

end Sys2Proof.Machine
